-- ==== Sys2Proof/Word.lean ====
section
/-! DEFINITION. The word types of the W384 and their plainest arithmetic. -/

namespace Sys2Proof

/-- A byte of memory (00 R8). -/
abbrev Byte := BitVec 8

/-- A scalar register or a control register (03 R87). -/
abbrev W64 := BitVec 64

/-- A slot or header word (03 R66). -/
abbrev W32 := BitVec 32

/-- A vector register: 2,048 bits, lane 0 least significant (00 R9, 03 R87). -/
abbrev VReg := BitVec 2048

/-- Sparse data by key: a list of key and value pairs with rising keys; a key not listed holds a default. -/
abbrev Map (α : Type) := List (Nat × α)

end Sys2Proof
end

