-- ==== Sys2Proof/Config.lean ====
section
/-! DEFINITION. What an implementation fixes and the spec leaves open: free values.  None has a body, so no proof can
rest on a value of one.  Each is a DESIGN CHOICE of the log (notes/assumptions 12, 21, 33, 39, 46, 48–50, 60, 69, 81, 84, 93–96, 111), safe. -/

namespace Sys2Proof.Config

/-- Which neighbour VRCP, VRSQ, VEXP2 and VLOG2 deliver where the exact value is not representable (06 R193): true for
the one of larger magnitude.  Arguments: major opcode, lane type, operand.  One operand gives one result. -/
opaque faithfulUp : Nat → Nat → Nat → Bool

/-- A free choice the spec leaves to the part (10 R300: which of two values a line has), by a plain counter. -/
opaque freeBit : Nat → Bool

/-- Where the throttle's rotation stands in a cycle (20 R490). -/
opaque rotation : Nat → Nat

/-- Which free frame of a cluster the pager takes (13 R380), by counter. -/
opaque pickFrame : Nat → Nat

/-- Which entry of a full cache makes room for another (10 R288, R289, 13 R370: no replacement rule is given), by counter. -/
opaque victim : Nat → Nat

/-- The set of its slice's directory that a line falls in (10 R289: 12 ways, no index is given). -/
opaque dirSet : Nat → Nat

/-- Whether the host refuses an access to a line of its window (10 R286), by address and GCYC. -/
opaque hostRefuses : Nat → Nat → Bool

/-- What an access that is a violation reads (10 R286), by address and GCYC; it comes with the poison flag set. -/
opaque violatedByte : Nat → Nat → Byte

/-- The header word the part takes for a delay bundle it cannot fetch, when CALL needs its length (04 R117). -/
opaque unfetchedWord : Nat → Nat

/-- Bytes of the entropy source (11 R332, 19 R487). -/
opaque entropy : Nat → Byte

/-- Opaque bytes of the save slot's result and landing records (12 R518), by what the partition has latched and offset. -/
opaque savedRecord : List (List Nat) → Nat → Byte

/-- The hash that picks a watch counter for a line (11 R334). -/
opaque watchHash : Nat → Nat

/-- Whether a signed debug token is genuine (19 R487): token bytes and the nonce. -/
opaque tokenGenuine : List Byte → List Byte → Bool

/-- The bytes of the firmware image that a reset loads (20 R492), by reset and offset. -/
opaque imageByte : Nat → Nat → Byte

/-- Whether a signature of a header's digest verifies under the firmware key whose digest is fused (20 R492). -/
opaque firmwareSigned : List Byte → List Byte → Bool

/-- The fused device secret (20 R493): 32 bytes. -/
opaque fusedSecret : Nat → Byte

/-- The bytes of the ML-DSA-44 public key that a seed gives (20 R493). -/
opaque publicKey : List Byte → Nat → Byte

/-- The bytes of the signature of a digest by the key that a seed gives (20 R494). -/
opaque identitySign : List Byte → List Byte → Nat → Byte

/-- Where in the control space a die's counter of corrected errors is read (10 R295 gives no address), by die. -/
opaque correctedAt : Nat → Nat

/-- How often a copy waits on a scratchpad bank for the matrix unit (10 R298, 19 R484), by counter. -/
opaque bankWaits : Nat → Nat

/-- Whether the host keeps a line it has read or written (10 R292), by counter. -/
opaque hostKeeps : Nat → Bool

/-- The command-error code of an engine command that meets an access violation (10 R286 gives none), by major opcode. -/
opaque violationCode : Nat → Nat

/-- The bytes of a save slot after PKILL (12 R354), by counter and offset. -/
opaque killedSlot : Nat → Nat → Byte

/-- The address inside a result pool at which a stored result is laid out (11 R517), by pool and counter. -/
opaque poolPlace : Nat → Nat → Nat

/-- The state code of a BROKEN channel in its image (14 Table 14-4 gives none). -/
opaque brokenCode : Nat

/-- How many flits a packet takes on a link (17 R435: the layout of a packet is not given), by counter. -/
opaque flits : Nat → Nat

/-- Which of the element and a software store a line of a channel's ring reads (14 R391), by counter. -/
opaque ringLine : Nat → Bool

end Sys2Proof.Config
end

