-- ==== Sys2Proof/Machine/Util.lean ====
section
/-! DEFINITION. Plain helpers: sparse maps, bit fields, little-endian packing, fixed-fuel loops. -/

namespace Sys2Proof.Machine

/-- The value a sparse map holds for a key; `d` where the key is not listed. -/
def getD {α : Type} (d : α) (m : Map α) (k : Nat) : α :=
  match m with
  | [] => d
  | (k', v) :: r => if k' = k then v else getD d r k

/-- Sets the value of a key, keeping the keys in rising order. -/
def putK {α : Type} (m : Map α) (k : Nat) (v : α) : Map α :=
  match m with
  | [] => [(k, v)]
  | (k', v') :: r =>
    if k < k' then (k, v) :: (k', v') :: r
    else if k = k' then (k, v) :: r
    else (k', v') :: putK r k v

/-- Removes a key. -/
def delK {α : Type} (m : Map α) (k : Nat) : Map α := m.filter fun e => e.1 != k

/-- Sets the value of a key in a map whose unlisted keys hold `d`, keeping it canonical. -/
def putD {α : Type} [DecidableEq α] (d : α) (m : Map α) (k : Nat) (v : α) : Map α :=
  if v = d then delK m k else putK m k v

/-- Bits [hi:lo] of a number (00 Table 0-5). -/
def bitsN (x hi lo : Nat) : Nat := (x >>> lo) % 2 ^ (hi + 1 - lo)

/-- Bit n of a number. -/
def bitN (x n : Nat) : Bool := x.testBit n

/-- Bits [hi:lo] of a 64-bit word, as a number. -/
def fld (x : W64) (hi lo : Nat) : Nat := bitsN x.toNat hi lo

/-- The number of a Boolean. -/
def b2n (b : Bool) : Nat := if b then 1 else 0

/-- A number read as a two's complement value of w bits (00 Table 0-5, sext). -/
def sextI (x w : Nat) : Int :=
  let y := x % 2 ^ w
  if y < 2 ^ (w - 1) then (y : Int) else (y : Int) - (2 ^ w : Nat)

/-- An integer wrapped to w bits. -/
def wrapN (x : Int) (w : Nat) : Nat := (x % (2 ^ w : Nat)).toNat

/-- A 64-bit word of an integer, wrapping. -/
def w64 (x : Int) : W64 := BitVec.ofNat 64 (wrapN x 64)

/-- Packs values of w bits, the first least significant (00 R8, R9). -/
def packLE (w : Nat) (l : List Nat) : Nat :=
  match l with
  | [] => 0
  | x :: r => x % 2 ^ w + 2 ^ w * packLE w r

/-- The value of element i of w bits. -/
def laneN (x w i : Nat) : Nat := (x >>> (w * i)) % 2 ^ w

/-- The first n elements of w bits. -/
def unpackLE (w n x : Nat) : List Nat :=
  match n with
  | 0 => []
  | n + 1 => x % 2 ^ w :: unpackLE w n (x >>> w)

/-- The bytes of a number, least significant first (00 R8). -/
def bytesOf (n x : Nat) : List Byte :=
  match n with
  | 0 => []
  | n + 1 => BitVec.ofNat 8 x :: bytesOf n (x >>> 8)

/-- The number whose little-endian bytes are given. -/
def ofBytes (l : List Byte) : Nat :=
  match l with
  | [] => 0
  | b :: r => b.toNat + 256 * ofBytes r

/-- A vector register built lane by lane from lanes of w bits. -/
def vOfLanes (w : Nat) (l : List Nat) : VReg := BitVec.ofNat 2048 (packLE w l)

/-- Lane i of w bits of a vector register, as a number (00 R9). -/
def vLane (v : VReg) (w i : Nat) : Nat := laneN v.toNat w i

/-- Applies f to 0 … n-1 in ascending order. -/
def forN {σ : Type} (n : Nat) (s : σ) (f : Nat → σ → σ) : σ :=
  (List.range n).foldl (fun acc i => f i acc) s

/-- The first element of a list that meets a test. -/
def firstSome {α β : Type} (l : List α) (f : α → Option β) : Option β :=
  match l with
  | [] => none
  | a :: r => match f a with
    | some b => some b
    | none => firstSome r f

/-- floor(log2 n) of a positive number. -/
def log2N (n : Nat) : Nat := Nat.log2 n

/-- The number of set bits among the low n bits. -/
def popN (n x : Nat) : Nat := ((List.range n).filter fun i => x.testBit i).length

/-- Leading zeros of a value of w bits. -/
def clzN (w x : Nat) : Nat := if x = 0 then w else w - 1 - log2N x

/-- Trailing zeros of a value of w bits. -/
def ctzN (w x : Nat) : Nat := ((List.range w).find? fun i => x.testBit i).getD w

/-- Replaces the active 32-bit chunks of a vector register (03 R80, 06 R167). -/
def mergeChunks (old new_ : VReg) (m : W64) : VReg :=
  vOfLanes 32 ((List.range 64).map fun i => if m.getLsbD i then vLane new_ 32 i else vLane old 32 i)

/-- Replaces element i of a list by f of it. -/
def modAt {α : Type} (l : List α) (i : Nat) (f : α → α) : List α :=
  match l, i with
  | [], _ => []
  | a :: r, 0 => f a :: r
  | a :: r, i + 1 => a :: modAt r i f

/-- The largest natural number whose square is at most n, by `fuel` binary digits. -/
def isqrtGo (n : Nat) (fuel acc : Nat) : Nat :=
  match fuel with
  | 0 => acc
  | f + 1 =>
    let c := acc + 2 ^ f
    isqrtGo n f (if c * c ≤ n then c else acc)

/-- The integer square root. -/
def isqrt (n : Nat) : Nat := isqrtGo n (log2N n / 2 + 1) 0

end Sys2Proof.Machine
end

