-- ==== Sys2Proof/Machine/Float.lean ====
section
/-! DEFINITION. Number formats and exact arithmetic (02): decoding to exact values, one rounding, conversion. -/

namespace Sys2Proof.Machine

open Sys2Proof

/-- An exact value: (−1)^neg × m × 2^e, a signed infinity, or NaN (02 R54).  m = 0 is a signed zero. -/
inductive Ex where
  | fin (neg : Bool) (m : Nat) (e : Int)
  | inf (neg : Bool)
  | nan
  deriving DecidableEq, Repr

/-- The parameters of a floating-point format (02 Table 2-2). -/
structure Fmt where
  ebits : Nat
  mbits : Nat
  bias : Nat
  hasInf : Bool
  hasNan : Bool
  maxCode : Nat      -- magnitude code of the largest finite value
  saturates : Bool
  canonNan : Nat

/-- FP64, FP32, BF16, FP16, E4M3, E5M2, E2M1 (02 Table 2-2). -/
def fp64 : Fmt := ⟨11, 52, 1023, true, true, 0x7FEFFFFFFFFFFFFF, false, 0x7FF8000000000000⟩
def fp32 : Fmt := ⟨8, 23, 127, true, true, 0x7F7FFFFF, false, 0x7FC00000⟩
def bf16 : Fmt := ⟨8, 7, 127, true, true, 0x7F7F, false, 0x7FC0⟩
def fp16 : Fmt := ⟨5, 10, 15, true, true, 0x7BFF, false, 0x7E00⟩
def e4m3 : Fmt := ⟨4, 3, 7, false, true, 0x7E, true, 0x7F⟩
def e5m2 : Fmt := ⟨5, 2, 15, true, true, 0x7B, true, 0x7E⟩
def e2m1 : Fmt := ⟨2, 1, 1, false, false, 0x7, true, 0⟩

/-- Bits of a code. -/
def Fmt.bits (f : Fmt) : Nat := 1 + f.ebits + f.mbits

/-- The exact value of a code (02 R37, R38). -/
def Fmt.decode (f : Fmt) (c : Nat) : Ex :=
  let s := c.testBit (f.ebits + f.mbits)
  let mag := c % 2 ^ (f.ebits + f.mbits)
  let inf := f.maxCode + 1
  if mag > f.maxCode then
    if f.hasInf && mag = inf then .inf s else .nan
  else
    let e := mag / 2 ^ f.mbits
    let m := mag % 2 ^ f.mbits
    if e = 0 then .fin s m (1 - f.bias - f.mbits)
    else .fin s (2 ^ f.mbits + m) ((e : Int) - f.bias - f.mbits)

/-- The sign of an exact value; NaN has none. -/
def Ex.neg : Ex → Bool
  | .fin n _ _ => n
  | .inf n => n
  | .nan => false

def Ex.isNan : Ex → Bool
  | .nan => true
  | _ => false

def Ex.isInf : Ex → Bool
  | .inf _ => true
  | _ => false

/-- Whether a value is ±0. -/
def Ex.isZero : Ex → Bool
  | .fin _ m _ => m == 0
  | _ => false

/-- Negation. -/
def Ex.negate : Ex → Ex
  | .fin n m e => .fin (!n) m e
  | .inf n => .inf (!n)
  | .nan => .nan

/-- Multiplication by 2^k, exact (02 R47). -/
def Ex.scale (x : Ex) (k : Int) : Ex :=
  match x with
  | .fin n m e => .fin n m (e + k)
  | y => y

/-- An exact signed dyadic number as (integer, exponent). -/
def dyad (n : Bool) (m : Nat) : Int := if n then -(m : Int) else m

/-- The sum of two dyadic numbers. -/
def dyAdd (a b : Int × Int) : Int × Int :=
  let e := min a.2 b.2
  (a.1 * 2 ^ (a.2 - e).toNat + b.1 * 2 ^ (b.2 - e).toNat, e)

/-- The exact value of a dyadic number, with the sign given for zero. -/
def ofDy (d : Int × Int) (zeroNeg : Bool) : Ex :=
  if d.1 = 0 then .fin zeroNeg 0 0 else .fin (d.1 < 0) d.1.natAbs d.2

/-- IEEE 754 addition, exact: a zero sum is +0 unless both addends are −0 (02 R62, R64). -/
def Ex.add (a b : Ex) : Ex :=
  match a, b with
  | .nan, _ => .nan
  | _, .nan => .nan
  | .inf s, .inf t => if s = t then .inf s else .nan
  | .inf s, .fin .. => .inf s
  | .fin .., .inf t => .inf t
  | .fin s m e, .fin t n f =>
    if m = 0 && n = 0 then .fin (s && t) 0 0
    else ofDy (dyAdd (dyad s m, e) (dyad t n, f)) false

/-- IEEE 754 multiplication, exact. -/
def Ex.mul (a b : Ex) : Ex :=
  match a, b with
  | .nan, _ => .nan
  | _, .nan => .nan
  | .inf s, .inf t => .inf (s != t)
  | .inf s, .fin t n _ => if n = 0 then .nan else .inf (s != t)
  | .fin s m _, .inf t => if m = 0 then .nan else .inf (s != t)
  | .fin s m e, .fin t n f => .fin (s != t) (m * n) (e + f)

/-- Rounding modes (02 Table 2-4); stochastic rounding carries the element's 16-bit draw. -/
inductive Rm where
  | rne | rtz | sr (rnd16 : Nat)
  deriving DecidableEq, Repr

/-- Rounds the magnitude m × 2^e to a whole number of units 2^q (02 R55). -/
def roundUnits (m : Nat) (e q : Int) (mode : Rm) : Nat :=
  if q ≤ e then m * 2 ^ (e - q).toNat
  else
    let k := (q - e).toNat
    let lo := m / 2 ^ k
    let r := m % 2 ^ k
    if r = 0 then lo
    else match mode with
      | .rtz => lo
      | .rne =>
        let h := 2 ^ (k - 1)
        if r < h then lo else if r > h then lo + 1 else if lo % 2 = 0 then lo else lo + 1
      | .sr d => if d < 65536 * r / 2 ^ k then lo + 1 else lo

/-- floor(log2 (m × 2^e)) of a positive value. -/
def exLog2 (m : Nat) (e : Int) : Int := (log2N m : Int) + e

/-- The magnitude code that round_unbounded reaches, on a code line continued above the largest finite value
(02 R55). -/
def Fmt.magCode (f : Fmt) (m : Nat) (e : Int) (mode : Rm) : Nat :=
  let qmin : Int := 1 - f.bias - f.mbits
  let q := max qmin (exLog2 m e - f.mbits)
  (q - qmin).toNat * 2 ^ f.mbits + roundUnits m e q mode

/-- Outcome classes (02 Table 2-8). -/
inductive Cls where
  | zero | under | over_ | nan | finite
  deriving DecidableEq, Repr

/-- The code with a sign. -/
def Fmt.signed (f : Fmt) (neg : Bool) (mag : Nat) : Nat := (if neg then 2 ^ (f.ebits + f.mbits) else 0) + mag

/-- convert() of 02 R54 for a floating-point target, the scale already applied.  A value beyond the largest finite one that rounds
to it is finite, in vector lanes too, where 06 R169 can be read both ways (DESIGN CHOICE, notes/assumptions/107). -/
def Fmt.conv (f : Fmt) (x : Ex) (mode : Rm) : Nat × Cls :=
  match x with
  | .nan => (f.canonNan, .nan)
  | .inf s => (f.signed s (if f.hasInf then f.maxCode + 1 else f.maxCode), .over_)
  | .fin s 0 _ => (f.signed s 0, .zero)
  | .fin s m e =>
    let c := f.magCode m e mode
    if c > f.maxCode then
      (f.signed s (if f.saturates || mode = .rtz then f.maxCode else f.maxCode + 1), .over_)
    else if c = 0 then (f.signed s 0, .under)
    else (f.signed s c, .finite)

/-- convert() for a two's complement integer target of w bits (02 R54). -/
def convInt (w : Nat) (x : Ex) (mode : Rm) : Nat × Cls :=
  let lim (neg : Bool) : Nat := if neg then 2 ^ (w - 1) else 2 ^ (w - 1) - 1
  match x with
  | .nan => (0, .nan)
  | .inf s => (if s then lim true else lim false, .over_)
  | .fin _ 0 _ => (0, .zero)
  | .fin s m e =>
    let n := roundUnits m e 0 mode
    if n > lim s then (lim s, .over_)
    else if n = 0 then (0, .under)
    else (wrapN (dyad s n) w, .finite)

/-- Rounds an exact value to a floating-point format, to nearest even, overflow to infinity as the format has it
(02 R62). -/
def Fmt.round (f : Fmt) (x : Ex) : Nat := (f.conv x .rne).1

/-- Format codes (02 Table 2-1) by number. -/
def fmtOf (c : Nat) : Option Fmt :=
  if c = 0 then some fp32 else if c = 1 then some bf16 else if c = 2 then some fp16
  else if c = 3 then some e4m3 else if c = 4 then some e5m2 else if c = 5 ∨ c = 6 then some e2m1 else none

/-- Element bits of a format code (02 Table 2-1). -/
def fmtBits (c : Nat) : Nat :=
  if c = 0 ∨ c = 8 then 32 else if c = 1 ∨ c = 2 then 16 else if c = 5 ∨ c = 6 then 4
  else if c = 10 then 64 else if c = 11 then 128 else 8

/-- The exact value of an INT8 or INT32 code (02 R43, R54). -/
def decInt (w c : Nat) : Ex :=
  let i := sextI c w
  .fin (i < 0) i.natAbs 0

/-- The exact value of an E8M0 byte (02 R42). -/
def decE8 (b : Nat) : Ex := if b = 255 then .nan else .fin false 1 ((b : Int) - 127)

/-- The exact value of a code of any element format, no scale applied (02 R54). -/
def decCode (c x : Nat) : Ex :=
  if c = 7 then decInt 8 x else if c = 8 then decInt 32 x else if c = 9 then decE8 x
  else match fmtOf c with
    | some f => f.decode x
    | none => .nan

/-- convert() (02 R54): x times 2^−s to the format code c. -/
def convert (x : Ex) (c : Nat) (mode : Rm) (s : Int) : Nat × Cls :=
  let v := x.scale (-s)
  if c = 7 then convInt 8 v mode else if c = 8 then convInt 32 v mode
  else match fmtOf c with
    | some f => f.conv v mode
    | none => (0, .zero)

/-- floor(log2 |x|) of a finite nonzero value (02 R57). -/
def Ex.exp? : Ex → Option Int
  | .fin _ 0 _ => none
  | .fin _ m e => some (exLog2 m e)
  | _ => none

/-- Compares magnitudes: |a| < |b| for finite or infinite values. -/
def Ex.magLt (a b : Ex) : Bool :=
  match a, b with
  | .inf _, _ => false
  | .fin .., .inf _ => true
  | .fin _ m e, .fin _ n f =>
    let q := min e f
    m * 2 ^ (e - q).toNat < n * 2 ^ (f - q).toNat
  | _, _ => false

/-- Orders two values that are not NaN, −0 below +0 (06 R173). -/
def Ex.lt (a b : Ex) : Bool :=
  match a.neg, b.neg with
  | true, false => true
  | false, true => false
  | false, false => a.magLt b
  | true, true => b.magLt a

/-- a = b as IEEE 754 compares: +0 equals −0, NaN equals nothing. -/
def Ex.eqv (a b : Ex) : Bool :=
  if a.isNan || b.isNan then false
  else if a.isZero && b.isZero then true
  else a.neg == b.neg && !a.magLt b && !b.magLt a

/-- a < b as IEEE 754 compares. -/
def Ex.ltv (a b : Ex) : Bool :=
  if a.isNan || b.isNan then false
  else if a.isZero && b.isZero then false
  else a.lt b

/-- Minimum and maximum: NaN if either is NaN, −0 below +0 (06 R173). -/
def Ex.min2 (a b : Ex) : Ex := if a.isNan || b.isNan then .nan else if b.lt a then b else a
def Ex.max2 (a b : Ex) : Ex := if a.isNan || b.isNan then .nan else if a.lt b then b else a

/-- The exact sum of a list with the special values of 02 R64 and 06 R187: NaN if any is NaN or both infinities are
present, an infinity if one is present, and −0 for a zero sum only when every term is −0. -/
def exSum (l : List Ex) : Ex :=
  if l.any Ex.isNan then .nan
  else
    let pinf := l.any fun x => x.isInf && !x.neg
    let ninf := l.any fun x => x.isInf && x.neg
    if pinf && ninf then .nan
    else if pinf then .inf false
    else if ninf then .inf true
    else
      let d := l.foldl (fun acc x => match x with
        | .fin s m e => if m = 0 then acc else if acc.1 = 0 then (dyad s m, e) else dyAdd acc (dyad s m, e)
        | _ => acc) ((0, 0) : Int × Int)
      ofDy d (!l.isEmpty && l.all fun x => x.isZero && x.neg)

/-- round(x, FP32, RNE) as a code. -/
def r32 (x : Ex) : Nat := fp32.round x

/-- The exact value of an FP32 code. -/
def d32 (c : Nat) : Ex := fp32.decode c

/-- The group sum of 02 R63 and R64, rounded once to FP32. -/
def groupSum (ps : List Ex) : Nat := r32 (exSum ps)

/-- The 16-bit draw of element i (02 R60). -/
def mixG : Nat := 0x9E3779B97F4A7C15

def mix (z : W64) : W64 :=
  let z := (z ^^^ (z >>> 30)) * 0xBF58476D1CE4E5B9#64
  let z := (z ^^^ (z >>> 27)) * 0x94D049BB133111EB#64
  z ^^^ (z >>> 31)

def rnd16 (st : W64) (i : Nat) : Nat := (mix (st + BitVec.ofNat 64 ((i + 1) * mixG))).toNat % 65536

/-- The generator after n draws (02 R60). -/
def srAfter (st : W64) (n : Nat) : W64 := st + BitVec.ofNat 64 (n * mixG)

/-- The rounding mode of element i under the RM code (02 Table 2-4). -/
def rmOf (code : Nat) (st : W64) (i : Nat) : Rm :=
  if code = 1 then .rtz else if code = 2 then .sr (rnd16 st i) else .rne

/-- The block of 02 R56: scale byte, codes and classes of values already multiplied by 2^−s; `md i` is element i's
mode. -/
def mxBlock (vs : List Ex) (md : Nat → Rm) : Nat × List (Nat × Cls) :=
  if vs.any Ex.isNan then (255, vs.map fun _ => (0, Cls.nan))
  else
    let amax := vs.foldl (fun acc x => match x with
      | .fin _ 0 _ => acc
      | .fin _ m e => let l := exLog2 m e
                      match acc with
                      | none => some l
                      | some a => some (max a l)
      | _ => acc) (none : Option Int)
    let e0 : Int := match amax with
      | none => -127
      | some l => l - 2
    let ec := min (max e0 (-127)) 127
    let free := amax.isSome && decide (ec = e0)
    (wrapN (ec + 127) 8,
     (List.range vs.length).zip vs |>.map fun (i, x) =>
       if x.isInf then (if x.neg then 0xF else 0x7, Cls.over_)
       else
         let r := e2m1.conv (x.scale (-ec)) (md i)
         if r.2 = .over_ && free then (r.1, Cls.finite) else r)

/-- The exact value of an MXFP4 element (02 R53), without its version scale. -/
def decMx (code scale : Nat) : Ex :=
  if scale = 255 then .nan else (e2m1.decode code).scale ((scale : Int) - 127)

end Sys2Proof.Machine
end

