-- ==== Sys2Proof/Syntax.lean ====
section
/-! DEFINITION. The syntax of the Wolis W384: one constructor per row of the opcode table.

Rows with a word carry the operand fields of that word, named as spec/opcode_table.json names them and grouped by
slot format (03 R79, Table 3-5).  Rows without a word are the steps of the machinery beside the partitions
(95_what_each_step_holds): each carries the operands that say on what it acts.  The bounds of those operands are
stated in WellFormed.lean. -/

namespace Sys2Proof

/-- Operand fields of format Nop: NOP. -/
structure Nop where
  t : BitVec 1   -- [20:20]
  m : BitVec 1   -- [19:19]
  v : BitVec 1   -- [18:18]
  u : BitVec 3   -- [17:15]
  s : BitVec 6   -- [14:9]
  e : BitVec 1   -- [8:8]
  deriving DecidableEq, Repr

/-- Operand fields of format RRR (three registers): ADD, SUB, AND, OR, XOR, ANDN, SHL, SHR, SAR, ROT, MIN, MAX, MINU, MAXU, MUL, MULH, MULHU, SEL, BITOP, BFX, DIV, AUDEF, WAITM, GATH, SCAT, GATHS, SCATS. -/
structure RRR where
  g : BitVec 4   -- [25:22]
  d : BitVec 6   -- [21:16]
  a : BitVec 6   -- [15:10]
  b : BitVec 6   -- [9:4]
  f : BitVec 3   -- [3:1]
  n : BitVec 1   -- [0:0]
  deriving DecidableEq, Repr

/-- Operand fields of format RRI (two registers, immediate): ADDI, ANDI, ORI, XORI, LDS, STS, LDV, STV. -/
structure RRI where
  g : BitVec 4   -- [25:22]
  d : BitVec 6   -- [21:16]
  a : BitVec 6   -- [15:10]
  i : BitVec 10   -- [9:0]
  deriving DecidableEq, Repr

/-- Operand fields of format ShI (shift by immediate): SHLI, SHRI, SARI. -/
structure ShI where
  g : BitVec 4   -- [25:22]
  d : BitVec 6   -- [21:16]
  a : BitVec 6   -- [15:10]
  i : BitVec 6   -- [5:0]
  deriving DecidableEq, Repr

/-- Operand fields of format RI (one register, immediate): MOVI, MOVHI, LOOP, TRAP. -/
structure RI where
  g : BitVec 4   -- [25:22]
  d : BitVec 6   -- [21:16]
  i : BitVec 16   -- [15:0]
  deriving DecidableEq, Repr

/-- Operand fields of format Cmp: CMP. -/
structure Cmp where
  g : BitVec 4   -- [25:22]
  p : BitVec 4   -- [21:18]
  a : BitVec 6   -- [17:12]
  b : BitVec 6   -- [11:6]
  c : BitVec 4   -- [5:2]
  f : BitVec 1   -- [1:1]
  n : BitVec 1   -- [0:0]
  deriving DecidableEq, Repr

/-- Operand fields of format Cmpi: CMPI. -/
structure Cmpi where
  g : BitVec 4   -- [25:22]
  p : BitVec 4   -- [21:18]
  a : BitVec 6   -- [17:12]
  i : BitVec 8   -- [11:4]
  c : BitVec 4   -- [3:0]
  deriving DecidableEq, Repr

/-- Operand fields of format Plog: PLOG. -/
structure Plog where
  g : BitVec 4   -- [25:22]
  p : BitVec 4   -- [21:18]
  a : BitVec 6   -- [17:12]
  b : BitVec 6   -- [11:6]
  c : BitVec 4   -- [5:2]
  n : BitVec 1   -- [0:0]
  deriving DecidableEq, Repr

/-- Operand fields of format Brf (branch): BR, CALL, LBRK. -/
structure Brf where
  g : BitVec 4   -- [25:22]
  o : BitVec 21   -- [21:1]
  n : BitVec 1   -- [0:0]
  deriving DecidableEq, Repr

/-- Operand fields of format AN (one source): JMP, RET, FIN, MOVP_W, PCLR. -/
structure AN where
  g : BitVec 4   -- [25:22]
  a : BitVec 6   -- [15:10]
  n : BitVec 1   -- [0:0]
  deriving DecidableEq, Repr

/-- Operand fields of format Loopr: LOOPR. -/
structure Loopr where
  g : BitVec 4   -- [25:22]
  c : BitVec 6   -- [21:16]
  e : BitVec 8   -- [15:8]
  w : BitVec 5   -- [7:3]
  s : BitVec 3   -- [2:0]
  deriving DecidableEq, Repr

/-- Operand fields of format ABN (two sources): WAITK, CLINV. -/
structure ABN where
  g : BitVec 4   -- [25:22]
  a : BitVec 6   -- [15:10]
  b : BitVec 6   -- [9:4]
  n : BitVec 1   -- [0:0]
  deriving DecidableEq, Repr

/-- Operand fields of format RR1 (one source, one destination): PRES, PRES_SKIP, PKILL, MOVX, XLAT, LTAG. -/
structure RR1 where
  g : BitVec 4   -- [25:22]
  d : BitVec 6   -- [21:16]
  a : BitVec 6   -- [15:10]
  n : BitVec 1   -- [0:0]
  deriving DecidableEq, Repr

/-- Operand fields of format PresMig: PRES_MIG. -/
structure PresMig where
  g : BitVec 4   -- [25:22]
  d : BitVec 6   -- [21:16]
  a : BitVec 6   -- [15:10]
  b : BitVec 6   -- [9:4]
  n : BitVec 1   -- [0:0]
  deriving DecidableEq, Repr

/-- Operand fields of format Crf (control register): CRR, CRW. -/
structure Crf where
  g : BitVec 4   -- [25:22]
  s : BitVec 6   -- [21:16]
  l : BitVec 10   -- [15:6]
  n : BitVec 1   -- [0:0]
  deriving DecidableEq, Repr

/-- Operand fields of format Icinv: ICINV. -/
structure Icinv where
  g : BitVec 4   -- [25:22]
  a : BitVec 6   -- [15:10]
  b : BitVec 6   -- [9:4]
  f : BitVec 3   -- [3:1]
  n : BitVec 1   -- [0:0]
  deriving DecidableEq, Repr

/-- Operand fields of format Brk: BRK. -/
structure Brk where
  g : BitVec 4   -- [25:22]
  i : BitVec 16   -- [15:0]
  deriving DecidableEq, Repr

/-- Operand fields of format DN (one destination): MOVX_K, MOVP, HREL. -/
structure DN where
  g : BitVec 4   -- [25:22]
  d : BitVec 6   -- [21:16]
  n : BitVec 1   -- [0:0]
  deriving DecidableEq, Repr

/-- Operand fields of format Ktst: KTST. -/
structure Ktst where
  g : BitVec 4   -- [25:22]
  p : BitVec 4   -- [21:18]
  a : BitVec 6   -- [17:12]
  n : BitVec 1   -- [0:0]
  deriving DecidableEq, Repr

/-- Operand fields of format KtstAll: KTST_ALL. -/
structure KtstAll where
  g : BitVec 4   -- [25:22]
  p : BitVec 4   -- [21:18]
  a : BitVec 6   -- [17:12]
  b : BitVec 6   -- [11:6]
  n : BitVec 1   -- [0:0]
  deriving DecidableEq, Repr

/-- Operand fields of format Gld (global access): LDG, LDGV, LDCV. -/
structure Gld where
  g : BitVec 4   -- [25:22]
  d : BitVec 6   -- [21:16]
  a : BitVec 4   -- [15:12]
  l : BitVec 12   -- [11:0]
  deriving DecidableEq, Repr

/-- Operand fields of format Gst (global store): STG, STGV. -/
structure Gst where
  g : BitVec 4   -- [25:22]
  d : BitVec 6   -- [21:16]
  a : BitVec 4   -- [15:12]
  deriving DecidableEq, Repr

/-- Operand fields of format Stcv: STCV. -/
structure Stcv where
  g : BitVec 4   -- [25:22]
  d : BitVec 6   -- [21:16]
  a : BitVec 4   -- [15:12]
  r : BitVec 2   -- [1:0]
  deriving DecidableEq, Repr

/-- Operand fields of format Probe: PROBE. -/
structure Probe where
  g : BitVec 4   -- [25:22]
  d : BitVec 6   -- [21:16]
  a : BitVec 6   -- [15:10]
  f : BitVec 1   -- [1:1]
  n : BitVec 1   -- [0:0]
  deriving DecidableEq, Repr

/-- Operand fields of format Pref: PREF. -/
structure Pref where
  g : BitVec 4   -- [25:22]
  e : BitVec 1   -- [16:16]
  a : BitVec 4   -- [15:12]
  l : BitVec 12   -- [11:0]
  deriving DecidableEq, Repr

/-- Operand fields of format Drain: DRAIN. -/
structure Drain where
  g : BitVec 4   -- [25:22]
  f : BitVec 3   -- [3:1]
  n : BitVec 1   -- [0:0]
  deriving DecidableEq, Repr

/-- Operand fields of format Atm (atomic): ATADD, ATMIN, ATMAX, ATAND, ATOR, ATXOR, ATXCH, ATCAS, ATLD. -/
structure Atm where
  g : BitVec 4   -- [25:22]
  d : BitVec 6   -- [21:16]
  a : BitVec 4   -- [15:12]
  b : BitVec 6   -- [11:6]
  o : BitVec 2   -- [5:4]
  c : BitVec 3   -- [3:1]
  n : BitVec 1   -- [0:0]
  deriving DecidableEq, Repr

/-- Operand fields of format Atst: ATST. -/
structure Atst where
  g : BitVec 4   -- [25:22]
  a : BitVec 4   -- [15:12]
  b : BitVec 6   -- [11:6]
  o : BitVec 2   -- [5:4]
  c : BitVec 3   -- [3:1]
  n : BitVec 1   -- [0:0]
  deriving DecidableEq, Repr

/-- Operand fields of format Clfl: CLFL. -/
structure Clfl where
  g : BitVec 4   -- [25:22]
  a : BitVec 6   -- [15:10]
  b : BitVec 6   -- [9:4]
  f : BitVec 1   -- [1:1]
  n : BitVec 1   -- [0:0]
  deriving DecidableEq, Repr

/-- Operand fields of format VRR (vector): VADD, VSUB, VMIN, VMAX, VUNA, VAND, VOR, VXOR, VIADD, VISUB, VCMP, VSEL, VRED, VSCAN, VSEG, VBSC, VCLMP, VIMNX, VMUL, VFMA, VFMS, VFNMA, VIMUL, VDOT. -/
structure VRR where
  g : BitVec 4   -- [25:22]
  d : BitVec 6   -- [21:16]
  a : BitVec 6   -- [15:10]
  b : BitVec 6   -- [9:4]
  t : BitVec 2   -- [3:2]
  m : BitVec 2   -- [1:0]
  deriving DecidableEq, Repr

/-- Operand fields of format VShI (vector shift): VSHL, VSHR, VSAR. -/
structure VShI where
  g : BitVec 4   -- [25:22]
  d : BitVec 6   -- [21:16]
  a : BitVec 6   -- [15:10]
  i : BitVec 5   -- [6:2]
  m : BitVec 2   -- [1:0]
  deriving DecidableEq, Repr

/-- Operand fields of format VRA (vector, one source): VMOV, VRCP, VRSQ, VSQRT, VEXP2, VLOG2. -/
structure VRA where
  g : BitVec 4   -- [25:22]
  d : BitVec 6   -- [21:16]
  a : BitVec 6   -- [15:10]
  t : BitVec 2   -- [3:2]
  m : BitVec 2   -- [1:0]
  deriving DecidableEq, Repr

/-- Operand fields of format VCv (vector conversion): VCVT, VQNT, VDQNT. -/
structure VCv where
  g : BitVec 4   -- [25:22]
  d : BitVec 6   -- [21:16]
  a : BitVec 6   -- [15:10]
  s : BitVec 4   -- [9:6]
  e : BitVec 4   -- [5:2]
  r : BitVec 2   -- [1:0]
  deriving DecidableEq, Repr

/-- Operand fields of format VRB (vector without TY): VPERM, VMSK, VMTS. -/
structure VRB where
  g : BitVec 4   -- [25:22]
  d : BitVec 6   -- [21:16]
  a : BitVec 6   -- [15:10]
  b : BitVec 6   -- [9:4]
  m : BitVec 2   -- [1:0]
  deriving DecidableEq, Repr

/-- Operand fields of format VRI (vector immediate): VSHUF, VROT. -/
structure VRI where
  g : BitVec 4   -- [25:22]
  d : BitVec 6   -- [21:16]
  a : BitVec 6   -- [15:10]
  i : BitVec 8   -- [9:2]
  m : BitVec 2   -- [1:0]
  deriving DecidableEq, Repr

/-- Operand fields of format VEx (vector extract or insert): VEXT, VINS. -/
structure VEx where
  g : BitVec 4   -- [25:22]
  d : BitVec 6   -- [21:16]
  a : BitVec 6   -- [15:10]
  i : BitVec 6   -- [7:2]
  m : BitVec 2   -- [1:0]
  deriving DecidableEq, Repr

/-- Operand fields of format Tmm (matrix): MMA, MMAT, MMAZ. -/
structure Tmm where
  g : BitVec 4   -- [25:22]
  b : BitVec 2   -- [21:20]
  p : BitVec 4   -- [19:16]
  q : BitVec 4   -- [15:12]
  k : BitVec 5   -- [11:7]
  c : BitVec 5   -- [6:2]
  n : BitVec 2   -- [1:0]
  deriving DecidableEq, Repr

/-- Operand fields of format Tab (accumulator transfer): ACLD, ACST. -/
structure Tab where
  g : BitVec 4   -- [25:22]
  b : BitVec 2   -- [21:20]
  p : BitVec 4   -- [19:16]
  k : BitVec 5   -- [11:7]
  c : BitVec 5   -- [6:2]
  n : BitVec 2   -- [1:0]
  deriving DecidableEq, Repr

/-- Operand fields of format Acz: ACZ. -/
structure Acz where
  g : BitVec 4   -- [25:22]
  b : BitVec 2   -- [21:20]
  deriving DecidableEq, Repr

/-- Operand fields of format Tac (accumulator row or column): ACRD, ACWR. -/
structure Tac where
  g : BitVec 4   -- [25:22]
  b : BitVec 2   -- [21:20]
  x : BitVec 6   -- [19:14]
  y : BitVec 6   -- [13:8]
  i : BitVec 8   -- [7:0]
  deriving DecidableEq, Repr

/-- Operand fields of format Acsc: ACSC. -/
structure Acsc where
  g : BitVec 4   -- [25:22]
  b : BitVec 2   -- [21:20]
  x : BitVec 6   -- [19:14]
  i : BitVec 8   -- [7:0]
  deriving DecidableEq, Repr

/-- Operand fields of format Acmv: ACMV. -/
structure Acmv where
  g : BitVec 4   -- [25:22]
  b : BitVec 2   -- [21:20]
  x : BitVec 2   -- [15:14]
  i : BitVec 1   -- [0:0]
  deriving DecidableEq, Repr

/-- Operand fields of format Acps: ACPS. -/
structure Acps where
  g : BitVec 4   -- [25:22]
  b : BitVec 2   -- [21:20]
  x : BitVec 6   -- [19:14]
  i : BitVec 1   -- [0:0]
  deriving DecidableEq, Repr

/-- Operand fields of format Mprg: MPRG. -/
structure Mprg where
  g : BitVec 4   -- [25:22]
  b : BitVec 2   -- [21:20]
  x : BitVec 6   -- [19:14]
  deriving DecidableEq, Repr

/-- Operand fields of format EngH (engine with a copy channel): CPY, CPYC, CPYF, CPYK, CWAIT. -/
structure EngH where
  g : BitVec 4   -- [25:22]
  k : BitVec 5   -- [21:17]
  c : BitVec 5   -- [16:12]
  n : BitVec 2   -- [11:10]
  p : BitVec 5   -- [9:5]
  h : BitVec 3   -- [2:0]
  deriving DecidableEq, Repr

/-- Operand fields of format Cstat: CSTAT. -/
structure Cstat where
  g : BitVec 4   -- [25:22]
  k : BitVec 5   -- [21:17]
  c : BitVec 5   -- [16:12]
  n : BitVec 2   -- [11:10]
  p : BitVec 5   -- [9:5]
  e : BitVec 2   -- [4:3]
  h : BitVec 3   -- [2:0]
  deriving DecidableEq, Repr

/-- Operand fields of format Eng (engine): TSTEP, TSCALE, TREAD, TREAD_SYNC, TCFG, TRST, TWAIT, TWAIT_ALL, SEMS_ADD, SEMS_SET, SEMW, QINIT, QINIT_LOAD, QSWAP, RUQ, OCCR, OCCR_CLR, COLW, BARI_INIT, BARI_FREE. -/
structure Eng where
  g : BitVec 4   -- [25:22]
  k : BitVec 5   -- [21:17]
  c : BitVec 5   -- [16:12]
  n : BitVec 2   -- [11:10]
  p : BitVec 5   -- [9:5]
  deriving DecidableEq, Repr

/-- Operand fields of format EngF (engine with FN[4:0]): TSUB, COLL, COLA, GRPC, GRPF, LNKS. -/
structure EngF where
  g : BitVec 4   -- [25:22]
  k : BitVec 5   -- [21:17]
  c : BitVec 5   -- [16:12]
  n : BitVec 2   -- [11:10]
  p : BitVec 5   -- [9:5]
  f : BitVec 5   -- [4:0]
  deriving DecidableEq, Repr

/-- Operand fields of format EngI (engine with a count): QGATE, QDIAG, QMEAS, QMEAS_SAMP. -/
structure EngI where
  g : BitVec 4   -- [25:22]
  k : BitVec 5   -- [21:17]
  c : BitVec 5   -- [16:12]
  n : BitVec 2   -- [11:10]
  p : BitVec 5   -- [9:5]
  i : BitVec 4   -- [3:0]
  deriving DecidableEq, Repr

/-- Operand fields of format Rufl: RUFL. -/
structure Rufl where
  g : BitVec 4   -- [25:22]
  k : BitVec 5   -- [21:17]
  c : BitVec 5   -- [16:12]
  n : BitVec 2   -- [11:10]
  p : BitVec 5   -- [9:5]
  f : BitVec 1   -- [0:0]
  deriving DecidableEq, Repr

/-- Operand fields of format Kjoin: KJOIN. -/
structure Kjoin where
  g : BitVec 4   -- [25:22]
  k : BitVec 5   -- [21:17]
  c : BitVec 5   -- [16:12]
  n : BitVec 2   -- [11:10]
  deriving DecidableEq, Repr

/-- Operand fields of format Chn (channel): SEND, RECV, RECVADD, CHST, CHOPN. -/
structure Chn where
  g : BitVec 4   -- [25:22]
  k : BitVec 5   -- [21:17]
  c : BitVec 5   -- [16:12]
  h : BitVec 6   -- [11:6]
  v : BitVec 6   -- [5:0]
  deriving DecidableEq, Repr

/-- Operand fields of format Chcl: CHCL. -/
structure Chcl where
  g : BitVec 4   -- [25:22]
  k : BitVec 5   -- [21:17]
  c : BitVec 5   -- [16:12]
  h : BitVec 6   -- [11:6]
  deriving DecidableEq, Repr

/-- Operand fields of format EngR (engine with .rot): BARR, BARX, BARW. -/
structure EngR where
  g : BitVec 4   -- [25:22]
  k : BitVec 5   -- [21:17]
  c : BitVec 5   -- [16:12]
  n : BitVec 2   -- [11:10]
  p : BitVec 5   -- [9:5]
  r : BitVec 1   -- [0:0]
  deriving DecidableEq, Repr

/-- The atomics that a host or a partition performs at a home (05 Table 5-8). -/
inductive AtomicOp where
  | add | min | max | and | or | xor | xch | cas | ld | st
  deriving DecidableEq, Repr

/-- Where an uncorrectable error is detected (10 R295, R296): a line of physical memory, a line of a scratchpad frame, or an S
register, a V register, an accumulator bank or a landing-buffer entry of an issuer. -/
inductive ErrorSite where
  | line (physicalLine : Nat)
  | frame (frameLine : Nat)
  | sreg (issuer n : Nat)
  | vreg (issuer n : Nat)
  | bank (issuer n : Nat)
  | landing (issuer n : Nat)
  deriving DecidableEq, Repr

/-- What a package's CHOPN of a channel with a far endpoint tells the other package (14 R388, R392): its fabric
identifier, tenant and channel, the tenant and channel it names there, and what its descriptor declares. -/
structure FarOpen where
  fab : Nat
  tenant : Nat
  ch : Nat
  peerTen : Nat
  peerCh : Nat
  fmt : Nat
  count : Nat
  depth : Nat
  deriving DecidableEq, Repr

/-- An exact partial sum of squares, as members exchange it unrounded (18 R464): m × 2^e, an infinity, or NaN. -/
inductive ExactSum where
  | fin (m : Nat) (e : Int)
  | inf
  | nan
  deriving DecidableEq, Repr

/-- What a collective packet carries (16 R412, R421, R424, R426, 08 R249).  Elements are codes of a format, each with its
poison flag. -/
inductive CollKind where
  | start (digest : Nat)                                        -- the member has started the collective
  | bad                                                         -- its descriptor failed a check (R420)
  | part (dest chunk fmt : Nat) (vals : List (Nat × Bool))      -- its contribution to a chunk of a member's destination
  | data (chunk fmt : Nat) (scale : Int) (blocks : List Nat) (vals : List (Nat × Bool)) (direct : Bool)
      -- what stands in a chunk of this member's destination: the scale exponent and block scales its codes are under
  | agree (op : Nat) (word : BitVec 64)                         -- its word of a COLA
  | svOp (obj major fn w0 : Nat) (bytes : List (BitVec 8))      -- its command on a state-vector object (18 R457)
  | svBlock (obj step : Nat) (amps : List (Nat × Bool))         -- amplitudes of an exchange (18 R459), each with its poison
  | svSums (obj : Nat) (sums : List ExactSum) (psn : Bool)      -- its partial sums of a QMEAS (18 R464)
  deriving DecidableEq, Repr

/-- A collective packet from another member (16 R412). -/
structure CollPacket where
  tenant : Nat
  grp : Nat
  gen : Nat
  member : Nat
  seq : Nat
  detour : Bool
  kind : CollKind
  deriving DecidableEq, Repr

/-- A member's join packet (16 R411, R413). -/
structure GroupJoin where
  member : Nat
  gen : Nat
  n : Nat
  digest : Nat
  deriving DecidableEq, Repr

/-- What a fabric packet carries to the other package's engines (17 R436). -/
inductive PktBody where
  | element (tenant ch : Nat) (bytes : List (BitVec 8))
  | credit (tenant ch : Nat)
  | close (tenant ch : Nat)
  | chopn (far : FarOpen)
  | coll (p : CollPacket)
  | join (tenant grp : Nat) (j : GroupJoin)
  | leave (tenant grp gen member : Nat)
  | resync
  | notice (fab : Nat)
  deriving DecidableEq, Repr

/-- A fabric packet on a link (17 R436): source, destination, sequence number and age. -/
structure WirePacket where
  src : Nat
  dst : Nat
  seq : Nat
  age : Nat
  body : PktBody
  deriving DecidableEq, Repr

/-- What a training link learns of its peer (17 R433, R443). -/
structure LinkPeer where
  pkg : Nat
  port : Nat
  ofs : Int
  deriving DecidableEq, Repr

/-- A flit on a link (17 R435): its sequence number and acknowledgement, whether its CRC checks, and the packet that ends
in it, if one does. -/
structure Flit where
  seq : Nat
  ack : Nat
  crcOk : Bool
  pkt : Option WirePacket
  deriving DecidableEq, Repr


/-- The instructions and steps of the package, one constructor per row of spec/opcode_table.json. -/
inductive Instr where
  | bundleIssue (k : Nat)   -- BUNDLE_ISSUE (R71)
  | resultLand (k : Nat)   -- RESULT_LAND (R92)
  | loadDataArrive (req : Nat)   -- LOAD_DATA_ARRIVE (R93)
  | nop (x : Nop)   -- NOP (R69)
  | add (x : RRR)   -- ADD (R105)
  | sub (x : RRR)   -- SUB (R105)
  | and (x : RRR)   -- AND (R105)
  | or (x : RRR)   -- OR (R105)
  | xor (x : RRR)   -- XOR (R105)
  | andn (x : RRR)   -- ANDN (R105)
  | shl (x : RRR)   -- SHL (R105)
  | shr (x : RRR)   -- SHR (R105)
  | sar (x : RRR)   -- SAR (R105)
  | rot (x : RRR)   -- ROT (R105)
  | min (x : RRR)   -- MIN (R105)
  | max (x : RRR)   -- MAX (R105)
  | minu (x : RRR)   -- MINU (R105)
  | maxu (x : RRR)   -- MAXU (R105)
  | mul (x : RRR)   -- MUL (R105)
  | mulh (x : RRR)   -- MULH (R105)
  | mulhu (x : RRR)   -- MULHU (R105)
  | addi (x : RRI)   -- ADDI (R105)
  | andi (x : RRI)   -- ANDI (R105)
  | ori (x : RRI)   -- ORI (R105)
  | xori (x : RRI)   -- XORI (R105)
  | shli (x : ShI)   -- SHLI (R105)
  | shri (x : ShI)   -- SHRI (R105)
  | sari (x : ShI)   -- SARI (R105)
  | movi (x : RI)   -- MOVI (R106)
  | movhi (x : RI)   -- MOVHI (R106)
  | sel (x : RRR)   -- SEL (R107)
  | cmp (x : Cmp)   -- CMP (R111)
  | cmpi (x : Cmpi)   -- CMPI (R111)
  | plog (x : Plog)   -- PLOG (R112)
  | bitop (x : RRR)   -- BITOP (R108)
  | bfx (x : RRR)   -- BFX (R109)
  | div (x : RRR)   -- DIV (R110)
  | br (x : Brf)   -- BR (R115)
  | jmp (x : AN)   -- JMP (R115)
  | call (x : Brf)   -- CALL (R117)
  | ret (x : AN)   -- RET (R115)
  | loop (x : RI)   -- LOOP (R120)
  | loopr (x : Loopr)   -- LOOPR (R120)
  | lbrk (x : Brf)   -- LBRK (R118)
  | audef (x : RRR)   -- AUDEF (R123)
  | waitk (x : ABN)   -- WAITK (R124)
  | waitm (x : RRR)   -- WAITM (R125)
  | waitmReread (k : Nat)   -- WAITM_REREAD (R125)
  | trap (x : RI)   -- TRAP (R129)
  | pres (x : RR1)   -- PRES (R131)
  | presSkip (x : RR1)   -- PRES_SKIP (R131)
  | presMig (x : PresMig)   -- PRES_MIG (R360)
  | pkill (x : RR1)   -- PKILL (R354)
  | crr (x : Crf)   -- CRR (R126)
  | crw (x : Crf)   -- CRW (R126)
  | icinv (x : Icinv)   -- ICINV (R132)
  | brk (x : Brk)   -- BRK (R130)
  | fin (x : AN)   -- FIN (R128)
  | movx (x : RR1)   -- MOVX (R127)
  | movxK (x : DN)   -- MOVX_K (R127)
  | movp (x : DN)   -- MOVP (R114)
  | movpW (x : AN)   -- MOVP_W (R114)
  | ktst (x : Ktst)   -- KTST (R113)
  | ktstAll (x : KtstAll)   -- KTST_ALL (R113)
  | lds (x : RRI)   -- LDS (R142)
  | sts (x : RRI)   -- STS (R142)
  | ldv (x : RRI)   -- LDV (R142)
  | stv (x : RRI)   -- STV (R142)
  | ldg (x : Gld)   -- LDG (R147)
  | stg (x : Gst)   -- STG (R147)
  | ldgv (x : Gld)   -- LDGV (R147)
  | stgv (x : Gst)   -- STGV (R147)
  | ldcv (x : Gld)   -- LDCV (R151)
  | stcv (x : Stcv)   -- STCV (R152)
  | gath (x : RRR)   -- GATH (R148)
  | scat (x : RRR)   -- SCAT (R148)
  | xlat (x : RR1)   -- XLAT (R138)
  | hrel (x : DN)   -- HREL (R139)
  | probe (x : Probe)   -- PROBE (R145)
  | pref (x : Pref)   -- PREF (R158)
  | drain (x : Drain)   -- DRAIN (R157)
  | atadd (x : Atm)   -- ATADD (R155)
  | atmin (x : Atm)   -- ATMIN (R155)
  | atmax (x : Atm)   -- ATMAX (R155)
  | atand (x : Atm)   -- ATAND (R155)
  | ator (x : Atm)   -- ATOR (R155)
  | atxor (x : Atm)   -- ATXOR (R155)
  | atxch (x : Atm)   -- ATXCH (R155)
  | atcas (x : Atm)   -- ATCAS (R155)
  | atld (x : Atm)   -- ATLD (R155)
  | atst (x : Atst)   -- ATST (R155)
  | ltag (x : RR1)   -- LTAG (R160)
  | gaths (x : RRR)   -- GATHS (R143)
  | scats (x : RRR)   -- SCATS (R143)
  | clfl (x : Clfl)   -- CLFL (R159)
  | clinv (x : ABN)   -- CLINV (R159)
  | pclr (x : AN)   -- PCLR (R161)
  | vadd (x : VRR)   -- VADD (R172)
  | vsub (x : VRR)   -- VSUB (R172)
  | vmin (x : VRR)   -- VMIN (R173)
  | vmax (x : VRR)   -- VMAX (R173)
  | vuna (x : VRR)   -- VUNA (R174)
  | vand (x : VRR)   -- VAND (R178)
  | vor (x : VRR)   -- VOR (R178)
  | vxor (x : VRR)   -- VXOR (R178)
  | vshl (x : VShI)   -- VSHL (R177)
  | vshr (x : VShI)   -- VSHR (R177)
  | vsar (x : VShI)   -- VSAR (R177)
  | viadd (x : VRR)   -- VIADD (R176)
  | visub (x : VRR)   -- VISUB (R176)
  | vcmp (x : VRR)   -- VCMP (R180)
  | vsel (x : VRR)   -- VSEL (R178)
  | vmov (x : VRA)   -- VMOV (R178)
  | vcvt (x : VCv)   -- VCVT (R183)
  | vred (x : VRR)   -- VRED (R187)
  | vscan (x : VRR)   -- VSCAN (R189)
  | vperm (x : VRB)   -- VPERM (R191)
  | vshuf (x : VRI)   -- VSHUF (R192)
  | vrot (x : VRI)   -- VROT (R192)
  | vmsk (x : VRB)   -- VMSK (R181)
  | vmts (x : VRB)   -- VMTS (R182)
  | vseg (x : VRR)   -- VSEG (R190)
  | vbsc (x : VRR)   -- VBSC (R186)
  | vqnt (x : VCv)   -- VQNT (R184)
  | vdqnt (x : VCv)   -- VDQNT (R185)
  | vclmp (x : VRR)   -- VCLMP (R175)
  | vimnx (x : VRR)   -- VIMNX (R176)
  | vext (x : VEx)   -- VEXT (R192)
  | vins (x : VEx)   -- VINS (R192)
  | vmul (x : VRR)   -- VMUL (R172)
  | vfma (x : VRR)   -- VFMA (R172)
  | vfms (x : VRR)   -- VFMS (R172)
  | vfnma (x : VRR)   -- VFNMA (R172)
  | vimul (x : VRR)   -- VIMUL (R176)
  | vrcp (x : VRA)   -- VRCP (R193)
  | vrsq (x : VRA)   -- VRSQ (R193)
  | vsqrt (x : VRA)   -- VSQRT (R193)
  | vexp2 (x : VRA)   -- VEXP2 (R193)
  | vlog2 (x : VRA)   -- VLOG2 (R193)
  | vdot (x : VRR)   -- VDOT (R188)
  | mma (x : Tmm)   -- MMA (R203)
  | mmat (x : Tmm)   -- MMAT (R203)
  | mmaz (x : Tmm)   -- MMAZ (R203)
  | matrixGroupRead (k : Nat)   -- MATRIX_GROUP_READ (R203)
  | matrixComplete (k : Nat)   -- MATRIX_COMPLETE (R203)
  | acld (x : Tab)   -- ACLD (R214)
  | acldComplete (k xfer : Nat)   -- ACLD_COMPLETE (R214)
  | acst (x : Tab)   -- ACST (R213)
  | acstComplete (k xfer : Nat)   -- ACST_COMPLETE (R213)
  | acz (x : Acz)   -- ACZ (R210)
  | acrd (x : Tac)   -- ACRD (R210)
  | acwr (x : Tac)   -- ACWR (R210)
  | acsc (x : Acsc)   -- ACSC (R210)
  | acmv (x : Acmv)   -- ACMV (R210)
  | acps (x : Acps)   -- ACPS (R210)
  | mprg (x : Mprg)   -- MPRG (R209)
  | engineStart (cmd : Nat)   -- ENGINE_START (R220)
  | cpy (x : EngH)   -- CPY (R226)
  | cpyc (x : EngH)   -- CPYC (R227)
  | cpyf (x : EngH)   -- CPYF (R228)
  | cpyk (x : EngH)   -- CPYK (R228)
  | copyNotBeforeRelease (cmd : Nat)   -- COPY_NOT_BEFORE_RELEASE (R229)
  | copySourceResume (cmd : Nat)   -- COPY_SOURCE_RESUME (R233)
  | copyComplete (cmd : Nat)   -- COPY_COMPLETE (R232)
  | cwait (x : EngH)   -- CWAIT (R231)
  | cstat (x : Cstat)   -- CSTAT (R231)
  | tstep (x : Eng)   -- TSTEP (R271)
  | tscale (x : Eng)   -- TSCALE (R274)
  | tread (x : Eng)   -- TREAD (R278)
  | treadSync (x : Eng)   -- TREAD_SYNC (R278)
  | tcfg (x : Eng)   -- TCFG (R279)
  | trst (x : Eng)   -- TRST (R278)
  | deltaMerge (core ctx idx : Nat)   -- DELTA_MERGE (R267)
  | deltaMergeTimeout (core ctx idx : Nat)   -- DELTA_MERGE_TIMEOUT (R267)
  | installRetry (ctx idx : Nat)   -- INSTALL_RETRY (R264)
  | tensorCrossingPost (ctx idx : Nat)   -- TENSOR_CROSSING_POST (R270)
  | tsub (x : EngF)   -- TSUB (R236)
  | taskEnter   -- TASK_ENTER (R320)
  | twait (x : Eng)   -- TWAIT (R237)
  | twaitAll (x : Eng)   -- TWAIT_ALL (R237)
  | semsAdd (x : Eng)   -- SEMS_ADD (R238)
  | semsSet (x : Eng)   -- SEMS_SET (R238)
  | semw (x : Eng)   -- SEMW (R238)
  | qinit (x : Eng)   -- QINIT (R453)
  | qinitLoad (x : Eng)   -- QINIT_LOAD (R453)
  | qgate (x : EngI)   -- QGATE (R458)
  | qdiag (x : EngI)   -- QDIAG (R461)
  | qswap (x : Eng)   -- QSWAP (R462)
  | qmeas (x : EngI)   -- QMEAS (R464)
  | qmeasSamp (x : EngI)   -- QMEAS_SAMP (R464)
  | ruq (x : Eng)   -- RUQ (R336)
  | rufl (x : Rufl)   -- RUFL (R240)
  | occr (x : Eng)   -- OCCR (R241)
  | occrClr (x : Eng)   -- OCCR_CLR (R241)
  | kjoin (x : Kjoin)   -- KJOIN (R242)
  | send (x : Chn)   -- SEND (R244)
  | recv (x : Chn)   -- RECV (R244)
  | recvadd (x : Chn)   -- RECVADD (R244)
  | chst (x : Chn)   -- CHST (R246)
  | chopn (x : Chn)   -- CHOPN (R392)
  | chcl (x : Chcl)   -- CHCL (R394)
  | channelElementArrive (ctx ch : Nat)   -- CHANNEL_ELEMENT_ARRIVE (R390)
  | channelCreditArrive (ctx ch : Nat)   -- CHANNEL_CREDIT_ARRIVE (R390)
  | remoteOpenMatch (ctx ch : Nat) (far : FarOpen)   -- REMOTE_OPEN_MATCH (R392)
  | deadlockDetect (ctx : Nat) (parts : List Nat)   -- DEADLOCK_DETECT (R396)
  | coll (x : EngF)   -- COLL (R248)
  | colw (x : Eng)   -- COLW (R249)
  | cola (x : EngF)   -- COLA (R249)
  | collectivePacketReceive (ctx : Nat) (pkt : CollPacket)   -- COLLECTIVE_PACKET_RECEIVE (R412)
  | scaleAgreementDone (cmd : Nat) (exp : Int)   -- SCALE_AGREEMENT_DONE (R426)
  | collectiveChunkComplete (cmd chunk : Nat)   -- COLLECTIVE_CHUNK_COMPLETE (R424)
  | collectiveEnd (cmd : Nat)   -- COLLECTIVE_END (R419)
  | barr (x : EngR)   -- BARR (R250)
  | barx (x : EngR)   -- BARX (R250)
  | barw (x : EngR)   -- BARW (R403)
  | bariInit (x : Eng)   -- BARI_INIT (R407)
  | bariFree (x : Eng)   -- BARI_FREE (R407)
  | barrierUpdateApply (upd : Nat)   -- BARRIER_UPDATE_APPLY (R401)
  | barrierPhaseComplete (ctx bar : Nat)   -- BARRIER_PHASE_COMPLETE (R401)
  | grpc (x : EngF)   -- GRPC (R413)
  | grpf (x : EngF)   -- GRPF (R414)
  | groupJoinReceive (ctx grp : Nat) (join : GroupJoin)   -- GROUP_JOIN_RECEIVE (R413)
  | memberFailure (ctx grp cause member : Nat)   -- MEMBER_FAILURE (R417)
  | quarantineEnd (ctx grp : Nat)   -- QUARANTINE_END (R413)
  | lnks (x : EngF)   -- LNKS (R444)
  | faultRecordWrite (rec : Nat)   -- FAULT_RECORD_WRITE (R343)
  | translationWalkDone (k h : Nat)   -- TRANSLATION_WALK_DONE (R137)
  | recordLeavesMetadataCache (core ctx idx : Nat)   -- RECORD_LEAVES_METADATA_CACHE (R137)
  | pageTableWrite (core line : Nat)   -- PAGE_TABLE_WRITE (R371)
  | shootdownComplete (req : Nat)   -- SHOOTDOWN_COMPLETE (R371)
  | homeWritePerform (req : Nat)   -- HOME_WRITE_PERFORM (R291)
  | atomicAtHome (req : Nat)   -- ATOMIC_AT_HOME (R293)
  | l1LoadMiss (core line : Nat)   -- L1_LOAD_MISS (R290)
  | l1StoreMiss (core line : Nat)   -- L1_STORE_MISS (R290)
  | l1Upgrade (core line : Nat)   -- L1_UPGRADE (R290)
  | l1Eviction (core line : Nat)   -- L1_EVICTION (R290)
  | directoryEntryEvict (line : Nat)   -- DIRECTORY_ENTRY_EVICT (R289)
  | uncorrectableError (site : ErrorSite)   -- UNCORRECTABLE_ERROR (R296)
  | correctableError (die : Nat)   -- CORRECTABLE_ERROR (R295)
  | taskDispatch (part : Nat)   -- TASK_DISPATCH (R318)
  | reuseLookup (ctx count : Nat)   -- REUSE_LOOKUP (R332)
  | reusePlaceComplete (ctx count : Nat)   -- REUSE_PLACE_COMPLETE (R333)
  | taskRetire (ctx count : Nat)   -- TASK_RETIRE (R317)
  | contextCreate (ctx : Nat)   -- CONTEXT_CREATE (R340)
  | contextRun (ctx : Nat)   -- CONTEXT_RUN (R340)
  | contextPreempt (ctx : Nat)   -- CONTEXT_PREEMPT (R355)
  | contextDestroy (ctx : Nat)   -- CONTEXT_DESTROY (R363)
  | contextDestroyComplete (ctx : Nat)   -- CONTEXT_DESTROY_COMPLETE (R363)
  | cctlInvalidCommand (ctx code : Nat)   -- CCTL_INVALID_COMMAND (R339)
  | partitionSaveComplete (part : Nat)   -- PARTITION_SAVE_COMPLETE (R357)
  | saveComplete (ctx : Nat)   -- SAVE_COMPLETE (R340)
  | coreGate (core : Nat)   -- CORE_GATE (R34)
  | pageInComplete (ctx page : Nat)   -- PAGE_IN_COMPLETE (R378)
  | pageOutComplete (ctx page : Nat)   -- PAGE_OUT_COMPLETE (R378)
  | residencyStayExpire (ctx page : Nat)   -- RESIDENCY_STAY_EXPIRE (R382)
  | sptEntryWrite (req : Nat)   -- SPT_ENTRY_WRITE (R377)
  | bounceMerge (ctx page : Nat)   -- BOUNCE_MERGE (R383)
  | linkEnable (port : Nat)   -- LINK_ENABLE (R433)
  | linkDisable (port : Nat)   -- LINK_DISABLE (R433)
  | signalDetect (port : Nat)   -- SIGNAL_DETECT (R433)
  | linkTrained (port : Nat) (peer : LinkPeer)   -- LINK_TRAINED (R433)
  | trainingTimeout (port : Nat)   -- TRAINING_TIMEOUT (R433)
  | retryExhausted (port : Nat)   -- RETRY_EXHAUSTED (R433)
  | retrainDone (port : Nat)   -- RETRAIN_DONE (R433)
  | retrainFail (port : Nat)   -- RETRAIN_FAIL (R433)
  | signalLost (port : Nat)   -- SIGNAL_LOST (R433)
  | flitReceive (port : Nat) (flit : Flit)   -- FLIT_RECEIVE (R435)
  | flitResend (port : Nat)   -- FLIT_RESEND (R435)
  | packetDeliver (src seq : Nat)   -- PACKET_DELIVER (R436)
  | packetAgeDiscard (port src seq : Nat)   -- PACKET_AGE_DISCARD (R436)
  | packetResendTimeout (pkt : Nat)   -- PACKET_RESEND_TIMEOUT (R437)
  | packetGiveUp (pkt : Nat)   -- PACKET_GIVE_UP (R437)
  | noRouteTimeout (fab : Nat)   -- NO_ROUTE_TIMEOUT (R441)
  | unreachableNoticeReceive (fab : Nat)   -- UNREACHABLE_NOTICE_RECEIVE (R441)
  | unrchClear (fab : Nat)   -- UNRCH_CLEAR (R442)
  | resyncReceive (fab : Nat)   -- RESYNC_RECEIVE (R442)
  | timeStampExchange (port : Nat) (ofs : Int)   -- TIME_STAMP_EXCHANGE (R443)
  | hostWrite (addr : Nat) (bytes : List (BitVec 8))   -- HOST_WRITE (R445)
  | hostRead (addr len : Nat)   -- HOST_READ (R445)
  | hostAtomic (op : AtomicOp) (addr : Nat) (at_ : BitVec 3) (b c : BitVec 64)   -- HOST_ATOMIC (R445)
  | hltolMessage (v : BitVec 16)   -- HLTOL_MESSAGE (R447)
  | idleEntry   -- IDLE_ENTRY (R488)
  | idleExit   -- IDLE_EXIT (R489)
  | idleExitComplete   -- IDLE_EXIT_COMPLETE (R489)
  | throttleAdjust (sample : Nat)   -- THROTTLE_ADJUST (R490)
  | packageReset   -- PACKAGE_RESET (R491)
  | fuseWrite (stage : Nat)   -- FUSE_WRITE (R495)
  | attestationRequest (nonce : BitVec 256)   -- ATTESTATION_REQUEST (R494)
  | debugStop (part scope : Nat)   -- DEBUG_STOP (R472)
  | debugStep (part : Nat)   -- DEBUG_STEP (R473)
  | debugRun (part scope : Nat)   -- DEBUG_RUN (R474)
  | windowWrite (part off : Nat) (v : BitVec 64)   -- WINDOW_WRITE (R475)
  | debugLineWrite (v : BitVec 64)   -- DEBUG_LINE_WRITE (R476)
  | debugUnlock (v : BitVec 64)   -- DEBUG_UNLOCK (R487)
  | pmcWrite (core n : Nat) (v : BitVec 64)   -- PMC_WRITE (R485)
  | pmselWrite (core n : Nat) (v : BitVec 64)   -- PMSEL_WRITE (R485)
  | tenantProvision (slot : Nat) (v : BitVec 64)   -- TENANT_PROVISION (R499)
  | tenantRelease (slot : Nat) (v : BitVec 64)   -- TENANT_RELEASE (R499)
  | registerWrite (addr : Nat) (v : BitVec 64)   -- REGISTER_WRITE (R12)
  | corePowerUp (core : Nat)   -- CORE_POWER_UP (R34)
  | fetchMissFill (k : Nat)   -- FETCH_MISS_FILL (R93)
  | packetAckReceive (pkt : Nat)   -- PACKET_ACK_RECEIVE (R437)
  | stateVectorCommandComplete (cmd : Nat)   -- STATE_VECTOR_COMMAND_COMPLETE (R455)
  | debugTokenCheckDone   -- DEBUG_TOKEN_CHECK_DONE (R487)
  | debugLineWritePerform   -- DEBUG_LINE_WRITE_PERFORM (R476)
  deriving DecidableEq, Repr

end Sys2Proof
end

