-- ==== Sys2Proof/Machine/State.lean ====
section
/-! DEFINITION. The state of the package, as plain data, and the state after reset.

An issuer is a partition (key p, 0–3,071, 01 R26) or a context's command stream (key 4096 + context, 01 R30).  Both
hold the same record `Thr`; a command stream uses only its S, P, H, K and L parts (03 R87). -/

namespace Sys2Proof.Machine

open Sys2Proof

/-- The only stop of the model: raised by an event of the environment that names a physical address at or above
2^50, which the physical space of 10 R284 does not have.  Safe. -/
inductive Fault where
  | outsidePhysicalSpace
  deriving DecidableEq, Repr

/-- An instruction with no meaning yet.  No arm of `exec` answers it now.  Safe. -/
inductive Refusal where
  | notModelled (mnemonic : String)
  deriving DecidableEq, Repr

/-- The states of a handle (05 Table 5-4). -/
inductive HState where
  | invalid | pending | valid | failed | revoked
  deriving DecidableEq, Repr

/-- A handle register and what it captured (05 R137, 13 R367–R369). -/
structure Handle where
  st : HState := .invalid
  va : Nat := 0          -- virtual page, bits [11:0] clear
  base : Nat := 0        -- physical base of the page
  size : Nat := 0        -- page size in bytes
  wr : Bool := false     -- W
  cow : Bool := false    -- COW
  tens : Option Nat := none   -- tensor-record index
  deriving DecidableEq, Repr

/-- A loop-stack entry (04 Table 4-8). -/
structure LoopEnt where
  start : Nat := 0
  stop : Nat := 0        -- END
  trips : Nat := 0
  index : Nat := 0
  rot : Bool := false
  n : Nat := 0
  w : Nat := 0
  stg : Nat := 0
  deriving DecidableEq, Repr

/-- An address-update rule (04 R123). -/
structure Rule where
  first : Nat
  count : Nat
  stride : W64
  deriving DecidableEq, Repr

/-- A copy channel (08 Table 8-7). -/
structure CopyChan where
  nextId : Nat := 1
  doneId : Nat := 1
  errId : Nat := 0
  errKind : Nat := 0
  errCnt : Nat := 0
  ended : List Nat := []   -- identifiers complete beyond doneId
  deriving DecidableEq, Repr

/-- An accumulator bank: its 64 rows of 64 FP32 elements; a row not listed is zero (07 R196, R210). -/
abbrev Bank := Map VReg

/-- The writable control registers of a partition (03 Table 3-15). -/
inductive CtlReg where
  | barb | bard | aland | srstate
  deriving DecidableEq, Repr

/-- What a result in flight does when it lands (03 R91, R92). -/
inductive Land where
  | s (n : Nat) (v : W64) (psn : Bool)
  | v (n : Nat) (v : VReg) (mask : W64) (psn : Bool)          -- physical register, chunk mask (06 R167)
  | p (n : Nat) (b : Bool)
  | preds (v : BitVec 16)                                    -- MOVP.w (04 R114)
  | stages (v : BitVec 8)                                    -- P8–P15 regenerated (03 R75)
  | m (n : Nat) (v mask : W64)
  | bank (n : Nat) (b : Bank) (psn : Option Bool)
  | bankRow (n row : Nat) (v : VReg)                         -- ACWR.row
  | bankCol (n col : Nat) (v : VReg)                         -- ACWR.col
  | bankPsn (n : Nat) (b : Bool)                             -- ACPS.clr
  | xlat (h va : Nat)
  | hrel (h : Nat)
  | ctl (c : CtlReg) (v : W64)
  | tmode (v : W64)                                          -- a command stream's CRW of TMODE (11 Table 11-6)
  | barbRot (rot : Nat)                                      -- RT's advance of BARB.ROT (03 R75)
  | rule (n : Nat) (r : Rule)
  | wait (req : Nat)                                         -- a returning request: nothing until its data arrives
  deriving DecidableEq, Repr

/-- A result in flight: the SCYC at which it lands and what lands.  The list is in issue order (03 R92). -/
structure Flight where
  due : Nat
  land : Land
  entry : Bool := false     -- holds a landing-buffer entry (05 R146)
  deriving DecidableEq, Repr

/-- A multiply-accumulate in progress (07 R203–R209). -/
structure MatRun where
  op : Nat               -- 0 MMA, 1 MMAT, 2 MMAZ
  bank : Nat
  acc : Bank             -- the sums in the unit: the bank as read at issue, and the groups added
  a0 : W64
  a1 : W64
  b0 : W64
  b1 : W64
  recA : Option Nat      -- the record captured for operand A (07 R199), none without REC
  recB : Option Nat
  recs : List Nat := []  -- the records captured, which stay in the core's metadata cache (07 R199)
  next : Nat := 0        -- next group to read
  issued : Nat           -- SCYC of issue
  baddr : Nat
  abandoned : Bool := false
  cmd : Nat              -- the pseudo command whose end is the produced ticket
  deriving DecidableEq, Repr

/-- A bank transfer of the accumulator port (07 R212–R215). -/
structure Xfer where
  cmd : Nat              -- the pseudo command whose end is the produced ticket
  load : Bool
  bank : Nat
  tr : Bool
  rows : List Nat        -- the byte address of each row: physical, or scratchpad when sp
  rowBytes : Nat
  fmt : Nat
  sp : Bool
  data : List (List Byte) := []         -- ACST into scratchpad: the rows to be written
  got : List (Nat × List Nat) := []     -- ACLD: the FP32 codes of the lines read so far
  psn : Bool := false                   -- ACLD: whether a poisoned line was read
  reqs : List Nat := []                 -- ACST to global memory: its outstanding line writes
  deriving DecidableEq, Repr

/-- What an issuer is doing (11 Table 11-4, 12 R349, R355, 19 R471). -/
inductive Mode where
  | idle | running | finishing | parked | saving
  deriving DecidableEq, Repr

/-- What a stop left for the resumption to use (12 R349, R353). -/
structure Park where
  kind : Nat := 0          -- record kind, 12 Table 12-9
  reissue : Bool := true   -- the bundle at PC did not commit
  fetch : Bool := false    -- parked by a fetch fault
  matFormat : Bool := false -- a MATRIX stop of cause FORMAT is to be re-read
  resume : Option (Nat × Nat × Bool) := none
    -- a PRES that waits for its command stream's stores (12 R353): its issuer, the first request not before it, .skip
  deriving DecidableEq, Repr

/-- The task a partition runs (11 R312–R318). -/
structure TaskRef where
  count : Nat
  kernel : Nat
  pure : Bool
  cycles : Nat
  phase : Nat
  status : Nat := 0
  impure : Bool := false
  slot : Nat               -- the partition whose save slot holds the task (12 R360)
  bad : Bool := false      -- it parked by a fault (11 R330)
  fin : Bool := false      -- its FIN has committed (04 R128)
  deriving DecidableEq, Repr

/-- The debug state of a partition (19 Table 19-2, R473). -/
structure DebugSt where
  stopped : Bool := false
  cause : Nat := 0
  brkid : Nat := 0
  step : Bool := false
  edge : Nat := 0          -- what the next GCYC edge brings: 1 a stop, 2 the end of one (19 R472, R474)
  deriving DecidableEq, Repr

/-- A partition or a command stream. -/
structure Thr where
  -- registers (03 R87); poison flags (05 R162)
  sr : Map W64 := []
  sPsn : Map Bool := []
  vr : Map VReg := []                 -- by physical index
  vPsn : Map Bool := []
  pr : BitVec 16 := 1#16
  mr : Map W64 := []
  banks : Map Bank := []
  bPsn : Map Bool := []
  hs : Map Handle := []
  ks : Map (Option Nat) := []         -- ticket: the command it waits for
  -- sequencer (03 R68, R75; 04)
  pc : Nat := 0
  pend : Option (Nat × Nat) := none   -- pending target: SCYC at which it lands, address
  empty : Bool := false               -- the empty cycle of a loop not entered (04 R120)
  loops : List LoopEnt := []          -- innermost first
  rotn : Nat := 0
  rules : Map Rule := []
  scyc : Nat := 0
  elap : Nat := 0
  divFree : Nat := 0                  -- SCYC from which DIV may issue (04 R110)
  -- control registers (03 R90)
  barb : W64 := 0
  bard : W64 := 0
  aland : W64 := 256
  srstate : W64 := 0
  fltrec : W64 := 0
  drth : W64 := 0
  -- work in flight
  flight : List Flight := []
  mats : List MatRun := []            -- oldest first; a second may start while the first completes (07 R204)
  matFree : Nat := 0                  -- SCYC from which the matrix unit may start (03 R95)
  bankFree : Map Nat := []            -- SCYC from which a bank is free of its multiply-accumulate (03 R95)
  matStop : Option (Nat × Nat × Nat) := none -- a MATRIX stop pending behind the bundle due: group, cause, the instruction's command (07 R206)
  xfers : List Xfer := []
  prog : Map W64 := []                -- progress words (07 Table 7-5)
  chans : Map CopyChan := []
  -- life
  mode : Mode := .idle
  park : Park := {}
  savedMode : Mode := .idle           -- what a saved task was doing (12 R355)
  task : Option TaskRef := none
  resumed : List TaskRef := []        -- saved tasks queued for resumption, longest waiting first (11 R318)
  lastCtx : Option Nat := none        -- context of the task run before (02 R59)
  dbg : DebugSt := {}
  -- issue holds and their trace (03 R93, 19 R481, R484)
  held : Option Nat := none           -- cause of the hold or freeze in progress (19 Table 19-7)
  heldFrom : Nat := 0                 -- GCYC at which it began
  holdFrom : Option Nat := none       -- GCYC at which the due bundle's hold began, whatever its causes since (13 R379)
  stallArmed : Bool := false
  needs : List Nat := []              -- scratchpad pages the held bundle needs: context * 16384 + page (13 R379)
  missed : Option Nat := none         -- virtual line whose fetch is outstanding
  chanHeld : Option (Nat × Nat) := none -- held on a channel: its number, since when (14 R396)
  told : Bool := false                -- a DEADLOCK record names it, and it has not issued since (14 R397)
  waitm : Option (Nat × Bool) := none -- WAITM: physical line watched, and whether it has been written since (04 R125)
  deriving DecidableEq, Repr

/-- A page captured at issue by an engine command (08 R218). -/
structure Cap where
  va : Nat
  pa : Nat          -- physical address of the pointer
  base : Nat        -- of the page
  size : Nat
  tens : Option Nat
  line : Nat := 0   -- not used by a command; kept for shootdowns: the handle's virtual page
  deriving DecidableEq, Repr

/-- The progress of an accepted engine command (08 R220–R222). -/
inductive CmdSt where
  | accepted     -- waits for its tickets and its issuer's stores
  | timed        -- a copy in the time-sorted buffer (08 R229)
  | running
  | parked       -- a copy waiting for a source page (08 R233)
  | errWait      -- ended in a command error, its record not yet written (12 R344)
  | ending       -- at its end but for writes of its own that wait for a shootdown (13 R371)
  | done
  deriving DecidableEq, Repr

/-- A destination line a copy is writing and has not finished (08 R226): its bytes by offset, the VER it takes when no tag
travels, whether a byte came from a poisoned line, and, while every byte stands where it did in one source line, that line and
its tag. -/
structure LineBuf where
  addr : Nat                    -- first byte: scratchpad or physical
  sp : Bool
  bytes : List (Nat × Byte)
  ver : Nat
  psn : Bool
  src : Option (Nat × BitVec 4)
  deriving DecidableEq, Repr

/-- An accepted command, or the pseudo command of a T-slot ticket or of a channel operation (08 R220). -/
structure Cmd where
  id : Nat
  key : Nat := 0                -- issuer
  ctx : Nat := 0
  pos : Nat := 6
  major : Nat := 0
  fn : Nat := 0
  w : List W64 := []            -- operand words captured
  caps : List Cap := []
  waits : List Nat := []        -- commands whose tickets it consumes, not yet fired
  before : Nat := 0             -- its issuer's requests with a lower number come before it
  since : Nat := 0              -- GCYC of its acceptance, then of its start
  baddr : Nat := 0
  runner : Nat := 0             -- core of a copy, die of any other command
  cid : Nat := 0                -- copy identifier, submission count, or collective number
  st : CmdSt := .accepted
  due : Option Nat := none      -- issuer's SCYC at which a fixed-time command ends
  row : Nat := 0                -- a copy's next row
  kind : Nat := 0               -- a copy's completion kind, or an error code
  hash : List Byte := []        -- bytes hashed so far (08 R228)
  viol : Bool := false          -- it has met an access violation (10 R286)
  buf : List LineBuf := []      -- a copy's unfinished destination lines
  aux : List Nat := []          -- the object chapter's own progress
  held : List (Nat × Bool) := []   -- amplitudes a state-vector command has read and still uses, each with its line's poison
  met : List Nat := []          -- the poisoned lines of its object that it has read (18 R467)
  deriving DecidableEq, Repr

/-- What a global request does (05 R146–R160). -/
inductive ReqKind where
  | load (pieces : List (Nat × Nat × Nat)) (got : List (Nat × List Byte)) (psn : Bool) (dst : Nat) (vec : Bool) (ty : Nat) (mask : W64)
      -- (destination byte, physical address, length); bytes read; S or V register, access type, chunk mask
  | conv (line : Nat) (lines : Nat) (tens : Nat) (base size : Nat) (got : List (Nat × List Nat)) (psn : Bool) (dst : Nat)
      -- LDCV: first physical byte, lines, record, page; the FP32 or BF16 lanes of the lines read so far
  | store (pa : Nat) (bytes : List Byte) (ver : Option Nat) (psn : Bool) (bound : Option (Nat × Nat × Nat))
      -- one line's bytes; VER to write; poison; record, page base and page size of a bound page
  | patch (line : Nat) (bytes : List (Nat × Byte)) (ver : Nat) (psn : Bool) (bound : Option (Nat × Nat × Nat))
      -- a copy's bytes of one physical line that do not stand together, by offset
  | atomic (op : AtomicOp) (at_ : Nat) (pa : Nat) (b c : W64) (ret : Option Nat) (ord scope : Nat)
  | ltag (pa : Nat) (tens : Option Nat) (dst : Nat)
  | acld (xfer idx pa fmt : Nat) (tens : Option (Nat × Nat × Nat))   -- line idx of an ACLD; record, page base and page size
  | drain (scope : Nat)
  | maint (core line n : Nat) (inv l2 : Bool)                -- CLFL and CLINV of n physical lines
  | pref (core line n : Nat) (l1 : Bool)                     -- PREF of n physical lines
  | pclr (line : Nat)                                        -- PCLR (05 R161)
  | icinv (scope : Nat) (lo hi : Nat)                        -- ICINV in the other cores of its scope; lo = hi: whole caches
  deriving DecidableEq, Repr

/-- A global request not yet performed. -/
structure Req where
  id : Nat
  key : Nat             -- issuer; engines and saved tasks use keys of their own (Ops: engKey, savedKey)
  agent : Option Nat := none   -- the agent it was issued as, where its task has since moved (12 R360)
  acc : Nat             -- the access (instruction) it belongs to, for the request tracker
  ctx : Nat
  vpage : Nat := 0      -- virtual page of the handle it went through, for shootdowns
  tracked : Bool := true
  kind : ReqKind
  deriving DecidableEq, Repr

/-- A fault record formed and not yet written (12 R342–R344). -/
structure Rec where
  id : Nat
  src : Nat             -- source key, for the order of R344
  ctx : Nat
  fw : Bool := false    -- goes to the firmware queue (12 R347)
  rerouted : Bool := false   -- because its context had been destroyed (12 R342)
  kind : Nat
  srcCode : Nat
  idField : Nat
  baddr : Nat := 0
  slots : Nat := 0
  scyc : Nat := 0
  gcyc : Nat := 0
  det0 : Nat := 0
  det1 : Nat := 0
  loops : List Nat := []
  parks : Option Nat := none   -- the partition FLTREC belongs to (12 R345)
  cmd : Option Nat := none     -- the command whose ticket fires when the record is written (12 R344)
  counted : Bool := false      -- WAITS has been raised for it (12 R344)
  deriving DecidableEq, Repr

/-- The places of a scratchpad page (13 Table 13-7). -/
inductive Res where
  | absent | pin (cluster frame : Nat) | res (cluster frame : Nat) | pout (cluster frame : Nat)
  deriving DecidableEq, Repr

/-- The residency record of a scratchpad page (13 R378–R382). -/
structure SpPage where
  res : Res := .absent
  written : Bool := false
  dirty : BitVec 32 := 0
  since : Nat := 0             -- GCYC at which it became resident
  used : Nat := 0              -- GCYC of the last access (13 R380)
  reqs : List Nat := []        -- clusters waiting for it, in arrival order (13 R382)
  taking : Option Nat := none  -- the frame, cluster * 768 + frame, of the victim it waits for (13 R380)
  entry : Nat := 0             -- the entry it was last judged under (13 R377)
  unmap : Bool := false        -- an entry write waits for its page-out (13 R377)
  deriving DecidableEq, Repr

/-- A line of the bounce buffer (13 R383). -/
structure Bounce where
  die : Nat
  ctx : Nat
  addr : Nat                   -- scratchpad address of the line
  bytes : List (Nat × Byte)    -- offset in the line and byte
  tag : Option Nat             -- VER of a line written in full from one line
  psn : Bool
  cmd : Nat
  own : Nat                    -- the issuer of the copy, for the views of the merged line
  joined : Bool := false       -- whether it has been joined since the copy ended (10 R299)
  known : Map Nat := []        -- the agents it is ordered before, as of an Unjoined
  deriving DecidableEq, Repr

/-- A scratchpad line whose two views are not joined (10 R299, R300). -/
structure Unjoined where
  line : Nat                   -- global frame line
  lin : Bool                   -- written through the linear view
  own : Nat                    -- the issuer that wrote it or whose command did
  cmd : Nat                    -- the command, 0 for the issuer's own bundle
  old : List Byte              -- what the other view may still see
  oldTag : Nat
  mask : Nat                   -- bytes written
  known : Map Nat := []        -- agents it is ordered before, each with the number (`nextId`) from which it is (10 R299, R306)
  deriving DecidableEq, Repr

/-- The states of an L1 data line (10 Table 10-3). -/
inductive Moesi where
  | m | o | e | s | i
  deriving DecidableEq, Repr

/-- The directory states of a home (10 R289). -/
inductive DirSt where
  | uncached | shared | owned | exclusive
  deriving DecidableEq, Repr

/-- A directory entry (10 R289): its state, the owner core, the sharer vector of clusters, the host bit.  A sharer's bit may
outlive its copy (Table 10-3, silent eviction from S). -/
structure DirEnt where
  st : DirSt := .uncached
  owner : Nat := 0
  sharers : BitVec 96 := 0
  host : Bool := false
  deriving DecidableEq, Repr

/-- What an agent signals to whoever receives it: the object of an edge of 10 R305, the agent, and the number of its request
or command (10 R306). -/
structure Signal where
  obj : List Nat
  agent : Nat
  id : Nat
  deriving DecidableEq, Repr

/-- A release that has performed, at a scope narrower than the package, while accesses before it had not (10 R305 edge 5): the
bytes it wrote, its agent, its scope, its number. -/
structure Debt where
  pa : Nat
  n : Nat
  key : Nat
  scope : Nat
  id : Nat
  deriving DecidableEq, Repr

/-- A task known to the dependence table, or waiting to be entered (11 Table 11-4, R319, R320). -/
inductive TaskSt where
  | submitted | waiting | ready | lookup | placing | queued | running | saved | finishing | retired
  deriving DecidableEq, Repr

structure Task where
  ctx : Nat
  count : Nat
  st : TaskSt := .submitted
  part : Nat := 0
  kernel : Nat := 0
  pure : Bool := false
  cycles : Nat := 0
  phase : Nat := 0
  cadr : Nat := 0
  consts : List W64 := []
  digest : List Byte := []
  reads : List (Nat × Nat) := []     -- (address, length) of the used ranges (11 R313)
  writes : List (Nat × Nat) := []
  lens : List Nat := []              -- RLEN 0–7, WLEN 0–7 (11 R332)
  waitSems : List (Nat × Nat) := []  -- (semaphore, threshold) not yet satisfied (11 R322)
  sigs : List Nat := []
  deps : List Nat := []              -- counts of matched tasks not yet retired
  cmd : Nat := 0                     -- the TSUB command
  seq : Nat := 0                     -- package-wide order of commitment (11 R320)
  looked : Bool := false             -- its lookup has ended
  pureKey : Option Nat := none       -- the key computed by the lookup (11 R332)
  unit : Nat := 0                    -- the die of its descriptor's PART, whose reuse unit it uses (11 R331)
  watching : Bool := false           -- its watch is armed (11 R334)
  armed : List Nat := []             -- the physical lines it is armed on
  cancelled : Bool := false          -- and was cancelled
  status : Nat := 0
  impure : Bool := false
  bad : Bool := false                -- it parked by a fault (11 R330)
  saved : Option Nat := none         -- partition whose slot holds it (12 R356)
  released : Bool := false           -- its partition has released it (04 R128)
  after : Nat := 0                   -- its partition's requests below this number are its own
  produced : List Nat := []          -- commands it produced, not yet fired
  deriving DecidableEq, Repr

/-- A stored result of the reuse table (11 R331). -/
structure Reuse where
  die : Nat
  tenant : Nat
  key : Nat
  writes : List Nat                  -- lengths of the write ranges
  reads : List (Nat × Nat)           -- recorded read ranges
  lines : List Nat                   -- physical lines of the pool that hold the result (11 R517)
  stamp : Nat                        -- insertion or last hit
  deriving DecidableEq, Repr

/-- Reuse statistics of a tenant (11 Table 11-13). -/
structure ReuseStats where
  lookup : Nat := 0
  hit : Nat := 0
  insert : Nat := 0
  cancel : Nat := 0
  refuse : Nat := 0
  evict : Nat := 0
  dup : Nat := 0
  deriving DecidableEq, Repr

/-- Context states (12 Table 12-5). -/
inductive CtxSt where
  | free | resident | running | saving | halted
  deriving DecidableEq, Repr

/-- A context: its control-space registers and what CREATE and RUN captured (12 R338–R340). -/
structure Ctx where
  st : CtxSt := .free
  cdesc : W64 := 0
  die : Nat := 0                     -- CCTL.DIE
  rdie : Nat := 0                    -- the die its command stream was last started on
  err : Nat := 0
  busy : Bool := false
  destroying : Bool := false
  desc : Map Nat := []               -- the descriptor's 64-bit words below 0x100, by offset, when nonzero
  allot : List Nat := []             -- allotted partitions
  slot : Option Nat := none          -- command-stream slot of die `rdie`
  lastSlot : Nat := 0                -- the slot it last ran on, which names its command stream once saved (12 R342, R356)
  semPages : List Nat := []          -- physical pages of the semaphore table (11 R323)
  poolPages : List Nat := []
  poolBase : Nat := 0                -- RPOOL and RPSIZE as CREATE bound them (11 R517)
  poolSize : Nat := 0
  tmode : Nat := 0
  subcnt : Nat := 0
  retlo : Nat := 1
  cdbg : W64 := 0
  trbase : W64 := 6
  deriving DecidableEq, Repr

/-- An occupancy record (11 Table 11-12). -/
structure Occ where
  valid : Bool := false
  phase : Nat := 0
  tasks : Nat := 0
  drift : Nat := 0
  busy : Nat := 0
  stall : Nat := 0
  since : Nat := 0          -- GCYC at which the current fields were cleared: every other cycle is IDLE
  prev : List Nat := [0, 0, 0, 0]
  deriving DecidableEq, Repr

/-- A core's cached tensor record: its delta (09 R267–R269). -/
structure Delta where
  core : Nat
  ctx : Nat
  idx : Nat
  hist : Map Nat := []
  zero : Nat := 0
  nan : Nat := 0
  ovr : Nat := 0
  under : Nat := 0
  live : Map Int := []
  ovtot : Nat := 0
  csov : Nat := 0
  since : Nat := 0
  deriving DecidableEq, Repr

/-- A pending install of a tensor record (09 R264, R276). -/
structure Install where
  ctx : Nat
  idx : Nat
  fmt : Nat
  scale : Int
  cmd : Nat
  retry : Nat              -- GCYC at which its next retry falls due
  deriving DecidableEq, Repr

/-- A pending update of a barrier, in arrival order (15 R401). -/
structure BarUpd where
  id : Nat
  ctx : Nat
  bar : Nat
  arr : Nat
  expB : Int
  cmd : Option Nat
  deriving DecidableEq, Repr

/-- The states of a channel (14 Table 14-4). -/
inductive ChanSt where
  | free | opening | opened | draining | closed | broken
  deriving DecidableEq, Repr

/-- A channel as it stood before the CHOPN that opens it: what an error of the far end restores (14 R388). -/
structure ChanWas where
  st : ChanSt
  desc : List Nat
  qbuf : Nat
  sent : Nat
  recv : Nat
  usable : Nat
  back : Nat
  marked : Bool
  deriving DecidableEq, Repr

/-- A channel (14 R385–R395).  Its image in memory is only a copy: software stores there change nothing. -/
structure Chan where
  ctx : Nat
  ch : Nat
  st : ChanSt := .free
  desc : List Nat := []                -- the five words of its descriptor
  qbuf : Nat := 0                      -- physical address of the ring
  sent : Nat := 0
  recv : Nat := 0
  head : Nat := 0                      -- slot of the ring's head element (14 R386)
  stand : List (List Byte) := []       -- elements standing in the receiver's queue, oldest first
  transit : List (Option (List Byte) × Nat × Bool) := []
    -- elements, or a close mark, on their way: the command whose ticket fires on arrival, and whether a reset discarded it
  back : Nat := 0                      -- credits on their way to the sender
  usable : Nat := 0                    -- the sender's credits
  marked : Bool := false               -- the close mark stands
  closing : List Nat := []             -- CHCLs committed in this cycle (R394)
  opening : Option Nat := none         -- the CHOPN that waits for the far end
  was : Option ChanWas := none         -- the channel before that CHOPN
  deriving DecidableEq, Repr

/-- A group at this member, beside its record in memory (16 R409–R431). -/
structure Grp where
  ctx : Nat
  idx : Nat
  colls : Nat := 0                     -- COLLs committed since the restart (08 R248)
  colas : Nat := 0
  members : List Nat := []             -- fabric identifiers by rank
  digest : Nat := 0                    -- of this member's table (16 R411)
  joined : List Nat := []              -- ranks whose join has arrived
  grpc : Option Nat := none            -- the GRPC that waits
  ended : List Nat := []               -- collectives ended at this member
  agreed : List Nat := []              -- COLA numbers ended at this member
  packets : List CollPacket := []      -- packets accepted and not yet used
  failing : Option (Nat × Nat) := none -- the failure of this cycle: its cause and the member's rank (16 R417, R418)
  deriving DecidableEq, Repr

/-- A collective open at this member (16 R419–R431). -/
structure Coll where
  cmd : Nat
  ctx : Nat
  grp : Nat
  seq : Nat
  op : Nat
  desc : List Nat := []                -- the descriptor's eight words
  algrun : Nat := 0
  src : Option (Option Nat) := none    -- the source side, where this member has one: plain, or its record
  dst : Option (Option Nat) := none
  srcRuns : List (Nat × Nat) := []     -- the data lines of a record side: address of the first line of a run, lines (02 R52)
  dstRuns : List (Nat × Nat) := []
  scale : Option Int := none           -- the wire scale, once agreed (16 R426)
  started : List Nat := []             -- chunks whose contribution this member has read and sent
  done : List Nat := []                -- chunks complete here
  replanned : Option (List Nat) := none -- after the first detour with DET = 0: the chunks started before it
  replan : Bool := false
  detours : List Nat := []             -- chunks that crossed a detour
  psn : Bool := false
  wv : Option Nat := none              -- the destination record's write version at the first write (16 R427)
  deriving DecidableEq, Repr

/-- A packet that waits in the switch for a port (17 R436, R440): since when, and under which routing entry. -/
structure Waiting where
  pkt : WirePacket
  own : Option Nat := none             -- this package's own packet
  since : Nat
  entry : W64
  deriving DecidableEq, Repr

/-- A packet, or an acknowledgement, whose flits wait for room in a replay buffer (17 R435). -/
structure Sending where
  wait : Option Waiting := none        -- what goes back to the switch should the port leave UP
  left : Nat                           -- flits still to send
  begun : Bool := false
  deriving DecidableEq, Repr

/-- A link (17 R432–R444). -/
structure Link where
  st : Nat := 1                        -- 17 Table 17-1 code
  narrow : Nat := 0                    -- halvings of its full width
  since : Nat := 0
  flitTx : Nat := 0
  flitRx : Nat := 0
  crc : Nat := 0
  retry : Nat := 0
  retrain : Nat := 0
  degrade : Nat := 0
  exhaust : Nat := 0
  dropAge : Nat := 0
  peer : Nat := 0
  peerPort : Nat := 0
  peerOfs : Int := 0
  txNext : Nat := 0
  replay : List (Nat × Option Nat × Nat) := []   -- flits not acknowledged: sequence number, packet that ends in it, times sent again
  queue : List Sending := []           -- what waits for room among them
  fwAt : Nat := 0                      -- one more than the GCYC in which firmware last moved it
  rxNext : Nat := 0
  crcTimes : List Nat := []            -- GCYC of the CRC errors of the last 2^20 cycles
  deriving DecidableEq, Repr

/-- A fabric packet this package has sent and not seen acknowledged (17 R437). -/
structure Packet where
  id : Nat
  dst : Nat
  seq : Nat
  body : PktBody
  first : Option Nat := none           -- GCYC of its first sending
  last : Nat                           -- GCYC of its last, or of its forming
  port : Option Nat := none            -- the port it left by; none: it has not left
  again : Bool := false                -- it stood in the replay buffer of a link that left UP
  cmd : Option Nat := none             -- the SEND or CHCL whose ticket its arrival fires
  deriving DecidableEq, Repr

/-- The fabric side of the package (17 R436–R442). -/
structure Fabric where
  fabid : Nat := 0
  routes : Map W64 := []
  unrch : List Nat := []               -- packages declared unreachable
  declare : List Nat := []             -- packages whose declaration is due in this cycle
  resync : List Nat := []              -- packages whose own resynchronisation is awaited (R442)
  sent : List Packet := []
  nextSeq : Map Nat := []
  rxSeq : Map Nat := []                -- next sequence number expected of a source
  early : List WirePacket := []        -- packets arrived and not yet delivered
  through : List Waiting := []         -- packets that wait in the switch for a port
  delivered : List (Nat × PktBody) := []    -- what was delivered and not yet acted on, with its source
  noRoute : Map Nat := []              -- destination: GCYC since which no listed port is UP
  deriving DecidableEq, Repr

/-- A tenant slot (20 R499). -/
structure Tenant where
  slot : Nat
  reg : W64
  quota : Nat := 0
  secret : List Byte
  stats : ReuseStats := {}
  deriving DecidableEq, Repr

/-- A request from outside that waits for the package to leave an idle level (20 R489). -/
inductive Asked where
  | flit (port : Nat) (flit : Flit) (since : Nat)
  | write (addr : Nat) (bytes : List Byte)
  | read (addr len : Nat)
  | atomic (op : AtomicOp) (addr : Nat) (at_ : BitVec 3) (b c : W64)
  | reg (addr : Nat) (v : W64)
  | fuse (n : Nat)
  | attest (nonce : BitVec 256)
  deriving DecidableEq, Repr

/-- Power, security and debug registers of the package (19, 20). -/
structure Sys where
  hltol : Nat := 0
  idle : Nat := 0                          -- idle level, 20 R488
  idleFor : Nat := 0
  idleTo : Option Nat := none              -- GCYC at which an exit completes
  plim : W64 := 0x898
  throt : Nat := 0                         -- 10 µs intervals with a throttle since reset (20 Table 20-5)
  sampled : Nat := 0                       -- GCYC of the last power sample (20 R490)
  keyZero : Bool := false                  -- the identity key was derived after entry to RETURN (20 R496)
  image : Nat := 0                         -- the reset that loaded the running firmware's image (20 R492)
  rollback : Nat := 0                      -- the fused rollback count (20 R492)
  meanw : Nat := 0
  frac : Nat := 0
  samples : List Nat := []
  lcsReady : Bool := true
  lcsStage : Nat := 2
  recovery : Bool := false
  dunlk : Nat := 0
  dnonce : List Byte := []
  dtok : Map Byte := []
  debugOn : Nat := 0                       -- features enabled, bits 0–5 (19 R470)
  tokenBusy : Bool := false
  dlData : Map Byte := []
  dlPending : Option Nat := none
  fwqbase : W64 := 0
  fwqcnt : W64 := 0
  fwlbase : W64 := 0
  fwlcnt : W64 := 0
  fwPend : List (Nat × W64) := []          -- writes of a base or count waiting for TAIL = HEAD (12 R348)
  lastRead : List Byte := []               -- the host's last read or returned atomic
  hostUp : Bool := false
  asked : List Asked := []                 -- requests that wait for the exit from an idle level (20 R489)
  report : List Byte := []
  deriving DecidableEq, Repr

/-- The whole package. -/
structure State where
  gcyc : Nat := 0
  cur : Nat := 0                           -- issuer whose bundle a slot instruction belongs to
  turn : List Nat := []                    -- issuers still to have their turn in this cycle
  agenda : List Instr := []                -- the order of events, as the environment's plain data
  fresh : Nat := 0                         -- counter that indexes the free values
  nextId : Nat := 1
  thr : Map Thr := []
  -- memory
  mem : List Host.Cell := []               -- physical bytes
  tags : Map (BitVec 4) := []              -- physical line tags (02 Table 2-5)
  frames : List Host.Cell := []            -- frame bytes: (cluster*768 + frame)*2048 + offset
  ftags : Map (BitVec 4) := []
  unjoined : List Unjoined := []
  l1 : List (Nat × Nat × Moesi) := []      -- core, physical line, state; absent = I
  hostLines : List (Nat × Moesi) := []     -- lines the host holds, and how (10 R292)
  dir : Map DirEnt := []                   -- directory entries of the home slices, by physical line (10 R289)
  l2 : Map Bool := []                      -- lines in their home L2 slices, and whether each is dirty (10 R288)
  icache : List (Nat × Nat × List Byte) := [] -- core, physical line, bytes as fetched (04 R132)
  xcache : List (Nat × Nat × Nat × Nat) := [] -- core, context, virtual page, physical line of its leaf entry (13 R370)
  spCache : List (Nat × Nat × Nat) := []   -- core, context, scratchpad page: entries in the cores' page caches (13 R377)
  corrected : Map Nat := []                -- correctable errors per die
  reqs : List Req := []
  debts : List Debt := []                  -- releases performed ahead of earlier accesses (10 R305)
  passed : List Nat := []                  -- acquires that a later read of their issuer has passed (10 R305)
  signals : List Signal := []              -- what stands to be received over the edges of 10 R305 (10 R306)
  shoot : List (Nat × Nat) := []           -- page-table writes in shootdown: request, entry line; cores done in `shootDone`
  shootDone : List (Nat × Nat) := []
  -- engines
  cmds : List Cmd := []
  recs : List Rec := []
  deltas : List Delta := []
  cached : List (Nat × Nat × Nat) := []    -- core, context, record in the core's metadata cache
  installs : List Install := []
  posts : List (Nat × Nat × Nat × Nat) := [] -- TENSOR crossings on their way: context, record, core, step
  barUpds : List BarUpd := []
  barLine : Map Nat := []                  -- ACTIVE barriers, context * 65536 + number: the physical line bound (15 R400)
  barSeen : Map Nat := []                  -- 1 + the GCYC in which a barrier was last judged (15 R401)
  chans : List Chan := []
  grps : List Grp := []
  colls : List Coll := []
  quar : List Nat := []                    -- physical addresses of group records in quarantine (16 R414)
  qcmds : List (Nat × Nat × Nat) := []     -- state-vector commands begun, or ended in an error whose ticket has not fired: command, context, object
  -- scratchpad residency, by context * 16384 + page
  pages : Map SpPage := []
  bounce : List Bounce := []
  gated : List Nat := []
  -- tasks
  tasks : List Task := []
  occ : Map Occ := []
  reuse : List Reuse := []
  watchCnt : Map Nat := []                 -- watch counters of the slices, by reuse unit, slice and hash (11 R334)
  tenants : List Tenant := []
  saved : List (Nat × Thr) := []           -- tasks saved: context * 4096 + slot partition, the snapshot (12 R356, R518)
  -- system
  ctxs : Map Ctx := []
  links : Map Link := []
  fab : Fabric := {}
  sys : Sys := {}
  pmc : Map W64 := []                      -- core * 16 + n
  pmsel : Map W64 := []
  pmcSkip : List Nat := []                 -- counters written in this cycle, whose events it discards (19 R485)
  pmcPend : Map Nat := []                  -- events of this cycle, added to the counters at its end (19 R485)
  copyParks : Map Nat := []                -- copies parked for a source page, by core (08 R233)
  deriving DecidableEq, Repr

/-- The package right after reset (20 R491): memory and tags zero, registers at the values their tables give and, where
none is given, at the values of notes/assumptions 1–7 (DESIGN CHOICE, unsafe). -/
def State.reset : State := {}

end Sys2Proof.Machine
end

