-- ==== Sys2Proof/Machine/Ops.lean ====
section
/-! DEFINITION. The named operations over memory, registers, translation, logs and queues. -/

namespace Sys2Proof.Machine

open Sys2Proof

/-! ### Memory as cells (00 R8): an unlisted address reads as zero (20 R491) -/

/-- What an unlisted address reads as: zero, by 20 R491 for the package's own memory; for the host window a DESIGN CHOICE, unsafe
(notes/assumptions/3). -/
def unlisted : Byte := 0

/-- One byte of a memory. -/
def rdByte (m : List Host.Cell) (a : Nat) : Byte := getD unlisted m a

/-- n bytes from address a. -/
def rdBytes (m : List Host.Cell) (a n : Nat) : List Byte :=
  match n with
  | 0 => []
  | n + 1 => rdByte m a :: rdBytes m (a + 1) n

/-- The cells of a run of bytes, those equal to an unlisted byte left out. -/
def cellsOf (a : Nat) (bs : List Byte) : List Host.Cell :=
  match bs with
  | [] => []
  | b :: r => if b = unlisted then cellsOf (a + 1) r else (a, b) :: cellsOf (a + 1) r

/-- Writes a run of bytes at address a. -/
def wrBytes (m : List Host.Cell) (a : Nat) (bs : List Byte) : List Host.Cell :=
  m.filter (fun c => c.1 < a) ++ cellsOf a bs ++ m.filter (fun c => a + bs.length ≤ c.1)

/-- The runs of consecutive places in a list of placed bytes, in rising order. -/
def byteRuns (l : List (Nat × Byte)) : List (Nat × List Byte) :=
  match l with
  | [] => []
  | (o, b) :: r => match byteRuns r with
    | (p, bs) :: t => if p = o + 1 then (o, b :: bs) :: t else (o, [b]) :: (p, bs) :: t
    | [] => [(o, [b])]

/-- The canonical form: addresses strictly rising, no entry equal to an unlisted byte. -/
def Memory.wf (m : List Host.Cell) : Bool :=
  match m with
  | [] => true
  | [c] => c.2 != unlisted
  | c :: d :: r => c.2 != unlisted && decide (c.1 < d.1) && Memory.wf (d :: r)

/-- A little-endian number of n bytes. -/
def rdN (m : List Host.Cell) (a n : Nat) : Nat := ofBytes (rdBytes m a n)

def State.rd64 (s : State) (a : Nat) : Nat := rdN s.mem a 8

/-! ### Line tags (02 Table 2-5) -/

def tagPsn (t : BitVec 4) : Bool := t.getLsbD 2
def tagVer (t : BitVec 4) : Nat := t.toNat % 4
def mkTag (psn : Bool) (ver : Nat) : BitVec 4 := BitVec.ofNat 4 ((if psn then 4 else 0) + ver % 4)

def State.tag (s : State) (pa : Nat) : BitVec 4 := getD 0 s.tags (pa / 64)
def State.setTag (s : State) (pa : Nat) (t : BitVec 4) : State := { s with tags := putD 0 s.tags (pa / 64) t }

/-! ### Issuers -/

def csBase : Nat := 4096
def csKey (c : Nat) : Nat := csBase + c
def isCs (k : Nat) : Bool := csBase ≤ k && k < 8192

/-- The key of the host's requests over Linor Link (17 R445). -/
def hostKey : Nat := 4000

/-- The key of the part's own writes that wait for a shootdown (13 R371). -/
def partKey : Nat := 4001

/-- The key of a saved task's requests and commands: its context and slot partition (12 R356). -/
def savedKey (c p : Nat) : Nat := 8192 + c * 4096 + p

/-- The key of what a task leaves behind when its partition releases it: its requests and commands (04 R128). -/
def goneKey (c p : Nat) : Nat := 532480 + c * 4096 + p
def isGone (k : Nat) : Bool := 532480 ≤ k && k < 1048576

/-- The key of an engine command's requests. -/
def engKey (id : Nat) : Nat := 1048576 + id

/-- The partition of a key: its own, or the slot partition of a saved task. -/
def partOf (k : Nat) : Nat := if k < csBase then k else (k - 8192) % 4096

/-- The agent of a key, whatever has become of its task: its partition or its command stream, or an engine's command (10 R301). -/
def agentOfKey (k : Nat) : Nat := if k < 8192 ∨ engKey 0 ≤ k then k else partOf k

def State.th (s : State) (k : Nat) : Thr := getD {} s.thr k
def State.setTh (s : State) (k : Nat) (t : Thr) : State := { s with thr := putK s.thr k t }
def State.modTh (s : State) (k : Nat) (f : Thr → Thr) : State := s.setTh k (f (s.th k))

def State.ctx (s : State) (c : Nat) : Ctx := getD {} s.ctxs c
def State.setCtx (s : State) (c : Nat) (x : Ctx) : State := { s with ctxs := putK s.ctxs c x }
def State.modCtx (s : State) (c : Nat) (f : Ctx → Ctx) : State := s.setCtx c (f (s.ctx c))

/-- A 64-bit word of the captured context descriptor (12 Table 12-2). -/
def Ctx.word (x : Ctx) (off : Nat) : Nat := getD 0 x.desc off
def Ctx.fwctx (x : Ctx) : Bool := (x.word 0).testBit 16
def Ctx.tenant (x : Ctx) : Nat := x.word 0 % 65536
def State.cword (s : State) (c off : Nat) : Nat := (s.ctx c).word off

/-- The context a partition is allotted to (12 R337). -/
def State.owner (s : State) (p : Nat) : Option Nat :=
  (s.ctxs.find? fun e => e.2.st != .free && e.2.allot.contains p).map fun e => e.1

/-- The context an issuer works for; 64 when a partition has none. -/
def State.ctxOf (s : State) (k : Nat) : Nat :=
  if isCs k then k - csBase else if k < csBase then (s.owner k).getD 64 else (k - 8192) / 4096 % 128

/-- The die of an issuer (01 R26, 12 Table 12-4). -/
def State.dieOf (s : State) (k : Nat) : Nat := if isCs k then (s.ctx (k - csBase)).rdie else partOf k / 768

/-- The core and cluster of a partition (01 R26). -/
def coreOf (p : Nat) : Nat := p / 8
def clusterOf (p : Nat) : Nat := p / 32

/-- The command stream number of a context: die × 4 + slot (11 Table 11-7), that of its last run where it is saved. -/
def State.csid (s : State) (c : Nat) : Nat := (s.ctx c).rdie * 4 + (s.ctx c).slot.getD (s.ctx c).lastSlot

/-! ### Registers (03 R87) -/

/-- S0 reads zero. -/
def Thr.s (t : Thr) (n : Nat) : W64 := if n = 0 then 0 else getD 0 t.sr n
def Thr.sBad (t : Thr) (n : Nat) : Bool := if n = 0 then false else getD false t.sPsn n

/-- A write to S0 is discarded. -/
def Thr.setS (t : Thr) (n : Nat) (v : W64) (psn : Bool := false) : Thr :=
  if n = 0 then t else { t with sr := putD 0 t.sr n v, sPsn := putD false t.sPsn n psn }

def Thr.vPhys (t : Thr) (n : Nat) : VReg := getD 0 t.vr n
def Thr.vBadP (t : Thr) (n : Nat) : Bool := getD false t.vPsn n

/-- P0 reads true. -/
def Thr.p (t : Thr) (n : Nat) : Bool := if n = 0 then true else t.pr.getLsbD n
def Thr.setP (t : Thr) (n : Nat) (b : Bool) : Thr :=
  if n = 0 then t
  else { t with pr := if b then t.pr ||| BitVec.ofNat 16 (2 ^ n) else t.pr &&& ~~~(BitVec.ofNat 16 (2 ^ n)) }

/-- M0 reads all ones. -/
def Thr.m (t : Thr) (n : Nat) : W64 := if n = 0 then BitVec.allOnes 64 else getD 0 t.mr n

/-- Bit i of an M destination is written only where bit i of the mask is set; M0 discards (06 R179). -/
def Thr.setM (t : Thr) (n : Nat) (v mask : W64) : Thr :=
  if n = 0 then t else { t with mr := putD 0 t.mr n ((v &&& mask) ||| (getD 0 t.mr n &&& ~~~mask)) }

def Thr.bank (t : Thr) (n : Nat) : Bank := getD [] t.banks n
def Thr.bBad (t : Thr) (n : Nat) : Bool := getD false t.bPsn n
def Thr.setBank (t : Thr) (n : Nat) (b : Bank) : Thr := { t with banks := putK t.banks n b }
def Thr.setBPsn (t : Thr) (n : Nat) (b : Bool) : Thr := { t with bPsn := putD false t.bPsn n b }
def Thr.h (t : Thr) (n : Nat) : Handle := getD {} t.hs n
def Thr.setH (t : Thr) (n : Nat) (h : Handle) : Thr := { t with hs := putD {} t.hs n h }
def Thr.chan (t : Thr) (n : Nat) : CopyChan := getD {} t.chans n

/-- The rotating loop in force, if any (03 R88). -/
def Thr.rotLoop (t : Thr) : Option LoopEnt := t.loops.find? fun e => e.rot

/-- The physical index of a vector name at issue (03 R88). -/
def Thr.vName (t : Thr) (n : Nat) : Nat :=
  match t.rotLoop with
  | none => n
  | some e => if 32 ≤ n ∧ n < 32 + e.w then 32 + (((n - 32 : Int) - t.rotn) % e.w).toNat else n

/-- Lk of the loop index file (04 R119). -/
def Thr.loopIdx (t : Thr) (i : Nat) : Nat :=
  match t.loops[i]? with
  | some e => e.index
  | none => 0

/-- Element (i, j) of a bank and a bank built from its elements (07 R196). -/
def Bank.el (b : Bank) (i j : Nat) : Nat := vLane (getD 0 b i) 32 j
def Bank.of (f : Nat → Nat → Nat) : Bank :=
  (List.range 64).map fun i => (i, vOfLanes 32 ((List.range 64).map fun j => f i j))
def Bank.row (b : Bank) (i : Nat) : VReg := getD 0 b i
def Bank.setRow (b : Bank) (i : Nat) (v : VReg) : Bank := putK b i v

/-- Every element one FP32 code. -/
def Bank.fill (c : Nat) : Bank := if c = 0 then [] else Bank.of fun _ _ => c
def Bank.transpose (b : Bank) : Bank := if b.isEmpty then [] else Bank.of fun i j => b.el j i

/-! ### Tickets (03 R82, 04 R113): a command that fired is visible as fired from the next cycle -/

/-- A command is live until the end of the cycle in which it fired. -/
def State.live (s : State) (id : Nat) : Bool := s.cmds.any fun c => c.id == id

/-- Whether ticket n of an issuer reads as fired.  K0 is always fired. -/
def State.fired (s : State) (k n : Nat) : Bool :=
  if n = 0 then true
  else match getD none (s.th k).ks n with
    | none => true
    | some id => !s.live id

def State.cmd? (s : State) (id : Nat) : Option Cmd := s.cmds.find? fun c => c.id == id
def State.modCmd (s : State) (id : Nat) (f : Cmd → Cmd) : State :=
  { s with cmds := s.cmds.map fun c => if c.id == id then f c else c }

/-- Whether a command has ended (its event has happened, visible or not). -/
def State.ended (s : State) (id : Nat) : Bool :=
  match s.cmd? id with
  | none => true
  | some c => c.st == .done

/-! ### Physical space (10 R285, R286) -/

inductive PhysClass where
  | hbm | control | host | reserved
  deriving DecidableEq, Repr

def hbmEnd : Nat := 0x90_0000_0000
def ctlBase : Nat := 0x100_0000_0000
def hostBase : Nat := 0x2_0000_0000_0000

def physClass (pa : Nat) : PhysClass :=
  if pa < hbmEnd then .hbm
  else if ctlBase ≤ pa ∧ pa < ctlBase + 0x1_0000_0000 then .control
  else if hostBase ≤ pa ∧ pa < 0x4_0000_0000_0000 then .host
  else .reserved

/-- The home die and slice of a line (10 R287). -/
def homeDie (pa : Nat) : Nat := if pa < hbmEnd then pa / 0x24_0000_0000 else 0
def homeSlice (pa : Nat) : Nat :=
  let d := homeDie pa
  let n := if pa < hbmEnd then (pa - d * 0x24_0000_0000) / 64 else bitsN pa 37 6
  d * 512 + (bitsN n 8 0 ^^^ bitsN n 17 9 ^^^ bitsN n 26 18 ^^^ bitsN n 31 27)

/-- The home stack of an HBM line (10 R287): the 4 KiB runs of a die rotate over its three stacks. -/
def homeStack (pa : Nat) : Nat :=
  let d := homeDie pa
  d * 3 + (pa - d * 0x24_0000_0000) / 64 / 64 % 3

/-- Whether an issuer has firmware privilege (12 Table 12-1): the command stream of a context with FWCTX = 1. -/
def State.firmware (s : State) (k : Nat) : Bool := isCs k && (s.ctx (k - csBase)).fwctx

/-- An access violation (10 R286), apart from the writes that 11 R323 and 09 R256 add. -/
def State.violates (s : State) (fw : Bool) (pa : Nat) : Bool :=
  match physClass pa with
  | .hbm => false
  | .reserved => true
  | .control => !fw
  | .host => !s.sys.hostUp || Config.hostRefuses (pa / 64) s.gcyc

/-- What a violating read of n bytes returns (10 R286). -/
def State.violatedBytes (s : State) (pa n : Nat) : List Byte := (List.range n).map fun i => Config.violatedByte (pa + i) s.gcyc
def State.violatedN (s : State) (pa n : Nat) : Nat := ofBytes (s.violatedBytes pa n)

/-! ### The page table (13 R366–R369) -/

/-- A leaf found by a walk. -/
structure Leaf where
  base : Nat
  size : Nat
  wr : Bool
  cow : Bool
  x : Bool
  tens : Option Nat
  lines : List Nat      -- physical lines of the entries read
  deriving DecidableEq, Repr

/-- A leaf entry of a page of `size` bytes (13 Tables 13-3, 13-4, R369). -/
def leafOf (s : State) (c : Nat) (task needR : Bool) (e size : Nat) (lines : List Nat) : Option Leaf :=
  let tens := e.testBit 7
  let pa := if tens then bitsN e 39 16 * 65536 else bitsN e 49 12 * 4096
  if !e.testBit 0 || !e.testBit 1 || (needR && !e.testBit 2) then none
  else if pa % size != 0 then none
  else if task && e.testBit 5 then none
  else if tens then
    if bitsN e 43 40 != 0 || size == 4096 || hbmEnd ≤ pa || s.cword c 0x28 ≤ bitsN e 63 44 then none
    else some ⟨pa, size, e.testBit 3, e.testBit 6, e.testBit 4, some (bitsN e 63 44), lines⟩
  else if bitsN e 63 50 != 0 then none
  else some ⟨pa, size, e.testBit 3, e.testBit 6, e.testBit 4, none, lines⟩

/-- A non-leaf entry (13 Table 13-2): the next table and GRAN; GRAN = 1 only where `l1`. -/
def nextTable (e : Nat) (l1 : Bool) : Option (Nat × Bool) :=
  let gran := e.testBit 2
  if !e.testBit 0 || e.testBit 1 || bitsN e 63 50 != 0 || bitsN e 7 3 != 0 then none
  else if gran && !l1 then none
  else if !gran && bitsN e 11 8 != 0 then none
  else some (bitsN e 49 8 * 256, gran)

/-- An entry of a table in physical memory; one that the walker may not read maps nothing (10 R286, notes/assumptions/130). -/
def State.entryWord (s : State) (a : Nat) : Nat := if s.violates false a then 0 else s.rd64 a

/-- The walk of a virtual address; `task`: for task code; `needR`: it needs read permission (13 R369). -/
def State.walkWith (s : State) (c : Nat) (task needR : Bool) (va : Nat) : Option Leaf :=
  let a3 := s.cword c 8 + 8 * bitsN va 51 39
  match nextTable (s.entryWord a3) false with
  | none => none
  | some (t2, _) =>
    let a2 := t2 + 8 * bitsN va 38 30
    match nextTable (s.entryWord a2) false with
    | none => none
    | some (t1, _) =>
      let a1 := t1 + 8 * bitsN va 29 21
      let e1 := s.entryWord a1
      if e1.testBit 0 && e1.testBit 1 then leafOf s c task needR e1 0x200000 [a3 / 64, a2 / 64, a1 / 64]
      else match nextTable e1 true with
        | none => none
        | some (t0, gran) =>
          let a0 := if gran then t0 + 8 * bitsN va 20 16 else t0 + 8 * bitsN va 20 12
          leafOf s c task needR (s.entryWord a0) (if gran then 65536 else 4096) [a3 / 64, a2 / 64, a1 / 64, a0 / 64]

/-- The walk of a virtual address that needs read permission. -/
def State.walk (s : State) (c : Nat) (task : Bool) (va : Nat) : Option Leaf := s.walkWith c task true va

/-- The lines of the entries a walk of va reads, whether or not it succeeds (13 R371). -/
def State.walkLines (s : State) (c : Nat) (va : Nat) : List Nat :=
  let a3 := s.cword c 8 + 8 * bitsN va 51 39
  match nextTable (s.entryWord a3) false with
  | none => [a3 / 64]
  | some (t2, _) =>
    let a2 := t2 + 8 * bitsN va 38 30
    match nextTable (s.entryWord a2) false with
    | none => [a3 / 64, a2 / 64]
    | some (t1, _) =>
      let a1 := t1 + 8 * bitsN va 29 21
      match nextTable (s.entryWord a1) true with
      | none => [a3 / 64, a2 / 64, a1 / 64]
      | some (t0, gran) =>
        let a0 := if gran then t0 + 8 * bitsN va 20 16 else t0 + 8 * bitsN va 20 12
        [a3 / 64, a2 / 64, a1 / 64, a0 / 64]

/-- The physical address of a virtual one under a mapping the part may use. -/
def State.vpa (s : State) (c : Nat) (va : Nat) : Option Nat :=
  (s.walk c false va).map fun l => l.base + va % l.size

/-! ### Scratchpad page-table entries (13 R376) -/

/-- The key of a scratchpad page of a context. -/
def pageKey (c n : Nat) : Nat := c * 16384 + n

/-- The entry of a scratchpad page (13 R376). -/
def State.spWord (s : State) (c n : Nat) : Nat := s.rd64 (s.cword c 0x10 + 8 * n)

/-- What an entry that maps gives: its backing block and ZF (13 Table 13-6). -/
def spEntryOf (e : Nat) : Option (Nat × Bool) :=
  if !e.testBit 0 || e.testBit 2 || bitsN e 63 50 != 0 then none
  else
    let back := bitsN e 49 11 * 2048
    if hbmEnd ≤ back then none else some (back, e.testBit 1)
def State.spEntry (s : State) (c n : Nat) : Option (Nat × Bool) := spEntryOf (s.spWord c n)

/-- The entry of a page, or of a key. -/
def State.spWordOf (s : State) (key : Nat) : Nat := s.spWord (key / 16384) (key % 16384)

/-- The line that holds the entry of a page. -/
def State.spLine (s : State) (key : Nat) : Nat := (s.cword (key / 16384) 0x10 + 8 * (key % 16384)) / 64

/-- A page is judged afresh under its entry, which leaves the page caches: UNMAPPED, or ABSENT with WRITTEN = NOT ZF; requests for
it stand under the new entry (13 R377, Table 13-7). -/
def State.pageAfresh (s : State) (key : Nat) : State :=
  let reqs := match s.pages.find? fun e => e.1 == key with
    | some e => e.2.reqs
    | none => []
  { s with
    pages := match spEntryOf (s.spWordOf key), reqs with
      | some (_, zf), _ :: _ => putK s.pages key { written := !zf, reqs, entry := s.spWordOf key }
      | _, _ => delK s.pages key
    spCache := s.spCache.filter fun e => pageKey e.2.1 e.2.2 != key }

/-- Pages whose entries in a line a write has changed, while they stood in no cluster, are judged afresh; `s` is the state before. -/
def State.afreshLine (s : State) (line : Nat) (s' : State) : State :=
  (((s.pages.map Prod.fst ++ s.spCache.map fun e => pageKey e.2.1 e.2.2).dedup).filter fun k =>
    s.spLine k == line && s.spWordOf k != s'.spWordOf k).foldl State.pageAfresh s'

/-! ### What a line's translations still reach (13 R371) -/

/-- Whether a translation of va reads an entry of a line. -/
def State.passes (s : State) (c va line : Nat) : Bool := (s.walkLines c va).contains line

/-- An issuer whose handles are live in its core: one neither parked nor saved (13 R373). -/
def Thr.live (t : Thr) : Bool := t.mode == .running || t.mode == .finishing

/-- Whether a request went through a handle. -/
def Req.handled (r : Req) : Bool :=
  match r.kind with
  | .drain _ => false
  | .icinv .. => false
  | .pclr _ => false
  | _ => decide (r.key < engKey 0) && r.key != hostKey && r.key != partKey

/-- What still reaches the pages a line's entries give (13 R371 steps 1–4), besides a request that writes the line and the command
of key `own`. -/
def State.lineReached (s : State) (line req own : Nat) : Bool :=
  (s.xcache.any fun e => e.2.2.2 == line) ||
  (s.thr.any fun e => e.2.live && e.2.hs.any fun h => h.2.st == .valid && s.passes (s.ctxOf e.1) h.2.va line) ||
  (s.reqs.any fun q => q.id != req && q.handled && s.passes q.ctx q.vpage line) ||
  (s.cmds.any fun m => m.st != .done && m.st != .errWait && engKey m.id != own &&
    m.caps.any fun k => k.size != 0 && s.passes m.ctx k.line line)

/-- Whether a page whose entry stands in a line is in a cluster, on its way, or has bounce-buffer lines unmerged (13 R377, R383). -/
def State.entriesHeld (s : State) (line : Nat) : Bool :=
  s.pages.any fun e => s.spLine e.1 == line && (e.2.res != .absent || s.bounce.any fun b => pageKey b.ctx (b.addr / 2048) == e.1)

/-- Whether a write of the part's, for the agent of key `own`, may perform at once: it changes no byte, or no translation and no
resident page rests on its line (13 R371, R377). -/
def State.still (s : State) (own pa : Nat) (bs : List Byte) : Bool :=
  rdBytes s.mem pa bs.length == bs || (!s.lineReached (pa / 64) 0 own && !s.entriesHeld (pa / 64))

/-! ### The part's own accesses to a context's structures (10 R291): at the home, as a coherent agent -/

/-- The watch counter of a line at a reuse unit: its home slice, and one of 1,024 by a hash that is not given (11 R334). -/
def watchKey (unit line : Nat) : Nat := (unit * 2048 + homeSlice (line * 64)) * 1024 + Config.watchHash line % 1024

/-- A write to a line whose counter is nonzero at a unit cancels that unit's armed watches that hold a line with the counter
(11 R334).  `own` names the task whose own writes do not count, as (context, count). -/
def State.watchHit (s : State) (line : Nat) (own : Option (Nat × Nat)) : State :=
  { s with tasks := if s.watchCnt.isEmpty then s.tasks else s.tasks.map fun t =>
      if t.watching && own != some (t.ctx, t.count) && getD 0 s.watchCnt (watchKey t.unit line) != 0 &&
          t.armed.any (fun l => watchKey t.unit l == watchKey t.unit line)
      then { t with cancelled := true } else t }

/-- An access that reaches the home of an HBM line allocates it in the slice (10 R288), 4,096 lines of 64 bytes; which line
makes room is not given, and the one that does goes back to HBM4 when dirty.  Host lines have no L2 home (10 R292).  One copy
of the data stands for every level (notes/assumptions/15): here only presence and dirtiness are kept. -/
def State.l2Next (s : State) (line : Nat) (dirty : Bool) : Map Bool × Nat :=
  if hbmEnd ≤ line * 64 then (s.l2, s.fresh)
  else match s.l2.find? fun e => e.1 == line with
    | some e => (putK s.l2 line (e.2 || dirty), s.fresh)
    | none =>
      let same := s.l2.filter fun e => homeSlice (e.1 * 64) == homeSlice (line * 64)
      if same.length < 4096 then (putK s.l2 line dirty, s.fresh)
      else (putK (delK s.l2 (same.getD (Config.victim s.fresh % same.length) (line, false)).1) line dirty, s.fresh + 1)
def State.l2Touch (s : State) (line : Nat) (dirty : Bool) : State :=
  let r := s.l2Next line dirty
  { s with l2 := r.1, fresh := r.2 }

/-- A write at the home, or a recall, ends every L1 copy, the host's copy and the directory entry (10 R289–R292); an owner
writes a dirty line back first. -/
def State.invalidate (s : State) (line : Nat) : State :=
  let r := if s.l1.any (fun e => e.2.1 == line && (e.2.2 == .m || e.2.2 == .o)) then s.l2Next line true else (s.l2, s.fresh)
  { s with l1 := s.l1.filter (fun e => e.2.1 != line), hostLines := s.hostLines.filter (fun e => e.1 != line), dir := delK s.dir line
           l2 := r.1, fresh := r.2 }

/-- The directory entry of a line (10 R289). -/
def State.dirOf (s : State) (line : Nat) : DirEnt := getD {} s.dir line

/-- Makes room in the set of a line that has no entry: of 12 ways, the one chosen is recalled (10 R289). -/
def State.dirRoom (s : State) (line : Nat) : State :=
  let set_ (l : Nat) : Nat := homeSlice (l * 64) * 128 + Config.dirSet l % 128
  if (s.dir.any fun e => e.1 == line) || decide (s.dir.length < 12) then s
  else
    let same := s.dir.filter fun e => set_ e.1 == set_ line
    if same.length < 12 then s
    else { s with fresh := s.fresh + 1 }.invalidate (same.getD (Config.victim s.fresh % same.length) (line, {})).1

/-- Changes the directory entry of a line (10 R289). -/
def State.modDir (s : State) (line : Nat) (f : DirEnt → DirEnt) : State :=
  let s1 := s.dirRoom line
  { s1 with dir := putD {} s1.dir line (f (s1.dirOf line)) }

/-- The sharer bit of a core's cluster (10 R289).  A command sequencer's caches stand in no cluster. -/
def sharerBit (core : Nat) : BitVec 96 := if core < 384 then BitVec.ofNat 96 (2 ^ (core / 4)) else 0

/-- The owner of a line that the host holds dirty or alone. -/
def hostOwner : Nat := 384

/-- The home records a reading core as a sharer (10 R289, 13 R370, R377). -/
def State.dirShare (s : State) (line core : Nat) : State :=
  s.modDir line fun e => { e with sharers := e.sharers ||| sharerBit core
                                  st := if e.st = .uncached then .shared else e.st }

/-- A saturating counter of w bits. -/
def satAdd (w x n : Nat) : Nat := min (x + n) (2 ^ w - 1)

/-! ### Flits (17 R435) -/

def State.link (s : State) (p : Nat) : Link := getD {} s.links p
def State.modLink (s : State) (p : Nat) (f : Link → Link) : State := { s with links := putK s.links p (f (s.link p)) }

/-- The flits that leave with room for some, each with the package's own packet that ends in it, and what still waits. -/
def takeFlits (room : Nat) (l : List Sending) : List (Option Nat) × List Sending :=
  match l with
  | [] => ([], [])
  | q :: r =>
    if q.left ≤ room then
      let t := takeFlits (room - q.left) r
      (List.replicate (q.left - 1) none ++ (q.wait.bind Waiting.own) :: t.1, t.2)
    else (List.replicate room none, { q with left := q.left - room, begun := q.begun || decide (0 < room) } :: r)

/-- Flits that wait leave while the replay buffer of 256 has room: each is numbered, counted and kept until it is acknowledged
(17 R435). -/
def Link.pump (l : Link) : Link :=
  let t := takeFlits (256 - l.replay.length) l.queue
  { l with
    queue := t.2
    replay := l.replay ++ t.1.zipIdx.map fun e => ((l.txNext + e.2) % 4096, e.1, 0)
    txNext := (l.txNext + t.1.length) % 4096
    flitTx := satAdd 64 l.flitTx t.1.length }

/-- A packet, or what else a link carries, leaves by a port in flits of its own, the last of which ends it (17 R435). -/
def State.transmit (s : State) (p : Nat) (w : Option Waiting) : State :=
  let n := Config.flits s.fresh % 256 + 1
  { s with fresh := s.fresh + 1 }.modLink p fun l => { l with queue := l.queue ++ [({ wait := w, left := n } : Sending)] }.pump

/-- Linor Link's port. -/
def linorPort : Nat := 24

/-- An access of the part's to the host window crosses Linor Link in flits, while the link is UP (17 R435). -/
def State.hostFlit (s : State) (line : Nat) : State :=
  if physClass (line * 64) = .host ∧ (s.link linorPort).st = 3 then s.transmit linorPort none else s

/-- A read at the home by another than core `k`: an owner's E copy becomes S, an M copy O, and the directory follows (10 Table
10-3, R289, R291, R292). -/
def State.shareLine (s : State) (line k : Nat) : State :=
  let sh (st : Moesi) : Moesi := match st with
    | .e => .s
    | .m => .o
    | x => x
  let l1 := s.l1.map (fun e => if e.2.1 == line && e.1 != k then (e.1, line, sh e.2.2) else e)
  let hl := s.hostLines.map fun e => if e.1 == line then (line, sh e.2) else e
  { s.l2Touch line false with
    l1
    hostLines := hl
    dir := s.dir.map fun e =>
      if e.1 == line && e.2.st == .exclusive && e.2.owner != k then
        (line, { e.2 with st := if (l1.any fun c => c.2.1 == line && c.2.2 == .o) || hl.any (fun c => c.1 == line && c.2 == .o) then .owned else .shared
                          sharers := e.2.sharers ||| sharerBit e.2.owner })
      else e }

/-- The part's read at the home by another than core `k`; a line of the host window crosses Linor Link. -/
def State.othersRead (s : State) (line k : Nat) : State := (s.shareLine line k).hostFlit line

/-- The state of a line in a core's L1. -/
def State.l1State (s : State) (core line : Nat) : Moesi :=
  match s.l1.find? fun e => e.1 == core && e.2.1 == line with
  | some e => e.2.2
  | none => .i

/-- Sets it; a line in state I is not listed. -/
def State.putL1 (s : State) (core line : Nat) (st : Moesi) : State :=
  let rest := s.l1.filter fun e => !(e.1 == core && e.2.1 == line)
  { s with l1 := if st = .i then rest else rest ++ [(core, line, st)] }

/-- A line leaves a core's L1 (Table 10-3): from S silently; from E the home is told; from M and O it is written back. -/
def State.evictL1 (s : State) (core line : Nat) : State :=
  let freed (s : State) : State :=
    let left := (s.l1.any fun e => e.2.1 == line) || s.hostLines.any fun e => e.1 == line
    { s with dir := s.dir.map fun e =>
        if e.1 == line && e.2.owner == core && e.2.st != .shared then (line, { e.2 with st := if left then .shared else .uncached }) else e }
  match s.l1State core line with
  | .i => s
  | .s => s.putL1 core line .i
  | .e => freed (s.putL1 core line .i)
  | _ => freed ((s.putL1 core line .i).l2Touch line true)

/-- Wakes the command streams that watch a line (04 R125). -/
def State.wake (s : State) (line : Nat) : State :=
  { s with thr := s.thr.map fun e => match e.2.waitm with
    | some (l, _) => if l = line then (e.1, { e.2 with waitm := some (l, true) }) else e
    | none => e }

/-- Bytes within one line change at the home, and every copy goes. -/
def State.lineWrite (s : State) (pa : Nat) (bs : List Byte) (own : Option (Nat × Nat) := none) : State :=
  (((({ s with mem := wrBytes s.mem pa bs }).invalidate (pa / 64)).l2Touch (pa / 64) true).wake (pa / 64)).watchHit (pa / 64) own

/-- Writes bytes within one line at the home; the tag is the caller's affair.  A line of the host window crosses Linor Link. -/
def State.homeWrite (s : State) (pa : Nat) (bs : List Byte) (own : Option (Nat × Nat) := none) : State :=
  (s.lineWrite pa bs own).hostFlit (pa / 64)

/-- The part's own write and its tag: where none is given a write of the whole line clears its poison (10 R296), and VER stays
(notes/assumptions/131). -/
def State.partDone (s : State) (pa : Nat) (bs : List Byte) (tag : Option (BitVec 4)) : State :=
  match tag with
  | some t => (s.homeWrite pa bs).setTag pa t
  | none =>
    if bs.length = 64 ∧ tagPsn (s.tag pa) then (s.homeWrite pa bs).setTag pa (mkTag false (tagVer (s.tag pa))) else s.homeWrite pa bs

/-- A write of the part's that waits for a shootdown or a page-out (13 R371, R377). -/
def State.partLater (s : State) (pa : Nat) (bs : List Byte) (tag : Option (BitVec 4)) : State :=
  { s with
    reqs := s.reqs ++ [{ id := s.nextId, key := partKey, acc := s.nextId, ctx := 64, tracked := false
                         kind := .store pa bs (tag.map tagVer) ((tag.map tagPsn).getD false) none }]
    nextId := s.nextId + 1 }

/-- Whether an earlier write of the part's to a line waits. -/
def State.partWaits (s : State) (line : Nat) : Bool :=
  s.reqs.any fun r => r.key == partKey && match r.kind with
    | .store pa .. => pa / 64 == line
    | _ => false

/-- The part's own write of a line or a piece of one: at once, or once nothing rests on what it changes (13 R371, R377). -/
def State.partWrite (s : State) (pa : Nat) (bs : List Byte) (tag : Option (BitVec 4) := none) : State :=
  if s.still 0 pa bs && !s.partWaits (pa / 64) then s.afreshLine (pa / 64) (s.partDone pa bs tag) else s.partLater pa bs tag

/-- The part's write of n bytes of a number at a virtual address; nothing where the page is not mapped, or the address violates
(10 R286). -/
def State.vputN (s : State) (c va n v : Nat) : State :=
  match s.vpa c va with
  | none => s
  | some pa => if s.violates false pa then s else s.partWrite pa (bytesOf n v)

/-- The part's read at a virtual address; zero where the page is not mapped. -/
def State.vrdN (s : State) (c va n : Nat) : Nat :=
  match s.vpa c va with
  | none => 0
  | some pa => if s.violates false pa then s.violatedN pa n else rdN s.mem pa n

/-- The part's write of a run of bytes that may cross pages: line by line. -/
def State.vputRun (s : State) (c va : Nat) (bs : List Byte) : State :=
  forN ((va % 64 + bs.length + 63) / 64) s fun i s =>
    let lo := if i = 0 then va else va - va % 64 + 64 * i
    let skip := lo - va
    match s.vpa c lo with
    | none => s
    | some pa => if s.violates false pa then s else s.partWrite pa ((bs.drop skip).take (64 - lo % 64))

/-- The bytes at a virtual address, page by page; a byte not mapped reads zero. -/
def State.vrdRun (s : State) (c va n : Nat) : List Byte :=
  (List.range ((va % 64 + n + 63) / 64)).flatMap fun i =>
    let lo := if i = 0 then va else va - va % 64 + 64 * i
    let len := min (64 - lo % 64) (va + n - lo)
    match s.vpa c lo with
    | none => List.replicate len 0
    | some pa => if s.violates false pa then s.violatedBytes pa len else rdBytes s.mem pa len

/-! ### Error logs (12 R348, R362) -/

/-- The 32 bytes of an error log entry (12 Table 12-13). -/
def logEntry (seq kind addr gcyc agent : Nat) : List Byte :=
  bytesOf 8 (seq % 2 ^ 32 * 2 ^ 32 + kind) ++ bytesOf 8 addr ++ bytesOf 8 gcyc ++ bytesOf 8 agent

/-- The agent field: number, type (12 Table 12-8 SRC), ASP. -/
def agentField (n type : Nat) (asp : Bool) : Nat := n % 4096 + type % 8 * 4096 + b2n asp * 32768

/-- Writes an entry to the firmware error log (12 R348). -/
def State.logFw (s : State) (kind addr agent : Nat) : State :=
  let cnt := s.sys.fwlcnt.toNat
  let base := fld s.sys.fwlbase 49 12 * 4096
  if cnt = 0 ∨ s.violates true base then s
  else
    let tail := s.rd64 base
    let head := s.rd64 (base + 8)
    if tail < head + cnt then
      (s.partWrite (base + 0x40 + 32 * (tail % cnt)) (logEntry (tail + 1) kind addr s.gcyc agent)).partWrite base (bytesOf 8 (tail + 1))
    else s.partWrite (base + 16) (bytesOf 8 (s.rd64 (base + 16) + 1))

/-- Writes an entry to a context's error log, or to the firmware log for an error of no context (12 R362). -/
def State.log (s : State) (c kind addr agent : Nat) : State :=
  if (s.ctx c).st = .free then s.logFw kind addr agent
  else
    let base := s.cword c 0x40
    let cnt := s.cword c 0x48
    let tail := s.vrdN c base 8
    let head := s.vrdN c (base + 8) 8
    if tail < head + cnt then
      (s.vputRun c (base + 0x40 + 32 * (tail % cnt)) (logEntry (tail + 1) kind addr s.gcyc agent)).vputN c base 8 (tail + 1)
    else s.vputN c (base + 16) 8 (s.vrdN c (base + 16) 8 + 1)

/-! ### The part's accesses to a context's structures: logged where they violate (10 R286) -/

/-- An access of the part's to a context's structure that violates is logged. -/
def State.structBad (s : State) (c va : Nat) : State :=
  match s.vpa c va with
  | none => s
  | some pa => if s.violates false pa then s.log c 4 pa (agentField 0 2 false) else s

/-- A write of n bytes of a number. -/
def State.vwrN (s : State) (c va n v : Nat) : State := (s.structBad c va).vputN c va n v

/-- A write of a run of bytes. -/
def State.vwrRun (s : State) (c va : Nat) (bs : List Byte) : State :=
  (forN ((va % 64 + bs.length + 63) / 64) s fun i s => s.structBad c (if i = 0 then va else va - va % 64 + 64 * i)).vputRun c va bs

/-- The same of an object's bytes at their home: what a read gives, and a write. -/
def State.partGet (s : State) (pa n : Nat) : Nat := if s.violates false pa then s.violatedN pa n else rdN s.mem pa n
def State.partPut (s : State) (c pa : Nat) (bs : List Byte) : State :=
  if s.violates false pa then s.log c 4 pa (agentField 0 2 false) else s.partWrite pa bs

/-- The part reads n bytes at a virtual address as a coherent agent (10 R290, R291). -/
def State.vshare (s : State) (c va n : Nat) (core : Nat := 500) : State :=
  forN ((va % 64 + n + 63) / 64) s fun i s =>
    let a := va / 64 * 64 + 64 * i
    match s.vpa c a with
    | none => s
    | some pa => if s.violates false pa then s.log c 4 pa (agentField 0 2 false) else s.othersRead (pa / 64) core

/-! ### Tables that software may not write -/

/-- Whether a physical address lies in the physical pages of a table at n bytes from a virtual address. -/
def State.inTable (s : State) (c va n pa : Nat) : Bool :=
  (List.range ((va % 4096 + n + 4095) / 4096)).any fun i =>
    let page := va / 4096 * 4096 + 4096 * i
    let lo := max va page
    let hi := min (va + n) (page + 4096)
    match s.vpa c lo with
    | none => false
    | some p => decide (p ≤ pa) && decide (pa < p + (hi - lo))

/-- A context's table of `size`-byte entries, by the descriptor words of its base and count. -/
def State.inCtxTable (s : State) (c base cnt size pa : Nat) : Bool :=
  s.inTable c (s.cword c base) (s.cword c cnt * size) pa

/-- Why a store or atomic by software to an address is not done, as the kind of its log entry: 4, an access violation,
for a semaphore table (11 R323), the other tables the part keeps for a context from CREATE to DESTROY (15 R399,
16 R409, 18 R448) and the physical lines barriers are bound to (15 R400); 5 for a record table (09 R256). -/
def State.protectedKind (s : State) (pa : Nat) : Option Nat :=
  if s.barLine.any fun e => e.2 == pa / 64 then some 4
  else firstSome s.ctxs fun e =>
    if e.2.st = .free then none
    else if e.2.semPages.contains (pa / 4096) then some 4
    else if s.inCtxTable e.1 0x20 0x28 512 pa then some 5
    else if s.inCtxTable e.1 0x78 0x80 64 pa || s.inCtxTable e.1 0x88 0x90 64 pa || s.inCtxTable e.1 0x98 0xA0 128 pa then some 4
    else none

/-- A write of the part's, but of its own tables: a byte of a record table takes none, and is logged (09 R256). -/
def State.agentWrite (s : State) (c pa : Nat) (bs : List Byte) (tag : Option (BitVec 4) := none) : State :=
  match s.protectedKind pa with
  | some kd => s.log c kd pa (agentField 0 2 false)
  | none => if s.violates false pa then s.log c 4 pa (agentField 0 2 false) else s.partWrite pa bs tag

/-- The agent field of an issuer (12 Table 12-13). -/
def State.agentOf (s : State) (k : Nat) : Nat :=
  if isCs k then agentField (s.csid (k - csBase)) 1 false else agentField (partOf k) 0 false

/-! ### Fault records (12 R342–R344) -/

/-- The source of the records of a die's governor, of its channel monitor, and of a group; an issuer's is its key and a command's its
engine key. -/
def governorSrc (die : Nat) : Nat := 5000 + die
def monitorSrc (die : Nat) : Nat := 6000 + die
def groupSrc (c n : Nat) : Nat := 65536 + c * 4096 + n

/-- Forms a record; it waits in `recs` until FAULT_RECORD_WRITE. -/
def State.post (s : State) (r : Rec) : State :=
  let fw := r.fw || (s.ctx r.ctx).st == .free
  { s with recs := s.recs ++ [{ r with id := s.nextId, fw := fw, rerouted := (s.ctx r.ctx).st == .free, gcyc := s.gcyc }], nextId := s.nextId + 1 }

/-- Ends an accepted command with a command error (08 R253): its ENGINE record is formed, and its ticket fires when the
record is written (12 R344). -/
def State.cmdError (s : State) (c : Cmd) (code : Nat) : State :=
  let cs := isCs c.key
  let det0 := c.major + 64 * c.pos + 512 * b2n cs + 65536 * c.runner
  ((s.modCmd c.id fun c => { c with st := .errWait, kind := code, viol := false }).post
    { id := 0, src := engKey c.id, ctx := c.ctx, kind := 4, srcCode := 2,
      idField := if cs then s.csid (c.key - csBase) else partOf c.key, baddr := c.baddr, det0 := det0, det1 := code,
      cmd := some c.id })

/-- Fires a command's ticket: it is pruned, and so visible as fired, at the end of the cycle, once no write of its own waits.  A command that met an access
violation ends in a command error instead, of a code the spec does not give (10 R286, 08 R253). -/
def State.fire (s : State) (id : Nat) : State :=
  match s.cmds.find? fun c => c.id == id && c.viol with
  | some c => s.cmdError c (1 + Config.violationCode c.major % 255)
  | none => s.modCmd id fun c => { c with st := if s.reqs.any fun r => r.key == engKey id then .ending else .done }

/-! ### Performance events (19 R484) -/

/-- Counts n events of a kind of 19 Table 19-10 on a core; they reach the counters at the end of the cycle (R485). -/
def State.pmcEvent (s : State) (core part ev n : Nat) : State :=
  if s.pmsel.isEmpty then s
  else forN 16 s fun i s =>
    let sel := getD 0 s.pmsel (core * 16 + i)
    let engine := ev == 10 || ev == 11 || ev == 13
    if ev != 0 && fld sel 7 0 == ev && (engine || sel.getLsbD (8 + part % 8)) then
      { s with pmcPend := putK s.pmcPend (core * 16 + i) (getD 0 s.pmcPend (core * 16 + i) + n) }
    else s

/-! ### Taking an exception: a partition parks, a command stream halts (12 R347, R349) -/

/-- The bits of a Boolean map, as a number. -/
def boolBits (n : Nat) (f : Nat → Bool) : Nat := (List.range n).foldl (fun acc i => acc + b2n (f i) * 2 ^ i) 0

/-- A loop-stack entry as the control block lays it out (12 Table 12-21). -/
def loopImage (e : LoopEnt) : List Byte :=
  bytesOf 8 (b2n e.rot * 2 ^ 63 + e.w % 32 * 2 ^ 55 + e.stg % 8 * 2 ^ 52 + e.start % 2 ^ 52) ++
  bytesOf 8 (e.stop % 2 ^ 52) ++ bytesOf 8 e.n ++ bytesOf 8 e.index

/-- The pending transfer word (12 Table 12-21). -/
def pendImage (t : Thr) : Nat :=
  match t.pend with
  | none => 0
  | some (due, tgt) => (due - t.scyc) % 4 * 2 ^ 62 + tgt % 2 ^ 52

/-- A handle as a save image holds it (12 Table 12-12). -/
def handleImage (h : Handle) : Nat :=
  h.va / 4096 * 4096 % 2 ^ 52 +
    (match h.st with
     | .invalid => 0
     | .pending => 1
     | .valid => 1
     | .failed => 2
     | .revoked => 3)

/-- An address-update rule (12 Table 12-21). -/
def ruleImage (r : Option Rule) : List Byte :=
  match r with
  | none => bytesOf 16 0
  | some r => bytesOf 8 (2 ^ 15 + r.count * 256 + r.first) ++ bytesOf 8 r.stride.toNat

/-- A copy channel (12 Table 12-21). -/
def chanImage (c : CopyChan) : List Byte :=
  bytesOf 8 (c.doneId % 2 ^ 32 * 2 ^ 32 + c.nextId % 2 ^ 32) ++
  bytesOf 8 (c.errCnt % 256 * 2 ^ 40 + c.errKind % 256 * 2 ^ 32 + c.errId % 2 ^ 32)

/-- The ticket word: fired tickets (12 Table 12-12). -/
def State.ticketsOf (s : State) (t : Thr) : Nat :=
  boolBits 32 fun i => match getD none t.ks i with
    | none => true
    | some id => s.ended id
def State.ticketWord (s : State) (k : Nat) : Nat := s.ticketsOf (s.th k)

/-- The parts of the control block that a partition's and a command stream's images share, offsets 0x020–0x327. -/
def commonImage (t : Thr) (rotn : Nat) (ms : List Byte) : List Byte :=
  bytesOf 8 (pendImage t) ++ bytesOf 8 rotn ++
  ((List.range 6).flatMap fun i => match t.loops[i]? with
    | some e => loopImage e
    | none => bytesOf 32 0) ++
  ((List.range 7).flatMap fun i => ruleImage ((t.rules.find? fun e => e.1 == i + 1).map fun e => e.2)) ++
  ((List.range 8).flatMap fun i => chanImage (t.chan i)) ++
  ((List.range 32).flatMap fun i => bytesOf 8 (handleImage (t.h i))) ++
  bytesOf 8 t.pr.toNat ++ ms

/-- The matrix unit's words (12 Table 12-21). -/
def matImage (t : Thr) : List Byte :=
  match t.mats.getLast? with
  | none => bytesOf 64 0
  | some m =>
    let g := match fld m.a1 7 4 with
      | 1 => 2
      | 2 => 2
      | 5 => 8
      | _ => 4
    let delta := 128 / g
    bytesOf 8 m.a0.toNat ++ bytesOf 8 m.a1.toNat ++ bytesOf 8 m.b0.toNat ++ bytesOf 8 m.b1.toNat ++
    bytesOf 8 ((((List.range 32).find? fun n => getD none t.ks n == some m.cmd).getD 0) * 2 ^ 40 +
      (m.issued + 144 - t.scyc) * 2 ^ 32 + (m.issued + 128 - t.scyc) * 2 ^ 24 +
      (m.issued + m.next * delta - t.scyc) % 256 * 2 ^ 16 + g * 2 ^ 12 + m.next * 2 ^ 8 +
      b2n (!m.abandoned) * 16 + m.op * 4 + m.bank) ++ bytesOf 24 0

/-- The control block and S0–S63 of a partition's save slot, 0x000–0x5FF (12 R349, Table 12-12). -/
def State.parkImage (s : State) (p : Nat) (parked : Bool) : List Byte :=
  let t := s.th p
  let k := t.task.getD { count := 0, kernel := 0, pure := false, cycles := 0, phase := 0, slot := p }
  bytesOf 8 t.pc ++ bytesOf 8 t.scyc ++
  bytesOf 8 (k.count % 2 ^ 32 * 2 ^ 32 + s.csid (s.ctxOf p) % 16 * 256 + b2n parked) ++ bytesOf 8 k.kernel ++
  commonImage t t.rotn ((List.range 8).flatMap fun i => bytesOf 8 (t.m i).toNat) ++
  bytesOf 8 (s.ticketWord p) ++ bytesOf 8 t.srstate.toNat ++
  bytesOf 8 t.barb.toNat ++ bytesOf 8 t.bard.toNat ++ bytesOf 8 t.aland.toNat ++
  bytesOf 8 (boolBits 64 t.sBad) ++ bytesOf 8 (boolBits 60 t.vBadP + boolBits 4 t.bBad * 2 ^ 60) ++
  ((List.range 4).flatMap fun i => bytesOf 8 (getD 0 t.prog i).toNat) ++ matImage t ++
  bytesOf 8 ((t.flight.filter fun f => !f.entry).length % 128 + (t.flight.filter fun f => f.entry).length % 512 * 65536) ++
  bytesOf 56 0 ++ ((List.range 64).flatMap fun i => bytesOf 8 (t.s i).toNat)

/-- The address of a partition's save slot (12 R356). -/
def State.slotAddr (s : State) (c p : Nat) : Nat := s.cword c 0x50 + 0x2B000 * p

/-- The loop indices and depth a record carries (12 Table 12-7). -/
def loopIdxs (t : Thr) : List Nat := t.loops.map fun e => e.index

/-- A step completes: cause 3, or 1 where a STOP came while it was pending (19 Tables 19-2, 19-3). -/
def DebugSt.stepped (d : DebugSt) : DebugSt := { stopped := true, cause := if d.cause = 1 then 1 else 3, brkid := 0, step := false }

/-- TAKING AN EXCEPTION IN A PARTITION (12 R349): it stops, which counts as a park (19 R484), its park image is written to the
task's save slot, and a record is formed.  `reissue`: the bundle at PC did not commit. -/
def State.takePark (s : State) (p kind baddr slots det0 det1 : Nat) (reissue fetch matFormat : Bool) : State :=
  let t := s.th p
  let c := s.ctxOf p
  let s1 := (s.pmcEvent (coreOf p) p 12 1).modTh p fun t => { t with
    mode := .parked, dbg := if t.dbg.step then t.dbg.stepped else t.dbg, park := { kind, reissue, fetch, matFormat }
    held := none, holdFrom := none, needs := [], chanHeld := none, matStop := none
    task := t.task.map fun k => { k with slot := p, bad := if kind = 2 then k.bad else true } }
  let s2 : State := { s1 with tasks := s1.tasks.map fun x => match t.task with
      | some j => if x.ctx == c && x.count == j.count && kind != 2 then { x with bad := true } else x
      | none => x }
  let s3 := s2.vwrRun c (s2.slotAddr c p) (s2.parkImage p true)
  s3.post { id := 0, src := p, ctx := c, kind, srcCode := 0, idField := p, baddr, slots, scyc := t.scyc,
            det0, det1, loops := loopIdxs t, parks := some p }

/-- The command stream's save block, 0x000–0xFFF (12 R361, R519). -/
def State.csImage (s : State) (c : Nat) (held : List W32) : List Byte :=
  let k := csKey c
  let t := s.th k
  bytesOf 8 t.pc ++ bytesOf 8 0 ++
  bytesOf 8 ((s.ctx c).subcnt % 2 ^ 32 * 2 ^ 32 + s.csid c % 16 * 256 + b2n (!held.isEmpty) * 2) ++
  bytesOf 8 (s.cword c 0x18) ++ commonImage t 0 (bytesOf 64 0) ++
  bytesOf 8 (s.ticketWord k) ++ bytesOf 32 0 ++ bytesOf 8 (boolBits 64 t.sBad) ++ bytesOf 168 0 ++
  ((List.range 64).flatMap fun i => bytesOf 8 (t.s i).toNat) ++
  ((List.range 10).flatMap fun i => bytesOf 4 (match held[i]? with
    | some w => w.toNat
    | none => 0)) ++ bytesOf 0x9D8 0

/-- Saves the command stream to CSSAVE and frees its command-stream context (12 R347, R355, R361). -/
def State.saveCs (s : State) (c : Nat) (held : List W32) : State :=
  ((s.vwrRun c (s.cword c 0x58) (s.csImage c held)).modTh (csKey c) fun t =>
    { t with mode := .idle, held := none, waitm := none }).modCtx c fun x => { x with slot := none, lastSlot := x.slot.getD x.lastSlot }

/-- TAKING AN EXCEPTION IN A COMMAND STREAM (12 R347): it is saved, its context halts, and the record goes to the
firmware queue.  Its bundle faulted, so none stands held (03 R86). -/
def State.takeHalt (s : State) (c kind baddr slots det0 det1 : Nat) : State :=
  let t := s.th (csKey c)
  let s1 := s.post { id := 0, src := csKey c, ctx := c, fw := true, kind, srcCode := 1, idField := s.csid c,
                     baddr, slots, scyc := t.scyc, det0, det1, loops := loopIdxs t }
  (s1.saveCs c []).modCtx c fun x => { x with st := .halted }

/-- TAKING AN EXCEPTION, for either issuer. -/
def State.take (s : State) (k kind baddr slots det0 det1 : Nat) (reissue fetch : Bool) : State :=
  if isCs k then s.takeHalt (k - csBase) kind baddr slots det0 det1
  else s.takePark k kind baddr slots det0 det1 reissue fetch false

end Sys2Proof.Machine
end

