-- ==== Sys2Proof/Machine/Operands.lean ====
section
/-! DEFINITION. Operand forms: the header word, slot fields, vector sources, scratchpad addresses, handle pointers,
access types and operand words. -/

namespace Sys2Proof.Machine

open Sys2Proof

/-- A bundle header (03 Tables 3-1, 3-2). -/
structure Header where
  word : W32
  deriving DecidableEq, Repr

def Header.mask (h : Header) : Nat := h.word.toNat % 256
def Header.be (h : Header) : Bool := h.word.getLsbD 8
def Header.bs (h : Header) : Nat := bitsN h.word.toNat 14 9
def Header.au (h : Header) : Nat := bitsN h.word.toNat 17 15
def Header.vj (h : Header) : Bool := h.word.getLsbD 18
def Header.mk_ (h : Header) : Bool := h.word.getLsbD 19
def Header.rt (h : Header) : Bool := h.word.getLsbD 20
def Header.rsv (h : Header) : Nat := bitsN h.word.toNat 31 21

/-- The words of a bundle: 1 + popcount(MASK) + MK (03 R67). -/
def Header.words (h : Header) : Nat := 1 + popN 8 h.mask + b2n h.mk_

/-- The plain header with one slot, at a position. -/
def Header.one (pos : Nat) : Header := ⟨BitVec.ofNat 32 (2 ^ pos)⟩

/-- The sign-extended immediate of RRI (04 R104). -/
def imm10 (i : BitVec 10) : Int := i.toInt

/-- The lane width of code 60 in a VRR source (06 R168). -/
def tyWidth (t : Nat) : Nat := if t = 1 ∨ t = 2 then 16 else 32

/-- The broadcast port at a lane width (03 R73): each lane receives bits [w−1:0] of S(BS). -/
def bcast (w : Nat) (v : W64) : VReg := vOfLanes w (List.replicate (2048 / w) (v.toNat % 2 ^ w))

/-- A vector source (03 R73): 0–59 a register by its logical name, 60 the broadcast port, 61 zero, 62 all ones. -/
def vSource (t : Thr) (h : Header) (w code : Nat) : VReg :=
  if code = 60 then bcast w (t.s h.bs)
  else if code = 61 then 0
  else if code = 62 then BitVec.allOnes 2048
  else t.vPhys (t.vName code)

/-- Whether a vector source is poisoned (06 R170): a poisoned S(BS) poisons code 60. -/
def vSourceBad (t : Thr) (h : Header) (code : Nat) : Bool :=
  if code = 60 then t.sBad h.bs
  else if code < 60 then t.vBadP (t.vName code)
  else false

/-! ### Scratchpad addresses (05 Table 5-1) -/

/-- Whether any MBZ bit of a scratchpad address is set. -/
def spaBad (a : W64) : Bool := a.toNat ≥ 2 ^ 25

/-! ### Handle pointers (05 Table 5-2) -/

def ptrAt (p : W64) : Nat := fld p 63 61
def ptrHx (p : W64) : Nat := fld p 60 56
def ptrMbz (p : W64) : Nat := fld p 55 21
def ptrOfs (p : W64) : Nat := fld p 20 0

/-- Bytes of an access type (05 Table 5-3). -/
def atWidth (at_ : Nat) : Nat := if at_ = 0 ∨ at_ = 3 then 8 else 4

/-- What a scalar load returns (05 Table 5-3): only i32 is sign-extended. -/
def atExtend (at_ x : Nat) : W64 := if at_ = 1 then w64 (sextI x 32) else BitVec.ofNat 64 x

/-! ### Engine operand words (08 R217) -/

/-- The number of S(2·PS + i). -/
def psReg (ps i : Nat) : Nat := 2 * ps + i

/-- The tickets KC … KC+KN−1, modulo 32 (03 R82). -/
def tickets (kc kn : Nat) : List Nat := (List.range kn).map fun i => (kc + i) % 32

/-- The consumed ticket of a CHN instruction: none for KC = 0 (03 R82). -/
def chnTickets (kc : Nat) : List Nat := if kc = 0 then [] else [kc]

/-! ### Matrix operand descriptors (07 R197–R201) -/

/-- An operand descriptor (07 Tables 7-1, 7-2). -/
structure OpDesc where
  w0 : W64
  w1 : W64

def OpDesc.base (d : OpDesc) : Nat := fld d.w0 24 0
def OpDesc.rpitch (d : OpDesc) : Nat := fld d.w0 47 32
def OpDesc.tpitch (d : OpDesc) : Nat := fld d.w1 47 32
def OpDesc.sofs (d : OpDesc) : Nat := fld d.w1 63 48
def OpDesc.hx (d : OpDesc) : Nat := fld d.w1 13 9
def OpDesc.rec_ (d : OpDesc) : Bool := d.w1.getLsbD 8
def OpDesc.fmt (d : OpDesc) : Nat := fld d.w1 7 4

/-- K of an operand format (07 Table 7-3); 0 for a format outside the table. -/
def kOf (f : Nat) : Nat := if f = 1 ∨ f = 2 then 32 else if f = 3 ∨ f = 4 ∨ f = 6 then 64 else if f = 5 then 128 else 0

/-- Bytes of a run of 16 elements. -/
def runBytes (f : Nat) : Nat := if f = 1 ∨ f = 2 then 32 else if f = 3 ∨ f = 4 then 16 else 8

/-- Groups and the interval between their reads (07 R198). -/
def groupsOf (f : Nat) : Nat := kOf f / 16
def deltaOf (f : Nat) : Nat := 2048 / kOf f

/-- The address of run g of row r, and of the scale byte of its block (07 R196, R200). -/
def OpDesc.runAddr (d : OpDesc) (r g : Nat) : Nat := d.base + r * d.rpitch + g * d.tpitch
def OpDesc.scaleAddr (d : OpDesc) (r g : Nat) : Nat := d.base + 64 * d.sofs + 4 * r + g / 2
def OpDesc.isMx (d : OpDesc) : Bool := d.fmt == 5 || d.fmt == 6

/-- The byte runs a group read touches. -/
def OpDesc.groupRuns (d : OpDesc) (g : Nat) : List (Nat × Nat) :=
  (List.range 64).flatMap fun r =>
    (d.runAddr r g, runBytes d.fmt) :: if d.isMx then [(d.scaleAddr r g, 1)] else []

/-- Every run of the operand (07 R201, R381). -/
def OpDesc.allRuns (d : OpDesc) : List (Nat × Nat) :=
  ((List.range (groupsOf d.fmt)).flatMap fun g => (List.range 64).map fun r => (d.runAddr r g, runBytes d.fmt)) ++
  if d.isMx then [(d.base + 64 * d.sofs, 256)] else []

end Sys2Proof.Machine
end

