-- ==== Sys2Proof/Machine/Scratch.lean ====
section
/-! DEFINITION. The virtual scratchpad: its page table, residency, the two views of a line (10 R297–R300, 13
R376–R384). -/

namespace Sys2Proof.Machine

open Sys2Proof

/-- The residency record of a page; a page never touched is absent, WRITTEN = NOT ZF (13 Table 13-7). -/
def State.spPage (s : State) (c n : Nat) : SpPage :=
  match s.pages.find? fun e => e.1 == pageKey c n with
  | some e => e.2
  | none => { entry := s.spWord c n
              written := match s.spEntry c n with
                | some (_, zf) => !zf
                | none => false }

def State.setPage (s : State) (c n : Nat) (p : SpPage) : State := { s with pages := putK s.pages (pageKey c n) p }

/-- Unmerged bounce-buffer lines of a page (13 R383). -/
def State.bounced (s : State) (c n : Nat) : Bool := s.bounce.any fun b => b.ctx == c && b.addr / 2048 == n

/-- The frame byte address of a scratchpad address that a cluster can reach now (13 R378, R383). -/
def State.spFrame (s : State) (c cl a : Nat) : Option Nat :=
  if s.bounced c (a / 2048) then none
  else match (s.spPage c (a / 2048)).res with
    | .res d f => if d = cl then some ((cl * 768 + f) * 2048 + a % 2048) else none
    | _ => none

def State.ftag (s : State) (fa : Nat) : BitVec 4 := getD 0 s.ftags (fa / 64)
def State.setFtag (s : State) (fa : Nat) (t : BitVec 4) : State := { s with ftags := putD 0 s.ftags (fa / 64) t }

/-- The byte at offset i of a frame line as a view sees it: a byte written through the other view and not joined is old
or new, line by line as the free value decides (10 R300). -/
def State.viewByte (s : State) (lin : Bool) (fa : Nat) : Byte :=
  let cur := rdByte s.frames fa
  match s.unjoined.find? (fun u => u.line == fa / 64 && u.lin != lin && u.mask.testBit (fa % 64) &&
      Config.freeBit (s.fresh * 2 ^ 22 + fa / 64)) with
  | some u => u.old.getD (fa % 64) cur
  | none => cur

/-- n bytes of frame storage through a view. -/
def State.viewBytes (s : State) (lin : Bool) (fa n : Nat) : List Byte :=
  (List.range n).map fun i => s.viewByte lin (fa + i)

/-- The tag of a frame line as a view sees it: it belongs to the data read (07 R205). -/
def State.viewTag (s : State) (lin : Bool) (fa : Nat) : BitVec 4 :=
  match s.unjoined.find? (fun u => u.line == fa / 64 && u.lin != lin && Config.freeBit (s.fresh * 2 ^ 22 + fa / 64)) with
  | some u => BitVec.ofNat 4 u.oldTag
  | none => s.ftag fa

/-- Marks a line of a page dirty and the page used (13 Table 13-7, R380). -/
def State.touchPage (s : State) (c a : Nat) (wr : Bool) : State :=
  let p := s.spPage c (a / 2048)
  s.setPage c (a / 2048) { p with used := s.gcyc
                                  dirty := if wr then p.dirty ||| BitVec.ofNat 32 (2 ^ (a % 2048 / 64)) else p.dirty }

/-- The bits of a mask of 64 bytes without those of another. -/
def maskLess (a b : Nat) : Nat := a &&& ((2 ^ 64 - 1) ^^^ (b % 2 ^ 64))

/-- A write of bytes within one frame line through a view (10 R299, R300).  Where the line holds an unjoined write of
the other view, the bytes both wrote hold wholly the values of one of the two; a read of this view sees them so, and the other write
no longer hides them.  The unjoined writes stand in their order: one joins its issuer's own only where nothing came between. -/
def State.viewWrite (s : State) (lin : Bool) (own cmd fa : Nat) (bs : List Byte) : State :=
  let ln := fa / 64
  let off := fa % 64
  let other := s.unjoined.find? fun u => u.line == ln && u.lin != lin
  let cur := rdBytes s.frames (ln * 64) 64
  let lose (i : Nat) : Bool := match other with
    | some u => u.mask.testBit i && Config.freeBit (s.fresh * 2 ^ 22 + ln)
    | none => false
  let bs' := (List.range bs.length).map fun i => if lose (off + i) then cur.getD (off + i) 0 else bs.getD i 0
  let mask := (2 ^ bs.length - 1) * 2 ^ off
  let fresh : Unjoined := { line := ln, lin, own, cmd, old := cur, oldTag := (s.ftag fa).toNat, mask }
  let last := (s.unjoined.filter fun u => u.line == ln).getLast?
  let mine (u : Unjoined) : Bool := u.lin == lin && u.own == own && u.cmd == cmd
  let entry : Unjoined := match last with
    | some u =>
      if mine u then { u with mask := u.mask ||| mask
                              old := (List.range 64).map fun i => if u.mask.testBit i then u.old.getD i 0 else cur.getD i 0 }
      else fresh
    | none => fresh
  let entry : Unjoined := { entry with known := if cmd = 0 then putK entry.known (agentOfKey own) s.nextId else putK entry.known (engKey cmd) 0 }
  let rest := s.unjoined.filter fun u => !(last == some u && mine u)
  { s with
    frames := wrBytes s.frames fa bs'
    unjoined := ((rest.map fun u => if u.line == ln && u.lin != lin then { u with mask := maskLess u.mask mask } else u).filter fun u =>
      u.mask != 0) ++ [entry]
    fresh := s.fresh + 1 }

/-- A line's tag after a write of a view: a read of that view finds it, whatever it sees of the other's (07 R205). -/
def State.setViewTag (s : State) (lin : Bool) (fa : Nat) (t : BitVec 4) : State :=
  { s.setFtag fa t with unjoined := s.unjoined.map fun u => if u.line == fa / 64 && u.lin != lin then { u with oldTag := t.toNat } else u }

/-- A store into a scratchpad line (02 R49, 05 R163): a poisoned line takes only a write of all 64 bytes, which clears
PSN; any other is dropped and logged; a transfer's full-line write is not logged (08 R226).  `tag`: the tag a copy gives the
line; none leaves VER as it is. -/
def State.spStore (s : State) (lin : Bool) (c a own cmd fa : Nat) (bs : List Byte) (tag : Option (BitVec 4)) : State :=
  let bad := tagPsn (s.ftag fa)
  let s1 := if bad && (cmd == 0 || bs.length != 64) then
      s.log c 3 a (if cmd = 0 then agentField (own % 4096) 0 true else agentField (coreOf (own % 4096)) 2 true) else s
  if bad && bs.length != 64 then s1
  else
    let s2 := (s1.viewWrite lin own cmd fa bs).touchPage c a true
    match tag with
    | some t => s2.setViewTag lin fa t
    | none => if bad then s2.setViewTag lin fa (mkTag false (tagVer (s.ftag fa))) else s2

/-- A copy's bytes of one scratchpad line, at their offsets, as one write (02 R49, 08 R226, 05 R163). -/
def State.spPatch (s : State) (c a own cmd fa : Nat) (bytes : List (Nat × Byte)) (tag : BitVec 4) : State :=
  match byteRuns bytes with
  | [(o, bs)] => s.spStore false c (a + o) own cmd (fa + o) bs (some tag)
  | l =>
    if tagPsn (s.ftag fa) then s.log c 3 a (agentField (coreOf (own % 4096)) 2 true)
    else
      let s1 := l.foldl (fun t r => { t.viewWrite false own cmd (fa + r.1) r.2 with fresh := s.fresh }) s
      ({ s1 with fresh := s.fresh + 1 }.touchPage c a true).setViewTag false fa tag

/-- What a join of agent k leaves unjoined, in the order of the writes: those it publishes go, and an earlier one hides no byte of
theirs (10 R299). -/
def unjoinedAfter (k : Nat) (l : List Unjoined) : List Unjoined :=
  match l with
  | [] => []
  | u :: r =>
    let pub (v : Unjoined) : Bool := v.known.any fun e => e.1 == k
    let mask := r.foldl (fun m v => if v.line == u.line && pub v then maskLess m v.mask else m) u.mask
    if pub u || mask == 0 then unjoinedAfter k r else { u with mask } :: unjoinedAfter k r

/-- A view join of issuer p (10 R299): every write ordered before it for p is published: p's own, those of its commands that
have ended, and those it has received. -/
def State.join (s : State) (p : Nat) : State :=
  { s with unjoined := unjoinedAfter (agentOfKey p) s.unjoined
           bounce := s.bounce.map fun b => if b.known.any fun e => e.1 == agentOfKey p then { b with joined := true } else b }

/-! ### What signals carry (10 R305, R306) -/

/-- Something is signalled on an object of an edge of 10 R305; `id` numbers the request or command that signals.  With no write
unjoined it carries none. -/
def State.signal (s : State) (obj : List Nat) (k id : Nat) : State :=
  if s.unjoined.isEmpty && s.bounce.isEmpty then s else { s with signals := s.signals ++ [{ obj, agent := agentOfKey k, id }] }

/-- What an agent knows of a write once it has received signals. -/
def heardBy (l : List Signal) (k stamp : Nat) (known : Map Nat) : Map Nat :=
  if known.any (fun e => e.1 == agentOfKey k) then known
  else if l.any fun g => known.any fun e => e.1 == g.agent && decide (e.2 ≤ g.id) then putK known (agentOfKey k) stamp else known

/-- An issuer receives what the matching signals carry: the scratchpad writes ordered before them (10 R306). -/
def State.receive (s : State) (k : Nat) (from_ : Signal → Bool) : State :=
  let l := s.signals.filter from_
  if l.isEmpty then s
  else { s with unjoined := s.unjoined.map fun u => { u with known := heardBy l k s.nextId u.known }
                bounce := s.bounce.map fun b => { b with known := heardBy l k s.nextId b.known } }

/-- An issuer receives what stands signalled on an object. -/
def State.hear (s : State) (obj : List Nat) (k : Nat) : State := s.receive k fun g => g.obj == obj

/-- An issuer receives what stands signalled on an object that no other receives. -/
def State.hearOnce (s : State) (obj : List Nat) (k : Nat) : State :=
  let s1 := s.hear obj k
  { s1 with signals := s1.signals.filter fun g => g.obj != obj }

/-- Commands that have fired: their issuers have their scratchpad writes before what follows (08 R221, 10 R299). -/
def State.observe (s : State) : State :=
  let done (own cmd : Nat) (known : Map Nat) : Map Nat :=
    if cmd != 0 && !s.live cmd && !(known.any fun e => e.1 == agentOfKey own) then putK known (agentOfKey own) s.nextId else known
  if s.unjoined.isEmpty && s.bounce.isEmpty then { s with signals := [] }
  else { s with unjoined := s.unjoined.map fun u => { u with known := done u.own u.cmd u.known }
                bounce := s.bounce.map fun b => { b with known := done b.own b.cmd b.known } }

/-! ### Frames (13 R379, R380) -/

/-- The page, if any, that holds a frame of a cluster. -/
def State.frameUser (s : State) (cl f : Nat) : Option (Nat × SpPage) :=
  s.pages.find? fun e => match e.2.res with
    | .pin d g => d == cl && g == f
    | .res d g => d == cl && g == f
    | .pout d g => d == cl && g == f
    | .absent => false

/-- Whether the core holding frame f of a cluster is powered (13 R380). -/
def State.framePowered (s : State) (cl f : Nat) : Bool := !s.gated.contains (cl * 4 + f / 192)

/-- Pages of runs of bytes. -/
def pagesOf (c a n : Nat) : List Nat :=
  (List.range ((a % 2048 + n + 2047) / 2048)).map fun i => pageKey c (a / 2048 + i)

/-- The pages a running multiply-accumulate has still to read: the runs and scale bytes of its groups to come (13 R379). -/
def matPages (c : Nat) (m : MatRun) : List Nat :=
  let op (d : OpDesc) : List Nat :=
    (List.range (groupsOf d.fmt - m.next)).flatMap fun g => (d.groupRuns (m.next + g)).flatMap fun r => pagesOf c r.1 r.2
  op ⟨m.a0, m.a1⟩ ++ op ⟨m.b0, m.b1⟩

/-- The scratchpad pages a copy is reading or writing: those of its present row, and of the lines it has not finished (13 R379, 08
R224).  The length of a destination row stands in `aux` from its start (08 R227). -/
def copyPages (c : Cmd) : List Nat :=
  let w (i : Nat) : W64 := c.w.getD i 0
  let len := fld (w 2) 63 52 + 1
  let side (on : Bool) (a pitch len : Nat) : List Nat :=
    if on && decide (c.row < fld (w 2) 51 40 + 1) then pagesOf c.ctx (a + c.row * pitch) len else []
  side (fld (w 3) 0 0 == 1) (w 0).toNat (fld (w 2) 19 0) len ++
    side (fld (w 3) 1 1 == 1) (w 1).toNat (fld (w 2) 39 20) (c.aux.getD 1 len) ++
    (c.buf.filter fun b => b.sp).map fun b => pageKey c.ctx (b.addr / 2048)

/-- Whether a page is pinned by work under way: a multiply-accumulate with groups to read, a bank transfer, a copy, or a
page-in or page-out (13 R379). -/
def State.pinnedWork (s : State) (cl key : Nat) (p : SpPage) : Bool :=
  (s.thr.any fun e => clusterOf e.1 == cl && e.2.mats.any fun m =>
    !m.abandoned && (matPages (s.ctxOf e.1) m).contains key) ||
  (s.thr.any fun e => clusterOf e.1 == cl && e.2.xfers.any fun x =>
    x.sp && x.rows.any fun a => (pagesOf (s.ctxOf e.1) a x.rowBytes).contains key) ||
  (s.cmds.any fun c => c.pos == 6 && decide (c.major < 4) && c.st == .running && c.runner / 4 == cl && (copyPages c).contains key) ||
  (match p.res with
   | .pin _ _ => true
   | .pout _ _ => true
   | _ => false)

/-- Whether a page is pinned (13 R379).  Of the held bundles of a cluster only the oldest keeps its pins. -/
def State.pinned (s : State) (cl key : Nat) (p : SpPage) : Bool :=
  let here := s.thr.filter fun e => e.1 < csBase && clusterOf e.1 == cl && !e.2.needs.isEmpty
  let since (t : Thr) : Nat := t.holdFrom.getD s.gcyc
  let oldest := here.foldl (fun acc e => match acc with
    | none => some e
    | some a => if since e.2 < since a.2 then some e else some a) (none : Option (Nat × Thr))
  (match oldest with
   | some e => e.2.needs.contains key
   | none => false) || s.pinnedWork cl key p

/-- Whether a request already waits for a frame's page to leave it (13 R380). -/
def State.taken (s : State) (cl f : Nat) : Bool := s.pages.any fun e => e.2.taking == some (cl * 768 + f)

/-- The unpinned page of a cluster least recently accessed, with ties to the lower frame (13 R380). -/
def State.spVictim (s : State) (cl : Nat) : Option (Nat × SpPage) :=
  let frame (x : Nat × SpPage) : Nat := match x.2.res with
    | .res _ f => f
    | _ => 0
  (s.pages.filter fun e => match e.2.res with
    | .res d f => d == cl && s.framePowered cl f && !s.pinned cl e.1 e.2 && !s.taken cl f
    | _ => false).foldl (fun acc e => match acc with
      | none => some e
      | some a => if e.2.used < a.2.used || (e.2.used == a.2.used && frame e < frame a) then some e else some a) none

/-- The pager takes a frame for a page: it is empty, or its page, clean, leaves it at once; a dirty one is first written out, and
one with unmerged bounce-buffer lines waits for them (13 Table 13-7, R380, R383).  One that has been pinned since is let go. -/
def State.spTake (s : State) (c n cl f : Nat) (r : List Nat) : State :=
  let p := s.spPage c n
  let inn : SpPage := { p with res := .pin cl f, reqs := r, taking := none }
  let wait : SpPage := { p with taking := some (cl * 768 + f) }
  match s.frameUser cl f with
  | none => s.setPage c n inn
  | some (k, v) => match v.res with
    | .res _ _ =>
      if s.pinned cl k v then s.setPage c n { p with taking := none }
      else if s.bounced (k / 16384) (k % 16384) then s.setPage c n wait
      else if v.dirty = 0 then { s with pages := putK (putK s.pages k { v with res := .absent }) (pageKey c n) inn }
      else { s with pages := putK (putK s.pages k { v with res := .pout cl f }) (pageKey c n) wait }
    | _ => s.setPage c n wait

/-- The pager serves the first cluster that waits for an absent page (13 Table 13-7, R380, R382): a free frame of a powered
core, or that of the victim, which it keeps to until the victim has left; with every frame pinned the request waits. -/
def State.spServe (s : State) (c n : Nat) : State :=
  let p := s.spPage c n
  match p.res, p.reqs with
  | .absent, cl :: r =>
    if (s.spEntry c n).isNone || s.bounced c n || p.unmap then s
    else match p.taking with
      | some g => if g / 768 = cl ∧ s.framePowered cl (g % 768) then s.spTake c n cl (g % 768) r else s.setPage c n { p with taking := none }
      | none =>
        let free := (List.range 768).filter fun f => s.framePowered cl f && (s.frameUser cl f).isNone && !s.taken cl f
        if free.isEmpty then
          match s.spVictim cl with
          | some (_, v) => match v.res with
            | .res _ f => s.spTake c n cl f r
            | _ => s
          | none => s
        else
          let f := free.getD (Config.pickFrame s.fresh % free.length) 0
          { s.spTake c n cl f r with fresh := s.fresh + 1 }
  | _, _ => s

/-- Asks the pagers for a page in cluster cl (13 Table 13-7, R380–R382): the request stands in arrival order until it is
served. -/
def State.spRequest (s : State) (c n cl : Nat) : State :=
  let p := s.spPage c n
  let here : Bool := match p.res with
    | .res d _ => d == cl
    | .pin d _ => d == cl
    | _ => false
  if (s.spEntry c n).isNone || (here && !p.unmap) then s
  else (s.setPage c n { p with reqs := if p.reqs.contains cl then p.reqs else p.reqs ++ [cl] }).spServe c n

/-- Starts the departure of a resident page: written out when dirty, freed at once when clean; a page freed with a
request waiting starts its page-in there (13 Table 13-7). -/
def State.spDepart (s : State) (c n : Nat) : State :=
  let p := s.spPage c n
  match p.res with
  | .res d f =>
    if p.dirty = 0 then (s.setPage c n { p with res := .absent }).spServe c n
    else s.setPage c n { p with res := .pout d f }
  | _ => s

/-- Each cycle the pagers serve what still waits (13 R380, R382). -/
def State.pagerTick (s : State) : State :=
  s.pages.foldl (fun s e => if e.2.reqs.isEmpty then s else s.spServe (e.1 / 16384) (e.1 % 16384)) s

/-- The lines of a run of scratchpad bytes that are poisoned, as a view sees them (05 R162). -/
def State.spBadLines (s : State) (lin : Bool) (c cl : Nat) (runs : List (Nat × Nat)) : List Nat :=
  ((runs.flatMap fun r => (List.range ((r.1 % 64 + r.2 + 63) / 64)).map fun i => r.1 / 64 * 64 + 64 * i).dedup).filter fun a =>
    match s.spFrame c cl a with
    | some fa => tagPsn (s.viewTag lin fa)
    | none => false

/-- A core's scratchpad page cache takes a page's entry, 256 of them: it reads it at its home as a coherent reader, and the home
records the core as a sharer (13 R370, R377). -/
def State.spCacheFill (s : State) (core c n : Nat) : State :=
  if s.spCache.contains (core, c, n) then s
  else
    let mine := s.spCache.filter fun e => e.1 == core
    let line := s.spLine (pageKey c n)
    let s1 := (s.othersRead line core).dirShare line core
    if mine.length < 256 then { s1 with spCache := s1.spCache ++ [(core, c, n)] }
    else
      let v := mine.getD (Config.victim s1.fresh % mine.length) (core, c, n)
      { s1 with spCache := (s1.spCache.filter fun e => e != v) ++ [(core, c, n)], fresh := s1.fresh + 1 }

/-- Reads of runs of bytes count as accesses of their pages (13 R380), through their core's page cache (R377). -/
def State.spTouch (s : State) (core c : Nat) (runs : List (Nat × Nat)) : State :=
  ((runs.flatMap fun r => pagesOf c r.1 r.2).dedup).foldl (fun s k =>
    (s.spCacheFill core c (k % 16384)).touchPage c (k % 16384 * 2048) false) s

/-- The scratchpad pages of a list of byte runs that a cluster cannot reach though they are mapped (05 R144). -/
def State.spMissing (s : State) (c cl : Nat) (runs : List (Nat × Nat)) : List Nat :=
  ((runs.flatMap fun r => pagesOf c r.1 r.2).dedup).filter fun k =>
    (s.spEntry c (k % 16384)).isSome && (s.spFrame c cl (k % 16384 * 2048)).isNone

/-- The first byte of a list of runs whose page is not mapped (05 R144). -/
def State.spUnmapped (s : State) (c : Nat) (runs : List (Nat × Nat)) : Option Nat :=
  firstSome runs fun r => firstSome (pagesOf c r.1 r.2) fun k =>
    if (s.spEntry c (k % 16384)).isSome then none else some (max r.1 (k % 16384 * 2048))

/-- Bytes at a scratchpad address through a view; zero where the page is not resident here. -/
def State.spRead (s : State) (lin : Bool) (c cl a n : Nat) : List Byte :=
  (List.range n).map fun i => match s.spFrame c cl (a + i) with
    | some fa => s.viewByte lin fa
    | none => 0

/-- Whether any line of a run is poisoned, as a view sees it. -/
def State.spPoison (s : State) (lin : Bool) (c cl a n : Nat) : Bool :=
  (List.range ((a % 64 + n + 63) / 64)).any fun i => match s.spFrame c cl (a / 64 * 64 + 64 * i) with
    | some fa => tagPsn (s.viewTag lin fa)
    | none => false

/-- A store of bytes at a scratchpad address, line by line. -/
def State.spWrite (s : State) (lin : Bool) (c cl a own cmd : Nat) (bs : List Byte) (tag : Option (BitVec 4)) : State :=
  forN ((a % 64 + bs.length + 63) / 64) s fun i s =>
    let lo := if i = 0 then a else a / 64 * 64 + 64 * i
    match s.spFrame c cl lo with
    | some fa => (s.spCacheFill (coreOf (own % 4096)) c (lo / 2048)).spStore lin c lo own cmd fa ((bs.drop (lo - a)).take (64 - lo % 64)) tag
    | none => s

end Sys2Proof.Machine
end

