-- ==== Sys2Proof/Machine/Record.lean ====
section
/-! DEFINITION. Tensor records as the store paths and readers use them (02 R47–R53, 09 R255–R270). -/

namespace Sys2Proof.Machine

open Sys2Proof

/-! ### The record image in memory (09 Table 9-2) -/

/-- The die of a record's home slice (09 R255, 10 R287); die 0 where its table is not mapped. -/
def State.recDie (s : State) (c i : Nat) : Nat :=
  match s.vpa c (s.cword c 0x20 + 512 * i) with
  | some pa => homeDie pa
  | none => 0

def State.recVa (s : State) (c i : Nat) : Nat := s.cword c 0x20 + 512 * i
def State.recRaw (s : State) (c i off : Nat) : Nat := s.vrdN c (s.recVa c i + off) 8

/-- The geometry a storage format sets (09 Table 9-1); 4 for none. -/
def geoOf (f : Nat) : Nat :=
  if f = 0 ∨ f = 8 then 0 else if f = 1 ∨ f = 2 then 1 else if f = 3 ∨ f = 4 ∨ f = 6 ∨ f = 7 then 2
  else if f = 5 then 3 else 4

/-- The formats a geometry allows a version (09 Table 9-1). -/
def geoAllows (geo sfmt f : Nat) : Bool :=
  if geo = 2 then f == 3 || f == 4 || f == 6 || f == 7 else f == sfmt

/-- A record is read as FREE when STATE is 3 or GEO does not match SFMT (09 R255). -/
def State.recFree (s : State) (c i : Nat) : Bool :=
  let ctrl := s.recRaw c i 0
  ctrl % 4 == 0 || ctrl % 4 == 3 || geoOf (bitsN ctrl 7 4) != bitsN ctrl 9 8

/-- A word of a record; a record read as FREE is all zero. -/
def State.recWord (s : State) (c i off : Nat) : Nat := if s.recFree c i then 0 else s.recRaw c i off

def State.recState (s : State) (c i : Nat) : Nat := s.recWord c i 0 % 4
def State.recWv (s : State) (c i : Nat) : Nat := bitsN (s.recWord c i 0) 3 2
def State.recSfmt (s : State) (c i : Nat) : Nat := bitsN (s.recWord c i 0) 7 4
def State.recGeo (s : State) (c i : Nat) : Nat := bitsN (s.recWord c i 0) 9 8
def State.recOact (s : State) (c i : Nat) : Nat := bitsN (s.recWord c i 0) 13 12
def State.recOvth (s : State) (c i : Nat) : Nat := s.recWord c i 0x18 % 2 ^ 32
def State.recHbias (s : State) (c i : Nat) : Int := sextI (bitsN (s.recWord c i 8) 31 24) 8

/-- A version word: format and scale exponent, the scale taken as 0 for wide formats (02 R47). -/
def verFmt (w : Nat) : Nat := bitsN w 11 8
def verScale (w : Nat) : Int := if verFmt w = 0 ∨ verFmt w = 1 ∨ verFmt w = 2 ∨ verFmt w = 8 then 0 else sextI (w % 64) 6
def State.recVer (s : State) (c i v : Nat) : Nat := s.recWord c i (0x20 + 8 * v)

/-- Whether a version's format code is reserved (02 R36). -/
def fmtReserved (f : Nat) : Bool := decide (f > 11)

/-! ### Regions of a bound page (02 Table 2-7) -/

def dataRegion (size : Nat) : Nat := if size = 65536 then 0xF000 else 0x1E0000

/-- Whether a page offset holds data under a geometry (02 R52). -/
def isData (geo size ofs : Nat) : Bool := if geo = 2 ∨ geo = 3 then decide (ofs < dataRegion size) else true

/-- Whether a page offset holds block scales (02 Table 2-7): the scale plane, between the data and the reserved tail. -/
def isPlane (geo size ofs : Nat) : Bool :=
  (geo == 2 || geo == 3) && decide (dataRegion size ≤ ofs) && decide (ofs < dataRegion size + dataRegion size / 16)

/-- VER of a write that converts nothing, at an offset of a bound page, where `wv` is the write version that counts (02 R49):
scale-plane lines take 0b00 (R53), every other line the version. -/
def plainVer (geo size ofs wv : Nat) : Nat := if isPlane geo size ofs then 0 else wv

/-- Elements of a line under a geometry (02 Table 2-6, 05 Table 5-7). -/
def lineElems (geo : Nat) : Nat := if geo = 3 then 128 else 64

/-- The exact values of a line's elements, under the version word its VER names (05 R151); `scales`: the line's scale
bytes. -/
def decodeLine (ver : Nat) (bytes : List Byte) (scales : List Nat) (n : Nat) : List Ex :=
  let f := verFmt ver
  let x := ofBytes bytes
  (List.range n).map fun i =>
    if f = 5 ∨ f = 6 then (decMx (laneN x 4 i) (scales.getD (i / 32) 0)).scale (verScale ver)
    else (decCode f (laneN x (fmtBits f) i)).scale (verScale ver)

/-- The codes, scale bytes and classes of a converting store of n values under a version (05 R152). -/
def encodeLine (ver : Nat) (xs : List Ex) (md : Nat → Rm) : List Nat × List Nat × List Cls :=
  let f := verFmt ver
  let sc := verScale ver
  if f = 5 ∨ f = 6 then
    let blocks := (List.range (xs.length / 32)).map fun b =>
      mxBlock (((xs.drop (32 * b)).take 32).map fun x => x.scale (-sc)) fun i => md (32 * b + i)
    (blocks.flatMap fun b => b.2.map fun e => e.1, blocks.map fun b => b.1, blocks.flatMap fun b => b.2.map fun e => e.2)
  else
    let r := (List.range xs.length).zip xs |>.map fun (i, x) => convert x f (md i) sc
    (r.map fun e => e.1, [], r.map fun e => e.2)

/-! ### Deltas (09 R265–R269) -/

def State.delta (s : State) (core c i : Nat) : Delta :=
  (s.deltas.find? fun d => d.core == core && d.ctx == c && d.idx == i).getD
    { core, ctx := c, idx := i, since := s.gcyc }

def State.setDelta (s : State) (d : Delta) : State :=
  { s with deltas := (s.deltas.filter fun e => !(e.core == d.core && e.ctx == d.ctx && e.idx == d.idx)) ++ [d] }

/-- Writes a 64-bit word of a record (only the governor does, 09 R256). -/
def State.recPut (s : State) (c i off v : Nat) : State := s.vwrN c (s.recVa c i + off) 8 v

/-- Adds two 32-bit saturating halves to a record word. -/
def addHalves (w lo hi : Nat) : Nat := satAdd 32 (w % 2 ^ 32) lo + satAdd 32 (w / 2 ^ 32) hi * 2 ^ 32

/-- Merges a delta into the home record by commutative addition (09 R267); a LIVE subtraction at zero leaves zero and
sets LIVEUF (R266). -/
def State.mergeDelta (s : State) (d : Delta) : State :=
  let c := d.ctx
  let i := d.idx
  let s1 := forN 32 s fun j s =>
    let lo := getD 0 d.hist (2 * j)
    let hi := getD 0 d.hist (2 * j + 1)
    if lo = 0 ∧ hi = 0 then s else s.recPut c i (0x100 + 8 * j) (addHalves (s.recWord c i (0x100 + 8 * j)) lo hi)
  let s2 := s1.recPut c i 0x40 (addHalves (s1.recWord c i 0x40) d.zero d.nan)
  let s3 := s2.recPut c i 0x48 (addHalves (s2.recWord c i 0x48) d.ovr d.under)
  let s4 := s3.recPut c i 0x50 (satAdd 64 (s3.recWord c i 0x50) d.ovtot)
  let s5 := forN 4 s4 fun v s =>
    let adj := getD 0 d.live v
    if adj = 0 then s
    else
      let w := s.recVer c i v
      let n : Int := (w / 2 ^ 32 : Nat) + adj
      let s := s.recPut c i (0x20 + 8 * v) (w % 2 ^ 32 + n.toNat * 2 ^ 32)
      if n < 0 then s.recPut c i 0 (s.recWord c i 0 ||| 2 ^ 15) else s
  s5.setDelta { d with hist := [], zero := 0, nan := 0, ovr := 0, under := 0, live := [], ovtot := 0, since := s.gcyc }

/-- Whether a field of a delta has reached 2^15 (09 R267). -/
def Delta.full (d : Delta) : Bool :=
  [d.zero, d.nan, d.ovr, d.under, d.ovtot].any (fun x => decide (x ≥ 2 ^ 15)) ||
  d.hist.any (fun e => decide (e.2 ≥ 2 ^ 15)) || d.live.any (fun e => decide (e.2.natAbs ≥ 2 ^ 15))

/-- A merge calls for a retry of a PENDING record's install (09 R264): its next retry falls due in this cycle. -/
def State.wakeInstall (s : State) (c i : Nat) : State :=
  { s with installs := s.installs.map fun n => if n.ctx == c && n.idx == i then { n with retry := s.gcyc } else n }

/-- Merges a delta and has a PENDING install retried (09 R264, R267). -/
def State.merge (s : State) (d : Delta) : State := (s.mergeDelta d).wakeInstall d.ctx d.idx

/-- Changes a delta, merging it at once where a field is full.  A core that no longer has the record in its metadata cache keeps no
delta of it: what a late write adds goes to the home (09 R267, R268). -/
def State.modDelta (s : State) (core c i : Nat) (f : Delta → Delta) : State :=
  let d := f (s.delta core c i)
  if !s.cached.contains (core, c, i) then
    let s1 := (s.setDelta d).merge d
    { s1 with deltas := s1.deltas.filter fun e => !(e.core == core && e.ctx == c && e.idx == i) }
  else if d.full then (s.setDelta d).merge d else s.setDelta d

/-- The OVER elements of a store path. -/
def overCount (cl : List Cls) : Nat := (cl.filter fun x => x == .over_).length

/-- Whether n OVER elements cross the threshold (09 R269). -/
def State.crosses (s : State) (core c i n : Nat) : Bool :=
  let d := s.delta core c i
  decide (d.csov ≤ s.recOvth c i) && decide (s.recOvth c i < satAdd 32 d.csov n)

/-- Reports a store path's classes and exponents to the writer core's delta (09 R265, R269, R270): under DEFER, or under PRECISE where `precise` holds (a receive-add,
which cannot fault a bundle), a crossing sends a post to the home. -/
def State.report (s : State) (core c i : Nat) (xs : List Ex) (cl : List Cls) (precise : Bool) : State :=
  let hb := s.recHbias c i
  let n := overCount cl
  let cross := s.crosses core c i n
  let s1 := s.modDelta core c i fun d =>
    let hist := (xs.zip cl).foldl (fun h (x, k) =>
      if k = .zero ∨ k = .nan then h
      else match x.exp? with
        | none => h
        | some e => let b := (max 0 (min (e + hb) 63)).toNat
                    putK h b (getD 0 h b + 1)) d.hist
    { d with hist
             zero := d.zero + (cl.filter fun x => x == .zero).length
             nan := d.nan + (cl.filter fun x => x == .nan).length
             ovr := d.ovr + n
             under := d.under + (cl.filter fun x => x == .under).length
             ovtot := d.ovtot + n
             csov := satAdd 32 d.csov n }
  if cross && (s.recOact c i == 1 || (precise && s.recOact c i == 2)) then
    { s1 with posts := s1.posts ++ [(c, i, core, s1.recWord c i 0x10 % 2 ^ 32)] }
  else s1

/-- Moves one LIVE count where a write changes the VER of a data line of a bound page (09 R266). -/
def State.liveMove (s : State) (core c : Nat) (bound : Option (Nat × Nat × Nat)) (pa oldV newV : Nat) : State :=
  match bound with
  | none => s
  | some (i, base, size) =>
    if oldV = newV || !isData (s.recGeo c i) size (pa - base) then s
    else s.modDelta core c i fun d =>
      { d with live := putK (putK d.live oldV (getD 0 d.live oldV - 1)) newV
                 (getD 0 (putK d.live oldV (getD 0 d.live oldV - 1)) newV + 1) }

end Sys2Proof.Machine
end

