-- ==== Sys2Proof/Machine/Flags.lean ====
section
/-! DEFINITION. The conditions that predicate and mask instructions compute. -/

namespace Sys2Proof.Machine

open Sys2Proof

/-- The scalar condition codes 0–7 (04 Table 4-5). -/
def condS (cc : Nat) (a b : W64) : Bool :=
  match cc with
  | 0 => a == b
  | 1 => a != b
  | 2 => a.slt b
  | 3 => !a.slt b
  | 4 => a.ult b
  | 5 => !a.ult b
  | 6 => a &&& b != 0
  | _ => a &&& b == 0

/-- The predicate operations 0–8 (04 Table 4-6). -/
def plogOp (cc : Nat) (p q : Bool) : Bool :=
  match cc with
  | 0 => p && q
  | 1 => p || q
  | 2 => p ^^ q
  | 3 => p && !q
  | 4 => !(p && q)
  | 5 => !(p || q)
  | 6 => !(p ^^ q)
  | 7 => p
  | _ => !p

/-- The .f32 conditions of VCMP (06 Table 6-5): a NaN operand makes only .ne and .un true. -/
def condF (c : Nat) (a b : Ex) : Bool :=
  match c with
  | 0 => a.eqv b
  | 1 => !a.eqv b
  | 2 => a.ltv b
  | 3 => a.ltv b || a.eqv b
  | 4 => b.ltv a
  | 5 => b.ltv a || a.eqv b
  | 6 => a.isNan || b.isNan
  | _ => !(a.isNan || b.isNan)

/-- The .i32 conditions of VCMP (06 Table 6-5). -/
def condI (c : Nat) (a b : Nat) : Bool :=
  let x := sextI a 32
  let y := sextI b 32
  match c with
  | 0 => a == b
  | 1 => a != b
  | 2 => decide (x < y)
  | 3 => decide (x ≤ y)
  | 4 => decide (x > y)
  | 5 => decide (x ≥ y)
  | 6 => decide (a < b)
  | _ => decide (a ≥ b)

/-- The mask operations 0–5 (06 Table 6-6). -/
def vmskOp (o : Nat) (a b : W64) : W64 :=
  match o with
  | 0 => a &&& b
  | 1 => a ||| b
  | 2 => a ^^^ b
  | 3 => a &&& ~~~b
  | 4 => ~~~a
  | _ => a

/-- WAITM conditions (04 R125). -/
def condM (f : Nat) (v b : W64) : Bool :=
  match f with
  | 0 => v != b
  | 1 => v == b
  | 2 => !v.ult b
  | _ => v.ult b

/-- Wait conditions of a WAITM and the ranges of a pure task (11 R327): whether n bytes from va lie in lines of the
ranges. -/
def inRanges (rs : List (Nat × Nat)) (va n : Nat) : Bool :=
  let lo := va / 64
  let hi := (va + n - 1) / 64
  (List.range (hi + 1 - lo)).all fun i =>
    rs.any fun r => r.2 != 0 && decide (r.1 / 64 ≤ lo + i) && decide (lo + i ≤ (r.1 + r.2 - 1) / 64)

end Sys2Proof.Machine
end

