-- ==== Sys2Proof/Machine/Slot.lean ====
section
/-! DEFINITION. What a slot is to the issue of a bundle (03 R71, R86): its guard, what it names, what it checks, when it
holds, and what it does when its bundle commits. -/

namespace Sys2Proof.Machine

open Sys2Proof

/-- A register a slot names as a destination (03 R72). -/
inductive DstName where
  | s (n : Nat) | v (n : Nat) | p (n : Nat) | m (n : Nat) | h (n : Nat) | k (n : Nat)
  deriving DecidableEq, Repr

/-- S0, P0, M0 and K0 discard what is written and never conflict (03 R72); vector codes 60–63 name no register (R73). -/
def DstName.counts : DstName → Bool
  | .s n => n != 0
  | .v n => decide (n < 60)
  | .p n => n != 0
  | .m n => n != 0
  | .k n => n != 0
  | _ => true

/-- Where an instruction may issue: R84's list stands only in partitions, R85's only in command streams, PCLR only at
firmware privilege. -/
inductive Where where
  | any | partOnly | csOnly | firmware
  deriving DecidableEq, Repr

/-- A fault of a slot: its code (12 Table 12-6), DET0, and a handle index involved. -/
structure SF where
  code : Nat
  det : Nat := 0
  hx : Nat := 0
  deriving DecidableEq, Repr

/-- The circumstances of a slot at issue: the state its reads see, the issuer, the header, the slot word. -/
structure IC where
  s : State
  k : Nat
  h : Header
  pos : Nat
  word : W32
  drawn : Nat := 0     -- stochastic draws of the bundle's lower slots (02 R60)

def IC.t (c : IC) : Thr := c.s.th c.k
def IC.cx (c : IC) : Nat := c.s.ctxOf c.k
def IC.sv (c : IC) (n : Nat) : W64 := c.t.s n

/-- SRSTATE as the bundle's lower slots leave it (02 R60). -/
def IC.sr (c : IC) : W64 := srAfter c.t.srstate c.drawn

/-- What an instruction is at issue.  `sched`, `chk` and `post` give the instruction's own faults, in the order of its
chapter: before the holds, and after them (05 R164, 07 R216, 08 R254). -/
structure SlotOp where
  g : Nat                                  -- guard predicate
  gn : Bool := false                       -- inverted
  legal : Bool := true                     -- no code the opcode map or the entry leaves out (03 R81, R83)
  whr : Where := .any
  dsts : List DstName := []
  banks : List Nat := []                   -- accumulator banks named (03 R72)
  srcS : List Nat := []                    -- scalar sources
  srcV : List Nat := []                    -- vector source codes
  srcB : List Nat := []                    -- banks read as sources (07 R211)
  ill : IC → Bool := fun _ => false        -- illegal-instruction by operand values (03 R89, 08 R225)
  sched : IC → Bool := fun _ => false      -- schedule-violation (03 R95)
  chk : IC → Option SF := fun _ => none    -- own faults before the holds
  hold : IC → Option Nat := fun _ => none  -- a hold and its cause (19 Table 19-7)
  post : IC → Option SF := fun _ => none   -- own faults after the holds
  spRuns : IC → List (Nat × Nat) := fun _ => []  -- scratchpad bytes it needs resident (05 R144)
  onHold : IC → State → State := fun _ s => s -- what its hold asks for or watches (04 R125)
  brk : Option Nat := none                 -- BRK and its id (04 R130)
  impure : IC → Option Nat := fun _ => none -- a purity violation and the virtual address concerned (11 R327)
  xfer : IC → Bool := fun _ => false       -- a taken BR, JMP, CALL, RET or LBRK, or a LOOP or LOOPR (04 R116)
  endBad : IC → Bool := fun _ => false     -- a taken BR, JMP, CALL or RET: not allowed in an end bundle (04 R121)
  draws : IC → Nat := fun _ => 0           -- stochastic draws it takes (02 R60)
  barb : Bool := false                     -- a CRW of BARB (04 R122)
  stop : IC → Option Nat := fun _ => none  -- TRAP: parks after the commit, with its code and S(D) (04 R129)
  eff : IC → State → State := fun _ s => s -- the effect at commit

/-- The guard, after GN (03 R78). -/
def SlotOp.on (o : SlotOp) (t : Thr) : Bool := t.p o.g != o.gn

/-! ### Results in flight (03 R91, R92) -/

/-- Puts a result of the bundle issuing now in flight, to land at +n. -/
def State.fly (s : State) (k n : Nat) (l : Land) : State :=
  s.modTh k fun t => { t with flight := t.flight ++ [{ due := t.scyc + n, land := l }] }

/-- Puts a returning request in flight, holding a landing-buffer entry. -/
def State.flyReq (s : State) (k n req : Nat) : State :=
  s.modTh k fun t => { t with flight := t.flight ++ [{ due := t.scyc + n, land := .wait req, entry := true }] }

/-- Writes S(d) at +n. -/
def flyS (n d : Nat) (f : IC → W64) : IC → State → State := fun c s => s.fly c.k n (.s d (f c) false)

/-- Writes P(d) at +n. -/
def flyP (n d : Nat) (f : IC → Bool) : IC → State → State := fun c s => s.fly c.k n (.p d (f c))

/-- Writes V(d), under the mask M(ms), at +n. -/
def flyV (n d ms : Nat) (f : IC → VReg) : IC → State → State := fun c s =>
  s.fly c.k n (.v (c.t.vName d) (f c) (c.t.m ms) false)

/-- One landing (03 R92). -/
def landOne (t : Thr) (l : Land) : Thr :=
  match l with
  | .s n v psn => t.setS n v psn
  | .v n v mask psn =>
    let full := mask == BitVec.allOnes 64
    { t with vr := putD 0 t.vr n (if full then v else mergeChunks (t.vPhys n) v mask)
             vPsn := putD false t.vPsn n (if full then psn else (t.vBadP n || psn)) }
  | .p n b => t.setP n b
  | .preds v => { t with pr := v ||| 1#16 }
  | .stages v => { t with pr := (t.pr &&& 0xFF#16) ||| (v.setWidth 16 <<< 8) }
  | .m n v mask => t.setM n v mask
  | .bank n b psn =>
    let t := t.setBank n b
    match psn with
    | some x => t.setBPsn n x
    | none => t
  | .bankRow n r v => t.setBank n ((t.bank n).setRow r v)
  | .bankCol n j v =>
    let b := t.bank n
    t.setBank n (Bank.of fun r i => if i = j then vLane v 32 r else b.el r i)
  | .bankPsn n b => t.setBPsn n b
  | .xlat h va => t.setH h { st := .pending, va }
  | .hrel h => t.setH h {}
  | .ctl .barb v =>
    let d := fld t.bard 3 0
    { t with barb := BitVec.ofNat 64 (fld v 23 8 * 256 + (if d = 0 then fld v 3 0 else fld v 3 0 % d)) }
  | .ctl .bard v => { t with bard := BitVec.ofNat 64 (fld v 3 0) }
  | .ctl .aland v => { t with aland := BitVec.ofNat 64 (max 24 (fld v 11 0)) }
  | .ctl .srstate v => { t with srstate := v }
  | .tmode _ => t                  -- a register of the context: `State.landTmode`
  | .barbRot r => { t with barb := (t.barb &&& ~~~15#64) ||| BitVec.ofNat 64 (r % 16) }
  | .rule n r => { t with rules := putK t.rules n r }
  | .wait _ => t

/-- Whether a result in flight still waits for its data. -/
def Flight.waiting (f : Flight) : Bool :=
  match f.land with
  | .wait _ => true
  | _ => false

/-- A landing freeze: a result due now has no data yet (03 R93). -/
def Thr.frozen (t : Thr) : Bool := t.flight.any fun f => decide (f.due ≤ t.scyc) && f.waiting

/-- Everything due lands, in issue order, and so does a pending target (03 R92, 04 R116, R120). -/
def Thr.landDue (t : Thr) : Thr :=
  let due := t.flight.filter fun f => decide (f.due ≤ t.scyc)
  let t1 := due.foldl (fun acc f => landOne acc f.land) { t with flight := t.flight.filter fun f => !decide (f.due ≤ t.scyc) }
  match t1.pend with
  | some (d, a) => if d ≤ t1.scyc then { t1 with pend := none, pc := a, empty := false } else t1
  | none => t1

end Sys2Proof.Machine
end

