-- ==== Sys2Proof/Machine/MatrixUnit.lean ====
section
/-! DEFINITION. The matrix unit: operand descriptors, group reads, stops, completion (02 R63–R65, 07 R196–R209), and
what happens at the start of an issuer's cycle. -/

namespace Sys2Proof.Machine

open Sys2Proof

/-- The line formats accepted under REC = 1 (07 Table 7-3). -/
def accepts (f lineFmt : Nat) : Bool := if f = 3 ∨ f = 4 then lineFmt == 3 || lineFmt == 4 else lineFmt == f

/-- The version word a line's VER names in an operand's captured record, as the record's slot holds it when the line is read
(02 R50, 07 R199, 09 R282). -/
def State.opVer (s : State) (c : Nat) (rec_ : Option Nat) (v : Nat) : Nat := match rec_ with
  | some i => s.recVer c i v
  | none => 0

/-- A poisoned line in an operand's group (07 R203, R207): of several the first in row order, the one that is logged
(notes/assumptions/132). -/
def State.groupPoison (s : State) (c cl : Nat) (d : OpDesc) (g : Nat) : Option Nat :=
  firstSome (d.groupRuns g) fun r => if s.spPoison false c cl r.1 r.2 then some (r.1 / 64 * 64) else none

def State.groupFormat (s : State) (c cl : Nat) (d : OpDesc) (rec_ : Option Nat) (g : Nat) : Bool :=
  d.rec_ && (List.range 64).any fun r => match s.spFrame c cl (d.runAddr r g) with
    | some fa => !accepts d.fmt (verFmt (s.opVer c rec_ (tagVer (s.viewTag false fa))))
    | none => false

/-- The 16 exact values of a run (02 R50, R53, 07 R199). -/
def State.runVals (s : State) (c cl : Nat) (d : OpDesc) (rec_ : Option Nat) (r g : Nat) : List Ex :=
  let a := d.runAddr r g
  let x := ofBytes (s.spRead false c cl a (runBytes d.fmt))
  let v := match s.spFrame c cl a with
    | some fa => s.opVer c rec_ (tagVer (s.viewTag false fa))
    | none => 0
  let f := if d.rec_ then verFmt v else d.fmt
  let sc : Int := if d.rec_ then verScale v else 0
  let e := if d.isMx then ofBytes (s.spRead false c cl (d.scaleAddr r g) 1) else 127
  (List.range 16).map fun i =>
    if d.isMx then (decMx (laneN x 4 i) e).scale sc else (decCode f (laneN x (fmtBits f) i)).scale sc

/-- The progress word (07 Table 7-5). -/
def progWord (cause op st groups done : Nat) : W64 :=
  BitVec.ofNat 64 (cause * 4096 + op * 1024 + st * 256 + groups * 16 + done)
def MatRun.groups (m : MatRun) : Nat := groupsOf (fld m.a1 7 4)
def MatRun.delta (m : MatRun) : Nat := deltaOf (fld m.a1 7 4)
def MatRun.due (m : MatRun) : Nat := m.issued + m.next * m.delta
def Thr.cause (t : Thr) (b : Nat) : Nat := fld (getD 0 t.prog b) 15 12
def Thr.setProg (t : Thr) (b : Nat) (w : W64) : Thr := { t with prog := putD 0 t.prog b w }

/-- Replaces a multiply-accumulate, named by its command. -/
def Thr.setMat (t : Thr) (m : MatRun) : Thr := { t with mats := t.mats.map fun x => if x.cmd == m.cmd then m else x }

/-- c[i][j] plus the group sums of a group (02 R63, 07 R203). -/
def addGroup (op : Nat) (b : Bank) (xa xb : List (List Ex)) : Bank :=
  Bank.of fun i j =>
    let x := xa.getD (if op = 1 then j else i) []
    let y := xb.getD (if op = 1 then i else j) []
    r32 ((d32 (b.el i j)).add (d32 (groupSum ((x.zip y).map fun e => e.1.mul e.2))))

/-- MATRIX_GROUP_READ: group g of a multiply-accumulate of partition k is read and added, or stops it (07 R203, R206,
R207). -/
def State.readGroup (s : State) (k : Nat) (m : MatRun) : State :=
  let c := s.ctxOf k
  let cl := clusterOf k
  let da : OpDesc := ⟨m.a0, m.a1⟩
  let db : OpDesc := ⟨m.b0, m.b1⟩
  let g := m.next
  let v := s.spTouch (coreOf k) c (da.groupRuns g ++ db.groupRuns g)
  let pois := match s.groupPoison c cl da g with
    | some a => some a
    | none => s.groupPoison c cl db g
  match pois with
  | some a =>
    ((v.log c 7 a (agentField k 0 true)).modTh k fun t =>
      ((t.setMat { m with abandoned := true }).setBPsn m.bank true).setProg m.bank
        (progWord 2 m.op 3 m.groups g)).modTh k fun t => { t with matStop := some (g, 2, m.cmd) }
  | none =>
    if s.groupFormat c cl da m.recA g || s.groupFormat c cl db m.recB g then
      v.modTh k fun t => { t.setProg m.bank (progWord 1 m.op 2 m.groups g) with matStop := some (g, 1, m.cmd) }
    else
      let xa := (List.range 64).map fun r => s.runVals c cl da m.recA r g
      let xb := (List.range 64).map fun r => s.runVals c cl db m.recB r g
      { (v.modTh k fun t =>
          ((t.setBank m.bank (addGroup m.op m.acc xa xb)).setMat { m with next := g + 1, acc := addGroup m.op m.acc xa xb }).setProg m.bank
            (progWord (t.cause m.bank) m.op 1 m.groups (g + 1))) with fresh := v.fresh + 1 }

/-- The multiply-accumulate whose next group is due at the current SCYC, if any. -/
def Thr.matDue (t : Thr) : Option MatRun :=
  t.mats.find? fun m => !m.abandoned && decide (m.next < m.groups) && decide (m.due ≤ t.scyc)

/-- The scratchpad pages its due group still lacks (after a migration, 13 R384). -/
def State.matMissing (s : State) (k : Nat) : List Nat :=
  match (s.th k).matDue with
  | none => []
  | some m =>
    s.spMissing (s.ctxOf k) (clusterOf k)
      ((OpDesc.mk m.a0 m.a1).groupRuns m.next ++ (OpDesc.mk m.b0 m.b1).groupRuns m.next)

/-- MATRIX_GROUP_READ for the group due now. -/
def State.matrixStep (s : State) (k : Nat) : State :=
  match (s.th k).matDue with
  | none => s
  | some m => if (s.th k).matStop.isSome || !(s.matMissing k).isEmpty then s else s.readGroup k m

/-- MATRIX_COMPLETE: at +144 the bank is free and the ticket fires; STATE becomes 0 unless the instruction was abandoned
(07 R203, R207, R209). -/
def State.matrixDone (s : State) (k : Nat) : State :=
  let t := s.th k
  match t.mats.find? fun m => decide (m.issued + 144 ≤ t.scyc) with
  | none => s
  | some m =>
    (s.modTh k fun t =>
      let t := { t with mats := t.mats.filter fun x => x.cmd != m.cmd }
      if m.abandoned then t
      else t.setProg m.bank (progWord (t.cause m.bank) m.op 0 m.groups m.groups)).fire m.cmd

/-! ### Handles that land or resolve (05 R137, R138) -/

/-- The core whose instruction, translation and record caches an issuer uses; a command stream uses those of its die's sequencer,
numbered from 384 (DESIGN CHOICE, notes/assumptions/133). -/
def State.tcore (s : State) (k : Nat) : Nat := if isCs k then 384 + s.dieOf k else coreOf (partOf k)

/-- A handle captured from a leaf. -/
def Leaf.handle (l : Leaf) (va : Nat) : Handle :=
  { st := .valid, va, base := l.base, size := l.size, wr := l.wr, cow := l.cow, tens := l.tens }

/-- Whether the translation of va, and its record, stand in a core's caches (05 Table 5-4). -/
def State.translated (s : State) (core c va : Nat) (l : Leaf) : Bool :=
  (s.xcache.any fun e => e.1 == core && e.2.1 == c && e.2.2.1 == va / 4096 * 4096) &&
  (match l.tens with
   | none => true
   | some i => s.cached.contains (core, c, i))

/-- An XLAT that lands while its translation is cached becomes VALID at once (05 Table 5-4), unless what a later bundle landed
in the same cycle stands (03 R92). -/
def State.xlatLand (s : State) (k h va : Nat) : State :=
  let c := s.ctxOf k
  if (s.th k).h h ≠ { st := .pending, va } then s
  else match s.walk c (!isCs k) va with
    | none => s
    | some l => if s.translated (s.tcore k) c va l then s.modTh k fun t => t.setH h (l.handle va) else s

/-- A command stream's CRW of TMODE lands in its context (11 Table 11-6, 03 Table 3-26). -/
def State.landTmode (s : State) (k : Nat) (l : Land) : State :=
  match l with
  | .tmode v => s.modCtx (k - csBase) fun x => { x with tmode := fld v 1 0 }
  | _ => s

/-- Tickets that fire at a fixed latency fire at their SCYC (08 Table 8-2: CSTAT, RECV, RECVADD, CHST). -/
def State.fireDue (s : State) (k : Nat) : State :=
  let now := (s.th k).scyc
  { s with cmds := s.cmds.map fun m => if m.key == k && m.due.any (fun d => decide (d ≤ now)) then { m with st := .done } else m }

/-- RESULT_LAND for an issuer: everything due lands (03 R92), unless data is missing (R93). -/
def State.landThr (s : State) (k : Nat) : State :=
  let t := s.th k
  if t.frozen then s
  else
    let xs := (t.flight.filter fun f => decide (f.due ≤ t.scyc)).filterMap fun f => match f.land with
      | .xlat h va => some (h, va)
      | _ => none
    let s1 := xs.foldl (fun s x => s.xlatLand k x.1 x.2) (s.setTh k t.landDue)
    ((t.flight.filter fun f => decide (f.due ≤ t.scyc)).foldl (fun s f => s.landTmode k f.land) s1).fireDue k

end Sys2Proof.Machine
end

