-- ==== Sys2Proof/Machine/Trace.lean ====
section
/-! DEFINITION. Markers, stall trace, performance counters and occupancy (11 R326, 19 R478–R485). -/

namespace Sys2Proof.Machine

open Sys2Proof

/-- Whether a debug feature of 19 Table 19-1 is enabled: by token, or by the life-cycle fuses, which enable all features
in MANUFACTURE and DEVELOP and STOP, WREAD and TRACE in RETURN (20 R496). -/
def State.feature (s : State) (n : Nat) : Bool :=
  s.sys.debugOn.testBit n || decide (s.sys.lcsStage < 2) || (s.sys.lcsStage == 3 && (n == 0 || n == 1 || n == 4))

def cdbgBrkArm (w : W64) : Bool := w.getLsbD 1
def cdbgTren (w : W64) : Bool := w.getLsbD 2
def cdbgThr (w : W64) : Nat := fld w 51 32
def cdbgAll (w : W64) : Bool := w.getLsbD 52

/-- DRTH as loaded from CDBG (19 R479). -/
def drthOf (w : W64) : W64 := BitVec.ofNat 64 (b2n (cdbgAll w) * 2 ^ 20 + cdbgThr w)

/-- Writes an entry to a context's trace ring (19 R482). -/
def State.traceLog (s : State) (c w0 baddr w3 : Nat) : State :=
  let tb := (s.ctx c).trbase
  let base := fld tb 49 12 * 4096
  if s.violates true base then s else
  let n := 2 ^ (tb.toNat % 32)
  let tail := s.rd64 base
  let head := s.rd64 (base + 8)
  if tail < head + n then
    (s.agentWrite c (base + 0x40 + 32 * (tail % n))
      (bytesOf 8 ((tail + 1) % 2 ^ 32 * 2 ^ 32 + w0) ++ bytesOf 8 baddr ++ bytesOf 8 s.gcyc ++ bytesOf 8 w3)).agentWrite c
      base (bytesOf 8 (tail + 1))
  else s.agentWrite c (base + 16) (bytesOf 8 (s.rd64 (base + 16) + 1))

/-- Whether marker and stall trace are on for a context (19 Table 19-4). -/
def State.tracing (s : State) (c : Nat) : Bool := s.feature 4 && cdbgTren (s.ctx c).cdbg

/-- MARKER_DRIFT_LOG (19 R480, R481): a partition's committing marker computes its drift, logs it, and arms or disarms the stall
trace. -/
def State.marker (s : State) (k : Nat) (w : W32) (pc elap : Nat) : State :=
  let c := s.ctxOf k
  if isCs k then s
  else if !s.tracing c then if (s.th k).stallArmed then s.modTh k fun t => { t with stallArmed := false } else s
  else
    let t := s.th k
    let drift := sextI (wrapN ((elap : Int) - (w.toNat % 2 ^ 20 : Nat)) 20) 20
    let thr := fld t.drth 19 0
    let beyond := decide (drift.natAbs > thr)
    let s1 := if t.drth.getLsbD 20 || beyond then
        s.traceLog c (k % 4096 * 2 ^ 20 + bitsN w.toNat 31 20 * 256 + 1) pc (wrapN drift 64) else s
    s1.modTh k fun t => { t with stallArmed := beyond }

/-- STALL_TRACE_LOG (19 R481): a freeze or hold that ends while the trace is armed is logged. -/
def State.stallEnd (s : State) (k : Nat) : State :=
  let t := s.th k
  match t.held with
  | none => s
  | some cause =>
    let c := s.ctxOf k
    let s1 := if t.stallArmed && s.tracing c then
        s.traceLog c (k % 4096 * 2 ^ 20 + 2) t.pc ((s.gcyc - t.heldFrom) * 2 ^ 32 + cause) else s
    s1.modTh k fun t => { t with held := none, holdFrom := none, needs := [], chanHeld := none }

/-- A request of a partition or copy engine for a page (13 R380), counted on its core when the page-in starts at once; the core
has read the page's entry (13 R377). -/
def State.spAsk (s : State) (core part c key cl : Nat) : State :=
  let s := s.spCacheFill core c (key % 16384)
  let s1 := s.spRequest c (key % 16384) cl
  if (s.spPage c (key % 16384)).res == .absent && (s1.spPage c (key % 16384)).res != .absent then s1.pmcEvent core part 9 1 else s1

/-- What each cycle counts of a partition (19 Table 19-10): a task held, the matrix unit busy. -/
def State.pmcCycle (s : State) : State :=
  if s.pmsel.isEmpty then s
  else s.thr.foldl (fun s e =>
    let s1 := if e.2.task.isSome then s.pmcEvent (e.1 / 8) e.1 1 1 else s
    if e.2.scyc < e.2.matFree then s1.pmcEvent (e.1 / 8) e.1 6 1 else s1) s

/-- Adds the cycle's events to the counters; a wrap sets OVF (19 Table 19-8). -/
def State.pmcTick (s : State) : State :=
  { (s.pmcPend.filter fun e => !s.pmcSkip.contains e.1).foldl (fun s e =>
      let w := getD 0 s.pmc e.1
      let x := fld w 47 0 + e.2
      { s with pmc := putK s.pmc e.1 (BitVec.ofNat 64 ((if w.getLsbD 63 || decide (x ≥ 2 ^ 48) then 2 ^ 63 else 0) + x % 2 ^ 48)) }) s
    with pmcPend := [], pmcSkip := [] }

/-- Credits the cycle of a partition that holds a task to BUSY or STALL (11 R326). -/
def State.credit (s : State) (p : Nat) (busy : Bool) : State :=
  let o := getD {} s.occ p
  let o' := if busy then { o with busy := satAdd 64 o.busy 1 } else { o with stall := satAdd 64 o.stall 1 }
  { s with occ := putK s.occ p o' }

end Sys2Proof.Machine
end

