-- ==== Sys2Proof/Machine/RegRead.lean ====
section
/-! DEFINITION. The save-slot image, and what the registers of the package control space read (10 R285; 12 Tables 12-3, 12-4,
12-17 to 12-20; 17, 19 and 20). -/

namespace Sys2Proof.Machine

open Sys2Proof

/-- What a result in flight latches, as numbers. -/
def Land.latch : Land → List Nat
  | .s i x e => [0, i, x.toNat, b2n e]
  | .v i x k e => [1, i, x.toNat, k.toNat, b2n e]
  | .p i x => [2, i, b2n x]
  | .preds x => [3, x.toNat]
  | .stages x => [4, x.toNat]
  | .m i x k => [5, i, x.toNat, k.toNat]
  | .bank i x e => [6, i, (e.map b2n).getD 2] ++ x.flatMap fun r => [r.1, r.2.toNat]
  | .bankRow i r x => [7, i, r, x.toNat]
  | .bankCol i r x => [8, i, r, x.toNat]
  | .bankPsn i x => [9, i, b2n x]
  | .xlat h x => [10, h, x]
  | .hrel h => [11, h]
  | .ctl c x => [12, c.ctorIdx, x.toNat]
  | .tmode x => [13, x.toNat]
  | .barbRot r => [14, r]
  | .rule i r => [15, i, r.first, r.count, r.stride.toNat]
  | .wait q => [16, q]

/-- A latch and its remaining latency (12 R518, 19 R475). -/
def Flight.latch (scyc : Nat) (f : Flight) : List Nat := (f.due - scyc) :: b2n f.entry :: f.land.latch

/-- The full save slot of a partition (12 Table 12-11); how its result and landing records hold the latches is not given
(12 R518). -/
def State.slotImage (s : State) (c p : Nat) : List Byte :=
  let t := s.th p
  s.parkImage p (t.mode == .parked || t.savedMode == .parked) ++ List.replicate 0x200 0 ++
  ((List.range 60).flatMap fun i => bytesOf 256 (t.vPhys i).toNat) ++ List.replicate 0xC00 0 ++
  ((List.range 4).flatMap fun b => (List.range 64).flatMap fun i => bytesOf 256 ((t.bank b).row i).toNat) ++
  ((List.range 0x15800).map fun i => Config.savedRecord ([c * 4096 + p] :: t.flight.map (Flight.latch t.scyc)) (0x15000 + i)) ++ List.replicate 0x800 0

/-- The code of a context's state (12 Table 12-4). -/
def CtxSt.code : CtxSt → Nat
  | .free => 0
  | .resident => 1
  | .running => 2
  | .saving => 3
  | .halted => 4

/-- Debug features the fuses enable (20 R496, 19 Table 19-1). -/
def State.fuseFeatures (s : State) : Nat := if s.sys.lcsStage < 2 then 0x3F else if s.sys.lcsStage = 3 then 0x13 else 0

/-- DCTL (19 Table 19-2). -/
def State.dctl (s : State) (p : Nat) : Nat :=
  let t := s.th p
  t.dbg.brkid % 65536 * 2 ^ 24 + t.dbg.cause % 16 * 2 ^ 20 +
    (if t.dbg.step then 2 else if t.dbg.stopped then 1 else 0) * 64 + b2n (t.mode == .parked) * 32

/-- CDBG, the fields of a disabled feature reading zero (19 R470, Table 19-4). -/
def State.cdbgWord (s : State) (c : Nat) : Nat :=
  let w := (s.ctx c).cdbg
  fld w 52 32 * 2 ^ 32 + b2n (s.feature 4 && w.getLsbD 2) * 4 + b2n (s.feature 3 && w.getLsbD 1) * 2

/-- Whether a partition's window is open (19 R475). -/
def State.windowOpen (s : State) (p : Nat) : Bool := (s.th p).dbg.stopped || (s.th p).mode == .parked

/-- The first word of the tenant slot, and its quota (20 Table 20-6). -/
def State.tenantSlot (s : State) (n : Nat) : Option Tenant := s.tenants.find? fun x => x.slot == n

/-- The 8-byte word of the control space at an offset.  An offset where the spec places no register reads zero, but for the dies'
counters of corrected errors, which stand where the spec does not say (10 R295; DESIGN CHOICE, notes/assumptions/86). -/
def State.ctlWord (s : State) (off : Nat) : Nat :=
  if off < 0x400 then
    let x := s.ctx (off / 16)
    if off % 16 = 0 then x.cdesc.toNat
    else x.err * 2 ^ 16 + b2n x.busy * 2 ^ 15 + x.st.code * 2 ^ 12 + x.die * 256
  else if off < 0x800 then
    let c := (off - 0x400) / 16
    if off % 16 = 0 then s.cdbgWord c else if s.feature 4 then (s.ctx c).trbase.toNat else 0
  else if off = 0x1000 then s.fab.fabid
  else if 0x2000 ≤ off ∧ off < 0x2800 then boolBits 64 fun i => s.fab.unrch.contains ((off - 0x2000) * 8 + i)
  else if off = 0x3000 then s.sys.hltol
  else if 0x4000 ≤ off ∧ off < 0x40C8 then b2n ((getD {} s.links ((off - 0x4000) / 8)).st != 0)
  else if off = 0x5000 then b2n (s.feature 3 && s.sys.dlPending.isSome)
  else if 0x5040 ≤ off ∧ off < 0x5080 then
    if s.feature 3 then ofBytes ((List.range 8).map fun i => getD 0 s.sys.dlData (off - 0x5040 + i)) else 0
  else if off = 0x6000 then ofBytes (s.sys.dnonce.take 8)
  else if off = 0x6008 then s.sys.dunlk
  else if off = 0x7000 then b2n s.sys.lcsReady * 256 + s.fuseFeatures
  else if off = 0x7008 then s.sys.lcsStage
  else if off = 0x7800 then s.sys.plim.toNat
  else if off = 0x7808 then s.sys.throt * 2 ^ 32 + s.sys.meanw % 65536 * 2 ^ 16 + s.sys.frac
  else if off = 0x8000 then s.sys.fwqbase.toNat
  else if off = 0x8008 then s.sys.fwqcnt.toNat
  else if off = 0x8010 then s.sys.fwlbase.toNat
  else if off = 0x8018 then s.sys.fwlcnt.toNat
  else if 0x9000 ≤ off ∧ off < 0x9400 then if off % 16 = 0 then (s.ctx ((off - 0x9000) / 16)).tmode else 0
  else if 0xA000 ≤ off ∧ off < 0xE000 then
    match s.tenantSlot ((off - 0xA000) / 64) with
    | none => 0
    | some x => if off % 64 = 0 then x.reg.toNat else if off % 64 = 8 then x.quota else 0
  else if 0x10000 ≤ off ∧ off < 0x11000 then ofBytes ((List.range 8).map fun i => getD 0 s.sys.dtok (off - 0x10000 + i))
  else if 0x100000 ≤ off ∧ off < 0x10C000 then
    if off % 16 = 0 ∧ s.feature 0 then s.dctl ((off - 0x100000) / 16) else 0
  else if 0x200000 ≤ off ∧ off < 0x218000 then
    let core := (off - 0x200000) / 256
    let n := off % 256 / 8
    if !s.feature 5 then 0
    else if n < 16 then (getD 0 s.pmc (core * 16 + n)).toNat else (getD 0 s.pmsel (core * 16 + (n - 16))).toNat
  else if 0x1000000 ≤ off ∧ off < 0x1020000 then (getD 0 s.fab.routes ((off - 0x1000000) / 8)).toNat
  else if 0x40000000 ≤ off ∧ off < 0x70000000 then
    let p := (off - 0x40000000) / 0x40000
    let o := off % 0x40000
    if s.feature 1 && s.windowOpen p && decide (o < 0x2B000) then ofBytes (((s.slotImage (s.ctxOf p) p).drop o).take 8) else 0
  else match (List.range 4).find? fun die => Config.correctedAt die == off with
    | some die => getD 0 s.corrected die
    | none => 0

/-- n bytes of the control space. -/
def State.ctlBytes (s : State) (pa n : Nat) : List Byte :=
  (List.range n).map fun i =>
    let o := pa - ctlBase + i
    BitVec.ofNat 8 (s.ctlWord (o / 8 * 8) >>> (8 * (o % 8)))

/-- n bytes at a physical address: of the control space, its registers; else memory. -/
def State.physBytes (s : State) (pa n : Nat) : List Byte :=
  if physClass pa = .control then s.ctlBytes pa n else rdBytes s.mem pa n

end Sys2Proof.Machine
end

