-- ==== Sys2Proof/Machine/Issue.lean ====
section
/-! DEFINITION. The issue of a bundle (03 R66–R96): checks, faults, holds, commit. -/

namespace Sys2Proof.Machine

open Sys2Proof

/-- A slot of a bundle: its position, its word, and what its word is; none for a word that is no instruction there. -/
structure Slot where
  pos : Nat
  word : W32
  op : Option SlotOp

/-! ### Bundle checks (03 R86 step 1) -/

/-- Whether two slots name one register as a destination, or one bank (03 R72). -/
def namesClash (l : List SlotOp) : Bool :=
  match l with
  | [] => false
  | o :: r =>
    (r.any fun q => (o.dsts.any fun d => d.counts && q.dsts.contains d) || o.banks.any fun b => q.banks.contains b) ||
    namesClash r

/-- Whether a slot writes a register the selected rule steps (03 R72). -/
def auClash (r : Rule) (l : List SlotOp) : Bool :=
  l.any fun o => o.dsts.any fun d => match d with
    | .s n => decide (r.first ≤ n) && decide (n < r.first + r.count)
    | _ => false

/-- Whether a slot writes a stage predicate (03 R72). -/
def stageClash (l : List SlotOp) : Bool :=
  l.any fun o => o.dsts.any fun d => match d with
    | .p n => decide (8 ≤ n)
    | _ => false

/-- The illegal-bundle conditions (03 R66, R68, R72–R75, R84).  `crosses`: the bundle would leave its line.  An illegal word of
a known instruction names what its fields name; a word of an unassigned major, or of a G0-only one at G1, names nothing
(DESIGN CHOICE, notes/assumptions/99). -/
def bundleBad (t : Thr) (cs : Bool) (h : Header) (crosses : Bool) (slots : List Slot) : Bool :=
  let ops := slots.filterMap Slot.op
  let rule := t.rules.find? fun e => e.1 == h.au
  h.rsv != 0 || crosses || namesClash ops ||
  (!h.be && ops.any fun o => o.srcV.contains 60) ||
  (h.au != 0 && match rule with
    | none => true
    | some r => auClash r.2 ops) ||
  (h.rt && (t.rotLoop.isNone || stageClash ops)) ||
  (cs && (h.mask / 8 % 8 != 0 || h.be || h.vj || h.rt))

/-! ### Slot faults (03 R86 step 2, 05 R164, 07 R216, 08 R254) -/

/-- Whether the bundle issues as a delay bundle (04 R116). -/
def Thr.inDelay (t : Thr) : Bool := t.pend.isSome

/-- Whether the bundle at an address is the top entry's end bundle (04 R121). -/
def Thr.atEnd (t : Thr) : Bool := match t.loops.head? with
  | some e => e.stop == t.pc
  | none => false

/-- A poisoned source register or bank (05 R162, 06 R170, 07 R211). -/
def SlotOp.poisoned (o : SlotOp) (c : IC) : Bool :=
  (o.srcS.any c.t.sBad) || (o.srcV.any (vSourceBad c.t c.h)) || o.srcB.any c.t.bBad

/-- Whether a slot is an illegal instruction where it stands (03 R83, R84, R89). -/
def slotIllegal (c : IC) (op : Option SlotOp) : Bool :=
  match op with
  | none => true
  | some o => !o.legal || o.ill c || (o.whr = .partOnly && isCs c.k)

/-- Illegal-instruction and privilege, judged before the guard (03 R84–R86). -/
def slotStatic (c : IC) (op : Option SlotOp) : Option SF :=
  if slotIllegal c op then some ⟨2, c.word.toNat, 0⟩
  else match op with
    | none => none
    | some o =>
      if (o.whr = .csOnly && !isCs c.k) || (o.whr = .firmware && !c.s.firmware c.k) then some ⟨3, c.word.toNat, 0⟩
      else none

/-- The faults of a slot whose guard is true, up to the holds. -/
def slotEarly (c : IC) (o : SlotOp) : Option SF :=
  if o.sched c || (c.t.inDelay && o.xfer c) || (c.t.atEnd && o.endBad c) then some ⟨4, c.word.toNat, 0⟩
  else if o.poisoned c then some ⟨7, 0, 0⟩
  else o.chk c

/-- A purity violation where the context makes it a fault (11 R329, R330). -/
def purityFault (c : IC) (o : SlotOp) : Option SF :=
  match c.t.task with
  | some k =>
    if k.pure && bitN (c.s.ctx c.cx).tmode 0 then (o.impure c).map fun a => ⟨22, a, 0⟩ else none
  | none => none

/-- The faults of a slot before the holds.  The orders of G and E slots have no hold among them (06 R195), so their purity
faults stand here (03 R86 step 4). -/
def slotPre (c : IC) (op : Option SlotOp) : Option SF :=
  match slotStatic c op with
  | some f => some f
  | none => match op with
    | none => none
    | some o =>
      if !o.on c.t then none
      else match slotEarly c o with
        | some f => some f
        | none => if c.pos = 0 ∨ c.pos = 1 ∨ c.pos = 3 ∨ c.pos = 4 then purityFault c o else none

/-- The faults of a slot after the holds. -/
def slotPost (c : IC) (op : Option SlotOp) : Option SF :=
  match op with
  | none => none
  | some o =>
    if o.on c.t then match o.post c with
      | some f => some f
      | none => purityFault c o
    else none

/-- The first fault of a slot; with `all` the steps after the holds are judged too. -/
def slotFault (c : IC) (op : Option SlotOp) : Option SF :=
  match slotPre c op with
  | some f => some f
  | none => slotPost c op

/-- The faults of a bundle's slots, in ascending position. -/
def faultsOf (mk : Slot → IC) (f : IC → Option SlotOp → Option SF) (slots : List Slot) : List (Nat × SF) :=
  slots.filterMap fun x => (f (mk x) x.op).map fun y => (x.pos, y)

/-- SLOTS of a record (12 Table 12-7). -/
def slotsWord (l : List (Nat × SF)) : Nat := l.foldl (fun acc e => acc + e.2.code * 2 ^ (6 * e.1)) 0

/-! ### Holds (03 R93) -/

/-- The hold of a slot with a true guard and its cause (19 R481). -/
def slotHold (c : IC) (op : Option SlotOp) : Option Nat :=
  match op with
  | none => none
  | some o =>
    if !o.on c.t then none
    else match o.hold c with
      | some x => some x
      | none => if (c.s.spMissing c.cx (clusterOf c.k) (o.spRuns c)).isEmpty then none else some 4

/-- What the held slots ask for: the pages they lack of the pager, and their own watches.  The bundle needs every page its
slots access until it issues (13 R379). -/
def holdAsk (mk : Slot → IC) (slots : List Slot) (s : State) : State :=
  slots.foldl (fun s x => match x.op with
    | none => s
    | some o =>
      let c := mk x
      if !o.on c.t then s
      else
        let miss := c.s.spMissing c.cx (clusterOf c.k) (o.spRuns c)
        let all := (o.spRuns c).flatMap fun r => pagesOf c.cx r.1 r.2
        let s1 := s.modTh c.k fun t => { t with needs := (t.needs ++ all).dedup, holdFrom := some (t.holdFrom.getD s.gcyc) }
        o.onHold c (miss.foldl (fun s x => s.spAsk (coreOf c.k) c.k c.cx x (clusterOf c.k)) s1)) s

/-- A freeze or hold of another cause ends and is traced; the due bundle's hold goes on (19 R481). -/
def State.turnStall (s : State) (k cause : Nat) : State :=
  let t := s.th k
  if t.held.isNone || t.held == some cause then s
  else (s.stallEnd k).modTh k fun u => { u with needs := t.needs, holdFrom := t.holdFrom, chanHeld := t.chanHeld }

/-- A cycle in which an issuer is frozen or held: SCYC holds, the elapsed count runs (03 R94, 19 R480). -/
def State.holdCycle (s : State) (k cause : Nat) : State :=
  let s := s.turnStall k cause
  let t := s.th k
  let s1 := s.modTh k fun t => { t with
    held := some cause, heldFrom := if t.held.isSome then t.heldFrom else s.gcyc
    holdFrom := if cause = 1 ∨ cause = 8 then t.holdFrom else some (t.holdFrom.getD s.gcyc)
    elap := if t.dbg.step then t.elap else t.elap + 1 }
  if isCs k then s1
  else
    let ev := if cause = 1 then 4 else if cause = 8 then 14 else 5
    let s2 := s1.pmcEvent (coreOf k) k ev 1
    if t.task.isSome then s2.credit k false else s2

/-! ### Commit (03 R71, R74–R77, 04 R121) -/

/-- ADDRESS_UPDATE (03 R74): the rule's registers receive their stepped values at +1, their poison flags kept. -/
def auStep (k au : Nat) (old : Thr) (s : State) : State :=
  match old.rules.find? fun e => e.1 == au with
  | none => s
  | some (_, r) => forN r.count s fun i s => s.fly k 1 (.s (r.first + i) (old.s (r.first + i) + r.stride) (old.sBad (r.first + i)))

/-- The stage enables at a rotation count (03 R75). -/
def stageBits (rotn n : Nat) : BitVec 8 :=
  BitVec.ofNat 8 (boolBits 8 fun k => decide (k ≤ rotn) && decide (rotn - k < n))

/-- STAGE_ROTATION (03 R75): one rotation, which a loop of W = 0 counts too (DEDUCED, notes/assumptions/134); BARB.ROT advances
unless a CRW of BARB stands in the bundle (04 R122). -/
def rotate (k : Nat) (old : Thr) (crwBarb : Bool) (s : State) : State :=
  match old.rotLoop with
  | none => s
  | some e =>
    let r := (old.rotn + 1) % 2 ^ 64
    let s1 := (s.modTh k fun t => { t with rotn := r }).fly k 1 (.stages (stageBits r e.n))
    let depth := fld old.bard 3 0
    if depth = 0 ∨ crwBarb then s1 else s1.fly k 1 (.barbRot ((fld old.barb 3 0 + 1) % depth))

/-- LOOP_END_CHECK (04 R121) at the end bundle's commit: `fuel` bounds the entries that share the address. -/
def endCheck (k stop next fuel : Nat) (s : State) : State :=
  match fuel with
  | 0 => s
  | fuel + 1 =>
    let t := s.th k
    match t.loops with
    | [] => s.setTh k { t with pc := next }
    | e :: r =>
      if e.stop ≠ stop then s.setTh k { t with pc := next }
      else if e.index + 1 < e.trips then
        s.setTh k { t with loops := { e with index := e.index + 1 } :: r, pc := e.start }
      else
        let s1 := s.setTh k { t with loops := r, rotn := if e.rot then 0 else t.rotn, pc := next }
        let s2 := if e.rot then s1.fly k 1 (.stages 0) else s1
        endCheck k stop next fuel s2

/-- The effects of a committing bundle's slots, in ascending position. -/
def commitSlots (mk : Slot → IC) (slots : List Slot) (s : State) : State :=
  slots.foldl (fun s x => match x.op with
    | none => s
    | some o => if o.on (mk x).t then o.eff (mk x) s else s) s

/-- Whether a committing slot violates purity as an event (11 R330). -/
def impureSlots (mk : Slot → IC) (slots : List Slot) : Bool :=
  slots.any fun x => match x.op with
    | none => false
    | some o => o.on (mk x).t && (o.impure (mk x)).isSome

/-- A task meant to be pure becomes impure where `imp` (11 R330); its entry in the dependence table says so too, for a FIN in
the same bundle or an end that is no FIN (11 R317). -/
def State.taint (s : State) (k : Nat) (imp : Bool) : State :=
  match (s.th k).task with
  | none => s
  | some j =>
    if j.pure && imp then
      { s.modTh k fun t => { t with task := t.task.map fun j => { j with impure := true } } with
        tasks := s.tasks.map fun x => if x.ctx == s.ctxOf k && x.count == j.count then { x with impure := true } else x }
    else s

/-- The start of a commit: a stall that ends is traced (19 R481), the program counter passes the bundle's `n` bytes
(03 R71), and SRSTATE passes the bundle's draws (02 R60). -/
def State.advance (s : State) (k n draws : Nat) : State :=
  let pc := (s.th k).pc
  (s.stallEnd k).modTh k fun t =>
    { t with pc := (pc + n) % 2 ^ 52, told := false, srstate := if draws = 0 then t.srstate else srAfter t.srstate draws }

/-- The loop-end check of a commit (04 R121): `old` is the issuer before the commit; a delay bundle makes none.  It is made on
the stack the bundle's own LOOP, LOOPR or LBRK leaves (DESIGN CHOICE, notes/assumptions/102). -/
def State.loopEnd (s : State) (k : Nat) (old : Thr) : State :=
  if old.inDelay then s
  else match (s.th k).loops.head? with
    | some e => if e.stop = old.pc then endCheck k old.pc (s.th k).pc 7 s else s
    | none => s

/-- SCYC and the elapsed count advance (03 R94, 19 R480). -/
def State.count (s : State) (k : Nat) : State :=
  s.modTh k fun t => { t with scyc := (t.scyc + 1) % 2 ^ 64, elap := t.elap + 1 }

/-- What a partition's counters record of a bundle that committed with n true guards (11 R326, 19 R485). -/
def State.tally (s : State) (k n : Nat) : State :=
  if isCs k then s else ((s.pmcEvent (coreOf k) k 2 1).pmcEvent (coreOf k) k 3 n).credit k true

/-- The number of slots with a true guard. -/
def onCount (t : Thr) (slots : List Slot) : Nat :=
  (slots.filter fun x => match x.op with
    | none => false
    | some o => o.on t).length

/-- TRAP of a committing bundle: its code and S(D) (04 R129). -/
def trapOf (mk : Slot → IC) (slots : List Slot) : Option (Nat × Nat) :=
  firstSome slots fun x => match x.op with
    | none => none
    | some o => if o.on (mk x).t then (o.stop (mk x)).map fun v => (v / 2 ^ 64, v % 2 ^ 64) else none

/-- The draws of the slots with a true guard among a list (02 R60). -/
def drawsOf (t : Thr) (mk : Slot → IC) (slots : List Slot) : Nat :=
  slots.foldl (fun n y => match y.op with
    | none => n
    | some o => if o.on t then n + o.draws (mk y) else n) 0

/-- A bundle that commits: the program counter, RT, VJ, slot effects, AU, MK, the loop-end check, SCYC (03 R71).  RT
applies before a loop exit clears what it set (04 R122).  The join publishes what stands before the bundle: the accesses of its
own slots are on neither side (03 R76); where its store meets an earlier unjoined write the store stands (DESIGN CHOICE,
notes/assumptions/135). -/
def State.commit (s : State) (k : Nat) (h : Header) (marker : Option W32) (slots : List Slot) (mk : Slot → IC) : State :=
  let old := s.th k
  let s0 := s.advance k (4 * h.words) (drawsOf old mk slots)
  let s1 := if h.rt then rotate k old (slots.any fun x => match x.op with
    | none => false
    | some o => o.barb && o.on old) s0 else s0
  let s2 := commitSlots mk slots (if h.vj then s1.join k else s1)
  let s4 := if h.au = 0 then s2 else auStep k h.au old s2
  let s5 := match marker with
    | some w => s4.marker k w old.pc old.elap
    | none => s4
  (((s5.loopEnd k old).taint k (impureSlots mk slots)).count k).tally k (onCount old slots)

/-- The bank and the bundle address of a stopped multiply-accumulate, named by its command (12 Table 12-10). -/
def Thr.stoppedMat (t : Thr) (cmd baddr : Nat) : Nat × Nat :=
  match t.mats.find? fun m => m.cmd == cmd with
  | some m => (m.bank, m.baddr)
  | none => (0, baddr)

/-- Forms the record of a TRAP (04 R129, 12 Table 12-10) beside another stop of the same bundle. -/
def State.trapRecord (s : State) (k baddr : Nat) (trap : Option (Nat × Nat)) : State :=
  match trap with
  | none => s
  | some (code, v) =>
    s.post { id := 0, src := k, ctx := s.ctxOf k, kind := 2, srcCode := 0, idField := k, baddr, scyc := (s.th k).scyc,
             det0 := code, det1 := v, loops := loopIdxs (s.th k) }

/-- What stops an issuer after a commit: TRAP (04 R129), a MATRIX stop (07 R206), a debug step (19 R473).  Where a TRAP bundle
is the one due at a MATRIX stop, the one stop forms both records (notes/assumptions/110). -/
def State.afterCommit (s : State) (k baddr : Nat) (trap : Option (Nat × Nat)) : State :=
  match (s.th k).matStop with
  | some (g, cause, cmd) =>
    let b := (s.th k).stoppedMat cmd baddr
    (s.trapRecord k baddr trap).takePark k 3 b.2 0 (b.1 + 16 * g + 256 * cause) baddr false false (cause == 1)
  | none =>
    match trap with
    | some (code, v) => s.take k 2 baddr 0 code v false false
    | none =>
      let t := s.th k
      if t.dbg.step then s.modTh k fun t => { t with dbg := t.dbg.stepped } else s

/-- A bundle that faults: the exception is taken with its record (12 R341, R349); a MATRIX stop at that SCYC makes it one
record of kind MATRIX (12 Table 12-10).  The cycle is a STALL of a partition (11 R326). -/
def State.bundleFault (s : State) (k baddr : Nat) (fs : List (Nat × SF)) : State :=
  let s := s.stallEnd k
  let s := if isCs k then s else s.credit k false
  let fetch := fs.any fun f => f.2.code == 24
  match (s.th k).matStop, fs with
  | some (g, cause, cmd), _ =>
    let b := (s.th k).stoppedMat cmd baddr
    s.takePark k 3 b.2 (slotsWord fs) (b.1 + 16 * g + 256 * cause) baddr true fetch (cause == 1)
  | none, (p, f) :: _ =>
    s.take k 1 baddr (slotsWord fs) f.det (p + 256 * f.hx) true fetch
  | none, [] => s

/-- A BRK with a true guard at position 0 (19 R477). -/
def brkOf (mk : Slot → IC) (slots : List Slot) : Option Nat :=
  firstSome slots fun x => match x.op with
    | none => none
    | some o => if o.legal && o.on (mk x).t then o.brk else none

/-- The circumstances of a slot of a bundle. -/
def slotIC (s : State) (k : Nat) (h : Header) (slots : List Slot) (x : Slot) : IC :=
  let base (y : Slot) : IC := { s, k, h, pos := y.pos, word := y.word }
  { base x with drawn := drawsOf (s.th k) base (slots.filter fun y => y.pos < x.pos) }

/-- Issues a bundle of issuer k whose words are at hand, its cycle already begun (03 R71, R86).  BRK stops a partition where it is
armed; a command stream's faults whether or not (DESIGN CHOICE, notes/assumptions/136). -/
def State.issueBegun (s : State) (k : Nat) (h : Header) (marker : Option W32) (slots : List Slot) : State :=
  let t := s.th k
  let mk := slotIC s k h slots
  let crosses := decide (t.pc % 64 + 4 * h.words > 64)
  if bundleBad t (isCs k) h crosses slots then s.bundleFault k t.pc [(0, ⟨1, h.word.toNat, 0⟩)]
  else if t.inDelay && t.atEnd then s.bundleFault k t.pc [(0, ⟨4, h.word.toNat, 0⟩)]
  else match brkOf mk slots with
    | some id =>
      let armed := !isCs k && s.feature 3 && cdbgBrkArm (s.ctx (s.ctxOf k)).cdbg
      let fs := (if armed then [] else [(0, (⟨23, id, 0⟩ : SF))]) ++
        faultsOf mk (fun c op => if slotIllegal c op then some ⟨2, c.word.toNat, 0⟩ else none) slots
      if fs.isEmpty then
        ((s.stallEnd k).modTh k fun t => { t with dbg := { t.dbg with stopped := true, cause := 2, brkid := id, step := false } }).credit k false
      else s.bundleFault k t.pc fs
    | none =>
      let pre := faultsOf mk slotPre slots
      if !pre.isEmpty then s.bundleFault k t.pc (faultsOf mk slotFault slots)
      else match firstSome slots (fun x => slotHold (mk x) x.op) with
        | some cause => (holdAsk mk slots s).holdCycle k cause
        | none =>
          let post := faultsOf mk slotPost slots
          if !post.isEmpty then s.bundleFault k t.pc post
          else (s.commit k h marker slots mk).afterCommit k t.pc (trapOf mk slots)

/-- Whether the throttle withholds a partition in this cycle (20 R490). -/
def State.withheld (s : State) (k : Nat) : Bool :=
  !isCs k && s.sys.frac != 0 && decide ((k + Config.rotation s.gcyc) % 64 < s.sys.frac)

/-- An issuer has its turn of the cycle. -/
def State.took (s : State) (k : Nat) : State := { s with turn := s.turn.filter fun j => j != k }

/-- A partition releases its task (04 R128 step 2): what the task leaves behind goes under a key of its own. -/
def State.release (s : State) (k : Nat) : State :=
  let c := s.ctxOf k
  let g := goneKey c k
  let mine := (s.cmds.filter fun m => m.key == k).map Cmd.id
  let s1 := s.modTh k fun t => { t with mode := .idle, task := none, lastCtx := some c, dbg := { t.dbg with step := false } }
  { s1 with
    cmds := s1.cmds.map fun m => if m.key == k then { m with key := g } else m
    reqs := s1.reqs.map fun r => if r.key == k then { r with key := g } else r
    tasks := match (s.th k).task with
      | none => s1.tasks
      | some j => s1.tasks.map fun x => if x.ctx == c && x.count == j.count then { x with released := true, after := s.nextId, produced := mine } else x }

/-- A partition whose task has committed FIN: what is in flight lands, SCYC runs on, and the partition is released when
nothing is left (04 R128). -/
def State.finishCycle (s : State) (k : Nat) : State :=
  let t := s.th k
  if s.withheld k then s.holdCycle k 8
  else if t.frozen then s.holdCycle k 1
  else
    let s1 := (s.landThr k).matrixDone k
    if !(s1.matMissing k).isEmpty then
      ((s1.matMissing k).foldl (fun s x => s.spAsk (coreOf k) k (s.ctxOf k) x (clusterOf k)) s1).holdCycle k 4
    else
      let s2 := (s1.matrixStep k).stallEnd k
      let t2 := s2.th k
      if t2.flight.isEmpty && t2.mats.isEmpty && t2.xfers.isEmpty then
        s2.release k
      else
        (((s2.modTh k fun t => { t with scyc := (t.scyc + 1) % 2 ^ 64, elap := t.elap + 1 }).credit k true).afterCommit k t2.pc none)

/-- One cycle of an issuer: withheld, frozen, the empty cycle of a loop not entered, or `issue`.  A debug step that meets the
empty cycle goes on to one bundle (DESIGN CHOICE, notes/assumptions/100). -/
def State.cycle (s : State) (k : Nat) (issue : State → State) : State :=
  let s := s.took k
  let t := s.th k
  if t.mode = .finishing ∧ t.dbg.stopped = false then s.finishCycle k
  else if t.mode ≠ .running ∨ t.dbg.stopped then
    if !isCs k && t.task.isSome then s.credit k false else s
  else if s.withheld k then s.holdCycle k 8
  else if t.frozen then s.holdCycle k 1
  else
    let s1 := (s.landThr k).matrixDone k
    if !(s1.matMissing k).isEmpty then
      ((s1.matMissing k).foldl (fun s x => s.spAsk (coreOf k) k (s.ctxOf k) x (clusterOf k)) s1).holdCycle k 4
    else
      let s2 := s1.matrixStep k
      if (s2.th k).empty then
        let s3 := s2.modTh k fun t => { t with scyc := (t.scyc + 1) % 2 ^ 64, elap := t.elap + 1 }
        let s4 := if isCs k then s3 else s3.credit k true
        if (s2.th k).matStop.isSome then s4.afterCommit k (s2.th k).pc none else s4
      else issue s2

/-- One cycle of issuer k in which a bundle with these words is the next bundle. -/
def State.issueBundle (s : State) (k : Nat) (h : Header) (marker : Option W32) (slots : List Slot) : State :=
  s.cycle k fun s => s.issueBegun k h marker slots

/-- The current issuer issues the plain bundle of one slot: what the meaning of every slot instruction is. -/
def issueOne (pos : Nat) (word : W32) (o : SlotOp) (s : State) : Host.Outcome State Fault Refusal :=
  .next (s.issueBundle s.cur (Header.one pos) none [{ pos, word, op := some o }])

end Sys2Proof.Machine
end

