-- ==== Sys2Proof/Machine/Fetch.lean ====
section
/-! DEFINITION. Instruction fetch and code addresses (03 R67, R68, 04 R115, R132, 10 R301). -/

namespace Sys2Proof.Machine

open Sys2Proof

/-- The physical address of a code address that an issuer may execute (13 R369); none is a fetch fault. -/
def State.codePa (s : State) (k va : Nat) : Option Nat :=
  if va ≥ 2 ^ 52 then none
  else match s.walk (s.ctxOf k) (!isCs k) va with
    | none => none
    | some l => if l.x then some (l.base + va % l.size) else none

/-- A line of a core's L1 instruction cache. -/
def State.icLine (s : State) (core line : Nat) : Option (List Byte) :=
  (s.icache.find? fun e => e.1 == core && e.2.1 == line).map fun e => e.2.2

/-- The line that holds a code address, as the issuer would fetch it: from its instruction cache, else from memory. -/
def State.codeLine (s : State) (k va : Nat) : Option (List Byte) :=
  (s.codePa k va).map fun pa => (s.icLine (s.tcore k) (pa / 64)).getD (rdBytes s.mem (pa / 64 * 64) 64)

/-- The word at an offset of a line. -/
def wordAt (l : List Byte) (off : Nat) : Nat := ofBytes ((l.drop off).take 4)

/-- Bytes of the bundle with this header word (03 R67). -/
def bundleBytes (w : Nat) : Nat := 4 * (Header.mk (BitVec.ofNat 32 w)).words

/-- Whether a walk of bundle lengths from offset `off` of a line reaches `tgt` (03 R68). -/
def reaches (l : List Byte) (off tgt fuel : Nat) : Bool :=
  match fuel with
  | 0 => false
  | f + 1 =>
    if off = tgt then true
    else if tgt < off then false
    else reaches l (off + bundleBytes (wordAt l off)) tgt f

/-- A target that raises a misaligned-target fault (03 R68, 04 R115).  A target whose page is not mapped executable
faults only when it is fetched. -/
def State.targetBad (s : State) (k va : Nat) : Bool :=
  va % 4 != 0 || decide (va ≥ 2 ^ 52) ||
  match s.codeLine k va with
  | none => false
  | some l => !reaches l 0 (va % 64) 17

/-- The address after the bundle at va (03 R67).  Where the bundle cannot be fetched its length is not known, and the
header is a free value. -/
def State.bundleAfter (s : State) (k va : Nat) : Nat :=
  let w := match s.codeLine k va with
    | some l => wordAt l (va % 64)
    | none => Config.unfetchedWord va
  (va + bundleBytes w) % 2 ^ 52

/-! ### Scopes (10 Table 10-4) -/

/-- The die of a core; a command stream's caches are numbered 384 + die. -/
def dieOfCore (c : Nat) : Nat := if c < 384 then c / 96 else c - 384

/-- Whether a core lies within a scope of an issuer. -/
def State.coreIn (s : State) (k scope core : Nat) : Bool :=
  if scope ≤ 1 then core == s.tcore k
  else if scope = 2 then if isCs k then dieOfCore core == s.dieOf k else decide (core < 384) && core / 4 == clusterOf k
  else if scope = 3 then dieOfCore core == s.dieOf k
  else true

/-- The core an agent belongs to: a partition's, or that of the copy engine a copy runs on. -/
def State.agentCore (s : State) (j : Nat) : Option Nat :=
  if j < csBase then some (coreOf j)
  else (s.cmds.find? fun m => engKey m.id == j && m.pos == 6 && decide (m.major < 4)).map Cmd.runner

/-- The die of an agent. -/
def State.agentDie (s : State) (j : Nat) : Nat :=
  match s.agentCore j with
  | some core => core / 96
  | none => if isCs j then s.dieOf j else ((s.cmds.find? fun m => engKey m.id == j).map Cmd.runner).getD 0

/-- Whether agent j lies within a scope of agent k (10 Table 10-4). -/
def State.within (s : State) (k scope j : Nat) : Bool :=
  if j = k ∨ 5 ≤ scope then true
  else if j = hostKey then false
  else if scope = 4 then true
  else if scope = 0 || (isCs k && scope = 1) then false
  else if isCs k || scope = 3 then s.agentDie j == s.agentDie k
  else if scope = 1 then s.agentCore j == some (coreOf k) else (s.agentCore j).map (· / 4) == some (clusterOf k)

/-- Whether a core that a shootdown has already reached would walk through its line (13 R371, R372): the walk waits. -/
def State.shooting (s : State) (core c va : Nat) : Bool :=
  s.shoot.any fun e => s.shootDone.contains (e.1, core) && (s.walkLines c va).contains e.2

/-- A walk reads its entries at their homes as a coherent reader; one it may not read is logged (10 R286, 13 R370). -/
def State.walkRead (s : State) (core c va : Nat) : State :=
  (s.walkLines c va).foldl (fun s l =>
    if s.violates false (64 * l) then s.log c 4 (64 * l) (agentField 0 2 false) else (s.othersRead l core).dirShare l core) s

/-- A walk fills its core's 1,024-entry translation cache, and the homes of the entries it read record the core (13 R370).
Which translation makes room is not given (notes/assumptions/111). -/
def State.xFill (s : State) (core c va : Nat) : State :=
  let vp := va / 4096 * 4096
  if s.xcache.any (fun e => e.1 == core && e.2.1 == c && e.2.2.1 == vp) || s.shooting core c vp then s
  else match s.walkWith c false false vp with
    | none => s.walkRead core c vp
    | some l =>
      let s1 := s.walkRead core c vp
      let mine := ((s1.xcache.filter fun e => e.1 == core).map fun e => (e.2.1, e.2.2.1)).dedup
      let new_ := l.lines.map fun x => (core, c, vp, x)
      if mine.length < 1024 then { s1 with xcache := s1.xcache ++ new_ }
      else
        let v := mine.getD (Config.victim s1.fresh % mine.length) (c, vp)
        { s1 with xcache := (s1.xcache.filter fun e => !(e.1 == core && (e.2.1, e.2.2.1) == v)) ++ new_, fresh := s1.fresh + 1 }

/-- A line enters a core's L1 instruction cache, which holds 1,024 lines (01 Table 1-3). -/
def State.icFill (s : State) (core line : Nat) (bytes : List Byte) : State :=
  let rest := s.icache.filter fun e => !(e.1 == core && e.2.1 == line)
  let mine := rest.filter fun e => e.1 == core
  if mine.length < 1024 then { s with icache := rest ++ [(core, line, bytes)] }
  else
    let v := (mine.getD (Config.victim s.fresh % mine.length) (core, line, [])).2.1
    { s with icache := (rest.filter fun e => !(e.1 == core && e.2.1 == v)) ++ [(core, line, bytes)], fresh := s.fresh + 1 }

/-- Whether a physical line is covered by the n bytes from virtual address va; every line when n = 0 (04 R132). -/
def State.covers (s : State) (c va n line : Nat) : Bool :=
  n == 0 || (List.range ((va % 4096 + n + 4095) / 4096)).any fun i =>
    let lo := if i = 0 then va else va / 4096 * 4096 + 4096 * i
    let hi := min (va + n - 1) (va / 4096 * 4096 + 4096 * i + 4095)
    decide (hi < 2 ^ 52) && match s.vpa c lo with
      | none => false
      | some pa => decide (pa / 64 ≤ line) && decide (line ≤ (pa + (hi - lo)) / 64)

/-- Invalidates lines of the instruction caches of some cores. -/
def State.icInvalidate (s : State) (cores : Nat → Bool) (hit : Nat → Bool) : State :=
  { s with icache := s.icache.filter fun e => !(cores e.1 && hit e.2.1) }

/-- Posts a global request of issuer k. -/
def State.addReq (s : State) (k acc vpage : Nat) (tracked : Bool) (kind : ReqKind) : State :=
  { s with reqs := s.reqs ++ [{ id := s.nextId, key := k, acc, ctx := s.ctxOf k, vpage, tracked, kind }]
           nextId := s.nextId + 1 }

end Sys2Proof.Machine
end

