-- ==== Sys2Proof/Machine/Store.lean ====
section
/-! DEFINITION. Global requests: order (05 R149, R157, 10 R305), performing at the home (10 R291–R294, 05 R162, R163). -/

namespace Sys2Proof.Machine

open Sys2Proof

/-! ### What a request touches, and when it may perform -/

/-- The physical byte runs of a request. -/
def ReqKind.runs : ReqKind → List (Nat × Nat)
  | .load pieces .. => pieces.map fun p => (p.2.1, p.2.2)
  | .conv line lines _ base size .. =>
    [(line, 64 * lines), (base + dataRegion size + 4 * ((line - base) / 64), 4)]
  | .store pa bytes .. => [(pa, bytes.length)]
  | .patch line bytes .. => (byteRuns bytes).map fun r => (64 * line + r.1, r.2.length)
  | .atomic _ at_ pa .. => [(pa, atWidth at_)]
  | .ltag pa .. => [(pa / 64 * 64, 64)]
  | .acld _ _ pa _ tens => (pa, 64) :: match tens with
    | none => []
    | some (_, base, size) => [(base + dataRegion size + 4 * ((pa - base) / 64), 4)]
  | .drain _ => []
  | .maint _ line n .. => [(64 * line, 64 * n)]
  | .pref .. => []
  | .pclr line => [(64 * line, 64)]
  | .icinv .. => []

/-- Whether two lists of byte runs share a byte. -/
def runsMeet (a b : List (Nat × Nat)) : Bool :=
  a.any fun x => b.any fun y => decide (x.1 < y.1 + y.2) && decide (y.1 < x.1 + x.2)

/-- Whether a request reads a value. -/
def ReqKind.reads : ReqKind → Bool
  | .load .. => true
  | .conv .. => true
  | .atomic .. => true
  | .ltag .. => true
  | .acld .. => true
  | _ => false

def ReqKind.isDrain : ReqKind → Bool
  | .drain _ => true
  | _ => false

/-- Acquire and release orderings (03 Table 3-7). -/
def ReqKind.acquires : ReqKind → Bool
  | .atomic _ _ _ _ _ _ ord _ => ord == 1 || ord == 3
  | _ => false
def ReqKind.releases : ReqKind → Bool
  | .atomic _ _ _ _ _ _ ord _ => ord == 2 || ord == 3
  | _ => false

/-- The scope of an atomic (05 Table 5-9). -/
def ReqKind.scope : ReqKind → Nat
  | .atomic _ _ _ _ _ _ _ sc => sc
  | _ => 5

/-- The agent of a request: its issuer, whatever has become of its task, or its engine command. -/
def Req.who (r : Req) : Nat := r.agent.getD (agentOfKey r.key)

/-- The earlier requests of a request's agent that have not performed; a task that has moved keeps its own before it (12 R360). -/
def State.earlier (s : State) (r : Req) : List Req :=
  s.reqs.filter fun q => (q.who == r.who || q.key == r.key) && decide (q.id < r.id)

/-- Whether a scope holds its own agent alone (10 Table 10-4). -/
def soleScope (k scope : Nat) : Bool := scope == 0 || (isCs k && scope == 1)

/-- The orders that no scope weakens: accesses of one agent to one byte in issue order (05 R149; a copy's overlapping destination
rows in no fixed order, 08 R225), a placement's lines in their order (11 R333), and across a DRAIN what comes before it first (R157).  At a scope of the agent alone a store
has performed when it commits (10 R302), and so has a cache maintenance (notes/assumptions/106). -/
def State.ordered (s : State) (r : Req) : Bool :=
  let mine := s.earlier r
  (if engKey 0 ≤ r.key then mine.isEmpty || !(s.tasks.any fun t => t.st == .placing && engKey t.cmd == r.key)
   else !(mine.any fun q => runsMeet q.kind.runs r.kind.runs && !q.kind.isDrain)) &&
  !(mine.any fun d => match d.kind with
    | .drain sc => mine.any fun q => decide (q.id < d.id) && !q.kind.isDrain && (!soleScope r.who sc || q.kind.reads)
    | _ => false)

/-- Whether accesses before a release that performed early are still to perform. -/
def State.unpaid (s : State) (d : Debt) : Bool :=
  s.reqs.any fun q => q.who == d.key && decide (q.id < d.id) && !q.kind.isDrain

/-- Whether an engine's read of byte runs would see a release that has performed before the accesses it follows, within its scope
(10 R301, R305 edge 3): it waits. -/
def State.owed (s : State) (who : Nat) (runs : List (Nat × Nat)) : Bool :=
  s.debts.any fun d => d.key != who && runsMeet [(d.pa, d.n)] runs && s.within d.key d.scope who && s.unpaid d

/-- Whether an engine command would read such a release in a page it has captured. -/
def State.capsOwed (s : State) (m : Cmd) : Bool :=
  m.caps.any fun k => k.size != 0 && s.owed (engKey m.id) [(k.pa, k.base + k.size - k.pa)]

/-- Whether a read would see a release of another agent that has performed before the accesses it follows: within its scope no
read may, and no acquire whose scope holds the releaser (10 R305 edges 3 and 5). -/
def State.owing (s : State) (r : Req) : Bool :=
  decide (r.key < engKey 0) && r.kind.reads && s.debts.any fun d =>
    d.key != r.who && runsMeet [(d.pa, d.n)] r.kind.runs && s.within d.key d.scope r.who &&
    (!r.kind.acquires || s.within r.who r.kind.scope d.key) && s.unpaid d

/-- Whether a release would reach an acquire, each within the other's scope, that a later read of its agent has passed. -/
def State.meetsPassed (s : State) (r : Req) : Bool :=
  s.reqs.any fun q => s.passed.contains q.id && q.who != r.who && runsMeet q.kind.runs r.kind.runs &&
    s.within r.who r.kind.scope q.who && s.within q.who q.kind.scope r.who

/-- Whether a request may perform in its place: behind a pending acquire nothing, and a release behind everything earlier; but a
release of a scope narrower than the package only has to seem so within that scope (10 R305 edges 3–5). -/
def State.inPlace (s : State) (r : Req) : Bool :=
  let mine := s.earlier r
  s.ordered r && !s.owing r && !(mine.any fun q => q.kind.acquires) &&
  (!r.kind.releases ||
    ((mine.all (fun q => q.kind.isDrain) || (decide (r.kind.scope < 4) && !(mine.any s.owing))) && !s.meetsPassed r))

/-- The pending acquires a read may pass: of a scope narrower than the package, and free to perform themselves. -/
def State.mayPass (s : State) (r : Req) : Bool :=
  r.kind.reads && !r.kind.releases && !r.kind.acquires && s.ordered r && !s.owing r &&
  (s.earlier r).all fun q => !q.kind.acquires || (decide (q.kind.scope < 4) && s.inPlace q)

/-- Whether a request may perform now. -/
def State.mayPerform (s : State) (r : Req) : Bool := s.inPlace r || s.mayPass r

/-- What performing leaves for the orders of 10 R305: an early release its debt, a read the acquires it passed. -/
def State.performed (s : State) (r : Req) : State :=
  let mine := s.earlier r
  match r.kind with
  | .atomic _ at_ pa .. =>
    if r.kind.releases && !(mine.all fun q => q.kind.isDrain) then
      { s with debts := s.debts ++ [{ pa, n := atWidth at_, key := r.who, scope := r.kind.scope, id := r.id }] }
    else s
  | _ =>
    let l := (mine.filter fun q => q.kind.acquires && !s.passed.contains q.id).map Req.id
    if l.isEmpty then s else { s with passed := s.passed ++ l }

/-- Forgets debts that are paid and passed acquires that have performed. -/
def State.pruneOrders (s : State) : State :=
  { s with debts := s.debts.filter s.unpaid, passed := s.passed.filter fun i => s.reqs.any fun q => q.id == i }

/-- The entries of the request tracker an issuer holds, those of a task before it on its partition among them (05 R146). -/
def State.tracked (s : State) (k : Nat) : Nat :=
  (((s.reqs.filter fun r => decide (r.key < engKey 0) && r.who == agentOfKey k && r.tracked).map Req.acc).dedup).length

def State.req? (s : State) (id : Nat) : Option Req := s.reqs.find? fun r => r.id == id
def State.dropReq (s : State) (id : Nat) : State := { s with reqs := s.reqs.filter fun r => r.id != id }
def State.setReq (s : State) (r : Req) : State := { s with reqs := s.reqs.map fun q => if q.id == r.id then r else q }

/-- The issuer a request counts for: its own, or that of the command that made it. -/
def State.reqIssuer (s : State) (r : Req) : Nat :=
  if r.key < engKey 0 then r.key
  else match s.cmd? (r.key - engKey 0) with
    | some c => c.key
    | none => csKey r.ctx

/-- The agent an error log entry names for a request (12 Table 12-13). -/
def State.reqAgent (s : State) (r : Req) : Nat :=
  if r.key = hostKey ∨ r.key = partKey then agentField 0 2 false
  else if r.key < engKey 0 then s.agentOf r.key
  else match s.cmd? (r.key - engKey 0) with
    | some c => agentField c.runner 2 false
    | none => agentField 0 2 false

/-- The core whose delta a request's writes count in (09 R265, 08 R227): a copy's runner, another engine's
die (16 R427), else the issuer's core. -/
def State.reqCore (s : State) (r : Req) : Nat :=
  if r.key < engKey 0 then s.tcore r.key
  else match s.cmd? (r.key - engKey 0) with
    | some c => if c.pos = 6 ∧ c.major < 4 then c.runner else 384 + c.runner
    | none => 0

/-! ### Performing -/

/-- The task an issuer runs, or whose request `id` its partition still has, for the watches of the reuse unit (11 R334). -/
def State.ownTask (s : State) (k id : Nat) : Option (Nat × Nat) :=
  if isCs k then none
  else if isGone k then
    (s.tasks.find? fun x => x.ctx == s.ctxOf k && x.part == partOf k && x.released && decide (id < x.after)).map fun x => (x.ctx, x.count)
  else if k < csBase then (s.th k).task.map fun j => (s.ctxOf k, j.count)
  else (s.saved.find? fun e => e.1 == k - 8192).bind fun e => e.2.task.map fun j => (s.ctxOf k, j.count)

/-- Writes a line or part of it, with its tag (02 R49, 09 R266). -/
def State.putLine (s : State) (core c : Nat) (pa : Nat) (bytes : List Byte) (ver : Option Nat) (psn : Bool)
    (bound : Option (Nat × Nat × Nat)) (own : Option (Nat × Nat)) : State :=
  let old := tagVer (s.tag pa)
  let new_ := ver.getD old
  ((s.homeWrite pa bytes own).setTag pa (mkTag psn new_)).liveMove core c bound pa old new_

/-- An engine command meets an access violation: it will end in a command error (10 R286). -/
def State.metViolation (s : State) (r : Req) : State :=
  if r.key < engKey 0 then s else s.modCmd (r.key - engKey 0) fun c => { c with viol := true }

/-- A plain store covers what releases wrote: an acquire that reads it synchronises with none of them (10 R305 edge 5). -/
def State.dropRelease (s : State) (pa n : Nat) : State :=
  { s with signals := s.signals.filter fun g => match g.obj with
      | [6, a, _] => !(decide (pa ≤ a) && decide (a < pa + n))
      | _ => true }

/-- An acquire of a scope reads what a release wrote: it receives the scratchpad writes before it, each agent within the other's
scope (10 R305 edge 5, R306). -/
def State.hearRelease (s : State) (k pa scope : Nat) : State :=
  s.receive k fun g => match g.obj with
    | [6, a, sc] => a == pa && s.within g.agent sc (agentOfKey k) && s.within (agentOfKey k) scope g.agent
    | _ => false

/-- A store of one line performs (05 R163, 09 R256, 10 R286, 11 R323); one to the control space goes to its registers, as a
request of its own.  A poisoned line takes only a write of all its 64
bytes; a copy's full-line write is not logged (08 R226).  A refused write is logged with the context of its writer, a host's with the
firmware (DESIGN CHOICE, notes/assumptions/138); a write of the part's own is never refused. -/
def State.performStore (s : State) (r : Req) (pa : Nat) (bytes : List Byte) (ver : Option Nat) (psn : Bool)
    (bound : Option (Nat × Nat × Nat)) : State :=
  let k := s.reqIssuer r
  let ag := s.reqAgent r
  if r.key = partKey then s.partDone pa bytes (if bytes.length = 64 ∨ ver.isSome then some (mkTag psn (ver.getD (tagVer (s.tag pa)))) else none)
  else if s.violates (s.firmware k) pa then (s.metViolation r).log r.ctx 4 pa ag
  else if physClass pa = .control then
    { s with reqs := s.reqs ++ [{ r with id := s.nextId, acc := s.nextId, tracked := false, kind := .store pa bytes ver psn bound }]
             nextId := s.nextId + 1 }
  else match s.protectedKind pa with
    | some kd => s.log r.ctx kd pa ag
    | none =>
      let bad := tagPsn (s.tag pa)
      let drop := bad && bytes.length != 64
      let s1 := if bad && (drop || (decide (r.key < engKey 0) && r.key != hostKey)) then s.log r.ctx 3 pa ag else s
      if drop then s1
      else (s1.dropRelease pa bytes.length).putLine (s.reqCore r) r.ctx pa bytes ver psn bound (s.ownTask k r.id)

/-- A copy's write of the scattered bytes of one line performs, as one write (08 R226, 10 R303). -/
def State.performPatch (s : State) (r : Req) (line : Nat) (bytes : List (Nat × Byte)) (ver : Nat) (psn : Bool)
    (bound : Option (Nat × Nat × Nat)) : State :=
  let pa := 64 * line
  let runs := byteRuns bytes
  if s.violates (s.firmware (s.reqIssuer r)) pa || physClass pa = .control then
    runs.foldl (fun s x => s.performStore r (pa + x.1) x.2 (some ver) psn bound) s
  else match s.protectedKind pa with
    | some kd => s.log r.ctx kd pa (s.reqAgent r)
    | none =>
      if tagPsn (s.tag pa) then s.log r.ctx 3 pa (s.reqAgent r)
      else runs.foldl (fun s x => (s.dropRelease (pa + x.1) x.2.length).putLine (s.reqCore r) r.ctx (pa + x.1) x.2 (some ver) psn bound
        (s.ownTask (s.reqIssuer r) r.id)) s

/-- A write of an engine's that is no request: at once, or once nothing rests on the line of entries it changes (13 R371, R377). -/
def State.storeNow (s : State) (r : Req) (pa : Nat) (bytes : List Byte) (ver : Option Nat) (psn : Bool)
    (bound : Option (Nat × Nat × Nat)) : State :=
  if s.violates (s.firmware (s.reqIssuer r)) pa || s.still r.key pa bytes then s.afreshLine (pa / 64) (s.performStore r pa bytes ver psn bound)
  else { s with reqs := s.reqs ++ [{ r with id := s.nextId, acc := s.nextId, tracked := false, kind := .store pa bytes ver psn bound }]
                nextId := s.nextId + 1 }

/-- PCLR's line and tag become zero (05 R161). -/
def State.performPclr (s : State) (r : Req) (line : Nat) : State :=
  let a := 64 * line
  if s.violates true a then s.log r.ctx 4 a (s.reqAgent r)
  else match s.protectedKind a with
    | some kd => s.log r.ctx kd a (s.reqAgent r)
    | none => (s.homeWrite a (List.replicate 64 0)).setTag a 0

/-! ### Atomics (05 R154, R155) -/

/-- Minimum and maximum of two FP32 codes (05 Table 5-8): −0 < +0, NaN if either is NaN. -/
def f32Min (a b : Nat) : Nat := r32 ((d32 a).min2 (d32 b))
def f32Max (a b : Nat) : Nat := r32 ((d32 a).max2 (d32 b))

/-- The new value of an atomic, of w bits (05 Table 5-8). -/
def atomicNew (op : AtomicOp) (at_ w old b c : Nat) : Nat :=
  let f32 := at_ == 2
  let signed := decide (at_ ≤ 1)
  let lt (x y : Nat) : Bool := if signed then decide (sextI x w < sextI y w) else decide (x < y)
  match op with
  | .add => if f32 then r32 ((d32 old).add (d32 b)) else (old + b) % 2 ^ w
  | .min => if f32 then f32Min old b else if lt b old then b else old
  | .max => if f32 then f32Max old b else if lt old b then b else old
  | .and => old &&& b
  | .or => old ||| b
  | .xor => old ^^^ b
  | .xch => b
  | .cas => if old = c then b else old
  | .ld => old
  | .st => b

/-- Puts the value of a returning request in its landing entry (03 R93).  A return whose task has ended is discarded
(12 R354). -/
def State.arrive (s : State) (k req : Nat) (l : Land) : State :=
  let put (t : Thr) : Thr := { t with flight := t.flight.map fun f => if f.land == .wait req then { f with land := l } else f }
  { s with thr := s.thr.map fun e => if e.1 == k then (k, put e.2) else e
           saved := s.saved.map fun e => if e.1 + 8192 == k then (e.1, put e.2) else e }

/-- An atomic performs at its line's home (05 R154–R156, R163, 10 R293, R294). -/
def State.performAtomic (s : State) (r : Req) (op : AtomicOp) (at_ pa : Nat) (b c : W64) (ret : Option Nat) : State :=
  let k := s.reqIssuer r
  let ag := s.reqAgent r
  let n := atWidth at_
  let old := ofBytes (s.physBytes pa n)
  let back (s : State) (v : Nat) (psn : Bool) : State := match ret with
    | none => s
    | some d => s.arrive r.key r.id (.s d (atExtend at_ v) psn)
  if s.violates (s.firmware k) pa || s.protectedKind pa == some 4 then
    back (s.log r.ctx 4 pa ag) (s.violatedN pa n) true
  else if s.protectedKind pa == some 5 then back (s.log r.ctx 5 pa ag) old false
  else if tagPsn (s.tag pa) then back (((s.invalidate (pa / 64)).l2Touch (pa / 64) false).log r.ctx 3 pa ag) old true
  else
    let new_ := atomicNew op at_ (8 * n) old (b.toNat % 2 ^ (8 * n)) (c.toNat % 2 ^ (8 * n))
    let s1 := if r.kind.releases then s.signal [6, pa, r.kind.scope] r.key r.id else s
    let s2 := if r.kind.acquires then s1.hearRelease r.key pa r.kind.scope else s1
    back (if op = .ld then ((s2.invalidate (pa / 64)).l2Touch (pa / 64) false).hostFlit (pa / 64) else s2.homeWrite pa (bytesOf n new_) (s.ownTask k r.id)) old false

/-! ### Reads -/

/-- Reads one piece of a load: its bytes and whether the value is poisoned, with the log entry (05 R162, 10 R286). -/
def State.readPiece (s : State) (r : Req) (pa n : Nat) : List Byte × Bool × State :=
  let k := s.reqIssuer r
  if s.violates (s.firmware k) pa then
    (s.violatedBytes pa n, true, (s.metViolation r).log r.ctx 4 pa (s.reqAgent r))
  else
    let s1 := s.othersRead (pa / 64) (if r.key < engKey 0 then s.tcore r.key else 500)
    if tagPsn (s.tag pa) then (s.physBytes pa n, true, s1.log r.ctx 2 pa (s.reqAgent r))
    else (s.physBytes pa n, false, s1)

/-- The lanes of one line that LDCV converts (05 R151), as lane codes. -/
def State.convLanes (s : State) (c tens base size pa : Nat) : List Nat :=
  let geo := s.recGeo c tens
  let ver := s.recVer c tens (tagVer (s.tag pa))
  let n := if geo = 0 then 16 else if geo = 1 then 32 else lineElems geo
  let sc := (rdBytes s.mem (base + dataRegion size + 4 * ((pa - base) / 64)) 4).map BitVec.toNat
  (decodeLine ver (rdBytes s.mem pa 64) sc n).map fun x => if geo = 3 then bf16.round x else r32 x

/-- The scale line a converting read of a line also reads, where the line's version is block-scaled (02 R52). -/
def State.scaleLine (s : State) (c tens base size pa : Nat) : Option Nat :=
  let f := verFmt (s.recVer c tens (tagVer (s.tag pa)))
  if f = 5 ∨ f = 6 then some (base + dataRegion size + 4 * ((pa - base) / 64)) else none

/-- Reads a line and its scale bytes: whether either is poisoned, with the log entries (05 R162). -/
def State.readConv (s : State) (r : Req) (tens base size pa : Nat) : Bool × State :=
  let (_, bad, s1) := s.readPiece r pa 64
  match s.scaleLine r.ctx tens base size pa with
  | none => (bad, s1)
  | some sa =>
    let (_, bad2, s2) := s1.readPiece r sa 4
    (bad || bad2, s2)

/-- The FP32 codes of one line of an ACLD (07 R214). -/
def State.acldLanes (s : State) (c pa fmt : Nat) (tens : Option (Nat × Nat × Nat)) : List Nat :=
  match tens with
  | some (i, base, size) => s.convLanes c i base size pa
  | none =>
    let w := fmtBits fmt
    (unpackLE w (512 / w) (rdN s.mem pa 64)).map fun x => r32 (decCode fmt x)

/-- The next piece of a request to read, among those not read: their order is free (05 R149). -/
def pickLeft (fresh : Nat) (all : List Nat) (got : List Nat) : Nat :=
  let left := all.filter fun i => !got.contains i
  left.getD (Config.pickFrame fresh % left.length) 0

/-- A 2,048-bit value from bytes placed at destination offsets. -/
def placed (got : List (Nat × List Byte)) : VReg :=
  BitVec.ofNat 2048 (got.foldl (fun acc g => acc + ofBytes g.2 * 2 ^ (8 * g.1)) 0)

/-- LOAD_DATA_ARRIVE: one piece of a load, line or lane is read in one indivisible step (10 R303, R308); with the last
piece the value enters the landing buffer. -/
def State.loadArrive (s : State) (r : Req) : State :=
  match r.kind with
  | .load pieces got psn dst vec ty mask =>
    let i := pickLeft s.fresh (List.range pieces.length) (got.map Prod.fst)
    match pieces[i]? with
    | none => s.dropReq r.id
    | some (off, pa, n) =>
      let (bs, bad, s1) := s.readPiece r pa n
      let got' := got ++ [(i, bs)]
      let s2 := { s1 with fresh := s1.fresh + 1 }
      let bad' := psn || bad
      if got'.length < pieces.length then s2.setReq { r with kind := .load pieces got' bad' dst vec ty mask }
      else
        let land : Land :=
          if vec then
            .v dst (placed (got'.map fun g => ((pieces.getD g.1 (off, pa, n)).1, g.2))) mask bad'
          else .s dst (atExtend ty (ofBytes bs)) bad'
        (s2.arrive r.key r.id land).dropReq r.id
  | .conv line lines tens base size got psn dst =>
    let i := pickLeft s.fresh (List.range lines) (got.map Prod.fst)
    let pa := line + 64 * i
    let (bad, s1) := s.readConv r tens base size pa
    let got' := got ++ [(i, s.convLanes r.ctx tens base size pa)]
    let s2 := { s1 with fresh := s1.fresh + 1 }
    let bad' := psn || bad
    if got'.length < lines then s2.setReq { r with kind := .conv line lines tens base size got' bad' dst }
    else
      let w := if s.recGeo r.ctx tens = 3 then 16 else 32
      let lanes := (List.range lines).flatMap fun j => ((got'.find? fun g => g.1 == j).map Prod.snd).getD []
      (s2.arrive r.key r.id (.v dst (vOfLanes w lanes) (BitVec.allOnes 64) bad')).dropReq r.id
  | .ltag pa tens dst =>
    let k := s.reqIssuer r
    let viol := s.violates (s.firmware k) pa
    let tag := if viol then s.violatedN pa 1 % 16 else (s.tag pa).toNat
    let s1 := if viol then s.log r.ctx 4 pa (s.reqAgent r) else s.othersRead (pa / 64) (s.tcore k)
    (s1.arrive r.key r.id (.s dst (BitVec.ofNat 64 (tag + match tens with
      | none => 0
      | some i => 16 + 32 * i)) viol)).dropReq r.id
  | .acld x idx pa fmt tens =>
    let (bad, s1) := match tens with
      | some (i, base, size) => s.readConv r i base size pa
      | none => let q := s.readPiece r pa 64; (q.2.1, q.2.2)
    let lanes := s.acldLanes r.ctx pa fmt tens
    (s1.modTh r.key fun t => { t with xfers := t.xfers.map fun y =>
      if y.cmd == x then { y with got := y.got ++ [(idx, lanes)], psn := y.psn || bad } else y }).dropReq r.id
  | _ => s

end Sys2Proof.Machine
end

