-- ==== Sys2Proof/Machine/Command.lean ====
section
/-! DEFINITION. Commands and the tickets they produce (03 R82, 08 R217–R222). -/

namespace Sys2Proof.Machine

open Sys2Proof

/-- Ticket register kp of an issuer waits for a command; K0 discards (03 R82). -/
def State.setTicket (s : State) (k kp id : Nat) : State :=
  if kp = 0 then s else s.modTh k fun t => { t with ks := putK t.ks kp (some id) }

/-- Adds a command, under the next number, whose ticket goes into register kp. -/
def State.newCmd (s : State) (c : Cmd) (kp : Nat) : State :=
  ({ s with cmds := s.cmds ++ [{ c with id := s.nextId }], nextId := s.nextId + 1 }).setTicket c.key kp s.nextId

/-- The commands whose tickets an instruction captures: those not yet visible as fired (03 R82). -/
def IC.captured (c : IC) (ks : List Nat) : List Nat :=
  ks.filterMap fun n => if c.s.fired c.k n then none else getD none c.t.ks n

/-- A hold on consumed tickets (03 R82, R93). -/
def ticketHold (c : IC) (ks : List Nat) : Option Nat := if ks.all (c.s.fired c.k) then none else some 2

end Sys2Proof.Machine
end

