-- ==== Sys2Proof/Machine/Legal.lean ====
section
/-! DEFINITION. Which codes a slot word may hold (03 R73, R78, R81 and each entry): everything else raises an
illegal-instruction fault whatever the registers hold. -/

namespace Sys2Proof

open Sys2Proof.Machine (bitsN)

/-- GN = 1 with GUARD = 0 is illegal (03 R78). -/
def gnOk (g : BitVec 4) (n : BitVec 1) : Bool := !(g == 0 && n == 1)

/-- A vector destination is V0–V59; a vector source is any code but 63 (03 R73). -/
def vDst (d : BitVec 6) : Bool := decide (d.toNat < 60)
def vSrc (a : BitVec 6) : Bool := decide (a.toNat ≠ 63)

/-- RRR with FN at most m (04 Table 4-2). -/
def fnMax (x : RRR) (m : Nat) : Bool := gnOk x.g x.n && decide (x.f.toNat ≤ m)

/-- VRR arithmetic: a destination and two sources. -/
def vrrOk (x : VRR) : Bool := vDst x.d && vSrc x.a && vSrc x.b

/-- A gather or scatter: V(D) a register, V(B) a source (05 R141). -/
def gathOk (x : RRR) : Bool := gnOk x.g x.n && vDst x.d && vSrc x.b

/-- An atomic: scopes 6 and 7 are reserved (03 Table 3-7). -/
def atmOk (x : Atm) : Bool := gnOk x.g x.n && decide (x.c.toNat ≤ 5)

/-- Formats VCVT converts between (06 R183). -/
def cvtFmt (c : BitVec 4) : Bool := c == 0 || c == 1 || c == 2 || c == 8

/-- Formats of packed codes (06 R184, R185). -/
def packFmt (c : BitVec 4) : Bool := c == 3 || c == 4 || c == 5 || c == 7

/-- Copies read W0–W3 or W0–W4: a PS beyond S63 is illegal (08 R217). -/
def psOk (p : BitVec 5) (last : Nat) : Bool := decide (2 * p.toNat + last ≤ 63)

/-- The codes an instruction may hold; true of every step without a word. -/
def legal (i : Instr) : Bool :=
  match i with
  | .add x => fnMax x 5
  | .sub x => fnMax x 1
  | .and x => fnMax x 0
  | .or x => fnMax x 0
  | .xor x => fnMax x 0
  | .andn x => fnMax x 0
  | .shl x => fnMax x 1
  | .shr x => fnMax x 1
  | .sar x => fnMax x 1
  | .rot x => fnMax x 1
  | .min x => fnMax x 0
  | .max x => fnMax x 0
  | .minu x => fnMax x 0
  | .maxu x => fnMax x 0
  | .mul x => fnMax x 1
  | .mulh x => fnMax x 0
  | .mulhu x => fnMax x 0
  | .sel x => gnOk x.g x.n
  | .cmp x => gnOk x.g x.n && decide (x.c.toNat ≤ 7)
  | .cmpi x => decide (x.c.toNat ≤ 7)
  | .plog x => gnOk x.g x.n && decide (x.a.toNat ≤ 15) && decide (x.b.toNat ≤ 15) && decide (x.c.toNat ≤ 8) &&
      (decide (x.c.toNat < 7) || x.b == 0)
  | .bitop x => fnMax x 6 && (decide (5 ≤ x.f.toNat) || x.b == 0)
  | .bfx x => fnMax x 2
  | .div x => fnMax x 3
  | .br x => gnOk x.g x.n
  | .jmp x => gnOk x.g x.n
  | .call x => gnOk x.g x.n
  | .ret x => gnOk x.g x.n
  | .loop x => x.i != 0
  | .loopr x => x.e != 0 && decide (x.w.toNat ≤ 28)
  | .lbrk x => gnOk x.g x.n
  | .audef x => gnOk x.g x.n && decide (1 ≤ x.d.toNat) && decide (x.d.toNat ≤ 7) && x.a != 0 &&
      decide (x.a.toNat + x.f.toNat ≤ 63)
  | .waitk x => gnOk x.g x.n && decide (x.a.toNat ≤ 31) && decide (x.b.toNat ≤ 31)
  | .waitm x => fnMax x 3
  | .pres x => gnOk x.g x.n
  | .presSkip x => gnOk x.g x.n
  | .presMig x => gnOk x.g x.n
  | .pkill x => gnOk x.g x.n
  | .crr x => gnOk x.g x.n
  | .crw x => gnOk x.g x.n
  | .icinv x => gnOk x.g x.n && decide (x.f.toNat ≤ 5)
  | .fin x => gnOk x.g x.n
  | .movx x => gnOk x.g x.n && decide (x.a.toNat ≤ 5)
  | .movxK x => gnOk x.g x.n
  | .movp x => gnOk x.g x.n
  | .movpW x => gnOk x.g x.n
  | .ktst x => gnOk x.g x.n && decide (x.a.toNat ≤ 31)
  | .ktstAll x => gnOk x.g x.n && decide (x.a.toNat ≤ 31) && decide (x.b.toNat ≤ 31)
  | .ldv x => vDst x.d
  | .stv x => vDst x.d
  | .ldg x => decide (24 ≤ x.l.toNat)
  | .ldgv x => vDst x.d && decide (24 ≤ x.l.toNat)
  | .stgv x => vDst x.d
  | .ldcv x => vDst x.d && decide (24 ≤ x.l.toNat)
  | .stcv x => vDst x.d && x.r != 3
  | .gath x => gathOk x
  | .scat x => gathOk x
  | .xlat x => gnOk x.g x.n && decide (x.d.toNat ≤ 31)
  | .hrel x => gnOk x.g x.n && decide (x.d.toNat ≤ 31)
  | .probe x => gnOk x.g x.n
  | .drain x => gnOk x.g x.n && decide (x.f.toNat ≤ 5)
  | .atadd x => atmOk x
  | .atmin x => atmOk x
  | .atmax x => atmOk x
  | .atand x => atmOk x
  | .ator x => atmOk x
  | .atxor x => atmOk x
  | .atxch x => atmOk x
  | .atcas x => atmOk x
  | .atld x => atmOk x && decide (x.o.toNat ≤ 1) && x.b == 0
  | .atst x => gnOk x.g x.n && decide (x.c.toNat ≤ 5) && (x.o == 0 || x.o == 2)
  | .ltag x => gnOk x.g x.n
  | .gaths x => gathOk x
  | .scats x => gathOk x
  | .clfl x => gnOk x.g x.n
  | .clinv x => gnOk x.g x.n
  | .pclr x => gnOk x.g x.n
  | .vadd x => vrrOk x && x.t != 3
  | .vsub x => vrrOk x && x.t != 3
  | .vmin x => vrrOk x && x.t != 3
  | .vmax x => vrrOk x && x.t != 3
  | .vuna x => vDst x.d && vSrc x.a && decide (x.b.toNat ≤ 7) && (decide (x.b.toNat ≤ 4) == (x.t != 3))
  | .vand x => vrrOk x
  | .vor x => vrrOk x
  | .vxor x => vrrOk x
  | .vshl x => vDst x.d && vSrc x.a
  | .vshr x => vDst x.d && vSrc x.a
  | .vsar x => vDst x.d && vSrc x.a
  | .viadd x => vrrOk x && x.t != 2
  | .visub x => vrrOk x && x.t != 2
  | .vcmp x => vSrc x.a && vSrc x.b && (x.t == 0 || x.t == 3)
  | .vsel x => vrrOk x
  | .vmov x => vDst x.d && vSrc x.a
  | .vcvt x => vDst x.d && vSrc x.a && cvtFmt x.s && cvtFmt x.e && x.s != x.e && x.r != 3 &&
      (x.r != 2 || x.e == 1 || x.e == 2)
  | .vred x => vDst x.d && vSrc x.a && decide (x.b.toNat ≤ 4) && (x.t != 3 || x.b == 0 || x.b == 2 || x.b == 3)
  | .vscan x => vDst x.d && vSrc x.a && decide (x.b.toNat ≤ 3) && (x.t == 0 || x.t == 3)
  | .vperm x => vDst x.d && vSrc x.a && vSrc x.b
  | .vshuf x => vDst x.d && vSrc x.a && (decide (x.i.toNat < 128) || x.i.toNat % 64 == 0)
  | .vrot x => vDst x.d && vSrc x.a && decide (x.i.toNat < 192)
  | .vmsk x => decide (x.a.toNat ≤ 7) && decide (x.b.toNat ≤ 7) && decide (x.d.toNat / 8 ≤ 5) &&
      (decide (x.d.toNat / 8 < 4) || x.b == 0)
  | .vmts x => decide (x.b.toNat ≤ 5) &&
      (if x.b.toNat ≤ 3 then decide (x.d.toNat ≤ 7) && vSrc x.a else vDst x.d && decide (x.a.toNat ≤ 7))
  | .vseg x => vDst x.d && vSrc x.a && decide (x.b.toNat / 8 ≤ 2) && (x.t == 0 || x.t == 3)
  | .vbsc x => vDst x.d && vSrc x.a && decide (x.t.toNat ≤ 1) && decide (x.b.toNat / 16 ≤ 1) &&
      decide (3 ≤ x.b.toNat % 16) && decide (x.b.toNat % 16 ≤ 5)
  | .vqnt x => vDst x.d && vSrc x.a && decide (x.s.toNat ≤ 1) && packFmt x.e && x.r != 3 && (x.r != 2 || x.e != 7)
  | .vdqnt x => vDst x.d && vSrc x.a && packFmt x.s && decide (x.e.toNat ≤ 1) && decide (x.r.toNat ≤ 1)
  | .vclmp x => vrrOk x
  | .vimnx x => vrrOk x
  | .vext x => vDst x.d && vSrc x.a
  | .vins x => vDst x.d && vSrc x.a
  | .vmul x => vrrOk x && x.t != 3
  | .vfma x => vrrOk x && x.t != 3
  | .vfms x => vrrOk x && x.t != 3
  | .vfnma x => vrrOk x && x.t != 3
  | .vimul x => vrrOk x && x.t != 2
  | .vrcp x => vDst x.d && vSrc x.a && x.t != 3
  | .vrsq x => vDst x.d && vSrc x.a && x.t != 3
  | .vsqrt x => vDst x.d && vSrc x.a && x.t != 3
  | .vexp2 x => vDst x.d && vSrc x.a && x.t != 3
  | .vlog2 x => vDst x.d && vSrc x.a && x.t != 3
  | .vdot x => vrrOk x && x.t != 3
  | .acrd x => vDst x.x
  | .acwr x => vSrc x.x
  | .acsc x => vSrc x.x && decide (x.i.toNat < 192) && (if x.i.toNat < 128 then x.i.toNat % 64 == 0 else x.x == 0)
  | .acps x => x.i == 0 || x.x == 0
  | .cpy x => psOk x.p 3
  | .cpyc x => psOk x.p 3
  | .cpyf x => psOk x.p 4
  | .cpyk x => psOk x.p 4
  | .tsub x => x.f == 0
  | .send x => vSrc x.v
  | .recv x => vDst x.v
  | .recvadd x => vDst x.v
  | .coll x => decide (x.f.toNat ≤ 6)
  | .cola x => decide (x.f.toNat ≤ 3)
  | .grpc x => x.f == 0
  | .grpf x => x.f == 0
  | .lnks x => decide (x.f.toNat ≤ 24)
  | _ => true

end Sys2Proof
end

