-- ==== Sys2Proof/Decode.lean ====
section
/-! DEFINITION. Decoding and encoding (03 Tables 3-5, 3-8 to 3-13).

A word alone does not say what it is: its position does (03 R70).  `decodeSlot` takes the position.  An encoder follows,
written from the same tables. -/

namespace Sys2Proof

open Sys2Proof.Machine (bitsN)

/-- Why a slot word is no instruction (03 R81, R83).  Where the major opcode is assigned, the register fields of its format
still name registers (03 R72, R73): `i` is the opcode's first form with those fields. -/
inductive DecodeError where
  | unassigned (pos major : Nat)       -- the position has no such major opcode
  | fixedBits (major : Nat) (i : Instr)       -- an unused field is not zero, or a code the entry does not list
  | illegal (mnemonic : String) (i : Instr)   -- a code, index or count the entry makes illegal
  deriving DecidableEq, Repr

/-- Field of n bits at bit lo. -/
def fieldAt (n lo : Nat) (w : Nat) : BitVec n := BitVec.ofNat n (w / 2 ^ lo)

/-- The fields of format Nop. -/
def getNop (w : Nat) : Nop :=
  ⟨fieldAt 1 20 w, fieldAt 1 19 w, fieldAt 1 18 w, fieldAt 3 15 w, fieldAt 6 9 w, fieldAt 1 8 w⟩

/-- A word of format Nop over its fixed bits. -/
def putNop (m : Nat) (x : Nop) : W32 :=
  BitVec.ofNat 32 (m + x.t.toNat * 1048576 + x.m.toNat * 524288 + x.v.toNat * 262144 + x.u.toNat * 32768 + x.s.toNat * 512 + x.e.toNat * 256)

/-- The fields of format RRR. -/
def getRRR (w : Nat) : RRR :=
  ⟨fieldAt 4 22 w, fieldAt 6 16 w, fieldAt 6 10 w, fieldAt 6 4 w, fieldAt 3 1 w, fieldAt 1 0 w⟩

/-- A word of format RRR over its fixed bits. -/
def putRRR (m : Nat) (x : RRR) : W32 :=
  BitVec.ofNat 32 (m + x.g.toNat * 4194304 + x.d.toNat * 65536 + x.a.toNat * 1024 + x.b.toNat * 16 + x.f.toNat * 2 + x.n.toNat * 1)

/-- The fields of format RRI. -/
def getRRI (w : Nat) : RRI :=
  ⟨fieldAt 4 22 w, fieldAt 6 16 w, fieldAt 6 10 w, fieldAt 10 0 w⟩

/-- A word of format RRI over its fixed bits. -/
def putRRI (m : Nat) (x : RRI) : W32 :=
  BitVec.ofNat 32 (m + x.g.toNat * 4194304 + x.d.toNat * 65536 + x.a.toNat * 1024 + x.i.toNat * 1)

/-- The fields of format ShI. -/
def getShI (w : Nat) : ShI :=
  ⟨fieldAt 4 22 w, fieldAt 6 16 w, fieldAt 6 10 w, fieldAt 6 0 w⟩

/-- A word of format ShI over its fixed bits. -/
def putShI (m : Nat) (x : ShI) : W32 :=
  BitVec.ofNat 32 (m + x.g.toNat * 4194304 + x.d.toNat * 65536 + x.a.toNat * 1024 + x.i.toNat * 1)

/-- The fields of format RI. -/
def getRI (w : Nat) : RI :=
  ⟨fieldAt 4 22 w, fieldAt 6 16 w, fieldAt 16 0 w⟩

/-- A word of format RI over its fixed bits. -/
def putRI (m : Nat) (x : RI) : W32 :=
  BitVec.ofNat 32 (m + x.g.toNat * 4194304 + x.d.toNat * 65536 + x.i.toNat * 1)

/-- The fields of format Cmp. -/
def getCmp (w : Nat) : Cmp :=
  ⟨fieldAt 4 22 w, fieldAt 4 18 w, fieldAt 6 12 w, fieldAt 6 6 w, fieldAt 4 2 w, fieldAt 1 1 w, fieldAt 1 0 w⟩

/-- A word of format Cmp over its fixed bits. -/
def putCmp (m : Nat) (x : Cmp) : W32 :=
  BitVec.ofNat 32 (m + x.g.toNat * 4194304 + x.p.toNat * 262144 + x.a.toNat * 4096 + x.b.toNat * 64 + x.c.toNat * 4 + x.f.toNat * 2 + x.n.toNat * 1)

/-- The fields of format Cmpi. -/
def getCmpi (w : Nat) : Cmpi :=
  ⟨fieldAt 4 22 w, fieldAt 4 18 w, fieldAt 6 12 w, fieldAt 8 4 w, fieldAt 4 0 w⟩

/-- A word of format Cmpi over its fixed bits. -/
def putCmpi (m : Nat) (x : Cmpi) : W32 :=
  BitVec.ofNat 32 (m + x.g.toNat * 4194304 + x.p.toNat * 262144 + x.a.toNat * 4096 + x.i.toNat * 16 + x.c.toNat * 1)

/-- The fields of format Plog. -/
def getPlog (w : Nat) : Plog :=
  ⟨fieldAt 4 22 w, fieldAt 4 18 w, fieldAt 6 12 w, fieldAt 6 6 w, fieldAt 4 2 w, fieldAt 1 0 w⟩

/-- A word of format Plog over its fixed bits. -/
def putPlog (m : Nat) (x : Plog) : W32 :=
  BitVec.ofNat 32 (m + x.g.toNat * 4194304 + x.p.toNat * 262144 + x.a.toNat * 4096 + x.b.toNat * 64 + x.c.toNat * 4 + x.n.toNat * 1)

/-- The fields of format Brf. -/
def getBrf (w : Nat) : Brf :=
  ⟨fieldAt 4 22 w, fieldAt 21 1 w, fieldAt 1 0 w⟩

/-- A word of format Brf over its fixed bits. -/
def putBrf (m : Nat) (x : Brf) : W32 :=
  BitVec.ofNat 32 (m + x.g.toNat * 4194304 + x.o.toNat * 2 + x.n.toNat * 1)

/-- The fields of format AN. -/
def getAN (w : Nat) : AN :=
  ⟨fieldAt 4 22 w, fieldAt 6 10 w, fieldAt 1 0 w⟩

/-- A word of format AN over its fixed bits. -/
def putAN (m : Nat) (x : AN) : W32 :=
  BitVec.ofNat 32 (m + x.g.toNat * 4194304 + x.a.toNat * 1024 + x.n.toNat * 1)

/-- The fields of format Loopr. -/
def getLoopr (w : Nat) : Loopr :=
  ⟨fieldAt 4 22 w, fieldAt 6 16 w, fieldAt 8 8 w, fieldAt 5 3 w, fieldAt 3 0 w⟩

/-- A word of format Loopr over its fixed bits. -/
def putLoopr (m : Nat) (x : Loopr) : W32 :=
  BitVec.ofNat 32 (m + x.g.toNat * 4194304 + x.c.toNat * 65536 + x.e.toNat * 256 + x.w.toNat * 8 + x.s.toNat * 1)

/-- The fields of format ABN. -/
def getABN (w : Nat) : ABN :=
  ⟨fieldAt 4 22 w, fieldAt 6 10 w, fieldAt 6 4 w, fieldAt 1 0 w⟩

/-- A word of format ABN over its fixed bits. -/
def putABN (m : Nat) (x : ABN) : W32 :=
  BitVec.ofNat 32 (m + x.g.toNat * 4194304 + x.a.toNat * 1024 + x.b.toNat * 16 + x.n.toNat * 1)

/-- The fields of format RR1. -/
def getRR1 (w : Nat) : RR1 :=
  ⟨fieldAt 4 22 w, fieldAt 6 16 w, fieldAt 6 10 w, fieldAt 1 0 w⟩

/-- A word of format RR1 over its fixed bits. -/
def putRR1 (m : Nat) (x : RR1) : W32 :=
  BitVec.ofNat 32 (m + x.g.toNat * 4194304 + x.d.toNat * 65536 + x.a.toNat * 1024 + x.n.toNat * 1)

/-- The fields of format PresMig. -/
def getPresMig (w : Nat) : PresMig :=
  ⟨fieldAt 4 22 w, fieldAt 6 16 w, fieldAt 6 10 w, fieldAt 6 4 w, fieldAt 1 0 w⟩

/-- A word of format PresMig over its fixed bits. -/
def putPresMig (m : Nat) (x : PresMig) : W32 :=
  BitVec.ofNat 32 (m + x.g.toNat * 4194304 + x.d.toNat * 65536 + x.a.toNat * 1024 + x.b.toNat * 16 + x.n.toNat * 1)

/-- The fields of format Crf. -/
def getCrf (w : Nat) : Crf :=
  ⟨fieldAt 4 22 w, fieldAt 6 16 w, fieldAt 10 6 w, fieldAt 1 0 w⟩

/-- A word of format Crf over its fixed bits. -/
def putCrf (m : Nat) (x : Crf) : W32 :=
  BitVec.ofNat 32 (m + x.g.toNat * 4194304 + x.s.toNat * 65536 + x.l.toNat * 64 + x.n.toNat * 1)

/-- The fields of format Icinv. -/
def getIcinv (w : Nat) : Icinv :=
  ⟨fieldAt 4 22 w, fieldAt 6 10 w, fieldAt 6 4 w, fieldAt 3 1 w, fieldAt 1 0 w⟩

/-- A word of format Icinv over its fixed bits. -/
def putIcinv (m : Nat) (x : Icinv) : W32 :=
  BitVec.ofNat 32 (m + x.g.toNat * 4194304 + x.a.toNat * 1024 + x.b.toNat * 16 + x.f.toNat * 2 + x.n.toNat * 1)

/-- The fields of format Brk. -/
def getBrk (w : Nat) : Brk :=
  ⟨fieldAt 4 22 w, fieldAt 16 0 w⟩

/-- A word of format Brk over its fixed bits. -/
def putBrk (m : Nat) (x : Brk) : W32 :=
  BitVec.ofNat 32 (m + x.g.toNat * 4194304 + x.i.toNat * 1)

/-- The fields of format DN. -/
def getDN (w : Nat) : DN :=
  ⟨fieldAt 4 22 w, fieldAt 6 16 w, fieldAt 1 0 w⟩

/-- A word of format DN over its fixed bits. -/
def putDN (m : Nat) (x : DN) : W32 :=
  BitVec.ofNat 32 (m + x.g.toNat * 4194304 + x.d.toNat * 65536 + x.n.toNat * 1)

/-- The fields of format Ktst. -/
def getKtst (w : Nat) : Ktst :=
  ⟨fieldAt 4 22 w, fieldAt 4 18 w, fieldAt 6 12 w, fieldAt 1 0 w⟩

/-- A word of format Ktst over its fixed bits. -/
def putKtst (m : Nat) (x : Ktst) : W32 :=
  BitVec.ofNat 32 (m + x.g.toNat * 4194304 + x.p.toNat * 262144 + x.a.toNat * 4096 + x.n.toNat * 1)

/-- The fields of format KtstAll. -/
def getKtstAll (w : Nat) : KtstAll :=
  ⟨fieldAt 4 22 w, fieldAt 4 18 w, fieldAt 6 12 w, fieldAt 6 6 w, fieldAt 1 0 w⟩

/-- A word of format KtstAll over its fixed bits. -/
def putKtstAll (m : Nat) (x : KtstAll) : W32 :=
  BitVec.ofNat 32 (m + x.g.toNat * 4194304 + x.p.toNat * 262144 + x.a.toNat * 4096 + x.b.toNat * 64 + x.n.toNat * 1)

/-- The fields of format Gld. -/
def getGld (w : Nat) : Gld :=
  ⟨fieldAt 4 22 w, fieldAt 6 16 w, fieldAt 4 12 w, fieldAt 12 0 w⟩

/-- A word of format Gld over its fixed bits. -/
def putGld (m : Nat) (x : Gld) : W32 :=
  BitVec.ofNat 32 (m + x.g.toNat * 4194304 + x.d.toNat * 65536 + x.a.toNat * 4096 + x.l.toNat * 1)

/-- The fields of format Gst. -/
def getGst (w : Nat) : Gst :=
  ⟨fieldAt 4 22 w, fieldAt 6 16 w, fieldAt 4 12 w⟩

/-- A word of format Gst over its fixed bits. -/
def putGst (m : Nat) (x : Gst) : W32 :=
  BitVec.ofNat 32 (m + x.g.toNat * 4194304 + x.d.toNat * 65536 + x.a.toNat * 4096)

/-- The fields of format Stcv. -/
def getStcv (w : Nat) : Stcv :=
  ⟨fieldAt 4 22 w, fieldAt 6 16 w, fieldAt 4 12 w, fieldAt 2 0 w⟩

/-- A word of format Stcv over its fixed bits. -/
def putStcv (m : Nat) (x : Stcv) : W32 :=
  BitVec.ofNat 32 (m + x.g.toNat * 4194304 + x.d.toNat * 65536 + x.a.toNat * 4096 + x.r.toNat * 1)

/-- The fields of format Probe. -/
def getProbe (w : Nat) : Probe :=
  ⟨fieldAt 4 22 w, fieldAt 6 16 w, fieldAt 6 10 w, fieldAt 1 1 w, fieldAt 1 0 w⟩

/-- A word of format Probe over its fixed bits. -/
def putProbe (m : Nat) (x : Probe) : W32 :=
  BitVec.ofNat 32 (m + x.g.toNat * 4194304 + x.d.toNat * 65536 + x.a.toNat * 1024 + x.f.toNat * 2 + x.n.toNat * 1)

/-- The fields of format Pref. -/
def getPref (w : Nat) : Pref :=
  ⟨fieldAt 4 22 w, fieldAt 1 16 w, fieldAt 4 12 w, fieldAt 12 0 w⟩

/-- A word of format Pref over its fixed bits. -/
def putPref (m : Nat) (x : Pref) : W32 :=
  BitVec.ofNat 32 (m + x.g.toNat * 4194304 + x.e.toNat * 65536 + x.a.toNat * 4096 + x.l.toNat * 1)

/-- The fields of format Drain. -/
def getDrain (w : Nat) : Drain :=
  ⟨fieldAt 4 22 w, fieldAt 3 1 w, fieldAt 1 0 w⟩

/-- A word of format Drain over its fixed bits. -/
def putDrain (m : Nat) (x : Drain) : W32 :=
  BitVec.ofNat 32 (m + x.g.toNat * 4194304 + x.f.toNat * 2 + x.n.toNat * 1)

/-- The fields of format Atm. -/
def getAtm (w : Nat) : Atm :=
  ⟨fieldAt 4 22 w, fieldAt 6 16 w, fieldAt 4 12 w, fieldAt 6 6 w, fieldAt 2 4 w, fieldAt 3 1 w, fieldAt 1 0 w⟩

/-- A word of format Atm over its fixed bits. -/
def putAtm (m : Nat) (x : Atm) : W32 :=
  BitVec.ofNat 32 (m + x.g.toNat * 4194304 + x.d.toNat * 65536 + x.a.toNat * 4096 + x.b.toNat * 64 + x.o.toNat * 16 + x.c.toNat * 2 + x.n.toNat * 1)

/-- The fields of format Atst. -/
def getAtst (w : Nat) : Atst :=
  ⟨fieldAt 4 22 w, fieldAt 4 12 w, fieldAt 6 6 w, fieldAt 2 4 w, fieldAt 3 1 w, fieldAt 1 0 w⟩

/-- A word of format Atst over its fixed bits. -/
def putAtst (m : Nat) (x : Atst) : W32 :=
  BitVec.ofNat 32 (m + x.g.toNat * 4194304 + x.a.toNat * 4096 + x.b.toNat * 64 + x.o.toNat * 16 + x.c.toNat * 2 + x.n.toNat * 1)

/-- The fields of format Clfl. -/
def getClfl (w : Nat) : Clfl :=
  ⟨fieldAt 4 22 w, fieldAt 6 10 w, fieldAt 6 4 w, fieldAt 1 1 w, fieldAt 1 0 w⟩

/-- A word of format Clfl over its fixed bits. -/
def putClfl (m : Nat) (x : Clfl) : W32 :=
  BitVec.ofNat 32 (m + x.g.toNat * 4194304 + x.a.toNat * 1024 + x.b.toNat * 16 + x.f.toNat * 2 + x.n.toNat * 1)

/-- The fields of format VRR. -/
def getVRR (w : Nat) : VRR :=
  ⟨fieldAt 4 22 w, fieldAt 6 16 w, fieldAt 6 10 w, fieldAt 6 4 w, fieldAt 2 2 w, fieldAt 2 0 w⟩

/-- A word of format VRR over its fixed bits. -/
def putVRR (m : Nat) (x : VRR) : W32 :=
  BitVec.ofNat 32 (m + x.g.toNat * 4194304 + x.d.toNat * 65536 + x.a.toNat * 1024 + x.b.toNat * 16 + x.t.toNat * 4 + x.m.toNat * 1)

/-- The fields of format VShI. -/
def getVShI (w : Nat) : VShI :=
  ⟨fieldAt 4 22 w, fieldAt 6 16 w, fieldAt 6 10 w, fieldAt 5 2 w, fieldAt 2 0 w⟩

/-- A word of format VShI over its fixed bits. -/
def putVShI (m : Nat) (x : VShI) : W32 :=
  BitVec.ofNat 32 (m + x.g.toNat * 4194304 + x.d.toNat * 65536 + x.a.toNat * 1024 + x.i.toNat * 4 + x.m.toNat * 1)

/-- The fields of format VRA. -/
def getVRA (w : Nat) : VRA :=
  ⟨fieldAt 4 22 w, fieldAt 6 16 w, fieldAt 6 10 w, fieldAt 2 2 w, fieldAt 2 0 w⟩

/-- A word of format VRA over its fixed bits. -/
def putVRA (m : Nat) (x : VRA) : W32 :=
  BitVec.ofNat 32 (m + x.g.toNat * 4194304 + x.d.toNat * 65536 + x.a.toNat * 1024 + x.t.toNat * 4 + x.m.toNat * 1)

/-- The fields of format VCv. -/
def getVCv (w : Nat) : VCv :=
  ⟨fieldAt 4 22 w, fieldAt 6 16 w, fieldAt 6 10 w, fieldAt 4 6 w, fieldAt 4 2 w, fieldAt 2 0 w⟩

/-- A word of format VCv over its fixed bits. -/
def putVCv (m : Nat) (x : VCv) : W32 :=
  BitVec.ofNat 32 (m + x.g.toNat * 4194304 + x.d.toNat * 65536 + x.a.toNat * 1024 + x.s.toNat * 64 + x.e.toNat * 4 + x.r.toNat * 1)

/-- The fields of format VRB. -/
def getVRB (w : Nat) : VRB :=
  ⟨fieldAt 4 22 w, fieldAt 6 16 w, fieldAt 6 10 w, fieldAt 6 4 w, fieldAt 2 0 w⟩

/-- A word of format VRB over its fixed bits. -/
def putVRB (m : Nat) (x : VRB) : W32 :=
  BitVec.ofNat 32 (m + x.g.toNat * 4194304 + x.d.toNat * 65536 + x.a.toNat * 1024 + x.b.toNat * 16 + x.m.toNat * 1)

/-- The fields of format VRI. -/
def getVRI (w : Nat) : VRI :=
  ⟨fieldAt 4 22 w, fieldAt 6 16 w, fieldAt 6 10 w, fieldAt 8 2 w, fieldAt 2 0 w⟩

/-- A word of format VRI over its fixed bits. -/
def putVRI (m : Nat) (x : VRI) : W32 :=
  BitVec.ofNat 32 (m + x.g.toNat * 4194304 + x.d.toNat * 65536 + x.a.toNat * 1024 + x.i.toNat * 4 + x.m.toNat * 1)

/-- The fields of format VEx. -/
def getVEx (w : Nat) : VEx :=
  ⟨fieldAt 4 22 w, fieldAt 6 16 w, fieldAt 6 10 w, fieldAt 6 2 w, fieldAt 2 0 w⟩

/-- A word of format VEx over its fixed bits. -/
def putVEx (m : Nat) (x : VEx) : W32 :=
  BitVec.ofNat 32 (m + x.g.toNat * 4194304 + x.d.toNat * 65536 + x.a.toNat * 1024 + x.i.toNat * 4 + x.m.toNat * 1)

/-- The fields of format Tmm. -/
def getTmm (w : Nat) : Tmm :=
  ⟨fieldAt 4 22 w, fieldAt 2 20 w, fieldAt 4 16 w, fieldAt 4 12 w, fieldAt 5 7 w, fieldAt 5 2 w, fieldAt 2 0 w⟩

/-- A word of format Tmm over its fixed bits. -/
def putTmm (m : Nat) (x : Tmm) : W32 :=
  BitVec.ofNat 32 (m + x.g.toNat * 4194304 + x.b.toNat * 1048576 + x.p.toNat * 65536 + x.q.toNat * 4096 + x.k.toNat * 128 + x.c.toNat * 4 + x.n.toNat * 1)

/-- The fields of format Tab. -/
def getTab (w : Nat) : Tab :=
  ⟨fieldAt 4 22 w, fieldAt 2 20 w, fieldAt 4 16 w, fieldAt 5 7 w, fieldAt 5 2 w, fieldAt 2 0 w⟩

/-- A word of format Tab over its fixed bits. -/
def putTab (m : Nat) (x : Tab) : W32 :=
  BitVec.ofNat 32 (m + x.g.toNat * 4194304 + x.b.toNat * 1048576 + x.p.toNat * 65536 + x.k.toNat * 128 + x.c.toNat * 4 + x.n.toNat * 1)

/-- The fields of format Acz. -/
def getAcz (w : Nat) : Acz :=
  ⟨fieldAt 4 22 w, fieldAt 2 20 w⟩

/-- A word of format Acz over its fixed bits. -/
def putAcz (m : Nat) (x : Acz) : W32 :=
  BitVec.ofNat 32 (m + x.g.toNat * 4194304 + x.b.toNat * 1048576)

/-- The fields of format Tac. -/
def getTac (w : Nat) : Tac :=
  ⟨fieldAt 4 22 w, fieldAt 2 20 w, fieldAt 6 14 w, fieldAt 6 8 w, fieldAt 8 0 w⟩

/-- A word of format Tac over its fixed bits. -/
def putTac (m : Nat) (x : Tac) : W32 :=
  BitVec.ofNat 32 (m + x.g.toNat * 4194304 + x.b.toNat * 1048576 + x.x.toNat * 16384 + x.y.toNat * 256 + x.i.toNat * 1)

/-- The fields of format Acsc. -/
def getAcsc (w : Nat) : Acsc :=
  ⟨fieldAt 4 22 w, fieldAt 2 20 w, fieldAt 6 14 w, fieldAt 8 0 w⟩

/-- A word of format Acsc over its fixed bits. -/
def putAcsc (m : Nat) (x : Acsc) : W32 :=
  BitVec.ofNat 32 (m + x.g.toNat * 4194304 + x.b.toNat * 1048576 + x.x.toNat * 16384 + x.i.toNat * 1)

/-- The fields of format Acmv. -/
def getAcmv (w : Nat) : Acmv :=
  ⟨fieldAt 4 22 w, fieldAt 2 20 w, fieldAt 2 14 w, fieldAt 1 0 w⟩

/-- A word of format Acmv over its fixed bits. -/
def putAcmv (m : Nat) (x : Acmv) : W32 :=
  BitVec.ofNat 32 (m + x.g.toNat * 4194304 + x.b.toNat * 1048576 + x.x.toNat * 16384 + x.i.toNat * 1)

/-- The fields of format Acps. -/
def getAcps (w : Nat) : Acps :=
  ⟨fieldAt 4 22 w, fieldAt 2 20 w, fieldAt 6 14 w, fieldAt 1 0 w⟩

/-- A word of format Acps over its fixed bits. -/
def putAcps (m : Nat) (x : Acps) : W32 :=
  BitVec.ofNat 32 (m + x.g.toNat * 4194304 + x.b.toNat * 1048576 + x.x.toNat * 16384 + x.i.toNat * 1)

/-- The fields of format Mprg. -/
def getMprg (w : Nat) : Mprg :=
  ⟨fieldAt 4 22 w, fieldAt 2 20 w, fieldAt 6 14 w⟩

/-- A word of format Mprg over its fixed bits. -/
def putMprg (m : Nat) (x : Mprg) : W32 :=
  BitVec.ofNat 32 (m + x.g.toNat * 4194304 + x.b.toNat * 1048576 + x.x.toNat * 16384)

/-- The fields of format EngH. -/
def getEngH (w : Nat) : EngH :=
  ⟨fieldAt 4 22 w, fieldAt 5 17 w, fieldAt 5 12 w, fieldAt 2 10 w, fieldAt 5 5 w, fieldAt 3 0 w⟩

/-- A word of format EngH over its fixed bits. -/
def putEngH (m : Nat) (x : EngH) : W32 :=
  BitVec.ofNat 32 (m + x.g.toNat * 4194304 + x.k.toNat * 131072 + x.c.toNat * 4096 + x.n.toNat * 1024 + x.p.toNat * 32 + x.h.toNat * 1)

/-- The fields of format Cstat. -/
def getCstat (w : Nat) : Cstat :=
  ⟨fieldAt 4 22 w, fieldAt 5 17 w, fieldAt 5 12 w, fieldAt 2 10 w, fieldAt 5 5 w, fieldAt 2 3 w, fieldAt 3 0 w⟩

/-- A word of format Cstat over its fixed bits. -/
def putCstat (m : Nat) (x : Cstat) : W32 :=
  BitVec.ofNat 32 (m + x.g.toNat * 4194304 + x.k.toNat * 131072 + x.c.toNat * 4096 + x.n.toNat * 1024 + x.p.toNat * 32 + x.e.toNat * 8 + x.h.toNat * 1)

/-- The fields of format Eng. -/
def getEng (w : Nat) : Eng :=
  ⟨fieldAt 4 22 w, fieldAt 5 17 w, fieldAt 5 12 w, fieldAt 2 10 w, fieldAt 5 5 w⟩

/-- A word of format Eng over its fixed bits. -/
def putEng (m : Nat) (x : Eng) : W32 :=
  BitVec.ofNat 32 (m + x.g.toNat * 4194304 + x.k.toNat * 131072 + x.c.toNat * 4096 + x.n.toNat * 1024 + x.p.toNat * 32)

/-- The fields of format EngF. -/
def getEngF (w : Nat) : EngF :=
  ⟨fieldAt 4 22 w, fieldAt 5 17 w, fieldAt 5 12 w, fieldAt 2 10 w, fieldAt 5 5 w, fieldAt 5 0 w⟩

/-- A word of format EngF over its fixed bits. -/
def putEngF (m : Nat) (x : EngF) : W32 :=
  BitVec.ofNat 32 (m + x.g.toNat * 4194304 + x.k.toNat * 131072 + x.c.toNat * 4096 + x.n.toNat * 1024 + x.p.toNat * 32 + x.f.toNat * 1)

/-- The fields of format EngI. -/
def getEngI (w : Nat) : EngI :=
  ⟨fieldAt 4 22 w, fieldAt 5 17 w, fieldAt 5 12 w, fieldAt 2 10 w, fieldAt 5 5 w, fieldAt 4 0 w⟩

/-- A word of format EngI over its fixed bits. -/
def putEngI (m : Nat) (x : EngI) : W32 :=
  BitVec.ofNat 32 (m + x.g.toNat * 4194304 + x.k.toNat * 131072 + x.c.toNat * 4096 + x.n.toNat * 1024 + x.p.toNat * 32 + x.i.toNat * 1)

/-- The fields of format Rufl. -/
def getRufl (w : Nat) : Rufl :=
  ⟨fieldAt 4 22 w, fieldAt 5 17 w, fieldAt 5 12 w, fieldAt 2 10 w, fieldAt 5 5 w, fieldAt 1 0 w⟩

/-- A word of format Rufl over its fixed bits. -/
def putRufl (m : Nat) (x : Rufl) : W32 :=
  BitVec.ofNat 32 (m + x.g.toNat * 4194304 + x.k.toNat * 131072 + x.c.toNat * 4096 + x.n.toNat * 1024 + x.p.toNat * 32 + x.f.toNat * 1)

/-- The fields of format Kjoin. -/
def getKjoin (w : Nat) : Kjoin :=
  ⟨fieldAt 4 22 w, fieldAt 5 17 w, fieldAt 5 12 w, fieldAt 2 10 w⟩

/-- A word of format Kjoin over its fixed bits. -/
def putKjoin (m : Nat) (x : Kjoin) : W32 :=
  BitVec.ofNat 32 (m + x.g.toNat * 4194304 + x.k.toNat * 131072 + x.c.toNat * 4096 + x.n.toNat * 1024)

/-- The fields of format Chn. -/
def getChn (w : Nat) : Chn :=
  ⟨fieldAt 4 22 w, fieldAt 5 17 w, fieldAt 5 12 w, fieldAt 6 6 w, fieldAt 6 0 w⟩

/-- A word of format Chn over its fixed bits. -/
def putChn (m : Nat) (x : Chn) : W32 :=
  BitVec.ofNat 32 (m + x.g.toNat * 4194304 + x.k.toNat * 131072 + x.c.toNat * 4096 + x.h.toNat * 64 + x.v.toNat * 1)

/-- The fields of format Chcl. -/
def getChcl (w : Nat) : Chcl :=
  ⟨fieldAt 4 22 w, fieldAt 5 17 w, fieldAt 5 12 w, fieldAt 6 6 w⟩

/-- A word of format Chcl over its fixed bits. -/
def putChcl (m : Nat) (x : Chcl) : W32 :=
  BitVec.ofNat 32 (m + x.g.toNat * 4194304 + x.k.toNat * 131072 + x.c.toNat * 4096 + x.h.toNat * 64)

/-- The fields of format EngR. -/
def getEngR (w : Nat) : EngR :=
  ⟨fieldAt 4 22 w, fieldAt 5 17 w, fieldAt 5 12 w, fieldAt 2 10 w, fieldAt 5 5 w, fieldAt 1 0 w⟩

/-- A word of format EngR over its fixed bits. -/
def putEngR (m : Nat) (x : EngR) : W32 :=
  BitVec.ofNat 32 (m + x.g.toNat * 4194304 + x.k.toNat * 131072 + x.c.toNat * 4096 + x.n.toNat * 1024 + x.p.toNat * 32 + x.r.toNat * 1)

/-- An instruction, or the reason its codes are illegal. -/
def checked (name : String) (i : Instr) : Except DecodeError Instr :=
  if legal i then .ok i else .error (.illegal name i)

/-- Class G, positions 0 and 1 (03 Tables 3-8 to 3-13). -/
def decodeG (w : Nat) : Except DecodeError Instr :=
  match w / 67108864 with
  | 0 => checked "ADD" (.add (getRRR w))
  | 1 => checked "SUB" (.sub (getRRR w))
  | 2 => checked "AND" (.and (getRRR w))
  | 3 => checked "OR" (.or (getRRR w))
  | 4 => checked "XOR" (.xor (getRRR w))
  | 5 => checked "ANDN" (.andn (getRRR w))
  | 6 => checked "SHL" (.shl (getRRR w))
  | 7 => checked "SHR" (.shr (getRRR w))
  | 8 => checked "SAR" (.sar (getRRR w))
  | 9 => checked "ROT" (.rot (getRRR w))
  | 10 => checked "MIN" (.min (getRRR w))
  | 11 => checked "MAX" (.max (getRRR w))
  | 12 => checked "MINU" (.minu (getRRR w))
  | 13 => checked "MAXU" (.maxu (getRRR w))
  | 14 => checked "MUL" (.mul (getRRR w))
  | 15 => checked "MULH" (.mulh (getRRR w))
  | 16 => checked "MULHU" (.mulhu (getRRR w))
  | 17 => checked "ADDI" (.addi (getRRI w))
  | 18 => checked "ANDI" (.andi (getRRI w))
  | 19 => checked "ORI" (.ori (getRRI w))
  | 20 => checked "XORI" (.xori (getRRI w))
  | 21 => if w &&& 0x00003C0 = 0x0000000 then checked "SHLI" (.shli (getShI w)) else .error (.fixedBits 21 (.shli (getShI w)))
  | 22 => if w &&& 0x00003C0 = 0x0000000 then checked "SHRI" (.shri (getShI w)) else .error (.fixedBits 22 (.shri (getShI w)))
  | 23 => if w &&& 0x00003C0 = 0x0000000 then checked "SARI" (.sari (getShI w)) else .error (.fixedBits 23 (.sari (getShI w)))
  | 24 => checked "MOVI" (.movi (getRI w))
  | 25 => checked "MOVHI" (.movhi (getRI w))
  | 26 => checked "SEL" (.sel (getRRR w))
  | 27 => checked "CMP" (.cmp (getCmp w))
  | 28 => checked "CMPI" (.cmpi (getCmpi w))
  | 29 => if w &&& 0x0000002 = 0x0000000 then checked "PLOG" (.plog (getPlog w)) else .error (.fixedBits 29 (.plog (getPlog w)))
  | 30 => checked "BITOP" (.bitop (getRRR w))
  | 31 => checked "BFX" (.bfx (getRRR w))
  | 32 => checked "DIV" (.div (getRRR w))
  | 33 => checked "BR" (.br (getBrf w))
  | 34 => if w &&& 0x03F03FE = 0x0000000 then checked "JMP" (.jmp (getAN w)) else .error (.fixedBits 34 (.jmp (getAN w)))
  | 35 => checked "CALL" (.call (getBrf w))
  | 36 => if w &&& 0x03F03FE = 0x0000000 then checked "RET" (.ret (getAN w)) else .error (.fixedBits 36 (.ret (getAN w)))
  | 37 => checked "LOOP" (.loop (getRI w))
  | 38 => checked "LOOPR" (.loopr (getLoopr w))
  | 39 => checked "LBRK" (.lbrk (getBrf w))
  | 40 => checked "AUDEF" (.audef (getRRR w))
  | 41 => if w &&& 0x03F000E = 0x0000000 then checked "WAITK" (.waitk (getABN w)) else .error (.fixedBits 41 (.waitk (getABN w)))
  | 42 => checked "WAITM" (.waitm (getRRR w))
  | 43 => checked "TRAP" (.trap (getRI w))
  | 44 => if w &&& 0x00003FE = 0x0000000 then checked "PRES" (.pres (getRR1 w)) else if w &&& 0x00003FE = 0x0000002 then checked "PRES_SKIP" (.presSkip (getRR1 w)) else if w &&& 0x000000E = 0x0000004 then checked "PRES_MIG" (.presMig (getPresMig w)) else .error (.fixedBits 44 (.pres (getRR1 w)))
  | 45 => if w &&& 0x00003FE = 0x0000000 then checked "PKILL" (.pkill (getRR1 w)) else .error (.fixedBits 45 (.pkill (getRR1 w)))
  | 46 => if w &&& 0x000003E = 0x0000000 then checked "CRR" (.crr (getCrf w)) else .error (.fixedBits 46 (.crr (getCrf w)))
  | 47 => if w &&& 0x000003E = 0x0000000 then checked "CRW" (.crw (getCrf w)) else .error (.fixedBits 47 (.crw (getCrf w)))
  | 48 => if w &&& 0x03F0000 = 0x0000000 then checked "ICINV" (.icinv (getIcinv w)) else .error (.fixedBits 48 (.icinv (getIcinv w)))
  | 49 => if w &&& 0x03F0000 = 0x0000000 then checked "BRK" (.brk (getBrk w)) else .error (.fixedBits 49 (.brk (getBrk w)))
  | 50 => if w &&& 0x03F03FE = 0x0000000 then checked "FIN" (.fin (getAN w)) else .error (.fixedBits 50 (.fin (getAN w)))
  | 51 => if w &&& 0x00003FE = 0x0000000 then checked "MOVX" (.movx (getRR1 w)) else if w &&& 0x000FFFE = 0x0000002 then checked "MOVX_K" (.movxK (getDN w)) else .error (.fixedBits 51 (.movx (getRR1 w)))
  | 52 => if w &&& 0x000FFFE = 0x0000000 then checked "MOVP" (.movp (getDN w)) else if w &&& 0x03F03FE = 0x0000002 then checked "MOVP_W" (.movpW (getAN w)) else .error (.fixedBits 52 (.movp (getDN w)))
  | 53 => if w &&& 0x0000FFE = 0x0000000 then checked "KTST" (.ktst (getKtst w)) else if w &&& 0x000003E = 0x0000002 then checked "KTST_ALL" (.ktstAll (getKtstAll w)) else .error (.fixedBits 53 (.ktst (getKtst w)))
  | mj => .error (.unassigned 0 mj)

/-- Class M, position 2 (03 Tables 3-8 to 3-13). -/
def decodeM (w : Nat) : Except DecodeError Instr :=
  match w / 67108864 with
  | 0 => checked "LDS" (.lds (getRRI w))
  | 1 => checked "STS" (.sts (getRRI w))
  | 2 => checked "LDV" (.ldv (getRRI w))
  | 3 => checked "STV" (.stv (getRRI w))
  | 4 => checked "LDG" (.ldg (getGld w))
  | 5 => if w &&& 0x0000FFF = 0x0000000 then checked "STG" (.stg (getGst w)) else .error (.fixedBits 5 (.stg (getGst w)))
  | 6 => checked "LDGV" (.ldgv (getGld w))
  | 7 => if w &&& 0x0000FFF = 0x0000000 then checked "STGV" (.stgv (getGst w)) else .error (.fixedBits 7 (.stgv (getGst w)))
  | 8 => checked "LDCV" (.ldcv (getGld w))
  | 9 => if w &&& 0x0000FFC = 0x0000000 then checked "STCV" (.stcv (getStcv w)) else .error (.fixedBits 9 (.stcv (getStcv w)))
  | 10 => checked "GATH" (.gath (getRRR w))
  | 11 => checked "SCAT" (.scat (getRRR w))
  | 12 => if w &&& 0x00003FE = 0x0000000 then checked "XLAT" (.xlat (getRR1 w)) else .error (.fixedBits 12 (.xlat (getRR1 w)))
  | 13 => if w &&& 0x000FFFE = 0x0000000 then checked "HREL" (.hrel (getDN w)) else .error (.fixedBits 13 (.hrel (getDN w)))
  | 14 => if w &&& 0x00003FC = 0x0000000 then checked "PROBE" (.probe (getProbe w)) else .error (.fixedBits 14 (.probe (getProbe w)))
  | 15 => if w &&& 0x03E0000 = 0x0000000 then checked "PREF" (.pref (getPref w)) else .error (.fixedBits 15 (.pref (getPref w)))
  | 16 => if w &&& 0x03FFFF0 = 0x0000000 then checked "DRAIN" (.drain (getDrain w)) else .error (.fixedBits 16 (.drain (getDrain w)))
  | 17 => checked "ATADD" (.atadd (getAtm w))
  | 18 => checked "ATMIN" (.atmin (getAtm w))
  | 19 => checked "ATMAX" (.atmax (getAtm w))
  | 20 => checked "ATAND" (.atand (getAtm w))
  | 21 => checked "ATOR" (.ator (getAtm w))
  | 22 => checked "ATXOR" (.atxor (getAtm w))
  | 23 => checked "ATXCH" (.atxch (getAtm w))
  | 24 => checked "ATCAS" (.atcas (getAtm w))
  | 25 => checked "ATLD" (.atld (getAtm w))
  | 26 => if w &&& 0x03F0000 = 0x0000000 then checked "ATST" (.atst (getAtst w)) else .error (.fixedBits 26 (.atst (getAtst w)))
  | 27 => if w &&& 0x00003FE = 0x0000000 then checked "LTAG" (.ltag (getRR1 w)) else .error (.fixedBits 27 (.ltag (getRR1 w)))
  | 28 => checked "GATHS" (.gaths (getRRR w))
  | 29 => checked "SCATS" (.scats (getRRR w))
  | 30 => if w &&& 0x03F000C = 0x0000000 then checked "CLFL" (.clfl (getClfl w)) else .error (.fixedBits 30 (.clfl (getClfl w)))
  | 31 => if w &&& 0x03F000E = 0x0000000 then checked "CLINV" (.clinv (getABN w)) else .error (.fixedBits 31 (.clinv (getABN w)))
  | 32 => if w &&& 0x03F03FE = 0x0000000 then checked "PCLR" (.pclr (getAN w)) else .error (.fixedBits 32 (.pclr (getAN w)))
  | mj => .error (.unassigned 2 mj)

/-- Class E, positions 3 and 4 (03 Tables 3-8 to 3-13). -/
def decodeE (w : Nat) : Except DecodeError Instr :=
  match w / 67108864 with
  | 0 => checked "VADD" (.vadd (getVRR w))
  | 1 => checked "VSUB" (.vsub (getVRR w))
  | 2 => checked "VMIN" (.vmin (getVRR w))
  | 3 => checked "VMAX" (.vmax (getVRR w))
  | 4 => checked "VUNA" (.vuna (getVRR w))
  | 5 => checked "VAND" (.vand (getVRR w))
  | 6 => checked "VOR" (.vor (getVRR w))
  | 7 => checked "VXOR" (.vxor (getVRR w))
  | 8 => if w &&& 0x0000380 = 0x0000000 then checked "VSHL" (.vshl (getVShI w)) else .error (.fixedBits 8 (.vshl (getVShI w)))
  | 9 => if w &&& 0x0000380 = 0x0000000 then checked "VSHR" (.vshr (getVShI w)) else .error (.fixedBits 9 (.vshr (getVShI w)))
  | 10 => if w &&& 0x0000380 = 0x0000000 then checked "VSAR" (.vsar (getVShI w)) else .error (.fixedBits 10 (.vsar (getVShI w)))
  | 11 => checked "VIADD" (.viadd (getVRR w))
  | 12 => checked "VISUB" (.visub (getVRR w))
  | 13 => checked "VCMP" (.vcmp (getVRR w))
  | 14 => checked "VSEL" (.vsel (getVRR w))
  | 15 => if w &&& 0x00003F0 = 0x0000000 then checked "VMOV" (.vmov (getVRA w)) else .error (.fixedBits 15 (.vmov (getVRA w)))
  | 16 => checked "VCVT" (.vcvt (getVCv w))
  | 17 => checked "VRED" (.vred (getVRR w))
  | 18 => checked "VSCAN" (.vscan (getVRR w))
  | 19 => if w &&& 0x000000C = 0x000000C then checked "VPERM" (.vperm (getVRB w)) else .error (.fixedBits 19 (.vperm (getVRB w)))
  | 20 => checked "VSHUF" (.vshuf (getVRI w))
  | 21 => checked "VROT" (.vrot (getVRI w))
  | 22 => if w &&& 0x000000C = 0x0000000 then checked "VMSK" (.vmsk (getVRB w)) else .error (.fixedBits 22 (.vmsk (getVRB w)))
  | 23 => if w &&& 0x000000C = 0x000000C then checked "VMTS" (.vmts (getVRB w)) else .error (.fixedBits 23 (.vmts (getVRB w)))
  | 24 => checked "VSEG" (.vseg (getVRR w))
  | 25 => checked "VBSC" (.vbsc (getVRR w))
  | 26 => checked "VQNT" (.vqnt (getVCv w))
  | 27 => checked "VDQNT" (.vdqnt (getVCv w))
  | 28 => checked "VCLMP" (.vclmp (getVRR w))
  | 29 => checked "VIMNX" (.vimnx (getVRR w))
  | 30 => if w &&& 0x0000300 = 0x0000000 then checked "VEXT" (.vext (getVEx w)) else .error (.fixedBits 30 (.vext (getVEx w)))
  | 31 => if w &&& 0x0000300 = 0x0000000 then checked "VINS" (.vins (getVEx w)) else .error (.fixedBits 31 (.vins (getVEx w)))
  | 32 => checked "VMUL" (.vmul (getVRR w))
  | 33 => checked "VFMA" (.vfma (getVRR w))
  | 34 => checked "VFMS" (.vfms (getVRR w))
  | 35 => checked "VFNMA" (.vfnma (getVRR w))
  | 36 => checked "VIMUL" (.vimul (getVRR w))
  | 37 => if w &&& 0x00003F0 = 0x0000000 then checked "VRCP" (.vrcp (getVRA w)) else .error (.fixedBits 37 (.vrcp (getVRA w)))
  | 38 => if w &&& 0x00003F0 = 0x0000000 then checked "VRSQ" (.vrsq (getVRA w)) else .error (.fixedBits 38 (.vrsq (getVRA w)))
  | 39 => if w &&& 0x00003F0 = 0x0000000 then checked "VSQRT" (.vsqrt (getVRA w)) else .error (.fixedBits 39 (.vsqrt (getVRA w)))
  | 40 => if w &&& 0x00003F0 = 0x0000000 then checked "VEXP2" (.vexp2 (getVRA w)) else .error (.fixedBits 40 (.vexp2 (getVRA w)))
  | 41 => if w &&& 0x00003F0 = 0x0000000 then checked "VLOG2" (.vlog2 (getVRA w)) else .error (.fixedBits 41 (.vlog2 (getVRA w)))
  | 42 => checked "VDOT" (.vdot (getVRR w))
  | mj => .error (.unassigned 3 mj)

/-- Class T, position 5 (03 Tables 3-8 to 3-13). -/
def decodeT (w : Nat) : Except DecodeError Instr :=
  match w / 67108864 with
  | 0 => checked "MMA" (.mma (getTmm w))
  | 1 => checked "MMAT" (.mmat (getTmm w))
  | 2 => checked "MMAZ" (.mmaz (getTmm w))
  | 3 => if w &&& 0x000F000 = 0x0000000 then checked "ACLD" (.acld (getTab w)) else .error (.fixedBits 3 (.acld (getTab w)))
  | 4 => if w &&& 0x000F000 = 0x0000000 then checked "ACST" (.acst (getTab w)) else .error (.fixedBits 4 (.acst (getTab w)))
  | 5 => if w &&& 0x00FFFFF = 0x0000000 then checked "ACZ" (.acz (getAcz w)) else .error (.fixedBits 5 (.acz (getAcz w)))
  | 6 => checked "ACRD" (.acrd (getTac w))
  | 7 => checked "ACWR" (.acwr (getTac w))
  | 8 => if w &&& 0x0003F00 = 0x0000000 then checked "ACSC" (.acsc (getAcsc w)) else .error (.fixedBits 8 (.acsc (getAcsc w)))
  | 9 => if w &&& 0x00F3FFE = 0x0000000 then checked "ACMV" (.acmv (getAcmv w)) else .error (.fixedBits 9 (.acmv (getAcmv w)))
  | 10 => if w &&& 0x0003FFE = 0x0000000 then checked "ACPS" (.acps (getAcps w)) else .error (.fixedBits 10 (.acps (getAcps w)))
  | 11 => if w &&& 0x0003FFF = 0x0000000 then checked "MPRG" (.mprg (getMprg w)) else .error (.fixedBits 11 (.mprg (getMprg w)))
  | mj => .error (.unassigned 5 mj)

/-- Class D, position 6 (03 Tables 3-8 to 3-13). -/
def decodeD (w : Nat) : Except DecodeError Instr :=
  match w / 67108864 with
  | 0 => if w &&& 0x0000018 = 0x0000000 then checked "CPY" (.cpy (getEngH w)) else .error (.fixedBits 0 (.cpy (getEngH w)))
  | 1 => if w &&& 0x0000018 = 0x0000000 then checked "CPYC" (.cpyc (getEngH w)) else .error (.fixedBits 1 (.cpyc (getEngH w)))
  | 2 => if w &&& 0x0000018 = 0x0000000 then checked "CPYF" (.cpyf (getEngH w)) else .error (.fixedBits 2 (.cpyf (getEngH w)))
  | 3 => if w &&& 0x0000018 = 0x0000000 then checked "CPYK" (.cpyk (getEngH w)) else .error (.fixedBits 3 (.cpyk (getEngH w)))
  | 4 => if w &&& 0x0000018 = 0x0000000 then checked "CWAIT" (.cwait (getEngH w)) else .error (.fixedBits 4 (.cwait (getEngH w)))
  | 5 => checked "CSTAT" (.cstat (getCstat w))
  | 6 => if w &&& 0x000001F = 0x0000000 then checked "TSTEP" (.tstep (getEng w)) else .error (.fixedBits 6 (.tstep (getEng w)))
  | 7 => if w &&& 0x000001F = 0x0000000 then checked "TSCALE" (.tscale (getEng w)) else .error (.fixedBits 7 (.tscale (getEng w)))
  | 8 => if w &&& 0x000001F = 0x0000000 then checked "TREAD" (.tread (getEng w)) else if w &&& 0x000001F = 0x0000001 then checked "TREAD_SYNC" (.treadSync (getEng w)) else .error (.fixedBits 8 (.tread (getEng w)))
  | 9 => if w &&& 0x000001F = 0x0000000 then checked "TCFG" (.tcfg (getEng w)) else .error (.fixedBits 9 (.tcfg (getEng w)))
  | 10 => if w &&& 0x000001F = 0x0000000 then checked "TRST" (.trst (getEng w)) else .error (.fixedBits 10 (.trst (getEng w)))
  | 11 => checked "TSUB" (.tsub (getEngF w))
  | 12 => if w &&& 0x000001F = 0x0000000 then checked "TWAIT" (.twait (getEng w)) else if w &&& 0x000001F = 0x0000001 then checked "TWAIT_ALL" (.twaitAll (getEng w)) else .error (.fixedBits 12 (.twait (getEng w)))
  | 13 => if w &&& 0x000001F = 0x0000000 then checked "SEMS_ADD" (.semsAdd (getEng w)) else if w &&& 0x000001F = 0x0000001 then checked "SEMS_SET" (.semsSet (getEng w)) else .error (.fixedBits 13 (.semsAdd (getEng w)))
  | 14 => if w &&& 0x000001F = 0x0000000 then checked "SEMW" (.semw (getEng w)) else .error (.fixedBits 14 (.semw (getEng w)))
  | 15 => if w &&& 0x000001F = 0x0000000 then checked "QINIT" (.qinit (getEng w)) else if w &&& 0x000001F = 0x0000010 then checked "QINIT_LOAD" (.qinitLoad (getEng w)) else .error (.fixedBits 15 (.qinit (getEng w)))
  | 16 => if w &&& 0x0000010 = 0x0000000 then checked "QGATE" (.qgate (getEngI w)) else .error (.fixedBits 16 (.qgate (getEngI w)))
  | 17 => if w &&& 0x0000010 = 0x0000000 then checked "QDIAG" (.qdiag (getEngI w)) else .error (.fixedBits 17 (.qdiag (getEngI w)))
  | 18 => if w &&& 0x000001F = 0x0000002 then checked "QSWAP" (.qswap (getEng w)) else .error (.fixedBits 18 (.qswap (getEng w)))
  | 19 => if w &&& 0x0000010 = 0x0000000 then checked "QMEAS" (.qmeas (getEngI w)) else if w &&& 0x0000010 = 0x0000010 then checked "QMEAS_SAMP" (.qmeasSamp (getEngI w)) else .error (.fixedBits 19 (.qmeas (getEngI w)))
  | 20 => if w &&& 0x000001F = 0x0000000 then checked "RUQ" (.ruq (getEng w)) else .error (.fixedBits 20 (.ruq (getEng w)))
  | 21 => if w &&& 0x000001E = 0x0000000 then checked "RUFL" (.rufl (getRufl w)) else .error (.fixedBits 21 (.rufl (getRufl w)))
  | 22 => if w &&& 0x000001F = 0x0000000 then checked "OCCR" (.occr (getEng w)) else if w &&& 0x000001F = 0x0000001 then checked "OCCR_CLR" (.occrClr (getEng w)) else .error (.fixedBits 22 (.occr (getEng w)))
  | 23 => if w &&& 0x00003FF = 0x0000000 then checked "KJOIN" (.kjoin (getKjoin w)) else .error (.fixedBits 23 (.kjoin (getKjoin w)))
  | mj => .error (.unassigned 6 mj)

/-- Class C, position 7 (03 Tables 3-8 to 3-13). -/
def decodeC (w : Nat) : Except DecodeError Instr :=
  match w / 67108864 with
  | 0 => checked "SEND" (.send (getChn w))
  | 1 => checked "RECV" (.recv (getChn w))
  | 2 => checked "RECVADD" (.recvadd (getChn w))
  | 3 => checked "CHST" (.chst (getChn w))
  | 4 => checked "CHOPN" (.chopn (getChn w))
  | 5 => if w &&& 0x000003F = 0x0000000 then checked "CHCL" (.chcl (getChcl w)) else .error (.fixedBits 5 (.chcl (getChcl w)))
  | 6 => checked "COLL" (.coll (getEngF w))
  | 7 => if w &&& 0x000001F = 0x0000000 then checked "COLW" (.colw (getEng w)) else .error (.fixedBits 7 (.colw (getEng w)))
  | 8 => checked "COLA" (.cola (getEngF w))
  | 9 => if w &&& 0x000001E = 0x0000000 then checked "BARR" (.barr (getEngR w)) else .error (.fixedBits 9 (.barr (getEngR w)))
  | 10 => if w &&& 0x000001E = 0x0000000 then checked "BARX" (.barx (getEngR w)) else .error (.fixedBits 10 (.barx (getEngR w)))
  | 11 => if w &&& 0x000001E = 0x0000000 then checked "BARW" (.barw (getEngR w)) else .error (.fixedBits 11 (.barw (getEngR w)))
  | 12 => if w &&& 0x000001F = 0x0000000 then checked "BARI_INIT" (.bariInit (getEng w)) else if w &&& 0x000001F = 0x0000001 then checked "BARI_FREE" (.bariFree (getEng w)) else .error (.fixedBits 12 (.bariInit (getEng w)))
  | 13 => checked "GRPC" (.grpc (getEngF w))
  | 14 => checked "GRPF" (.grpf (getEngF w))
  | 15 => checked "LNKS" (.lnks (getEngF w))
  | mj => .error (.unassigned 7 mj)

/-- The slot word of a position (03 R70, R83): G1 lacks the G0-only majors 32 and above, E1 the E0-only majors 32 to
42 (R25). -/
def decodeSlot (pos : Nat) (w : W32) : Except DecodeError Instr :=
  let n := w.toNat
  match pos with
  | 0 => decodeG n
  | 1 => if n / 67108864 < 32 then decodeG n else .error (.unassigned 1 (n / 67108864))
  | 2 => decodeM n
  | 3 => decodeE n
  | 4 => if n / 67108864 < 32 then decodeE n else .error (.unassigned 4 (n / 67108864))
  | 5 => decodeT n
  | 6 => decodeD n
  | 7 => decodeC n
  | p => .error (.unassigned p (n / 67108864))

/-- The no-operation bundle: a header word with MASK = 0 and RSV = 0 (03 R69). -/
def decodeNop (w : W32) : Option Instr :=
  if w.toNat &&& 0xFFE000FF = 0 then some (.nop (getNop w.toNat)) else none

/-- The position and word of an instruction: the lowest position of its class.  A step of the machinery has none; the
no-operation header stands at "position 8". -/
def encode (i : Instr) : Option (Nat × W32) :=
  match i with
  | .nop x => some (8, putNop 0 x)
  | .add x => some (0, putRRR 0 x)
  | .sub x => some (0, putRRR 67108864 x)
  | .and x => some (0, putRRR 134217728 x)
  | .or x => some (0, putRRR 201326592 x)
  | .xor x => some (0, putRRR 268435456 x)
  | .andn x => some (0, putRRR 335544320 x)
  | .shl x => some (0, putRRR 402653184 x)
  | .shr x => some (0, putRRR 469762048 x)
  | .sar x => some (0, putRRR 536870912 x)
  | .rot x => some (0, putRRR 603979776 x)
  | .min x => some (0, putRRR 671088640 x)
  | .max x => some (0, putRRR 738197504 x)
  | .minu x => some (0, putRRR 805306368 x)
  | .maxu x => some (0, putRRR 872415232 x)
  | .mul x => some (0, putRRR 939524096 x)
  | .mulh x => some (0, putRRR 1006632960 x)
  | .mulhu x => some (0, putRRR 1073741824 x)
  | .addi x => some (0, putRRI 1140850688 x)
  | .andi x => some (0, putRRI 1207959552 x)
  | .ori x => some (0, putRRI 1275068416 x)
  | .xori x => some (0, putRRI 1342177280 x)
  | .shli x => some (0, putShI 1409286144 x)
  | .shri x => some (0, putShI 1476395008 x)
  | .sari x => some (0, putShI 1543503872 x)
  | .movi x => some (0, putRI 1610612736 x)
  | .movhi x => some (0, putRI 1677721600 x)
  | .sel x => some (0, putRRR 1744830464 x)
  | .cmp x => some (0, putCmp 1811939328 x)
  | .cmpi x => some (0, putCmpi 1879048192 x)
  | .plog x => some (0, putPlog 1946157056 x)
  | .bitop x => some (0, putRRR 2013265920 x)
  | .bfx x => some (0, putRRR 2080374784 x)
  | .div x => some (0, putRRR 2147483648 x)
  | .br x => some (0, putBrf 2214592512 x)
  | .jmp x => some (0, putAN 2281701376 x)
  | .call x => some (0, putBrf 2348810240 x)
  | .ret x => some (0, putAN 2415919104 x)
  | .loop x => some (0, putRI 2483027968 x)
  | .loopr x => some (0, putLoopr 2550136832 x)
  | .lbrk x => some (0, putBrf 2617245696 x)
  | .audef x => some (0, putRRR 2684354560 x)
  | .waitk x => some (0, putABN 2751463424 x)
  | .waitm x => some (0, putRRR 2818572288 x)
  | .trap x => some (0, putRI 2885681152 x)
  | .pres x => some (0, putRR1 2952790016 x)
  | .presSkip x => some (0, putRR1 2952790018 x)
  | .presMig x => some (0, putPresMig 2952790020 x)
  | .pkill x => some (0, putRR1 3019898880 x)
  | .crr x => some (0, putCrf 3087007744 x)
  | .crw x => some (0, putCrf 3154116608 x)
  | .icinv x => some (0, putIcinv 3221225472 x)
  | .brk x => some (0, putBrk 3288334336 x)
  | .fin x => some (0, putAN 3355443200 x)
  | .movx x => some (0, putRR1 3422552064 x)
  | .movxK x => some (0, putDN 3422552066 x)
  | .movp x => some (0, putDN 3489660928 x)
  | .movpW x => some (0, putAN 3489660930 x)
  | .ktst x => some (0, putKtst 3556769792 x)
  | .ktstAll x => some (0, putKtstAll 3556769794 x)
  | .lds x => some (2, putRRI 0 x)
  | .sts x => some (2, putRRI 67108864 x)
  | .ldv x => some (2, putRRI 134217728 x)
  | .stv x => some (2, putRRI 201326592 x)
  | .ldg x => some (2, putGld 268435456 x)
  | .stg x => some (2, putGst 335544320 x)
  | .ldgv x => some (2, putGld 402653184 x)
  | .stgv x => some (2, putGst 469762048 x)
  | .ldcv x => some (2, putGld 536870912 x)
  | .stcv x => some (2, putStcv 603979776 x)
  | .gath x => some (2, putRRR 671088640 x)
  | .scat x => some (2, putRRR 738197504 x)
  | .xlat x => some (2, putRR1 805306368 x)
  | .hrel x => some (2, putDN 872415232 x)
  | .probe x => some (2, putProbe 939524096 x)
  | .pref x => some (2, putPref 1006632960 x)
  | .drain x => some (2, putDrain 1073741824 x)
  | .atadd x => some (2, putAtm 1140850688 x)
  | .atmin x => some (2, putAtm 1207959552 x)
  | .atmax x => some (2, putAtm 1275068416 x)
  | .atand x => some (2, putAtm 1342177280 x)
  | .ator x => some (2, putAtm 1409286144 x)
  | .atxor x => some (2, putAtm 1476395008 x)
  | .atxch x => some (2, putAtm 1543503872 x)
  | .atcas x => some (2, putAtm 1610612736 x)
  | .atld x => some (2, putAtm 1677721600 x)
  | .atst x => some (2, putAtst 1744830464 x)
  | .ltag x => some (2, putRR1 1811939328 x)
  | .gaths x => some (2, putRRR 1879048192 x)
  | .scats x => some (2, putRRR 1946157056 x)
  | .clfl x => some (2, putClfl 2013265920 x)
  | .clinv x => some (2, putABN 2080374784 x)
  | .pclr x => some (2, putAN 2147483648 x)
  | .vadd x => some (3, putVRR 0 x)
  | .vsub x => some (3, putVRR 67108864 x)
  | .vmin x => some (3, putVRR 134217728 x)
  | .vmax x => some (3, putVRR 201326592 x)
  | .vuna x => some (3, putVRR 268435456 x)
  | .vand x => some (3, putVRR 335544320 x)
  | .vor x => some (3, putVRR 402653184 x)
  | .vxor x => some (3, putVRR 469762048 x)
  | .vshl x => some (3, putVShI 536870912 x)
  | .vshr x => some (3, putVShI 603979776 x)
  | .vsar x => some (3, putVShI 671088640 x)
  | .viadd x => some (3, putVRR 738197504 x)
  | .visub x => some (3, putVRR 805306368 x)
  | .vcmp x => some (3, putVRR 872415232 x)
  | .vsel x => some (3, putVRR 939524096 x)
  | .vmov x => some (3, putVRA 1006632960 x)
  | .vcvt x => some (3, putVCv 1073741824 x)
  | .vred x => some (3, putVRR 1140850688 x)
  | .vscan x => some (3, putVRR 1207959552 x)
  | .vperm x => some (3, putVRB 1275068428 x)
  | .vshuf x => some (3, putVRI 1342177280 x)
  | .vrot x => some (3, putVRI 1409286144 x)
  | .vmsk x => some (3, putVRB 1476395008 x)
  | .vmts x => some (3, putVRB 1543503884 x)
  | .vseg x => some (3, putVRR 1610612736 x)
  | .vbsc x => some (3, putVRR 1677721600 x)
  | .vqnt x => some (3, putVCv 1744830464 x)
  | .vdqnt x => some (3, putVCv 1811939328 x)
  | .vclmp x => some (3, putVRR 1879048192 x)
  | .vimnx x => some (3, putVRR 1946157056 x)
  | .vext x => some (3, putVEx 2013265920 x)
  | .vins x => some (3, putVEx 2080374784 x)
  | .vmul x => some (3, putVRR 2147483648 x)
  | .vfma x => some (3, putVRR 2214592512 x)
  | .vfms x => some (3, putVRR 2281701376 x)
  | .vfnma x => some (3, putVRR 2348810240 x)
  | .vimul x => some (3, putVRR 2415919104 x)
  | .vrcp x => some (3, putVRA 2483027968 x)
  | .vrsq x => some (3, putVRA 2550136832 x)
  | .vsqrt x => some (3, putVRA 2617245696 x)
  | .vexp2 x => some (3, putVRA 2684354560 x)
  | .vlog2 x => some (3, putVRA 2751463424 x)
  | .vdot x => some (3, putVRR 2818572288 x)
  | .mma x => some (5, putTmm 0 x)
  | .mmat x => some (5, putTmm 67108864 x)
  | .mmaz x => some (5, putTmm 134217728 x)
  | .acld x => some (5, putTab 201326592 x)
  | .acst x => some (5, putTab 268435456 x)
  | .acz x => some (5, putAcz 335544320 x)
  | .acrd x => some (5, putTac 402653184 x)
  | .acwr x => some (5, putTac 469762048 x)
  | .acsc x => some (5, putAcsc 536870912 x)
  | .acmv x => some (5, putAcmv 603979776 x)
  | .acps x => some (5, putAcps 671088640 x)
  | .mprg x => some (5, putMprg 738197504 x)
  | .cpy x => some (6, putEngH 0 x)
  | .cpyc x => some (6, putEngH 67108864 x)
  | .cpyf x => some (6, putEngH 134217728 x)
  | .cpyk x => some (6, putEngH 201326592 x)
  | .cwait x => some (6, putEngH 268435456 x)
  | .cstat x => some (6, putCstat 335544320 x)
  | .tstep x => some (6, putEng 402653184 x)
  | .tscale x => some (6, putEng 469762048 x)
  | .tread x => some (6, putEng 536870912 x)
  | .treadSync x => some (6, putEng 536870913 x)
  | .tcfg x => some (6, putEng 603979776 x)
  | .trst x => some (6, putEng 671088640 x)
  | .tsub x => some (6, putEngF 738197504 x)
  | .twait x => some (6, putEng 805306368 x)
  | .twaitAll x => some (6, putEng 805306369 x)
  | .semsAdd x => some (6, putEng 872415232 x)
  | .semsSet x => some (6, putEng 872415233 x)
  | .semw x => some (6, putEng 939524096 x)
  | .qinit x => some (6, putEng 1006632960 x)
  | .qinitLoad x => some (6, putEng 1006632976 x)
  | .qgate x => some (6, putEngI 1073741824 x)
  | .qdiag x => some (6, putEngI 1140850688 x)
  | .qswap x => some (6, putEng 1207959554 x)
  | .qmeas x => some (6, putEngI 1275068416 x)
  | .qmeasSamp x => some (6, putEngI 1275068432 x)
  | .ruq x => some (6, putEng 1342177280 x)
  | .rufl x => some (6, putRufl 1409286144 x)
  | .occr x => some (6, putEng 1476395008 x)
  | .occrClr x => some (6, putEng 1476395009 x)
  | .kjoin x => some (6, putKjoin 1543503872 x)
  | .send x => some (7, putChn 0 x)
  | .recv x => some (7, putChn 67108864 x)
  | .recvadd x => some (7, putChn 134217728 x)
  | .chst x => some (7, putChn 201326592 x)
  | .chopn x => some (7, putChn 268435456 x)
  | .chcl x => some (7, putChcl 335544320 x)
  | .coll x => some (7, putEngF 402653184 x)
  | .colw x => some (7, putEng 469762048 x)
  | .cola x => some (7, putEngF 536870912 x)
  | .barr x => some (7, putEngR 603979776 x)
  | .barx x => some (7, putEngR 671088640 x)
  | .barw x => some (7, putEngR 738197504 x)
  | .bariInit x => some (7, putEng 805306368 x)
  | .bariFree x => some (7, putEng 805306369 x)
  | .grpc x => some (7, putEngF 872415232 x)
  | .grpf x => some (7, putEngF 939524096 x)
  | .lnks x => some (7, putEngF 1006632960 x)
  | _ => none

/-- The slot word of an instruction; zero for one without a word. -/
def encWord (i : Instr) : W32 := match encode i with
  | some e => e.2
  | none => 0

/-- The decoder of the position an instruction encodes to. -/
def decodeAt (pos : Nat) (w : W32) : Option Instr :=
  if pos = 8 then decodeNop w
  else match decodeSlot pos w with
    | .ok i => some i
    | .error _ => none

/-- A word read without a position: the first of positions 0, 2, 3, 5, 6, 7 where it is an instruction, then the
no-operation header.  (The opcode table gives words no position, and the classes share major opcodes: NOTES.md.) -/
def decodeAny (w : W32) : Option (Nat × Instr) :=
  let try_ (p : Nat) : Option (Nat × Instr) := match decodeSlot p w with
    | .ok i => some (p, i)
    | .error _ => none
  (try_ 0).orElse fun _ => (try_ 2).orElse fun _ => (try_ 3).orElse fun _ => (try_ 5).orElse fun _ =>
    (try_ 6).orElse fun _ => (try_ 7).orElse fun _ => (decodeNop w).map fun i => (8, i)

/-- The instruction of a word of the opcode table: one 32-bit word. -/
def decodeTableWord (nbits w : Nat) : Option Instr :=
  if nbits = 0 ∨ nbits > 32 then none else (decodeAny (BitVec.ofNat 32 w)).map Prod.snd

end Sys2Proof
end

