-- ==== Sys2Proof/Machine/Mem.lean ====
section
/-! DEFINITION. Position 2: scratchpad and global access, converting access, translation, order and maintenance (05). -/

namespace Sys2Proof.Machine

open Sys2Proof

/-! ### Handle pointers (05 R135, R137, R140, R147, R164) -/

/-- The handle a pointer names. -/
def IC.hnd (c : IC) (p : W64) : Handle := c.t.h (ptrHx p)

/-- Address faults of a pointer: MBZ bits, and a reserved AT where AT counts (05 R135). -/
def ptrAddr (p : W64) (useAt : Bool) : Option SF :=
  if ptrMbz p ≠ 0 ∨ (useAt ∧ ptrAt p > 4) then some ⟨8, p.toNat, 0⟩ else none

/-- Address, then alignment to w bytes. -/
def ptrEarly (p : W64) (useAt : Bool) (w : Nat) : Option SF :=
  (ptrAddr p useAt).or (if ptrOfs p % w ≠ 0 then some ⟨9, p.toNat, 0⟩ else none)

/-- The faults of a handle's state (05 R137); `det`: the pointer. -/
def handleFault (h : Handle) (hx det : Nat) : Option SF :=
  match h.st with
  | .invalid => some ⟨10, det, hx⟩
  | .failed => some ⟨11, h.va, hx⟩
  | .revoked => some ⟨12, if h.size = 0 then h.va else h.va / h.size * h.size, hx⟩
  | _ => none

/-- The virtual address at an offset of a handle's page. -/
def Handle.vaAt (h : Handle) (ofs : Nat) : Nat := h.va / h.size * h.size + ofs

/-- Write permission (05 R140). -/
def writeFault (h : Handle) (hx ofs : Nat) : Option SF :=
  if !h.wr then some ⟨15, h.vaAt ofs, hx⟩ else if h.cow then some ⟨16, h.vaAt ofs, hx⟩ else none

/-- Handle state, range (n bytes from the pointer), write permission: steps 6 to 9 of 05 R164. -/
def ptrLate (c : IC) (p : W64) (n : Nat) (wr : Bool) : Option SF :=
  let h := c.hnd p
  if h.st = .pending then none
  else ((handleFault h (ptrHx p) p.toNat).or
    (if ptrOfs p + n > h.size then some ⟨13, p.toNat, ptrHx p⟩ else none)).or
    (if wr then writeFault h (ptrHx p) (ptrOfs p) else none)

/-- The holds of a global access: a pending handle, then a full request tracker (03 R93, 05 R146). -/
def ptrHold (c : IC) (p : W64) : Option Nat :=
  if (c.hnd p).st = .pending then some 5 else if c.s.tracked c.k ≥ 256 then some 6 else none

/-- No landing-buffer entry is free (03 R95). -/
def landFull (c : IC) : Bool := decide ((c.t.flight.filter Flight.entry).length ≥ 256)

/-- The physical address a pointer names. -/
def IC.pa (c : IC) (p : W64) : Nat := (c.hnd p).base + ptrOfs p

/-- The record, page base and page size of a bound page. -/
def Handle.bound (h : Handle) : Option (Nat × Nat × Nat) := h.tens.map fun i => (i, h.base, h.size)

/-! ### Purity (11 R327) -/

/-- The ranges of the task an issuer runs. -/
def IC.taskRanges (c : IC) (wr : Bool) : List (Nat × Nat) :=
  match c.t.task with
  | none => []
  | some j => match c.s.tasks.find? fun x => x.ctx == c.cx && x.count == j.count with
    | none => []
    | some x => if wr then x.writes else x.reads

/-- The first byte run outside the task's used ranges (11 R327). -/
def IC.outside (c : IC) (wr : Bool) (runs : List (Nat × Nat)) : Option Nat :=
  (runs.find? fun r => !inRanges (c.taskRanges wr) r.1 r.2).map Prod.fst

/-! ### Scratchpad access (05 R142–R145) -/

/-- The address of LDS, STS, LDV and STV: S(A) plus the signed offset times the width. -/
def spAddr (x : RRI) (w : Nat) (c : IC) : W64 := c.sv x.a.toNat + w64 (imm10 x.i * w)

/-- Address, then alignment. -/
def spEarly (a : W64) (w : Nat) : Option SF :=
  if spaBad a then some ⟨8, a.toNat, 0⟩ else if a.toNat % w ≠ 0 then some ⟨9, a.toNat, 0⟩ else none

/-- A scratchpad-map fault (05 R144). -/
def spMapFault (c : IC) (runs : List (Nat × Nat)) : Option SF := (c.s.spUnmapped c.cx runs).map fun a => ⟨14, a, 0⟩

/-- A read of the linear view: its bytes, and whether a line is poisoned, which is logged (05 R162). -/
def spLoad (c : IC) (a n : Nat) : List Byte × Bool :=
  (c.s.spRead true c.cx (clusterOf c.k) a n, c.s.spPoison true c.cx (clusterOf c.k) a n)

/-- A read of the linear view is an access of its pages (13 R380), and every poisoned line it reads is logged (05 R162). -/
def State.logSp (s : State) (c : IC) (runs : List (Nat × Nat)) : State :=
  let bad := c.s.spBadLines true c.cx (clusterOf c.k) runs
  let s1 := s.spTouch (coreOf c.k) c.cx runs
  bad.foldl (fun s a => s.log c.cx 2 a (agentField c.k 0 true)) { s1 with fresh := s1.fresh + 1 }

/-- LDS, STS, LDV and STV but for their data. -/
def spOp (x : RRI) (w : Nat) : SlotOp :=
  { g := x.g.toNat, whr := .partOnly, srcS := [x.a.toNat]
    chk := fun c => spEarly (spAddr x w c) w
    spRuns := fun c => [((spAddr x w c).toNat, w)]
    post := fun c => spMapFault c [((spAddr x w c).toNat, w)] }

/-- LDS (R142): at +5. -/
def opLds (x : RRI) : SlotOp :=
  { spOp x 8 with
    dsts := [.s x.d.toNat]
    eff := fun c s =>
      let a := (spAddr x 8 c).toNat
      let r := spLoad c a 8
      (s.logSp c [(a, 8)]).fly c.k 5 (.s x.d.toNat (BitVec.ofNat 64 (ofBytes r.1)) r.2) }
def execLds (x : RRI) (s : State) : Host.Outcome State Fault Refusal :=
  issueOne 2 (encWord (.lds x)) (opLds x) s

/-- STS (R142). -/
def opSts (x : RRI) : SlotOp :=
  { spOp x 8 with
    srcS := [x.a.toNat, x.d.toNat]
    eff := fun c s =>
      s.spWrite true c.cx (clusterOf c.k) (spAddr x 8 c).toNat c.k 0 (bytesOf 8 (c.sv x.d.toNat).toNat) none }
def execSts (x : RRI) (s : State) : Host.Outcome State Fault Refusal :=
  issueOne 2 (encWord (.sts x)) (opSts x) s

/-- LDV (R142): at +7. -/
def opLdv (x : RRI) : SlotOp :=
  { spOp x 256 with
    legal := legal (.ldv x), dsts := [.v x.d.toNat]
    eff := fun c s =>
      let a := (spAddr x 256 c).toNat
      let r := spLoad c a 256
      (s.logSp c [(a, 256)]).fly c.k 7 (.v (c.t.vName x.d.toNat) (BitVec.ofNat 2048 (ofBytes r.1)) (BitVec.allOnes 64) r.2) }
def execLdv (x : RRI) (s : State) : Host.Outcome State Fault Refusal :=
  issueOne 2 (encWord (.ldv x)) (opLdv x) s

/-- STV (R142). -/
def opStv (x : RRI) : SlotOp :=
  { spOp x 256 with
    legal := legal (.stv x), srcV := [x.d.toNat]
    eff := fun c s =>
      s.spWrite true c.cx (clusterOf c.k) (spAddr x 256 c).toNat c.k 0
        (bytesOf 256 (c.t.vPhys (c.t.vName x.d.toNat)).toNat) none }
def execStv (x : RRI) (s : State) : Host.Outcome State Fault Refusal :=
  issueOne 2 (encWord (.stv x)) (opStv x) s

/-- The active lanes of a gather or scatter and their index offsets (05 R143). -/
def gathLanes (x : RRR) (c : IC) : List (Nat × Int) :=
  let m := c.t.m (x.f.toNat % 4)
  let v := vSource c.t c.h 32 x.b.toNat
  ((List.range 64).filter fun i => m.getLsbD i).map fun i =>
    (i, sextI (vLane v 32 i) 32 * (if x.f.toNat < 4 then 1 else 4))

/-- The scratchpad address of each active lane. -/
def gathSp (x : RRR) (c : IC) : List (Nat × W64) :=
  (gathLanes x c).map fun l => (l.1, c.sv x.a.toNat + w64 l.2)

/-- GATHS and SCATS but for their data. -/
def gathSpOp (x : RRR) (lg : Bool) : SlotOp :=
  { g := x.g.toNat, gn := x.n == 1, legal := lg, whr := .partOnly, srcS := [x.a.toNat], srcV := [x.b.toNat]
    chk := fun c =>
      (firstSome (gathSp x c) fun l => if spaBad l.2 then some ⟨8, l.2.toNat, 0⟩ else none).or
        (firstSome (gathSp x c) fun l => if l.2.toNat % 4 ≠ 0 then some ⟨9, l.2.toNat, 0⟩ else none)
    spRuns := fun c => (gathSp x c).map fun l => (l.2.toNat, 4)
    post := fun c => spMapFault c ((gathSp x c).map fun l => (l.2.toNat, 4)) }

/-- GATHS (R143): at +9. -/
def opGaths (x : RRR) : SlotOp :=
  { gathSpOp x (legal (.gaths x)) with
    dsts := [.v x.d.toNat]
    eff := fun c s =>
      let ls := (gathSp x c).map fun l => (l.1, l.2.toNat, spLoad c l.2.toNat 4)
      let v := placed (ls.map fun l => (4 * l.1, l.2.2.1))
      (s.logSp c (ls.map fun l => (l.2.1, 4))).fly c.k 9
        (.v (c.t.vName x.d.toNat) v (c.t.m (x.f.toNat % 4)) (ls.any fun l => l.2.2.2)) }
def execGaths (x : RRR) (s : State) : Host.Outcome State Fault Refusal :=
  issueOne 2 (encWord (.gaths x)) (opGaths x) s

/-- The writes of a scatter, of lanes that name an address and a word: of lanes that name one address the highest-numbered stands,
and lanes that together write all 64 bytes of a line write it at once, as the store that clears a poisoned line does (05 R143, R163;
DESIGN CHOICE, notes/assumptions/137). -/
def scatWrites (ls : List (Nat × Nat)) : List (Nat × List Byte) :=
  ((ls.map fun l => l.1 / 64).dedup).flatMap fun line =>
    let mine := ls.filter fun l => l.1 / 64 == line
    if (List.range 16).all fun j => mine.any fun l => l.1 == 64 * line + 4 * j then
      [(64 * line, (List.range 16).flatMap fun j =>
        bytesOf 4 (((mine.filter fun l => l.1 == 64 * line + 4 * j).getLast?.map Prod.snd).getD 0))]
    else mine.map fun l => (l.1, bytesOf 4 l.2)

/-- SCATS (R143). -/
def opScats (x : RRR) : SlotOp :=
  { gathSpOp x (legal (.scats x)) with
    srcV := [x.b.toNat, x.d.toNat]
    eff := fun c s =>
      let v := c.t.vPhys (c.t.vName x.d.toNat)
      (scatWrites ((gathSp x c).map fun l => (l.2.toNat, vLane v 32 l.1))).foldl (fun s w =>
        s.spWrite true c.cx (clusterOf c.k) w.1 c.k 0 w.2 none) s }
def execScats (x : RRR) (s : State) : Host.Outcome State Fault Refusal :=
  issueOne 2 (encWord (.scats x)) (opScats x) s

/-- The value PROBE reports for an address's page, in the issuer's cluster (05 Table 5-6). -/
def probeValue (c : IC) (a : Nat) : W64 :=
  let n := a / 2048
  let cl := clusterOf c.k
  let p := c.s.spPage c.cx n
  let here := (c.s.spFrame c.cx cl a).map fun fa => fa / 2048 % 768
  let infl := match p.res with
    | .pin d _ => d == cl
    | .pout d _ => d == cl
    | _ => false
  let mine := match p.res with
    | .res d _ => d == cl
    | .pout d _ => d == cl
    | _ => false
  BitVec.ofNat 64 (b2n (mine && p.dirty != 0) * 2 ^ 33 + b2n infl * 2 ^ 32 + b2n here.isSome * 2 ^ 31 +
    b2n (c.s.spEntry c.cx n).isSome * 2 ^ 30 + here.getD 0)

/-- PROBE (R145): at +8; .touch asks the pager for a mapped page that is not resident. -/
def opProbe (x : Probe) : SlotOp :=
  { g := x.g.toNat, gn := x.n == 1, legal := legal (.probe x), whr := .partOnly, dsts := [.s x.d.toNat]
    srcS := [x.a.toNat]
    chk := fun c => if spaBad (c.sv x.a.toNat) then some ⟨8, (c.sv x.a.toNat).toNat, 0⟩ else none
    eff := fun c s =>
      let a := (c.sv x.a.toNat).toNat
      let s1 := s.fly c.k 8 (.s x.d.toNat (probeValue c a) false)
      if x.f = 1 ∧ (c.s.spFrame c.cx (clusterOf c.k) a).isNone then s1.spAsk (coreOf c.k) c.k c.cx (pageKey c.cx (a / 2048)) (clusterOf c.k) else s1 }
def execProbe (x : Probe) (s : State) : Host.Outcome State Fault Refusal :=
  issueOne 2 (encWord (.probe x)) (opProbe x) s

/-! ### Global loads and stores (05 R146–R149) -/

/-- The pointer operand of the GLD and ATM formats: S(16 + A). -/
def gldPtr (a : BitVec 4) (c : IC) : W64 := c.sv (16 + a.toNat)

/-- Sends a returning request, to land at +n. -/
def State.sendLoad (s : State) (c : IC) (n vpage : Nat) (kind : ReqKind) : State :=
  (s.addReq c.k s.nextId vpage true kind).flyReq c.k n s.nextId

/-- VER for a non-converting store at an offset of a page (02 R49, R53): the record's write version, but on the scale plane. -/
def rawVer (c : IC) (h : Handle) (ofs : Nat) : Nat :=
  match h.tens with
  | none => 0
  | some i => plainVer (c.s.recGeo c.cx i) h.size ofs (c.s.recWv c.cx i)

/-- Sends a store of bytes at an offset of a handle's page, a request for each line. -/
def State.sendStore (s : State) (c : IC) (acc : Nat) (h : Handle) (ofs : Nat) (bs : List Byte) : State :=
  forN ((ofs % 64 + bs.length + 63) / 64) s fun i s =>
    let lo := if i = 0 then ofs else ofs / 64 * 64 + 64 * i
    s.addReq c.k acc h.va true
      (.store (h.base + lo) ((bs.drop (lo - ofs)).take (64 - lo % 64)) (some (rawVer c h lo)) false h.bound)

/-- A global access of w bytes but for its data. -/
def globOp (g : BitVec 4) (a : BitVec 4) (useAt : Bool) (w : IC → Nat) (wr : Bool) : SlotOp :=
  { g := g.toNat, srcS := [16 + a.toNat]
    chk := fun c => ptrEarly (gldPtr a c) useAt (w c)
    hold := fun c => ptrHold c (gldPtr a c)
    post := fun c => ptrLate c (gldPtr a c) (w c) wr
    impure := fun c =>
      let p := gldPtr a c
      c.outside wr [((c.hnd p).vaAt (ptrOfs p), w c)] }

/-- The width of LDG, STG and the atomics: the pointer's AT (05 Table 5-3). -/
def atW (a : BitVec 4) (c : IC) : Nat := atWidth (ptrAt (gldPtr a c))

/-- LDG (R147): at +LAND. -/
def opLdg (x : Gld) : SlotOp :=
  { globOp x.g x.a true (atW x.a) false with
    legal := legal (.ldg x), dsts := [.s x.d.toNat], sched := landFull
    eff := fun c s =>
      let p := gldPtr x.a c
      s.sendLoad c x.l.toNat (c.hnd p).va
        (.load [(0, c.pa p, atW x.a c)] [] false x.d.toNat false (ptrAt p) (BitVec.allOnes 64)) }
def execLdg (x : Gld) (s : State) : Host.Outcome State Fault Refusal :=
  issueOne 2 (encWord (.ldg x)) (opLdg x) s

/-- STG (R147). -/
def opStg (x : Gst) : SlotOp :=
  { globOp x.g x.a true (atW x.a) true with
    srcS := [16 + x.a.toNat, x.d.toNat]
    eff := fun c s =>
      let p := gldPtr x.a c
      s.sendStore c s.nextId (c.hnd p) (ptrOfs p) (bytesOf (atW x.a c) (c.sv x.d.toNat).toNat) }
def execStg (x : Gst) (s : State) : Host.Outcome State Fault Refusal :=
  issueOne 2 (encWord (.stg x)) (opStg x) s

/-- LDGV (R147): at +LAND. -/
def opLdgv (x : Gld) : SlotOp :=
  { globOp x.g x.a false (fun _ => 256) false with
    legal := legal (.ldgv x), whr := .partOnly, dsts := [.v x.d.toNat], sched := landFull
    eff := fun c s =>
      let p := gldPtr x.a c
      s.sendLoad c x.l.toNat (c.hnd p).va
        (.load ((List.range 4).map fun i => (64 * i, c.pa p + 64 * i, 64)) [] false (c.t.vName x.d.toNat) true 0
          (BitVec.allOnes 64)) }
def execLdgv (x : Gld) (s : State) : Host.Outcome State Fault Refusal :=
  issueOne 2 (encWord (.ldgv x)) (opLdgv x) s

/-- STGV (R147). -/
def opStgv (x : Gst) : SlotOp :=
  { globOp x.g x.a false (fun _ => 256) true with
    legal := legal (.stgv x), whr := .partOnly, srcV := [x.d.toNat]
    eff := fun c s =>
      let p := gldPtr x.a c
      s.sendStore c s.nextId (c.hnd p) (ptrOfs p) (bytesOf 256 (c.t.vPhys (c.t.vName x.d.toNat)).toNat) }
def execStgv (x : Gst) (s : State) : Host.Outcome State Fault Refusal :=
  issueOne 2 (encWord (.stgv x)) (opStgv x) s

/-- The page offset of each active lane of GATH and SCAT (05 R148). -/
def gathGlob (x : RRR) (c : IC) : List (Nat × Int) :=
  (gathLanes x c).map fun l => (l.1, (ptrOfs (c.sv x.a.toNat) : Int) + l.2)

/-- GATH and SCAT but for their data. -/
def gathGlobOp (x : RRR) (lg wr : Bool) : SlotOp :=
  { g := x.g.toNat, gn := x.n == 1, legal := lg, whr := .partOnly, srcS := [x.a.toNat], srcV := [x.b.toNat]
    chk := fun c =>
      let p := c.sv x.a.toNat
      (ptrAddr p false).or (if (gathGlob x c).any fun l => l.2 % 4 != 0 then some ⟨9, p.toNat, 0⟩ else none)
    hold := fun c => ptrHold c (c.sv x.a.toNat)
    post := fun c =>
      let p := c.sv x.a.toNat
      let h := c.hnd p
      if h.st = .pending then none
      else ((handleFault h (ptrHx p) p.toNat).or
        (if ptrOfs p ≥ h.size || (gathGlob x c).any (fun l => decide (l.2 < 0) || decide (l.2 + 4 > h.size))
         then some ⟨13, p.toNat, ptrHx p⟩ else none)).or (if wr then writeFault h (ptrHx p) (ptrOfs p) else none)
    impure := fun c =>
      let h := c.hnd (c.sv x.a.toNat)
      c.outside wr ((gathGlob x c).map fun l => (h.vaAt l.2.toNat, 4)) }

/-- GATH (R148): at +ALAND. -/
def opGath (x : RRR) : SlotOp :=
  { gathGlobOp x (legal (.gath x)) false with
    dsts := [.v x.d.toNat], sched := landFull
    eff := fun c s =>
      let h := c.hnd (c.sv x.a.toNat)
      let m := c.t.m (x.f.toNat % 4)
      let n := fld c.t.aland 11 0
      let ps := (gathGlob x c).map fun l => (4 * l.1, h.base + l.2.toNat, 4)
      if ps.isEmpty then
        s.modTh c.k fun t => { t with flight := t.flight ++
          [{ due := t.scyc + n, land := .v (c.t.vName x.d.toNat) 0 m false, entry := true }] }
      else s.sendLoad c n h.va (.load ps [] false (c.t.vName x.d.toNat) true 0 m) }
def execGath (x : RRR) (s : State) : Host.Outcome State Fault Refusal :=
  issueOne 2 (encWord (.gath x)) (opGath x) s

/-- SCAT (R148). -/
def opScat (x : RRR) : SlotOp :=
  { gathGlobOp x (legal (.scat x)) true with
    srcV := [x.b.toNat, x.d.toNat]
    eff := fun c s =>
      let h := c.hnd (c.sv x.a.toNat)
      let v := c.t.vPhys (c.t.vName x.d.toNat)
      let acc := s.nextId
      (scatWrites ((gathGlob x c).map fun l => (l.2.toNat, vLane v 32 l.1))).foldl (fun s w => s.sendStore c acc h w.1 w.2) s }
def execScat (x : RRR) (s : State) : Host.Outcome State Fault Refusal :=
  issueOne 2 (encWord (.scat x)) (opScat x) s

/-! ### Converting access (05 R150–R153) -/

/-- Bytes a converting access touches under a geometry (05 Table 5-7). -/
def convBytes (geo : Nat) : Nat := if geo = 0 then 256 else if geo = 1 then 128 else 64

/-- The bytes of a converting access through a handle; 64 where the page has no record. -/
def convW (a : BitVec 4) (c : IC) : Nat :=
  match (c.hnd (gldPtr a c)).tens with
  | none => 64
  | some i => convBytes (c.s.recGeo c.cx i)

/-- Address, then alignment to the bytes touched, which the handle's record decides. -/
def convEarly (a : BitVec 4) (c : IC) : Option SF :=
  let p := gldPtr a c
  (ptrAddr p false).or
    (if ptrOfs p % convW a c ≠ 0 then some ⟨9, p.toNat, 0⟩ else none)

/-- Tensor-format for a version word, then format-region (05 R150, R164 step 10). -/
def convFault (c : IC) (a : BitVec 4) (bad : Nat → Bool) : Option SF :=
  let p := gldPtr a c
  let h := c.hnd p
  match h.tens with
  | none => if h.st = .pending then none else some ⟨17, 0, ptrHx p⟩
  | some i =>
    if h.st = .pending then none
    else if bad i then some ⟨17, i, ptrHx p⟩
    else if !isData (c.s.recGeo c.cx i) h.size (ptrOfs p) then some ⟨18, h.vaAt (ptrOfs p), ptrHx p⟩
    else none

/-- LDCV and STCV but for their data. -/
def convOp (g a : BitVec 4) (wr : Bool) (bad : IC → Nat → Bool) : SlotOp :=
  { g := g.toNat, whr := .partOnly, srcS := [16 + a.toNat]
    chk := convEarly a
    hold := fun c => ptrHold c (gldPtr a c)
    post := fun c => (ptrLate c (gldPtr a c) (convW a c) wr).or (convFault c a (bad c))
    impure := fun c => c.outside wr [((c.hnd (gldPtr a c)).vaAt (ptrOfs (gldPtr a c)), convW a c)] }

/-- Whether a line LDCV would read carries a version of a reserved format. -/
def ldcvBad (a : BitVec 4) (c : IC) (i : Nat) : Bool :=
  (List.range (convW a c / 64)).any fun j =>
    fmtReserved (verFmt (c.s.recVer c.cx i (tagVer (c.s.tag (c.pa (gldPtr a c) + 64 * j)))))

/-- LDCV (R151): at +LAND; each line under the version its own VER names when it is read. -/
def opLdcv (x : Gld) : SlotOp :=
  { convOp x.g x.a false (ldcvBad x.a) with
    legal := legal (.ldcv x), dsts := [.v x.d.toNat], sched := landFull
    eff := fun c s =>
      let p := gldPtr x.a c
      let h := c.hnd p
      match h.tens with
      | none => s
      | some i => s.sendLoad c x.l.toNat h.va
          (.conv (c.pa p) (convW x.a c / 64) i h.base h.size [] false (c.t.vName x.d.toNat)) }
def execLdcv (x : Gld) (s : State) : Host.Outcome State Fault Refusal :=
  issueOne 2 (encWord (.ldcv x)) (opLdcv x) s

/-- What STCV stores under the write version in force: the version word, the exact lanes, and the codes, scale bytes and
classes (05 R152). -/
def stcvData (x : Stcv) (c : IC) (i : Nat) : Nat × List Ex × List Nat × List Nat × List Cls :=
  let ver := c.s.recVer c.cx i (c.s.recWv c.cx i)
  let v := c.t.vPhys (c.t.vName x.d.toNat)
  let xs := if c.s.recGeo c.cx i = 3 then (List.range 128).map fun j => bf16.decode (vLane v 16 j)
            else (List.range 64).map fun j => d32 (vLane v 32 j)
  let r := encodeLine ver xs fun j => rmOf x.r.toNat c.sr j
  (ver, xs, r.1, r.2.1, r.2.2)

/-- STCV's data bytes: packed codes, an mx4h line filled out with zeros (02 Table 2-6). -/
def stcvBytes (ver : Nat) (codes : List Nat) : List Byte :=
  let b := fmtBits (verFmt ver)
  let n := codes.length * b / 8
  bytesOf n (packLE b codes) ++ List.replicate ((64 - n % 64) % 64) 0

/-- Whether stochastic rounding, or the version itself, is refused (02 R46, 05 R150). -/
def stcvBad (x : Stcv) (c : IC) (i : Nat) : Bool :=
  let f := verFmt (c.s.recVer c.cx i (c.s.recWv c.cx i))
  fmtReserved f || (x.r == 2 && (f == 0 || f == 7 || f == 8))

/-- STCV (R152): under the write version in force at its commit. -/
def opStcv (x : Stcv) : SlotOp :=
  { convOp x.g x.a true (stcvBad x) with
    legal := legal (.stcv x), srcV := [x.d.toNat]
    draws := fun c => if x.r = 2 then match (c.hnd (gldPtr x.a c)).tens with
      | some i => lineElems (c.s.recGeo c.cx i)
      | none => 0 else 0
    post := fun c =>
      ((ptrLate c (gldPtr x.a c) (convW x.a c) true).or (convFault c x.a (stcvBad x c))).or
        (match (c.hnd (gldPtr x.a c)).tens with
         | none => none
         | some i =>
           if (c.hnd (gldPtr x.a c)).st = .valid && c.s.recOact c.cx i = 2 && c.s.crosses (coreOf c.k) c.cx i (overCount (stcvData x c i).2.2.2.2)
           then some ⟨19, i, ptrHx (gldPtr x.a c)⟩ else none)
    impure := fun c =>
      (c.outside true [((c.hnd (gldPtr x.a c)).vaAt (ptrOfs (gldPtr x.a c)), convW x.a c)]).or
        (if x.r = 2 then some 0 else none)
    eff := fun c s =>
      let p := gldPtr x.a c
      let h := c.hnd p
      match h.tens with
      | none => s
      | some i =>
        let (ver, xs, codes, scales, cls) := stcvData x c i
        let acc := s.nextId
        let bs := stcvBytes ver codes
        let wv := c.s.recWv c.cx i
        let s1 := forN (bs.length / 64) s fun j s =>
          s.addReq c.k acc h.va true
            (.store (c.pa p + 64 * j) ((bs.drop (64 * j)).take 64) (some wv) false h.bound)
        let s2 := if scales.isEmpty then s1
          else s1.addReq c.k acc h.va true
            (.store (h.base + dataRegion h.size + 4 * (ptrOfs p / 64))
              (bytesOf 4 (packLE 8 scales)) (some 0) false h.bound)
        s2.report (coreOf c.k) c.cx i xs cls false }
def execStcv (x : Stcv) (s : State) : Host.Outcome State Fault Refusal :=
  issueOne 2 (encWord (.stcv x)) (opStcv x) s

/-! ### Translation (05 R137–R139) -/

/-- XLAT (R138): it lands at +12 in VALID or PENDING. -/
def opXlat (x : RR1) : SlotOp :=
  { g := x.g.toNat, gn := x.n == 1, legal := legal (.xlat x), dsts := [.h x.d.toNat], srcS := [x.a.toNat]
    chk := fun c => if (c.sv x.a.toNat).toNat ≥ 2 ^ 52 then some ⟨8, (c.sv x.a.toNat).toNat, 0⟩ else none
    eff := fun c s => s.fly c.k 12 (.xlat x.d.toNat ((c.sv x.a.toNat).toNat / 4096 * 4096)) }
def execXlat (x : RR1) (s : State) : Host.Outcome State Fault Refusal :=
  issueOne 2 (encWord (.xlat x)) (opXlat x) s

/-- HREL (R139): at +1. -/
def opHrel (x : DN) : SlotOp :=
  { g := x.g.toNat, gn := x.n == 1, legal := legal (.hrel x), dsts := [.h x.d.toNat]
    eff := fun c s => s.fly c.k 1 (.hrel x.d.toNat) }
def execHrel (x : DN) (s : State) : Host.Outcome State Fault Refusal :=
  issueOne 2 (encWord (.hrel x)) (opHrel x) s

/-- Whether a multiply-accumulate under way on a core captured a record, which then stays in the core's metadata cache (07
R199). -/
def State.recCaptured (s : State) (core c i : Nat) : Bool :=
  s.thr.any fun e => s.tcore e.1 == core && s.ctxOf e.1 == c && e.2.mats.any fun m =>
    m.recs.contains i && decide (m.next < m.groups) && !m.abandoned

/-- A record leaves a core's metadata cache: its delta merges (09 R267), and the core's VALID handles of it are PENDING again
(05 Table 5-4). -/
def State.recLeave (s : State) (core c i : Nat) : State :=
  let of (d : Delta) : Bool := d.core == core && d.ctx == c && d.idx == i
  let s1 := match s.deltas.find? of with
    | some d => s.merge d
    | none => s
  { s1 with
    cached := s1.cached.filter fun e => e != (core, c, i)
    deltas := s1.deltas.filter fun d => !of d
    thr := s1.thr.map fun e =>
      if s.tcore e.1 == core && s.ctxOf e.1 == c then
        (e.1, { e.2 with hs := e.2.hs.map fun h => if h.2.st == .valid && h.2.tens == some i then (h.1, { h.2 with st := .pending }) else h })
      else e }

/-- A core reads the eight lines of a record as a coherent reader, and their homes record it as a sharer (09 R268, 13 R370). -/
def State.recShare (s : State) (core c i : Nat) : State :=
  forN 8 (s.vshare c (s.recVa c i) 512 core) fun j s => match s.vpa c (s.recVa c i + 64 * j) with
    | some pa => s.dirShare (pa / 64) core
    | none => s

/-- A record enters a core's metadata cache, which holds 64 (09 R268); of the records no multiply-accumulate captured, which one
makes room is not given (notes/assumptions/111). -/
def State.recFill (s : State) (core c i : Nat) : State :=
  if s.cached.contains (core, c, i) then s
  else
    let mine := s.cached.filter fun e => e.1 == core
    let free := mine.filter fun e => !s.recCaptured core e.2.1 e.2.2
    let s1 : State := if mine.length < 64 ∨ free.isEmpty then s
      else
        let v := free.getD (Config.victim s.fresh % free.length) (core, c, i)
        { s with fresh := s.fresh + 1 }.recLeave core v.2.1 v.2.2
    let s2 := s1.recShare core c i
    { s2 with cached := s2.cached ++ [(core, c, i)] }

/-- TRANSLATION_WALK_DONE (05 R137, 13 R370): a PENDING handle's walk, and its record's fetch, end. -/
def execTranslationWalkDone (k h : Nat) (s : State) : Host.Outcome State Fault Refusal :=
  let hd := (s.th k).h h
  let c := s.ctxOf k
  let core := s.tcore k
  .next (if hd.st = .pending ∧ h < 32 ∧ !s.shooting core c hd.va then
    match s.walk c (!isCs k) hd.va with
    | none => (s.xFill core c hd.va).modTh k fun t => t.setH h { hd with st := .failed }
    | some l =>
      let s1 := match l.tens with
        | none => s.xFill core c hd.va
        | some i => (s.xFill core c hd.va).recFill core c i
      let s2 := if isCs k || s.translated core c hd.va { l with tens := none } then s1 else s1.pmcEvent core k 8 1
      s2.modTh k fun t => t.setH h (l.handle hd.va)
    else s)

/-! ### Order, prefetch and maintenance (05 R157–R161) -/

/-- PREF (R158): dropped where its handle is not VALID or its pointer would fault; it stops at the end of the page.  A poisoned pointer
register raises the poison fault of R162 (DESIGN CHOICE, notes/assumptions/139). -/
def opPref (x : Pref) : SlotOp :=
  let good (c : IC) : Bool :=
    let p := gldPtr x.a c
    ptrMbz p == 0 && (c.hnd p).st == .valid && decide (ptrOfs p < (c.hnd p).size)
  { g := x.g.toNat, srcS := [16 + x.a.toNat]
    hold := fun c => if good c && c.s.tracked c.k ≥ 256 then some 6 else none
    eff := fun c s =>
      let p := gldPtr x.a c
      let n := min (x.l.toNat + 1) ((c.hnd p).size / 64 - ptrOfs p / 64)
      if good c then s.addReq c.k s.nextId (c.hnd p).va true (.pref (c.s.tcore c.k) (c.pa p / 64) n (x.e == 0)) else s }
def execPref (x : Pref) (s : State) : Host.Outcome State Fault Refusal :=
  issueOne 2 (encWord (.pref x)) (opPref x) s

/-- DRAIN (R157): it never holds. -/
def opDrain (x : Drain) : SlotOp :=
  { g := x.g.toNat, gn := x.n == 1, legal := legal (.drain x)
    eff := fun c s => s.addReq c.k s.nextId 0 false (.drain x.f.toNat) }
def execDrain (x : Drain) (s : State) : Host.Outcome State Fault Refusal :=
  issueOne 2 (encWord (.drain x)) (opDrain x) s

/-- CLFL and CLINV: the lines that cover S(B) bytes from the pointer S(A), or its own line (05 R159). -/
def maintOp (g a b : Nat) (gn lg inv l2 : Bool) : SlotOp :=
  { g, gn, legal := lg, srcS := [a, b]
    chk := fun c => ptrAddr (c.sv a) false
    hold := fun c => ptrHold c (c.sv a)
    post := fun c => ptrLate c (c.sv a) (max 1 (c.sv b).toNat) false
    eff := fun c s =>
      let p := c.sv a
      let n := (ptrOfs p % 64 + max 1 (c.sv b).toNat + 63) / 64
      s.addReq c.k s.nextId (c.hnd p).va true (.maint (c.s.tcore c.k) (c.pa p / 64) n inv l2) }

/-- CLFL (R159). -/
def opClfl (x : Clfl) : SlotOp :=
  maintOp x.g.toNat x.a.toNat x.b.toNat (x.n == 1) (legal (.clfl x)) false (x.f == 1)
def execClfl (x : Clfl) (s : State) : Host.Outcome State Fault Refusal :=
  issueOne 2 (encWord (.clfl x)) (opClfl x) s

/-- CLINV (R159). -/
def opClinv (x : ABN) : SlotOp := maintOp x.g.toNat x.a.toNat x.b.toNat (x.n == 1) (legal (.clinv x)) true false
def execClinv (x : ABN) (s : State) : Host.Outcome State Fault Refusal :=
  issueOne 2 (encWord (.clinv x)) (opClinv x) s

/-- LTAG (R160): at +ALAND; a poisoned line is reported, not logged. -/
def opLtag (x : RR1) : SlotOp :=
  { g := x.g.toNat, gn := x.n == 1, legal := legal (.ltag x), dsts := [.s x.d.toNat], srcS := [x.a.toNat]
    sched := landFull
    chk := fun c => ptrAddr (c.sv x.a.toNat) false
    hold := fun c => ptrHold c (c.sv x.a.toNat)
    post := fun c => ptrLate c (c.sv x.a.toNat) 1 false
    impure := fun c =>
      let p := c.sv x.a.toNat
      c.outside false [((c.hnd p).vaAt (ptrOfs p), 1)]
    eff := fun c s =>
      let p := c.sv x.a.toNat
      s.sendLoad c (fld c.t.aland 11 0) (c.hnd p).va (.ltag (c.pa p) (c.hnd p).tens x.d.toNat) }
def execLtag (x : RR1) (s : State) : Host.Outcome State Fault Refusal :=
  issueOne 2 (encWord (.ltag x)) (opLtag x) s

/-- PCLR (R161): on commit the line is all zeros and its tag 0b0000, or once the issuer's earlier accesses to the line have performed
(05 R149) and nothing rests on the entries it changes (13 R371, R377); a line of a table that only the part writes stays, and the
write is logged (09 R256, 11 R323). -/
def opPclr (x : AN) : SlotOp :=
  { g := x.g.toNat, gn := x.n == 1, legal := legal (.pclr x), whr := .firmware, srcS := [x.a.toNat]
    chk := fun c =>
      let a := (c.sv x.a.toNat).toNat
      if a % 64 ≠ 0 ∨ a ≥ 2 ^ 50 then some ⟨8, a, 0⟩ else none
    eff := fun c s =>
      let a := (c.sv x.a.toNat).toNat
      let r : Req := { id := s.nextId, key := c.k, acc := s.nextId, ctx := c.cx, kind := .pclr (a / 64) }
      if s.mayPerform r && (s.violates true a || s.still c.k a (List.replicate 64 0)) then s.afreshLine (a / 64) (s.performPclr r (a / 64))
      else s.addReq c.k s.nextId 0 false (.pclr (a / 64)) }
def execPclr (x : AN) (s : State) : Host.Outcome State Fault Refusal :=
  issueOne 2 (encWord (.pclr x)) (opPclr x) s

/-! ### Atomics (05 R154–R156) -/

/-- An atomic: `d` 0 returns nothing and holds no landing entry. -/
def atomicOp (op : AtomicOp) (g a : BitVec 4) (n : BitVec 1) (d b : BitVec 6) (o : BitVec 2) (sc : BitVec 3) (lg : Bool) :
    SlotOp :=
  { globOp g a true (atW a) true with
    gn := n == 1, legal := lg, dsts := if d = 0 then [] else [.s d.toNat]
    srcS := [16 + a.toNat, b.toNat] ++ if op = .cas then [d.toNat] else []
    sched := fun c => d != 0 && landFull c
    impure := fun c => some ((c.hnd (gldPtr a c)).vaAt (ptrOfs (gldPtr a c)))
    eff := fun c s =>
      let p := gldPtr a c
      let kind (ret : Option Nat) : ReqKind :=
        .atomic op (ptrAt p) (c.pa p) (c.sv b.toNat) (if op = .cas then c.sv d.toNat else 0) ret o.toNat sc.toNat
      if d = 0 then s.addReq c.k s.nextId (c.hnd p).va true (kind none)
      else s.sendLoad c (fld c.t.aland 11 0) (c.hnd p).va (kind (some d.toNat)) }

/-- ATADD (R155). -/
def opAtadd (x : Atm) : SlotOp := atomicOp .add x.g x.a x.n x.d x.b x.o x.c (legal (.atadd x))
def execAtadd (x : Atm) (s : State) : Host.Outcome State Fault Refusal :=
  issueOne 2 (encWord (.atadd x)) (opAtadd x) s

/-- ATMIN (R155). -/
def opAtmin (x : Atm) : SlotOp := atomicOp .min x.g x.a x.n x.d x.b x.o x.c (legal (.atmin x))
def execAtmin (x : Atm) (s : State) : Host.Outcome State Fault Refusal :=
  issueOne 2 (encWord (.atmin x)) (opAtmin x) s

/-- ATMAX (R155). -/
def opAtmax (x : Atm) : SlotOp := atomicOp .max x.g x.a x.n x.d x.b x.o x.c (legal (.atmax x))
def execAtmax (x : Atm) (s : State) : Host.Outcome State Fault Refusal :=
  issueOne 2 (encWord (.atmax x)) (opAtmax x) s

/-- ATAND (R155). -/
def opAtand (x : Atm) : SlotOp := atomicOp .and x.g x.a x.n x.d x.b x.o x.c (legal (.atand x))
def execAtand (x : Atm) (s : State) : Host.Outcome State Fault Refusal :=
  issueOne 2 (encWord (.atand x)) (opAtand x) s

/-- ATOR (R155). -/
def opAtor (x : Atm) : SlotOp := atomicOp .or x.g x.a x.n x.d x.b x.o x.c (legal (.ator x))
def execAtor (x : Atm) (s : State) : Host.Outcome State Fault Refusal :=
  issueOne 2 (encWord (.ator x)) (opAtor x) s

/-- ATXOR (R155). -/
def opAtxor (x : Atm) : SlotOp := atomicOp .xor x.g x.a x.n x.d x.b x.o x.c (legal (.atxor x))
def execAtxor (x : Atm) (s : State) : Host.Outcome State Fault Refusal :=
  issueOne 2 (encWord (.atxor x)) (opAtxor x) s

/-- ATXCH (R155). -/
def opAtxch (x : Atm) : SlotOp := atomicOp .xch x.g x.a x.n x.d x.b x.o x.c (legal (.atxch x))
def execAtxch (x : Atm) (s : State) : Host.Outcome State Fault Refusal :=
  issueOne 2 (encWord (.atxch x)) (opAtxch x) s

/-- ATCAS (R155). -/
def opAtcas (x : Atm) : SlotOp := atomicOp .cas x.g x.a x.n x.d x.b x.o x.c (legal (.atcas x))
def execAtcas (x : Atm) (s : State) : Host.Outcome State Fault Refusal :=
  issueOne 2 (encWord (.atcas x)) (opAtcas x) s

/-- ATLD (R155). -/
def opAtld (x : Atm) : SlotOp := atomicOp .ld x.g x.a x.n x.d x.b x.o x.c (legal (.atld x))
def execAtld (x : Atm) (s : State) : Host.Outcome State Fault Refusal :=
  issueOne 2 (encWord (.atld x)) (opAtld x) s

/-- ATST (R155). -/
def opAtst (x : Atst) : SlotOp := atomicOp .st x.g x.a x.n 0 x.b x.o x.c (legal (.atst x))
def execAtst (x : Atst) (s : State) : Host.Outcome State Fault Refusal :=
  issueOne 2 (encWord (.atst x)) (opAtst x) s

end Sys2Proof.Machine
end

