-- ==== Sys2Proof/Machine/Engine.lean ====
section
/-! DEFINITION. Engine words, acceptance, start and limits of commands (08 R217–R223, R253, R254). -/

namespace Sys2Proof.Machine

open Sys2Proof

/-! ### Operand words and pointers (08 R217, R218) -/

/-- The registers of operand words W0 … W(n−1). -/
def wRegs (p : BitVec 5) (n : Nat) : List Nat := (List.range n).map (psReg p.toNat)

/-- Operand word i. -/
def IC.w (c : IC) (p : BitVec 5) (i : Nat) : W64 := c.sv (psReg p.toNat i)

/-- A descriptor fault of the slot. -/
def descFault (c : IC) : SF := ⟨20, c.word.toNat, 0⟩

/-- A descriptor fault where a test holds. -/
def descIf (c : IC) (b : Bool) : Option SF := if b then some (descFault c) else none

/-- Address, then alignment to the structure's size (08 R218, R254 step 4). -/
def structEarly (p : W64) (align : Nat) : Option SF := ptrEarly p false align

/-- A pending handle holds (08 R218). -/
def structHold (c : IC) (p : W64) : Option Nat := if (c.hnd p).st = .pending then some 5 else none

/-- What an engine captures of a pointer (08 R218). -/
def IC.cap (c : IC) (p : W64) : Cap :=
  let h := c.hnd p
  { va := h.vaAt (ptrOfs p), pa := c.pa p, base := h.base, size := h.size, tens := h.tens, line := h.va }

/-! ### Command entries (08 R223) -/

/-- The class of a command, by position and major opcode (08 Table 8-3). -/
def cmdClass (pos major : Nat) : Nat :=
  if pos = 6 then
    if major < 4 then 0 else if 6 ≤ major ∧ major ≤ 10 then 1 else if major = 11 then 2
    else if 15 ≤ major ∧ major ≤ 19 then 3 else 5
  else if pos = 7 ∧ (major = 6 ∨ major = 8) then 4
  else if pos = 7 ∨ pos = 6 then 5 else 6

/-- The limit of a class. -/
def cmdLimit (cls : Nat) (cs : Bool) : Nat :=
  match cls with
  | 0 => if cs then 4 else 10
  | 1 => if cs then 64 else 4
  | 2 => 1024
  | 3 => if cs then 64 else 8
  | 4 => if cs then 16 else 4
  | _ => if cs then 64 else 16

/-- Copies a core's engine holds, of its partitions or of the command streams (08 R223): at most 80 and 16. -/
def State.copiesOn (s : State) (core : Nat) (cs : Bool) : Nat :=
  (s.cmds.filter fun m => m.pos == 6 && decide (m.major < 4) && m.runner == core && isCs m.key == cs).length

/-- No command entry of the class is free.  A command counts for the partition or command stream that accepted it whatever has
become of its task; a command stream's copies count on the core that runs them, and a CHOPN or CHCL holds its entry only until
+4, the SCYC in `row`. -/
def entryFull (c : IC) (pos major core : Nat) : Bool :=
  let cls := cmdClass pos major
  let held := c.s.cmds.filter fun m => agentOfKey m.key == agentOfKey c.k && (m.pos == 6 || m.pos == 7) && cmdClass m.pos m.major == cls &&
    !(m.pos == 7 && (m.major == 4 || m.major == 5) && m.key == c.k && decide (m.row ≤ c.t.scyc)) &&
    (cls != 0 || !isCs c.k || m.runner == core)
  let n := if cls = 2 then (c.s.tasks.filter fun t => t.ctx == c.cx && t.st != .retired).length else held.length
  decide (cmdLimit cls (isCs c.k) ≤ n) ||
    (cls == 0 && decide ((if isCs c.k then 16 else 80) ≤ c.s.copiesOn core (isCs c.k)))

/-! ### Acceptance (08 R220) -/

/-- Accepts a command: its operands, consumed tickets and place behind its issuer's stores are captured, and its pointers
translate through the core's translation cache (13 R370). -/
def State.accept (s : State) (c : IC) (kp : BitVec 5) (ks : List Nat) (m : Cmd) : State :=
  ((m.caps.filter fun p => p.size != 0).foldl (fun s p => s.xFill (s.tcore c.k) c.cx p.va) s).newCmd
    { m with key := c.k, ctx := c.cx, baddr := c.t.pc, waits := c.captured ks, before := c.s.nextId
             since := c.s.gcyc } kp.toNat

/-- An engine instruction but for its own checks (08 Tables 8-1, 8-2).  `cmd`: what it captures. -/
def engOp (g : BitVec 4) (kp kc : BitVec 5) (kn : BitVec 2) (srcs : List Nat) (whr : Where) (pos major : Nat) (pure : Bool)
    (cmd : IC → Cmd) : SlotOp :=
  { g := g.toNat, whr, dsts := [.k kp.toNat], srcS := srcs
    sched := fun c => entryFull c pos major 0
    impure := fun _ => if pure then none else some 0
    eff := fun c s => s.accept c kp (tickets kc.toNat kn.toNat) { cmd c with pos, major } }

/-! ### Where an issuer stands (12 R358, R360) -/

/-- The state of an issuer, wherever its task stands. -/
def State.owner? (s : State) (k : Nat) : Thr :=
  if k < 8192 then s.th k
  else match s.saved.find? fun e => e.1 == k - 8192 with
    | some e => e.2
    | none => {}

/-- Changes an issuer's state, wherever its task stands. -/
def State.modOwner (s : State) (k : Nat) (f : Thr → Thr) : State :=
  if k < 8192 then s.modTh k f
  else { s with saved := s.saved.map fun e => if e.1 == k - 8192 then (e.1, f e.2) else e }

/-! ### Start (08 R220) -/

/-- Requests that a command's start waits for: stores and atomics. -/
def ReqKind.writes : ReqKind → Bool
  | .store .. => true
  | .patch .. => true
  | .pclr _ => true
  | .atomic .. => true
  | _ => false

/-- The object a command acts on, where R220 keeps one issuer's commands in acceptance order: a kind and a number. -/
def Cmd.object (c : Cmd) : Option (Nat × Nat) :=
  let w0 := (c.w.getD 0 0).toNat
  if c.pos = 6 then
    if 6 ≤ c.major ∧ c.major ≤ 10 then some (1, w0 % 2 ^ 20)
    else if c.major = 13 ∨ c.major = 14 then some (2, w0 % 4096)
    else if 15 ≤ c.major ∧ c.major ≤ 19 then some (3, w0 % 4096)
    else none
  else if c.pos = 7 then
    if c.major = 9 ∨ c.major = 10 ∨ c.major = 11 ∨ c.major = 12 then some (4, w0 % 65536)
    else if c.major = 6 ∨ c.major = 7 ∨ c.major = 8 ∨ c.major = 13 ∨ c.major = 14 then some (5, w0 % 4096)
    else none
  else none

/-- Commands that only wait: once started they take no further effect on their object (SEMW, BARW, COLW). -/
def Cmd.waiter (c : Cmd) : Bool := (c.pos == 6 && c.major == 14) || (c.pos == 7 && (c.major == 11 || c.major == 7))

/-- Collective operations start in order and then run side by side (08 R248, R249). -/
def Cmd.collective (c : Cmd) : Bool := c.pos == 7 && (c.major == 6 || c.major == 8)

/-- TREAD and TRST go ahead of commands queued behind a pending install (09 R263, R278). -/
def Cmd.ahead (c : Cmd) : Bool := c.pos == 6 && (c.major == 8 || c.major == 10)

/-- Whether a started command has still to take effect on its object where another comes next: not one that only waits, nor a
collective, nor a GRPC, which has its effect when it starts and then waits for its members (16 R413). -/
def Cmd.blocks (d : Cmd) : Bool := !d.waiter && !d.collective && !(d.pos == 7 && d.major == 13)

/-- A command queued behind the pending install of its record (09 R263), its tickets fired and its stores performed.  TREAD and TRST
queue behind none. -/
def State.heldByInstall (s : State) (d : Cmd) : Bool :=
  d.pos == 6 && decide (6 ≤ d.major) && decide (d.major ≤ 10) && !d.ahead && d.waits.all (fun w => !s.live w) &&
  !(s.reqs.any fun r => r.key == d.key && decide (r.id < d.before) && r.kind.writes) &&
  s.installs.any fun n => n.ctx == d.ctx && n.idx == (d.w.getD 0 0).toNat % 2 ^ 20 && n.cmd != d.id

/-- Whether an earlier command of the same issuer on the same object holds a command back (08 R220).  TREAD and TRST wait for
no command that waits on a pending install (09 R263, R278). -/
def State.behind (s : State) (c : Cmd) : Bool :=
  match c.object with
  | none => false
  | some o => s.cmds.any fun d =>
      d.key == c.key && decide (d.id < c.id) && d.object == some o &&
      match d.st with
      | .accepted => !(c.ahead && s.heldByInstall d)
      | .done => false
      | .errWait => false
      | _ => d.blocks && (!c.ahead || d.ahead)

/-- Whether an accepted command may start (08 R220): its tickets have fired, its issuer's earlier stores and atomics have performed, and
so have the swizzled-view writes of its issuer's earlier bank stores. -/
def State.mayStart (s : State) (c : Cmd) : Bool :=
  c.st == .accepted && c.waits.all (fun w => !s.live w) &&
  !((s.owner? c.key).xfers.any fun y => y.sp && !y.load && decide (y.cmd < c.before)) &&
  !(s.reqs.any fun r => r.key == c.key && decide (r.id < c.before) && r.kind.writes) && !s.behind c

/-! ### Writes of an engine -/

/-- An engine's write of a structure at a captured pointer, line by line at its home (10 R291, 02 R49). -/
def State.engineWrite (s : State) (m : Cmd) (cap : Cap) (bs : List Byte) : State :=
  forN ((cap.pa % 64 + bs.length + 63) / 64) s fun i s =>
    let lo := if i = 0 then cap.pa else cap.pa / 64 * 64 + 64 * i
    let ver := match cap.tens with
      | none => 0
      | some r => plainVer (s.recGeo m.ctx r) cap.size (lo - cap.base) (s.recWv m.ctx r)
    s.storeNow { id := 0, key := engKey m.id, acc := 0, ctx := m.ctx, kind := .drain 0 } lo
      ((bs.drop (lo - cap.pa)).take (64 - lo % 64)) (some ver) false (cap.tens.map fun i => (i, cap.base, cap.size))

/-- The part's store within one line of a context's page, as an engine's (02 R49, 09 R256, 10 R286): nothing where the page is not
mapped. -/
def State.pageStore (s : State) (key c va : Nat) (bs : List Byte) : State :=
  match s.walk c false va with
  | none => s
  | some l =>
    let pa := l.base + va % l.size
    let ver := match l.tens with
      | none => 0
      | some i => plainVer (s.recGeo c i) l.size (pa - l.base) (s.recWv c i)
    s.storeNow { id := 0, key, acc := 0, ctx := c, kind := .drain 0 } pa bs (some ver) false (l.tens.map fun i => (i, l.base, l.size))

/-- An engine's read of a piece of one line, which logs no poison: the bytes and whether they are poisoned (10 R286, R290). -/
def State.quietPiece (s : State) (m : Cmd) (pa n : Nat) : List Byte × Bool × State :=
  if s.violates (s.firmware m.key) pa then s.readPiece { id := 0, key := engKey m.id, acc := 0, ctx := m.ctx, kind := .drain 0 } pa n
  else (s.physBytes pa n, tagPsn (s.tag pa), s.othersRead (pa / 64) 500)

/-- An engine's read of n bytes at a captured pointer (08 R218): the bytes, and whether a line is poisoned, with its log
entry. -/
def State.engineRead (s : State) (m : Cmd) (cap : Cap) (n : Nat) : List Byte × Bool × State :=
  (List.range ((cap.pa % 64 + n + 63) / 64)).foldl (fun acc i =>
    let lo := if i = 0 then cap.pa else cap.pa / 64 * 64 + 64 * i
    let (bs, bad, s1) := acc.2.2.readPiece { id := 0, key := engKey m.id, acc := 0, ctx := m.ctx, kind := .drain 0 } lo
      (min (64 - lo % 64) (cap.pa + n - lo))
    (acc.1 ++ bs, acc.2.1 || bad, s1)) ([], false, s)

end Sys2Proof.Machine
end

