-- ==== Sys2Proof/Machine/Barrier.lean ====
section
/-! DEFINITION. Barriers (08 R250, R251, 15 R398–R408). -/

namespace Sys2Proof.Machine

open Sys2Proof

/-! ### The image (15 Table 15-1) -/

def barKey (c n : Nat) : Nat := c * 65536 + n

/-- The physical address of an image: the line bound while ACTIVE, else where the table is mapped now. -/
def State.barPa (s : State) (c n : Nat) : Option Nat :=
  match s.barLine.find? fun e => e.1 == barKey c n with
  | some e => some (e.2 * 64)
  | none => (s.vpa c (s.cword c 0x78 + 64 * n)).map fun pa => pa / 64 * 64

/-- Word i of an image; zero where the table is not mapped. -/
def State.barWord (s : State) (c n i : Nat) : Nat :=
  match s.barPa c n with
  | some pa => s.partGet (pa + 8 * i) 8
  | none => 0

def State.barPut (s : State) (c n i v : Nat) : State :=
  match s.barPa c n with
  | some pa => s.partPut c (pa + 8 * i) (bytesOf 8 v)
  | none => s

def State.barActive (s : State) (c n : Nat) : Bool := (s.barWord c n 0).testBit 0 && s.barLine.any fun e => e.1 == barKey c n
def State.barParity (s : State) (c n : Nat) : Nat := bitsN (s.barWord c n 0) 1 1

/-- The first word of an image. -/
def barHead (phase target ovf : Nat) : Nat := phase % 2 ^ 32 * 2 ^ 32 + target * 65536 + ovf * 4 + phase % 2 * 2 + 1

/-! ### Phases (15 R401) -/

/-- The signals of a phase's updates ([2, context, barrier, arrivals]) that the excess arrivals carry into the next: those of the last
arrivals that make it up. -/
def carriedSignals (c n excess : Nat) (l : List Signal) : List Signal :=
  (l.foldr (fun g acc => match g.obj with
    | [2, d, m, a] => if d = c ∧ m = n ∧ a ≠ 0 ∧ acc.1 ≠ 0 then (acc.1 - a, g :: acc.2) else acc
    | _ => acc) (excess, [])).2

/-- Step 1: completion, judged once a cycle on the state that earlier cycles left; the BARWs that wait for the change
fire (15 R403).  What the phase's updates signalled now stands for the BARWs that fire on it ([7, context, barrier, phase], 10 R305
edge 7), for one cycle more where a BARW started on it (R403). -/
def State.barJudge (s : State) (c n : Nat) : State :=
  if getD 0 s.barSeen (barKey c n) = s.gcyc + 1 then s
  else
    let s := { s with barSeen := putK s.barSeen (barKey c n) (s.gcyc + 1) }
    let w0 := s.barWord c n 0
    let arr := s.barWord c n 1
    let target := bitsN w0 31 16
    if s.barActive c n && decide (target ≤ arr) && s.barWord c n 2 == 0 then
      let phase := (bitsN w0 63 32 + 1) % 2 ^ 32
      let s1 := (s.barPut c n 0 (barHead phase target (bitsN w0 2 2))).barPut c n 1 (arr - target)
      { s1 with
        signals := (s1.signals.filterMap fun g => match g.obj with
          | [7, d, m, p] => if d = c ∧ m = n ∧ (p + 1) % 2 ^ 32 ≠ phase then none else some g
          | [2, d, m, _] => if d = c ∧ m = n then some { g with obj := [7, c, n, phase] } else some g
          | _ => some g) ++ carriedSignals c n (arr - target) s1.signals
        cmds := s1.cmds.map fun m =>
          if m.pos == 7 && m.major == 11 && m.ctx == c && m.st == .running && m.aux.isEmpty &&
              (m.w.getD 0 0).toNat == n && fld (m.w.getD 1 0) 0 0 != phase % 2
          then { m with st := .done, aux := [2, phase] } else m }
    else s

/-- Step 2: an update; ARR and EXPB saturate and set OVF (15 Table 15-1). -/
def State.barAdd (s : State) (c n arr : Nat) (expb : Int) : State :=
  let s := s.barJudge c n
  let w0 := s.barWord c n 0
  let a := s.barWord c n 1 + arr
  let e := sextI (s.barWord c n 2) 64 + expb
  let e' := max (-2 ^ 62) (min (2 ^ 62) e)
  let ovf := decide (a ≥ 2 ^ 32) || e' != e
  ((s.barPut c n 1 (min a (2 ^ 32 - 1))).barPut c n 2 (wrapN e' 64)).barPut c n 0
    (if ovf then w0 ||| 4 else w0)

/-- An arrival, expectation or decrement reaches the home, with what it signals: the scratchpad writes that agents had at given
numbers.  One that reaches a FREE barrier is dropped, counted and logged (15 R407). -/
def State.barSignal (s : State) (c n arr : Nat) (expb : Int) (agent : Nat) (sig : List (Nat × Nat)) : State :=
  if s.barActive c n then sig.foldl (fun s g => s.signal [2, c, n, arr] g.1 g.2) (s.barAdd c n arr expb)
  else
    let s1 := s.barPut c n 3 (satAdd 64 (s.barWord c n 3) 1)
    s1.log c 8 ((s1.barPa c n).getD 0) agent

/-! ### The commands -/

/-- The barrier a command names, after .rot (08 R250, 15 R405). -/
def barName (c : IC) (p : BitVec 5) (rot : Bool) : Nat :=
  let w0 := fld (c.w p 0) 15 0
  if rot then fld c.t.barb 23 8 + (fld c.t.barb 3 0 + w0) % fld c.t.bard 3 0 else w0

/-- BARR, BARX and BARW: `bad` judges W1. -/
def barOp (x : EngR) (major : Nat) (bad : W64 → Bool) : SlotOp :=
  let rot := x.r == 1
  { engOp x.g x.k x.c x.n (wRegs x.p 2) .any 7 major false (fun c =>
      { id := 0, fn := x.r.toNat, w := [BitVec.ofNat 64 (barName c x.p rot), c.w x.p 1], runner := c.s.dieOf c.k }) with
    chk := fun c =>
      descIf c (fld (c.w x.p 0) 63 16 != 0 || (rot && fld c.t.bard 3 0 == 0) || bad (c.w x.p 1)) }

/-- BARR (R250): arrivals 1–65,535. -/
def opBarr (x : EngR) : SlotOp := barOp x 9 fun w => fld w 63 16 != 0 || fld w 15 0 == 0
def execBarr (x : EngR) (s : State) : Host.Outcome State Fault Refusal :=
  issueOne 7 (encWord (.barr x)) (opBarr x) s

/-- BARX (R250). -/
def opBarx (x : EngR) : SlotOp := barOp x 10 fun w => fld w 63 32 != 0
def execBarx (x : EngR) (s : State) : Host.Outcome State Fault Refusal :=
  issueOne 7 (encWord (.barx x)) (opBarx x) s

/-- BARW (R403). -/
def opBarw (x : EngR) : SlotOp := barOp x 11 fun w => fld w 63 1 != 0
def execBarw (x : EngR) (s : State) : Host.Outcome State Fault Refusal :=
  issueOne 7 (encWord (.barw x)) (opBarw x) s

/-- BARI.init and BARI.free. -/
def bariOp (x : Eng) (fn : Nat) (bad : W64 → Bool) : SlotOp :=
  { engOp x.g x.k x.c x.n (wRegs x.p 2) .csOnly 7 12 true (fun c =>
      { id := 0, fn, w := [c.w x.p 0, c.w x.p 1], runner := c.s.dieOf c.k }) with
    chk := fun c => descIf c (fld (c.w x.p 0) 63 16 != 0 || bad (c.w x.p 1)) }

/-- BARI_INIT (R407). -/
def opBariInit (x : Eng) : SlotOp := bariOp x 0 fun w => fld w 63 16 != 0 || fld w 15 0 == 0
def execBariInit (x : Eng) (s : State) : Host.Outcome State Fault Refusal :=
  issueOne 7 (encWord (.bariInit x)) (opBariInit x) s

/-- BARI_FREE (R407). -/
def opBariFree (x : Eng) : SlotOp := bariOp x 1 fun w => w != 0
def execBariFree (x : Eng) (s : State) : Host.Outcome State Fault Refusal :=
  issueOne 7 (encWord (.bariFree x)) (opBariFree x) s

/-! ### What the engine does (15 R400, R402, R403, R406, R407) -/

/-- BARR and BARX send an update to the home; BARW reads PARITY there, after the home has judged the barrier in this cycle. -/
def State.startBar (s : State) (m : Cmd) : State :=
  let n := (m.w.getD 0 0).toNat
  let w1 := m.w.getD 1 0
  if s.cword m.ctx 0x80 ≤ n then s.cmdError m 2
  else if m.major = 11 then
    let s := s.barJudge m.ctx n
    if !s.barActive m.ctx n then s.cmdError m 1
    else s.modCmd m.id fun m => { m with aux := if s.barParity m.ctx n != fld w1 0 0 then [1, bitsN (s.barWord m.ctx n 0) 63 32] else [] }
  else
    { s with barUpds := s.barUpds ++ [{ id := s.nextId, ctx := m.ctx, bar := n, cmd := some m.id
                                        arr := if m.major = 9 then fld w1 15 0 else 0
                                        expB := if m.major = 10 then fld w1 31 0 else 0 }]
             nextId := s.nextId + 1 }

/-- BARI.init binds the barrier to its physical line; BARI.free ends it and its waiting BARWs (15 R400, R407).  A copy-on-write
page takes no engine write (13 R375), and one that violates is logged (10 R286): both end it in code 4 (notes/assumptions/112). -/
def State.startBari (s : State) (m : Cmd) : State :=
  let n := (m.w.getD 0 0).toNat
  let c := m.ctx
  if s.cword c 0x80 ≤ n then s.cmdError m 2
  else
    let s := s.barJudge c n
    if m.fn = 0 then
      if s.barActive c n then s.cmdError m 3
      else match s.walk c false (s.cword c 0x78 + 64 * n) with
        | none => s.cmdError m 4
        | some l =>
          let pa := l.base + (s.cword c 0x78 + 64 * n) % l.size
          if !l.wr || l.cow || l.tens.isSome then s.cmdError m 4
          else if s.violates (s.firmware m.key) pa || physClass pa = .control then
            (s.log c 4 pa (agentField m.runner 2 false)).cmdError m 4
          else
            let s1 : State := { s with
              barLine := putK s.barLine (barKey c n) (pa / 64)
              signals := s.signals.filter fun g => match g.obj with
                | [2, d, m, _] => !(d == c && m == n)
                | [7, d, m, _] => !(d == c && m == n)
                | _ => true }
            (((s1.barPut c n 0 (barHead 0 (fld (m.w.getD 1 0) 15 0) 0)).barPut c n 1 0).barPut c n 2 0).fire m.id
    else if !s.barActive c n then s.cmdError m 3
    else
      let drop := s.barWord c n 3
      let s1 := forN 8 s fun i s => s.barPut c n i (if i = 3 then drop else 0)
      let s2 := { s1 with barLine := delK s1.barLine (barKey c n) }
      let waits := s2.cmds.filter fun d => d.pos == 7 && d.major == 11 && d.ctx == c && d.st == .running && d.aux.isEmpty &&
        (d.w.getD 0 0).toNat == n
      (waits.foldl (fun s d => s.cmdError d 1) s2).fire m.id

/-- BARRIER_UPDATE_APPLY (15 R401, R402): an update reaches the home, no later one of its issuer before it. -/
def execBarrierUpdateApply (upd : Nat) (s : State) : Host.Outcome State Fault Refusal :=
  .next (match s.barUpds.find? fun u => u.id == upd with
    | none => s
    | some u =>
      let key := match u.cmd with
        | some d => ((s.cmd? d).map Cmd.key).getD 0
        | none => 0
      let s1 := ({ s with barUpds := s.barUpds.filter fun v => v.id != upd }).barSignal u.ctx u.bar u.arr u.expB (s.agentOf key)
        [(key, u.cmd.getD u.id)]
      match u.cmd with
      | some d => s1.fire d
      | none => s1)

/-- BARRIER_PHASE_COMPLETE (15 R401): the home judges the barrier in this cycle. -/
def execBarrierPhaseComplete (ctx bar : Nat) (s : State) : Host.Outcome State Fault Refusal := .next (s.barJudge ctx bar)

/-- Every bound barrier not yet judged in this cycle is judged: the home handles a barrier in each cycle (15 R401). -/
def State.barTick (s : State) : State := s.barLine.foldl (fun s e => s.barJudge (e.1 / 65536) (e.1 % 65536)) s

end Sys2Proof.Machine
end

