-- ==== Sys2Proof/Machine/Fabric.lean ====
section
/-! DEFINITION. Packets across the fabric and their routes (17 R435–R441); idle levels and what wakes the package (20 R488, R489). -/

namespace Sys2Proof.Machine

open Sys2Proof

/-- A fabric port that may carry packets (17 R433). -/
def State.portUp (s : State) (p : Nat) : Bool := decide (p < 24) && (s.link p).st == 3

/-- The routing entry of a package (17 Table 17-4) and its ports, in the order of R440. -/
def State.routeWord (s : State) (x : Nat) : W64 := getD 0 s.fab.routes x
def routePorts (w : W64) : List Nat := fld w 24 20 :: [fld w 29 25, fld w 34 30, fld w 39 35].take (fld w 19 18)

/-- The port a packet leaves by under an entry, and whether it is not the primary one; none: it waits in the switch. -/
def State.routeBy (s : State) (w : W64) : Option (Nat × Bool) :=
  if w.getLsbD 0 then ((routePorts w).find? s.portUp).map fun p => (p, p != fld w 24 20) else none

/-- The same under the entry now in force. -/
def State.route (s : State) (x : Nat) : Option (Nat × Bool) := s.routeBy (s.routeWord x)

/-- A package's declaration is due in this cycle (17 R441). -/
def State.declareLater (s : State) (x : Nat) : State :=
  if s.fab.unrch.contains x || s.fab.declare.contains x then s
  else { s with fab := { s.fab with declare := s.fab.declare ++ [x] } }

/-- A collective packet that leaves by an alternate port: its chunk crosses a detour (16 R428). -/
def bodyDetoured (alt : Bool) : PktBody → PktBody
  | .coll p => .coll { p with detour := p.detour || alt }
  | b => b

/-- A packet of this package leaves its switch by a port. -/
def State.leave (s : State) (k : Packet) (w : Waiting) (p : Nat) (alt : Bool) : State :=
  ({ s with fab := { s.fab with sent := s.fab.sent.map fun (x : Packet) =>
      if x.id = k.id then { x with again := false, port := some p, first := x.first.or (some s.gcyc), body := bodyDetoured alt x.body }
      else x } }).transmit p (some w)

/-- A copy of a packet of this package enters its switch, of age 0 and under the entry as it stands: it leaves, or waits for a port
(17 R437, R440). -/
def State.enterSwitch (s : State) (k : Packet) : Bool × State :=
  let w : Waiting := { pkt := { src := s.fab.fabid, dst := k.dst, seq := k.seq, body := k.body, age := 0 }, own := some k.id
                       since := s.gcyc, entry := s.routeWord k.dst }
  match s.routeBy w.entry with
  | none => (false, { s with fab := { s.fab with through := s.fab.through ++ [w] } })
  | some (p, alt) => (alt, s.leave k w p alt)

/-- Forms a packet for package x and sends it: the state after, and whether it left over a detour.  With V = 0 the package
is declared unreachable, and a packet for one that is, is discarded (17 R441); one for a package whose resynchronisation is awaited is
held (R442). -/
def State.sendPacket (s : State) (x : Nat) (body : PktBody) (cmd : Option Nat) : Bool × State :=
  if s.fab.unrch.contains x then (false, s)
  else if !(s.routeWord x).getLsbD 0 then (false, s.declareLater x)
  else
    let pkt : Packet := { id := s.nextId, dst := x, seq := getD 0 s.fab.nextSeq x, body, last := s.gcyc, cmd }
    let s1 : State := { s with
      nextId := s.nextId + 1
      fab := { s.fab with sent := s.fab.sent ++ [pkt], nextSeq := putK s.fab.nextSeq x (getD 0 s.fab.nextSeq x + 1) } }
    if s.fab.resync.contains x && body != .resync then (false, s1) else s1.enterSwitch pkt

/-- Takes the first delivered packet that a test picks (17 R436). -/
def State.takeDelivered (s : State) (f : Nat × PktBody → Bool) : Option ((Nat × PktBody) × State) :=
  (s.fab.delivered.find? f).map fun e => (e, { s with fab := { s.fab with delivered := s.fab.delivered.erase e } })

/-! ### Idle levels and what wakes the part (20 R488, R489) -/

/-- The exit latency of an idle level, in cycles of 1.8 GHz (20 Table 20-1). -/
def exitCycles (l : Nat) : Nat :=
  match l with
  | 0 => 0
  | 1 => 900
  | 2 => 45000
  | 3 => 108000
  | _ => 720000

/-- An exit to I0 begins. -/
def State.startExit (s : State) : State :=
  if s.sys.idle = 0 ∨ s.sys.idleTo.isSome then s
  else { s with sys := { s.sys with idleTo := some (s.gcyc + exitCycles s.sys.idle) } }

/-- Whether the package is idle. -/
def State.quiet (s : State) : Bool :=
  !(s.thr.any fun e => e.2.task.isSome) &&
  (s.ctxs.all fun e => e.2.st != .running || (s.th (csKey e.1)).waitm.isSome) &&
  s.cmds.isEmpty && s.fab.through.isEmpty && !(s.fab.sent.any fun k => k.port.isNone)

/-- The exit latency of a level in nanoseconds (20 Table 20-1). -/
def exitNs (l : Nat) : Nat :=
  match l with
  | 0 => 0
  | 1 => 500
  | 2 => 25000
  | 3 => 60000
  | _ => 400000

/-- Whether the host tolerates a level (17 R447). -/
def tolerated (ns l : Nat) : Bool := ns == 0xFFFF || decide (exitNs l ≤ ns)

/-- Whether the next deeper level is to be entered: after 2^16 idle cycles, where HLTOL tolerates it (20 R488). -/
def State.entryDue (s : State) : Bool :=
  s.quiet && decide (2 ^ 16 ≤ s.sys.idleFor) && s.sys.idleTo.isNone && decide (s.sys.idle < 4) && tolerated s.sys.hltol (s.sys.idle + 1)

/-- It is entered. -/
def State.enterDue (s : State) : State := if s.entryDue then { s with sys := { s.sys with idle := s.sys.idle + 1 } } else s

/-- What a request from outside does: at I0 it is served; below, it starts the exit and waits for I0.  One that falls in the cycle in
which an entry starts is judged after the entry (20 R489). -/
def State.served (s : State) (i : Asked) (f : State → State) : State :=
  let s0 := s.enterDue
  if s0.sys.idle = 0 then f s0
  else let s1 := s0.startExit
    { s1 with sys := { s1.sys with asked := s1.sys.asked ++ [i] } }

/-- A request of the management controller, as the write of a register. -/
def State.byMc (s : State) (off : Nat) (v : W64) (f : State → State) : State := s.served (.reg (ctlBase + off) v) f

end Sys2Proof.Machine
end

