-- ==== Sys2Proof/Machine/Control.lean ====
section
/-! DEFINITION. Control transfer, loops, waiting, control registers, FIN, TRAP and BRK (04 R115–R132). -/

namespace Sys2Proof.Machine

open Sys2Proof

/-! ### Control transfer (04 R115–R118) -/

/-- Where a BRF form goes: its header address plus 4 times the signed offset (04 Table 4-7). -/
def brfTarget (o : BitVec 21) (c : IC) : Nat := (w64 ((c.t.pc : Int) + 4 * o.toInt)).toNat

/-- The misaligned-target fault of a transfer (03 R68). -/
def targetFault (c : IC) (a : Nat) : Option SF := if c.s.targetBad c.k a then some ⟨5, a, 0⟩ else none

/-- The pending target lands at +2 (04 R116). -/
def State.transfer (s : State) (c : IC) (a : Nat) : State :=
  s.modTh c.k fun t => { t with pend := some (c.t.scyc + 2, a) }

/-- A transfer that is always taken when its guard holds. -/
def transferOp (g : BitVec 4) (n : BitVec 1) (lg : Bool) (tgt : IC → Nat) : SlotOp :=
  { g := g.toNat, gn := n == 1, legal := lg, chk := fun c => targetFault c (tgt c)
    xfer := fun _ => true, endBad := fun _ => true, eff := fun c s => s.transfer c (tgt c) }

/-- BR (R115). -/
def opBr (x : Brf) : SlotOp := transferOp x.g x.n (legal (.br x)) (brfTarget x.o)
def execBr (x : Brf) (s : State) : Host.Outcome State Fault Refusal :=
  issueOne 0 (encWord (.br x)) (opBr x) s

/-- JMP (R115). -/
def opJmp (x : AN) : SlotOp :=
    { transferOp x.g x.n (legal (.jmp x)) (fun c => (c.sv x.a.toNat).toNat) with srcS := [x.a.toNat] }
def execJmp (x : AN) (s : State) : Host.Outcome State Fault Refusal :=
  issueOne 0 (encWord (.jmp x)) (opJmp x) s

/-- CALL (R117): it writes S63 with the address after its delay bundle (R117). -/
def opCall (x : Brf) : SlotOp :=
  { transferOp x.g x.n (legal (.call x)) (brfTarget x.o) with
    dsts := [.s 63]
    eff := fun c s =>
      (s.transfer c (brfTarget x.o c)).fly c.k 1
        (.s 63 (BitVec.ofNat 64 (c.s.bundleAfter c.k ((c.t.pc + 4 * c.h.words) % 2 ^ 52))) false) }
def execCall (x : Brf) (s : State) : Host.Outcome State Fault Refusal :=
  issueOne 0 (encWord (.call x)) (opCall x) s

/-- RET (R115).  No event of 19 Table 19-10 and no trace kind of Table 19-7 is a return's, so it counts and traces as JMP does
(DESIGN CHOICE, notes/assumptions/105). -/
def opRet (x : AN) : SlotOp :=
    { transferOp x.g x.n (legal (.ret x)) (fun c => (c.sv x.a.toNat).toNat) with srcS := [x.a.toNat] }
def execRet (x : AN) (s : State) : Host.Outcome State Fault Refusal :=
  issueOne 0 (encWord (.ret x)) (opRet x) s

/-! ### Loops (04 R118–R122) -/

/-- The exit of the innermost loop (04 R118, R121). -/
def State.popLoop (s : State) (k : Nat) : State :=
  match (s.th k).loops with
  | [] => s
  | e :: r =>
    let s1 := s.modTh k fun t => { t with loops := r, rotn := if e.rot then 0 else t.rotn }
    if e.rot then s1.fly k 1 (.stages 0) else s1

/-- LBRK (R118). -/
def opLbrk (x : Brf) : SlotOp :=
  { transferOp x.g x.n (legal (.lbrk x)) (brfTarget x.o) with
    whr := .partOnly, endBad := fun _ => false
    chk := fun c => if c.t.loops.isEmpty then some ⟨6, 0, 0⟩ else targetFault c (brfTarget x.o c)
    eff := fun c s => (s.popLoop c.k).transfer c (brfTarget x.o c) }
def execLbrk (x : Brf) (s : State) : Host.Outcome State Fault Refusal :=
  issueOne 0 (encWord (.lbrk x)) (opLbrk x) s

/-- The address of a loop's last body bundle: an unsigned word offset from the loop instruction's header (04 R120). -/
def loopEnd (off : Nat) (c : IC) : Nat := (c.t.pc + 4 * off) % 2 ^ 52

/-- Enters a loop, or skips its body at the cost of one empty cycle (04 R120).  What the bundle's other slots write into P8–P15
meets the stage predicates at +1 in the order of issue (DESIGN CHOICE, notes/assumptions/103). -/
def State.enterLoop (s : State) (c : IC) (n stop : Nat) (rot : Bool) (w stg : Nat) : State :=
  if n = 0 then
    s.modTh c.k fun t => { t with empty := true, pend := some (c.t.scyc + 2, c.s.bundleAfter c.k stop) }
  else
    let e : LoopEnt := { start := (c.t.pc + 4 * c.h.words) % 2 ^ 52, stop, trips := n + stg, index := 0, rot, n, w, stg }
    let s1 := s.modTh c.k fun t => { t with loops := e :: t.loops, rotn := if rot then 0 else t.rotn }
    if rot then s1.fly c.k 1 (.stages 1) else s1

/-- The faults of a loop instruction: loop-stack, then its END address, which must be that of a header (03 R68). -/
def loopFault (c : IC) (stop : Nat) (rot : Bool) : Option SF :=
  if c.t.loops.length ≥ 6 || (rot && c.t.rotLoop.isSome) then some ⟨6, 0, 0⟩ else targetFault c stop

/-- LOOP (R120). -/
def opLoop (x : RI) : SlotOp :=
  { g := x.g.toNat, legal := legal (.loop x), srcS := [x.d.toNat], xfer := fun _ => true
    chk := fun c => loopFault c (loopEnd x.i.toNat c) false
    eff := fun c s => s.enterLoop c (c.sv x.d.toNat).toNat (loopEnd x.i.toNat c) false 0 0 }
def execLoop (x : RI) (s : State) : Host.Outcome State Fault Refusal :=
  issueOne 0 (encWord (.loop x)) (opLoop x) s

/-- LOOPR (R120). -/
def opLoopr (x : Loopr) : SlotOp :=
  { g := x.g.toNat, legal := legal (.loopr x), whr := .partOnly, srcS := [x.c.toNat], xfer := fun _ => true
    chk := fun c => loopFault c (loopEnd x.e.toNat c) true
    eff := fun c s =>
      s.enterLoop c (c.sv x.c.toNat).toNat (loopEnd x.e.toNat c) true x.w.toNat x.s.toNat }
def execLoopr (x : Loopr) (s : State) : Host.Outcome State Fault Refusal :=
  issueOne 0 (encWord (.loopr x)) (opLoopr x) s

/-- AUDEF (R123): the rule holds from +1, its stride captured at issue. -/
def opAudef (x : RRR) : SlotOp :=
  { g := x.g.toNat, gn := x.n == 1, legal := legal (.audef x), srcS := [x.b.toNat]
    eff := fun c s =>
      s.fly c.k 1 (.rule x.d.toNat { first := x.a.toNat, count := x.f.toNat + 1, stride := c.sv x.b.toNat }) }
def execAudef (x : RRR) (s : State) : Host.Outcome State Fault Refusal :=
  issueOne 0 (encWord (.audef x)) (opAudef x) s

/-! ### Waiting (04 R124, R125) -/

/-- WAITK (R124). -/
def opWaitk (x : ABN) : SlotOp :=
  { g := x.g.toNat, gn := x.n == 1, legal := legal (.waitk x)
    hold := fun c => if (tickets x.a.toNat (x.b.toNat + 1)).all (c.s.fired c.k) then none else some 2 }
def execWaitk (x : ABN) (s : State) : Host.Outcome State Fault Refusal :=
  issueOne 0 (encWord (.waitk x)) (opWaitk x) s

/-- The physical address of WAITM's word. -/
def waitmPa (c : IC) (a : W64) : Option Nat := c.s.vpa c.cx a.toNat

/-- What WAITM's load reads: the word, a free value where the access is a violation. -/
def waitmWord (c : IC) (pa : Nat) : W64 :=
  if c.s.violates (c.s.firmware c.k) pa then BitVec.ofNat 64 (c.s.violatedN pa 8)
  else BitVec.ofNat 64 (ofBytes (c.s.physBytes pa 8))

/-- WAITM's read of the word, an acquire of scope .sys (R125): it performs in its place among its command stream's own accesses
and among the releases of others (05 R149, 10 R305). -/
def State.waitRead (s : State) (k pa : Nat) : Req :=
  { id := s.nextId, key := k, acc := s.nextId, ctx := s.ctxOf k, kind := .atomic .ld 0 pa 0 0 none 1 5 }

/-- WAITM (R125): asleep until the line it read is written, and read again. -/
def opWaitm (x : RRR) : SlotOp :=
  { g := x.g.toNat, gn := x.n == 1, legal := legal (.waitm x), whr := .csOnly, dsts := [.s x.d.toNat]
    srcS := [x.a.toNat, x.b.toNat]
    chk := fun c =>
      let a := c.sv x.a.toNat
      if fld a 2 0 ≠ 0 then some ⟨9, a.toNat, 0⟩
      else if a.toNat ≥ 2 ^ 52 then some ⟨8, a.toNat, 0⟩
      else if c.t.waitm.isNone && c.t.held.isSome && !c.s.sys.hostUp && ((waitmPa c a).map physClass) == some .host then some ⟨8, a.toNat, 0⟩
      else if c.t.waitm.isNone && (waitmPa c a).isNone then some ⟨11, a.toNat / 4096 * 4096, 0⟩
      else none
    hold := fun c =>
      match waitmPa c (c.sv x.a.toNat) with
      | none => some 2
      | some pa =>
        if c.t.waitm.isSome || !c.s.mayPerform (c.s.waitRead c.k pa) || !condM x.f.toNat (waitmWord c pa) (c.sv x.b.toNat)
        then some 2 else none
    onHold := fun c s =>
      match waitmPa c (c.sv x.a.toNat) with
      | none => s
      | some pa =>
        if c.t.waitm.isSome || !c.s.mayPerform (c.s.waitRead c.k pa) then s
        else (s.othersRead (pa / 64) (s.tcore c.k)).modTh c.k fun t => { t with waitm := some (pa / 64, false) }
    eff := fun c s =>
      match waitmPa c (c.sv x.a.toNat) with
      | none => s
      | some pa =>
        let viol := c.s.violates (c.s.firmware c.k) pa
        let bad := tagPsn (c.s.tag pa)
        let s0 := (s.xFill (s.tcore c.k) c.cx (c.sv x.a.toNat).toNat).receive c.k (fun g => match g.obj with
          | [6, a, sc] => a == pa && c.s.within g.agent sc c.k
          | _ => false)
        let s1 := if viol then s0.log c.cx 4 pa (s.agentOf c.k)
                  else if bad then (s0.othersRead (pa / 64) (s.tcore c.k)).log c.cx 2 pa (s.agentOf c.k)
                  else s0.othersRead (pa / 64) (s.tcore c.k)
        s1.fly c.k 1 (.s x.d.toNat (waitmWord c pa) (viol || bad)) }
def execWaitm (x : RRR) (s : State) : Host.Outcome State Fault Refusal :=
  issueOne 0 (encWord (.waitm x)) (opWaitm x) s

/-- WAITM_REREAD (R125): the watched line has been written, and the command stream reads it again at its next issue. -/
def execWaitmReread (k : Nat) (s : State) : Host.Outcome State Fault Refusal :=
  .next (match (s.th k).waitm with
    | some (_, true) => s.modTh k fun t => { t with waitm := none }
    | _ => s)

/-! ### TRAP, BRK and FIN (04 R128–R130) -/

/-- TRAP (R129): it commits, and then its issuer stops with a TRAP record. -/
def opTrap (x : RI) : SlotOp :=
  { g := x.g.toNat, srcS := [x.d.toNat]
    stop := fun c => some (x.i.toNat * 2 ^ 64 + (c.sv x.d.toNat).toNat) }
def execTrap (x : RI) (s : State) : Host.Outcome State Fault Refusal :=
  issueOne 0 (encWord (.trap x)) (opTrap x) s

/-- BRK (R130). -/
def opBrk (x : Brk) : SlotOp := { g := x.g.toNat, brk := some x.i.toNat }
def execBrk (x : Brk) (s : State) : Host.Outcome State Fault Refusal :=
  issueOne 0 (encWord (.brk x)) (opBrk x) s

/-- The occupancy record at a FIN (11 R326): TASKS rises, and DRIFT where the declared cycle count was missed. -/
def Occ.fin (o : Occ) (drift : Bool) : Occ :=
  { o with tasks := satAdd 32 o.tasks 1, drift := if drift then satAdd 16 o.drift 1 else o.drift }

/-- The first steps of FIN at its commit (04 R128): no later bundle issues; loops, rules and rotation are discarded. -/
def State.finTask (s : State) (k status scycAfter : Nat) : State :=
  match (s.th k).task with
  | none => s.modTh k fun t => { t with mode := .finishing, loops := [], rules := [], rotn := 0 }
  | some j =>
    let s1 := s.modTh k fun t => { t with
      mode := .finishing, loops := [], rules := [], rotn := 0, task := some { j with status, fin := true } }
    { s1 with
      occ := putK s1.occ k ((getD {} s1.occ k).fin (j.cycles != 0 && scycAfter != j.cycles))
      tasks := s1.tasks.map fun x =>
        if x.ctx == s1.ctxOf k && x.count == j.count then { x with st := .finishing, status, impure := x.impure || j.impure, bad := x.bad || j.bad } else x }

/-- FIN (R128). -/
def opFin (x : AN) : SlotOp :=
  { g := x.g.toNat, gn := x.n == 1, legal := legal (.fin x), whr := .partOnly, srcS := [x.a.toNat]
    eff := fun c s => s.finTask c.k (fld (c.sv x.a.toNat) 15 0) (c.t.scyc + 1) }
def execFin (x : AN) (s : State) : Host.Outcome State Fault Refusal :=
  issueOne 0 (encWord (.fin x)) (opFin x) s

/-! ### Control registers (03 R89, R90, 11 R325) -/

/-- RRB (03 Table 3-21). -/
def rrbOf (t : Thr) : W64 :=
  match t.rotLoop with
  | none => BitVec.ofNat 64 (t.rotn % 2 ^ 32)
  | some e => BitVec.ofNat 64 ((if e.w = 0 then 0 else t.rotn % e.w) * 2 ^ 32 + t.rotn % 2 ^ 32)

/-- The tenant slot of a tenant identifier: the lowest valid one (20 R499). -/
def State.tenant? (s : State) (tid : Nat) : Option Tenant :=
  s.tenants.foldl (fun acc x =>
    if x.reg.getLsbD 16 && fld x.reg 15 0 == tid then
      match acc with
      | none => some x
      | some y => if x.slot < y.slot then some x else some y
    else acc) none

/-- The quota RQUOTA reports (11 Table 11-11). -/
def State.quota (s : State) (tid : Nat) : Nat := match s.tenant? tid with
  | some x => x.quota
  | none => 0

/-- A partition control register (03 Table 3-15); none for a SEL that is not listed. -/
def crPart (c : IC) (sel : Nat) : Option W64 :=
  let core := coreOf c.k
  if sel = 0x000 then some (BitVec.ofNat 64 c.k)
  else if sel = 0x001 then some (BitVec.ofNat 64 (c.cx % 64))
  else if sel = 0x002 then some (BitVec.ofNat 64 (c.s.ctx c.cx).tenant)
  else if sel = 0x003 then some (BitVec.ofNat 64 c.t.scyc)
  else if sel = 0x004 then some (BitVec.ofNat 64 c.s.gcyc)
  else if sel = 0x008 then some (rrbOf c.t)
  else if sel = 0x009 then some c.t.barb
  else if sel = 0x00A then some c.t.bard
  else if sel = 0x00C then some c.t.aland
  else if sel = 0x010 then some c.t.srstate
  else if sel = 0x018 then some c.t.fltrec
  else if sel = 0x020 then some c.t.drth
  else if 0x100 ≤ sel ∧ sel < 0x110 then
    some (if c.s.feature 5 && (List.range 8).all (fun i => (c.s.ctx c.cx).allot.contains (core * 8 + i)) then
      getD 0 c.s.pmc (core * 16 + (sel - 0x100)) else 0)
  else if 0x110 ≤ sel ∧ sel < 0x120 then
    some (if c.s.feature 5 then getD 0 c.s.pmsel (core * 16 + (sel - 0x110)) else 0)
  else none

/-- A command-stream control register (11 Table 11-6). -/
def crCs (c : IC) (sel : Nat) : Option W64 :=
  let x := c.s.ctx c.cx
  if sel = 0x001 then some (BitVec.ofNat 64 c.cx)
  else if sel = 0x002 then some (BitVec.ofNat 64 x.tenant)
  else if sel = 0x004 then some (BitVec.ofNat 64 c.s.gcyc)
  else if sel = 0x030 then some (BitVec.ofNat 64 (c.s.csid c.cx))
  else if sel = 0x031 then some (BitVec.ofNat 64 (x.subcnt % 2 ^ 32))
  else if sel = 0x032 then some (BitVec.ofNat 64 (x.retlo % 2 ^ 32))
  else if sel = 0x033 then some (BitVec.ofNat 64 x.tmode)
  else if sel = 0x034 then some (BitVec.ofNat 64 (c.s.quota x.tenant))
  else none

/-- The control register a SEL code names for the issuer. -/
def crRead (c : IC) (sel : Nat) : Option W64 := if isCs c.k then crCs c sel else crPart c sel

/-- The registers task code may write. -/
def ctlOf (sel : Nat) : Option CtlReg :=
  if sel = 0x009 then some .barb else if sel = 0x00A then some .bard
  else if sel = 0x00C then some .aland else if sel = 0x010 then some .srstate else none

/-- Reads of SCYC and GCYC, and any access to SRSTATE, are purity violations (11 R327). -/
def crImpure (sel : Nat) : Option Nat := if sel = 0x003 ∨ sel = 0x004 ∨ sel = 0x010 then some 0 else none

/-- CRR (R126). -/
def opCrr (x : Crf) : SlotOp :=
  { g := x.g.toNat, gn := x.n == 1, legal := legal (.crr x), dsts := [.s x.s.toNat]
    ill := fun c => (crRead c x.l.toNat).isNone
    impure := fun _ => crImpure x.l.toNat
    eff := flyS 1 x.s.toNat fun c => (crRead c x.l.toNat).getD 0 }
def execCrr (x : Crf) (s : State) : Host.Outcome State Fault Refusal :=
  issueOne 0 (encWord (.crr x)) (opCrr x) s

/-- CRW (R126): a write of a field that is read-only or reserved is ignored; the effect is from +1. -/
def opCrw (x : Crf) : SlotOp :=
  { g := x.g.toNat, gn := x.n == 1, legal := legal (.crw x), srcS := [x.s.toNat]
    ill := fun c => if isCs c.k then x.l.toNat != 0x033 else (ctlOf x.l.toNat).isNone
    impure := fun _ => if x.l.toNat = 0x010 then some 0 else none
    barb := x.l.toNat == 0x009
    eff := fun c s =>
      if isCs c.k then s.fly c.k 1 (.tmode (c.sv x.s.toNat))
      else match ctlOf x.l.toNat with
        | some r => s.fly c.k 1 (.ctl r (c.sv x.s.toNat))
        | none => s }
def execCrw (x : Crf) (s : State) : Host.Outcome State Fault Refusal :=
  issueOne 0 (encWord (.crw x)) (opCrw x) s

/-! ### ICINV (04 R132) -/

/-- ICINV (R132): the issuing core's lines at once; those of other cores as a request that a DRAIN completes. -/
def opIcinv (x : Icinv) : SlotOp :=
  { g := x.g.toNat, gn := x.n == 1, legal := legal (.icinv x), srcS := [x.a.toNat, x.b.toNat]
    eff := fun c s =>
      let va := (c.sv x.a.toNat).toNat
      let n := (c.sv x.b.toNat).toNat
      let s1 := s.icInvalidate (fun core => core == c.s.tcore c.k) (c.s.covers c.cx va n)
      if x.f.toNat ≤ 1 then s1 else s1.addReq c.k s1.nextId 0 false (.icinv x.f.toNat va n) }
def execIcinv (x : Icinv) (s : State) : Host.Outcome State Fault Refusal :=
  issueOne 0 (encWord (.icinv x)) (opIcinv x) s

end Sys2Proof.Machine
end

