-- ==== Sys2Proof/Machine/Keccak.lean ====
section
/-! DEFINITION. SHA3-256 of byte strings (08 R228, 11 R332): FIPS 202, which the spec names and does not
restate; the firmware image and the identity key, which rest on it (20 R492, R493). -/

namespace Sys2Proof.Machine

open Sys2Proof

/-- The round constants of Keccak-f[1600], from the LFSR x^8 + x^6 + x^5 + x^4 + 1. -/
def lfsrStep (r : Nat) : Nat := let y := 2 * r; if y ≥ 256 then (y ^^^ 0x71) % 256 else y

/-- The LFSR output bits from a register value. -/
def lfsrBits (n r : Nat) : List Bool :=
  match n with
  | 0 => []
  | n + 1 => (r % 2 == 1) :: lfsrBits n (lfsrStep r)

/-- The constant of round i: bit 2^j − 1 is LFSR bit 7i + j. -/
def roundConst (i : Nat) : W64 :=
  let bs := (lfsrBits 168 1).drop (7 * i)
  BitVec.ofNat 64 ((List.range 7).foldl (fun acc j => if bs.getD j false then acc + 2 ^ (2 ^ j - 1) else acc) 0)

/-- Lane (x, y) of a state of 25 lanes. -/
def lane (a : List W64) (x y : Nat) : W64 := a.getD (x % 5 + 5 * (y % 5)) 0

/-- A state from its lanes. -/
def lanesBy (f : Nat → Nat → W64) : List W64 := (List.range 25).map fun i => f (i % 5) (i / 5)

/-- The rotation offset of lane (x, y): t steps of (x, y) → (y, 2x + 3y) from (1, 0) give (t + 1)(t + 2) / 2. -/
def rhoGo (fuel t x y tx ty : Nat) : Nat :=
  match fuel with
  | 0 => 0
  | f + 1 => if x = tx ∧ y = ty then (t + 1) * (t + 2) / 2 % 64 else rhoGo f (t + 1) y ((2 * x + 3 * y) % 5) tx ty

def rhoOf (x y : Nat) : Nat := if x = 0 ∧ y = 0 then 0 else rhoGo 24 0 1 0 x y

/-- One round of Keccak-f[1600]. -/
def keccakRound (a : List W64) (rc : W64) : List W64 :=
  let c := (List.range 5).map fun x => lane a x 0 ^^^ lane a x 1 ^^^ lane a x 2 ^^^ lane a x 3 ^^^ lane a x 4
  let d := (List.range 5).map fun x => c.getD ((x + 4) % 5) 0 ^^^ (c.getD ((x + 1) % 5) 0).rotateLeft 1
  let t := lanesBy fun x y => lane a x y ^^^ d.getD x 0
  let b := lanesBy fun x y =>
    -- lane (x, y) of b comes from the lane (x', y') with x = y' and y = 2x' + 3y'
    let x' := (x + 3 * y) % 5
    (lane t x' x).rotateLeft (rhoOf x' x)
  let e := lanesBy fun x y => lane b x y ^^^ (~~~(lane b (x + 1) y) &&& lane b (x + 2) y)
  lanesBy fun x y => if x = 0 ∧ y = 0 then lane e 0 0 ^^^ rc else lane e x y

/-- Keccak-f[1600]. -/
def keccakF (a : List W64) : List W64 := (List.range 24).foldl (fun s i => keccakRound s (roundConst i)) a

/-- XORs a block of bytes into a state. -/
def xorBlock (a : List W64) (bs : List Byte) : List W64 :=
  (List.range 25).map fun i => a.getD i 0 ^^^ BitVec.ofNat 64 (ofBytes ((bs.drop (8 * i)).take 8))

/-- Absorbs blocks of 136 bytes; `fuel` bounds their number. -/
def absorb (fuel : Nat) (a : List W64) (bs : List Byte) : List W64 :=
  match fuel with
  | 0 => a
  | f + 1 => if bs.isEmpty then a else absorb f (keccakF (xorBlock a (bs.take 136))) (bs.drop 136)

/-- Pads a message to whole blocks with the domain bits `dom`. -/
def padSha (dom : Nat) (bs : List Byte) : List Byte :=
  let n := 136 - bs.length % 136
  if n = 1 then bs ++ [BitVec.ofNat 8 (dom + 128)]
  else bs ++ BitVec.ofNat 8 dom :: List.replicate (n - 2) 0 ++ [0x80#8]

/-- SHA3-256. -/
def sha3 (bs : List Byte) : List Byte :=
  let p := padSha 6 bs
  (absorb (p.length / 136) (List.replicate 25 0) p).take 4 |>.flatMap fun w => bytesOf 8 w.toNat

/-! ### The firmware image (20 R492) -/

/-- n bytes at an offset of the image that reset i loads. -/
def imageBytes (i o n : Nat) : List Byte := (List.range n).map fun j => Config.imageByte i (o + j)

/-- Its security version, its code's length, the digest its header names, and its code. -/
def imageSvn (i : Nat) : Nat := ofBytes (imageBytes i 0x08 8)
def imageLen (i : Nat) : Nat := ofBytes (imageBytes i 0x10 8)
def imageDigest (i : Nat) : List Byte := imageBytes i 0x20 32
def imageCode (i : Nat) : List Byte := imageBytes i 64 (imageLen i)

/-- Whether the boot ROM accepts an image under a fused rollback count. -/
def imageGood (i count : Nat) : Bool :=
  ofBytes (imageBytes i 0 8) % 2 ^ 32 == 0x574F4C49 && sha3 (imageCode i) == imageDigest i &&
  Config.firmwareSigned (sha3 (imageBytes i 0 64)) (imageBytes i (64 + imageLen i) 2420) && decide (count ≤ imageSvn i)

/-! ### The identity key (20 R493) -/

/-- The seed of the key pair: of the fused secret, zero once RETURN has been entered (20 R496), and the firmware's code digest. -/
def keySeed (zero : Bool) (i : Nat) : List Byte :=
  sha3 ((if zero then List.replicate 32 0 else (List.range 32).map Config.fusedSecret) ++ imageDigest i)

/-- DEVID: the digest of the 1,312-byte public key. -/
def devId (zero : Bool) (i : Nat) : List Byte := sha3 ((List.range 1312).map (Config.publicKey (keySeed zero i)))

end Sys2Proof.Machine
end

