-- ==== Sys2Proof/Machine/Copy.lean ====
section
/-! DEFINITION. Block copies (08 R224–R233). -/

namespace Sys2Proof.Machine

open Sys2Proof

/-! ### The operand words (08 Tables 8-4, 8-5) -/

def cpRowb (w2 : W64) : Nat := fld w2 63 52 + 1
def cpRows (w2 : W64) : Nat := fld w2 51 40 + 1
def cpDp (w2 : W64) : Nat := fld w2 39 20
def cpSp (w2 : W64) : Nat := fld w2 19 0
def cpSsp (w3 : W64) : Bool := w3.getLsbD 0
def cpDsp (w3 : W64) : Bool := w3.getLsbD 1
def cpBe (w3 : W64) : Bool := w3.getLsbD 2
def cpNb (w3 : W64) : Bool := w3.getLsbD 3
def cpBar (w3 : W64) : Nat := fld w3 19 4
def cpRm (w3 : W64) : Nat := fld w3 21 20
def cpSfmt (w3 : W64) : Nat := fld w3 25 22
def cpDfmt (w3 : W64) : Nat := fld w3 29 26
def cpCore (w3 : W64) : Nat := fld w3 36 30
def cpNbt (w3 : W64) : Nat := fld w3 63 37

/-- Formats of a side with no tensor record (08 R227). -/
def plainFmt (f : Nat) : Bool := [0, 1, 2, 3, 4, 7, 8].contains f

/-- Elements of a row of a side, by the record's geometry or the plain format; none where the row is no whole number of
elements, or on a record side of 8-bit or 4-bit geometry of lines (08 R227). -/
def sideElems (geo : Option Nat) (f len : Nat) : Option Nat :=
  match geo with
  | some g =>
    if g ≥ 2 then if len % 64 = 0 then some (len / 64 * lineElems g) else none
    else let w := if g = 0 then 4 else 2
      if len % w = 0 then some (len / w) else none
  | none => if len * 8 % fmtBits f = 0 then some (len * 8 / fmtBits f) else none

/-- Bytes of a row of n elements of a side. -/
def sideBytes (geo : Option Nat) (f n : Nat) : Option Nat :=
  match geo with
  | some g =>
    if g ≥ 2 then if n % lineElems g = 0 then some (n / lineElems g * 64) else none
    else some (n * (if g = 0 then 4 else 2))
  | none => some (n * fmtBits f / 8)

/-- Rows at a base and pitch: where each begins. -/
def rowAt (a pitch : Nat) (r : Nat) : Nat := a + r * pitch

/-- The bytes from the first row to the end of the last. -/
def extent (rows pitch len : Nat) : Nat := (rows - 1) * pitch + len

/-- The first row of a scratchpad side not wholly below 2^25 (08 R225). -/
def rowsBeyond (a rows pitch len : Nat) : Option SF :=
  if a ≥ 2 ^ 25 then some ⟨8, a, 0⟩
  else ((List.range rows).find? fun r => decide (rowAt a pitch r + len > 2 ^ 25)).map fun r => ⟨8, rowAt a pitch r, 0⟩

/-! ### Checks at issue (08 R225, R227, R254) -/

/-- A copy slot: what its checks need. -/
structure CopyIn where
  w : List W64
  major : Nat

def CopyIn.i (x : CopyIn) (n : Nat) : W64 := x.w.getD n 0
def CopyIn.rowb (x : CopyIn) : Nat := cpRowb (x.i 2)
def CopyIn.rows (x : CopyIn) : Nat := cpRows (x.i 2)
def CopyIn.ssp (x : CopyIn) : Bool := cpSsp (x.i 3)
def CopyIn.dsp (x : CopyIn) : Bool := cpDsp (x.i 3)
def CopyIn.hasDst (x : CopyIn) : Bool := x.major != 3
def CopyIn.hasFp (x : CopyIn) : Bool := decide (2 ≤ x.major)

/-- The pointers of a copy: source, destination, fingerprint record; whether each is written. -/
def CopyIn.ptrs (x : CopyIn) : List (W64 × Bool) :=
  (if x.ssp then [] else [(x.i 0, false)]) ++ (if x.hasDst && !x.dsp then [(x.i 1, true)] else []) ++
  (if x.hasFp then [(x.i 4, true)] else [])

/-- The geometry of a global side's record. -/
def sideGeo (c : IC) (x : CopyIn) (dst : Bool) : Option Nat :=
  if (if dst then x.dsp else x.ssp) then none
  else (c.hnd (x.i (if dst then 1 else 0))).tens.map (c.s.recGeo c.cx)

/-- The elements of a row, and the bytes of a destination row. -/
def copyElems (c : IC) (x : CopyIn) : Option Nat := sideElems (sideGeo c x false) (cpSfmt (x.i 3)) x.rowb
def copyDst (c : IC) (x : CopyIn) : Option Nat :=
  if x.major = 1 then match copyElems c x with
    | none => none
    | some n => sideBytes (sideGeo c x true) (cpDfmt (x.i 3)) n
  else some x.rowb

/-- The descriptor checks that do not depend on a handle. -/
def copyDesc (c : IC) (x : CopyIn) : Bool :=
  let w3 := x.i 3
  let cs := isCs c.k
  (cs && (x.ssp || x.dsp || decide (cpCore w3 > 95))) || (!cs && cpCore w3 != 0) ||
  (x.major != 1 && (cpSfmt w3 != 0 || cpDfmt w3 != 0 || cpRm w3 != 0)) ||
  (x.major == 3 && (x.i 1 != 0 || cpDp (x.i 2) != 0 || x.dsp)) ||
  (cpBe w3 && decide (c.s.cword c.cx 0x80 ≤ cpBar w3)) ||
  (x.major == 1 && ((x.ssp && !plainFmt (cpSfmt w3)) || (x.dsp && !plainFmt (cpDfmt w3)) ||
    (x.ssp && x.dsp && (copyDst c x).isNone)))

/-- Addresses of scratchpad rows; a destination row whose length a record decides waits for its handle. -/
def copyRowsBad (c : IC) (x : CopyIn) : Option SF :=
  (if x.ssp then rowsBeyond (x.i 0).toNat x.rows (cpSp (x.i 2)) x.rowb else none).or
    (if x.dsp && x.hasDst && (x.ssp || x.major != 1) then
      match copyDst c x with
      | some n => rowsBeyond (x.i 1).toNat x.rows (cpDp (x.i 2)) n
      | none => none
     else if x.dsp && x.hasDst then rowsBeyond (x.i 1).toNat x.rows (cpDp (x.i 2)) 1
     else none)

/-- Steps 3 and 4 of R254. -/
def copyChk (c : IC) (x : CopyIn) : Option SF :=
  (((descIf c (copyDesc c x)).or (copyRowsBad c x)).or (firstSome x.ptrs fun p => ptrAddr p.1 false)).or
    (if x.hasFp && ptrOfs (x.i 4) % 32 != 0 then some ⟨9, (x.i 4).toNat, 0⟩ else none)

/-- The checks of R227 that depend on a global side's record. -/
def copyRec (c : IC) (x : CopyIn) : Option SF :=
  if x.major ≠ 1 then none
  else
    let w3 := x.i 3
    let fmtBad (dst : Bool) : Bool :=
      let f := if dst then cpDfmt w3 else cpSfmt w3
      if (if dst then x.dsp else x.ssp) then false
      else match sideGeo c x dst with
        | some _ => f != 0
        | none => !plainFmt f
    let lineBad (dst : Bool) (len : Nat) : Bool :=
      match sideGeo c x dst with
      | some g => decide (2 ≤ g) && (ptrOfs (x.i (if dst then 1 else 0)) % 64 != 0 ||
          (if dst then cpDp (x.i 2) else cpSp (x.i 2)) % 64 != 0 || len % 64 != 0)
      | none => false
    descIf c (fmtBad false || fmtBad true || (copyDst c x).isNone || lineBad false x.rowb ||
      lineBad true ((copyDst c x).getD 64))

/-- Range of a copy's pointers (08 R225). -/
def copyRange (c : IC) (x : CopyIn) : Option SF :=
  let out (p : W64) (n : Nat) : Option SF :=
    if ptrOfs p + n > (c.hnd p).size then some ⟨13, p.toNat, ptrHx p⟩ else none
  ((if x.ssp then none else out (x.i 0) (extent x.rows (cpSp (x.i 2)) x.rowb)).or
    (if x.dsp || !x.hasDst then none
     else match copyDst c x with
       | some n => out (x.i 1) (extent x.rows (cpDp (x.i 2)) n)
       | none => none)).or
    (if x.hasFp then out (x.i 4) 32 else none)

/-- Tensor-format, then format-region, of a converting copy's record sides (08 R227, R254 step 8). -/
def copyFormat (c : IC) (x : CopyIn) : Option SF :=
  if x.major ≠ 1 then none
  else
    let d := c.hnd (x.i 1)
    let region (p : W64) (pitch len : Nat) : Option SF :=
      let h := c.hnd p
      match h.tens with
      | none => none
      | some i => ((List.range x.rows).find? fun r =>
          !isData (c.s.recGeo c.cx i) h.size (ptrOfs p + r * pitch + len - 1)).map fun r =>
            ⟨18, h.vaAt (ptrOfs p + r * pitch), ptrHx p⟩
    ((if x.dsp then none else match d.tens with
      | none => none
      | some i => if fmtReserved (verFmt (c.s.recVer c.cx i (c.s.recWv c.cx i))) then some ⟨17, i, ptrHx (x.i 1)⟩ else none).or
      (if x.ssp then none else region (x.i 0) (cpSp (x.i 2)) x.rowb)).or
      (if x.dsp then none else region (x.i 1) (cpDp (x.i 2)) ((copyDst c x).getD 1))

/-- Steps 6 to 8 of R254. -/
def copyPost (c : IC) (x : CopyIn) : Option SF :=
  if x.ptrs.any fun p => (c.hnd p.1).st = .pending then none
  else (((((firstSome x.ptrs fun p => handleFault (c.hnd p.1) (ptrHx p.1) p.1.toNat).or (copyRange c x)).or
    (copyRec c x)).or
    (if x.major = 1 ∧ x.dsp ∧ !x.ssp then match copyDst c x with
      | some n => rowsBeyond (x.i 1).toNat x.rows (cpDp (x.i 2)) n
      | none => none else none)).or
    ((firstSome x.ptrs fun p => if p.2 && !(c.hnd p.1).wr then some ⟨15, (c.hnd p.1).vaAt (ptrOfs p.1), ptrHx p.1⟩ else none).or
      (firstSome x.ptrs fun p => if p.2 && (c.hnd p.1).cow then some ⟨16, (c.hnd p.1).vaAt (ptrOfs p.1), ptrHx p.1⟩ else none))).or
    (copyFormat c x)

/-- The rows a copy reads and writes, for purity (11 R327). -/
def copyOutside (c : IC) (x : CopyIn) : Option Nat :=
  let rows (p : W64) (pitch len : Nat) : List (Nat × Nat) :=
    (List.range x.rows).map fun r => ((c.hnd p).vaAt (ptrOfs p + r * pitch), len)
  ((if x.ssp then none else c.outside false (rows (x.i 0) (cpSp (x.i 2)) x.rowb)).or
    (if x.dsp || !x.hasDst then none else c.outside true (rows (x.i 1) (cpDp (x.i 2)) ((copyDst c x).getD 1)))).or
    (if x.hasFp then c.outside true [((c.hnd (x.i 4)).vaAt (ptrOfs (x.i 4)), 32)] else none)

/-- What a copy side captures: a handle's page, or nothing of a scratchpad side. -/
def copyCap (c : IC) (sp : Bool) (p : W64) : Cap :=
  if sp then { va := 0, pa := p.toNat, base := 0, size := 0, tens := none } else c.cap p

/-- The core that runs a copy: the issuer's own, or the core W3 names (08 Table 8-5). -/
def copyCore (c : IC) (w3 : W64) : Nat := if isCs c.k then c.s.dieOf c.k * 96 + cpCore w3 else coreOf c.k

/-- CPY, CPYC, CPYF and CPYK. -/
def copyOp (x : EngH) (major : Nat) (lgl : Bool) : SlotOp :=
  let n := if major ≤ 1 then 4 else 5
  let inp (c : IC) : CopyIn := ⟨(List.range n).map (c.w x.p), major⟩
  let ch := x.h.toNat
  { engOp x.g x.k x.c x.n (wRegs x.p n) .any 6 major true (fun _ => { id := 0 }) with
    legal := lgl
    ill := fun c => decide (2 ≤ cpRm (c.w x.p 3)) ||
      (major == 1 && (fmtReserved (cpSfmt (c.w x.p 3)) || fmtReserved (cpDfmt (c.w x.p 3))))
    sched := fun c => entryFull c 6 major (copyCore c (c.w x.p 3))
    chk := fun c => copyChk c (inp c)
    hold := fun c => if (inp c).ptrs.any fun p => (c.hnd p.1).st = .pending then some 5 else none
    post := fun c => copyPost c (inp c)
    impure := fun c => copyOutside c (inp c)
    eff := fun c s =>
      let q := inp c
      let id := (c.t.chan ch).nextId
      (s.accept c x.k (tickets x.c.toNat x.n.toNat)
        { id := 0, pos := 6, major, fn := ch, w := q.w, cid := id, runner := copyCore c (q.i 3)
          caps := [copyCap c q.ssp (q.i 0), copyCap c (q.dsp || !q.hasDst) (q.i 1)] ++ if q.hasFp then [c.cap (q.i 4)] else [] }).modTh c.k
        fun t => { t with chans := putK t.chans ch { t.chan ch with nextId := (id + 1) % 2 ^ 32 } } }

/-- CPY (R226). -/
def opCpy (x : EngH) : SlotOp := copyOp x 0 (legal (.cpy x))
def execCpy (x : EngH) (s : State) : Host.Outcome State Fault Refusal :=
  issueOne 6 (encWord (.cpy x)) (opCpy x) s

/-- CPYC (R227). -/
def opCpyc (x : EngH) : SlotOp := copyOp x 1 (legal (.cpyc x))
def execCpyc (x : EngH) (s : State) : Host.Outcome State Fault Refusal :=
  issueOne 6 (encWord (.cpyc x)) (opCpyc x) s

/-- CPYF (R228). -/
def opCpyf (x : EngH) : SlotOp := copyOp x 2 (legal (.cpyf x))
def execCpyf (x : EngH) (s : State) : Host.Outcome State Fault Refusal :=
  issueOne 6 (encWord (.cpyf x)) (opCpyf x) s

/-- CPYK (R228). -/
def opCpyk (x : EngH) : SlotOp := copyOp x 3 (legal (.cpyk x))
def execCpyk (x : EngH) (s : State) : Host.Outcome State Fault Refusal :=
  issueOne 6 (encWord (.cpyk x)) (opCpyk x) s

/-! ### Waiting for copies (08 R231) -/

/-- Whether every copy of a channel up to identifier w has completed. -/
def CopyChan.passed (ch : CopyChan) (w : Nat) : Bool := decide (0 < sextI (wrapN ((ch.doneId : Int) - w) 32) 32)

/-- CWAIT (R231). -/
def opCwait (x : EngH) : SlotOp :=
    engOp x.g x.k x.c x.n (wRegs x.p 1) .any 6 4 true fun c => { id := 0, fn := x.h.toNat, w := [c.w x.p 0] }
def execCwait (x : EngH) (s : State) : Host.Outcome State Fault Refusal :=
  issueOne 6 (encWord (.cwait x)) (opCwait x) s

/-- The value of CSTAT (08 R231). -/
def cstatValue (e : Nat) (ch : CopyChan) : Nat :=
  if e = 0 then ch.doneId else if e = 1 then ch.nextId
  else ch.errKind * 2 ^ 40 + ch.errCnt * 2 ^ 32 + ch.errId

/-- CSTAT (R231): at +4; its ticket fires with it. -/
def opCstat (x : Cstat) : SlotOp :=
  let d := psReg x.p.toNat 0
  let ch := x.h.toNat
  { engOp x.g x.k x.c x.n [] .any 6 5 true (fun c => { id := 0, fn := ch, due := some (c.t.scyc + 4) }) with
    dsts := [.k x.k.toNat, .s d]
    eff := fun c s =>
      let s1 := (s.accept c x.k (tickets x.c.toNat x.n.toNat)
        { id := 0, pos := 6, major := 5, fn := ch, due := some (c.t.scyc + 4) }).fly c.k 4
          (.s d (BitVec.ofNat 64 (cstatValue x.e.toNat (c.t.chan ch))) false)
      if x.e = 3 then s1.modTh c.k fun t => { t with chans := putK t.chans ch { t.chan ch with errId := 0, errKind := 0, errCnt := 0 } }
      else s1 }
def execCstat (x : Cstat) (s : State) : Host.Outcome State Fault Refusal :=
  issueOne 6 (encWord (.cstat x)) (opCstat x) s

/-! ### The engine: one row (08 R226, R227, R233) -/

/-- The lines a run of n bytes at an address touches: offset in the run and length. -/
def splitLines (a n : Nat) : List (Nat × Nat) :=
  (List.range ((a % 64 + n + 63) / 64)).map fun i =>
    let lo := if i = 0 then 0 else 64 * i - a % 64
    (lo, min (64 - (a + lo) % 64) (n - lo))

/-- A source line: the bytes at an offset of its row, and its tag. -/
structure Piece where
  off : Nat
  bytes : List Byte
  tag : BitVec 4

/-- Reads n bytes of one source line; a poisoned line is logged (08 R226). -/
def State.copyLine (s : State) (m : Cmd) (sp : Bool) (a n : Nat) : List Byte × BitVec 4 × State :=
  if sp then
    match s.spFrame m.ctx (m.runner / 4) a with
    | none => (List.replicate n 0, 0, s)
    | some fa =>
      let tag := s.viewTag false fa
      let s0 := s.spTouch m.runner m.ctx [(a, n)]
      let s1 := if tagPsn tag then s0.log m.ctx 6 a (agentField m.runner 2 true) else s0
      (s.viewBytes false fa n, tag, { s1 with fresh := s1.fresh + 1 })
  else if s.violates (s.firmware m.key) a then
    (s.violatedBytes a n, mkTag true 0, s.log m.ctx 4 a (agentField m.runner 2 false))
  else
    let tag := s.tag a
    let s0 := s.othersRead (a / 64) 500
    (s.physBytes a n, tag, if tagPsn tag then s0.log m.ctx 6 a (agentField m.runner 2 false) else s0)

/-- Reads a row, in ascending address. -/
def State.copyRead (s : State) (m : Cmd) (sp : Bool) (a n : Nat) : List Piece × State :=
  (splitLines a n).foldl (fun acc e =>
    let (bs, tag, s1) := acc.2.copyLine m sp (a + e.1) e.2
    (acc.1 ++ [⟨e.1, bs, tag⟩], s1)) ([], s)

/-- The destination page a copy captured. -/
def Cmd.dstCap (m : Cmd) : Cap := m.caps.getD 1 { va := 0, pa := 0, base := 0, size := 0, tens := none }

/-- Who a copy's scratchpad writes count for. -/
def Cmd.owner (m : Cmd) : Nat := if isCs m.key then m.key else partOf m.key

/-- The tag of a destination line (08 R226): that of the one source line it was written in full from, else its own. -/
def LineBuf.tag (b : LineBuf) : BitVec 4 :=
  match b.src with
  | some (_, t) => if b.bytes.length = 64 then t else mkTag b.psn b.ver
  | none => mkTag b.psn b.ver

/-- A destination line is written: a store to global memory, a frame, or the bounce buffer. -/
def State.copyPut (s : State) (m : Cmd) (b : LineBuf) : State :=
  let s := s.pmcEvent m.runner 0 11 1
  if b.sp then
    match s.spFrame m.ctx (m.runner / 4) b.addr with
    | some fa => s.spPatch m.ctx b.addr m.owner m.id fa b.bytes b.tag
    | none =>
      { s with bounce := s.bounce ++ [{ die := m.runner / 96, ctx := m.ctx, addr := b.addr, bytes := b.bytes, tag := some (tagVer b.tag)
                                        psn := tagPsn b.tag, cmd := m.id, own := m.owner, known := [(engKey m.id, 0)] }] }
  else
    let bound := m.dstCap.tens.map fun i => (i, m.dstCap.base, m.dstCap.size)
    let kind : ReqKind := match byteRuns b.bytes with
      | [(o, bs)] => .store (b.addr + o) bs (some (tagVer b.tag)) (tagPsn b.tag) bound
      | _ => .patch (b.addr / 64) b.bytes (tagVer b.tag) (tagPsn b.tag) bound
    { s with reqs := s.reqs ++ [{ id := s.nextId, key := engKey m.id, acc := m.id, ctx := m.ctx, vpage := m.dstCap.line
                                  tracked := false, kind }]
             nextId := s.nextId + 1 }

/-- A piece joins its line: it follows what the line already holds of an earlier row, and keeps the line's one source only where
both came from it. -/
def LineBuf.join (b p : LineBuf) : LineBuf :=
  if p.bytes.length = 64 then p
  else { b with bytes := p.bytes.foldl (fun l e => putK l e.1 e.2) b.bytes
                psn := b.psn || p.psn
                src := match b.src, p.src with
                  | some (a, _), some (c, t) => if a = c then some (c, t) else none
                  | _, _ => none }

/-- Adds a piece to a copy's unfinished lines. -/
def bufPut (l : List LineBuf) (p : LineBuf) : List LineBuf :=
  match l.find? fun b => b.addr == p.addr && b.sp == p.sp with
  | some b => (l.filter fun x => x != b) ++ [b.join p]
  | none => l ++ [p]

/-- Writes the unfinished lines that no later row adds to. -/
def State.copyFlush (s : State) (id : Nat) (ready : LineBuf → Bool) : State :=
  match s.cmd? id with
  | none => s
  | some m => (m.buf.filter ready).foldl (fun s b => s.copyPut m b)
      (s.modCmd id fun m => { m with buf := m.buf.filter fun b => !ready b })

/-- The pieces of a row's bytes, line by line; `of` gives a line's VER, poison and one source from its offset and length in the
row.  Of bytes that the row before wrote too, either row's may stand (08 R225): `skip` leaves that row's. -/
def rowPieces (sp : Bool) (a : Nat) (bs : List Byte) (skip : Nat) (of : Nat → Nat → Nat × Bool × Option (Nat × BitVec 4)) :
    List LineBuf :=
  (splitLines a bs.length).filterMap fun e =>
    let off := (a + e.1) % 64
    let bytes := ((((bs.drop e.1).take e.2).zipIdx).filter fun x => decide (skip ≤ e.1 + x.2)).map fun x => (off + x.2, x.1)
    let (ver, psn, src) := of e.1 e.2
    if bytes.isEmpty then none else some { addr := (a + e.1) / 64 * 64, sp, bytes, ver, psn, src }

/-- A row's pieces join the copy's unfinished lines. -/
def State.copyWrite (s : State) (m : Cmd) (ps : List LineBuf) : State :=
  s.modCmd m.id fun m => { m with buf := ps.foldl bufPut m.buf }

/-- How many first bytes of a row, which the row before wrote too, are left as that row wrote them. -/
def State.copySkip (s : State) (m : Cmd) (len : Nat) : Nat :=
  if m.row ≠ 0 ∧ Config.freeBit s.fresh then len - cpDp (m.w.getD 2 0) else 0

/-- How a row ended. -/
inductive RowEnd where
  | go (psn : Bool)       -- written; whether a source line was poisoned
  | park                  -- a source page is not resident
  | wait                  -- no free slot of the bounce buffer, or a release read too soon (10 R305)
  | stop (kind : Nat)     -- the copy ends
  deriving DecidableEq, Repr

/-- The VER a copied line takes when no tag travels: the write version at the copy's start (02 R49). -/
def copyVer (s : State) (m : Cmd) (a : Nat) : Nat :=
  match m.dstCap.tens with
  | none => 0
  | some i => plainVer (s.recGeo m.ctx i) m.dstCap.size (a - m.dstCap.base) (m.aux.getD 0 0)

/-- Whether any source line that meets [lo, lo + n) of the row is poisoned. -/
def poisonIn (ps : List Piece) (lo n : Nat) : Bool :=
  ps.any fun p => tagPsn p.tag && decide (p.off < lo + n) && decide (lo < p.off + p.bytes.length)

/-- What a piece of a byte copy's row brings to its line (08 R226). -/
def copyOf (s : State) (m : Cmd) (dsp : Bool) (dst src : Nat) (ps : List Piece) (lo n : Nat) : Nat × Bool × Option (Nat × BitVec 4) :=
  (if dsp then 0 else copyVer s m (dst + lo), poisonIn ps lo n,
    if dst % 64 = src % 64 then (ps.find? fun p => p.off == lo).map fun p => ((src + lo) / 64, p.tag) else none)

/-- An element of a converting copy: its exact value and whether its line was poisoned. -/
abbrev Elem := Ex × Bool

/-- The elements of a source row (08 R227), and whether a line's version was reserved; what stands before that line is
kept. -/
def State.copyDecode (s : State) (m : Cmd) (ps : List Piece) (a : Nat) : List Elem × Bool × State :=
  let cap := m.caps.getD 0 { va := 0, pa := 0, base := 0, size := 0, tens := none }
  let wide (f : Nat) (bs : List Byte) (psnAt : Nat → Bool) : List Elem :=
    let w := fmtBits f / 8
    (List.range (bs.length / w)).map fun i => (decCode f (ofBytes ((bs.drop (w * i)).take w)), psnAt (w * i))
  match cap.tens with
  | none =>
    (wide (cpSfmt (m.w.getD 3 0)) (ps.flatMap Piece.bytes) (fun i => poisonIn ps i (fmtBits (cpSfmt (m.w.getD 3 0)) / 8)), false, s)
  | some i =>
    let geo := s.recGeo m.ctx i
    let cut := ps.findIdx fun p => fmtReserved (verFmt (s.recVer m.ctx i (tagVer p.tag)))
    let keep := ps.take cut
    if geo ≥ 2 then
      let r := keep.foldl (fun (acc : List Elem × State) p =>
        let ver := s.recVer m.ctx i (tagVer p.tag)
        let (sc, bad, s1) := match acc.2.scaleLine m.ctx i cap.base cap.size (a + p.off) with
          | none => (([] : List Byte), false, acc.2)
          | some sa => let q := acc.2.copyLine m false sa 4
            (q.1, tagPsn q.2.1, q.2.2)
        (acc.1 ++ (decodeLine ver p.bytes (sc.map BitVec.toNat) (lineElems geo)).map fun x => (x, tagPsn p.tag || bad), s1)) ([], s)
      (r.1, decide (cut < ps.length), r.2)
    else
      let f := if geo = 0 then (if s.recSfmt m.ctx i = 8 then 8 else 0) else s.recSfmt m.ctx i
      (wide f (keep.flatMap Piece.bytes) (fun j => poisonIn ps j (fmtBits f / 8)), decide (cut < ps.length), s)

/-- Writes a converted row (08 R227). -/
def State.copyEncode (s : State) (m : Cmd) (dsp : Bool) (dst : Nat) (xs : List Elem) : RowEnd × State :=
  let cap := m.caps.getD 1 { va := 0, pa := 0, base := 0, size := 0, tens := none }
  let md : Rm := if cpRm (m.w.getD 3 0) = 1 then .rtz else .rne
  let bad := xs.any Prod.snd
  let vals := xs.map Prod.fst
  match (if dsp then none else cap.tens) with
  | none =>
    let f := cpDfmt (m.w.getD 3 0)
    let w := fmtBits f / 8
    let bs := vals.flatMap fun x => bytesOf w (convert x f md 0).1
    (.go bad, s.copyWrite m (rowPieces dsp dst bs (s.copySkip m bs.length) fun lo n =>
      (if dsp then 0 else copyVer s m (dst + lo), (xs.drop (lo / w)).take ((lo + n + w - 1) / w - lo / w) |>.any Prod.snd, none)))
  | some i =>
    let geo := s.recGeo m.ctx i
    let v := m.aux.getD 0 0
    let ver := s.recVer m.ctx i v
    let f := verFmt ver
    let per := if geo ≥ 2 then lineElems geo else 512 / fmtBits f
    let whole := if geo ≥ 2 then vals.take (vals.length / per * per) else vals
    let (codes, scales, cls) := encodeLine ver whole fun _ => md
    if s.recOact m.ctx i = 2 && s.crosses m.runner m.ctx i (overCount cls) then
      (.stop 4, { s with posts := s.posts ++ [(m.ctx, i, m.runner, s.recWord m.ctx i 0x10 % 2 ^ 32)] })
    else
      let w := fmtBits f
      let bs :=
        if geo ≥ 2 then (List.range (whole.length / per)).flatMap fun j =>
          let l := bytesOf (per * w / 8) (packLE w ((codes.drop (per * j)).take per))
          l ++ List.replicate (64 - l.length) 0
        else bytesOf (codes.length * w / 8) (packLE w codes)
      let psnOf (lo n : Nat) : Bool :=
        if geo ≥ 2 then (xs.drop (lo / 64 * per)).take per |>.any Prod.snd
        else (xs.drop (8 * lo / w)).take ((8 * (lo + n) + w - 1) / w - 8 * lo / w) |>.any Prod.snd
      let skip := s.copySkip m bs.length
      let s1 := s.copyWrite m (rowPieces false dst bs skip fun lo n => (v, psnOf lo n, none))
      let s2 := if scales.isEmpty then s1
        else s1.copyWrite m ((List.range (whole.length / per)).flatMap fun j =>
          rowPieces false (cap.base + dataRegion cap.size + 4 * ((dst - cap.base) / 64 + j))
            (bytesOf 4 (packLE 8 ((scales.drop (per / 32 * j)).take (per / 32)))) (if 64 * j < skip then 4 else 0)
            fun _ _ => (0, psnOf (64 * j) 64, none))
      (.go bad, s2.report m.runner m.ctx i whole cls false)

/-- The bytes of a copy's destination row. -/
def State.copyRowBytes (s : State) (m : Cmd) : Nat :=
  let geo (n : Nat) (sp : Bool) : Option Nat := if sp then none else ((m.caps.getD n { va := 0, pa := 0, base := 0, size := 0, tens := none }).tens).map (s.recGeo m.ctx)
  let w3 := m.w.getD 3 0
  let len := cpRowb (m.w.getD 2 0)
  if m.major = 1 then
    ((sideElems (geo 0 (cpSsp w3)) (cpSfmt w3) len).bind fun n => sideBytes (geo 1 (cpDsp w3)) (cpDfmt w3) n).getD len
  else len

/-- The records of a copy's sides enter the metadata cache of the core that runs it (09 R268). -/
def State.copyRecs (s : State) (m : Cmd) : State :=
  (m.caps.take 2).foldl (fun s k => match k.tens with
    | some i => s.recFill m.runner m.ctx i
    | none => s) s

/-- A copy that meets the matrix unit's swizzled reads waits on a bank, how often is not given (10 R298, 19 R484). -/
def State.bankWait (s : State) (m : Cmd) : State :=
  if s.thr.any fun e => e.1 < csBase && clusterOf e.1 == m.runner / 4 && e.2.mats.any fun x => decide (x.next < x.groups) && !x.abandoned then
    { s with fresh := s.fresh + 1 }.pmcEvent m.runner 0 13 (Config.bankWaits s.fresh)
  else s

/-- The next row of a running copy (08 R226–R228, R233). -/
def State.copyRow (s : State) (m : Cmd) : RowEnd × State :=
  let w2 := m.w.getD 2 0
  let w3 := m.w.getD 3 0
  let ssp := cpSsp w3
  let dsp := cpDsp w3
  let len := cpRowb w2
  let cap (i : Nat) : Nat := (m.caps.getD i { va := 0, pa := 0, base := 0, size := 0, tens := none }).pa
  let src := rowAt (cap 0) (cpSp w2) m.row
  let dst := rowAt (cap 1) (cpDp w2) m.row
  let dlen := m.aux.getD 1 len
  let cl := m.runner / 4
  let dpages := if dsp && m.major != 3 then [(dst, dlen)] else []
  let spages := if ssp then [(src, len)] else []
  if (s.spUnmapped m.ctx (spages ++ dpages)).isSome then (.stop 2, s)
  else
    let miss := s.spMissing m.ctx cl spages
    let global := (if ssp then [] else (splitLines src len).map fun e => src + e.1) ++
      (if dsp || m.major == 3 then [] else (splitLines dst dlen).map fun e => dst + e.1)
    if let some pa := global.find? (s.violates (s.firmware m.key)) then
      (.stop (1 + Config.violationCode m.major % 255), s.log m.ctx 4 pa (agentField m.runner 2 false))
    else if !ssp && s.owed (engKey m.id) [(src, len)] then (.wait, s)
    else if !miss.isEmpty then (.park, miss.foldl (fun s x => s.spAsk m.runner (partOf m.key) m.ctx x cl) s)
    else
      let lines := ((m.buf.map LineBuf.addr) ++ (splitLines dst dlen).map fun e => (dst + e.1) / 64 * 64).dedup
      let need := if dpages.isEmpty then 0 else (lines.filter fun a => (s.spFrame m.ctx cl a).isNone).length
      if need > 0 && decide ((s.bounce.filter fun b => b.die == m.runner / 96).length + need > 16384) then (.wait, s)
      else
        let s0 := if m.major = 1 then s.copyRecs m else s
        let s0 := if ssp || dsp then s0.bankWait m else s0
        let (ps, s1) := { s0 with fresh := s0.fresh + 1 }.copyRead m ssp src len
        let bad := ps.any fun p => tagPsn p.tag
        let bytes := ps.flatMap Piece.bytes
        if m.major = 1 then
          let (xs, cut, s2) := s1.copyDecode m ps src
          let (e, s3) := s2.copyEncode m dsp dst xs
          match e with
          | .stop k => (.stop k, s3)
          | _ => if cut then (.stop 3, s3) else (.go (bad || xs.any Prod.snd), s3)
        else
          let s2 := if m.major ≥ 2 then s1.modCmd m.id fun m => { m with hash := m.hash ++ bytes } else s1
          let s3 := if m.major = 3 then s2
            else s2.copyWrite m (rowPieces dsp dst bytes (s.copySkip m len) (copyOf s m dsp dst src ps))
          (.go bad, s3)

/-- Runs the next rows of a copy, as many as a free value allows (08 R220: engines run beside their issuer). -/
def State.copyRun (s : State) (id fuel : Nat) : State :=
  match fuel with
  | 0 => s
  | fuel + 1 =>
    match s.cmd? id with
    | none => s
    | some m =>
      if m.st != .running || decide (cpRows (m.w.getD 2 0) ≤ m.row) then s
      else
        let (e, s1) := s.copyRow m
        let w2 := m.w.getD 2 0
        match e with
        | .go bad =>
          let after := rowAt m.dstCap.pa (cpDp w2) (m.row + 1)
          let last := decide (cpRows w2 ≤ m.row + 1)
          let plane := m.dstCap.base + dataRegion m.dstCap.size
          (((s1.modCmd id fun m => { m with row := m.row + 1, kind := if bad then 1 else m.kind }).copyFlush id fun b =>
            last || b.bytes.length == 64 || (decide (b.addr + 64 ≤ after) && (b.sp || m.dstCap.tens.isNone || decide (b.addr < plane)))).copyRun
              id fuel)
        | .park =>
          { s1.modCmd id fun m => { m with st := .parked } with
            copyParks := putK s1.copyParks m.runner (getD 0 s1.copyParks m.runner + 1) }
        | .wait => s1
        | .stop k => (s1.modCmd id fun m => { m with row := cpRows w2, kind := k }).copyFlush id fun _ => true

/-- Some rows of a copy: at least one. -/
def State.copySome (s : State) (id : Nat) : State :=
  { s with fresh := s.fresh + 1 }.copyRun id (1 + Config.pickFrame s.fresh)

/-- The not-before time has passed (08 R229). -/
def copyDue (gcyc : Nat) (w3 : W64) : Bool := !cpNb w3 || decide ((gcyc + 2 ^ 27 - cpNbt w3) % 2 ^ 27 < 2 ^ 26)

/-- A copy starts: the write version of its destination is taken, and the bytes of a destination row (08 R226, R227). -/
def State.copyBegin (s : State) (m : Cmd) : State :=
  let v := match m.dstCap.tens with
    | some i => s.recWv m.ctx i
    | none => 0
  (s.modCmd m.id fun m => { m with st := .running, since := s.gcyc, aux := [v, s.copyRowBytes m] }).copySome m.id

/-- ENGINE_START of a copy: it runs, or waits in the time-sorted buffer (08 R229). -/
def State.startCopy (s : State) (m : Cmd) : State :=
  if copyDue s.gcyc (m.w.getD 3 0) then s.copyBegin m else s.modCmd m.id fun m => { m with st := .timed }

/-- Whether a command is a copy. -/
def Cmd.isCopy (m : Cmd) : Bool := m.pos == 6 && decide (m.major < 4)

/-- COPY_NOT_BEFORE_RELEASE (08 R229). -/
def execCopyNotBeforeRelease (cmd : Nat) (s : State) : Host.Outcome State Fault Refusal :=
  .next (match s.cmd? cmd with
    | none => s
    | some m => if m.isCopy && m.st == .timed && copyDue s.gcyc (m.w.getD 3 0) then s.copyBegin m else s)

/-- Copies whose time has come start in that cycle (08 R229). -/
def State.copyTick (s : State) : State :=
  s.cmds.foldl (fun s m => if m.isCopy && m.st == .timed && copyDue s.gcyc (m.w.getD 3 0) then s.copyBegin m else s) s

/-- COPY_SOURCE_RESUME (08 R233): the pager has brought the page in, and the copy goes on from its row. -/
def execCopySourceResume (cmd : Nat) (s : State) : Host.Outcome State Fault Refusal :=
  .next (match s.cmd? cmd with
    | none => s
    | some m => if m.isCopy && m.st == .parked then (s.modCmd cmd fun m => { m with st := .running }).copySome cmd else s)

/-- The fingerprint record (08 Table 8-6). -/
def fingerprint (m : Cmd) : List Byte :=
  (if m.kind = 0 then (sha3 m.hash).take 16 else List.replicate 16 0) ++ bytesOf 4 m.cid ++
  bytesOf 4 (cpRowb (m.w.getD 2 0) * cpRows (m.w.getD 2 0)) ++ bytesOf 1 m.kind ++ bytesOf 7 0

/-- The channel after copy `id` completes with a kind (08 R230): DONEID passes what has completed, by `fuel` steps. -/
def CopyChan.advance (ch : CopyChan) (fuel : Nat) : CopyChan :=
  match fuel with
  | 0 => ch
  | f + 1 =>
    if ch.ended.contains ch.doneId then
      ({ ch with doneId := (ch.doneId + 1) % 2 ^ 32, ended := ch.ended.filter fun i => i != ch.doneId }).advance f
    else ch

/-- Records a completion in a channel (08 Table 8-7). -/
def CopyChan.complete (ch : CopyChan) (id kind : Nat) : CopyChan :=
  let ch1 := ({ ch with ended := ch.ended ++ [id] }).advance (ch.ended.length + 1)
  if kind = 0 then ch1
  else
    let lower := ch.errCnt == 0 || decide (sextI (wrapN ((id : Int) - ch.errId) 32) 32 < 0)
    { ch1 with errId := if lower then id else ch.errId, errKind := if lower then kind else ch.errKind
               errCnt := min (ch.errCnt + 1) 255 }

/-- The end of a copy (08 R228, R232): its fingerprint, its channel, its barrier, and its ticket or its error.  One that met an
access violation ends with a kind of its own (10 R286). -/
def State.copyFinish (s : State) (m : Cmd) : State :=
  let w3 := m.w.getD 3 0
  let s := s.pmcEvent m.runner 0 10 1
  let m := if m.viol && m.kind == 0 then { m with kind := 1 + Config.violationCode m.major % 255 } else m
  let s1 := match m.caps[2]? with
    | some cap => s.engineWrite m cap (fingerprint m)
    | none => s
  let s2 := s1.modOwner m.key fun t => { t with chans := putK t.chans m.fn ((t.chan m.fn).complete m.cid m.kind) }
  let s3 := if cpBe w3 then
      s2.barSignal m.ctx (cpBar w3) 0 (-(cpRows (m.w.getD 2 0) * m.aux.getD 1 0 : Nat)) (agentField m.runner 2 false)
        [(engKey m.id, 0), (m.key, m.id)]
    else s2
  if m.kind = 0 then s3.fire m.id else s3.cmdError m m.kind

/-- COPY_COMPLETE (08 R232): a running copy goes on, and completes when every row is done and its last line has
performed. -/
def execCopyComplete (cmd : Nat) (s : State) : Host.Outcome State Fault Refusal :=
  .next (
    let s1 := s.copySome cmd
    match s1.cmd? cmd with
    | none => s
    | some m =>
      if !m.isCopy then s
      else if m.st == .running && decide (cpRows (m.w.getD 2 0) ≤ m.row) && !(s1.reqs.any fun r => r.key == engKey cmd)
      then s1.copyFinish m else if m.st == .running || m.st == .parked then s1 else s)

end Sys2Proof.Machine
end

