-- ==== Sys2Proof/Machine/Tensor.lean ====
section
/-! DEFINITION. Tensor-record commands and the scale governor (08 R234, R235, 09 R255–R283). -/

namespace Sys2Proof.Machine

open Sys2Proof

/-! ### The record's fields -/

/-- A number with bits [hi:lo] replaced. -/
def putBits (w hi lo v : Nat) : Nat := w - bitsN w hi lo * 2 ^ lo + v % 2 ^ (hi + 1 - lo) * 2 ^ lo

/-- Changes a 64-bit word of a record. -/
def State.recMod (s : State) (c i off : Nat) (f : Nat → Nat) : State := s.recPut c i off (f (s.recRaw c i off))

/-- Sets a field of CTRL. -/
def State.ctrlPut (s : State) (c i hi lo v : Nat) : State := s.recMod c i 0 fun w => putBits w hi lo v

/-- A record whose STATE holds 3 or whose GEO does not match its SFMT is written all zero by the first command that names it
(09 R255). -/
def State.recFix (s : State) (c i : Nat) : State :=
  let ctrl := s.recRaw c i 0
  if ctrl % 4 = 3 ∨ geoOf (bitsN ctrl 7 4) ≠ bitsN ctrl 9 8 then forN 64 s fun j s => if s.recRaw c i (8 * j) = 0 then s else s.recPut c i (8 * j) 0 else s

def State.recPol (s : State) (c i : Nat) : Nat := bitsN (s.recWord c i 0) 11 10
def State.recAccum (s : State) (c i : Nat) : Bool := (s.recWord c i 0).testBit 16
def State.recTrip (s : State) (c i : Nat) : Bool := (s.recWord c i 0).testBit 14
def State.recBin (s : State) (c i b : Nat) : Nat := bitsN (s.recWord c i (0x100 + b / 2 * 8)) (32 * (b % 2) + 31) (32 * (b % 2))

/-- A version slot: its format and its scale exponent as held. -/
def State.recSlot (s : State) (c i v : Nat) : Nat × Int :=
  let w := s.recVer c i v
  (verFmt w, sextI (w % 64) 6)

/-- lowreset() of 09 R273. -/
def State.lowReset (s : State) (c i : Nat) : State := s.recMod c i 0 fun w => putBits w 57 40 0

/-! ### Deltas (09 R267, R269) -/

/-- Whether a delta belongs to a record. -/
def Delta.of (d : Delta) (c i : Nat) : Bool := d.ctx == c && d.idx == i

/-- Recalls and merges every delta of a record. -/
def State.recall (s : State) (c i : Nat) : State :=
  (s.deltas.filter fun d => d.of c i).foldl (fun s d => s.merge (s.delta d.core c i)) s

/-- Restarts every core's CSOV for a record. -/
def State.csovZero (s : State) (c i : Nat) : State :=
  { s with deltas := s.deltas.map fun d => if d.of c i then { d with csov := 0 } else d }

/-! ### Evaluation (09 R272, R273) -/

/-- The exponent of a format's largest finite value. -/
def emaxF (f : Nat) : Int := if f = 3 then 8 else if f = 4 then 15 else 2

/-- pbin(p): the smallest nonempty bin with at least p/65,536 of the total at or below it. -/
def pbin (hist : List Nat) (p : Nat) : Nat :=
  let total := hist.foldl (· + ·) 0
  let c (b : Nat) : Nat := (hist.take (b + 1)).foldl (· + ·) 0
  ((List.range 64).find? fun b => decide (0 < c b) && decide (p * total ≤ 65536 * c b)).getD 63

/-- The candidate version, or none. -/
def evaluate (pol geo fmt : Nat) (hist : List Nat) (pct hbias head rng4 rng5 : Nat) : Option (Nat × Int) :=
  let total := hist.foldl (· + ·) 0
  if pol = 0 ∨ !([3, 4, 5, 6].contains fmt) ∨ total = 0 then none
  else
    let hi := ((List.range 64).filter fun b => hist.getD b 0 != 0).getLast?.getD 0
    let top := if pol = 2 then pbin hist pct else hi
    let f := if pol = 3 ∧ geo = 2 then
        let range := hi - pbin hist pct
        if range ≤ rng4 then 3 else if range ≤ rng5 then 4 else 6
      else fmt
    some (f, min (max ((top : Int) - sextI hbias 8 + head - emaxF f) (-32)) 31)

/-- The order of candidates: rank, then scale. -/
def fmtRank (f : Nat) : Nat := if f = 4 then 1 else if f = 6 then 2 else 0
def higher (x y : Nat × Int) : Bool :=
  decide (fmtRank y.1 < fmtRank x.1) || (fmtRank x.1 == fmtRank y.1 && decide (y.2 < x.2))

/-- Hysteresis: the new version, if any, and the record after it. -/
def State.hysteresis (s : State) (c i : Nat) (cand : Option (Nat × Int)) : Option (Nat × Int) × State :=
  match cand with
  | none => (none, s)
  | some cd =>
    let cur := s.recSlot c i (s.recWv c i)
    if cd = cur then (none, s.lowReset c i)
    else if higher cd cur then (some cd, s.lowReset c i)
    else
      let w := s.recWord c i 0
      let cnt := bitsN w 47 40
      let held := (bitsN w 57 54, sextI (bitsN w 53 48) 6)
      let low := if cnt = 0 ∨ higher cd held then cd else held
      if cnt + 1 > bitsN (s.recWord c i 8) 47 40 then (some low, s.lowReset c i)
      else (none, ((s.ctrlPut c i 57 54 low.1).ctrlPut c i 53 48 (wrapN low.2 6)).ctrlPut c i 47 40 (cnt + 1))

/-- The histogram of a record. -/
def State.recHist (s : State) (c i : Nat) : List Nat := (List.range 64).map (s.recBin c i)

/-! ### Installing a version (09 R264, R276) -/

/-- Whether a write that has yet to perform carries a version of a record: a committed store, a copy or a collective under way.
Its line may still come to LIVE of that slot (09 R262, R277). -/
def State.carriesVer (s : State) (c i v : Nat) : Bool :=
  (s.reqs.any fun r => r.ctx == c && match r.kind with
    | .store _ _ (some u) _ (some (j, _)) => j == i && u == v
    | .patch _ _ u _ (some (j, _)) => j == i && u == v
    | _ => false) ||
  (s.cmds.any fun m => m.isCopy && m.ctx == c && (m.st == .running || m.st == .parked) && m.dstCap.tens == some i && m.aux.head? == some v) ||
  s.colls.any fun l => l.ctx == c && l.dst == some (some i) && l.wv == some v

/-- Puts (f, v) into the first version slot that takes it; none where every other slot has live lines. -/
def State.tryInstall (s : State) (c i : Nat) (f : Nat) (sc : Int) : Option State :=
  let wv := s.recWv c i
  match (List.range 4).find? fun u => u != wv && s.recSlot c i u == (f, sc) with
  | some u => some (s.ctrlPut c i 3 2 u)
  | none =>
    match ([(wv + 1) % 4, (wv + 2) % 4, (wv + 3) % 4]).find? fun v => s.recVer c i v / 2 ^ 32 == 0 && !s.carriesVer c i v with
    | none => none
    | some v => some ((s.recPut c i (0x20 + 8 * v) (f * 256 + wrapN sc 6)).ctrlPut c i 3 2 v)

/-- Ends an install: STATE is ACTIVE, nothing is pending, TRIP clears (12 R365) and every CSOV restarts. -/
def State.installed (s : State) (c i : Nat) : State :=
  let s1 := s.recMod c i 0 fun w => putBits (putBits (putBits (putBits w 1 0 1) 38 38 0) 35 32 0) 29 24 0
  (s1.ctrlPut c i 14 14 0).csovZero c i

/-- Installs a version for a command, or leaves the record PENDING (09 R276). -/
def State.install (s : State) (c i : Nat) (f : Nat) (sc : Int) (cmd : Nat) (forced : Bool) : State :=
  let s1 := s.recall c i
  match s1.tryInstall c i f sc with
  | some s2 => (s2.installed c i).fire cmd
  | none =>
    let s2 := s1.recMod c i 0 fun w =>
      putBits (putBits (putBits (putBits w 1 0 2) 38 38 (b2n forced)) 35 32 f) 29 24 (wrapN sc 6)
    let s3 := s2.recMod c i 0x10 fun w => w % 2 ^ 32 + satAdd 32 (w / 2 ^ 32) 1 * 2 ^ 32
    { s3 with installs := s3.installs ++ [{ ctx := c, idx := i, fmt := f, scale := sc, cmd, retry := s3.gcyc + 4096 }] }

/-- A retry of a PENDING record: every delta is recalled, and the waiting ticket fires when a slot is found (09 R264). -/
def State.retryInstall (s : State) (x : Install) : State :=
  let s1 := (s.vshare x.ctx (s.recVa x.ctx x.idx) 512).recall x.ctx x.idx
  let rest := s1.installs.filter fun y => !(y.ctx == x.ctx && y.idx == x.idx)
  match s1.tryInstall x.ctx x.idx x.fmt x.scale with
  | some s2 =>
    ({ s2 with installs := rest }.installed x.ctx x.idx).fire x.cmd
  | none => { s1 with installs := rest ++ [{ x with retry := s1.gcyc + 4096 }] }

/-- INSTALL_RETRY (09 R264): after each merge, and every 4,096 cycles. -/
def execInstallRetry (ctx idx : Nat) (s : State) : Host.Outcome State Fault Refusal :=
  .next (match s.installs.find? fun x => x.ctx == ctx && x.idx == idx with
    | none => s
    | some x => if x.retry ≤ s.gcyc then s.retryInstall x else s)

/-- Whether a record has a pending install. -/
def State.pendingInstall (s : State) (c i : Nat) : Option Install := s.installs.find? fun x => x.ctx == c && x.idx == i

/-- A delta merges at the home; a PENDING record then retries (09 R264, R267). -/
def State.mergeRetry (s : State) (d : Delta) : State :=
  let s1 := s.merge d
  match s1.pendingInstall d.ctx d.idx with
  | some x => s1.retryInstall x
  | none => s1

/-- DELTA_MERGE (09 R267): a full field, or a governor that recalls for a pending install. -/
def execDeltaMerge (core ctx idx : Nat) (s : State) : Host.Outcome State Fault Refusal :=
  .next (match s.deltas.find? fun d => d.core == core && d.of ctx idx with
    | none => s
    | some d => if d.full || (s.pendingInstall ctx idx).isSome then s.mergeRetry d else s)

/-- DELTA_MERGE_TIMEOUT (09 R267). -/
def execDeltaMergeTimeout (core ctx idx : Nat) (s : State) : Host.Outcome State Fault Refusal :=
  .next (match s.deltas.find? fun d => d.core == core && d.of ctx idx with
    | none => s
    | some d => if d.since + 65536 ≤ s.gcyc then s.mergeRetry d else s)

/-- Merges and retries that are due at the end of a cycle. -/
def State.tensorTick (s : State) : State :=
  let s1 := (s.deltas.filter fun d => decide (d.since + 65536 ≤ s.gcyc)).foldl (fun s d => s.mergeRetry d) s
  (s1.installs.filter fun x => decide (x.retry ≤ s1.gcyc)).foldl (fun s x => s.retryInstall x) s1

/-- RECORD_LEAVES_METADATA_CACHE (05 Table 5-4, 09 R267): the delta merges, and the core's VALID handles of the record are
PENDING again.  A record that a multiply-accumulate captured stays (07 R199). -/
def execRecordLeavesMetadataCache (core ctx idx : Nat) (s : State) : Host.Outcome State Fault Refusal :=
  .next (
    if s.recCaptured core ctx idx || !s.cached.contains (core, ctx, idx) then s else s.recLeave core ctx idx)

/-- A post reaches the home: the first of a step sets TRIP, and the governor of the record's die posts a record (09 R270, 12 Table
12-8). -/
def State.landPost (s : State) (p : Nat × Nat × Nat × Nat) : State :=
  let ctx := p.1
  let idx := p.2.1
  let s1 := { s with posts := s.posts.erase p }
  if s1.recFree ctx idx || s1.recTrip ctx idx then s1
  else
    let s2 := (s1.ctrlPut ctx idx 14 14 1).recMod ctx idx 0x18 fun w => w % 2 ^ 32 + satAdd 32 (w / 2 ^ 32) 1 * 2 ^ 32
    s2.post { id := 0, src := governorSrc (s2.recDie ctx idx), ctx, kind := 5, srcCode := 3, idField := s2.recDie ctx idx
              det0 := idx, det1 := s2.recWord ctx idx 0x10 % 2 ^ 32 + p.2.2.1 * 2 ^ 32 }

/-- TENSOR_CROSSING_POST (09 R270). -/
def execTensorCrossingPost (ctx idx : Nat) (s : State) : Host.Outcome State Fault Refusal :=
  .next (match s.posts.find? fun p => p.1 == ctx && p.2.1 == idx with
    | none => s
    | some p => s.landPost p)

/-! ### The commands -/

/-- TSTEP, TSCALE, TREAD, TCFG and TRST: W0 an index below RTCNT (08 R234). -/
def tensorOp (x : Eng) (major fn : Nat) (whr : Where) (bad : IC → Bool) : SlotOp :=
  { engOp x.g x.k x.c x.n (wRegs x.p 2) whr 6 major false (fun c =>
      { id := 0, fn, w := [c.w x.p 0, c.w x.p 1], runner := c.s.recDie c.cx (c.w x.p 0).toNat
        caps := if major = 8 ∨ major = 9 then [c.cap (c.w x.p 1)] else [] }) with
    chk := fun c => descIf c (fld (c.w x.p 0) 63 20 != 0 || decide (c.s.cword c.cx 0x28 ≤ (c.w x.p 0).toNat) || bad c) }

/-- A command with a pointer W1 to a structure of n bytes, `wr`: written. -/
def structOp (p : BitVec 5) (n : Nat) (wr : Bool) (o : SlotOp) : SlotOp :=
  { o with
    chk := fun c => (o.chk c).or (structEarly (c.w p 1) (min n 64))
    hold := fun c => (o.hold c).or (structHold c (c.w p 1))
    post := fun c => ptrLate c (c.w p 1) n wr }

/-- TSTEP (R271). -/
def opTstep (x : Eng) : SlotOp := tensorOp x 6 0 .any fun c => c.w x.p 1 != 0
def execTstep (x : Eng) (s : State) : Host.Outcome State Fault Refusal :=
  issueOne 6 (encWord (.tstep x)) (opTstep x) s

/-- TSCALE (R274): a reserved format code is illegal (02 R36). -/
def opTscale (x : Eng) : SlotOp :=
  { tensorOp x 7 0 .csOnly (fun c =>
      let w1 := c.w x.p 1
      let i := (c.w x.p 0).toNat
      fld w1 63 12 != 0 || fld w1 7 6 != 0 || !geoAllows (c.s.recGeo c.cx i) (c.s.recSfmt c.cx i) (fld w1 11 8)) with
    ill := fun c => fmtReserved (fld (c.w x.p 1) 11 8) }
def execTscale (x : Eng) (s : State) : Host.Outcome State Fault Refusal :=
  issueOne 6 (encWord (.tscale x)) (opTscale x) s

/-- TREAD (R278). -/
def opTread (x : Eng) : SlotOp := structOp x.p 512 true (tensorOp x 8 0 .any fun _ => false)
def execTread (x : Eng) (s : State) : Host.Outcome State Fault Refusal :=
  issueOne 6 (encWord (.tread x)) (opTread x) s

/-- TREAD_SYNC (R278). -/
def opTreadSync (x : Eng) : SlotOp := structOp x.p 512 true (tensorOp x 8 1 .any fun _ => false)
def execTreadSync (x : Eng) (s : State) : Host.Outcome State Fault Refusal :=
  issueOne 6 (encWord (.treadSync x)) (opTreadSync x) s

/-- TCFG (R279). -/
def opTcfg (x : Eng) : SlotOp := structOp x.p 64 false (tensorOp x 9 0 .csOnly fun _ => false)
def execTcfg (x : Eng) (s : State) : Host.Outcome State Fault Refusal :=
  issueOne 6 (encWord (.tcfg x)) (opTcfg x) s

/-- TRST (R278). -/
def opTrst (x : Eng) : SlotOp := tensorOp x 10 0 .any fun c => c.w x.p 1 != 0
def execTrst (x : Eng) (s : State) : Host.Outcome State Fault Refusal :=
  issueOne 6 (encWord (.trst x)) (opTrst x) s

/-! ### What the governor does -/

/-- Clears HIST and the four counters. -/
def State.clearStats (s : State) (c i : Nat) : State :=
  forN 32 ((s.recPut c i 0x40 0).recPut c i 0x48 0) fun j s => s.recPut c i (0x100 + 8 * j) 0

/-- TSTEP at the home (09 R271). -/
def State.stepRecord (s : State) (m : Cmd) (i : Nat) : State :=
  let c := m.ctx
  let s1 := (s.recall c i).recMod c i 0x10 fun w => w / 2 ^ 32 * 2 ^ 32 + satAdd 32 (w % 2 ^ 32) 1
  let cfg := s1.recWord c i 8
  let cur := (s1.recSlot c i (s1.recWv c i)).1
  let cand := evaluate (s1.recPol c i) (s1.recGeo c i) cur (s1.recHist c i) (bitsN cfg 63 48) (bitsN cfg 31 24)
    (bitsN cfg 39 36) (bitsN cfg 23 16) (bitsN cfg 15 8)
  let (new_, s2) := s1.hysteresis c i cand
  let s3 := if s2.recAccum c i then s2 else s2.clearStats c i
  let s4 := (s3.ctrlPut c i 14 14 0).csovZero c i
  match new_ with
  | none => s4.fire m.id
  | some v => s4.install c i v.1 v.2 m.id false

/-- TSCALE at the home (09 R274, R275).  A format that the record's geometry, changed since the issue, no longer allows ends it in
code 3 of Table 9-8 (DESIGN CHOICE, notes/assumptions/113). -/
def State.scaleRecord (s : State) (m : Cmd) (i : Nat) : State :=
  let c := m.ctx
  let w1 := (m.w.getD 1 0).toNat
  let v := (bitsN w1 11 8, sextI (w1 % 64) 6)
  if !geoAllows (s.recGeo c i) (s.recSfmt c i) v.1 then s.cmdError m 3
  else
    let s1 := s.lowReset c i
    if s1.recGeo c i < 2 ∨ v = s1.recSlot c i (s1.recWv c i) then s1.fire m.id
    else s1.install c i v.1 v.2 m.id true

/-- Adds or subtracts the data lines of a page, whose tags the governor reads as a coherent agent (09 R258, R266, 10 R291). -/
def State.bindPage (s : State) (c i : Nat) (l : Leaf) (add : Bool) : State :=
  let lines := if 2 ≤ s.recGeo c i then dataRegion l.size / 64 else l.size / 64
  let tags := (List.range lines).map fun j => tagVer (s.tag (l.base + 64 * j))
  let s0 := forN lines s fun j s => s.othersRead (l.base / 64 + j) 500
  forN 4 (s0.recall c i) fun v s =>
    let n := (tags.filter (· == v)).length
    let w := s.recVer c i v
    let live := w / 2 ^ 32
    let s1 := s.recPut c i (0x20 + 8 * v) (w % 2 ^ 32 + (if add then satAdd 32 live n else live - n) * 2 ^ 32)
    if !add && decide (live < n) then s1.ctrlPut c i 15 15 1 else s1

/-- TCFG at the home (09 R279, R280): the lowest code of the causes that hold. -/
def State.configure (s : State) (m : Cmd) (i : Nat) (b : List Byte) : State :=
  let c := m.ctx
  let word (j : Nat) : Nat := ofBytes ((b.drop (8 * j)).take 8)
  let w0 := word 0
  let op := w0 % 16
  let st := s.recState c i
  let sfmt := bitsN w0 7 4
  let ifmt := bitsN w0 11 8
  let geo := geoOf sfmt
  let oact := bitsN w0 21 20
  let rsv := bitsN w0 63 23 != 0 || bitsN (word 1) 35 32 != 0 || bitsN (word 1) 7 0 != 0 || bitsN (word 2) 63 32 != 0 ||
    bitsN (word 3) 63 52 != 0 || (b.drop 32).any fun x => x != 0
  let page := word 3
  let leaf := s.walkWith c false false page
  let pageBad := match leaf with
    | none => true
    | some l => l.tens != some i || l.size == 4096 || page % l.size != 0
  if op < 6 ∧ ((st = 0) ≠ (op = 1)) then s.cmdError m 1
  else if decide (6 ≤ op) || (oact == 3 && decide (op ≤ 1)) || rsv then s.cmdError m 2
  else if op == 1 && (geo == 4 || !geoAllows geo sfmt ifmt) then s.cmdError m 3
  else if (op == 3 || op == 4) && pageBad then s.cmdError m 4
  else if op = 0 then
    let s1 := s.recMod c i 0 fun w => putBits (putBits (putBits w 11 10 (bitsN w0 19 18)) 13 12 oact) 16 16 (bitsN w0 22 22)
    (((s1.recPut c i 8 (word 1)).recMod c i 0x18 fun w => w / 2 ^ 32 * 2 ^ 32 + word 2 % 2 ^ 32).lowReset c i).fire m.id
  else if op = 1 then
    let ctrl := 1 + sfmt * 16 + geo * 256 + bitsN w0 19 18 * 1024 + oact * 4096 + bitsN w0 22 22 * 65536
    let s1 := forN 64 s fun j s => s.recPut c i (8 * j) 0
    let s2 := forN 4 (((s1.recPut c i 0 ctrl).recPut c i 8 (word 1)).recPut c i 0x18 (word 2 % 2 ^ 32)) fun v s =>
      s.recPut c i (0x20 + 8 * v) (ifmt * 256 + bitsN w0 17 12)
    { s2 with deltas := s2.deltas.filter fun d => !d.of c i }.fire m.id
  else if op = 2 then
    let s1 := s.recall c i
    if (List.range 4).any fun v => s1.recVer c i v / 2 ^ 32 != 0 then s1.cmdError m 5
    else { forN 64 s1 fun j s => s.recPut c i (8 * j) 0 with deltas := s1.deltas.filter fun d => !d.of c i }.fire m.id
  else if op = 5 then (s.ctrlPut c i 15 15 0).fire m.id
  else match leaf with
    | some l => (s.bindPage c i l (op == 3)).fire m.id
    | none => s

/-- A tensor-record command reaches the home and takes effect (09 R263). -/
def State.startTensor (s : State) (m : Cmd) : State :=
  let c := m.ctx
  let i := (m.w.getD 0 0).toNat
  let s := (s.vshare c (s.recVa c i) 512).recFix c i
  let cap := m.caps.getD 0 { va := 0, pa := 0, base := 0, size := 0, tens := none }
  if m.major = 9 then
    let (b, _, s1) := s.engineRead m cap 64
    s1.configure m i b
  else if s.recState c i = 0 then s.cmdError m 1
  else if m.major = 6 then s.stepRecord m i
  else if m.major = 7 then s.scaleRecord m i
  else if m.major = 8 then
    let s1 := if m.fn = 1 then s.recall c i else s
    (s1.engineWrite m cap ((List.range 64).flatMap fun j => bytesOf 8 (s1.recRaw c i (8 * j)))).fire m.id
  else (((s.clearStats c i).ctrlPut c i 14 14 0).csovZero c i).fire m.id

/-- A command that a PENDING record keeps waiting, whoever issued it (09 R263, R264). -/
def State.tensorHeld (s : State) (m : Cmd) : Bool :=
  m.pos == 6 && decide (6 ≤ m.major) && decide (m.major ≤ 10) && !m.ahead &&
  s.recState m.ctx (m.w.getD 0 0).toNat == 2

end Sys2Proof.Machine
end

