-- ==== Sys2Proof/Machine/Task.lean ====
section
/-! DEFINITION. Tasks: submission, dependence, semaphores, reuse, retirement (08 R236–R242, 11). -/

namespace Sys2Proof.Machine

open Sys2Proof

/-! ### Semaphores (11 R323) -/

def State.semPa (s : State) (c n : Nat) : Nat := (s.ctx c).semPages.getD (n / 1024) 0 * 4096 + 4 * (n % 1024)
def State.semRead (s : State) (c n : Nat) : Nat := s.partGet (s.semPa c n) 4
def State.semWrite (s : State) (c n v : Nat) : State := s.partPut c (s.semPa c n) (bytesOf 4 v)

/-- SEMS.add and SEMS.set, and SEMW. -/
def semOp (x : Eng) (major fn : Nat) : SlotOp :=
  { engOp x.g x.k x.c x.n (wRegs x.p 2) .any 6 major false (fun c =>
      { id := 0, fn, w := [c.w x.p 0, c.w x.p 1], runner := c.s.dieOf c.k }) with
    chk := fun c => descIf c (fld (c.w x.p 0) 63 12 != 0) }

/-- SEMS_ADD (R238). -/
def opSemsAdd (x : Eng) : SlotOp := semOp x 13 0
def execSemsAdd (x : Eng) (s : State) : Host.Outcome State Fault Refusal :=
  issueOne 6 (encWord (.semsAdd x)) (opSemsAdd x) s

/-- SEMS_SET (R238). -/
def opSemsSet (x : Eng) : SlotOp := semOp x 13 1
def execSemsSet (x : Eng) (s : State) : Host.Outcome State Fault Refusal :=
  issueOne 6 (encWord (.semsSet x)) (opSemsSet x) s

/-- SEMW (R238). -/
def opSemw (x : Eng) : SlotOp := semOp x 14 0
def execSemw (x : Eng) (s : State) : Host.Outcome State Fault Refusal :=
  issueOne 6 (encWord (.semw x)) (opSemw x) s

/-- What an update of a semaphore signals to a SEMW that fires on the count it helped reach (10 R305 edge 7); a .set leaves no
earlier update a part in the count. -/
def State.semSignal (s : State) (c n k id : Nat) (set_ : Bool) : State :=
  ({ s with signals := if set_ then s.signals.filter fun g => g.obj != [1, c, n] else s.signals } : State).signal [1, c, n] k id

/-- SEMS reaches the counter's home (08 R238). -/
def State.startSems (s : State) (m : Cmd) : State :=
  let n := (m.w.getD 0 0).toNat
  let v := fld (m.w.getD 1 0) 31 0
  ((s.semWrite m.ctx n (if m.fn = 0 then s.semRead m.ctx n + v else v)).semSignal m.ctx n m.key m.id (m.fn != 0)).fire m.id

/-! ### Submission (08 R236, 11 R312–R314) -/

/-- TSUB (R236): S(2·PS) = the task's count, at +4. -/
def opTsub (x : EngF) : SlotOp :=
  let d := psReg x.p.toNat 0
  { engOp x.g x.k x.c x.n (wRegs x.p 2) .csOnly 6 11 true (fun _ => { id := 0 }) with
    legal := legal (.tsub x), dsts := [.k x.k.toNat, .s d]
    chk := fun c => (descIf c (c.w x.p 0 != 0)).or (structEarly (c.w x.p 1) 256)
    hold := fun c => structHold c (c.w x.p 1)
    post := fun c => ptrLate c (c.w x.p 1) 256 false
    eff := fun c s =>
      let n := ((c.s.ctx c.cx).subcnt + 1) % 2 ^ 32
      let id := s.nextId
      let s1 := s.accept c x.k (tickets x.c.toNat x.n.toNat)
        { id := 0, pos := 6, major := 11, cid := n, caps := [c.cap (c.w x.p 1)], runner := c.s.dieOf c.k }
      let s2 := (s1.modCtx c.cx fun q => { q with subcnt := n }).fly c.k 4 (.s d (BitVec.ofNat 64 n) false)
      { s2 with tasks := s2.tasks ++ [{ ctx := c.cx, count := n, cmd := id, seq := id }] } }
def execTsub (x : EngF) (s : State) : Host.Outcome State Fault Refusal :=
  issueOne 6 (encWord (.tsub x)) (opTsub x) s

/-- TWAIT and TWAIT.all. -/
def twaitOp (x : Eng) (fn : Nat) : SlotOp :=
  { engOp x.g x.k x.c x.n (wRegs x.p 2) .csOnly 6 12 true (fun c => { id := 0, fn, w := [c.w x.p 0], runner := c.s.dieOf c.k }) with
    chk := fun c => descIf c (c.w x.p 1 != 0 || decide ((c.s.ctx c.cx).subcnt < (c.w x.p 0).toNat)) }

/-- TWAIT (R237). -/
def opTwait (x : Eng) : SlotOp := twaitOp x 0
def execTwait (x : Eng) (s : State) : Host.Outcome State Fault Refusal :=
  issueOne 6 (encWord (.twait x)) (opTwait x) s

/-- TWAIT_ALL (R237). -/
def opTwaitAll (x : Eng) : SlotOp := twaitOp x 1
def execTwaitAll (x : Eng) (s : State) : Host.Outcome State Fault Refusal :=
  issueOne 6 (encWord (.twaitAll x)) (opTwaitAll x) s

/-- Whether a task count is at or before another, modulo 2^32. -/
def countLe (a b : Nat) : Bool := decide (0 ≤ sextI (wrapN ((b : Int) - a) 32) 32)

/-- Whether the condition of a TWAIT holds (08 R237): a task stands in `tasks` until it retires. -/
def State.twaitDone (s : State) (m : Cmd) : Bool :=
  let n := (m.w.getD 0 0).toNat
  !(s.tasks.any fun t => t.ctx == m.ctx && (if m.fn = 0 then t.count == n else countLe t.count n))

/-! ### Entering the dependence table (11 R319, R320) -/

/-- Whether n bytes of virtual memory are mapped, readable, and no line of them violates (10 R286). -/
def State.mappedRun (s : State) (c : Nat) (va n : Nat) : Bool :=
  (List.range ((va % 64 + n + 63) / 64)).all fun i =>
    let lo := if i = 0 then va else va / 64 * 64 + 64 * i
    match s.walk c false lo with
    | none => false
    | some l => !s.violates false (l.base + lo % l.size)

/-- Whether a line of virtual memory is mapped so that a write is allowed (11 R333). -/
def State.writable (s : State) (c va : Nat) : Bool := match s.walk c false va with
  | some l => l.wr && !l.cow
  | none => false

/-- Changes a tenant's slot. -/
def State.modTenant (s : State) (tid : Nat) (f : Tenant → Tenant) : State :=
  match s.tenant? tid with
  | none => s
  | some x => { s with tenants := s.tenants.map fun y => if y.slot == x.slot then f y else y }

def State.bump (s : State) (c : Nat) (f : ReuseStats → ReuseStats) : State :=
  s.modTenant (s.ctx c).tenant fun x => { x with stats := f x.stats }

/-- The physical lines of a task's ranges. -/
def State.taskLines (s : State) (t : Task) : List Nat :=
  ((t.reads ++ t.writes).flatMap fun r => (List.range ((r.1 % 64 + r.2 + 63) / 64)).filterMap fun i =>
    (s.vpa t.ctx (r.1 / 64 * 64 + 64 * i)).map (· / 64)).dedup

/-- Replaces a task. -/
def State.putTask (s : State) (t : Task) : State :=
  { s with tasks := s.tasks.map fun u => if u.ctx == t.ctx && u.count == t.count then t else u }

/-! ### The watch of the reuse unit (11 R334) -/

/-- Recalls the M, O and E copies of a line; an owner's dirty line goes to its home. -/
def State.recallLine (s : State) (line : Nat) : State :=
  let mine (e : Nat × Nat × Moesi) : Bool := e.2.1 == line && e.2.2 != .s
  if s.l1.any mine then
    let s1 := if s.l1.any (fun e => e.2.1 == line && (e.2.2 == .m || e.2.2 == .o)) then s.l2Touch line true else s
    let rest := s1.l1.filter fun e => !mine e
    { s1 with l1 := rest
              dir := if rest.any fun e => e.2.1 == line then s1.dir.map fun d => if d.1 == line then (line, { d.2 with st := .shared }) else d
                     else delK s1.dir line }
  else s

/-- Adds one to the counter of a watched line; 15 is the most. -/
def State.watchUp (s : State) (unit line : Nat) : State :=
  { s with watchCnt := putK s.watchCnt (watchKey unit line) (min 15 (getD 0 s.watchCnt (watchKey unit line) + 1)) }

/-- Subtracts one from it; one at 15 stays. -/
def State.watchDown (s : State) (unit line : Nat) : State :=
  let n := getD 0 s.watchCnt (watchKey unit line)
  if n = 15 then s else { s with watchCnt := putD 0 s.watchCnt (watchKey unit line) (n - 1) }

/-- A slice in which no watch of a unit is armed any longer clears the unit's counters. -/
def State.watchClear (s : State) (unit line : Nat) : State :=
  let slice := homeSlice (line * 64)
  if s.tasks.any fun t => t.watching && t.unit == unit && t.armed.any fun l => homeSlice (l * 64) == slice then s
  else { s with watchCnt := s.watchCnt.filter fun e => e.1 / 1024 != unit * 2048 + slice }

/-- Arms the watch of a task on the lines of its ranges: modified, owned and exclusive copies are recalled. -/
def State.arm (s : State) (t : Task) : State :=
  let lines := s.taskLines t
  let s1 := lines.foldl (fun s l => (s.recallLine l).watchUp t.unit l) s
  (s1.putTask { t with st := .lookup, watching := true, armed := lines }).bump t.ctx fun x => { x with lookup := satAdd 64 x.lookup 1 }

/-- Disarms it. -/
def State.disarm (s : State) (t : Task) : State :=
  if !t.watching then s
  else
    let s1 := t.armed.foldl (fun s l => s.watchDown t.unit l)
      ({ s with tasks := s.tasks.map fun u => if u.ctx == t.ctx && u.count == t.count then { u with watching := false } else u } : State)
    t.armed.foldl (fun s l => s.watchClear t.unit l) s1

/-- What a submission names. -/
structure Submission where
  task : Task
  codes : List Nat      -- causes of 11 Table 11-3 that hold
  writeWord : Bool      -- the completion word may be written

/-- A 64-bit word of a run of bytes. -/
def wordOf (b : List Byte) (off : Nat) : Nat := ofBytes ((b.drop off).take 8)

/-- Reads the descriptor's bytes `d` and the kernel header they name (11 R312–R314).  A completion word on a copy-on-write page has
no write permission (13 R375, notes/assumptions/112). -/
def State.submission (s : State) (t : Task) (d : List Byte) : Submission :=
  let c := t.ctx
  let kaddr := wordOf d 0 % 2 ^ 52
  let part := wordOf d 8 % 4096
  let cadr := wordOf d 0x10 % 2 ^ 52
  let readable := kaddr % 64 == 0 && s.mappedRun c kaddr 0x140
  let h := if readable then s.vrdRun c kaddr 0x140 else List.replicate 0x140 0
  let codelen := wordOf h 8
  let nwait := bitsN (wordOf h 0x10) 50 48
  let nsig := bitsN (wordOf h 0x18) 50 48
  let range (base rel i : Nat) : Nat × Nat :=
    ((wordOf h (base + 16 * i) % 2 ^ 52 + wordOf d (rel + 8 * i)) % 2 ^ 64, wordOf h (base + 8 + 16 * i) % 2 ^ 32)
  let reads := ((List.range 8).map (range 0x40 0x80)).filter fun r => r.2 != 0
  let writes := ((List.range 8).map (range 0xC0 0xC0)).filter fun r => r.2 != 0
  let clen := codelen % 2 ^ 32
  let c1 := !readable || clen % 64 != 0 || clen == 0 || decide (2 ^ 24 < clen)
  let c2 := !(s.ctx c).allot.contains part
  let c3 := (reads ++ writes).any fun r => decide (2 ^ 52 < r.1 + r.2)
  let c4 := decide (4 < nwait) || decide (4 < nsig)
  let rsvD := bitsN (wordOf d 0) 63 52 != 0 || bitsN (wordOf d 8) 63 28 != 0 || bitsN (wordOf d 8) 15 12 != 0 ||
    bitsN (wordOf d 0x10) 63 52 != 0 || wordOf d 0x18 != 0 || ((d.drop 0x30).take 16).any fun b => b != 0
  let rsvH := bitsN (wordOf h 0) 63 33 != 0 || bitsN codelen 63 32 != 0 || bitsN (wordOf h 0x10) 63 51 != 0 ||
    bitsN (wordOf h 0x18) 63 51 != 0 ||
    (List.range 16).any fun i => bitsN (wordOf h (0x40 + 16 * i)) 63 52 != 0 || bitsN (wordOf h (0x48 + 16 * i)) 63 32 != 0
  let c6 := cadr != 0 && (cadr % 8 != 0 || !s.writable c cadr)
  let sems (w n : Nat) : List Nat := (List.range n).map fun j => bitsN w (12 * j + 11) (12 * j)
  { task := { t with
      st := .waiting, part, unit := part / 768, kernel := kaddr, pure := (wordOf h 0).testBit 32, cycles := wordOf h 0 % 2 ^ 32
      phase := bitsN (wordOf d 8) 27 16, cadr
      consts := (List.range 8).map fun i => BitVec.ofNat 64 (wordOf d (0x40 + 8 * i))
      digest := (h.drop 0x20).take 32, reads, writes
      lens := ((List.range 8).map fun i => (range 0x40 0x80 i).2) ++ (List.range 8).map fun i => (range 0xC0 0xC0 i).2
      waitSems := (sems (wordOf h 0x10) (min 4 nwait)).zipIdx.map fun e => (e.1, ofBytes ((d.drop (0x20 + 4 * e.2)).take 4))
      sigs := sems (wordOf h 0x18) (min 4 nsig) }
    codes := (if c1 then [1] else []) ++ (if c2 then [2] else []) ++ (if c3 then [3] else []) ++ (if c4 then [4] else []) ++
      (if rsvD || rsvH then [5] else []) ++ if c6 then [6] else []
    writeWord := cadr != 0 && !c6 }

/-- Whether two ranges share a line (11 R313). -/
def linesMeet (a b : Nat × Nat) : Bool :=
  decide (a.1 / 64 ≤ (b.1 + b.2 - 1) / 64) && decide (b.1 / 64 ≤ (a.1 + a.2 - 1) / 64)

/-- A dependence of a task on an earlier one (11 R319). -/
def dependsOn (t u : Task) : Bool :=
  (t.reads.any fun a => u.writes.any (linesMeet a)) || (t.writes.any fun a => (u.reads ++ u.writes).any (linesMeet a))

/-! ### Retirement (11 R317, R334, R335, R517) -/

/-- The bytes of ranges of virtual memory; none where a line is not mapped readable (11 R334). -/
def State.rangesBytes (s : State) (c : Nat) (rs : List (Nat × Nat)) : Option (List Byte) :=
  if rs.all fun r => s.mappedRun c r.1 r.2 then some (rs.flatMap fun r => s.vrdRun c r.1 r.2) else none

/-- The 64-byte lines of physical memory that lie wholly inside a context's result pool (11 R517). -/
def State.poolLines (s : State) (c : Nat) : List Nat :=
  let x := s.ctx c
  let base := x.poolBase
  let size := x.poolSize
  (List.range (size / 64 + 1)).filterMap fun i =>
    let va := (base + 63) / 64 * 64 + 64 * i
    if va + 64 ≤ base + size then (x.poolPages[(va - base / 4096 * 4096) / 4096]?).map fun p => p * 64 + va % 4096 / 64 else none

/-- Removes reuse entries. -/
def State.dropReuse (s : State) (hit : Reuse → Bool) : State := { s with reuse := s.reuse.filter fun e => !hit e }

/-- Evicts the least recent entry among some, `fuel` times at most, while a test asks for it. -/
def State.evictWhile (s : State) (c fuel : Nat) (of : Reuse → Bool) (more : State → Bool) : State :=
  match fuel with
  | 0 => s
  | fuel + 1 =>
    if !more s then s
    else
      let oldest := (s.reuse.filter of).foldl (fun acc e => match acc with
        | none => some e
        | some a => if e.stamp < a.stamp then some e else some a) (none : Option Reuse)
      match oldest with
      | none => s
      | some e => (({ s with reuse := s.reuse.erase e } : State).bump c fun x => { x with evict := satAdd 64 x.evict 1 }).evictWhile c fuel of more

/-- Writes a result into free lines of the pool, in a layout of the part's own (11 R517). -/
def State.storeResult (s : State) (t : Task) (tid die key : Nat) (bytes : List Byte) : State :=
  let pool := s.poolLines t.ctx
  let need := (bytes.length + 63) / 64
  let free (s : State) : List Nat := pool.filter fun l => !(s.reuse.any fun e => e.lines.contains l)
  let s1 := s.evictWhile t.ctx s.reuse.length (fun e => e.lines.any pool.contains) fun s => decide ((free s).length < need)
  let fr := free s1
  let n := Config.poolPlace t.ctx s1.fresh % (fr.length + 1)
  let lines := (fr.drop n ++ fr.take n).take need
  let s2 : State := { s1 with
    fresh := s1.fresh + 1, nextId := s1.nextId + 1
    reuse := s1.reuse ++ [{ die, tenant := tid, key, writes := t.writes.map Prod.snd, reads := t.reads, lines, stamp := s1.nextId }] }
  let s3 := lines.zipIdx.foldl (fun s e => s.partPut t.ctx (e.1 * 64) ((bytes.drop (64 * e.2)).take 64)) s2
  s3.bump t.ctx fun x => { x with insert := satAdd 64 x.insert 1 }

/-- The part reads ranges of virtual memory as a coherent agent (10 R290). -/
def State.rangesShare (s : State) (c : Nat) (rs : List (Nat × Nat)) : State := rs.foldl (fun s r => s.vshare c r.1 r.2) s

/-- Step 1 of R317: whether the task's result enters the reuse table (11 R330, R334, R335).  Where lowered quotas have left the die's
65,536 entries full (01 R32), the die's entry least recently inserted or hit makes room, whoever's it is (DESIGN CHOICE,
notes/assumptions/108). -/
def State.reuseInsert (s : State) (t : Task) (killed : Bool) : State :=
  let refuse (s : State) : State := s.bump t.ctx fun x => { x with refuse := satAdd 64 x.refuse 1 }
  if !t.watching then s
  else if t.impure || t.status != 0 || killed || t.bad then refuse s
  else if t.cancelled then s.bump t.ctx fun x => { x with cancel := satAdd 64 x.cancel 1 }
  else match t.pureKey with
    | none => s
    | some key =>
      let tid := (s.ctx t.ctx).tenant
      let die := t.unit
      let quota := s.quota tid
      match s.rangesBytes t.ctx t.writes with
      | none => refuse (s.rangesShare t.ctx t.writes)
      | some bytes =>
        let s := s.rangesShare t.ctx t.writes
        if quota = 0 ∨ (s.ctx t.ctx).poolSize = 0 ∨ (s.poolLines t.ctx).length < (bytes.length + 63) / 64 then refuse s
        else if s.reuse.any fun e => e.die == die && e.tenant == tid && e.key == key then
          s.bump t.ctx fun x => { x with dup := satAdd 64 x.dup 1 }
        else
          let mine (e : Reuse) : Bool := e.die == die && e.tenant == tid
          let here (e : Reuse) : Bool := e.die == die
          let s1 := s.evictWhile t.ctx s.reuse.length mine fun s => decide (quota ≤ (s.reuse.filter mine).length)
          (s1.evictWhile t.ctx s1.reuse.length here fun s => decide (65536 ≤ (s.reuse.filter here).length)).storeResult t tid die key bytes

/-- The completion word (11 Table 11-5). -/
def completionWord (t : Task) (error killed hit : Bool) : Nat :=
  t.count * 2 ^ 32 + b2n error * 2 ^ 19 + b2n killed * 2 ^ 18 + b2n t.impure * 2 ^ 17 + b2n hit * 2 ^ 16 +
  if error || killed || hit then 0 else t.status

/-- The lowest count not retired (11 Table 11-9). -/
def State.retLo (s : State) (c : Nat) : Nat :=
  match (s.tasks.filter fun t => t.ctx == c).foldl (fun acc t => match acc with
    | none => some t
    | some u => if t.seq < u.seq then some t else some u) (none : Option Task) with
  | some t => t.count
  | none => ((s.ctx c).subcnt + 1) % 2 ^ 32

/-- RETIREMENT (11 R317): insertion, and the watch disarmed, completion word, dependants, to which it comes before (R324), signals, RETLO, in
this order.  A killed task or one with
a submission error signals nothing. -/
def State.retire (s : State) (t : Task) (error killed hit writeWord : Bool) : State :=
  let s1 := (if error || hit then s else s.reuseInsert t killed).disarm t
  let s2 := if writeWord then s1.pageStore (engKey t.cmd) t.ctx t.cadr (bytesOf 8 (completionWord t error killed hit)) else s1
  let freed := s2.tasks.filter fun u => u.ctx == t.ctx && u.deps.contains t.count
  let s2 := freed.foldl (fun s u => s.signal [8, u.ctx, u.count] t.part t.after) s2
  let s3 : State := { s2 with tasks := (s2.tasks.filter fun u => !(u.ctx == t.ctx && u.count == t.count)).map fun u =>
    if u.ctx == t.ctx then { u with deps := u.deps.filter fun d => d != t.count } else u }
  let s4 := if error || killed then s3
    else t.sigs.foldl (fun s n => (s.semWrite t.ctx n (s.semRead t.ctx n + 1)).semSignal t.ctx n t.part t.after false) s3
  s4.modCtx t.ctx fun x => { x with retlo := s4.retLo t.ctx }

/-- Retirement of a task that ran, was placed or was killed. -/
def State.retireTask (s : State) (t : Task) (killed hit : Bool) : State := s.retire t false killed hit (t.cadr != 0)

/-- TASK_ENTER (11 R319, R320): of the tasks whose TSUB has started, the first committed enters the table, if an entry is
free; no task enters ahead of an earlier one of its command stream. -/
def execTaskEnter (s : State) : Host.Outcome State Fault Refusal :=
  .next (
    let ready := s.tasks.filter fun t => t.st == .submitted && (match s.cmd? t.cmd with
        | some m => m.st == .running
        | none => false) && !(s.tasks.any fun u => u.ctx == t.ctx && u.st == .submitted && decide (u.seq < t.seq))
    let first := ready.foldl (fun acc t => match acc with
      | none => some t
      | some u => if t.seq < u.seq then some t else some u) (none : Option Task)
    match first with
    | none => s
    | some t =>
      if 16384 ≤ (s.tasks.filter fun u => u.st != .submitted).length then s
      else match s.cmd? t.cmd with
        | none => s
        | some m =>
          let cap := m.caps.getD 0 { va := 0, pa := 0, base := 0, size := 0, tens := none }
          if s.capsOwed m then s
          else
          let (d, _, s0) := s.engineRead m cap 256
          let s1 := s0.vshare t.ctx (wordOf d 0 % 2 ^ 52 / 64 * 64) 0x140
          let sub := s1.submission t d
          if s1.cmds.any fun n => n.id == m.id && n.viol then
            (s1.retire t true false false false).cmdError m (1 + Config.violationCode m.major % 255)
          else match sub.codes with
          | code :: _ => (s1.retire sub.task true false false sub.writeWord).cmdError m code
          | [] =>
            let u := sub.task
            let deps := (s1.tasks.filter fun v => v.ctx == u.ctx && v.st != .submitted && dependsOn u v).map Task.count
            ({ s1 with tasks := s1.tasks.map fun v => if v.ctx == u.ctx && v.count == u.count then { u with deps } else v } : State).fire m.id)

/-! ### Readiness and lookup (11 R316, R321, R322, R332–R334) -/

/-- Whether a lookup applies to a task (11 R332). -/
def State.looksUp (s : State) (t : Task) : Bool :=
  t.pure && !t.looked && bitN (s.ctx t.ctx).tmode 1 && s.quota (s.ctx t.ctx).tenant != 0 &&
  !(t.writes.any fun r => (List.range ((r.1 % 4096 + r.2 + 4095) / 4096)).any fun i =>
    match s.walk t.ctx false (if i = 0 then r.1 else r.1 / 4096 * 4096 + 4096 * i) with
    | some l => match l.tens with
      | some j => decide (2 ≤ s.recGeo t.ctx j)
      | none => false
    | none => false)

/-- Whether a context's tasks may be queued (11 Table 11-4). -/
def State.queues (s : State) (c : Nat) : Bool := (s.ctx c).st == .running || (s.ctx c).st == .halted

/-- What signalled a semaphore comes before the dispatch of a task whose wait it satisfies (11 R324). -/
def State.semHeard (s : State) (c n count : Nat) : State :=
  { s with signals := s.signals ++ (s.signals.filter fun g => g.obj == [1, c, n]).map fun g => { g with obj := [8, c, count] } }

/-- One task's progress to READY, LOOKUP or QUEUED. -/
def State.taskStep (s : State) (t : Task) : State :=
  let sems := t.waitSems.filter fun w => decide (s.semRead t.ctx w.1 < w.2)
  let s := (t.waitSems.filter fun w => !sems.contains w).foldl (fun s w => s.semHeard t.ctx w.1 t.count) s
  let t := { t with waitSems := sems }
  if t.st == .waiting && !(t.deps.isEmpty && sems.isEmpty) then s.putTask t
  else if t.st == .waiting || t.st == .ready then
    if s.looksUp t then s.arm t
    else if s.queues t.ctx && (s.ctx t.ctx).allot.contains t.part && !s.gated.contains (coreOf t.part) then
      s.putTask { t with st := .queued }
    else s.putTask { t with st := .ready }
  else s

/-- Every task's progress, in the order of submission. -/
def State.taskTick (s : State) : State :=
  s.tasks.foldl (fun s t => match s.tasks.find? fun u => u.ctx == t.ctx && u.count == t.count with
    | some u => s.taskStep u
    | none => s) s

/-- lw(L): a line's tag, and the format and scale of its version on a page of 8-bit or 4-bit geometry (11 R332). -/
def State.lineWord (s : State) (c : Nat) (l : Leaf) (pa : Nat) : Nat :=
  let tag := s.tag pa
  tag.toNat + match l.tens with
    | none => 0
    | some i =>
      if 2 ≤ s.recGeo c i then
        let w := s.recVer c i (tagVer tag)
        verFmt w * 1024 + w % 64 * 16
      else 0

/-- The bytes hashed for a read range, line by line; none where a line is poisoned, not mapped readable, or violates. -/
def State.rangeKey (s : State) (c : Nat) (r : Nat × Nat) : Option (List Byte) :=
  (List.range ((r.1 % 64 + r.2 + 63) / 64)).foldl (fun acc i => match acc with
    | none => none
    | some m =>
      let lo := if i = 0 then r.1 else r.1 / 64 * 64 + 64 * i
      match s.walk c false lo with
      | none => none
      | some l =>
        let pa := l.base + lo % l.size
        if tagPsn (s.tag pa) || s.violates false pa then none
        else some (m ++ rdBytes s.mem pa (min (64 - lo % 64) (r.1 + r.2 - lo)) ++ bytesOf 2 (s.lineWord c l pa))) (some [])

/-- The key of a pure task (11 R332); none where the lookup is abandoned. -/
def State.taskKey (s : State) (t : Task) : Option Nat :=
  let secret := match s.tenant? (s.ctx t.ctx).tenant with
    | some x => x.secret
    | none => List.replicate 32 0
  let head := secret ++ t.digest ++ (t.consts.flatMap fun w => bytesOf 8 w.toNat) ++ t.lens.flatMap (bytesOf 4)
  (t.reads.foldl (fun acc r => match acc, s.rangeKey t.ctx r with
    | some m, some b => some (m ++ b)
    | _, _ => none) (some head)).map fun m => ofBytes ((sha3 m).take 24)

/-- A lookup ends without a hit: the task goes on to run, its watch still armed. -/
def State.lookupMiss (s : State) (t : Task) (refused : Bool) : State :=
  let s1 := s.putTask { t with st := .ready, looked := true }
  (if refused then s1.bump t.ctx fun x => { x with refuse := satAdd 64 x.refuse 1 } else s1).taskTick

/-- The lines a placement writes: physical address and bytes (11 R333). -/
def State.placement (s : State) (t : Task) (bytes : List Byte) : List (Nat × List Byte × Option (Nat × Nat × Nat)) :=
  (t.writes.foldl (fun (acc : List (Nat × List Byte × Option (Nat × Nat × Nat)) × List Byte) r =>
    let here := (List.range ((r.1 % 64 + r.2 + 63) / 64)).filterMap fun i =>
      let lo := if i = 0 then r.1 else r.1 / 64 * 64 + 64 * i
      (s.walk t.ctx false lo).map fun l =>
        (l.base + lo % l.size, ((acc.2.take r.2).drop (lo - r.1)).take (64 - lo % 64), l.tens.map fun j => (j, l.base, l.size))
    (acc.1 ++ here, acc.2.drop r.2)) ([], bytes)).1

/-- REUSE_LOOKUP (11 R332, R333): the key is computed; a hit whose write ranges may be written disarms the watch and starts
the placement, line by line. -/
def execReuseLookup (ctx count : Nat) (s : State) : Host.Outcome State Fault Refusal :=
  .next (match s.tasks.find? fun t => t.ctx == ctx && t.count == count && t.st == .lookup with
    | none => s
    | some t => match s.taskKey t with
      | none => (s.rangesShare ctx t.reads).lookupMiss t true
      | some key =>
        let s := s.rangesShare ctx t.reads
        let t := { t with pureKey := some key }
        let tid := (s.ctx ctx).tenant
        match s.reuse.find? fun e => e.die == t.unit && e.tenant == tid && e.key == key with
        | none => s.lookupMiss t false
        | some e =>
          if !(t.writes.all fun r => (List.range ((r.1 % 64 + r.2 + 63) / 64)).all fun i => s.writable ctx (r.1 / 64 * 64 + 64 * i)) then
            s.lookupMiss t true
          else
            let bytes := e.lines.flatMap fun l => rdBytes s.mem (l * 64) 64
            let s1 := (s.disarm t).putTask { t with st := .placing, watching := false }
            let s2 : State := { s1 with
              nextId := s1.nextId + 1
              reuse := s1.reuse.map fun x => if x == e then { x with stamp := s1.nextId } else x }
            (s.placement t bytes).foldl (fun s w =>
              let ver := match w.2.2 with
                | none => 0
                | some (i, base, size) => plainVer (s.recGeo ctx i) size (w.1 - base) (s.recWv ctx i)
              { s with reqs := s.reqs ++ [{ id := s.nextId, key := engKey t.cmd, acc := s.nextId, ctx, tracked := false
                                            kind := .store w.1 w.2.1 (some ver) false w.2.2 }], nextId := s.nextId + 1 }) s2)

/-- REUSE_PLACE_COMPLETE (11 R333): the copy has performed, and the task retires with HIT. -/
def execReusePlaceComplete (ctx count : Nat) (s : State) : Host.Outcome State Fault Refusal :=
  .next (match s.tasks.find? fun t => t.ctx == ctx && t.count == count && t.st == .placing with
    | none => s
    | some t =>
      if s.reqs.any fun r => r.key == engKey t.cmd then s
      else (s.bump ctx fun x => { x with hit := satAdd 64 x.hit 1 }).retireTask { t with status := 0 } false true)

/-- TASK_RETIRE (04 R128, 11 R317): every ticket the task produced has fired, and its stores have performed. -/
def execTaskRetire (ctx count : Nat) (s : State) : Host.Outcome State Fault Refusal :=
  .next (match s.tasks.find? fun t => t.ctx == ctx && t.count == count && t.st == .finishing && t.released with
    | none => s
    | some t =>
      if t.produced.any (fun i => !s.ended i) ||
          s.reqs.any (fun r => r.key == goneKey ctx t.part && decide (r.id < t.after) && r.kind.writes) then s
      else s.retireTask t false false)

/-! ### Dispatch (11 R318, R326) -/

/-- The phase word of an occupancy record (11 Table 11-12). -/
def Occ.word (o : Occ) : Nat := o.tasks * 2 ^ 32 + o.drift * 2 ^ 16 + b2n o.valid * 2 ^ 12 + o.phase

/-- Idle cycles of the current phase. -/
def Occ.idle (o : Occ) (gcyc : Nat) : Nat := gcyc - o.since - o.busy - o.stall

/-- A dispatch of a new phase moves the current fields into the previous ones. -/
def Occ.enter (o : Occ) (phase gcyc : Nat) : Occ :=
  if o.valid && o.phase == phase then o
  else { valid := true, phase, since := gcyc, prev := [o.word, o.busy, o.stall, o.idle gcyc] }

/-- The state a dispatched task starts in (11 R318). -/
def startThr (old : Thr) (c : Nat) (t : Task) (drth : W64) : Thr :=
  let base : Thr := { mode := .running, pc := (t.kernel + 0x140) % 2 ^ 52, drth, fltrec := old.fltrec, dbg := old.dbg
                      resumed := old.resumed, lastCtx := old.lastCtx, told := old.told
                      srstate := if old.lastCtx = some c then old.srstate else 0
                      task := some { count := t.count, kernel := t.kernel, pure := t.pure, cycles := t.cycles, phase := t.phase
                                     slot := t.part, impure := t.impure, bad := t.bad } }
  t.consts.zipIdx.foldl (fun th e => th.setS (e.2 + 1) e.1) base

/-- A QUEUED task starts on its partition, after the retirements and signals that released it (11 R324). -/
def State.dispatchNew (s : State) (p : Nat) (t : Task) : State :=
  let s := s.hearOnce [8, t.ctx, t.count] p
  let s1 := s.modTh p fun old => startThr old t.ctx t (drthOf (s.ctx t.ctx).cdbg)
  { (s1.putTask { t with st := .running }) with occ := putK s1.occ p ((getD {} s1.occ p).enter t.phase s1.gcyc) }

/-- The QUEUED task a partition takes: the lowest submission count. -/
def State.nextQueued (s : State) (p c : Nat) : Option Task :=
  (s.tasks.filter fun t => t.ctx == c && t.part == p && t.st == .queued).foldl (fun acc t => match acc with
    | none => some t
    | some u => if t.seq < u.seq then some t else some u) none

/-! ### Reuse statistics, flush, occupancy, joins (08 R240–R242) -/

/-- RUQ (R336). -/
def opRuq (x : Eng) : SlotOp :=
  structOp x.p 64 true
  { engOp x.g x.k x.c x.n (wRegs x.p 2) .any 6 20 false (fun c => { id := 0, caps := [c.cap (c.w x.p 1)], runner := c.s.dieOf c.k }) with
    chk := fun c => descIf c (c.w x.p 0 != 0) }
def execRuq (x : Eng) (s : State) : Host.Outcome State Fault Refusal :=
  issueOne 6 (encWord (.ruq x)) (opRuq x) s

/-- The reuse statistics record (11 Table 11-13). -/
def State.reuseRecord (s : State) (c : Nat) : List Byte :=
  let tid := (s.ctx c).tenant
  let st := match s.tenant? tid with
    | some x => x.stats
    | none => {}
  let held := (s.reuse.filter fun e => e.tenant == tid).length
  [st.lookup, st.hit, st.insert, st.cancel, st.refuse, st.evict, held % 2 ^ 32 + 4 * s.quota tid * 2 ^ 32, st.dup].flatMap (bytesOf 8)

/-- RUFL (R240). -/
def opRufl (x : Rufl) : SlotOp :=
  { engOp x.g x.k x.c x.n (wRegs x.p 2) .csOnly 6 21 true (fun c =>
      { id := 0, fn := x.f.toNat, w := [c.w x.p 0, c.w x.p 1], runner := c.s.dieOf c.k }) with
    chk := fun c => descIf c (if x.f = 0 then c.w x.p 0 != 0 || c.w x.p 1 != 0 else c.w x.p 1 == 0) }
def execRufl (x : Rufl) (s : State) : Host.Outcome State Fault Refusal :=
  issueOne 6 (encWord (.rufl x)) (opRufl x) s

/-- RUFL removes entries of the tenant and cancels watches (08 R240, 11 R335). -/
def State.startRufl (s : State) (m : Cmd) : State :=
  let tid := (s.ctx m.ctx).tenant
  let q := ((m.w.getD 0 0).toNat, (m.w.getD 1 0).toNat)
  let meets (rs : List (Nat × Nat)) : Bool := m.fn == 0 || rs.any (linesMeet q)
  let s1 := s.dropReuse fun e => e.tenant == tid && meets e.reads
  ({ s1 with tasks := s1.tasks.map fun t =>
      if t.watching && (s1.ctx t.ctx).tenant == tid && meets (t.reads ++ t.writes) then { t with cancelled := true } else t } : State).fire m.id

/-- OCCR and OCCR.clr. -/
def occrOp (x : Eng) (fn : Nat) : SlotOp :=
  { engOp x.g x.k x.c x.n (wRegs x.p 2) .csOnly 6 22 true (fun c =>
      { id := 0, fn, w := [c.w x.p 0], caps := [c.cap (c.w x.p 1)], runner := c.s.dieOf c.k }) with
    chk := fun c => (descIf c (fld (c.w x.p 0) 63 12 != 0 || fld (c.w x.p 0) 5 0 != 0)).or (structEarly (c.w x.p 1) 4096)
    hold := fun c => structHold c (c.w x.p 1)
    post := fun c => ptrLate c (c.w x.p 1) 4096 true }

/-- OCCR (R241). -/
def opOccr (x : Eng) : SlotOp := occrOp x 0
def execOccr (x : Eng) (s : State) : Host.Outcome State Fault Refusal :=
  issueOne 6 (encWord (.occr x)) (opOccr x) s

/-- OCCR_CLR (R241). -/
def opOccrClr (x : Eng) : SlotOp := occrOp x 1
def execOccrClr (x : Eng) (s : State) : Host.Outcome State Fault Refusal :=
  issueOne 6 (encWord (.occrClr x)) (opOccrClr x) s

/-- An occupancy record (11 Table 11-12). -/
def Occ.image (o : Occ) (gcyc : Nat) : List Byte :=
  ([o.word, o.busy, o.stall, o.idle gcyc] ++ (List.range 4).map fun i => o.prev.getD i 0).flatMap (bytesOf 8)

/-- OCCR: 64 records from W0, zero for a partition not allotted to the context; .clr clears each as it is read. -/
def State.startOccr (s : State) (m : Cmd) : State :=
  let first := (m.w.getD 0 0).toNat
  let mine (i : Nat) : Bool := (s.ctx m.ctx).allot.contains (first + i)
  let bytes := (List.range 64).flatMap fun i => if mine i then (getD {} s.occ (first + i)).image s.gcyc else List.replicate 64 0
  let s1 := s.engineWrite m (m.caps.getD 0 { va := 0, pa := 0, base := 0, size := 0, tens := none }) bytes
  (if m.fn = 0 then s1
   else forN 64 s1 fun i s => if mine i then { s with occ := putK s.occ (first + i) { since := s.gcyc } } else s).fire m.id

/-- RUQ writes the tenant's record. -/
def State.startRuq (s : State) (m : Cmd) : State :=
  (s.engineWrite m (m.caps.getD 0 { va := 0, pa := 0, base := 0, size := 0, tens := none }) (s.reuseRecord m.ctx)).fire m.id

/-- KJOIN (R242). -/
def opKjoin (x : Kjoin) : SlotOp :=
  engOp x.g x.k x.c x.n [] .any 6 23 true fun c => { id := 0, runner := c.s.dieOf c.k }
def execKjoin (x : Kjoin) (s : State) : Host.Outcome State Fault Refusal :=
  issueOne 6 (encWord (.kjoin x)) (opKjoin x) s

end Sys2Proof.Machine
end

