-- ==== Sys2Proof/Machine/Channel.lean ====
section
/-! DEFINITION. Channels (08 R243–R247, 14). -/

namespace Sys2Proof.Machine

open Sys2Proof

/-! ### The channel and its image (14 R385, Table 14-1) -/

def State.getChan (s : State) (c n : Nat) : Chan := (s.chans.find? fun x => x.ctx == c && x.ch == n).getD { ctx := c, ch := n }

def Chan.word (x : Chan) (i : Nat) : Nat := x.desc.getD i 0
def Chan.fmt (x : Chan) : Nat := x.word 0 % 16
def Chan.count (x : Chan) : Nat := bitsN (x.word 0) 11 4 + 1
def Chan.depth (x : Chan) : Nat := bitsN (x.word 0) 22 12
def Chan.remS (x : Chan) : Bool := (x.word 1).testBit 26
def Chan.remR (x : Chan) : Bool := (x.word 2).testBit 26
def Chan.snd (x : Chan) : Nat := x.word 1 % 4096
def Chan.rcv (x : Chan) : Nat := x.word 2 % 4096
/-- The package at the far end. -/
def Chan.pkg (x : Chan) : Nat := if x.remS then bitsN (x.word 1) 25 12 else bitsN (x.word 2) 25 12
def Chan.peerTen (x : Chan) : Nat := bitsN (x.word 4) 47 32
def Chan.peerCh (x : Chan) : Nat := bitsN (x.word 4) 13 8
/-- Bytes of an element, and of its slot (14 R386). -/
def Chan.bytes (x : Chan) : Nat := x.count * fmtBits x.fmt / 8
def Chan.slot (x : Chan) : Nat := (x.bytes + 63) / 64 * 64
/-- OPEN or DRAINING (14 R392). -/
def Chan.live (x : Chan) : Bool := x.st == .opened || x.st == .draining

def chanCode : ChanSt → Nat
  | .free => 0
  | .opening => 1
  | .opened => 2
  | .draining => 3
  | .closed => 4
  | .broken => Config.brokenCode % 8

/-- The 64 bytes of an image. -/
def Chan.image (x : Chan) : List Byte :=
  ((List.range 5).flatMap fun i => bytesOf 8 (x.word i)) ++ bytesOf 8 (chanCode x.st) ++
  bytesOf 4 x.sent ++ bytesOf 4 x.recv ++ bytesOf 8 (x.usable % 2048)

/-- Changes a channel: the part rewrites the whole image. -/
def State.putChan (s : State) (x : Chan) : State :=
  let s1 : State := { s with chans := s.chans.filter (fun y => !(y.ctx == x.ctx && y.ch == x.ch)) ++ [x] }
  s1.vwrRun x.ctx (s.cword x.ctx 0x70 + 64 * x.ch) x.image

/-- A mark at the head of the queue closes the channel (14 Table 14-4). -/
def Chan.settle (x : Chan) : Chan := if x.st = .draining ∧ x.marked ∧ x.stand.isEmpty then { x with st := .closed } else x

/-- PRES.mig rebinds every endpoint that names the source partition (14 R395). -/
def State.rebind (s : State) (c a b : Nat) : State :=
  (s.chans.filter fun x => x.ctx == c && ((!x.remS && x.snd == a) || (!x.remR && x.rcv == a)) && x.st != .free).foldl (fun s x =>
    let swap (w : Nat) : Nat := if !w.testBit 26 && w % 4096 == a then w / 4096 * 4096 + b else w
    s.putChan { x with desc := x.desc.zipIdx.map fun e => if e.2 = 1 ∨ e.2 = 2 then swap e.1 else e.1 }) s

/-! ### SEND, RECV, RECVADD, CHST (08 R244–R246, 14 R390) -/

def IC.chan (c : IC) (h : BitVec 6) : Chan := c.s.getChan c.cx h.toNat

/-- A channel fault (08 R245). -/
def chanFault (h : BitVec 6) : SF := ⟨21, h.toNat, 0⟩

/-- The record of a hold on channel n that is, or is not, in force. -/
def heldOn (n gcyc : Nat) (now : Bool) (old : Option (Nat × Nat)) : Option (Nat × Nat) :=
  match now, old with
  | true, some (m, q) => if m = n then some (m, q) else some (n, gcyc)
  | true, none => some (n, gcyc)
  | false, some (m, q) => if m = n then none else some (m, q)
  | false, none => none

/-- Notes how long an issuer has been held on a channel (14 R396). -/
def noteHeld (h : BitVec 6) (held : IC → Bool) (c : IC) (s : State) : State :=
  s.modTh c.k fun t => { t with chanHeld := heldOn h.toNat s.gcyc (held c) t.chanHeld }

/-- A CHN instruction but for its own checks (08 R243).  `due`: whether its ticket fires at +4. -/
def chnOp (g : BitVec 4) (kp kc : BitVec 5) (h : BitVec 6) (major : Nat) (whr : Where) (due : Bool) : SlotOp :=
  { g := g.toNat, whr, dsts := [.k kp.toNat]
    sched := fun c => entryFull c 7 major 0
    hold := fun c => ticketHold c (chnTickets kc.toNat)
    impure := fun _ => some 0
    eff := fun c s => s.accept c kp [] { id := 0, pos := 7, major, fn := h.toNat, row := c.t.scyc + 4, runner := c.s.dieOf c.k
                                         due := if due then some (c.t.scyc + 4) else none } }

/-- A full channel holds a SEND.  The credits of a sender in another package stand there, so the channel is full in the sender's
package alone (notes/assumptions/114). -/
def chanFull (h : BitVec 6) (c : IC) : Bool := (c.chan h).st == .opened && !(c.chan h).remS && (c.chan h).usable == 0

/-- An empty channel holds a RECV or RECVADD, in the package where its queue stands. -/
def chanEmpty (h : BitVec 6) (c : IC) : Bool := (c.chan h).live && !(c.chan h).remR && (c.chan h).stand.isEmpty

/-- The element a SEND reads (08 R244). -/
def sendBytes (c : IC) (x : Chan) (v : Nat) : List Byte := bytesOf x.bytes (vSource c.t c.h (fmtBits x.fmt) v).toNat

/-- SEND (R244): it signals on its element (10 R305 edge 7). -/
def opSend (x : Chn) : SlotOp :=
  { chnOp x.g x.k x.c x.h 0 .partOnly false with
    legal := legal (.send x), srcV := [x.v.toNat]
    hold := fun c => (ticketHold c (chnTickets x.c.toNat)).or (if chanFull x.h c then some 3 else none)
    onHold := noteHeld x.h (chanFull x.h)
    post := fun c =>
      let q := c.chan x.h
      if q.st != .opened || q.remS || q.snd != c.k then some (chanFault x.h) else none
    eff := fun c s =>
      let q := c.chan x.h
      let b := sendBytes c q x.v.toNat
      let id := s.nextId
      let s1 := (s.accept c x.k [] { id := 0, pos := 7, major := 0, fn := x.h.toNat, runner := c.s.dieOf c.k }).signal
        [3, c.cx, x.h.toNat, q.sent] c.k id
      let q1 : Chan := { s1.getChan c.cx x.h.toNat with usable := q.usable - 1, sent := (q.sent + 1) % 2 ^ 32 }
      if q.remR then ((s1.putChan q1).sendPacket q.pkg (.element q.peerTen q.peerCh b) (some id)).2
      else s1.putChan { q1 with transit := q1.transit ++ [(some b, id, false)] } }
def execSend (x : Chn) (s : State) : Host.Outcome State Fault Refusal :=
  issueOne 7 (encWord (.send x)) (opSend x) s

/-- The physical address of the slot i places behind the ring's head. -/
def Chan.slotPa (x : Chan) (i : Nat) : Nat := x.qbuf + (x.head + i) % x.depth * x.slot

/-- The bytes a line of the head slot reads: the element, or what software stored there (14 R391); a violating line's are free (10 R286). -/
def State.ringPart (s : State) (pa : Nat) (e : List Byte) (i : Nat) : List Byte :=
  let n := min 64 (e.length - 64 * i)
  let a := pa + 64 * i
  if s.violates false a then s.violatedBytes a n
  else if tagPsn (s.tag a) || Config.ringLine (s.fresh + i) then rdBytes s.mem a n else (e.drop (64 * i)).take n

/-- The head element as read, and its poisoned and violating lines with the kind of their log entries. -/
def State.headElement (s : State) (x : Chan) : List Byte × List (Nat × Nat) :=
  let e := x.stand.headD []
  let n := (e.length + 63) / 64
  ((List.range n).flatMap (s.ringPart (x.slotPa 0) e), ((List.range n).map fun i => x.slotPa 0 + 64 * i).filterMap fun a =>
    if s.violates false a then some (4, a) else if tagPsn (s.tag a) then some (2, a) else none)

/-- Removes the head element and returns its credit (14 R390). -/
def State.takeHead (s : State) (c n : Nat) : State :=
  let q := s.getChan c n
  let q1 : Chan := ({ q with stand := q.stand.drop 1, recv := (q.recv + 1) % 2 ^ 32, head := (q.head + 1) % q.depth, back := if q.remS then q.back else q.back + 1 } : Chan).settle
  let s1 := s.putChan q1
  if q.remS then (s1.sendPacket q.pkg (.credit q.peerTen q.peerCh) none).2 else s1

/-- RECVADD's lanes (08 R244). -/
def addLanes (fmt n old e : Nat) : Nat :=
  let w := fmtBits fmt
  packLE w ((List.range n).map fun i =>
    if fmt = 8 then laneN old w i + laneN e w i
    else (convert ((decCode fmt (laneN old w i)).add (decCode fmt (laneN e w i))) fmt .rne 0).1)

/-- RECV and RECVADD. -/
def recvOp (x : Chn) (lgl add : Bool) : SlotOp :=
  { chnOp x.g x.k x.c x.h (if add then 2 else 1) .partOnly true with
    legal := lgl, dsts := [.k x.k.toNat, .v x.v.toNat], srcV := if add then [x.v.toNat] else []
    hold := fun c => (ticketHold c (chnTickets x.c.toNat)).or (if chanEmpty x.h c then some 3 else none)
    onHold := noteHeld x.h (chanEmpty x.h)
    post := fun c =>
      let q := c.chan x.h
      if !q.live || q.remR || q.rcv != c.k || (add && fmtBits q.fmt == 8) then some (chanFault x.h) else none
    eff := fun c s =>
      let q := c.chan x.h
      let (e, bad) := c.s.headElement q
      let old := (vSource c.t c.h 32 x.v.toNat).toNat
      let v := if add then old / 2 ^ (8 * q.bytes) * 2 ^ (8 * q.bytes) + addLanes q.fmt q.count old (ofBytes e) else ofBytes e
      let s1 := s.accept c x.k [] { id := 0, pos := 7, major := if add then 2 else 1, fn := x.h.toNat, runner := c.s.dieOf c.k
                                    due := some (c.t.scyc + 4) }
      let s2 := bad.foldl (fun s a => s.log c.cx a.1 a.2 (s.agentOf c.k))
        ((s1.hearOnce [3, c.cx, x.h.toNat, q.recv] c.k).takeHead c.cx x.h.toNat)
      { s2 with fresh := s2.fresh + 4 }.fly c.k 4 (.v (c.t.vName x.v.toNat) (BitVec.ofNat 2048 v) (BitVec.allOnes 64) (!bad.isEmpty)) }

/-- RECV (R244). -/
def opRecv (x : Chn) : SlotOp := recvOp x (legal (.recv x)) false
def execRecv (x : Chn) (s : State) : Host.Outcome State Fault Refusal :=
  issueOne 7 (encWord (.recv x)) (opRecv x) s

/-- RECVADD (R244). -/
def opRecvadd (x : Chn) : SlotOp := recvOp x (legal (.recvadd x)) true
def execRecvadd (x : Chn) (s : State) : Host.Outcome State Fault Refusal :=
  issueOne 7 (encWord (.recvadd x)) (opRecvadd x) s

/-- CHST's value (08 Table 8-13, 14 R390). -/
def chstValue (q : Chan) (k : Nat) : Nat :=
  let r := !isCs k && q.st != .free && !q.remR && q.rcv == k
  let d := !isCs k && q.st != .free && !q.remS && q.snd == k
  let n := if r then q.stand.length else if d then q.depth - q.usable else (q.sent + 2 ^ 32 - q.recv) % 2 ^ 32
  b2n r * 2 ^ 19 + b2n d * 2 ^ 18 + b2n (q.st == .draining || q.st == .closed) * 2 ^ 17 + b2n q.live * 2 ^ 16 + n % 65536

/-- CHST (R246): at +4. -/
def opChst (x : Chn) : SlotOp :=
  { chnOp x.g x.k x.c x.h 3 .any true with
    legal := legal (.chst x), dsts := [.k x.k.toNat, .s x.v.toNat]
    eff := fun c s =>
      (s.accept c x.k [] { id := 0, pos := 7, major := 3, fn := x.h.toNat, runner := c.s.dieOf c.k, due := some (c.t.scyc + 4) }).fly c.k 4
        (.s x.v.toNat (BitVec.ofNat 64 (chstValue (c.chan x.h) c.k)) false) }
def execChst (x : Chn) (s : State) : Host.Outcome State Fault Refusal :=
  issueOne 7 (encWord (.chst x)) (opChst x) s

/-! ### CHOPN and CHCL (08 R247, 14 R386–R394) -/

/-- CHOPN (R392): with V = 0 it resets the channel and judges no pointer. -/
def opChopn (x : Chn) : SlotOp :=
  let z := x.v == 0
  { chnOp x.g x.k x.c x.h 4 .csOnly false with
    legal := legal (.chopn x), srcS := if z then [] else [x.v.toNat]
    chk := fun c => if z then none else structEarly (c.sv x.v.toNat) 64
    hold := fun c => (if z then none else structHold c (c.sv x.v.toNat)).or (ticketHold c (chnTickets x.c.toNat))
    post := fun c => if z then none else ptrLate c (c.sv x.v.toNat) 64 false
    eff := fun c s => s.accept c x.k [] { id := 0, pos := 7, major := 4, fn := x.h.toNat, row := c.t.scyc + 4, runner := c.s.dieOf c.k
                                          caps := if z then [] else [c.cap (c.sv x.v.toNat)] } }
def execChopn (x : Chn) (s : State) : Host.Outcome State Fault Refusal :=
  issueOne 7 (encWord (.chopn x)) (opChopn x) s

/-- CHCL (R394): a close mark is queued at the end of the cycle it commits in (R394). -/
def opChcl (x : Chcl) : SlotOp :=
  { chnOp x.g x.k x.c x.h 5 .any false with
    legal := legal (.chcl x)
    post := fun c =>
      let q := c.chan x.h
      if !isCs c.k && (q.st != .opened || q.remS || q.snd != c.k) then some (chanFault x.h) else none
    eff := fun c s =>
      let id := s.nextId
      let s1 := s.accept c x.k [] { id := 0, pos := 7, major := 5, fn := x.h.toNat, row := c.t.scyc + 4, runner := c.s.dieOf c.k }
      let q := s1.getChan c.cx x.h.toNat
      s1.putChan { q with closing := q.closing ++ [id] } }
def execChcl (x : Chcl) (s : State) : Host.Outcome State Fault Refusal :=
  issueOne 7 (encWord (.chcl x)) (opChcl x) s

/-- Formats of a channel's elements (14 Table 14-1). -/
def chanFmts : List Nat := [0, 1, 2, 3, 4, 7, 8]

/-- A reset discards what the channel holds; what is on its way is discarded on arrival (14 R393). -/
def Chan.reset (x : Chan) : Chan :=
  { x with st := .free, sent := 0, recv := 0, head := 0, stand := [], transit := x.transit.map fun e => (e.1, e.2.1, true), back := 0, usable := 0
           marked := false, opening := none, was := none }

/-- Whether a leaf takes a ring's elements: readable and writable, so not copy-on-write (13 R375) nor in space the part keeps
(10 R286, notes/assumptions/112), and bound to no record. -/
def State.ringLeaf (s : State) (l : Leaf) (a : Nat) : Bool :=
  l.wr && !l.cow && l.tens.isNone && !s.violates false (l.base + a % l.size)

/-- The causes of 14 Table 14-2 that hold for a descriptor read by CHOPN, with the physical address of its ring. -/
def State.chopnCodes (s : State) (c : Nat) (old : Chan) (w : List Nat) : List Nat × Nat :=
  let x : Chan := { ctx := c, ch := old.ch, desc := w }
  let i (n : Nat) : Nat := w.getD n 0
  let part (rm : Bool) (p : Nat) : Bool := rm || (s.ctx c).allot.contains p
  let q := i 3 % 2 ^ 52
  let ring := s.walk c true q
  let c2 := bitsN (i 0) 63 23 != 0 || bitsN (i 1) 63 27 != 0 || bitsN (i 2) 63 27 != 0 || bitsN (i 3) 63 52 != 0 ||
    bitsN (i 4) 63 48 != 0 || bitsN (i 4) 31 14 != 0 || bitsN (i 4) 7 6 != 0 ||
    (!x.remS && bitsN (i 1) 25 12 != 0) || (!x.remR && bitsN (i 2) 25 12 != 0) ||
    !chanFmts.contains x.fmt || decide (256 < x.bytes) || x.depth == 0 || decide (1024 < x.depth) ||
    (!x.remR && q % 64 != 0) || i 4 % 64 != old.ch || (x.remS && x.remR)
  let c3 := !part x.remS x.snd || !part x.remR x.rcv
  let c4 := !x.remR && match ring with
    | some l => !s.ringLeaf l q || decide (l.size < q % l.size + x.depth * x.slot)
    | none => true
  ((if old.st != .free && old.st != .closed then [1] else []) ++ (if c2 then [2] else []) ++ (if c3 then [3] else []) ++
    (if c4 then [4] else []), match ring with
    | some l => l.base + q % l.size
    | none => 0)

/-- An opened channel: DEPTH credits, counts zero. -/
def Chan.open_ (x : Chan) : Chan := { x with st := .opened, usable := if x.remS then 0 else x.depth, opening := none, was := none }

/-- What an error of the far end restores: the channel does not change (14 R388). -/
def Chan.restore (x : Chan) : Chan :=
  match x.was with
  | none => x
  | some w => { x with st := w.st, desc := w.desc, qbuf := w.qbuf, sent := w.sent, recv := w.recv, usable := w.usable, back := w.back,
                       marked := w.marked, opening := none, was := none }

/-- The CHCLs that wait for the mark of a channel whose sender is in another package fire (08 R247). -/
def State.fireCloses (s : State) (q : Chan) : State :=
  if q.remS then
    (s.cmds.filter fun m => m.pos == 7 && m.major == 5 && m.ctx == q.ctx && m.fn == q.ch && m.st != .done && m.st != .errWait).foldl
      (fun s m => s.fire m.id) s
  else s

/-- CHOPN reaches the channel. -/
def State.startChopn (s : State) (m : Cmd) : State :=
  let c := m.ctx
  let old := s.getChan c m.fn
  match m.caps with
  | [] =>
    let s1 := ({ s with signals := s.signals.filter fun g => g.obj.take 3 != [3, c, m.fn] } : State).putChan old.reset
    ((match old.opening.bind s1.cmd? with
      | some w => s1.cmdError w 6
      | none => s1).fireCloses old).fire m.id
  | cap :: _ =>
    let (b, _, s1) := s.engineRead m cap 64
    let w := (List.range 5).map fun i => wordOf b (8 * i)
    let (codes, qbuf) := s1.chopnCodes c old w
    match codes with
    | code :: _ => s1.cmdError m code
    | [] =>
      let x : Chan := { ctx := c, ch := m.fn, desc := w, qbuf, transit := old.transit, closing := old.closing }
      if x.remS || x.remR then
        let was : ChanWas :=
          { st := old.st, desc := old.desc, qbuf := old.qbuf, sent := old.sent, recv := old.recv, usable := old.usable, back := old.back,
            marked := old.marked }
        let s2 := s1.putChan { x with st := .opening, opening := some m.id, was := some was }
        let far : FarOpen := { fab := s2.fab.fabid, tenant := (s2.ctx c).tenant, ch := m.fn, peerTen := x.peerTen, peerCh := x.peerCh,
                               fmt := x.fmt, count := x.count, depth := x.depth }
        (s2.sendPacket x.pkg (.chopn far) none).2
      else (s1.putChan x.open_).fire m.id

/-- A CHCL on an open channel: the mark is queued behind every SEND.  Across the fabric it travels to the receiver's package;
from there it goes to the sender's first, whose later SENDs then fault, and the CHCL waits for the mark that comes back (14 R394,
notes/assumptions/114). -/
def State.closeChan (s : State) (q : Chan) (cmd : Option Nat) : State :=
  let q1 : Chan := { q with st := .draining, closing := [] }
  if q.remR || q.remS then ((s.putChan q1).sendPacket q.pkg (.close q.peerTen q.peerCh) (if q.remS then none else cmd)).2
  else s.putChan { q1 with transit := match cmd with
    | some id => q.transit ++ [(none, id, false)]
    | none => q.transit }

/-- The CHCLs that committed in this cycle (14 R394). -/
def State.closeAll (s : State) : State :=
  (s.chans.filter fun x => !x.closing.isEmpty).foldl (fun s x =>
    x.closing.foldl (fun s id =>
      let q := s.getChan x.ctx x.ch
      match s.cmd? id with
      | none => s
      | some m => if q.st = .opened then s.closeChan q (some id) else (s.putChan { q with closing := [] }).cmdError m 1) s) s

/-- Whether the mark of a draining channel is known to have reached the head of a queue in another package: every element's
credit is back and the mark is acknowledged (14 Table 14-4, notes/assumptions/114). -/
def State.farDrained (s : State) (x : Chan) : Bool :=
  x.st == .draining && x.remR && x.sent == x.recv &&
    !(s.fab.sent.any fun k => k.dst == x.pkg && k.body == .close x.peerTen x.peerCh)

/-- Each cycle: close marks are queued, and channels whose mark has reached the far end close. -/
def State.closeTick (s : State) : State :=
  let s1 := s.closeAll
  (s1.chans.filter s1.farDrained).foldl (fun s x => s.putChan { x with st := .closed }) s1

/-- An element or a mark reaches the receiver's queue. -/
def State.standElement (s : State) (q : Chan) (e : Option (List Byte)) : State :=
  match e with
  | none => (s.putChan ({ q with marked := true, st := if q.st = .opened then .draining else q.st } : Chan).settle).fireCloses q
  | some b =>
    let s1 := forN ((b.length + 63) / 64) s fun i s =>
      let l := (b.drop (64 * i)).take 64
      s.agentWrite q.ctx (q.slotPa q.stand.length + 64 * i) l (if l.length = 64 then some 0 else none)
    s1.putChan { q with stand := q.stand ++ [b], sent := if q.remS then (q.sent + 1) % 2 ^ 32 else q.sent }

/-- Whether a packet is for channel `ch` of a tenant. -/
def forChan (tenant ch : Nat) : PktBody → Bool
  | .element t n _ => t == tenant && n == ch
  | .credit t n => t == tenant && n == ch
  | .close t n => t == tenant && n == ch
  | .chopn far => far.peerTen == tenant && far.peerCh == ch
  | _ => false

/-- The first packet from a channel's far package that waits for it.  Packets keep their order, so those before the CHOPN that
re-opens the channel belong to what a reset ended (14 R393). -/
def State.nextFor (s : State) (q : Chan) : Option ((Nat × PktBody) × State) :=
  s.takeDelivered fun d => d.1 == q.pkg && forChan (s.ctx q.ctx).tenant q.ch d.2

/-- What a packet does at the channel it arrives for; one that comes to a channel not open is discarded (14 R393). -/
def State.chanPacket (s : State) (q : Chan) (b : PktBody) : State :=
  match b with
  | .element _ _ e => if q.live && q.remS then s.standElement q (some e) else s
  | .credit _ _ => if q.live && q.remR then s.putChan { q with usable := q.usable + 1, recv := (q.recv + 1) % 2 ^ 32 } else s
  | .close _ _ =>
    if q.live && q.remS then s.standElement q none
    else if q.st == .opened && q.remR then s.closeChan q none
    else s
  | _ => s

/-- CHANNEL_ELEMENT_ARRIVE (14 R390, R393, 17 R436): the oldest element on its way, or the first delivered from the far
package, stands in the queue; a discarded one only fires its ticket. -/
def execChannelElementArrive (ctx ch : Nat) (s : State) : Host.Outcome State Fault Refusal :=
  .next (
    let q := s.getChan ctx ch
    match q.transit with
    | (e, cmd, dead) :: rest =>
      let q1 : Chan := { q with transit := rest }
      (if dead then s.putChan q1 else s.standElement q1 e).fire cmd
    | [] => match s.nextFor q with
      | some ((_, .element t n b), s1) => s1.chanPacket q (.element t n b)
      | some ((_, .close t n), s1) => s1.chanPacket q (.close t n)
      | _ => s)

/-- CHANNEL_CREDIT_ARRIVE (14 R390): a credit becomes usable. -/
def execChannelCreditArrive (ctx ch : Nat) (s : State) : Host.Outcome State Fault Refusal :=
  .next (
    let q := s.getChan ctx ch
    if 0 < q.back then s.putChan { q with back := q.back - 1, usable := q.usable + 1 }
    else match s.nextFor q with
      | some ((_, .credit t n), s1) => s1.chanPacket q (.credit t n)
      | _ => s)

/-- Takes the far package's CHOPN, its latest for the channel, and discards what came for the channel before it (14 R393). -/
def State.takeOpen (s : State) (q : Chan) (far : FarOpen) : Option State :=
  let mine (d : Nat × PktBody) : Bool := d.1 == far.fab && forChan (s.ctx q.ctx).tenant q.ch d.2
  let later := (s.fab.delivered.reverse.takeWhile (· != (far.fab, .chopn far))).reverse
  if later.length = s.fab.delivered.length || later.any (fun d => mine d && match d.2 with
      | .chopn _ => true
      | _ => false) then none
  else
    let before := s.fab.delivered.take (s.fab.delivered.length - later.length - 1)
    some { s with fab := { s.fab with delivered := before.filter (fun d => !mine d) ++ later } }

/-- REMOTE_OPEN_MATCH (14 R388, R392): the far package's CHOPN of the peer channel has arrived. -/
def execRemoteOpenMatch (ctx ch : Nat) (far : FarOpen) (s : State) : Host.Outcome State Fault Refusal :=
  .next (
    let q := s.getChan ctx ch
    if q.st != .opening || far.fab != q.pkg || far.ch != q.peerCh || far.peerCh != ch || far.peerTen != (s.ctx ctx).tenant then s
    else match s.takeOpen q far with
      | none => s
      | some s1 => match q.opening.bind s1.cmd? with
        | none => s1
        | some m =>
          if far.fmt = q.fmt ∧ far.count = q.count ∧ far.depth = q.depth ∧ far.tenant = q.peerTen then
            (s1.putChan { q.open_ with usable := if q.remR then q.depth else 0 }).fire m.id
          else (s1.putChan q.restore).cmdError m 5)

/-- A package declared unreachable breaks the channels with an endpoint there (14 Table 14-4, 17 R441). -/
def State.breakChans (s : State) (x : Nat) : State :=
  (s.chans.filter fun q => q.live && (q.remS || q.remR) && q.pkg == x).foldl
    (fun s q => (s.putChan { q with st := .broken }).fireCloses q) s

/-! ### Deadlock (14 R396, R397) -/

/-- The channel a partition has been held on for 2^20 cycles, in this package. -/
def State.stuckOn (s : State) (c p : Nat) : Option Chan :=
  let t := s.th p
  if s.owner p != some c || t.mode != .running || t.dbg.stopped then none
  else match t.chanHeld with
    | some (n, since) =>
      let q := s.getChan c n
      if since + 2 ^ 20 ≤ s.gcyc ∧ !q.remS ∧ !q.remR ∧ q.transit.isEmpty ∧ q.back = 0 then some q else none
    | none => none

/-- DEADLOCK_DETECT (14 R396, R397): a set each of whose members waits for a member; one record for the set. -/
def execDeadlockDetect (ctx : Nat) (parts : List Nat) (s : State) : Host.Outcome State Fault Refusal :=
  .next (
    let d := parts.dedup
    let ok := !d.isEmpty && d.all fun p => match s.stuckOn ctx p with
      | some q => d.contains (if q.snd == p then q.rcv else q.snd)
      | none => false
    if !ok || d.all (fun p => (s.th p).told) then s
    else
      let low := d.foldl min 4095
      let mask := d.foldl (fun m p => match s.stuckOn ctx p with
        | some q => m ||| 2 ^ q.ch
        | none => m) 0
      let s1 := d.foldl (fun s p => s.modTh p fun t => { t with told := true }) s
      s1.post { id := 0, src := monitorSrc (low / 768), ctx, kind := 7, srcCode := 5, idField := low / 768
                det0 := low + d.length % 4096 * 4096, det1 := mask })

end Sys2Proof.Machine
end

