-- ==== Sys2Proof/Machine/GroupRec.lean ====
section
/-! DEFINITION. Group records and the packets members exchange (16 R409–R412). -/

namespace Sys2Proof.Machine

open Sys2Proof

/-! ### The record (16 Table 16-1) -/

def State.grpVa (s : State) (c n : Nat) : Nat := s.cword c 0x88 + 64 * n
/-- Word i of a group record. -/
def State.grpW (s : State) (c n i : Nat) : Nat := s.vrdN c (s.grpVa c n + 8 * i) 8
def State.grpPut (s : State) (c n i v : Nat) : State := s.vwrN c (s.grpVa c n + 8 * i) 8 v
/-- 0 FREE, 1 FORMING, 2 ACTIVE, 3 FAILED, 4 QUARANTINE. -/
def State.grpState (s : State) (c n : Nat) : Nat := s.grpW c n 0 % 8
def State.grpN (s : State) (c n : Nat) : Nat := bitsN (s.grpW c n 0) 47 34
def State.grpRank (s : State) (c n : Nat) : Nat := bitsN (s.grpW c n 0) 33 20
def State.grpGen (s : State) (c n : Nat) : Nat := bitsN (s.grpW c n 0) 15 12
def State.grpUsed (s : State) (c n : Nat) : Bool := (s.grpW c n 0).testBit 17
def State.grpDet (s : State) (c n : Nat) : Bool := (s.grpW c n 0).testBit 16
/-- The record's first word. -/
def grpHead (n rank : Nat) (used det : Bool) (gen st : Nat) : Nat :=
  n % 2 ^ 14 * 2 ^ 34 + rank % 2 ^ 14 * 2 ^ 20 + b2n used * 2 ^ 17 + b2n det * 2 ^ 16 + gen % 16 * 2 ^ 12 + st % 8
def State.grpSetState (s : State) (c n st : Nat) : State :=
  s.grpPut c n 0 (s.grpW c n 0 / 8 * 8 + st % 8)
/-- Adds one to a saturating 32-bit half of word 3: STALE is the low half, DETOUR the high one. -/
def State.grpCount (s : State) (c n : Nat) (high : Bool) : State :=
  let w := s.grpW c n 3
  s.grpPut c n 3 (if high then addHalves w 0 1 else addHalves w 1 0)
/-- Whether a group number names a record of the context. -/
def State.grpOk (s : State) (c n : Nat) : Bool := decide (n < s.cword c 0x90)

/-! ### What the member keeps beside it -/

def State.grp (s : State) (c n : Nat) : Grp := (s.grps.find? fun g => g.ctx == c && g.idx == n).getD { ctx := c, idx := n }
def State.setGrp (s : State) (g : Grp) : State :=
  { s with grps := s.grps.filter (fun h => !(h.ctx == g.ctx && h.idx == g.idx)) ++ [g] }
def State.modGrp (s : State) (c n : Nat) (f : Grp → Grp) : State := s.setGrp (f (s.grp c n))

/-- The ranks of the other members. -/
def State.grpOthers (s : State) (c n : Nat) : List Nat := (List.range (s.grpN c n)).filter fun r => r != s.grpRank c n

/-- Sends a collective packet to a rank: whether it left over a detour, and the state after (16 R412, R428).  One to this
member itself is kept here. -/
def State.sendColl (s : State) (c n seq rank : Nat) (kind : CollKind) : Bool × State :=
  let me := s.grpRank c n
  let x := (s.grp c n).members.getD rank 0
  let alt := match s.route x with
    | some (_, a) => a
    | none => false
  let p : CollPacket := { tenant := (s.ctx c).tenant, grp := n, gen := s.grpGen c n, member := me, seq, detour := alt && rank != me, kind }
  if rank = me then (false, s.modGrp c n fun g => { g with packets := g.packets ++ [p] })
  else s.sendPacket x (.coll p) none

/-- Sends a packet to every other member. -/
def State.sendAll (s : State) (c n seq : Nat) (kind : CollKind) : Bool × State :=
  (s.grpOthers c n).foldl (fun acc r =>
    let (d, s1) := acc.2.sendColl c n seq r kind
    (acc.1 || d, s1)) (false, s)

/-- The packets kept of a number, from each member, that a test picks. -/
def State.packetsOf (s : State) (c n seq : Nat) (f : CollKind → Bool) : List CollPacket :=
  (s.grp c n).packets.filter fun p => p.seq == seq && f p.kind

/-- Drops the kept packets that a test picks. -/
def State.dropPackets (s : State) (c n : Nat) (f : CollPacket → Bool) : State :=
  s.modGrp c n fun g => { g with packets := g.packets.filter fun p => !f p }

/-- Whether a packet belongs to a state-vector object. -/
def kindObject : CollKind → Option Nat
  | .svOp o .. => some o
  | .svBlock o .. => some o
  | .svSums o .. => some o
  | _ => none

def kindAgrees : CollKind → Bool
  | .agree .. => true
  | _ => false

/-! ### Pages an engine holds for a command (13 R371) -/

/-- The pages of n bytes from va, as captured; none where one is not mapped or `ok` refuses it. -/
def State.pageCaps (s : State) (c : Nat) (task : Bool) (va n : Nat) (ok : Leaf → Bool) : Option (List Cap) :=
  (List.range ((va % 4096 + n + 4095) / 4096)).mapM fun i =>
    let a := va / 4096 * 4096 + 4096 * i
    match s.walk c task a with
    | none => none
    | some l =>
      if ok l then some { va := a, pa := l.base + a % l.size, base := l.base, size := l.size, tens := l.tens, line := a / l.size * l.size }
      else none

/-- The captured page that holds a virtual address, beyond the command's own pointer. -/
def Cmd.page (m : Cmd) (va : Nat) : Cap :=
  ((m.caps.drop 1).find? fun k => k.va == va / 4096 * 4096).getD { va := va, pa := 0, base := 0, size := 1, tens := none }

/-- The physical address of a virtual one in the captured pages. -/
def Cmd.pagePa (m : Cmd) (va : Nat) : Nat := (m.page va).pa + va % 4096

end Sys2Proof.Machine
end

