-- ==== Sys2Proof/Machine/StateVec.lean ====
section
/-! DEFINITION. State vectors (08 R239, 18). -/

namespace Sys2Proof.Machine

open Sys2Proof

/-! ### The object record (18 R448–R452) -/

/-- A state-vector object as its record holds it.  `st`: 0 FREE, 1 READY, 2 FAILED. -/
structure SvObj where
  st : Nat := 0
  fmt : Nat := 0
  nq : Nat := 0
  dieb : Nat := 0
  chipb : Nat := 0
  group : Nat := 0
  base : Nat := 0
  exch : Nat := 0
  qseq : Nat := 0
  map : List Nat := []
  deriving DecidableEq, Repr

def State.svVa (s : State) (c n : Nat) : Nat := s.cword c 0x98 + 128 * n

def State.svGet (s : State) (c n : Nat) : SvObj :=
  let a := s.svVa c n
  let w := s.vrdN c a 8
  let q := s.vrdN c (a + 0x10) 8
  let nq := bitsN w 13 8
  { st := w % 8, fmt := bitsN w 7 4, nq, dieb := bitsN w 17 16, chipb := bitsN w 21 18, group := bitsN w 33 22
    base := s.vrdN c (a + 8) 8 % 2 ^ 52, exch := q / 2 ^ 32, qseq := q % 2 ^ 32
    map := unpackLE 6 nq (s.vrdN c (a + 0x20) 48) }

/-- The 128 bytes of a record; all zero when FREE (18 Table 18-1). -/
def SvObj.image (o : SvObj) : List Byte :=
  if o.st = 0 then bytesOf 128 0
  else
    bytesOf 8 (o.group % 2 ^ 12 * 2 ^ 22 + o.chipb % 16 * 2 ^ 18 + o.dieb % 4 * 2 ^ 16 + o.nq % 64 * 2 ^ 8 + o.fmt % 16 * 16 + o.st % 8) ++
    bytesOf 8 (o.base % 2 ^ 52) ++ bytesOf 8 (o.exch % 2 ^ 32 * 2 ^ 32 + o.qseq % 2 ^ 32) ++ bytesOf 8 0 ++
    bytesOf 48 (packLE 6 o.map) ++ bytesOf 48 0

def State.svPut (s : State) (c n : Nat) (o : SvObj) : State := s.vwrRun c (s.svVa c n) o.image

/-- Element size, half format, line bits, local bits (18 R450). -/
def SvObj.e (o : SvObj) : Nat := if o.fmt = 10 then 8 else 16
def SvObj.half (o : SvObj) : Fmt := if o.fmt = 10 then fp32 else fp64
def SvObj.lb (o : SvObj) : Nat := if o.fmt = 10 then 3 else 2
def SvObj.loc (o : SvObj) : Nat := o.nq - o.dieb - o.chipb
/-- Amplitudes of this package. -/
def SvObj.count (o : SvObj) : Nat := 2 ^ (o.nq - o.chipb)
def SvObj.bytes (o : SvObj) : Nat := o.count * o.e

/-- The object a command names, its qubits, and the count FN[3:0] (08 R239). -/
def svNum (w0 : W64) : Nat := fld w0 11 0
def svN (fn : Nat) : Nat := fn % 16
def svQubit (w0 : W64) (j : Nat) : Nat := bitsN w0.toNat (21 + 6 * j) (16 + 6 * j)
def svQubits (w0 : W64) (n : Nat) : List Nat := (List.range n).map (svQubit w0)

/-! ### The commands -/

/-- W0 of a command with n qubits: reserved bits, fields beyond the count, equal qubits (08 R239). -/
def svW0Bad (w0 : W64) (n : Nat) : Bool :=
  fld w0 15 12 != 0 || ((List.range 8).any fun j => decide (n ≤ j) && svQubit w0 j != 0) || !decide (svQubits w0 n).Nodup

/-- A state-vector command of FN fn, its count between lo and hi. -/
def svOp (g : BitVec 4) (kp kc : BitVec 5) (kn : BitVec 2) (p : BitVec 5) (major fn lo hi : Nat) (whr : Where) : SlotOp :=
  let n := svN fn
  { engOp g kp kc kn (wRegs p 2) whr 6 major false (fun c =>
      { id := 0, fn, w := [c.w p 0, c.w p 1], runner := c.s.dieOf c.k, caps := if major = 18 then [] else [c.cap (c.w p 1)] }) with
    chk := fun c => descIf c (decide (n < lo) || decide (hi < n) || svW0Bad (c.w p 0) n || (major == 18 && c.w p 1 != 0)) }

/-- The pointer W1 judged as a structure aligned to a, n bytes in reach, `wr`: written. -/
def svPtr (p : BitVec 5) (a n : Nat) (wr : Bool) (o : SlotOp) : SlotOp :=
  { o with
    chk := fun c => (o.chk c).or (structEarly (c.w p 1) a)
    hold := fun c => (o.hold c).or (structHold c (c.w p 1))
    post := fun c => ptrLate c (c.w p 1) n wr }

/-- QINIT (R453). -/
def opQinit (x : Eng) : SlotOp := svPtr x.p 64 64 false (svOp x.g x.k x.c x.n x.p 15 0 0 0 .csOnly)
def execQinit (x : Eng) (s : State) : Host.Outcome State Fault Refusal :=
  issueOne 6 (encWord (.qinit x)) (opQinit x) s

/-- QINIT_LOAD (R453). -/
def opQinitLoad (x : Eng) : SlotOp := svPtr x.p 64 64 false (svOp x.g x.k x.c x.n x.p 15 16 0 0 .csOnly)
def execQinitLoad (x : Eng) (s : State) : Host.Outcome State Fault Refusal :=
  issueOne 6 (encWord (.qinitLoad x)) (opQinitLoad x) s

/-- QGATE (R458): U is judged as a structure of 8 bytes at issue. -/
def opQgate (x : EngI) : SlotOp := svPtr x.p 8 8 false (svOp x.g x.k x.c x.n x.p 16 x.i.toNat 1 5 .any)
def execQgate (x : EngI) (s : State) : Host.Outcome State Fault Refusal :=
  issueOne 6 (encWord (.qgate x)) (opQgate x) s

/-- QDIAG (R461): d is judged as a structure of 8 bytes at issue. -/
def opQdiag (x : EngI) : SlotOp := svPtr x.p 8 8 false (svOp x.g x.k x.c x.n x.p 17 x.i.toNat 1 8 .any)
def execQdiag (x : EngI) (s : State) : Host.Outcome State Fault Refusal :=
  issueOne 6 (encWord (.qdiag x)) (opQdiag x) s

/-- QSWAP (R462). -/
def opQswap (x : Eng) : SlotOp := svOp x.g x.k x.c x.n x.p 18 2 2 2 .any
def execQswap (x : Eng) (s : State) : Host.Outcome State Fault Refusal :=
  issueOne 6 (encWord (.qswap x)) (opQswap x) s

/-- QMEAS (R464). -/
def opQmeas (x : EngI) : SlotOp :=
  svPtr x.p 64 (0x40 + 8 * 2 ^ svN x.i.toNat) true (svOp x.g x.k x.c x.n x.p 19 x.i.toNat 1 8 .any)
def execQmeas (x : EngI) (s : State) : Host.Outcome State Fault Refusal :=
  issueOne 6 (encWord (.qmeas x)) (opQmeas x) s

/-- QMEAS_SAMP (R464). -/
def opQmeasSamp (x : EngI) : SlotOp :=
  svPtr x.p 64 (0x40 + 8 * 2 ^ svN x.i.toNat) true (svOp x.g x.k x.c x.n x.p 19 (x.i.toNat + 16) 1 8 .any)
def execQmeasSamp (x : EngI) (s : State) : Host.Outcome State Fault Refusal :=
  issueOne 6 (encWord (.qmeasSamp x)) (opQmeasSamp x) s

/-! ### Amplitudes (18 R451, R455, R467) -/

/-- The raw bits of an amplitude, the real part low (02 R44), and its line's poison. -/
abbrev Amp := Nat × Bool

/-- The pages of n bytes from va: none where one is not mapped as the command's issuer needs, is bound, or lies beyond the 52-bit
space (18 R453, R455, 10 R284, 13 R368). -/
def State.svPages (s : State) (m : Cmd) (va n : Nat) (wr : Bool) : Option (List Cap) :=
  if 2 ^ 52 < va + n then none
  else s.pageCaps m.ctx (!isCs m.key) va n fun l => !(wr && (!l.wr || l.cow)) && l.tens.isNone

/-- The physical address of line j of the object's amplitudes in this package, through the captured pages. -/
def Cmd.svLine (m : Cmd) (o : SvObj) (j : Nat) : Nat := m.pagePa (o.base + 64 * j)

def SvObj.lines (o : SvObj) : Nat := o.bytes / 64
def SvObj.perLine (o : SvObj) : Nat := 64 / o.e

/-- Whether a line holds an amplitude that a test picks. -/
def SvObj.onLine (o : SvObj) (pick : Nat → Bool) (j : Nat) : Bool := (List.range o.perLine).any fun i => pick (o.perLine * j + i)

/-- Logs the poisoned lines a command has read, once each, and keeps their numbers (18 R467). -/
def State.svMet (s : State) (m : Cmd) (o : SvObj) (bad : List Nat) : State :=
  let new := bad.filter fun j => !m.met.contains j
  (new.foldl (fun s j => s.log m.ctx 2 (m.svLine o j) (agentField m.runner 2 false)) s).modCmd m.id fun m => { m with met := m.met ++ new }

/-- Reads the lines of this package's amplitudes that a test picks, by ascending index, with the numbers of the poisoned ones; a
line another agent holds is read from it (10 R290), and the places of the other lines hold zeros. -/
def State.svRead (s : State) (m : Cmd) (o : SvObj) (pick : Nat → Bool) : List Amp × List Nat × State :=
  let r := (List.range o.lines).foldl (fun (acc : List Amp × List Nat × State) j =>
    if o.onLine pick j then
      let (bs, bad, s1) := acc.2.2.quietPiece m (m.svLine o j) 64
      (acc.1 ++ (unpackLE (8 * o.e) o.perLine (ofBytes bs)).map fun x => (x, bad), if bad then acc.2.1 ++ [j] else acc.2.1, s1)
    else (acc.1 ++ List.replicate o.perLine (0, false), acc.2)) ([], [], s)
  (r.1, r.2.1, r.2.2.svMet m o r.2.1)

/-- Writes the lines that a test picks, each whole, with VER 0 and its poison (02 R49, 18 R467). -/
def State.svWrite (s : State) (m : Cmd) (o : SvObj) (a : List Amp) (pick : Nat → Bool) : State :=
  ((List.range o.lines).filter (o.onLine pick)).foldl (fun s j =>
    let l := (a.drop (o.perLine * j)).take o.perLine
    s.storeNow { id := 0, key := engKey m.id, acc := 0, ctx := m.ctx, kind := .drain 0 } (m.svLine o j)
      (bytesOf 64 (packLE (8 * o.e) (l.map Prod.fst))) (some 0) (l.any Prod.snd) none) s

def bitAt (x i : Nat) : Bool := x.testBit i
def flipBits (x a v : Nat) : Nat := x ^^^ 2 ^ a ^^^ 2 ^ v

/-- The exact real and imaginary parts. -/
def SvObj.parts (o : SvObj) (x : Nat) : Ex × Ex :=
  let w := 4 * o.e
  (o.half.decode (x % 2 ^ w), o.half.decode (x / 2 ^ w % 2 ^ w))

/-- sv_round (18 R460). -/
def SvObj.round (o : SvObj) (ts : List Ex) : Nat :=
  let x := exSum ts
  o.half.round (if x.isZero then .fin false 0 0 else x)

/-- A complex sum of products u × x, each component one exact sum rounded once. -/
def SvObj.dot (o : SvObj) (ps : List ((Ex × Ex) × (Ex × Ex))) : Nat :=
  let re := o.round (ps.flatMap fun p => [p.1.1.mul p.2.1, (p.1.2.mul p.2.2).negate])
  let im := o.round (ps.flatMap fun p => [p.1.1.mul p.2.2, p.1.2.mul p.2.1])
  re + 2 ^ (4 * o.e) * im

/-- The local index of an amplitude at the physical bits b (08 R239). -/
def localIdx (b : List Nat) (p : Nat) : Nat := packLE 1 (b.map fun i => b2n (bitAt p i))

/-- p with its bits at b set to the bits of k. -/
def withLocal (b : List Nat) (p k : Nat) : Nat :=
  b.zipIdx.foldl (fun p e => if bitAt p e.1 = bitAt k e.2 then p else p ^^^ 2 ^ e.1) p

/-- The entries of U or d as they stand in memory. -/
def SvObj.entries (o : SvObj) (bs : List Byte) : List (Ex × Ex) :=
  (unpackLE (8 * o.e) (bs.length / o.e) (ofBytes bs)).map o.parts

/-- The gate of 18 R458 on local bits b. -/
def SvObj.gate (o : SvObj) (u : List (Ex × Ex)) (b : List Nat) (a : List Amp) : List Amp :=
  let d := 2 ^ b.length
  (List.range a.length).map fun p =>
    let r := localIdx b p
    let grp := (List.range d).map fun k => a.getD (withLocal b p k) (0, false)
    (o.dot ((List.range d).map fun c => (u.getD (r * d + c) (.nan, .nan), o.parts (grp.getD c (0, false)).1)), grp.any Prod.snd)

/-- The index bits of an amplitude: this package's, then the rank's (18 R450, R451). -/
def SvObj.index (o : SvObj) (rank p : Nat) : Nat := p + rank * 2 ^ (o.nq - o.chipb)

/-- The diagonal of 18 R461 at the physical bits b of the whole index. -/
def SvObj.diag (o : SvObj) (d : List (Ex × Ex)) (b : List Nat) (rank : Nat) (a : List Amp) : List Amp :=
  a.zipIdx.map fun e => (o.dot [(d.getD (localIdx b (o.index rank e.2)) (.nan, .nan), o.parts e.1.1)], e.1.2)

/-- The victim of 18 R459: the highest local bit whose qubit is none of those named. -/
def SvObj.victim (o : SvObj) (qs : List Nat) : Option Nat :=
  (List.range o.loc).reverse.find? fun v => !qs.any fun q => o.map.getD q 64 == v

/-- Swaps the map entries that name bits a and v. -/
def SvObj.swapBits (o : SvObj) (a v : Nat) : SvObj :=
  { o with map := o.map.map fun b => if b = a then v else if b = v then a else b }

/-! ### Measurement (18 R463, R464) -/

def exactEx : ExactSum → Ex
  | .fin m e => .fin false m e
  | .inf => .inf false
  | .nan => .nan

def Ex.exact : Ex → ExactSum
  | .fin _ m e => .fin m e
  | .inf _ => .inf
  | .nan => .nan

/-- The sums C of this package's amplitudes. -/
def SvObj.sums (o : SvObj) (n rank : Nat) (b : List Nat) (a : List Amp) : List Ex :=
  (List.range (2 ^ n)).map fun k => exSum ((a.zipIdx.filter fun e => localIdx b (o.index rank e.2) = k).flatMap fun e =>
    let x := o.parts e.1.1
    [x.1.mul x.1, x.2.mul x.2])

/-- The samples (18 R464). -/
def svSamples (seed cnt : Nat) (cs : List Ex) (t : Ex) : List Byte :=
  if t.isNan || t.isInf || t.isZero then List.replicate cnt 0xFF
  else
    let cum := (List.range cs.length).map fun k => exSum (cs.take (k + 1))
    (List.range cnt).map fun i =>
      let z := mix (BitVec.ofNat 64 (seed + (i + 1) * mixG))
      let ut := (Ex.fin false (z.toNat / 2048) (-53)).mul t
      BitVec.ofNat 8 (cum.findIdx fun c => ut.ltv c)

/-- Writes the result area; SEED and NSAMP are the command's third and fourth words, taken when it began. -/
def State.svResult (s : State) (m : Cmd) (cs : List Ex) : State :=
  let cap := m.caps.getD 0 { va := 0, pa := 0, base := 0, size := 0, tens := none }
  let t := exSum cs
  let smp := if m.fn / 16 = 1 then svSamples (m.w.getD 2 0).toNat (fld (m.w.getD 3 0) 31 0) cs t else []
  s.engineWrite m { cap with va := cap.va + 16, pa := cap.pa + 16 }
    (bytesOf 8 (fp64.round t) ++ bytesOf 40 0 ++ (cs.flatMap fun c => bytesOf 8 (fp64.round c)) ++ smp)

/-! ### A command takes effect (18 R453, R455, R457, R465, R466) -/

/-- A command leaves its object. -/
def State.svLeave (s : State) (m : Cmd) : State := { s with qcmds := s.qcmds.filter fun q => q.1 != m.id }

/-- Ends a command: the record is rewritten and the ticket fires. -/
def State.svEnd (s : State) (m : Cmd) (o : SvObj) : State := ((s.svPut m.ctx (svNum (m.w.getD 0 0)) o).svLeave m).fire m.id

/-- Ends a command in an error that its object bears: no other command of the object begins before its ticket fires. -/
def State.svFail (s : State) (m : Cmd) (code : Nat) : State :=
  ({ s.svLeave m with qcmds := s.qcmds.filter (fun q => q.1 != m.id) ++ [(m.id, m.ctx, svNum (m.w.getD 0 0))] } : State).cmdError m code

/-- The map and the count of exchanges with those a command has made (18 R459): `aux` holds how many, whether its part is sent, and
the map. -/
def SvObj.moved (o : SvObj) (m : Cmd) : SvObj :=
  if m.aux.isEmpty then o else { o with map := m.aux.drop 2, exch := satAdd 32 o.exch (m.aux.getD 0 0) }

/-- The record of an object as its command's error leaves it, written in the cycle in which the ticket fires (18 R448, R465): codes 6 and
7 advance QSEQ and keep the exchanges made, and 7 leaves the object FAILED. -/
def State.svRecord (s : State) (m : Cmd) : State :=
  if s.qcmds.any fun q => q.1 == m.id then
    let n := svNum (m.w.getD 0 0)
    let o := s.svGet m.ctx n
    if m.kind = 6 ∨ m.kind = 7 then
      (s.svPut m.ctx n { o.moved m with st := if m.kind = 7 then 2 else o.st, qseq := (o.qseq + 1) % 2 ^ 32 }).svLeave m
    else s.svLeave m
  else s

/-- QINIT's descriptor as an object, where its own checks pass (18 R453, Table 18-3). -/
def State.svCreate (s : State) (c : Nat) (w : List Nat) : Option SvObj :=
  let x := w.getD 0 0
  let b := w.getD 1 0
  let o : SvObj := { st := 1, fmt := x % 16, nq := bitsN x 9 4, dieb := bitsN x 11 10, chipb := bitsN x 15 12, group := bitsN x 27 16
                     base := b % 2 ^ 52, map := List.range (bitsN x 9 4) }
  let bad := bitsN x 63 32 != 0 || bitsN x 30 28 != 0 || bitsN b 63 52 != 0 || (w.drop 2).any (· != 0) || b % 4096 != 0 ||
    !(o.fmt == 10 || o.fmt == 11) || o.dieb == 3 || decide (o.nq < o.dieb + o.chipb + o.lb) ||
    decide ((if o.fmt = 10 then 36 else 35) < o.nq - o.chipb) || decide (13 < o.chipb) ||
    (if o.chipb = 0 then o.group != 0
     else !s.grpOk c o.group || s.grpState c o.group != 2 || s.grpN c o.group != 2 ^ o.chipb)
  if bad then none else some o

/-- |0…0⟩, as this package's amplitudes. -/
def SvObj.zeroState (o : SvObj) (rank : Nat) : List Amp :=
  (List.range o.count).map fun p => (if p = 0 ∧ rank = 0 then o.half.round (.fin false 1 0) else 0, false)

/-- The rank of this package for an object. -/
def State.svRank (s : State) (c : Nat) (o : SvObj) : Nat := if o.chipb = 0 then 0 else s.grpRank c o.group

/-- QINIT. -/
def State.svInit (s : State) (m : Cmd) (old : SvObj) : State :=
  let (b, _, s1) := s.engineRead m (m.caps.getD 0 { va := 0, pa := 0, base := 0, size := 0, tens := none }) 64
  let w := (List.range 8).map fun i => wordOf b (8 * i)
  if (w.getD 0 0).testBit 31 then
    if old.st = 0 then s1.cmdError m 1 else s1.svEnd m {}
  else match s1.svCreate m.ctx w with
    | none => s1.cmdError m 2
    | some o => match s1.svPages m o.base o.bytes true with
      | none => s1.cmdError m 5
      | some ps =>
        let m1 := { m with caps := m.caps.take 1 ++ ps }
        let s2 := if m.fn / 16 = 1 then s1 else s1.svWrite m1 o (o.zeroState (s1.svRank m.ctx o)) fun _ => true
        s2.svEnd m o

/-- SEED and NSAMP are taken from the result area of a QMEAS with samples. -/
def State.svArea (s : State) (m : Cmd) : Cmd × State :=
  if m.major = 19 ∧ m.fn / 16 = 1 then
    let (b, _, s1) := s.engineRead m (m.caps.getD 0 { va := 0, pa := 0, base := 0, size := 0, tens := none }) 16
    ({ m with w := m.w.take 2 ++ [BitVec.ofNat 64 (wordOf b 0), BitVec.ofNat 64 (wordOf b 8)] }, s1)
  else (m, s)

/-- The sample request of a result area that fails its check (18 R463). -/
def Cmd.svAreaBad (m : Cmd) : Bool :=
  let cap := m.caps.getD 0 { va := 0, pa := 0, base := 0, size := 0, tens := none }
  let cnt := fld (m.w.getD 3 0) 31 0
  m.major == 19 && m.fn / 16 == 1 && (decide (65536 < cnt) || decide (cap.size < cap.pa - cap.base + 0x40 + 8 * 2 ^ svN m.fn + cnt))

/-- Bytes of U or d, and whether it breaches its alignment or page (18 R458, R461). -/
def SvObj.opBytes (o : SvObj) (m : Cmd) : Nat :=
  if m.major = 16 then o.e * 4 ^ svN m.fn else if m.major = 17 then o.e * 2 ^ svN m.fn else 0
def SvObj.opBad (o : SvObj) (m : Cmd) : Bool :=
  let cap := m.caps.getD 0 { va := 0, pa := 0, base := 0, size := 0, tens := none }
  let n := o.opBytes m
  n != 0 && ((cap.pa - cap.base) % n != 0 || decide (cap.size < cap.pa - cap.base + n))

/-- The lowest of codes 2, 3 and 4 that holds for a command on a READY object. -/
def Cmd.svCode (m : Cmd) (o : SvObj) : Nat :=
  let qs := svQubits (m.w.getD 0 0) (svN m.fn)
  if o.opBad m || m.svAreaBad then 2
  else if qs.any fun q => decide (o.nq ≤ q) then 3
  else if m.major = 16 ∧ o.loc < svN m.fn then 4 else 0

/-- A command begins to take effect: its checks, its pages and its operand are taken, and the other members are told.  Where the
object's group failed while no command of the object was in flight, the command ends in code 7 and the object stays READY. -/
def State.svBegin (s : State) (m : Cmd) (o : SvObj) : State × Bool :=
  let (m, s) := s.svArea m
  let pages := if m.major = 18 then some [] else s.svPages m o.base o.bytes (m.major != 19)
  match m.svCode o, pages with
  | 0, none => (s.cmdError m 5, false)
  | 0, some ps =>
    if o.chipb ≠ 0 ∧ s.grpState m.ctx o.group ≠ 2 then (s.cmdError m 7, false)
    else
      let cap := m.caps.getD 0 { va := 0, pa := 0, base := 0, size := 0, tens := none }
      let (u, _, s1) := s.engineRead m cap (o.opBytes m)
      let m1 := { m with caps := cap :: ps, hash := u, aux := 0 :: 0 :: o.map }
      let n := svNum (m.w.getD 0 0)
      let s2 : State := { s1.modCmd m.id (fun _ => m1) with qcmds := s1.qcmds ++ [(m.id, m.ctx, n)] }
      (if o.chipb = 0 then s2 else (s2.sendAll m.ctx o.group o.qseq (.svOp n m.major m.fn (m.w.getD 0 0).toNat u)).2, true)
  | k, _ => (s.cmdError m k, false)

/-- The packets of an operation that have come from the other members. -/
def State.svPackets (s : State) (c : Nat) (o : SvObj) (n : Nat) (f : CollKind → Bool) : List CollPacket :=
  s.packetsOf c o.group o.qseq fun k => (kindObject k) == some n && f k

def kindSvOp : CollKind → Bool
  | .svOp .. => true
  | _ => false

/-- Whether every other member has issued its command, and whether each is the same (18 R457): a member's first of that QSEQ. -/
def State.svAgreed (s : State) (m : Cmd) (o : SvObj) (n : Nat) : Bool × Bool :=
  let ps := s.svPackets m.ctx o n kindSvOp
  let of (r : Nat) : Option CollPacket := ps.find? fun p => p.member == r
  ((s.grpOthers m.ctx o.group).all fun r => (of r).isSome,
   (s.grpOthers m.ctx o.group).all fun r => (of r).all fun p => p.kind == .svOp n m.major m.fn (m.w.getD 0 0).toNat m.hash)

/-- Ends an operation whose members differ (18 R457): each member's command of it is dropped, and QSEQ stays. -/
def State.svDiffer (s : State) (m : Cmd) (o : SvObj) (n : Nat) : State :=
  (s.modGrp m.ctx o.group fun g => { g with packets := (s.grpOthers m.ctx o.group).foldl (fun ps r =>
    ps.eraseP fun p => p.seq == o.qseq && kindSvOp p.kind && kindObject p.kind == some n && p.member == r) g.packets }).svFail m 8

/-- Ends an operation: what the members sent for it is dropped, and QSEQ advances. -/
def State.svFinish (s : State) (m : Cmd) (o : SvObj) (code : Nat) : State :=
  let n := svNum (m.w.getD 0 0)
  let s1 := if o.chipb = 0 then s
    else s.dropPackets m.ctx o.group fun p => p.seq == o.qseq && (kindObject p.kind) == some n
  if code = 0 then s1.svEnd m { o with qseq := (o.qseq + 1) % 2 ^ 32 } else s1.svFail m code

/-- Places a received block at the positions whose bit v is `one` (18 R459). -/
def placeBlock (a : List Amp) (v : Nat) (one : Bool) (blk : List Amp) : List Amp :=
  let pos := (List.range a.length).filter fun p => bitAt p v == one
  a.zipIdx.map fun e => if bitAt e.2 v = one then blk.getD (pos.findIdx (· == e.2)) e.1 else e.1

/-- One exchange of localise (18 R459): bit a, not local, changes place with the victim v.  When a is a CHIP bit, the lines are read
and sent at once, and written when the partner's block has come. -/
def State.svExchange (s : State) (m : Cmd) (o : SvObj) (a v : Nat) : State :=
  let n := svNum (m.w.getD 0 0)
  let next (s : State) : State := s.modCmd m.id fun m => { m with
    aux := (m.aux.getD 0 0 + 1) :: 0 :: (o.swapBits a v).map, held := [] }
  if a < o.loc + o.dieb then
    let moved (p : Nat) : Bool := bitAt p a != bitAt p v
    let (amps, _, s) := s.svRead m o moved
    let amps1 := (List.range amps.length).map fun p => amps.getD (if moved p then flipBits p a v else p) (0, false)
    next (s.svWrite m o amps1 moved)
  else
    let r := s.grpRank m.ctx o.group
    let bit := a - o.loc - o.dieb
    let one := !bitAt r bit
    let step := m.aux.getD 0 0
    let (amps, s1) :=
      if m.aux.getD 1 0 = 1 then (m.held, s)
      else
        let (amps, _, s1) := s.svRead m o fun p => bitAt p v == one
        let blk := (amps.zipIdx.filter fun e => bitAt e.2 v == one).map Prod.fst
        (amps, ((s1.sendColl m.ctx o.group o.qseq (r ^^^ 2 ^ bit) (.svBlock n step blk)).2).modCmd m.id fun m =>
          { m with aux := step :: 1 :: m.aux.drop 2, held := amps })
    match (s1.svPackets m.ctx o n fun k => match k with
        | .svBlock _ t _ => t == step
        | _ => false).find? fun p => p.member == r ^^^ 2 ^ bit with
    | some { kind := .svBlock _ _ blk, .. } => next (s1.svWrite m o (placeBlock amps v one blk) fun p => bitAt p v == one)
    | _ => s1

/-- The last part of a command, its named qubits local where it needs them so. -/
def State.svPass (s : State) (m : Cmd) (o : SvObj) : State :=
  let n := svNum (m.w.getD 0 0)
  let k := svN m.fn
  let qs := svQubits (m.w.getD 0 0) k
  let b := qs.map fun q => o.map.getD q 0
  let rank := s.svRank m.ctx o
  if m.major = 18 then
    s.svFinish m (match b with
      | [x, y] => o.swapBits x y
      | _ => o) 0
  else
    let (amps, lines, s) := if m.aux.getD 1 0 = 1 then (m.held, [], s) else s.svRead m o fun _ => true
    let bad := !m.met.isEmpty || !lines.isEmpty
    let code (x : Bool) : Nat := if x then 6 else 0
    if m.major = 16 then (s.svWrite m o (o.gate (o.entries m.hash) b amps) fun _ => true).svFinish m o (code bad)
    else if m.major = 17 then (s.svWrite m o (o.diag (o.entries m.hash) b rank amps) fun _ => true).svFinish m o (code bad)
    else
      let mine := o.sums k rank b amps
      if o.chipb = 0 then (if bad then s else s.svResult m mine).svFinish m o (code bad)
      else
        let s1 := if m.aux.getD 1 0 = 1 then s
          else ((s.sendAll m.ctx o.group o.qseq (.svSums n (mine.map Ex.exact) bad)).2).modCmd m.id fun m =>
            { m with aux := m.aux.getD 0 0 :: 1 :: m.aux.drop 2, held := amps }
        let got := (s.grpOthers m.ctx o.group).filterMap fun r =>
          firstSome (s1.svPackets m.ctx o n fun _ => true) fun p => match p.kind with
            | .svSums _ cs z => if p.member = r then some (cs.map exactEx, z) else none
            | _ => none
        if got.length < (s.grpOthers m.ctx o.group).length then s1
        else
          let anyBad := bad || got.any Prod.snd
          let all := (List.range (2 ^ k)).map fun i => exSum (mine.getD i .nan :: got.map fun g => g.1.getD i .nan)
          (if anyBad then s1 else s1.svResult m all).svFinish m o (code anyBad)

/-- The next part of a command that has begun. -/
def State.svStep (s : State) (m : Cmd) (o : SvObj) : State :=
  let n := svNum (m.w.getD 0 0)
  let (here, same) := if o.chipb = 0 then (true, true) else s.svAgreed m o n
  if !here then s
  else if !same then s.svDiffer m o n
  else
    let o1 := o.moved m
    let qs := svQubits (m.w.getD 0 0) (svN m.fn)
    match (if m.major = 16 then qs.find? fun q => decide (o1.loc ≤ o1.map.getD q 0) else none), o1.victim qs with
    | some q, some v => s.svExchange m o1 (o1.map.getD q 0) v
    | _, _ => s.svPass m o1

/-- STATE_VECTOR_COMMAND_COMPLETE (18 R455): a command that has reached its object's engine takes effect, one at a time on
an object.  One that waits for other members, or has an exchange to make, does its next part; the last part rewrites
the record and fires the ticket. -/
def execStateVectorCommandComplete (cmd : Nat) (s : State) : Host.Outcome State Fault Refusal :=
  .next (match s.cmd? cmd with
    | none => s
    | some m =>
      let n := svNum (m.w.getD 0 0)
      if !(m.pos == 6 && decide (15 ≤ m.major) && decide (m.major ≤ 19) && m.st == .running) ||
        (s.reqs.any fun r => r.key == engKey cmd) || s.capsOwed m then s
      else if s.qcmds.any fun q => q.1 == cmd then s.svStep m (s.svGet m.ctx n)
      else if s.qcmds.any fun q => q.2.1 == m.ctx && q.2.2 == n then s
      else if s.cword m.ctx 0xA0 ≤ n then s.cmdError m 1
      else
        let o := s.svGet m.ctx n
        if m.major = 15 then s.svInit m o
        else if o.st = 2 then s.cmdError m 7
        else if o.st ≠ 1 then s.cmdError m 1
        else
          let (s1, go) := s.svBegin m o
          match (if go then s1.cmd? cmd else none) with
          | some m1 => s1.svStep m1 o
          | none => s1)

/-- The group of objects fails: each command that has reached the engine of a READY object of that group ends in code 7, and its object
turns FAILED (18 R457, R465). -/
def State.svGroupFailed (s : State) (c grp : Nat) : State :=
  (s.cmds.filter fun m => m.ctx == c && m.pos == 6 && decide (16 ≤ m.major) && decide (m.major ≤ 19) && m.st == .running &&
      decide (svNum (m.w.getD 0 0) < s.cword c 0xA0)).foldl (fun s m =>
    let o := s.svGet c (svNum (m.w.getD 0 0))
    if o.st = 1 ∧ o.chipb ≠ 0 ∧ o.group = grp then s.svFinish m o 7 else s) s

end Sys2Proof.Machine
end

