-- ==== Sys2Proof/Machine/Group.lean ====
section
/-! DEFINITION. Groups and collectives (08 R248, R249, R251, 16). -/

namespace Sys2Proof.Machine

open Sys2Proof

def cap0 (m : Cmd) : Cap := m.caps.getD 0 { va := 0, pa := 0, base := 0, size := 0, tens := none }
/-- The group a command names. -/
def grpNum (m : Cmd) : Nat := fld (m.w.getD 0 0) 11 0

/-! ### The commands (08 R248, R249, R251) -/

/-- A group command: W0 a group number; `cmd` adds to what it captures. -/
def grpOp (x : EngF) (major : Nat) (lgl pure : Bool) (whr : Where) (ptr w1z : Bool) : SlotOp :=
  { engOp x.g x.k x.c x.n (wRegs x.p 2) whr 7 major pure (fun c =>
      { id := 0, fn := x.f.toNat, w := [c.w x.p 0, c.w x.p 1], runner := c.s.dieOf c.k
        caps := if ptr then [c.cap (c.w x.p 1)] else [] }) with
    legal := lgl
    chk := fun c => descIf c (fld (c.w x.p 0) 63 12 != 0 || (w1z && c.w x.p 1 != 0)) }

/-- The pointer W1 to n bytes aligned to their size. -/
def grpPtr (x : EngF) (n : Nat) (wr : Bool) (o : SlotOp) : SlotOp :=
  { o with
    chk := fun c => (o.chk c).or (structEarly (c.w x.p 1) n)
    hold := fun c => (o.hold c).or (structHold c (c.w x.p 1))
    post := fun c => ptrLate c (c.w x.p 1) n wr }

/-- Adds to the command just accepted, and to its group. -/
def State.numbered (s : State) (id cid : Nat) (g : Grp → Grp) (c n : Nat) : State :=
  (s.modCmd id fun m => { m with cid }).modGrp c n g

/-- COLL (R248): it takes the member's next SEQ, written into the descriptor at acceptance. -/
def opColl (x : EngF) : SlotOp :=
  let o := grpPtr x 64 true (grpOp x 6 (legal (.coll x)) false .any true false)
  { o with
    eff := fun c s =>
      let n := fld (c.w x.p 0) 11 0
      let seq := ((s.grp c.cx n).colls + 1) % 2 ^ 32
      let id := s.nextId
      let s1 := (o.eff c s).numbered id seq (fun g => { g with colls := seq }) c.cx n
      let s2 := match s1.cmd? id with
        | some m => s1.engineWrite m { cap0 m with va := (cap0 m).va + 0x20, pa := (cap0 m).pa + 0x20 } (bytesOf 4 seq)
        | none => s1
      if s2.grpOk c.cx n then s2.grpPut c.cx n 1 seq else s2 }
def execColl (x : EngF) (s : State) : Host.Outcome State Fault Refusal :=
  issueOne 7 (encWord (.coll x)) (opColl x) s

/-- COLW (R249). -/
def opColw (x : Eng) : SlotOp :=
  { engOp x.g x.k x.c x.n (wRegs x.p 2) .any 7 7 false (fun c =>
      { id := 0, w := [c.w x.p 0, c.w x.p 1], runner := c.s.dieOf c.k }) with
    chk := fun c => descIf c (fld (c.w x.p 0) 63 12 != 0) }
def execColw (x : Eng) (s : State) : Host.Outcome State Fault Refusal :=
  issueOne 7 (encWord (.colw x)) (opColw x) s

/-- COLA (R249): it takes the member's next COLA number. -/
def opCola (x : EngF) : SlotOp :=
  let o := grpPtr x 8 true (grpOp x 8 (legal (.cola x)) false .any true false)
  { o with
    eff := fun c s =>
      let n := fld (c.w x.p 0) 11 0
      let k := (s.grp c.cx n).colas + 1
      (o.eff c s).numbered s.nextId k (fun g => { g with colas := k }) c.cx n }
def execCola (x : EngF) (s : State) : Host.Outcome State Fault Refusal :=
  issueOne 7 (encWord (.cola x)) (opCola x) s

/-- GRPC (R413): it restarts the counts when it commits on a FREE or QUARANTINE record.  At issue only its handle is judged, and that
the pointer lies in the page: the table's alignment and end are judged when it starts (16 Table 16-3, notes/assumptions/143). -/
def opGrpc (x : EngF) : SlotOp :=
  let o := grpPtr x 1 false (grpOp x 13 (legal (.grpc x)) true .csOnly true false)
  { o with
    eff := fun c s =>
      let n := fld (c.w x.p 0) 11 0
      let st := s.grpState c.cx n
      let restart := !s.grpOk c.cx n || st == 0 || st == 4
      let id := s.nextId
      let s1 := (o.eff c s).modCmd id fun m => { m with aux := [b2n restart] }
      if restart then
        let s2 := ({ s1 with signals := s1.signals.filter fun g => g.obj.take 3 != [4, c.cx, n] } : State).modGrp c.cx n fun g =>
          { g with colls := 0, colas := 0, ended := [], agreed := [] }
        if s2.grpOk c.cx n then s2.grpPut c.cx n 1 0 else s2
      else s1 }
def execGrpc (x : EngF) (s : State) : Host.Outcome State Fault Refusal :=
  issueOne 7 (encWord (.grpc x)) (opGrpc x) s

/-- GRPF (R414). -/
def opGrpf (x : EngF) : SlotOp := grpOp x 14 (legal (.grpf x)) true .csOnly false true
def execGrpf (x : EngF) (s : State) : Host.Outcome State Fault Refusal :=
  issueOne 7 (encWord (.grpf x)) (opGrpf x) s

/-! ### The descriptor (16 Table 16-5) -/

def Coll.w0 (x : Coll) : Nat := x.desc.getD 0 0
def Coll.rop (x : Coll) : Nat := x.w0 % 16
def Coll.fmt (x : Coll) : Nat := bitsN x.w0 7 4
def Coll.wfmt (x : Coll) : Nat := bitsN x.w0 11 8
def Coll.alg (x : Coll) : Nat := bitsN x.w0 14 12
def Coll.root (x : Coll) : Nat := bitsN x.w0 29 16
def Coll.rev (x : Coll) : Bool := x.w0.testBit 30
def Coll.srcVa (x : Coll) : Nat := x.desc.getD 1 0 % 2 ^ 52
def Coll.dstVa (x : Coll) : Nat := x.desc.getD 2 0 % 2 ^ 52
def Coll.elems (x : Coll) : Nat := x.desc.getD 3 0 % 2 ^ 32
def isReduction (op : Nat) : Bool := op == 0 || op == 1 || op == 6
/-- What R421 compares: operation, ROP, ALG, WFMT, REV, ROOT and ELEMS, packed. -/
def Coll.digest (x : Coll) : Nat :=
  x.op + 8 * (x.rop + 16 * (x.alg + 8 * (x.wfmt + 16 * (b2n x.rev + 2 * (x.root + 2 ^ 14 * x.elems)))))
/-- Elements of the source and the destination (16 R420). -/
def Coll.srcElems (x : Coll) (n : Nat) : Nat := if x.op = 1 ∨ x.op = 4 then n * x.elems else x.elems
def Coll.dstElems (x : Coll) (n : Nat) : Nat := if x.op = 2 ∨ x.op = 4 then n * x.elems else x.elems
/-- Whether a rank has a source, and a destination. -/
def Coll.reads (x : Coll) (rank : Nat) : Bool := x.op != 3 || rank == x.root
def Coll.writes (x : Coll) (rank : Nat) : Bool := x.op != 6 || rank == x.root
def Coll.chunks (x : Coll) (n : Nat) : Nat := (x.dstElems n + 4095) / 4096

/-- Elements of a record's data line (02 R51). -/
def State.recPer (s : State) (c i : Nat) : Nat :=
  if s.recGeo c i ≥ 2 then lineElems (s.recGeo c i) else 512 / fmtBits (s.recSfmt c i)

/-- Data lines of a record that n elements take. -/
def State.recLines (s : State) (c i n : Nat) : Nat := (n + s.recPer c i - 1) / s.recPer c i

/-- Bytes of n elements of a side. -/
def State.sideBytesOf (s : State) (c : Nat) (side : Option Nat) (fmt n : Nat) : Nat :=
  match side with
  | some i => s.recLines c i n * 64
  | none => n * fmtBits fmt / 8

/-- The data lines of a record side from va on, as runs: each page's data region in turn, past its scale plane and its reserved
tail (02 R52, 16 R419, notes/assumptions/62).  None where a page is not mapped or not the record's, or the start is no data line. -/
def State.sideRuns (s : State) (c : Nat) (task : Bool) (i : Nat) : Nat → Nat → Nat → Option (List (Nat × Nat))
  | 0, _, n => if n = 0 then some [] else none
  | fuel + 1, va, n =>
    if n = 0 then some []
    else match s.walk c task va with
      | none => none
      | some l =>
        let ofs := va % l.size
        let room := ((if 2 ≤ s.recGeo c i then dataRegion l.size else l.size) - ofs) / 64
        if l.tens != some i || room = 0 then none
        else (s.sideRuns c task i fuel (va - ofs + l.size) (n - min n room)).map fun r => (va, min n room) :: r

/-- The address of line j of a side's runs. -/
def runVa : List (Nat × Nat) → Nat → Nat
  | [], _ => 0
  | (va, n) :: r, j => if j < n then va + 64 * j else runVa r (j - n)

/-- Where a side starts: a record side is addressed in whole data lines. -/
def sideStart (side : Option Nat) (va : Nat) : Nat := if side.isSome then va / 64 * 64 else va

/-- The record a side's first page is bound to; none where that page is not mapped. -/
def State.sideOf (s : State) (c : Nat) (task : Bool) (va : Nat) : Option (Option Nat) := (s.walk c task va).map Leaf.tens

/-- The pages of a side and the runs of a record side, where its whole extent is mapped with the permission and of one kind. -/
def State.sideCaps (s : State) (c : Nat) (task wr : Bool) (side : Option Nat) (fmt va n : Nat) : Option (List Cap × List (Nat × Nat)) :=
  let a := sideStart side va
  let ok (l : Leaf) : Bool := l.tens == side && (!wr || (l.wr && !l.cow))
  match side with
  | none => (s.pageCaps c task a (s.sideBytesOf c none fmt n) ok).map fun caps => (caps, [])
  | some i =>
    let lines := s.recLines c i n
    (s.sideRuns c task i (lines / 960 + 2) a lines).bind fun runs =>
      (runs.mapM fun r => s.pageCaps c task r.1 (64 * r.2) ok).map fun caps => (caps.flatten, runs)

/-- ceil(log2 n). -/
def clog2 (n : Nat) : Nat := if n ≤ 1 then 0 else log2N (n - 1) + 1

/-- The algorithm of a plan (16 R423, Table 16-8), for a contribution of `bytes` bytes among n members. -/
def algOf (op alg bytes n : Nat) : Nat :=
  if op = 4 then 4 else if op = 5 then 1 else if alg ≠ 0 then alg
  else
    let cls := if bytes ≤ 4096 then 0 else if bytes ≤ 2 ^ 18 then 1 else if bytes ≤ 2 ^ 24 then 2 else 3
    let col := if n = 2 then 0 else if n ≤ 16 then 1 else if n ≤ 512 then 2 else 3
    let red := [[4, 2, 2, 2], [4, 3, 3, 2], [1, 1, 3, 3], [1, 1, 1, 3]]
    let mov := [[2, 2, 2, 2], [2, 2, 2, 2], [1, 1, 1, 2], [1, 1, 1, 2]]
    (((if isReduction op then red else mov).getD cls []).getD col 0)

/-- The descriptor's checks (16 Table 16-6): a code, or the collective as it opens and the pages of its sides. -/
def State.collParse (s : State) (m : Cmd) (w : List Nat) : Nat ⊕ (Coll × List Cap) :=
  let c := m.ctx
  let n := grpNum m
  let nn := s.grpN c n
  let rank := s.grpRank c n
  let task := !isCs m.key
  let x : Coll := { cmd := m.id, ctx := c, grp := n, seq := m.cid, op := m.fn, desc := w }
  let i (k : Nat) : Nat := w.getD k 0
  let src := if x.reads rank then some (s.sideOf c task x.srcVa) else none
  let dst := if x.writes rank then some (s.sideOf c task x.dstVa) else none
  let sides : List (Option (Option Nat)) := src.toList ++ dst.toList
  let recs : List Nat := sides.filterMap fun d => d.bind id
  let allRec := !sides.isEmpty && sides.all fun d => match d with
    | some (some _) => true
    | _ => false
  let c2 := bitsN (i 0) 63 31 != 0 || (i 0).testBit 15 || bitsN (i 1) 63 52 != 0 || bitsN (i 2) 63 52 != 0 ||
    bitsN (i 3) 63 32 != 0 || bitsN (i 4) 63 32 != 0 || bitsN (i 6) 63 9 != 0 || bitsN (i 6) 7 6 != 0 || i 7 != 0 ||
    decide ((if isReduction x.op then 2 else 0) < x.rop) || decide (4 < x.alg) || (x.rev && x.op != 5) ||
    (x.root != 0 && x.op != 3 && x.op != 6) || !([0, 1, 2, 3, 4, 8].contains x.fmt) || (allRec && x.fmt != 0)
  let c3 := x.elems == 0 || x.elems % 64 != 0 || recs.any fun r => x.elems % s.recPer c r != 0
  let caps (wr : Bool) (d : Option (Option (Option Nat))) (va k : Nat) : Option (List Cap × List (Nat × Nat)) := match d with
    | none => some ([], [])
    | some none => none
    | some (some side) => s.sideCaps c task wr side x.fmt va k
  let sc := caps false src x.srcVa (x.srcElems nn)
  let dc := caps true dst x.dstVa (x.dstElems nn)
  let i32 := (sides.any fun d => d == some none) && x.fmt == 8 || recs.any fun r => s.recSfmt c r == 8
  let c5 := !([0, 3, 4].contains x.wfmt) || (x.wfmt == 0 && recs.any fun r => decide (2 ≤ s.recGeo c r)) || (x.wfmt != 0 && i32)
  if c2 then .inl 2 else if c3 then .inl 3
  else match sc, dc with
    | some a, some b =>
      if c5 then .inl 5 else if nn ≤ x.root then .inl 6
      else
        let one (d : Option (Option (Option Nat))) : Option Nat := (d.bind id).map fun side => s.sideBytesOf c side x.fmt x.elems
        .inr ({ x with algrun := algOf x.op x.alg (((one src).or (one dst)).getD 0) nn
                       src := src.bind id, dst := dst.bind id, srcRuns := a.2, dstRuns := b.2 }, a.1 ++ b.1)
    | _, _ => .inl 4

/-! ### The end of a collective at this member (16 R419, R422) -/

/-- STATUS (16 Table 16-7). -/
def statusWord (first alg : Nat) (replan detour psn : Bool) (st : Nat) : Nat :=
  first * 2 ^ 32 + alg * 64 + b2n replan * 32 + b2n detour * 16 + b2n psn * 8 + st

/-- Writes STATUS and AGREED; the collective has ended here, which is signalled to its COLWs (10 R305 edge 7). -/
def State.collStatus (s : State) (m : Cmd) (status agreed : Nat) : State :=
  let n := grpNum m
  let s1 := (s.signal [4, m.ctx, n, m.cid] m.key m.id).engineWrite m { cap0 m with va := (cap0 m).va + 0x28, pa := (cap0 m).pa + 0x28 } (bytesOf 8 status ++ bytesOf 8 agreed)
  let s2 := s1.modGrp m.ctx n fun g => { g with
    ended := g.ended ++ [m.cid]
    packets := g.packets.filter fun p => p.seq != m.cid || (kindAgrees p.kind) || (kindObject p.kind).isSome }
  { s2 with colls := s2.colls.filter fun x => x.cmd != m.id }

/-- The first chunk not complete. -/
def Coll.first (x : Coll) (n : Nat) : Nat := ((List.range (x.chunks n)).find? fun k => !x.done.contains k).getD (x.chunks n)

/-- AGREED and SCALED (16 R426). -/
def Coll.agreed (x : Coll) : Nat := match x.scale with
  | some sw => 256 + wrapN sw 6
  | none => 0

/-- Ends an open collective with a status. -/
def State.collClose (s : State) (m : Cmd) (x : Coll) (st first : Nat) : State :=
  (s.collStatus m (statusWord first (if st = 3 then 0 else x.algrun) x.replan (!x.detours.isEmpty) x.psn st) x.agreed).fire m.id

def Cmd.isColl (m : Cmd) : Bool := m.pos == 7 && m.major == 6
def Cmd.isCola (m : Cmd) : Bool := m.pos == 7 && m.major == 8

/-- Ends a COLA with code 3: the group has failed.  No record but the failure's own is posted (08 R249). -/
def State.colaFail (s : State) (m : Cmd) : State :=
  ((s.modGrp m.ctx (grpNum m) fun g => { g with agreed := g.agreed ++ [m.cid] }).modCmd m.id fun m => { m with kind := 3 }).fire m.id

/-- The started collectives and agreements of a group. -/
def State.openCmds (s : State) (c n : Nat) : List Cmd :=
  s.cmds.filter fun m => (m.isColl || m.isCola) && m.ctx == c && grpNum m == n && m.st == .running

/-- Ends every started collective and agreement of a group because it failed or was freed (16 R417, 08 R249).  A collective whose
chunks are all complete here ends COMPLETE (16 R418). -/
def State.endColls (s : State) (c n : Nat) : State :=
  let nn := s.grpN c n
  (s.openCmds c n).foldl (fun s m =>
    if m.isCola then s.colaFail m
    else match s.colls.find? fun x => x.cmd == m.id with
      | some x => s.collClose m x (if x.first nn = x.chunks nn then 1 else 2) (x.first nn)
      | none => (s.collStatus m (statusWord 0 0 false false false 2) 0).fire m.id) s

/-! ### Group states (16 R413–R417) -/

/-- FSEQ, and FIRST of that collective (16 Table 16-1, R417): the lowest of those started here and not complete, else the next. -/
def State.fseq (s : State) (c n : Nat) : Nat × Nat :=
  let nn := s.grpN c n
  let open_ := (s.openCmds c n).filterMap fun m =>
    if m.isCola then none
    else match s.colls.find? fun x => x.cmd == m.id with
      | some x => if x.first nn = x.chunks nn then none else some (m.cid, x.first nn)
      | none => some (m.cid, 0)
  match open_ with
  | [] => (((s.grp c n).colls + 1) % 2 ^ 32, 0)
  | e :: r => r.foldl (fun a b => if b.1 < a.1 then b else a) e

def failWord (fseq cause frank : Nat) : Nat := fseq % 2 ^ 32 * 2 ^ 32 + cause * 65536 + frank % 2 ^ 14

/-- The group turns FAILED at this member (16 R417). -/
def State.failNow (s : State) (c n cause frank : Nat) : State :=
  let s := s.modGrp c n fun g => { g with failing := none }
  let st := s.grpState c n
  if st ≠ 1 ∧ st ≠ 2 then s
  else
    let (fs, first) := s.fseq c n
    let s1 := (s.grpSetState c n 3).grpPut c n 4 (failWord fs cause frank)
    let gerr := if cause = 3 then 4 else 7
    let s2 := match (s1.grp c n).grpc.bind s1.cmd? with
      | some m => ((s1.grpPut c n 6 gerr).modGrp c n fun g => { g with grpc := none }).cmdError m gerr
      | none => s1
    let s3 := s2.post { id := 0, src := groupSrc c n, ctx := c, kind := 6, srcCode := 4, idField := (s2.ctx c).rdie
                        det0 := n + s.grpGen c n * 2 ^ 12 + frank % 2 ^ 14 * 2 ^ 16 + cause * 2 ^ 32, det1 := fs + first * 2 ^ 32 }
    (s3.endColls c n).svGroupFailed c n

/-- The group fails: a FORMING one at once, an ACTIVE one at the end of the cycle, since a last chunk that completes in it stands
(16 R418). -/
def State.grpFail (s : State) (c n cause frank : Nat) : State :=
  if s.grpState c n = 2 then s.modGrp c n fun g => { g with failing := g.failing.or (some (cause, frank)) }
  else s.failNow c n cause frank

/-- The failures of this cycle. -/
def State.failTick (s : State) : State :=
  s.grps.foldl (fun s g => match g.failing with
    | some (cause, r) => s.failNow g.ctx g.idx cause r
    | none => s) s

/-- GRPF and DESTROY (16 R413, R414): the group enters quarantine and a leave notice goes to every member.  A group that has
failed keeps the collective and the member of its failure. -/
def State.grpLeave (s : State) (c n : Nat) : State :=
  let s := match (s.grp c n).failing with
    | some (cause, r) => s.failNow c n cause r
    | none => s
  let st := s.grpState c n
  let rank := s.grpRank c n
  let w4 := s.grpW c n 4
  let s1 :=
    if 3 ≤ st then s.grpPut c n 4 (failWord (w4 / 2 ^ 32) 4 w4)
    else if st = 1 then match (s.grp c n).grpc.bind s.cmd? with
      | some m => ((s.grpPut c n 6 5).modGrp c n fun g => { g with grpc := none }).cmdError m 5
      | none => s
    else ((s.grpPut c n 4 (failWord (s.fseq c n).1 4 rank)).endColls c n).svGroupFailed c n
  let s2 := (s1.grpOthers c n).foldl (fun s r =>
    (s.sendPacket ((s.grp c n).members.getD r 0) (.leave (s.ctx c).tenant n (s.grpGen c n) rank) none).2) s1
  let s3 := (s2.grpPut c n 2 (s2.gcyc + 2 ^ 22)).grpSetState c n 4
  { s3 with quar := match s3.vpa c (s3.grpVa c n) with
      | some pa => s3.quar.filter (· != pa) ++ [pa]
      | none => s3.quar }

/-- DESTROY acts on each group that is not FREE as GRPF does. -/
def State.leaveAll (s : State) (c : Nat) : State :=
  (s.grps.filter fun g => g.ctx == c).foldl (fun s g => if s.grpState c g.idx = 0 then s else s.grpLeave c g.idx) s

/-- The image of a record leaving quarantine: every field but GEN, USED, STALE and DETOUR cleared. -/
def quarClear (w0 w3 : Nat) : List Byte :=
  bytesOf 8 (grpHead 0 0 (w0.testBit 17) false (bitsN w0 15 12) 0) ++ bytesOf 16 0 ++ bytesOf 8 w3 ++ bytesOf 32 0

/-- Quarantines that are over end (16 Table 16-2). -/
def State.quarTick (s : State) : State :=
  s.quar.foldl (fun s pa =>
    let w0 := s.rd64 pa
    if w0 % 8 ≠ 4 then { s with quar := s.quar.erase pa }
    else if s.rd64 (pa + 16) ≤ s.gcyc then
      ({ s with quar := s.quar.erase pa } : State).partPut 64 pa (quarClear w0 (s.rd64 (pa + 24)))
    else s) s

/-- QUARANTINE_END (16 R413): GCYC has reached QEND. -/
def execQuarantineEnd (ctx grp : Nat) (s : State) : Host.Outcome State Fault Refusal :=
  .next (
    if s.grpOk ctx grp && s.grpState ctx grp == 4 && decide (s.grpW ctx grp 2 ≤ s.gcyc) then
      match s.vpa ctx (s.grpVa ctx grp) with
      | some pa => ({ s with quar := s.quar.erase pa } : State).partPut ctx pa (quarClear (s.grpW ctx grp 0) (s.grpW ctx grp 3))
      | none => s
    else s)

/-- The table checks of 16 Table 16-3, code 2: the header, the entries that lie in the page, this package among them. -/
def State.tableBad (s : State) (hdr : List Nat) (ids : List Nat) (whole : Bool) : Bool :=
  let h := hdr.getD 0 0
  let n := h % 2 ^ 14
  decide (n < 2) || decide (8192 < n) || bitsN h 15 14 != 0 || bitsN h 19 17 != 0 || bitsN h 63 24 != 0 ||
  (hdr.drop 1).any (· != 0) || ids.any (fun w => decide (2 ^ 14 ≤ w)) || !decide ids.Nodup ||
  (whole && !ids.contains s.fab.fabid)

/-- GRPC (16 R411, R413, R415): of several causes the lowest code (08 R253).  A table whose page violates is not readable. -/
def State.startGrpc (s : State) (m : Cmd) : State :=
  let c := m.ctx
  let n := grpNum m
  let cap := cap0 m
  let ok := s.grpOk c n
  let readable := cap.pa % 64 == 0 && !s.violates (s.firmware m.key) cap.pa
  let (b, _, s1) := if cap.pa % 64 = 0 then s.engineRead m cap 64 else ([], false, s)
  let hdr := (List.range 8).map fun i => wordOf b (8 * i)
  let nn := hdr.getD 0 0 % 2 ^ 14
  let room := (cap.base + cap.size - cap.pa - 64) / 8
  let (eb, _, s2) := if readable then s1.engineRead m { cap with va := cap.va + 64, pa := cap.pa + 64 } (8 * min nn room) else ([], false, s1)
  let ids := (List.range (min nn room)).map fun i => wordOf eb (8 * i)
  let gen := bitsN (hdr.getD 0 0) 23 20
  let code := if ok && (s2.grpState c n != 0 || m.aux.getD 0 0 == 0) then 1
    else if readable && s2.tableBad hdr ids (decide (nn ≤ room)) then 2
    else if ok && readable && s2.grpUsed c n && s2.grpGen c n == gen then 3
    else if !ok || !readable || decide (room < nn) then 6 else 0
  if code ≠ 0 then (if ok then s2.grpPut c n 6 code else s2).cmdError m code
  else
    let rank := ids.findIdx (· == s2.fab.fabid)
    let dg := ofBytes ((sha3 (b ++ eb)).take 8)
    let s3 := ((s2.grpPut c n 0 (grpHead nn rank true ((hdr.getD 0 0).testBit 16) gen 1)).grpPut c n 1 (s2.grp c n).colls).grpPut c n 5 (cap.va % 2 ^ 52)
    let s4 := s3.modGrp c n fun g => { g with members := ids, digest := dg, joined := [], grpc := some m.id, packets := [] }
    (s4.grpOthers c n).foldl (fun s r =>
      (s.sendPacket (ids.getD r 0) (.join (s.ctx c).tenant n { member := rank, gen, n := nn, digest := dg }) none).2) s4

/-- GRPF. -/
def State.startGrpf (s : State) (m : Cmd) : State :=
  let c := m.ctx
  let n := grpNum m
  let st := s.grpState c n
  if !s.grpOk c n then s.cmdError m 6
  else if st = 0 ∨ st = 4 then (s.grpPut c n 6 1).cmdError m 1
  else ((s.grpLeave c n).grpPut c n 6 0).fire m.id

/-- GROUP_JOIN_RECEIVE (16 R413): a join is compared while FORMING; one of an earlier incarnation, or for a group already
formed, is dropped as stale; one that comes before this member's GRPC waits. -/
def execGroupJoinReceive (ctx grp : Nat) (join : GroupJoin) (s : State) : Host.Outcome State Fault Refusal :=
  .next (
    if (s.ctx ctx).st = .free then s
    else match s.takeDelivered fun d => d.2 == .join (s.ctx ctx).tenant grp join with
    | none => s
    | some (_, s1) =>
      let st := s.grpState ctx grp
      if !s.grpOk ctx grp then s1
      else if st = 1 then
        if join.gen = s1.grpGen ctx grp ∧ join.n = s1.grpN ctx grp ∧ join.digest = (s1.grp ctx grp).digest then
          let s2 := s1.modGrp ctx grp fun g => { g with joined := (g.joined ++ [join.member]).dedup }
          if (s2.grpOthers ctx grp).all fun r => (s2.grp ctx grp).joined.contains r then
            let s3 := (s2.grpSetState ctx grp 2).grpPut ctx grp 6 0
            let s4 := s3.modGrp ctx grp fun g => { g with grpc := none }
            match (s3.grp ctx grp).grpc with
            | some id => s4.fire id
            | none => s4
          else s2
        else s1.grpFail ctx grp 3 join.member
      else if st = 2 ∨ st = 3 ∨ (s1.grpUsed ctx grp && s1.grpGen ctx grp == join.gen) then s1.grpCount ctx grp false
      else s)

/-- MEMBER_FAILURE (16 R416, R417): the member's package has been declared unreachable (cause 1), or its leave notice has
arrived (cause 2).  Causes 3 and 4 arise in GROUP_JOIN_RECEIVE and GRPF. -/
def execMemberFailure (ctx grp cause member : Nat) (s : State) : Host.Outcome State Fault Refusal :=
  .next (
    if (s.ctx ctx).st = .free ∨ s.grpOk ctx grp = false then s
    else if cause = 1 then
      if decide (member < s.grpN ctx grp) && member != s.grpRank ctx grp && s.fab.unrch.contains ((s.grp ctx grp).members.getD member 16384) then
        s.grpFail ctx grp 1 member
      else s
    else if cause = 2 then
      match s.takeDelivered fun d => match d.2 with
          | .leave t g _ r => t == (s.ctx ctx).tenant && g == grp && r == member
          | _ => false with
      | some ((_, .leave _ _ gen _), s1) =>
        let st := s1.grpState ctx grp
        if (st = 1 ∨ st = 2) ∧ gen = s1.grpGen ctx grp then (if st = 2 then s1.grpFail ctx grp 2 member else s1)
        else s1.grpCount ctx grp false
      | _ => s
    else s)

/-- Every group with a member on a package now unreachable fails (17 R441). -/
def State.grpUnreachable (s : State) (x : Nat) : State :=
  s.grps.foldl (fun s g =>
    let st := s.grpState g.ctx g.idx
    match g.members.findIdx? (· == x) with
    | some r => if (st = 1 ∨ st = 2) ∧ r ≠ s.grpRank g.ctx g.idx then s.grpFail g.ctx g.idx 1 r else s
    | none => s) s

/-- COLLECTIVE_PACKET_RECEIVE (16 R412): a packet that is not for a context of its tenant with the group in FORMING or
ACTIVE, of its generation, and for a collective open or still to come, is dropped and counted. -/
def execCollectivePacketReceive (ctx : Nat) (pkt : CollPacket) (s : State) : Host.Outcome State Fault Refusal :=
  .next (
    let mine (c : Nat) : Bool := (s.ctx c).st != .free && (s.ctx c).tenant == pkt.tenant
    let holds (c : Nat) : Bool := mine c && s.grpOk c pkt.grp && (s.grpState c pkt.grp == 1 || s.grpState c pkt.grp == 2)
    let known := s.ctxs.any fun e => mine e.1
    if known && (!mine ctx || (!holds ctx && s.ctxs.any fun e => holds e.1)) then s
    else match s.takeDelivered fun d => d.2 == .coll pkt with
      | none => s
      | some (_, s1) =>
        let g := s1.grp ctx pkt.grp
        let due := if (kindObject pkt.kind).isSome then true
          else if (kindAgrees pkt.kind) then !g.agreed.contains pkt.seq else !g.ended.contains pkt.seq
        if holds ctx && pkt.gen == s1.grpGen ctx pkt.grp && due then
          s1.modGrp ctx pkt.grp fun g => { g with packets := g.packets ++ [pkt] }
        else if known && s1.grpOk ctx pkt.grp then s1.grpCount ctx pkt.grp false else s1)

/-! ### A collective runs (16 R421–R431) -/

/-- Whether an earlier collective of the group has not ended at this member. -/
def State.collBehind (s : State) (m : Cmd) : Bool :=
  s.cmds.any fun d => d.isColl && d.ctx == m.ctx && grpNum d == grpNum m && decide (d.id < m.id) && d.st != .done && d.st != .errWait

/-- A started COLL is judged against the group: it waits, opens, or ends (16 R413, R420). -/
def State.collOpen (s : State) (m : Cmd) : State :=
  let c := m.ctx
  let n := grpNum m
  let err (s : State) (code : Nat) : State := (s.collStatus m (statusWord 0 0 false false false 4) 0).cmdError m code
  let st := s.grpState c n
  if !s.grpOk c n ∨ st = 0 ∨ st = 4 then err s 1
  else if st = 3 then (s.collStatus m (statusWord 0 0 false false false 2) 0).fire m.id
  else if st = 1 ∨ s.collBehind m ∨ s.capsOwed m then s
  else
    let (b, _, s1) := s.engineRead m (cap0 m) 64
    match s1.collParse m ((List.range 8).map fun i => wordOf b (8 * i)) with
    | .inl code => err (s1.sendAll c n m.cid .bad).2 code
    | .inr (x, caps) =>
      let s2 := (s1.modCmd m.id fun m => { m with caps := m.caps.take 1 ++ caps }).sendAll c n m.cid (.start x.digest)
      { s2.2 with colls := s2.2.colls ++ [x] }

/-- COLL starts. -/
def State.startColl (s : State) (m : Cmd) : State := s.collOpen m

/-- Started COLLs that wait for ACTIVE or for their predecessor. -/
def State.collTick (s : State) : State :=
  (s.cmds.filter fun m => m.isColl && m.st == .running && !(s.colls.any fun x => x.cmd == m.id)).foldl (fun s m =>
    match s.cmd? m.id with
    | some m => if m.st == .running then s.collOpen m else s
    | none => s) s

/-- COLA starts, or waits for ACTIVE: it sends its word (08 R249). -/
def State.startCola (s : State) (m : Cmd) : State :=
  let c := m.ctx
  let n := grpNum m
  let st := s.grpState c n
  if !s.grpOk c n ∨ st = 0 ∨ st = 4 then s.cmdError m 1
  else if st = 3 then s.colaFail m
  else if st = 1 ∨ m.aux ≠ [] ∨ s.capsOwed m then s
  else
    let (b, _, s1) := s.engineRead m (cap0 m) 8
    let k : CollKind := .agree m.fn (BitVec.ofNat 64 (wordOf b 0))
    let s2 := (s1.modCmd m.id fun m => { m with aux := [1] }).sendColl c n m.cid (s1.grpRank c n) k
    (s2.2.sendAll c n m.cid k).2

/-- Started COLAs that wait for ACTIVE. -/
def State.colaTick (s : State) : State :=
  (s.cmds.filter fun m => m.isCola && m.st == .running && m.aux.isEmpty).foldl State.startCola s

/-- Whether every member has started the collective, and whether each is the same (16 R421). -/
def State.collAgreed (s : State) (x : Coll) : Bool × Bool :=
  let ps := s.packetsOf x.ctx x.grp x.seq fun k => match k with
    | .start _ => true
    | .bad => true
    | _ => false
  ((s.grpOthers x.ctx x.grp).all fun r => ps.any fun p => p.member == r, ps.all fun p => p.kind == .start x.digest)

/-- Reads a piece of a source within one line: a poisoned line is logged with kind 6 (16 R425). -/
def State.collPiece (s : State) (m : Cmd) (pa n : Nat) : List Byte × Bool × State :=
  let (bs, bad, s1) := s.quietPiece m pa n
  (bs, bad, if bad && !s.violates (s.firmware m.key) pa then s1.log m.ctx 6 (pa / 64 * 64) (agentField m.runner 2 false) else s1)

/-- Reads n bytes of a plain source from virtual address a: the bytes, and the pieces of them that are poisoned. -/
def State.collBytes (s : State) (m : Cmd) (a n : Nat) : List Byte × List (Nat × Nat) × State :=
  (splitLines a n).foldl (fun acc e =>
    let (bs, bad, s1) := acc.2.2.collPiece m (m.pagePa (a + e.1)) e.2
    (acc.1 ++ bs, if bad then acc.2.1 ++ [e] else acc.2.1, s1)) ([], [], s)

/-- Reads data line j of a record source: its elements with their codes and poison (02 R50, 16 R425). -/
def State.collLine (s : State) (m : Cmd) (x : Coll) (i j : Nat) : List (Ex × Nat × Bool) × State :=
  let c := x.ctx
  let per := s.recPer c i
  let va := runVa x.srcRuns j
  let pa := m.pagePa va
  let ver := s.recVer c i (tagVer (s.tag pa))
  let (bs, bad, s1) := s.collPiece m pa 64
  let (sc, bad2, s2) := match s.scaleLine c i (m.page va).base (m.page va).size pa with
    | some a => s1.collPiece m a 4
    | none => ([], false, s1)
  (if 2 ≤ s.recGeo c i then (decodeLine ver bs (sc.map BitVec.toNat) per).map fun v => (v, 0, bad || bad2)
   else (unpackLE (fmtBits (s.recSfmt c i)) per (ofBytes bs)).map fun k => (decCode (s.recSfmt c i) k, k, bad || bad2), s2)

/-- Elements [lo, lo + n) of this member's source: exact value, code where the side's format is wide, poison; the format
of the codes; and the state after the reads. -/
def State.collSource (s : State) (m : Cmd) (x : Coll) (lo n : Nat) : List (Ex × Nat × Bool) × Nat × State :=
  match x.src.getD none with
  | none =>
    let w := fmtBits x.fmt / 8
    let (bs, bad, s1) := s.collBytes m (x.srcVa + lo * w) (n * w)
    let xs := (unpackLE (8 * w) n (ofBytes bs)).zipIdx.map fun e =>
      (decCode x.fmt e.1, e.1, bad.any fun b => decide (b.1 < (e.2 + 1) * w) && decide (e.2 * w < b.1 + b.2))
    (xs, x.fmt, s1)
  | some i =>
    let per := s.recPer x.ctx i
    let (xs, s1) := (List.range ((n + per - 1) / per)).foldl (fun acc j =>
      let (l, s1) := acc.2.collLine m x i (lo / per + j)
      (acc.1 ++ l, s1)) (([] : List (Ex × Nat × Bool)), s)
    (xs, s.recSfmt x.ctx i, s1)

/-- What goes on the wire for source elements: their codes, or the wire elements of a scaled collective (16 R426). -/
def Coll.wire (x : Coll) (xs : List (Ex × Nat × Bool)) (fmt : Nat) : Nat × List (Nat × Bool) :=
  match x.scale with
  | some sw => (x.wfmt, xs.map fun e => ((convert e.1 x.wfmt .rne sw).1, e.2.2))
  | none => (fmt, xs.map fun e => e.2)

/-- The exact value of an element received in a contribution. -/
def Coll.value (x : Coll) (fmt code : Nat) : Ex :=
  match x.scale with
  | some sw => (decCode fmt code).scale sw
  | none => decCode fmt code

/-- The values of elements in a destination's format, under a scale exponent and block scales. -/
def dataValues (f : Nat) (scale : Int) (blocks codes : List Nat) : List Ex :=
  codes.zipIdx.map fun e =>
    ((if f = 5 ∨ f = 6 then decMx e.1 (blocks.getD (e.2 / 32) 0) else decCode f e.1)).scale scale

/-- An element on its way into a destination: its value, the code to copy as it stands where formats agree, poison. -/
abbrev Landing := Ex × Option (Nat × Nat) × Bool

/-- Writes elements from `lo` on into this member's destination (16 R424, R425, R427). -/
def State.collWrite (s : State) (m : Cmd) (x : Coll) (lo : Nat) (vals : List Landing) : State :=
  let c := x.ctx
  let side := x.dst.getD none
  let req : Req := { id := 0, key := engKey m.id, acc := 0, ctx := c, kind := .drain 0 }
  let keep (fmt : Nat) (v : Landing) : Option Nat := match v.2.1 with
    | some (f, k) => if f = fmt then some k else none
    | none => none
  let psn := vals.any fun v => v.2.2
  let note (s : State) (wv : Option Nat) : State :=
    { s with colls := s.colls.map fun y => if y.cmd = x.cmd then { y with psn := y.psn || psn, wv } else y }
  match side with
  | none =>
    let w := fmtBits x.fmt / 8
    let bs := vals.flatMap fun v => bytesOf w ((keep x.fmt v).getD (convert v.1 x.fmt .rne 0).1)
    let a := x.dstVa + lo * w
    note ((splitLines a bs.length).foldl (fun s e =>
      let bad := ((vals.drop (e.1 / w)).take ((e.1 + e.2 + w - 1) / w - e.1 / w)).any fun v => v.2.2
      s.storeNow req (m.pagePa (a + e.1)) ((bs.drop e.1).take e.2) (some 0) bad none) s) x.wv
  | some i =>
    let v := x.wv.getD (s.recWv c i)
    let ver := s.recVer c i v
    let per := s.recPer c i
    let f := verFmt ver
    let geo := s.recGeo c i
    let s1 := (List.range ((vals.length + per - 1) / per)).foldl (fun s j =>
      let l := (vals.drop (per * j)).take per
      let (codes, scales, cls) := encodeLine ver (l.map Prod.fst) fun _ => .rne
      let codes := if geo ≥ 2 then codes else (l.zip codes).map fun e => (keep f e.1).getD e.2
      let bad := l.any fun e => e.2.2
      let va := runVa x.dstRuns (lo / per + j)
      let pa := m.pagePa va
      let cap := m.page va
      let bound := some (i, cap.base, cap.size)
      let s1 := s.storeNow req pa (bytesOf 64 (packLE (if f = 5 ∨ f = 6 then 4 else fmtBits f) codes)) (some v) bad bound
      let s2 := if scales.isEmpty then s1
        else s1.storeNow req (cap.base + dataRegion cap.size + 4 * ((pa - cap.base) / 64))
          (bytesOf 4 (packLE 8 scales)) (some 0) bad bound
      s2.report (384 + m.runner) c i (l.map Prod.fst) cls true) s
    note s1 (some v)

/-- comb of 16 R424. -/
def comb (rop : Nat) (int : Bool) (p q : Ex) : Ex :=
  if int then
    let n (x : Ex) : Int := match x with
      | .fin s k e => dyad s (roundUnits k e 0 .rtz)
      | _ => 0
    let r : Int := if rop = 0 then n p + n q else if rop = 1 then max (n p) (n q) else min (n p) (n q)
    decInt 32 (wrapN r 32)
  else d32 (r32 (if rop = 0 then p.add q else if rop = 1 then p.max2 q else p.min2 q))

/-- part(a, b) of 16 R424, over contributions a … b−1. -/
def combPart (cb : Ex → Ex → Ex) (xs : List Ex) (fuel a b : Nat) : Ex :=
  match fuel with
  | 0 => xs.getD a .nan
  | fuel + 1 =>
    if b - a ≤ 1 then xs.getD a .nan
    else
      let m := a + 2 ^ (clog2 (b - a) - 1)
      cb (combPart cb xs fuel a m) (combPart cb xs fuel m b)

/-- The result of one element in plan order (16 R424): o is the owner. -/
def combine (alg o : Nat) (cb : Ex → Ex → Ex) (xs : List Ex) : Ex :=
  let n := xs.length
  if alg = 1 then (List.range (n - 1)).foldl (fun acc t => cb acc (xs.getD ((o + t + 2) % n) .nan)) (xs.getD ((o + 1) % n) .nan)
  else if alg = 4 then (xs.drop 1).foldl cb (xs.getD 0 .nan)
  else combPart cb xs n 0 n

/-- The piece of this member's source that chunk k of rank r's destination takes, in a collective that moves data: first
source element, count (16 R420). -/
def Coll.piece (x : Coll) (n me r k : Nat) : Option (Nat × Nat) :=
  let lo := 4096 * k
  let hi := min (lo + 4096) (x.dstElems n)
  let a := max lo (me * x.elems)
  let b := min hi ((me + 1) * x.elems)
  match x.op with
  | 2 => if a < b then some (a - me * x.elems, b - a) else none
  | 4 => if a < b then some (r * x.elems + (a - me * x.elems), b - a) else none
  | 3 => if me = x.root then some (lo, hi - lo) else none
  | 5 => if r = (if x.rev then (me + n - 1) % n else (me + 1) % n) then some (lo, hi - lo) else none
  | _ => none

/-- The owner of a chunk of a reduction. -/
def Coll.owner (x : Coll) (n k : Nat) : Nat := if x.op = 6 then x.root else k % n

/-- The destinations a chunk of a reduction is formed for, and the first source element of each. -/
def Coll.dests (x : Coll) (n k : Nat) : List (Nat × Nat) :=
  if x.op = 1 then (List.range n).map fun r => (r, r * x.elems + 4096 * k) else [(0, 4096 * k)]

def State.modColl (s : State) (id : Nat) (f : Coll → Coll) : State :=
  { s with colls := s.colls.map fun x => if x.cmd = id then f x else x }

/-- A chunk crossed a detour.  At the first, with DET = 0, every chunk not started is re-planned (16 R428, R429). -/
def State.collDetour (s : State) (x : Coll) (k : Nat) (d : Bool) : State :=
  match s.colls.find? fun y => y.cmd == x.cmd with
  | none => s
  | some y =>
    if !d || y.detours.contains k then s
    else (s.grpCount x.ctx x.grp true).modColl x.cmd fun y => { y with
      detours := y.detours ++ [k]
      replanned := if s.grpDet x.ctx x.grp then none else y.replanned.or (some y.started)
      replan := y.replan || (!s.grpDet x.ctx x.grp && y.replanned.isNone &&
        (List.range (y.chunks (s.grpN x.ctx x.grp))).any fun j => !y.started.contains j) }

/-- This member reads its part of chunk k and sends it to those that take it. -/
def State.collSend (s : State) (m : Cmd) (x : Coll) (k : Nat) : State :=
  let c := x.ctx
  let n := s.grpN c x.grp
  let me := s.grpRank c x.grp
  let cnt := min 4096 (x.elems - 4096 * k)
  let s0 := s.modColl x.cmd fun y => { y with started := y.started ++ [k] }
  if isReduction x.op then
    (x.dests n k).foldl (fun s e =>
      let (xs, fmt, s1) := s.collSource m x e.2 cnt
      let (f, vs) := x.wire xs fmt
      let (d, s2) := s1.sendColl c x.grp x.seq (x.owner n k) (.part e.1 k f vs)
      s2.collDetour x k d) s0
  else
    -- a piece that several members take is read once
    ((List.range n).foldl (fun (acc : State × Option ((Nat × Nat) × Nat × List (Nat × Bool))) r => match x.piece n me r k with
      | none => acc
      | some (lo, len) =>
        let (e, s1) : ((Nat × Nat) × Nat × List (Nat × Bool)) × State := match acc.2.filter fun e => e.1 == (lo, len) with
          | some e => (e, acc.1)
          | none =>
            let (xs, fmt, s1) := acc.1.collSource m x lo len
            (((lo, len), x.wire xs fmt), s1)
        let (d, s2) := s1.sendColl c x.grp x.seq r (.data k e.2.1 (x.scale.getD 0) [] e.2.2 false)
        (s2.collDetour x k d, some e)) (s0, none)).1

/-- A chunk is complete at this member. -/
def State.collDone (s : State) (x : Coll) (k : Nat) (direct : Bool) : State :=
  s.modColl x.cmd fun y => { y with done := y.done ++ [k], replan := y.replan || direct }

/-- Whether a chunk of an open collective is re-planned: it had not started when the first detour was taken. -/
def Coll.direct (x : Coll) (k : Nat) : Bool := match x.replanned with
  | some l => !l.contains k
  | none => false

/-- The owner forms chunk k for one destination, once every contribution is here: what it converts and sends (16 R424). -/
def State.collForm (s : State) (x : Coll) (k dest : Nat) : Option (List Landing × Bool) :=
  let c := x.ctx
  let n := s.grpN c x.grp
  let got := (List.range n).map fun r => firstSome (s.packetsOf c x.grp x.seq fun _ => true) fun p => match p.kind with
    | .part d j f vs => if p.member = r ∧ d = dest ∧ j = k then some (f, vs, p.detour) else none
    | _ => none
  if got.any Option.isNone then none
  else
    let ps := got.filterMap id
    let len := ps.foldl (fun a p => max a p.2.1.length) 0
    let int := ps.any fun p => p.1 == 8
    let alg := if x.direct k then 4 else x.algrun
    some ((List.range len).map fun i =>
      let r := combine alg (x.owner n k) (comb x.rop int) (ps.map fun p => x.value p.1 (p.2.1.getD i (0, false)).1)
      (r, none, ps.any fun p => (p.2.1.getD i (0, false)).2), ps.any fun p => p.2.2)

/-- A formed result as it stands in the owner's destination, converted once, at the owner (16 R424): its format, scale exponent,
block scales and codes.  The owner's write has chosen the version (16 R427). -/
def State.collResult (s : State) (x : Coll) (vals : List Ex) : Nat × Int × List Nat × List Nat :=
  match x.dst.getD none with
  | none => (x.fmt, 0, [], vals.map fun v => (convert v x.fmt .rne 0).1)
  | some i =>
    let ver := s.recVer x.ctx i (x.wv.getD (s.recWv x.ctx i))
    let per := s.recPer x.ctx i
    let lines := (List.range ((vals.length + per - 1) / per)).map fun j => encodeLine ver ((vals.drop (per * j)).take per) fun _ => .rne
    (verFmt ver, verScale ver, lines.flatMap fun l => l.2.1, lines.flatMap fun l => l.1)

/-- The data of a chunk that has come from a rank: its landings, whether it was re-planned, whether it crossed a detour.  Codes
under no scale are copied as they stand where the formats agree. -/
def State.collData (s : State) (x : Coll) (k r : Nat) : Option (List Landing × Bool × Bool) :=
  firstSome (s.packetsOf x.ctx x.grp x.seq fun _ => true) fun p => match p.kind with
    | .data j f sc bl vs direct =>
      if p.member = r ∧ j = k then
        some (((dataValues f sc bl (vs.map Prod.fst)).zip vs).map fun e =>
          (e.1, if sc = 0 ∧ bl = [] then some (f, e.2.1) else none, e.2.2), direct, p.detour)
      else none
    | _ => none

/-- What stands in a chunk of this member's destination once all of it is here. -/
def State.collFinish (s : State) (m : Cmd) (x : Coll) (k : Nat) : State :=
  let c := x.ctx
  let n := s.grpN c x.grp
  let me := s.grpRank c x.grp
  let own := x.owner n k
  if isReduction x.op then
    if own = me then
      let forms := (x.dests n k).map fun e => (e.1, s.collForm x k e.1)
      if forms.any fun f => f.2.isNone then s
      else
        let dir := x.direct k
        let s1 := forms.foldl (fun s f => match f.2 with
          | none => s
          | some (vals, det) =>
            let s1 := s.collDetour x k det
            let s2 := if x.op ≠ 1 ∨ f.1 = me then s1.collWrite m x (4096 * k) vals else s1
            let (fmt, sc, bl, codes) := s2.collResult ((s2.colls.find? fun y => y.cmd == x.cmd).getD x) (vals.map Prod.fst)
            let vs := codes.zip (vals.map fun v => v.2.2)
            let outs := if x.op = 0 then s2.grpOthers c x.grp else if x.op = 1 ∧ f.1 ≠ me then [f.1] else []
            outs.foldl (fun s r =>
              let (d, s3) := s.sendColl c x.grp x.seq r (.data k fmt sc bl vs dir)
              s3.collDetour x k d) s2) s
        s1.collDone x k dir
    else if x.op = 6 then s.collDone x k false
    else match s.collData x k own with
      | none => s
      | some (vals, dir, det) => ((s.collDetour x k det).collWrite m x (4096 * k) vals).collDone x k dir
  else
    let from_ := (List.range n).filter fun r => (x.piece n r me k).isSome
    let got := from_.map fun r => s.collData x k r
    if got.any Option.isNone then s
    else
      let ps := got.filterMap id
      ((s.collDetour x k (ps.any fun p => p.2.2)).collWrite m x (4096 * k) (ps.flatMap fun p => p.1)).collDone x k (x.direct k)

/-- COLLECTIVE_CHUNK_COMPLETE (16 R424): this member's part of a chunk: it reads and sends its contribution, and when all
that the chunk takes is here the owner forms it, writes and sends it, and a receiver writes it. -/
def execCollectiveChunkComplete (cmd chunk : Nat) (s : State) : Host.Outcome State Fault Refusal :=
  .next (match s.colls.find? fun x => x.cmd == cmd, s.cmd? cmd with
    | some x, some m =>
      let n := s.grpN x.ctx x.grp
      if s.collAgreed x != (true, true) || (x.wfmt != 0 && x.scale.isNone) || decide (x.chunks n ≤ chunk) || x.done.contains chunk ||
          s.capsOwed m then s
      else
        let s1 := if x.started.contains chunk then s else s.collSend m x chunk
        match s1.colls.find? fun x => x.cmd == cmd with
        | some x1 => s1.collFinish m x1 chunk
        | none => s1
    | _, _ => s)

/-- e_m of 16 R426: the largest exponent of this member's finite nonzero source elements; -128 if there is none. -/
def State.collExp (s : State) (m : Cmd) (x : Coll) : Int :=
  let n := s.grpN x.ctx x.grp
  let es := if x.src.isNone then [] else ((s.collSource m x 0 (x.srcElems n)).1).filterMap fun e => e.1.exp?
  match es with
  | [] => -128
  | e :: r => r.foldl max e

/-- The reads of a member's source, as a coherent agent's (10 R291). -/
def State.collShare (s : State) (m : Cmd) (x : Coll) : State :=
  let n := x.srcElems (s.grpN x.ctx x.grp)
  match x.src with
  | none => s
  | some none => (splitLines x.srcVa (s.sideBytesOf x.ctx none x.fmt n)).foldl (fun s e => s.othersRead (m.pagePa (x.srcVa + e.1) / 64) 500) s
  | some (some i) => (List.range (s.recLines x.ctx i n)).foldl (fun s j => s.othersRead (m.pagePa (runVa x.srcRuns j) / 64) 500) s

/-- SCALE_AGREEMENT_DONE (16 R426): `exp` is the maximum over the other members. -/
def execScaleAgreementDone (cmd : Nat) (exp : Int) (s : State) : Host.Outcome State Fault Refusal :=
  .next (match s.colls.find? fun x => x.cmd == cmd, s.cmd? cmd with
    | some x, some m =>
      if s.collAgreed x != (true, true) || x.wfmt == 0 || x.scale.isSome || s.capsOwed m then s
      else
        let e := max (s.collExp m x) exp
        let g : Int := if isReduction x.op && x.rop == 0 then clog2 (s.grpN x.ctx x.grp) else 0
        let emaxf : Int := if x.wfmt = 3 then 8 else 15
        let sw : Int := if e = -128 then 0 else min (max (e + g + 1 - emaxf) (-32)) 31
        (s.collShare m x).modColl cmd fun x => { x with scale := some sw }
    | _, _ => s)

/-- The agreed word of a COLA (08 R249). -/
def agreedWord (op : Nat) (ws : List W64) : W64 :=
  match ws with
  | [] => 0
  | w :: r => r.foldl (fun a b =>
      if op = 0 then (if a.toInt < b.toInt then b else a) else if op = 1 then (if b.toInt < a.toInt then b else a)
      else if op = 2 then a + b else a ||| b) w

/-- COLLECTIVE_END (16 R419, R421, 08 R249): every chunk is complete here, or the members' descriptors differ; or every
member's word of a COLA is here. -/
def execCollectiveEnd (cmd : Nat) (s : State) : Host.Outcome State Fault Refusal :=
  .next (match s.cmd? cmd with
    | none => s
    | some m =>
      if m.isCola && m.st == .running && m.aux != [] then
        let c := m.ctx
        let n := grpNum m
        let got := (List.range (s.grpN c n)).map fun r => firstSome (s.packetsOf c n m.cid kindAgrees) fun p => match p.kind with
          | .agree op w => if p.member = r then some (op, w) else none
          | _ => none
        if got.any Option.isNone then s
        else
          let ps := got.filterMap id
          let s1 := s.modGrp c n fun g => { g with
            agreed := g.agreed ++ [m.cid], packets := g.packets.filter fun p => !(p.seq == m.cid && (kindAgrees p.kind)) }
          if ps.any fun p => p.1 != m.fn then s1.cmdError m 2
          else (s1.engineWrite m (cap0 m) (bytesOf 8 (agreedWord m.fn (ps.map Prod.snd)).toNat)).fire m.id
      else match s.colls.find? fun x => x.cmd == cmd with
        | none => s
        | some x =>
          let n := s.grpN x.ctx x.grp
          if !(s.collAgreed x).2 then s.collClose m x 3 0
          else if (List.range (x.chunks n)).all fun k => x.done.contains k then s.collClose m x 1 (x.chunks n)
          else s)

end Sys2Proof.Machine
end

