-- ==== Sys2Proof/Machine/Context.lean ====
section
/-! DEFINITION. Contexts, fault records, resumption, pre-emption and the save slot (04 R131, 12). -/

namespace Sys2Proof.Machine

open Sys2Proof

/-! ### Writing a fault record (12 R342–R345, R348) -/

/-- The 128 bytes of a record (12 Tables 12-7, 12-8). -/
def recImage (seq : Nat) (r : Rec) : List Byte :=
  bytesOf 8 (seq % 2 ^ 32 * 2 ^ 32 + r.kind * 2 ^ 24 + r.srcCode * 2 ^ 16 + r.idField % 4096) ++
  bytesOf 8 r.baddr ++ bytesOf 8 r.slots ++ bytesOf 8 r.scyc ++ bytesOf 8 r.gcyc ++ bytesOf 8 r.det0 ++ bytesOf 8 r.det1 ++
  bytesOf 8 (min r.loops.length 6) ++ ((List.range 6).flatMap fun i => bytesOf 8 (r.loops.getD i 0)) ++
  bytesOf 8 (r.ctx % 64 + b2n r.rerouted * 256) ++ bytesOf 8 0

/-- Where a record's queue stands: its base and its record slots. -/
def State.fqBase (s : State) (r : Rec) : Nat := if r.fw then fld s.sys.fwqbase 49 12 * 4096 else s.cword r.ctx 0x30
def State.fqCnt (s : State) (r : Rec) : Nat := if r.fw then fld s.sys.fwqcnt 16 0 else s.cword r.ctx 0x38

/-- Reads and writes of a queue: physical for firmware's, virtual for a context's. -/
def State.fqRead (s : State) (r : Rec) (a : Nat) : Nat := if r.fw then s.rd64 a else s.vrdN r.ctx a 8
def State.fqWrite (s : State) (r : Rec) (a : Nat) (bs : List Byte) : State :=
  if r.fw then forN ((bs.length + 63) / 64) s fun i s => s.partPut 64 (a + 64 * i) ((bs.drop (64 * i)).take 64)
  else s.vwrRun r.ctx a bs

/-- Whether a queue's page at an address can be reached.  A record whose queue is not mapped waits: the part drops none (12 R344). -/
def State.fqMapped (s : State) (r : Rec) (a : Nat) : Bool := r.fw || (s.vpa r.ctx a).isSome

/-- What follows a record once it is written: FLTREC of the partition that parked (12 R345), and the ticket of a command
error (12 R344). -/
def State.recDone (s : State) (r : Rec) (va : Nat) : State :=
  let s1 : State := { s with recs := s.recs.filter fun q => q.id != r.id }
  let s2 := match r.parks with
    | some p => s1.modTh p fun t => { t with fltrec := BitVec.ofNat 64 va }
    | none => s1
  match r.cmd with
  | some id => (match s2.cmd? id with
    | some m => s2.svRecord m
    | none => s2).fire id
  | none => s2

/-- FAULT_RECORD_WRITE (12 R343, R344): the first record waiting of its source enters its queue, if there is space. -/
def execFaultRecordWrite (rec : Nat) (s : State) : Host.Outcome State Fault Refusal :=
  .next (match s.recs.find? fun r => r.id == rec with
    | none => s
    | some r =>
      let base := s.fqBase r
      let cnt := s.fqCnt r
      let tail := s.fqRead r base
      if (s.recs.any fun q => q.src == r.src && q.fw == r.fw && (r.fw || q.ctx == r.ctx) && decide (q.id < r.id)) || cnt == 0 ||
          !s.fqMapped r base then s
      else if tail < s.fqRead r (base + 8) + cnt then
        let va := base + 0x80 + 128 * (tail % cnt)
        if s.fqMapped r va then (((s.fqWrite r va (recImage (tail + 1) r)).fqWrite r base (bytesOf 8 (tail + 1)))).recDone r va
        else s
      else if r.counted then s
      else
        { s.fqWrite r (base + 16) (bytesOf 8 (s.fqRead r (base + 16) + 1)) with
          recs := s.recs.map fun q => if q.id == r.id then { q with counted := true } else q })

/-! ### Reloading the editable fields (12 R352, R519) -/

/-- A handle of a save image (12 Table 12-12); a code outside the table resumes INVALID. -/
def handleOf (w : Nat) : Handle :=
  let va := bitsN w 51 12 * 4096
  match w % 8 with
  | 1 => { st := .pending, va }
  | 2 => { st := .failed, va }
  | 3 => { st := .revoked, va }
  | _ => {}

/-- A handle whose walk starts again: VALID becomes PENDING (05 R137). -/
def Handle.again (h : Handle) : Handle := if h.st = .valid then { st := .pending, va := h.va } else h
def Thr.handlesAgain (t : Thr) : Thr := { t with hs := t.hs.map fun e => (e.1, e.2.again) }

/-- Reloads S1–S63, P1–P15 and the handles of an image at va; an image that cannot be read leaves the part's own copy. -/
def State.reload (s : State) (c va : Nat) (t : Thr) : Thr :=
  if (s.vpa c va).isNone then t.handlesAgain
  else
    let t1 := (List.range 63).foldl (fun t i => t.setS (i + 1) (BitVec.ofNat 64 (s.vrdN c (va + 0x400 + 8 * (i + 1)) 8)) (t.sBad (i + 1))) t
    let t2 : Thr := { t1 with pr := BitVec.ofNat 16 (s.vrdN c (va + 0x2E0) 8) ||| 1#16 }
    (List.range 32).foldl (fun t i => t.setH i (handleOf (s.vrdN c (va + 0x1E0 + 8 * i) 8))) t2

/-! ### PRES (04 R131, 12 R353, 07 R207) -/

/-- What the multiply-accumulate stopped by cause FORMAT does at resumption (07 R207): it is read again, or abandoned. -/
def Thr.resumeMat (t : Thr) (skip : Bool) : Thr :=
  if !t.park.matFormat then t
  else match t.mats.find? fun m => !m.abandoned && fld (getD 0 t.prog m.bank) 9 8 == 2 with
    | none => t
    | some m =>
      let st := if skip then 3 else 1
      (t.setMat { m with abandoned := skip }).setProg m.bank (progWord (t.cause m.bank) m.op st m.groups m.next)

/-- PRES.skip discards the parked bundle: the next one follows, after the loop end check, and SCYC advances by one. -/
def State.skipBundle (s : State) (p : Nat) : State :=
  let t := s.th p
  let next := s.bundleAfter p t.pc
  let s1 := if t.inDelay then s.setTh p { t with pc := next }
    else match t.loops.head? with
      | some e => if e.stop = t.pc then endCheck p t.pc next 7 s else s.setTh p { t with pc := next }
      | none => s.setTh p { t with pc := next }
  s1.modTh p fun t => { t with scyc := (t.scyc + 1) % 2 ^ 64, elap := t.elap + 1 }

/-- The resumption itself (12 R353).  PRES.skip discards the parked bundle; after a TRAP, whose bundle has committed, there is none,
and it acts as PRES: a DESIGN CHOICE (notes/assumptions/104). -/
def State.doResume (s : State) (p : Nat) (skip : Bool) : State :=
  let c := s.ctxOf p
  let t := s.th p
  let va := s.slotAddr c ((t.task.map TaskRef.slot).getD p)
  let sr := match s.vpa c va with
    | some _ => BitVec.ofNat 64 (s.vrdN c (va + 0x330) 8)
    | none => t.srstate
  let t1 : Thr := { (s.reload c va t).resumeMat skip with
    srstate := sr, drth := drthOf (s.ctx c).cdbg, park := {}, savedMode := .idle
    mode := if (t.task.map TaskRef.fin).getD false then .finishing else .running }
  let s1 := s.setTh p t1
  if skip && t.park.reissue then s1.skipBundle p else s1

/-- Stops a partition's task to save it: at a bundle boundary at the end of this cycle (03 R96).  A task whose FIN has committed
goes on to its release (11 Table 11-4), its debug stop at an end (19 Table 19-3), and one that PRES is about to resume is stopped after
that (12 Table 12-10). -/
def State.stopToSave (s : State) (p : Nat) : State :=
  let t := s.th p
  if t.mode == .finishing && t.park.resume.isNone then s.modTh p fun t => { t with dbg := {} }
  else if t.task.isNone || t.mode == .saving || t.mode == .idle || t.park.resume.isSome then s
  else (s.stallEnd p).modTh p fun t => { t with savedMode := t.mode, mode := .saving }

/-- A pending resumption whose command stream's earlier stores have performed takes place (12 R353); a PREEMPT that came meanwhile
then stops the task. -/
def State.resumeOne (s : State) (p : Nat) : State :=
  let t := s.th p
  match t.mode, t.park.resume with
  | .parked, some (k, before, skip) =>
    if s.reqs.any fun r => r.key == k && decide (r.id < before) && r.kind.writes then s
    else
      let s1 := s.doResume p skip
      if (s1.ctx (s1.ctxOf p)).st == .saving then s1.stopToSave p else s1
  | _, _ => s

/-- Every resumption that may take place. -/
def State.resumeTick (s : State) : State := (s.thr.map Prod.fst).foldl State.resumeOne s

/-- The status of PRES and PRES.skip (04 Table 4-10). -/
def State.presStatus (s : State) (c p : Nat) (skip : Bool) : Nat :=
  if !(s.ctx c).allot.contains p then 2
  else if (s.th p).mode != .parked || (s.th p).park.resume.isSome then 1
  else if skip && (s.th p).park.fetch then 4 else 0

/-- PRES and PRES.skip. -/
def presOp (x : RR1) (lgl skip : Bool) : SlotOp :=
  { g := x.g.toNat, gn := x.n == 1, legal := lgl, whr := .csOnly, dsts := [.s x.d.toNat], srcS := [x.a.toNat]
    eff := fun c s =>
      let p := (c.sv x.a.toNat).toNat
      let st := c.s.presStatus c.cx p skip
      let s1 := if st = 0 then s.modTh p fun t => { t with park := { t.park with resume := some (c.k, c.s.nextId, skip) } } else s
      s1.fly c.k 1 (.s x.d.toNat (BitVec.ofNat 64 st) false) }

/-- PRES (R131). -/
def opPres (x : RR1) : SlotOp := presOp x (legal (.pres x)) false
def execPres (x : RR1) (s : State) : Host.Outcome State Fault Refusal :=
  issueOne 0 (encWord (.pres x)) (opPres x) s

/-- PRES_SKIP (R131). -/
def opPresSkip (x : RR1) : SlotOp := presOp x (legal (.presSkip x)) true
def execPresSkip (x : RR1) (s : State) : Host.Outcome State Fault Refusal :=
  issueOne 0 (encWord (.presSkip x)) (opPresSkip x) s

/-- A context's saved task in the slot of a partition, with the snapshot (12 R356). -/
def State.savedAt (s : State) (c slot : Nat) : Option Thr := (s.saved.find? fun e => e.1 == c * 4096 + slot).map Prod.snd

/-- Takes a saved task out of every queue of tasks to resume. -/
def State.unqueue (s : State) (c slot : Nat) : State :=
  { s with thr := s.thr.map fun e =>
      if e.1 < csBase && s.owner e.1 == some c then (e.1, { e.2 with resumed := e.2.resumed.filter fun j => j.slot != slot }) else e }

/-- The partition a saved task of a slot is queued on, else the slot's own: the one whose channels it uses. -/
def State.queuedOn (s : State) (c slot : Nat) : Nat :=
  match s.thr.find? fun e => decide (e.1 < csBase) && s.owner e.1 == some c && e.2.resumed.any fun j => j.slot == slot with
  | some e => e.1
  | none => slot

/-- Whether a partition can take a migrated task: no task on it or queued for it to resume, and its core powered. -/
def State.idleTarget (s : State) (p : Nat) : Bool :=
  (s.th p).mode == .idle && (s.th p).resumed.isEmpty && !s.gated.contains (coreOf p)

/-- PRES_MIG (R360). -/
def opPresMig (x : PresMig) : SlotOp :=
  { g := x.g.toNat, gn := x.n == 1, legal := legal (.presMig x), whr := .csOnly, dsts := [.s x.d.toNat]
    srcS := [x.a.toNat, x.b.toNat]
    eff := fun c s =>
      let a := (c.sv x.a.toNat).toNat
      let b := (c.sv x.b.toNat).toNat
      let j := if a < 3072 then (c.s.savedAt c.cx a).bind Thr.task else none
      let st := if !(c.s.ctx c.cx).allot.contains b then 2
        else if j.isNone then 1 else if !c.s.idleTarget b then 3 else 0
      let s1 := match st, j with
        | 0, some j => ((s.unqueue c.cx a).rebind c.cx (c.s.queuedOn c.cx a) b).modTh b fun t => { t with resumed := [{ j with slot := a }] }
        | _, _ => s
      s1.fly c.k 1 (.s x.d.toNat (BitVec.ofNat 64 st) false) }
def execPresMig (x : PresMig) (s : State) : Host.Outcome State Fault Refusal :=
  issueOne 0 (encWord (.presMig x)) (opPresMig x) s

/-! ### PKILL (12 R354) -/

/-- What an issuer under its old key was ordered after, it is under its new one (10 R299, 12 R360). -/
def knownAs (old new_ : Nat) (known : Map Nat) : Map Nat :=
  match known.find? fun e => e.1 == agentOfKey old with
  | some e => putK known (agentOfKey new_) e.2
  | none => known

/-- Renames the issuer of commands and requests, and of what a scratchpad line waits for.  A request stays one of the partition it was
issued from, whose tracker holds its entry (05 R146). -/
def State.rename (s : State) (old new_ : Nat) : State :=
  { s with
    cmds := s.cmds.map fun m => if m.key == old then { m with key := new_ } else m
    reqs := s.reqs.map fun r => if r.key == old then { r with key := new_, agent := some r.who } else r
    unjoined := s.unjoined.map fun u => { u with own := if u.own == old then new_ else u.own, known := knownAs old new_ u.known }
    bounce := s.bounce.map fun b => { b with own := if b.own == old then new_ else b.own, known := knownAs old new_ b.known } }

/-- What is discarded with a task: bank loads under way, and the multiply-accumulates' and transfers' tickets fire. -/
def State.dropWork (s : State) (k : Nat) (t : Thr) : State :=
  let s1 : State := { s with reqs := s.reqs.filter fun r => !(r.key == k && match r.kind with
    | .acld .. => true
    | _ => false) }
  (t.mats.map MatRun.cmd ++ t.xfers.map Xfer.cmd ++ (s.cmds.filter fun m => m.key == k && m.due.isSome).map Cmd.id).foldl State.fire s1

/-- The rows of bank stores into the scratchpad that the task had committed are written (12 R354). -/
def State.writeRows (s : State) (p : Nat) (t : Thr) : State :=
  t.xfers.foldl (fun s y =>
    if y.sp && !y.load then
      (y.rows.zip y.data).foldl (fun s r => match s.spFrame (s.ctxOf p) (clusterOf p) r.1 with
        | some _ => s.spWrite false (s.ctxOf p) (clusterOf p) r.1 p y.cmd r.2 none
        | none => s) s
    else s) s

/-- The contents of a killed task's save slot are not defined (12 R354): free bytes (log 60). -/
def State.loseSlot (s : State) (c slot : Nat) : State :=
  ({ s with fresh := s.fresh + 1 } : State).vwrRun c (s.slotAddr c slot) ((List.range 0x2B000).map (Config.killedSlot s.fresh))

/-- A task ends as KILLED: it retires without signals. -/
def State.killTask (s : State) (c count : Nat) : State :=
  match s.tasks.find? fun x => x.ctx == c && x.count == count with
  | none => s
  | some x => s.retireTask x true false

/-- Ends the task on a partition: what it computes is discarded and the partition is released at once. -/
def State.killRunning (s : State) (p : Nat) : State :=
  let t := s.th p
  let c := s.ctxOf p
  let s1 := ((s.writeRows p t).dropWork p t).release p
  let s2 := s1.modTh p fun t => { t with
    flight := [], mats := [], xfers := [], pend := none, empty := false, loops := [], rules := [], park := {}, matStop := none
    held := none, needs := [], missed := none, dbg := {} }
  match t.task with
  | none => s2
  | some j => (s2.killTask c j.count).loseSlot c j.slot

/-- Ends a saved task as KILLED; its save slot stands as it is. -/
def State.endSaved (s : State) (c slot : Nat) : State :=
  match s.savedAt c slot with
  | none => s
  | some t =>
    let s1 := (((s.dropWork (savedKey c slot) t).rename (savedKey c slot) (goneKey c slot))).unqueue c slot
    let s2 : State := { s1 with saved := s1.saved.filter fun e => e.1 != c * 4096 + slot }
    match t.task with
    | none => s2
    | some j => s2.killTask c j.count

/-- PKILL ends a saved task. -/
def State.killSaved (s : State) (c slot : Nat) : State :=
  if (s.savedAt c slot).isSome then (s.endSaved c slot).loseSlot c slot else s

/-- PKILL (R354).  A task whose FIN has committed and which is not yet released is neither running, parked nor saved: the status is 1,
and it is left to its release (DESIGN CHOICE, notes/assumptions/144). -/
def opPkill (x : RR1) : SlotOp :=
  { g := x.g.toNat, gn := x.n == 1, legal := legal (.pkill x), whr := .csOnly, dsts := [.s x.d.toNat], srcS := [x.a.toNat]
    eff := fun c s =>
      let p := (c.sv x.a.toNat).toNat
      let st := if !(c.s.ctx c.cx).allot.contains p then 2
        else if ((c.s.th p).task.isNone || (c.s.th p).mode == .finishing) && (c.s.savedAt c.cx p).isNone then 1 else 0
      let s1 := if st != 0 then s else if (c.s.th p).mode != .finishing && (c.s.th p).task.isSome then s.killRunning p else s.killSaved c.cx p
      s1.fly c.k 1 (.s x.d.toNat (BitVec.ofNat 64 st) false) }
def execPkill (x : RR1) (s : State) : Host.Outcome State Fault Refusal :=
  issueOne 0 (encWord (.pkill x)) (opPkill x) s

/-! ### Dispatch and resumption of saved tasks (11 R318, 12 R358–R360) -/

/-- Restores a saved task on a partition: its handles walk again, its tickets bind to the partition, and it runs, finishes
or stands parked as it was. -/
def State.restore (s : State) (p c : Nat) (j : TaskRef) (rest : List TaskRef) : State :=
  match s.savedAt c j.slot with
  | none => s.modTh p fun t => { t with resumed := rest }
  | some snap =>
    let old := s.th p
    let t : Thr := { snap.handlesAgain with
      fltrec := old.fltrec, dbg := old.dbg, resumed := rest, lastCtx := old.lastCtx, drth := drthOf (s.ctx c).cdbg
      mode := snap.savedMode, savedMode := .idle, held := none, needs := [], missed := none
      task := snap.task.map fun k => { k with slot := j.slot } }
    let s1 := (s.setTh p t).rename (savedKey c j.slot) p
    { s1 with
      saved := s1.saved.filter fun e => e.1 != c * 4096 + j.slot
      tasks := s1.tasks.map fun x => if x.ctx == c && x.count == j.count then { x with st := if j.fin then .finishing else .running, saved := none, part := p } else x
      occ := putK s1.occ p ((getD {} s1.occ p).enter j.phase s1.gcyc) }

/-- TASK_DISPATCH (11 R318): an idle partition resumes the saved task that has waited longest, else starts the QUEUED task
of lowest count. -/
def execTaskDispatch (part : Nat) (s : State) : Host.Outcome State Fault Refusal :=
  .next (match s.owner part with
    | none => s
    | some c =>
      let t := s.th part
      if t.mode != .idle || !s.queues c || s.gated.contains (coreOf part) || t.dbg.stopped || t.dbg.step then s
      else match t.resumed with
        | j :: rest => s.restore part c j rest
        | [] => match s.nextQueued part c with
          | some x => s.dispatchNew part x
          | none => s)

/-! ### Pre-emption and saving (12 R355–R358) -/

/-- What a partition keeps when its task leaves it. -/
def Thr.emptied (t : Thr) (c : Nat) : Thr :=
  { fltrec := t.fltrec, dbg := {}, resumed := t.resumed, lastCtx := some c, srstate := t.srstate }

/-- PARTITION_SAVE_COMPLETE (12 R357): every return has arrived and every bank transfer has ended; the slot is written, and
the partition is released. -/
def execPartitionSaveComplete (part : Nat) (s : State) : Host.Outcome State Fault Refusal :=
  .next (
    let t := s.th part
    let c := s.ctxOf part
    if t.mode != .saving || t.flight.any Flight.waiting || !t.xfers.isEmpty then s
    else
      let s1 := s.vwrRun c (s.slotAddr c part) (s.slotImage c part)
      let snap : Thr := { t with mode := .idle, task := t.task.map fun j => { j with slot := part }, resumed := [] }
      let s2 := (s1.modTh part fun t => t.emptied c).rename part (savedKey c part)
      { s2 with
        saved := s2.saved.filter (fun e => e.1 != c * 4096 + part) ++ [(c * 4096 + part, snap)]
        tasks := s2.tasks.map fun x =>
          if x.ctx == c && t.task.any (fun j => j.count == x.count) then { x with st := .saved, saved := some part } else x })

/-- A ticket that fires while its task is parked or saved, or its command stream is saved, is recorded in the ticket word (08 R222, 12 R351,
R358). -/
def State.savedTick (s : State) : State :=
  let fires (t : Thr) : Bool := t.ks.any fun e => match e.2 with
    | some id => s.cmds.any fun m => m.id == id && m.st == .done
    | none => false
  let s1 := s.saved.foldl (fun s' e => if fires e.2 then s'.vwrN (e.1 / 4096) (s'.slotAddr (e.1 / 4096) (e.1 % 4096) + 0x328) 8 (s.ticketsOf e.2) else s') s
  let s1 := s.thr.foldl (fun s' e =>
    if e.1 < csBase ∧ e.2.mode = .parked ∧ fires e.2 then
      s'.vwrN (s.ctxOf e.1) (s'.slotAddr (s.ctxOf e.1) ((e.2.task.map TaskRef.slot).getD e.1) + 0x328) 8 (s.ticketsOf e.2)
    else s') s1
  s.ctxs.foldl (fun s' e =>
    if e.2.st != .free && e.2.slot.isNone && fires (s.th (csKey e.1)) then s'.vwrN e.1 (s'.cword e.1 0x58 + 0x328) 8 (s.ticketWord (csKey e.1))
    else s') s1

/-! ### The states of a context (12 R338–R340) -/

/-- A 64-bit word of the descriptor at physical address a. -/
def State.dword (s : State) (a off : Nat) : Nat := s.rd64 (a + off)

/-- The descriptor's words below 0x100, by offset. -/
def State.readDesc (s : State) (a : Nat) : Map Nat := (List.range 32).map fun i => (8 * i, s.dword a (8 * i))

/-- The partitions a descriptor allots; a bit at or above 3,072 does not exist. -/
def State.readAllot (s : State) (a : Nat) : List Nat :=
  (List.range 48).flatMap fun i => (List.range 64).filterMap fun j => if (s.dword a (0x100 + 8 * i)).testBit j then some (64 * i + j) else none

def isPow2 (n lo hi : Nat) : Bool := decide (lo ≤ n) && decide (n ≤ hi) && n == 2 ^ log2N n

/-- The physical 4 KiB pages of n bytes from va, readable and writable; none where one is not (11 R323, R517). -/
def State.boundPages (s : State) (c va n : Nat) : Option (List Nat) :=
  (List.range ((va % 4096 + n + 4095) / 4096)).foldl (fun acc i => match acc, s.walk c false (va / 4096 * 4096 + 4096 * i) with
    | some l, some f => if f.wr then some (l ++ [(f.base + (va / 4096 * 4096 + 4096 * i) % f.size) / 4096]) else none
    | _, _ => none) (some [])

/-- Whether a captured descriptor is valid for CREATE (12 R340), but for the tables' mapping.  `a`: where it stands. -/
def State.descValid (s : State) (c a : Nat) : Bool :=
  let w (off : Nat) : Nat := s.cword c off
  let page (off : Nat) : Bool := w off % 4096 == 0 && decide (w off < 2 ^ 52)
  w 0 < 2 ^ 17 && ((List.range 10).all fun i => w (0xB0 + 8 * i) == 0) &&
  ((List.range 48).all fun i => s.dword a (0x280 + 8 * i) == 0) &&
  w 8 % 65536 == 0 && decide (w 8 < hbmEnd) && w 0x10 % 4096 == 0 && decide (w 0x10 < hbmEnd) &&
  w 0x18 % 64 == 0 && decide (w 0x18 < 2 ^ 52) &&
  ([0x20, 0x30, 0x40, 0x50, 0x58, 0x70, 0x78, 0x88, 0x98, 0xA8].all page) &&
  decide (w 0x60 < 2 ^ 52) && decide (w 0x60 + w 0x68 ≤ 2 ^ 52) &&
  decide (1 ≤ w 0x28) && decide (w 0x28 ≤ 2 ^ 20) && isPow2 (w 0x38) 32 65536 && isPow2 (w 0x48) 64 (2 ^ 20) &&
  decide (1 ≤ w 0x80) && decide (w 0x80 ≤ 65536) && decide (1 ≤ w 0x90) && decide (w 0x90 ≤ 4096) &&
  decide (1 ≤ w 0xA0) && decide (w 0xA0 ≤ 4096) && (s.tenant? (w 0 % 65536)).isSome

def State.ctlErr (s : State) (c err : Nat) : State := s.modCtx c fun x => { x with err }

/-- CONTEXT_CREATE (12 R340, 11 R323, R517). -/
def State.ctxCreate (s : State) (c : Nat) : State :=
  let x := s.ctx c
  let a := fld x.cdesc 49 10 * 1024
  let s1 := s.modCtx c fun x => { x with desc := (s.readDesc a).filter fun e => e.2 != 0 }
  if x.st != .free then s.ctlErr c 1
  else match s1.descValid c a, s1.boundPages c (s1.cword c 0xA8) 16384,
      (if s1.cword c 0x68 = 0 then some [] else s1.boundPages c (s1.cword c 0x60) (s1.cword c 0x68)) with
    | true, some sem, some pool =>
      let allot := s.readAllot a
      if s.ctxs.any fun e => e.1 != c && e.2.st != .free && e.2.allot.any allot.contains then s.ctlErr c 4
      else
        let s2 := s1.modCtx c fun x => { x with
          st := .resident, err := 0, allot, semPages := sem, poolPages := pool, poolBase := s1.cword c 0x60, poolSize := s1.cword c 0x68
          slot := none, subcnt := 0, retlo := 1, busy := false, destroying := false }
        let s3 := sem.foldl (fun s p => forN 64 s fun i s => s.partPut c (p * 4096 + 64 * i) (List.replicate 64 0)) s2
        let s4 := s3.setTh (csKey c) { pc := (s3.cword c 0x18 + 0x140) % 2 ^ 52 }
        s4.vwrRun c (s4.cword c 0x58) (s4.csImage c [])
    | _, _, _ => s.ctlErr c 2

/-- The count of a context's saved tasks, in submission order (11 R320). -/
def State.savedOf (s : State) (c : Nat) : List TaskRef :=
  (s.tasks.filter fun x => x.ctx == c && x.st == .saved).filterMap fun x => x.saved.bind fun p => (s.savedAt c p).bind Thr.task

/-- RUN queues the saved tasks on their own partitions, but for those not allotted now or on a gated core (12 R359). -/
def State.placeSaved (s : State) (c : Nat) : State :=
  (s.savedOf c).foldl (fun s j =>
    if !(s.ctx c).allot.contains j.slot || s.gated.contains (coreOf j.slot) ||
        s.thr.any (fun e => e.1 < csBase && s.owner e.1 == some c && e.2.resumed.any fun q => q.slot == j.slot) then s
    else s.modTh j.slot fun t => { t with resumed := t.resumed ++ [j] }) s

/-- CONTEXT_RUN (12 R338, R340, R347, R519): the descriptor is read again, the command stream is restored with firmware's
edits, and saved tasks are queued. -/
def State.ctxRun (s : State) (c : Nat) : State :=
  let x := s.ctx c
  let used := (s.ctxs.filter fun e => e.2.rdie == x.die && e.2.slot.isSome && e.1 != c).filterMap fun e => e.2.slot
  match (List.range 4).find? fun n => !used.contains n with
  | none => if x.st = .resident ∨ x.st = .halted then s.ctlErr c 3 else s.ctlErr c 1
  | some n =>
    if x.st ≠ .resident ∧ x.st ≠ .halted then s.ctlErr c 1
    else
      let a := fld x.cdesc 49 10 * 1024
      let allot := ((s.readAllot a).filter fun p => !(s.ctxs.any fun e => e.1 != c && e.2.st != .free && e.2.allot.contains p)) ++
        x.allot.filter fun p => (s.th p).mode != .idle && !(s.readAllot a).contains p
      let s1 := s.modCtx c fun x => { x with
        st := .running, err := 0, slot := some n, rdie := x.die, allot, desc := (s.readDesc a).filter fun e => e.2 != 0 }
      let va := s1.cword c 0x58
      let t := s1.reload c va (s1.th (csKey c))
      let pc := match s1.vpa c va with
        | some _ => s1.vrdN c va 8 % 2 ^ 52 / 4 * 4
        | none => t.pc
      (s1.setTh (csKey c) { t with mode := .running, pc, held := none, waitm := none, missed := none }).placeSaved c

/-- The words of the bundle a command stream holds at its program counter. -/
def State.heldWords (s : State) (c : Nat) : List W32 :=
  let t := s.th (csKey c)
  if t.held.isNone then []
  else match s.codeLine (csKey c) t.pc with
    | none => []
    | some l => (List.range (bundleBytes (wordAt l (t.pc % 64)) / 4)).map fun i => BitVec.ofNat 32 (wordAt l (t.pc % 64 + 4 * i))

/-- CONTEXT_PREEMPT (12 R351, R355): pending resumptions take effect first, each once its command stream's stores have performed;
the command stream is saved, every partition of the context stops, and its queued tasks wait. -/
def State.ctxPreempt (s : State) (c : Nat) : State :=
  let x := s.ctx c
  if x.st ≠ .running ∧ x.st ≠ .halted then s.ctlErr c 1
  else
    let s1 := x.allot.foldl State.resumeOne s
    let s2 := if x.st = .running then s1.saveCs c (s1.heldWords c) else s1
    let s3 := s2.modCtx c fun x => { x with st := .saving, err := 0, busy := true }
    let s4 := x.allot.foldl (fun s p => (s.stopToSave p).modTh p fun t => { t with resumed := [] }) s3
    { s4 with tasks := s4.tasks.map fun t => if t.ctx == c && t.st == .queued then { t with st := .ready } else t }

/-- CONTEXT_DESTROY (12 R363): begins; BUSY until what the context accepted has completed.  Its groups
enter quarantine now (16 Table 16-2): what waits on them would otherwise never complete. -/
def State.ctxDestroy (s : State) (c : Nat) : State :=
  if (s.ctx c).st != .resident then s.ctlErr c 1
  else (s.modCtx c fun x => { x with err := 0, busy := true, destroying := true }).leaveAll c

/-- A command written to CCTL.CMD (12 Table 12-4); ignored while BUSY. -/
def State.cctlCmd (s : State) (c cmd : Nat) : State :=
  if (s.ctx c).busy || cmd == 0 || s.sys.recovery then s
  else match cmd with
    | 1 => s.ctxCreate c
    | 2 => s.ctxRun c
    | 3 => s.ctxPreempt c
    | 4 => s.ctxDestroy c
    | _ => s.ctlErr c 1

/-- A context that exists: 0–63 (12 R337). -/
def ctxCmd (c cmd : Nat) (s : State) : Host.Outcome State Fault Refusal :=
  .next (if c < 64 then s.byMc (16 * c + 8) (BitVec.ofNat 64 ((s.ctx c).die * 256 + cmd)) fun s => s.cctlCmd c cmd else s)

/-- CONTEXT_CREATE (R340). -/
def execContextCreate (ctx : Nat) (s : State) : Host.Outcome State Fault Refusal := ctxCmd ctx 1 s
/-- CONTEXT_RUN (R340). -/
def execContextRun (ctx : Nat) (s : State) : Host.Outcome State Fault Refusal := ctxCmd ctx 2 s
/-- CONTEXT_PREEMPT (R355). -/
def execContextPreempt (ctx : Nat) (s : State) : Host.Outcome State Fault Refusal := ctxCmd ctx 3 s
/-- CONTEXT_DESTROY (R363). -/
def execContextDestroy (ctx : Nat) (s : State) : Host.Outcome State Fault Refusal := ctxCmd ctx 4 s
/-- CCTL_INVALID_COMMAND (R339): a code outside 1–4 sets ERR 1. -/
def execCctlInvalidCommand (ctx code : Nat) (s : State) : Host.Outcome State Fault Refusal :=
  if 5 ≤ code ∧ code < 16 then ctxCmd ctx code s else .next s

/-- SAVE_COMPLETE (12 R340): every partition of the context has been saved. -/
def execSaveComplete (ctx : Nat) (s : State) : Host.Outcome State Fault Refusal :=
  .next (
    let x := s.ctx ctx
    if x.st == .saving && x.allot.all fun p => (s.th p).task.isNone then s.modCtx ctx fun x => { x with st := .resident, busy := false }
    else s)

/-- Whether every engine command a context accepted has completed, but for submissions not yet entered, which DESTROY
itself retires, and every lookup and placement (12 R363). -/
def State.drained (s : State) (c : Nat) : Bool :=
  !(s.cmds.any fun m => m.ctx == c && (m.pos == 6 || m.pos == 7) && m.st != .done &&
      !(m.pos == 6 && m.major == 11 && m.st != .errWait)) &&
  !(s.tasks.any fun t => t.ctx == c && (t.st == .lookup || t.st == .placing))

/-- Retires a task of a destroyed context as KILLED (12 R363 step 1); one not yet entered has its descriptor read for the
completion word. -/
def State.destroyTask (s : State) (t : Task) : State :=
  if t.st = .submitted then
    match s.cmd? t.cmd with
    | none => s
    | some m =>
      let (d, _, s1) := s.engineRead m (m.caps.getD 0 { va := 0, pa := 0, base := 0, size := 0, tens := none }) 256
      let sub := s1.submission t d
      (s1.retire sub.task false true false sub.writeWord).fire m.id
  else match t.saved with
    | some p => if t.st = .saved then s.endSaved t.ctx p else s.retireTask t true false
    | none => s.retireTask t true false

/-- The first part of DESTROY's end: its crossing posts reach their homes, its tasks retire, its frames
are freed, its records go to firmware (09 R270, 12 R342, R363). -/
def State.destroyEnd (s : State) (c : Nat) : State :=
  let s0 := (s.posts.filter fun p => p.1 == c).foldl State.landPost s
  let s1 := (s0.tasks.filter fun t => t.ctx == c).foldl State.destroyTask s0
  let s2 := ((s1.deltas.filter fun d => d.ctx == c).foldl State.merge s1).leaveAll c
  { s2 with
    deltas := s2.deltas.filter fun d => d.ctx != c
    cached := s2.cached.filter fun e => e.2.1 != c
    xcache := s2.xcache.filter fun e => e.2.1 != c
    pages := s2.pages.filter fun e => e.1 / 16384 != c
    bounce := s2.bounce.filter fun b => b.ctx != c
    barLine := s2.barLine.filter fun e => e.1 / 65536 != c
    chans := s2.chans.filter fun e => e.ctx != c
    grps := s2.grps.filter fun g => g.ctx != c
    colls := s2.colls.filter fun x => x.ctx != c
    saved := s2.saved.filter fun e => e.1 / 4096 != c
    thr := s2.thr.map fun e => if e.2.lastCtx = some c then (e.1, { e.2 with lastCtx := none, srstate := 0 }) else e
    recs := s2.recs.map fun r => if r.ctx == c && !r.fw then { r with fw := true, rerouted := true } else r
    ctxs := putK s2.ctxs c { s2.ctx c with st := .free, allot := [], busy := false, destroying := false, slot := none } }

/-- CONTEXT_DESTROY_COMPLETE (12 R363): what the context accepted has completed. -/
def execContextDestroyComplete (ctx : Nat) (s : State) : Host.Outcome State Fault Refusal :=
  .next (if (s.ctx ctx).destroying && s.drained ctx then s.destroyEnd ctx else s)

end Sys2Proof.Machine
end

