-- ==== Sys2Proof/Machine/Link.lean ====
section
/-! DEFINITION. Links and the fabric's packets (08 R252, 17). -/

namespace Sys2Proof.Machine

open Sys2Proof

/-! ### Link states (17 R432–R434) -/

/-- A link's replay buffer is handed back: this package's packets that stood there are sent again (17 R437), and those whose flits had
not all left go back to the switch (R440). -/
def State.handBack (s : State) (p : Nat) : State :=
  let ids := (s.link p).replay.filterMap (fun e => e.2.1) ++ ((s.link p).queue.filter Sending.begun).filterMap fun q => q.wait.bind Waiting.own
  let back := (s.link p).queue.filterMap fun q => q.wait.filter fun w => !(q.begun && w.own.isSome)
  ({ s with fab := { s.fab with
      through := s.fab.through ++ back
      sent := s.fab.sent.map fun (k : Packet) => if ids.contains k.id then { k with again := true } else k } }).modLink p
    fun l => { l with replay := [], queue := [] }

/-- Linor Link goes down: what the host held is dropped, a line it held dirty is poisoned at its home, and a WAITM on a
host-window line reads again (17 R446). -/
def State.linorDown (s : State) : State :=
  let dirty := (s.hostLines.filter fun e => e.2 == .m || e.2 == .o).map Prod.fst
  let s1 := dirty.foldl (fun s l =>
    (s.setTag (l * 64) (mkTag true (tagVer (s.tag (l * 64))))).logFw 1 (l * 64) (agentField (homeSlice (l * 64)) 2 false)) s
  { s1 with
    hostLines := [], sys := { s1.sys with hostUp := false }
    dir := s1.dir.map fun e => if e.2.host then (e.1, { e.2 with host := false, st := if e.2.owner = hostOwner then .shared else e.2.st }) else e
    thr := s1.thr.map fun e => match e.2.waitm with
      | some (l, _) => if physClass (l * 64) = .host then (e.1, { e.2 with waitm := some (l, true) }) else e
      | none => e }

/-- A link changes state.  Leaving UP for another state than UP hands its replay buffer back. -/
def State.linkTo (s : State) (p st : Nat) (f : Link → Link) : State :=
  let s1 := (s.handBack p).modLink p fun l => { f l with st, since := s.gcyc, rxNext := 0, txNext := 0 }
  if p = linorPort ∧ (st = 5 ∨ st = 1 ∨ st = 0) then s1.linorDown
  else if p = linorPort ∧ st = 3 then { s1 with sys := { s1.sys with hostUp := true } }
  else s1

def State.isLink (p : Nat) : Bool := decide (p ≤ 24)

/-- Firmware writes PCTL.EN (17 Tables 17-1, 17-2): entering DISABLED clears the counters (R444).  No event of the cycle moves
the link after it (R433). -/
def State.linkEnable (s : State) (p : Nat) (en : Bool) : State :=
  if !State.isLink p then s
  else if en then (if (s.link p).st = 0 then s.linkTo p 1 fun l => { l with narrow := 0, fwAt := s.gcyc + 1 } else s)
  else if (s.link p).st = 0 then s
  else s.linkTo p 0 fun l => { l with
    flitTx := 0, flitRx := 0, crc := 0, retry := 0, retrain := 0, degrade := 0, exhaust := 0, dropAge := 0
    crcTimes := [], narrow := 0, fwAt := s.gcyc + 1 }

/-- LINK_ENABLE (R433). -/
def execLinkEnable (port : Nat) (s : State) : Host.Outcome State Fault Refusal :=
  .next (if State.isLink port then s.byMc (0x4000 + 8 * port) 1 fun s => s.linkEnable port true else s)
/-- LINK_DISABLE (R433). -/
def execLinkDisable (port : Nat) (s : State) : Host.Outcome State Fault Refusal :=
  .next (if State.isLink port then s.byMc (0x4000 + 8 * port) 0 fun s => s.linkEnable port false else s)

/-- An event of a link in one of the states of a list; where firmware has moved the link in this cycle, its write decides (R433). -/
def linkEvent (port : Nat) (sts : List Nat) (ok : Link → Bool) (f : State → State) (s : State) : Host.Outcome State Fault Refusal :=
  .next (if State.isLink port && sts.contains (s.link port).st && ok (s.link port) && (s.link port).fwAt != s.gcyc + 1 then f s else s)

/-- SIGNAL_DETECT (R433). -/
def execSignalDetect (port : Nat) (s : State) : Host.Outcome State Fault Refusal :=
  linkEvent port [1] (fun _ => true) (fun s => s.linkTo port 2 id) s

/-- LINK_TRAINED (R433): within 2^24 cycles, a fabric port learns its peer; Linor Link's peer fields read zero (R444). -/
def execLinkTrained (port : Nat) (peer : LinkPeer) (s : State) : Host.Outcome State Fault Refusal :=
  linkEvent port [2] (fun l => decide (s.gcyc < l.since + 2 ^ 24))
    (fun s => s.linkTo port 3 fun l => if port = linorPort then l else
      { l with peer := peer.pkg % 2 ^ 14, peerPort := peer.port % 32, peerOfs := peer.ofs }) s

/-- TRAINING_TIMEOUT (R433). -/
def execTrainingTimeout (port : Nat) (s : State) : Host.Outcome State Fault Refusal :=
  linkEvent port [2] (fun l => decide (l.since + 2 ^ 24 ≤ s.gcyc)) (fun s => s.linkTo port 1 id) s

/-- RETRY_EXHAUSTED (R433, R435): a flit not acknowledged has been sent again 8 times. -/
def execRetryExhausted (port : Nat) (s : State) : Host.Outcome State Fault Refusal :=
  linkEvent port [3] (fun l => l.replay.any fun e => decide (8 ≤ e.2.2))
    (fun s => s.linkTo port 4 fun l => { l with exhaust := satAdd 16 l.exhaust 1 }) s

/-- RETRAIN_DONE (R433): trained at the next narrower width. -/
def execRetrainDone (port : Nat) (s : State) : Host.Outcome State Fault Refusal :=
  linkEvent port [4] (fun l => decide (l.narrow < 2))
    (fun s => s.linkTo port 3 fun l => { l with narrow := l.narrow + 1, degrade := satAdd 16 l.degrade 1, retrain := satAdd 16 l.retrain 1 }) s

/-- RETRAIN_FAIL (R433): not trained at the narrowest width. -/
def execRetrainFail (port : Nat) (s : State) : Host.Outcome State Fault Refusal :=
  linkEvent port [4] (fun _ => true) (fun s => s.linkTo port 5 id) s

/-- SIGNAL_LOST (R433). -/
def execSignalLost (port : Nat) (s : State) : Host.Outcome State Fault Refusal :=
  linkEvent port [2, 3, 4] (fun _ => true) (fun s => s.linkTo port 1 id) s

/-- TIME_STAMP_EXCHANGE (R443). -/
def execTimeStampExchange (port : Nat) (ofs : Int) (s : State) : Host.Outcome State Fault Refusal :=
  linkEvent port [3] (fun _ => port != linorPort) (fun s => s.modLink port fun l => { l with peerOfs := ofs }) s

/-! ### Packets (17 R436–R442) -/

/-- X is declared unreachable (17 R441). -/
def State.declare (s : State) (x : Nat) : State :=
  if s.fab.unrch.contains x then s
  else
    let gone := (s.fab.sent.filter fun k => k.dst == x).filterMap fun k => k.cmd
    let s1 : State := { s with
      fab := { s.fab with
        unrch := s.fab.unrch ++ [x]
        declare := s.fab.declare.filter (· != x)
        resync := s.fab.resync.filter (· != x)
        sent := s.fab.sent.filter fun k => k.dst != x
        through := s.fab.through.filter fun w => w.pkt.dst != x
        early := s.fab.early.filter fun k => k.src != x }
      links := s.links.map fun e => (e.1, { e.2 with queue := e.2.queue.filter fun q => q.begun || match q.wait with
        | some w => w.pkt.dst != x
        | none => true }) }
    let s2 := gone.foldl State.fire s1
    ((s2.breakChans x).grpUnreachable x).logFw 9 x (agentField 0 2 false)

/-- The port a packet would leave by: the first one UP, else the primary (17 R436, notes/assumptions/115). -/
def State.leavesBy (s : State) (w : W64) : Nat :=
  match s.routeBy w with
  | some (p, _) => p
  | none => fld w 24 20

/-- A packet discarded by age, counted at the port it would have left by (17 R436). -/
def State.dropAged (s : State) (w : W64) : State := s.modLink (s.leavesBy w) fun l => { l with dropAge := satAdd 32 l.dropAge 1 }

/-- The destination acknowledges a packet end to end: the acknowledgement leaves by the route to its source (17 R437,
notes/assumptions/115). -/
def State.ackBack (s : State) (src : Nat) : State :=
  match s.route src with
  | some (p, _) => s.transmit p none
  | none => s

/-- A packet arrives from a link (17 R436, R440, R441): one from a package declared unreachable is dropped; one for this package is
acknowledged and kept for delivery, a duplicate only acknowledged; one for another is discarded by age, leaves by its route,
waits for a port, or brings a notice back. -/
def State.packetIn (s : State) (k : WirePacket) : State :=
  let w := s.routeWord k.dst
  let at_ : Waiting := { pkt := k, since := s.gcyc, entry := w }
  if s.fab.unrch.contains k.src then s
  else if k.dst = s.fab.fabid then
    let s1 := s.ackBack k.src
    if (decide (k.seq < getD 0 s.fab.rxSeq k.src) && k.body != .resync) || s.fab.early.any (fun e => e.src == k.src && e.seq == k.seq) then s1
    else { s1 with fab := { s1.fab with early := s1.fab.early ++ [k] } }
  else if 2 ^ 20 < k.age then s.dropAged w
  else if !w.getLsbD 0 ∨ s.fab.unrch.contains k.dst then
    (s.sendPacket k.src (.notice k.dst) none).2
  else match s.routeBy w with
    | some (p, _) => s.transmit p (some at_)
    | none => { s with fab := { s.fab with through := s.fab.through ++ [at_] } }

/-- Flits a cumulative acknowledgement covers: those before it in the 12-bit sequence. -/
def ackedBy (ack seq : Nat) : Bool := decide ((ack + 4096 - seq % 4096 - 1) % 4096 < 2048)

/-- A flit arrives (R435): one whose CRC checks and that is the next in sequence is taken; one that fails is counted, and
64 failures in 2^20 cycles retrain the link. -/
def State.flitIn (s : State) (port : Nat) (flit : Flit) : State :=
    if !flit.crcOk then
      let l := s.link port
      let times := (l.crcTimes.filter fun t => decide (s.gcyc < t + 2 ^ 20)) ++ [s.gcyc]
      let s1 := s.modLink port fun l => { l with crc := satAdd 32 l.crc 1, crcTimes := times }
      if 64 ≤ times.length then s1.linkTo port 4 fun l => { l with crcTimes := [] } else s1
    else
      let s1 := s.modLink port fun l => { l with replay := l.replay.filter fun e => !ackedBy flit.ack e.1 }.pump
      if flit.seq % 4096 ≠ (s1.link port).rxNext then s1
      else
        let s2 := s1.modLink port fun l => { l with rxNext := (l.rxNext + 1) % 4096, flitRx := satAdd 64 l.flitRx 1 }
        match flit.pkt with
        | some k => if port = linorPort then s2 else s2.packetIn k
        | none => s2

/-- FLIT_RECEIVE (R435); below I0 the flit waits and ages while the package exits (20 R489). -/
def execFlitReceive (port : Nat) (flit : Flit) (s : State) : Host.Outcome State Fault Refusal :=
  linkEvent port [3] (fun _ => true) (fun s => s.served (.flit port flit s.gcyc) fun s => s.flitIn port flit) s

/-- FLIT_RESEND (R435): the receiver has rejected the oldest flit not acknowledged and every one after it; each is sent again, up
to 8 times, in its order. -/
def execFlitResend (port : Nat) (s : State) : Host.Outcome State Fault Refusal :=
  linkEvent port [3] (fun l => !l.replay.isEmpty && l.replay.all fun e => decide (e.2.2 < 8))
    (fun s => s.modLink port fun l => { l with
      retry := satAdd 32 l.retry l.replay.length, flitTx := satAdd 64 l.flitTx l.replay.length
      replay := l.replay.map fun e => (e.1, e.2.1, e.2.2 + 1) }) s

/-- PACKET_DELIVER (R436): the next packet of a pair in sequence order goes to the engines. -/
def execPacketDeliver (src seq : Nat) (s : State) : Host.Outcome State Fault Refusal :=
  .next (match s.fab.early.find? fun k => k.src == src && k.seq == seq with
    | none => s
    | some k =>
      if seq ≠ getD 0 s.fab.rxSeq src ∨ s.fab.resync.contains src ∨ k.body = .resync then s
      else { s with fab := { s.fab with
        early := s.fab.early.filter fun e => !(e.src == src && decide (e.seq ≤ seq))
        rxSeq := putK s.fab.rxSeq src (seq + 1)
        delivered := s.fab.delivered ++ [(src, k.body)] } })

/-- The age of a packet that waits (17 R436). -/
def Waiting.age (w : Waiting) (gcyc : Nat) : Nat := w.pkt.age + (gcyc - w.since)

/-- PACKET_AGE_DISCARD (R436): a packet that waits in the switch has aged beyond 2^20 cycles. -/
def execPacketAgeDiscard (port src seq : Nat) (s : State) : Host.Outcome State Fault Refusal :=
  .next (match s.fab.through.find? fun w => w.pkt.src == src && w.pkt.seq == seq && decide (2 ^ 20 < w.age s.gcyc) with
    | none => s
    | some w =>
      if s.leavesBy w.entry ≠ port then s
      else ({ s with fab := { s.fab with through := s.fab.through.erase w } } : State).dropAged w.entry)

/-- The same, at the collective of this member that sends it. -/
def State.detourOf (s : State) (b : PktBody) : State :=
  match b with
  | .coll p =>
    let mine (x : Coll) : Bool := x.grp == p.grp && x.seq == p.seq && (s.ctx x.ctx).tenant == p.tenant && s.grpGen x.ctx x.grp == p.gen
    match p.kind, s.colls.find? mine with
    | .part _ k _ _, some x => s.collDetour x k true
    | .data k _ _ _ _ _, some x => s.collDetour x k true
    | _, _ => s
  | _ => s

/-- A copy of a packet of this package leaves the switch by a port; a collective's chunk may cross a detour (16 R428). -/
def State.leaveFor (s : State) (k : Packet) (w : Waiting) (p : Nat) (alt : Bool) : State :=
  let s1 := s.leave k w p alt
  if alt then s1.detourOf k.body else s1

/-- Sends a packet again, with age 0, over the route now in force (17 R437). -/
def State.resend (s : State) (k : Packet) : State :=
  let r := ({ s with fab := { s.fab with sent := s.fab.sent.map fun (x : Packet) =>
      if x.id = k.id then { x with last := s.gcyc, again := false } else x } } : State).enterSwitch k
  if r.1 then r.2.detourOf k.body else r.2

/-- Whether the time in which a packet may be sent again is over: 2^21 cycles from its first sending (17 R437). -/
def Packet.over (k : Packet) (gcyc : Nat) : Bool :=
  match k.first with
  | some t => decide (t + 2 ^ 21 ≤ gcyc)
  | none => false

/-- PACKET_RESEND_TIMEOUT (R437): not acknowledged for 2^16 cycles, or handed back by a link that left UP; within 2^21
cycles of its first sending. -/
def execPacketResendTimeout (pkt : Nat) (s : State) : Host.Outcome State Fault Refusal :=
  .next (match s.fab.sent.find? fun k => k.id == pkt with
    | none => s
    | some k =>
      let held := s.fab.resync.contains k.dst && k.body != .resync
      if (k.again ∨ k.last + 2 ^ 16 ≤ s.gcyc) ∧ k.over s.gcyc = false ∧ held = false then s.resend k else s)

/-- PACKET_ACK_RECEIVE (R437): the destination has acknowledged a packet. -/
def execPacketAckReceive (pkt : Nat) (s : State) : Host.Outcome State Fault Refusal :=
  .next (match s.fab.sent.find? fun k => k.id == pkt with
    | none => s
    | some k =>
      if k.first.isNone then s
      else
        let s1 : State := { s with fab := { s.fab with sent := s.fab.sent.filter fun x => x.id != pkt } }
        match k.cmd with
        | some m => s1.fire m
        | none => s1)

/-- PACKET_GIVE_UP (R437, R441): 2^21 cycles after its first sending. -/
def execPacketGiveUp (pkt : Nat) (s : State) : Host.Outcome State Fault Refusal :=
  .next (match s.fab.sent.find? fun k => k.id == pkt with
    | none => s
    | some k => if k.over s.gcyc then s.declare k.dst else s)

/-- NO_ROUTE_TIMEOUT (R441): no listed port of the entry has been UP for 2^18 cycles. -/
def execNoRouteTimeout (fab : Nat) (s : State) : Host.Outcome State Fault Refusal :=
  .next (match (s.fab.noRoute.find? fun e => e.1 == fab) with
    | some e => if e.2 + 2 ^ 18 ≤ s.gcyc ∧ fab ≠ s.fab.fabid then s.declare fab else s
    | none => s)

/-- UNREACHABLE_NOTICE_RECEIVE (R441). -/
def execUnreachableNoticeReceive (fab : Nat) (s : State) : Host.Outcome State Fault Refusal :=
  .next (match s.takeDelivered fun d => d.2 == .notice fab with
    | some (_, s1) => s1.declare fab
    | none => s)

/-- Firmware clears a bit of UNRCH (17 R442): the pair's sequence numbers restart, and a resynchronisation is sent. -/
def State.unrchClear (s : State) (x : Nat) : State :=
  if !s.fab.unrch.contains x then s
  else
    let s1 : State := { s with fab := { s.fab with
      unrch := s.fab.unrch.filter (· != x), resync := s.fab.resync ++ [x]
      nextSeq := delK s.fab.nextSeq x, rxSeq := delK s.fab.rxSeq x
      early := s.fab.early.filter fun k => k.src != x } }
    (s1.sendPacket x .resync none).2

/-- UNRCH_CLEAR (R442). -/
def execUnrchClear (fab : Nat) (s : State) : Host.Outcome State Fault Refusal :=
  .next (if fab < 2 ^ 14 then s.byMc (0x2000 + fab / 64 * 8) (BitVec.ofNat 64 (2 ^ (fab % 64))) fun s => s.unrchClear fab else s)

/-- What a resynchronisation from X restarts (17 R442): what X numbered before it is dropped, and its packets are numbered from it. -/
def State.resyncRx (s : State) (x : Nat) (k : WirePacket) : State :=
  { s with fab := { s.fab with
    rxSeq := putK s.fab.rxSeq x (k.seq + 1)
    early := (s.fab.early.takeWhile (· != k)).filter (fun e => e.src != x) ++
      (s.fab.early.dropWhile (· != k)).filter fun e => !(e.src == x && decide (e.seq ≤ k.seq)) } }

/-- This package answers a resynchronisation it did not await with its own, and numbers what it has outstanding towards X after it
(DESIGN CHOICE, notes/assumptions/142). -/
def State.resyncTx (s : State) (x : Nat) : State :=
  let out := s.fab.sent.filter fun k => k.dst == x
  let s1 := (({ s with fab := { s.fab with nextSeq := delK s.fab.nextSeq x } } : State).sendPacket x .resync none).2
  { s1 with fab := { s1.fab with
    nextSeq := putK s1.fab.nextSeq x (getD 0 s1.fab.nextSeq x + out.length)
    sent := s1.fab.sent.map fun k => match out.findIdx? fun o => o.id == k.id with
      | some i => { k with seq := getD 0 s1.fab.nextSeq x + i, again := true }
      | none => k } }

/-- RESYNC_RECEIVE (R442): the other package's resynchronisation has arrived; where it was awaited, what was held may go. -/
def execResyncReceive (fab : Nat) (s : State) : Host.Outcome State Fault Refusal :=
  .next (match s.fab.early.find? fun k => k.src == fab && k.body == .resync with
    | none => s
    | some k =>
      let s1 := s.resyncRx fab k
      if s.fab.resync.contains fab then { s1 with fab := { s1.fab with resync := s1.fab.resync.filter (· != fab) } }
      else s1.resyncTx fab)

/-- What waits for room at a port and has aged beyond 2^20 cycles, none of its flits sent, stands in the switch to be discarded (17
R436). -/
def State.agedBack (s : State) : State :=
  let aged (q : Sending) : Bool := !q.begun && match q.wait with
    | some w => decide (2 ^ 20 < w.age s.gcyc)
    | none => false
  { s with
    links := s.links.map fun e => (e.1, { e.2 with queue := e.2.queue.filter fun q => !aged q })
    fab := { s.fab with through := s.fab.through ++ s.links.flatMap fun e => (e.2.queue.filter aged).filterMap Sending.wait } }

/-- Packets held for a resynchronisation enter the switch once it has come (17 R442). -/
def State.sendHeld (s : State) : State :=
  (s.fab.sent.filter fun k => k.port.isNone && !(s.fab.resync.contains k.dst) && !(s.fab.through.any fun w => w.own == some k.id)).foldl
    (fun s k => s.resend k) s

/-- What waits in the switch leaves by the first port UP of its entry, unless it is too old (17 R436, R440). -/
def State.sendWaiting (s : State) : State :=
  s.fab.through.foldl (fun s w => match s.routeBy w.entry with
    | none => s
    | some (p, alt) =>
      if 2 ^ 20 < w.age s.gcyc then s
      else
        let s1 : State := { s with fab := { s.fab with through := s.fab.through.erase w } }
        match w.own with
        | none => s1.transmit p (some w)
        | some i => match s1.fab.sent.find? fun k => k.id == i with
          | some k => s1.leaveFor k w p alt
          | none => s1) s

/-- Each cycle: declarations due, the record of routes with no UP port but the package's own (17 R439), packets that wait. -/
def State.fabricTick (s : State) : State :=
  let s1 := s.fab.declare.foldl State.declare s
  let s2 : State := { s1 with fab := { s1.fab with
    declare := []
    noRoute := (s1.fab.routes.filter fun e => e.1 != s1.fab.fabid && e.2.getLsbD 0 && !(routePorts e.2).any s1.portUp).map fun e =>
      (e.1, getD s1.gcyc s1.fab.noRoute e.1) } }
  (s2.agedBack.sendHeld).sendWaiting

/-! ### LNKS (08 R252, 17 R444) -/

/-- LNKS (R444). -/
def opLnks (x : EngF) : SlotOp :=
  structOp x.p 64 true { engOp x.g x.k x.c x.n (wRegs x.p 2) .any 7 15 false (fun c => { id := 0, fn := x.f.toNat, caps := [c.cap (c.w x.p 1)], runner := c.s.dieOf c.k }) with
    legal := legal (.lnks x)
    chk := fun c => descIf c (c.w x.p 0 != 0) }
def execLnks (x : EngF) (s : State) : Host.Outcome State Fault Refusal :=
  issueOne 7 (encWord (.lnks x)) (opLnks x) s

/-- The record of 17 Table 17-5. -/
def State.linkRecord (s : State) (p : Nat) : List Byte :=
  let l := s.link p
  let fabric := p != linorPort
  let lw := if l.st = 3 ∨ l.st = 4 then (if fabric then 3 - l.narrow else 5 - l.narrow) else 0
  bytesOf 8 ((if fabric then l.peer * 2 ^ 26 + l.peerPort * 2 ^ 21 else 0) + lw * 16 + l.st) ++
  bytesOf 8 l.flitTx ++ bytesOf 8 l.flitRx ++ bytesOf 8 (l.crc * 2 ^ 32 + l.retry) ++
  bytesOf 8 (l.retrain * 2 ^ 32 + l.degrade * 2 ^ 16 + l.exhaust) ++
  bytesOf 8 (if fabric then wrapN l.peerOfs 64 else 0) ++ bytesOf 8 s.gcyc ++
  bytesOf 8 (if fabric then l.dropAge * 2 ^ 32 else 0)

/-- LNKS writes the record. -/
def State.startLnks (s : State) (m : Cmd) : State := (s.engineWrite m (cap0 m) (s.linkRecord m.fn)).fire m.id

end Sys2Proof.Machine
end

