-- ==== Sys2Proof/Machine/Approx.lean ====
section
/-! DEFINITION. Reciprocal, square root, exp2 and log2 (06 R193, R194).

The exact value is brought to a magnitude m × 2^e whose last bit is a sticky bit, enough bits below the target's grid to
find its two neighbours.  Where the exact value is not representable, .f32 takes the neighbour that the free value
`Config.faithfulUp` names (R193: faithful); the 16-bit types round to nearest even. -/

namespace Sys2Proof.Machine

open Sys2Proof

/-- A magnitude with a sticky last bit, of the quotient q with remainder flag `r`, scaled by 2^e. -/
def sticky (q : Nat) (r : Bool) (e : Int) : Nat × Int := (2 * q + b2n r, e - 1)

/-- 1 / (m × 2^e). -/
def recipMag (m : Nat) (e : Int) : Nat × Int :=
  let k := log2N m + 80
  sticky (2 ^ k / m) (2 ^ k % m != 0) (-e - k)

/-- m × 2^e with an even exponent. -/
def evenExp (m : Nat) (e : Int) : Nat × Int := if e % 2 = 0 then (m, e) else (2 * m, e - 1)

/-- 1 / √(m × 2^e). -/
def rsqrtMag (m : Nat) (e : Int) : Nat × Int :=
  let (m, e) := evenExp m e
  let k := log2N m + 80
  let s := isqrt (2 ^ (2 * k) / m)
  sticky s (s * s * m != 2 ^ (2 * k)) (-(e / 2) - k)

/-- √(m × 2^e). -/
def sqrtMag (m : Nat) (e : Int) : Nat × Int :=
  let (m, e) := evenExp m e
  let s := isqrt (m * 2 ^ 160)
  sticky s (s * s != m * 2 ^ 160) (e / 2 - 80)

/-- The product of 2^(2^−j) over the set bits j of a fraction, the first bit in hand being bit `top` of f; `root` holds
2^(2^−j) and `acc` the product, both with 256 fraction bits. -/
def exp2Go (f : Nat) (top : Nat) (root acc : Nat) : Nat :=
  match top with
  | 0 => acc
  | t + 1 =>
    if f % 2 ^ (t + 1) = 0 then acc
    else
      let root := isqrt (root * 2 ^ 256)
      exp2Go f t root (if f.testBit t then acc * root / 2 ^ 256 else acc)

/-- 2^(±m × 2^e), m positive. -/
def exp2Mag (neg : Bool) (m : Nat) (e : Int) : Nat × Int :=
  if exLog2 m e ≥ 11 then (1, if neg then -1100 else 1100)
  else
    let x : Int := if e ≥ -192 then dyad neg m * 2 ^ (e + 192).toNat else if neg then -1 else 1
    let i := x / 2 ^ 192
    let f := (x % 2 ^ 192).toNat
    if f = 0 then (1, i) else sticky (exp2Go f 192 (2 * 2 ^ 256) (2 ^ 256)) true (i - 256)

/-- Fraction bits of log2 y by repeated squaring, y in [1, 2) with 256 fraction bits. -/
def log2Go (n : Nat) (y acc : Nat) : Nat :=
  match n with
  | 0 => acc
  | n + 1 =>
    let y := y * y / 2 ^ 256
    if y ≥ 2 ^ 257 then log2Go n (y / 2) (2 * acc + 1) else log2Go n y (2 * acc)

/-- log2 (m × 2^e), exact value brought to a sign and a magnitude. -/
def log2Val (m : Nat) (e : Int) : Ex :=
  let k := log2N m
  let i : Int := k + e
  if m = 2 ^ k then ofDy (i, 0) false
  else
    let f := log2Go 128 (m * 2 ^ 256 / 2 ^ k) 0
    ofDy (2 * (i * 2 ^ 128 + f) + 1, -129) false

/-- Rounds a value with a sticky last bit: the 16-bit types to nearest even, FP32 faithfully (06 R193); an exact
magnitude above the largest finite value becomes the infinity of its sign. -/
def roundFaithful (major ty operand : Nat) (f : Fmt) (x : Ex) : Nat :=
  match x with
  | .fin s m e =>
    if m = 0 then f.signed s 0
    else
      let lo := f.magCode m e .rtz
      let exact := if lo > f.maxCode then false else (f.decode lo).eqv (.fin false m e)
      if exact then f.signed s lo
      else if lo ≥ f.maxCode then f.signed s (f.maxCode + 1)
      else if ty = 0 then f.signed s (if Config.faithfulUp major ty operand then lo + 1 else lo)
      else (f.conv x .rne).1
  | y => f.round y

/-- The lane result of VRCP (37), VRSQ (38), VSQRT (39), VEXP2 (40) and VLOG2 (41) (06 R193, R194). -/
def approxLane (major ty : Nat) (f : Fmt) (code : Nat) : Nat :=
  let pinf := Ex.inf false
  match f.decode code with
  | .nan => f.canonNan
  | .inf s =>
    f.round (if major = 37 then .fin s 0 0
      else if major = 38 then (if s then .nan else .fin false 0 0)
      else if major = 39 then (if s then .nan else pinf)
      else if major = 40 then (if s then .fin false 0 0 else pinf)
      else (if s then .nan else pinf))
  | .fin s 0 _ =>
    f.round (if major = 37 ∨ major = 38 then .inf s
      else if major = 39 then .fin s 0 0
      else if major = 40 then .fin false 1 0
      else .inf true)
  | .fin s m e =>
    if major = 37 then let r := recipMag m e; roundFaithful major ty code f (.fin s r.1 r.2)
    else if major = 38 then
      if s then f.canonNan else let r := rsqrtMag m e; roundFaithful major ty code f (.fin false r.1 r.2)
    else if major = 39 then
      if s then f.canonNan else let r := sqrtMag m e; f.round (.fin false r.1 r.2)
    else if major = 40 then let r := exp2Mag s m e; roundFaithful major ty code f (.fin false r.1 r.2)
    else if s then f.canonNan else roundFaithful major ty code f (log2Val m e)

end Sys2Proof.Machine
end

