-- ==== Sys2Proof/Machine/Vector.lean ====
section
/-! DEFINITION. Vector instructions (06 R166–R195). -/

namespace Sys2Proof.Machine

open Sys2Proof

/-! ### Lanes -/

/-- The lanes of w bits of a vector value. -/
def lanesOf (w : Nat) (v : VReg) : List Nat := unpackLE w (2048 / w) v.toNat

def vmap1 (w : Nat) (f : Nat → Nat) (a : VReg) : VReg := vOfLanes w ((lanesOf w a).map f)
def vmap2 (w : Nat) (f : Nat → Nat → Nat) (a b : VReg) : VReg := vOfLanes w (List.zipWith f (lanesOf w a) (lanesOf w b))

/-- The floating-point format of a lane type (03 Table 3-6). -/
def tyFmt (t : Nat) : Fmt := if t = 1 then bf16 else if t = 2 then fp16 else fp32

/-- A lane operation on exact values, rounded once (06 R169). -/
def laneF2 (t : Nat) (f : Ex → Ex → Ex) (a b : Nat) : Nat := (tyFmt t).round (f ((tyFmt t).decode a) ((tyFmt t).decode b))

/-- The chunks whose mask bit is set, in ascending order. -/
def chunksOn (m : W64) : List Nat := (List.range 64).filter fun i => m.getLsbD i

/-- The active elements of a value under a mask: every lane of every active chunk (06 R187). -/
def activeLanes (w : Nat) (m : W64) (v : VReg) : List Nat :=
  (chunksOn m).flatMap fun i => if w = 16 then [vLane v 16 (2 * i), vLane v 16 (2 * i + 1)] else [vLane v 32 i]

/-- The mask of 64 tests. -/
def maskOf (f : Nat → Bool) : W64 := BitVec.ofNat 64 (boolBits 64 f)

/-! ### Forms -/

/-- A vector source of a slot. -/
def IC.v (c : IC) (w : Nat) (code : BitVec 6) : VReg := vSource c.t c.h w code.toNat

/-- A VRR form with two sources (06 R166–R168). -/
def vrrOp (x : VRR) (lg : Bool) (w lat : Nat) (f : VReg → VReg → VReg) : SlotOp :=
  { g := x.g.toNat, legal := lg, whr := .partOnly, dsts := [.v x.d.toNat], srcV := [x.a.toNat, x.b.toNat]
    eff := flyV lat x.d.toNat x.m.toNat fun c => f (c.v w x.a) (c.v w x.b) }

/-- A destination that the instruction reads: a source for poison (06 R170), and for code 60 a destination field, which is an illegal
instruction and no code-60 source (03 R73; DEDUCED, notes/assumptions/140). -/
def readDst (d : BitVec 6) : List Nat := if d.toNat < 60 then [d.toNat] else []

/-- A VRR form that reads its destination too (06 R170). -/
def vrrdOp (x : VRR) (lg : Bool) (w lat : Nat) (f : VReg → VReg → VReg → VReg) : SlotOp :=
  { g := x.g.toNat, legal := lg, whr := .partOnly, dsts := [.v x.d.toNat]
    srcV := [x.a.toNat, x.b.toNat] ++ readDst x.d
    eff := flyV lat x.d.toNat x.m.toNat fun c => f (c.v w x.a) (c.v w x.b) (c.v w x.d) }

/-- A VRR form with one source and the mask M(MS) (06 R186, R187, R189). -/
def vr1mOp (x : VRR) (lg : Bool) (w lat : Nat) (f : W64 → VReg → VReg) : SlotOp :=
  { g := x.g.toNat, legal := lg, whr := .partOnly, dsts := [.v x.d.toNat], srcV := [x.a.toNat]
    eff := flyV lat x.d.toNat x.m.toNat fun c => f (c.t.m x.m.toNat) (c.v w x.a) }

/-- A form with one source of 32-bit chunks. -/
def v1Op (g : BitVec 4) (d a : BitVec 6) (m : BitVec 2) (lg : Bool) (w lat : Nat) (f : VReg → VReg) : SlotOp :=
  { g := g.toNat, legal := lg, whr := .partOnly, dsts := [.v d.toNat], srcV := [a.toNat]
    eff := flyV lat d.toNat m.toNat fun c => f (c.v w a) }

/-- Writes the M register n at +lat, under M(ms) (06 R179). -/
def flyM (lat n ms : Nat) (f : IC → W64) : IC → State → State := fun c s => s.fly c.k lat (.m n (f c) (c.t.m ms))

/-! ### Floating-point arithmetic (06 R172–R175) -/

def arithF (x : VRR) (lg : Bool) (lat : Nat) (f : Ex → Ex → Ex) : SlotOp :=
  vrrOp x lg (tyWidth x.t.toNat) lat (vmap2 (tyWidth x.t.toNat) (laneF2 x.t.toNat f))

/-- round(f(a × b, d)) lane by lane (06 Table 6-1). -/
def fmaF (x : VRR) (lg : Bool) (f : Ex → Ex → Ex) : SlotOp :=
  let w := tyWidth x.t.toNat
  let F := tyFmt x.t.toNat
  vrrdOp x lg w 5 fun a b d =>
    vOfLanes w (List.zipWith (fun (p : Nat × Nat) e => F.round (f ((F.decode p.1).mul (F.decode p.2)) (F.decode e)))
      ((lanesOf w a).zip (lanesOf w b)) (lanesOf w d))

/-- VADD (R172). -/
def opVadd (x : VRR) : SlotOp := arithF x (legal (.vadd x)) 2 Ex.add
def execVadd (x : VRR) (s : State) : Host.Outcome State Fault Refusal :=
  issueOne 3 (encWord (.vadd x)) (opVadd x) s

/-- VSUB (R172). -/
def opVsub (x : VRR) : SlotOp := arithF x (legal (.vsub x)) 2 fun a b => a.add b.negate
def execVsub (x : VRR) (s : State) : Host.Outcome State Fault Refusal :=
  issueOne 3 (encWord (.vsub x)) (opVsub x) s

/-- VMIN (R173). -/
def opVmin (x : VRR) : SlotOp := arithF x (legal (.vmin x)) 2 Ex.min2
def execVmin (x : VRR) (s : State) : Host.Outcome State Fault Refusal :=
  issueOne 3 (encWord (.vmin x)) (opVmin x) s

/-- VMAX (R173). -/
def opVmax (x : VRR) : SlotOp := arithF x (legal (.vmax x)) 2 Ex.max2
def execVmax (x : VRR) (s : State) : Host.Outcome State Fault Refusal :=
  issueOne 3 (encWord (.vmax x)) (opVmax x) s

/-- VMUL (R172). -/
def opVmul (x : VRR) : SlotOp := arithF x (legal (.vmul x)) 5 Ex.mul
def execVmul (x : VRR) (s : State) : Host.Outcome State Fault Refusal :=
  issueOne 3 (encWord (.vmul x)) (opVmul x) s

/-- VFMA (R172). -/
def opVfma (x : VRR) : SlotOp := fmaF x (legal (.vfma x)) Ex.add
def execVfma (x : VRR) (s : State) : Host.Outcome State Fault Refusal :=
  issueOne 3 (encWord (.vfma x)) (opVfma x) s

/-- VFMS (R172). -/
def opVfms (x : VRR) : SlotOp := fmaF x (legal (.vfms x)) fun p d => p.add d.negate
def execVfms (x : VRR) (s : State) : Host.Outcome State Fault Refusal :=
  issueOne 3 (encWord (.vfms x)) (opVfms x) s

/-- VFNMA (R172). -/
def opVfnma (x : VRR) : SlotOp := fmaF x (legal (.vfnma x)) fun p d => p.negate.add d
def execVfnma (x : VRR) (s : State) : Host.Outcome State Fault Refusal :=
  issueOne 3 (encWord (.vfnma x)) (opVfnma x) s

/-- |x|. -/
def Ex.abs : Ex → Ex
  | .fin _ m e => .fin false m e
  | .inf _ => .inf false
  | .nan => .nan

/-- The magnitude m × 2^e, of a sign, rounded to an integral value: 2 to nearest even, 3 toward zero, 4 toward −∞
(06 Table 6-2). -/
def integral (how : Nat) (neg : Bool) (m : Nat) (e : Int) : Nat :=
  if how = 2 then roundUnits m e 0 .rne
  else
    let n := roundUnits m e 0 .rtz
    if how = 4 && neg && decide (e < 0) && m % 2 ^ (-e).toNat != 0 then n + 1 else n

/-- A float function of VUNA (06 Table 6-2). -/
def unaF (b : Nat) (x : Ex) : Ex :=
  if b = 0 then x.abs
  else if b = 1 then x.negate
  else match x with
    | .fin s m e => .fin s (integral b s m e) 0
    | y => y

/-- An integer function of VUNA (06 Table 6-2). -/
def unaI (b a : Nat) : Nat :=
  if b = 5 then (if a = 2 ^ 31 then 2 ^ 31 - 1 else (sextI a 32).natAbs)
  else if b = 6 then popN 32 a
  else clzN 32 a

/-- VUNA (R174). -/
def opVuna (x : VRR) : SlotOp :=
  let t := x.t.toNat
  let w := tyWidth t
  v1Op x.g x.d x.a x.m (legal (.vuna x)) w 2 (vmap1 w fun a =>
    if x.b.toNat ≤ 4 then (tyFmt t).round (unaF x.b.toNat ((tyFmt t).decode a)) else unaI x.b.toNat a)
def execVuna (x : VRR) (s : State) : Host.Outcome State Fault Refusal :=
  issueOne 3 (encWord (.vuna x)) (opVuna x) s

/-- max(−|b|, min(a, |b|)) on floats and on integers (06 R175). -/
def clampF (a b : Ex) : Ex := Ex.max2 b.abs.negate (Ex.min2 a b.abs)
def clampI (a b : Nat) : Nat :=
  let m : Int := unaI 5 b
  wrapN (max (-m) (min (sextI a 32) m)) 32

/-- VCLMP (R175). -/
def opVclmp (x : VRR) : SlotOp :=
  let t := x.t.toNat
  if x.t = 3 then vrrOp x (legal (.vclmp x)) 32 2 (vmap2 32 clampI)
  else vrrOp x (legal (.vclmp x)) (tyWidth t) 2 (vmap2 (tyWidth t) (laneF2 t clampF))
def execVclmp (x : VRR) (s : State) : Host.Outcome State Fault Refusal :=
  issueOne 3 (encWord (.vclmp x)) (opVclmp x) s

/-! ### Integer arithmetic and shifts (06 R176, R177) -/

/-- Saturates to a range. -/
def clip (lo hi x : Int) : Int := max lo (min hi x)

/-- A sum or difference under its variant (06 Table 6-4). -/
def satOp (t : Nat) (f : Int → Int → Int) (a b : Nat) : Nat :=
  if t = 0 then wrapN (clip (-2 ^ 31) (2 ^ 31 - 1) (f (sextI a 32) (sextI b 32))) 32
  else if t = 1 then wrapN (clip 0 (2 ^ 32 - 1) (f a b)) 32
  else wrapN (f a b) 32

/-- A product under its variant (06 Table 6-4). -/
def imulOp (t a b : Nat) : Nat :=
  if t = 0 then wrapN (sextI a 32 * sextI b 32 / 2 ^ 32) 32
  else if t = 1 then a * b / 2 ^ 32
  else a * b % 2 ^ 32

/-- A minimum or maximum under its variant (06 Table 6-4). -/
def imnxOp (t a b : Nat) : Nat :=
  let lt := decide (sextI a 32 < sextI b 32)
  if t = 0 then (if lt then a else b) else if t = 1 then (if lt then b else a)
  else if t = 2 then min a b else max a b

/-- VIADD (R176). -/
def opViadd (x : VRR) : SlotOp := vrrOp x (legal (.viadd x)) 32 2 (vmap2 32 (satOp x.t.toNat fun a b => a + b))
def execViadd (x : VRR) (s : State) : Host.Outcome State Fault Refusal :=
  issueOne 3 (encWord (.viadd x)) (opViadd x) s

/-- VISUB (R176). -/
def opVisub (x : VRR) : SlotOp := vrrOp x (legal (.visub x)) 32 2 (vmap2 32 (satOp x.t.toNat fun a b => a - b))
def execVisub (x : VRR) (s : State) : Host.Outcome State Fault Refusal :=
  issueOne 3 (encWord (.visub x)) (opVisub x) s

/-- VIMUL (R176). -/
def opVimul (x : VRR) : SlotOp := vrrOp x (legal (.vimul x)) 32 5 (vmap2 32 (imulOp x.t.toNat))
def execVimul (x : VRR) (s : State) : Host.Outcome State Fault Refusal :=
  issueOne 3 (encWord (.vimul x)) (opVimul x) s

/-- VIMNX (R176). -/
def opVimnx (x : VRR) : SlotOp := vrrOp x (legal (.vimnx x)) 32 2 (vmap2 32 (imnxOp x.t.toNat))
def execVimnx (x : VRR) (s : State) : Host.Outcome State Fault Refusal :=
  issueOne 3 (encWord (.vimnx x)) (opVimnx x) s

/-- VSHL (R177). -/
def opVshl (x : VShI) : SlotOp := v1Op x.g x.d x.a x.m (legal (.vshl x)) 32 2 (vmap1 32 fun a => a <<< x.i.toNat)
def execVshl (x : VShI) (s : State) : Host.Outcome State Fault Refusal :=
  issueOne 3 (encWord (.vshl x)) (opVshl x) s

/-- VSHR (R177). -/
def opVshr (x : VShI) : SlotOp := v1Op x.g x.d x.a x.m (legal (.vshr x)) 32 2 (vmap1 32 fun a => a >>> x.i.toNat)
def execVshr (x : VShI) (s : State) : Host.Outcome State Fault Refusal :=
  issueOne 3 (encWord (.vshr x)) (opVshr x) s

/-- VSAR (R177). -/
def opVsar (x : VShI) : SlotOp :=
  v1Op x.g x.d x.a x.m (legal (.vsar x)) 32 2 (vmap1 32 fun a => wrapN (sextI a 32 / 2 ^ x.i.toNat) 32)
def execVsar (x : VShI) (s : State) : Host.Outcome State Fault Refusal :=
  issueOne 3 (encWord (.vsar x)) (opVsar x) s

/-! ### Bitwise operations, moves, selection (06 R178) -/

/-- VAND (R178). -/
def opVand (x : VRR) : SlotOp := vrrOp x (legal (.vand x)) (tyWidth x.t.toNat) 2 fun a b => a &&& b
def execVand (x : VRR) (s : State) : Host.Outcome State Fault Refusal :=
  issueOne 3 (encWord (.vand x)) (opVand x) s

/-- VOR (R178). -/
def opVor (x : VRR) : SlotOp := vrrOp x (legal (.vor x)) (tyWidth x.t.toNat) 2 fun a b => a ||| b
def execVor (x : VRR) (s : State) : Host.Outcome State Fault Refusal :=
  issueOne 3 (encWord (.vor x)) (opVor x) s

/-- VXOR (R178). -/
def opVxor (x : VRR) : SlotOp := vrrOp x (legal (.vxor x)) (tyWidth x.t.toNat) 2 fun a b => a ^^^ b
def execVxor (x : VRR) (s : State) : Host.Outcome State Fault Refusal :=
  issueOne 3 (encWord (.vxor x)) (opVxor x) s

/-- VMOV (R178). -/
def opVmov (x : VRA) : SlotOp := v1Op x.g x.d x.a x.m (legal (.vmov x)) (tyWidth x.t.toNat) 2 fun a => a
def execVmov (x : VRA) (s : State) : Host.Outcome State Fault Refusal :=
  issueOne 3 (encWord (.vmov x)) (opVmov x) s

/-- VSEL (R178): M(MS) selects; every chunk is written. -/
def opVsel (x : VRR) : SlotOp :=
  { g := x.g.toNat, legal := legal (.vsel x), whr := .partOnly, dsts := [.v x.d.toNat], srcV := [x.a.toNat, x.b.toNat]
    eff := flyV 2 x.d.toNat 0 fun c =>
      mergeChunks (c.v (tyWidth x.t.toNat) x.b) (c.v (tyWidth x.t.toNat) x.a) (c.t.m x.m.toNat) }
def execVsel (x : VRR) (s : State) : Host.Outcome State Fault Refusal :=
  issueOne 3 (encWord (.vsel x)) (opVsel x) s

/-! ### Comparisons and masks (06 R179–R182) -/

/-- The condition of VCMP on two 32-bit lanes (06 Table 6-5). -/
def cmpLane (t cond a b : Nat) : Bool := if t = 0 then condF cond (fp32.decode a) (fp32.decode b) else condI cond a b

/-- VCMP (R180). -/
def opVcmp (x : VRR) : SlotOp :=
  { g := x.g.toNat, legal := legal (.vcmp x), whr := .partOnly, dsts := [.m (x.d.toNat % 8)]
    srcV := [x.a.toNat, x.b.toNat]
    eff := flyM 2 (x.d.toNat % 8) x.m.toNat fun c =>
      let a := c.v 32 x.a
      let b := c.v 32 x.b
      maskOf fun i => cmpLane x.t.toNat (x.d.toNat / 8) (vLane a 32 i) (vLane b 32 i) }
def execVcmp (x : VRR) (s : State) : Host.Outcome State Fault Refusal :=
  issueOne 3 (encWord (.vcmp x)) (opVcmp x) s

/-- VMSK (R181). -/
def opVmsk (x : VRB) : SlotOp :=
  { g := x.g.toNat, legal := legal (.vmsk x), whr := .partOnly, dsts := [.m (x.d.toNat % 8)]
    eff := flyM 2 (x.d.toNat % 8) x.m.toNat fun c => vmskOp (x.d.toNat / 8) (c.t.m x.a.toNat) (c.t.m x.b.toNat) }
def execVmsk (x : VRB) (s : State) : Host.Outcome State Fault Refusal :=
  issueOne 3 (encWord (.vmsk x)) (opVmsk x) s

/-- A mask made of a vector (06 Table 6-7, operations 0–3). -/
def mtsMask (b : Nat) (v : VReg) : W64 :=
  if b = 0 then maskOf fun i => decide (i < vLane v 32 0)
  else if b = 1 then maskOf fun i => (vLane v 32 i).testBit 31
  else if b = 2 then maskOf fun i => vLane v 32 i != 0
  else v.setWidth 64

/-- A vector made of a mask (06 Table 6-7, operations 4 and 5). -/
def mtsVec (b : Nat) (m : W64) : VReg :=
  if b = 4 then vOfLanes 32 ((List.range 64).map fun i => if m.getLsbD i then 2 ^ 32 - 1 else 0)
  else vOfLanes 32 (List.replicate 64 (popN 64 m.toNat))

/-- VMTS (R182). -/
def opVmts (x : VRB) : SlotOp :=
  if x.b.toNat ≤ 3 then
    { g := x.g.toNat, legal := legal (.vmts x), whr := .partOnly, dsts := [.m (x.d.toNat % 8)], srcV := [x.a.toNat]
      eff := flyM 3 (x.d.toNat % 8) x.m.toNat fun c => mtsMask x.b.toNat (c.v 32 x.a) }
  else
    { g := x.g.toNat, legal := legal (.vmts x), whr := .partOnly, dsts := [.v x.d.toNat]
      eff := flyV 3 x.d.toNat x.m.toNat fun c => mtsVec x.b.toNat (c.t.m x.a.toNat) }
def execVmts (x : VRB) (s : State) : Host.Outcome State Fault Refusal :=
  issueOne 3 (encWord (.vmts x)) (opVmts x) s

/-! ### Conversions and block scales (06 R183–R186) -/

/-- A VCV form: the whole destination, with n draws under RM = .sr (06 R166, R183). -/
def vcvOp (x : VCv) (lg : Bool) (n : Nat) (f : W64 → VReg → VReg) : SlotOp :=
  let w := if x.s.toNat = 1 ∨ x.s.toNat = 2 then 16 else 32
  { g := x.g.toNat, legal := lg, whr := .partOnly, dsts := [.v x.d.toNat], srcV := [x.a.toNat]
    draws := fun _ => if x.r = 2 then n else 0
    impure := fun _ => if x.r = 2 then some 0 else none
    eff := flyV 3 x.d.toNat 0 fun c => f c.sr (c.v w x.a) }

/-- VCVT's chunk (06 R183). -/
def cvtChunk (sf df rm : Nat) (st : W64) (i a : Nat) : Nat :=
  (convert (decCode sf (if fmtBits sf = 32 then a else a % 65536)) df (rmOf rm st i) 0).1

/-- VCVT (R183). -/
def opVcvt (x : VCv) : SlotOp :=
  vcvOp x (legal (.vcvt x)) 64 fun st v =>
    vOfLanes 32 ((List.range 64).map fun i => cvtChunk x.s.toNat x.e.toNat x.r.toNat st i (vLane v 32 i))
def execVcvt (x : VCv) (s : State) : Host.Outcome State Fault Refusal :=
  issueOne 3 (encWord (.vcvt x)) (opVcvt x) s

/-- The packed codes of VQNT (06 R184). -/
def quantize (df rm : Nat) (st : W64) (xs : List Ex) : VReg :=
  if df = 5 then
    let blocks := (List.range (xs.length / 32)).map fun b =>
      mxBlock ((xs.drop (32 * b)).take 32) fun i => rmOf rm st (32 * b + i)
    let codes := packLE 4 (blocks.flatMap fun q => q.2.map fun e => e.1)
    BitVec.ofNat 2048 (codes + 2 ^ (8 * 192) * packLE 8 (blocks.map fun q => q.1))
  else
    BitVec.ofNat 2048 (packLE 8 ((List.range xs.length).zip xs |>.map fun e => (convert e.2 df (rmOf rm st e.1) 0).1))

/-- VQNT (R184). -/
def opVqnt (x : VCv) : SlotOp :=
  let w := if x.s = 1 then 16 else 32
  vcvOp x (legal (.vqnt x)) (2048 / w) fun st v =>
    quantize x.e.toNat x.r.toNat st ((lanesOf w v).map (tyFmt x.s.toNat).decode)
def execVqnt (x : VCv) (s : State) : Host.Outcome State Fault Refusal :=
  issueOne 3 (encWord (.vqnt x)) (opVqnt x) s

/-- The exact value of element j of a packed vector (06 R185). -/
def packedEl (sf : Nat) (v : VReg) (j : Nat) : Ex :=
  if sf = 5 then decMx (vLane v 4 j) (vLane v 8 (192 + j / 32)) else decCode sf (vLane v 8 j)

/-- VDQNT (R185): every result is exact but an mx4 value beyond the range of DF, which rounds to nearest and so becomes an infinity
(02 R53). -/
def opVdqnt (x : VCv) : SlotOp :=
  let w := if x.e = 1 then 16 else 32
  vcvOp x (legal (.vdqnt x)) 0 fun st v =>
    vOfLanes w ((List.range (2048 / w)).map fun j =>
      ((tyFmt x.e.toNat).conv (packedEl x.s.toNat v j) (if x.s = 5 then .rne else rmOf x.r.toNat st j)).1)
def execVdqnt (x : VCv) (s : State) : Host.Outcome State Fault Refusal :=
  issueOne 3 (encWord (.vdqnt x)) (opVdqnt x) s

/-- The scale byte of a block of active elements (06 R186). -/
def blockByte (fmt : Nat) (xs : List Ex) : Nat :=
  if xs.any Ex.isNan then 255
  else
    let emax : Int := if fmt = 3 then 7 else if fmt = 4 then 14 else 2
    let top := xs.foldl (fun acc x => match x.exp?, acc with
      | some l, some a => some (max a l)
      | some l, none => some l
      | none, a => a) (none : Option Int)
    let e : Int := match top with
      | none => -127
      | some l => l - emax
    wrapN (clip (-127) 127 e + 127) 8

/-- What VBSC writes into a chunk of a block (06 R186). -/
def blockChunk (kind byte : Nat) : Nat :=
  if kind = 0 then byte
  else if byte = 255 then fp32.canonNan
  else r32 (.fin false 1 (127 - (byte : Int)))

/-- VBSC (R186). -/
def opVbsc (x : VRR) : SlotOp :=
  let t := x.t.toNat
  let w := tyWidth t
  let n := if t = 1 then 16 else 32
  vr1mOp x (legal (.vbsc x)) w 3 fun m v =>
    vOfLanes 32 ((List.range (64 / n)).flatMap fun b =>
      let on := m &&& maskOf fun i => i / n == b
      List.replicate n (blockChunk (x.b.toNat / 16) (blockByte (x.b.toNat % 16) ((activeLanes w on v).map (tyFmt t).decode))))
def execVbsc (x : VRR) (s : State) : Host.Outcome State Fault Refusal :=
  issueOne 3 (encWord (.vbsc x)) (opVbsc x) s

/-! ### Reductions, dot products, scans (06 R187–R190) -/

/-- Sum, maximum or minimum of exact values, with the identities of Table 6-9. -/
def foldF (op : Nat) (xs : List Ex) : Ex :=
  if op = 0 then exSum xs
  else if op = 1 then xs.foldl Ex.max2 (.inf true)
  else xs.foldl Ex.min2 (.inf false)

/-- The same on INT32 codes. -/
def foldI (op : Nat) (xs : List Nat) : Nat :=
  if op = 0 then xs.sum % 2 ^ 32
  else if op = 1 then wrapN ((xs.map (sextI · 32)).foldl max (-2 ^ 31)) 32
  else wrapN ((xs.map (sextI · 32)).foldl min (2 ^ 31 - 1)) 32

/-- VRED's result (06 Table 6-8). -/
def redF (op : Nat) (xs : List Ex) : Ex :=
  if op = 0 then exSum xs
  else if op = 1 then exSum (xs.map fun x => x.mul x)
  else if op = 2 then foldF 1 xs
  else if op = 3 then foldF 2 xs
  else foldF 1 (xs.map Ex.abs)

/-- VRED (R187). -/
def opVred (x : VRR) : SlotOp :=
  let t := x.t.toNat
  let w := tyWidth t
  vr1mOp x (legal (.vred x)) w 8 fun m v =>
    let xs := activeLanes w m v
    vOfLanes 32 (List.replicate 64 (
      if t = 3 then foldI (x.b.toNat - 1) xs else r32 (redF x.b.toNat (xs.map (tyFmt t).decode))))
def execVred (x : VRR) (s : State) : Host.Outcome State Fault Refusal :=
  issueOne 3 (encWord (.vred x)) (opVred x) s

/-- VDOT (R188). -/
def opVdot (x : VRR) : SlotOp :=
  let t := x.t.toNat
  let w := tyWidth t
  { g := x.g.toNat, legal := legal (.vdot x), whr := .partOnly, dsts := [.v x.d.toNat]
    srcV := [x.a.toNat, x.b.toNat, x.d.toNat]
    eff := flyV 8 x.d.toNat x.m.toNat fun c =>
      let m := c.t.m x.m.toNat
      let p := exSum (List.zipWith (fun a b => ((tyFmt t).decode a).mul ((tyFmt t).decode b))
        (activeLanes w m (c.v w x.a)) (activeLanes w m (c.v w x.b)))
      vmap1 32 (fun d => r32 (exSum [d32 d, p])) (c.v 32 x.d) }
def execVdot (x : VRR) (s : State) : Host.Outcome State Fault Refusal :=
  issueOne 3 (encWord (.vdot x)) (opVdot x) s

/-- Lane i of a scan over the active lanes lo … hi − 1 (06 R189, R190). -/
def scanLane (t op : Nat) (m : W64) (v : VReg) (lo hi : Nat) : Nat :=
  let xs := ((List.range hi).filter fun j => decide (lo ≤ j) && m.getLsbD j).map fun j => vLane v 32 j
  if t = 3 then foldI op xs else r32 (foldF op (xs.map d32))

/-- VSCAN (R189). -/
def opVscan (x : VRR) : SlotOp :=
  vr1mOp x (legal (.vscan x)) 32 10 fun m v =>
    let b := x.b.toNat
    vOfLanes 32 ((List.range 64).map fun i => scanLane x.t.toNat (b - 1) m v 0 (if b = 1 then i else i + 1))
def execVscan (x : VRR) (s : State) : Host.Outcome State Fault Refusal :=
  issueOne 3 (encWord (.vscan x)) (opVscan x) s

/-- The lane at which lane i's segment begins (06 R190). -/
def segStart (heads : W64) (i : Nat) : Nat :=
  match (List.range (i + 1)).reverse.find? fun j => heads.getLsbD j with
  | some j => j
  | none => 0

/-- VSEG (R190). -/
def opVseg (x : VRR) : SlotOp :=
  { g := x.g.toNat, legal := legal (.vseg x), whr := .partOnly, dsts := [.v x.d.toNat], srcV := [x.a.toNat]
    eff := flyV 10 x.d.toNat x.m.toNat fun c =>
      let heads := c.t.m (x.b.toNat % 8)
      let v := c.v 32 x.a
      vOfLanes 32 ((List.range 64).map fun i =>
        scanLane x.t.toNat (x.b.toNat / 8) (c.t.m x.m.toNat) v (segStart heads i) (i + 1)) }
def execVseg (x : VRR) (s : State) : Host.Outcome State Fault Refusal :=
  issueOne 3 (encWord (.vseg x)) (opVseg x) s

/-! ### Lane movement (06 R191, R192) -/

/-- A vector built chunk by chunk. -/
def chunks (f : Nat → Nat) : VReg := vOfLanes 32 ((List.range 64).map f)

/-- VPERM (R191). -/
def opVperm (x : VRB) : SlotOp :=
  { g := x.g.toNat, legal := legal (.vperm x), whr := .partOnly, dsts := [.v x.d.toNat], srcV := [x.a.toNat, x.b.toNat]
    eff := flyV 3 x.d.toNat x.m.toNat fun c =>
      let a := c.v 32 x.a
      let b := c.v 32 x.b
      chunks fun i => let y := vLane b 32 i; if y.testBit 31 then 0 else vLane a 32 (y % 64) }
def execVperm (x : VRB) (s : State) : Host.Outcome State Fault Refusal :=
  issueOne 3 (encWord (.vperm x)) (opVperm x) s

/-- VSHUF (R192). -/
def opVshuf (x : VRI) : SlotOp :=
  let k := x.i.toNat % 64
  v1Op x.g x.d x.a x.m (legal (.vshuf x)) 32 3 fun v => chunks fun i =>
    match x.i.toNat / 64 with
    | 0 => vLane v 32 (i ^^^ k)
    | 1 => vLane v 32 k
    | 2 => let y := vLane v 32 i; y % 65536 * 65536 + y / 65536
    | _ => vLane v 32 (63 - i)
def execVshuf (x : VRI) (s : State) : Host.Outcome State Fault Refusal :=
  issueOne 3 (encWord (.vshuf x)) (opVshuf x) s

/-- VROT (R192). -/
def opVrot (x : VRI) : SlotOp :=
  let k := x.i.toNat % 64
  v1Op x.g x.d x.a x.m (legal (.vrot x)) 32 3 fun v => chunks fun i =>
    match x.i.toNat / 64 with
    | 0 => vLane v 32 ((i + 64 - k) % 64)
    | 1 => if k ≤ i then vLane v 32 (i - k) else 0
    | _ => if i + k < 64 then vLane v 32 (i + k) else 0
def execVrot (x : VRI) (s : State) : Host.Outcome State Fault Refusal :=
  issueOne 3 (encWord (.vrot x)) (opVrot x) s

/-- VEXT (R192). -/
def opVext (x : VEx) : SlotOp :=
  { g := x.g.toNat, legal := legal (.vext x), whr := .partOnly, dsts := [.v x.d.toNat], srcV := x.a.toNat :: readDst x.d
    eff := flyV 3 x.d.toNat x.m.toNat fun c =>
      let a := c.v 32 x.a
      let e := c.v 32 x.d
      chunks fun i => let j := i + x.i.toNat; if j < 64 then vLane a 32 j else vLane e 32 (j - 64) }
def execVext (x : VEx) (s : State) : Host.Outcome State Fault Refusal :=
  issueOne 3 (encWord (.vext x)) (opVext x) s

/-- VINS (R192): only chunk k, under the mask; the chunks it leaves count as masked off, so a poisoned V(D) stays poisoned
(DESIGN CHOICE, notes/assumptions/109). -/
def opVins (x : VEx) : SlotOp :=
  { g := x.g.toNat, legal := legal (.vins x), whr := .partOnly, dsts := [.v x.d.toNat], srcV := [x.a.toNat]
    eff := fun c s => s.fly c.k 3 (.v (c.t.vName x.d.toNat) (vOfLanes 32 (List.replicate 64 (vLane (c.v 32 x.a) 32 0)))
      (c.t.m x.m.toNat &&& maskOf fun i => i == x.i.toNat) false) }
def execVins (x : VEx) (s : State) : Host.Outcome State Fault Refusal :=
  issueOne 3 (encWord (.vins x)) (opVins x) s

/-! ### Reciprocal, square root, exp2, log2 (06 R193, R194) -/

/-- A lane-wise approximation (06 Table 6-11). -/
def apxOp (x : VRA) (lg : Bool) (major : Nat) : SlotOp :=
  let w := tyWidth x.t.toNat
  v1Op x.g x.d x.a x.m lg w 12 (vmap1 w (approxLane major x.t.toNat (tyFmt x.t.toNat)))

/-- VRCP (R193). -/
def opVrcp (x : VRA) : SlotOp := apxOp x (legal (.vrcp x)) 37
def execVrcp (x : VRA) (s : State) : Host.Outcome State Fault Refusal :=
  issueOne 3 (encWord (.vrcp x)) (opVrcp x) s

/-- VRSQ (R193). -/
def opVrsq (x : VRA) : SlotOp := apxOp x (legal (.vrsq x)) 38
def execVrsq (x : VRA) (s : State) : Host.Outcome State Fault Refusal :=
  issueOne 3 (encWord (.vrsq x)) (opVrsq x) s

/-- VSQRT (R193). -/
def opVsqrt (x : VRA) : SlotOp := apxOp x (legal (.vsqrt x)) 39
def execVsqrt (x : VRA) (s : State) : Host.Outcome State Fault Refusal :=
  issueOne 3 (encWord (.vsqrt x)) (opVsqrt x) s

/-- VEXP2 (R193). -/
def opVexp2 (x : VRA) : SlotOp := apxOp x (legal (.vexp2 x)) 40
def execVexp2 (x : VRA) (s : State) : Host.Outcome State Fault Refusal :=
  issueOne 3 (encWord (.vexp2 x)) (opVexp2 x) s

/-- VLOG2 (R193). -/
def opVlog2 (x : VRA) : SlotOp := apxOp x (legal (.vlog2 x)) 41
def execVlog2 (x : VRA) (s : State) : Host.Outcome State Fault Refusal :=
  issueOne 3 (encWord (.vlog2 x)) (opVlog2 x) s

end Sys2Proof.Machine
end

