-- ==== Sys2Proof/Machine/Matrix.lean ====
section
/-! DEFINITION. Matrix and accumulator instructions, position 5 (07 R196–R216). -/

namespace Sys2Proof.Machine

open Sys2Proof

/-! ### Schedule checks (03 R95, 07 R214, R215) -/

/-- The pseudo commands of the accumulator port that have not fired. -/
def IC.port (c : IC) : List Cmd := c.s.cmds.filter fun m => m.key == c.k && m.pos == 5 && (m.major == 3 || m.major == 4)

/-- Whether a bank is owned by a multiply-accumulate, or by an ACLD whose ticket the instruction does not consume. -/
def bankBusy (c : IC) (waits : List Nat) (b : Nat) : Bool :=
  decide (c.t.scyc < getD 0 c.t.bankFree b) || c.port.any fun m => m.major == 3 && m.cid == b && !waits.contains m.id

/-- The schedule check of a T slot that names banks. -/
def bankSched (banks : List Nat) (c : IC) : Bool := banks.any (bankBusy c [])

/-- The register pair of a descriptor (03 R80). -/
def pairReg (p : BitVec 4) : Nat := 32 + 2 * p.toNat
def IC.desc (c : IC) (p : BitVec 4) : OpDesc := ⟨c.sv (pairReg p), c.sv (pairReg p + 1)⟩

/-! ### Multiply-accumulate (07 R197–R204) -/

/-- A malformed operand descriptor (07 R197, R198). -/
def OpDesc.bad (d : OpDesc) : Bool :=
  fld d.w0 63 48 != 0 || fld d.w0 31 25 != 0 || fld d.w1 31 14 != 0 || d.w1.getLsbD 3 || kOf d.fmt == 0 ||
  (d.sofs != 0 && !d.isMx) || (d.hx != 0 && !d.rec_)

/-- The first byte run of an operand that reaches beyond 2^25 (07 R201). -/
def OpDesc.beyond (d : OpDesc) : Option Nat := (d.allRuns.find? fun r => decide (2 ^ 25 < r.1 + r.2)).map Prod.fst

/-- A base or pitch that is not a multiple of the run size (07 R201). -/
def OpDesc.misaligned (d : OpDesc) : Bool :=
  let n := runBytes d.fmt
  d.base % n != 0 || d.rpitch % n != 0 || d.tpitch % n != 0

/-- The pages of both operands (13 R381). -/
def twoPages (c : IC) (a b : OpDesc) : List Nat := ((a.allRuns ++ b.allRuns).flatMap fun r => pagesOf c.cx r.1 r.2).dedup

/-- Descriptor, address, alignment (07 R216 steps 2–4). -/
def tmmChk (p q : BitVec 4) (c : IC) : Option SF :=
  let a := c.desc p
  let b := c.desc q
  if a.bad || b.bad || kOf a.fmt != kOf b.fmt then some ⟨20, c.word.toNat, 0⟩
  else if (twoPages c a b).length > 256 then some ⟨20, c.word.toNat, 0⟩
  else match a.beyond.or b.beyond with
    | some x => some ⟨8, x, 0⟩
    | none =>
      if a.misaligned then some ⟨9, a.base, 0⟩ else if b.misaligned then some ⟨9, b.base, 0⟩ else none

/-- The geometry an operand format needs (07 R199). -/
def fmtGeo (f : Nat) : Nat := if f = 1 ∨ f = 2 then 1 else if f = 5 then 3 else 2

/-- Faults of an operand's handle and record (07 R199, R216 steps 6 and 10).  A line format that the operand format does not
accept stops the instruction at its group (R206). -/
def opLate (c : IC) (d : OpDesc) (step : Nat) : Option SF :=
  let h := c.t.h d.hx
  if !d.rec_ || h.st = .pending then none
  else if step = 6 then handleFault h d.hx (d.hx * 2 ^ 56)
  else match h.tens with
    | none => some ⟨17, 0, d.hx⟩
    | some i =>
      if c.s.recGeo c.cx i ≠ fmtGeo d.fmt then some ⟨17, i, d.hx⟩ else none

/-- The record an operand captures (07 R199). -/
def opRec (c : IC) (d : OpDesc) : Option Nat := if d.rec_ then (c.t.h d.hx).tens else none

/-- MMA (op 0), MMAT (1) and MMAZ (2). -/
def tmmOp (x : Tmm) (op : Nat) : SlotOp :=
  let b := x.b.toNat
  let ks := tickets x.c.toNat x.n.toNat
  { g := x.g.toNat, whr := .partOnly, dsts := [.k x.k.toNat], banks := [b]
    srcS := [pairReg x.p, pairReg x.p + 1, pairReg x.q, pairReg x.q + 1]
    srcB := if op = 2 then [] else [b]
    sched := fun c => decide (c.t.scyc < c.t.matFree) || bankBusy c (c.captured ks) b
    chk := tmmChk x.p x.q
    hold := fun c =>
      (ticketHold c ks).or
        (if [c.desc x.p, c.desc x.q].any fun d => d.rec_ && (c.t.h d.hx).st == .pending then some 5 else none)
    spRuns := fun c => (c.desc x.p).allRuns ++ (c.desc x.q).allRuns
    post := fun c =>
      let a := c.desc x.p
      let d := c.desc x.q
      ((((opLate c a 6).or (opLate c d 6)).or (spMapFault c (a.allRuns ++ d.allRuns))).or (opLate c a 10)).or (opLate c d 10)
    eff := fun c s =>
      let a := c.desc x.p
      let d := c.desc x.q
      let id := s.nextId
      let acc := if op = 2 then Bank.fill 0x80000000 else c.t.bank b
      let run : MatRun := { op, bank := b, acc, a0 := a.w0, a1 := a.w1, b0 := d.w0, b1 := d.w1
                            recA := opRec c a, recB := opRec c d, recs := (opRec c a).toList ++ (opRec c d).toList, issued := c.t.scyc, baddr := c.t.pc, cmd := id }
      let s1 := s.newCmd { id := 0, key := c.k, ctx := c.cx, pos := 5, major := op, baddr := c.t.pc, st := .running, cid := b }
        x.k.toNat
      let s2 := s1.modTh c.k fun t =>
        let t := if op = 2 then (t.setBank b acc).setBPsn b false else t
        ({ t with mats := t.mats ++ [run], matFree := c.t.scyc + 128, bankFree := putK t.bankFree b (c.t.scyc + 144) }).setProg b
          (progWord 0 op 1 run.groups 0)
      s2.readGroup c.k run }

/-- MMA (R203). -/
def opMma (x : Tmm) : SlotOp := tmmOp x 0
def execMma (x : Tmm) (s : State) : Host.Outcome State Fault Refusal :=
  issueOne 5 (encWord (.mma x)) (opMma x) s

/-- MMAT (R203). -/
def opMmat (x : Tmm) : SlotOp := tmmOp x 1
def execMmat (x : Tmm) (s : State) : Host.Outcome State Fault Refusal :=
  issueOne 5 (encWord (.mmat x)) (opMmat x) s

/-- MMAZ (R203): it seeds −0 and clears PSN. -/
def opMmaz (x : Tmm) : SlotOp := tmmOp x 2
def execMmaz (x : Tmm) (s : State) : Host.Outcome State Fault Refusal :=
  issueOne 5 (encWord (.mmaz x)) (opMmaz x) s

/-- Whether SCYC of an issuer runs (03 R94, R96). -/
def Thr.alive (t : Thr) : Bool := (t.mode == .running || t.mode == .finishing) && !t.dbg.stopped && !t.frozen

/-- MATRIX_GROUP_READ (07 R203, R205): the group due at the partition's SCYC. -/
def execMatrixGroupRead (k : Nat) (s : State) : Host.Outcome State Fault Refusal :=
  .next (if (s.th k).alive then s.matrixStep k else s)

/-- MATRIX_COMPLETE (07 R203, R204): a multiply-accumulate whose +144 the partition's SCYC has reached. -/
def execMatrixComplete (k : Nat) (s : State) : Host.Outcome State Fault Refusal := .next (if (s.th k).alive then s.matrixDone k else s)

/-- RESULT_LAND (03 R91–R93): what is due at the partition's SCYC lands, unless data is missing. -/
def execResultLand (k : Nat) (s : State) : Host.Outcome State Fault Refusal :=
  .next (if (s.th k).alive then s.landThr k else s)

/-! ### Accumulator instructions (07 R210, R211) -/

/-- A T slot on one bank but for its effect. -/
def tacOp (g : BitVec 4) (b : BitVec 2) : SlotOp :=
  { g := g.toNat, whr := .partOnly, banks := [b.toNat], sched := bankSched [b.toNat] }

/-- ACZ (R210): every element +0, PSN cleared. -/
def opAcz (x : Acz) : SlotOp :=
    { tacOp x.g x.b with eff := fun c s => s.fly c.k 2 (.bank x.b.toNat [] (some false)) }
def execAcz (x : Acz) (s : State) : Host.Outcome State Fault Refusal :=
  issueOne 5 (encWord (.acz x)) (opAcz x) s

/-- The row or column index of ACRD and ACWR (07 Table 7-6). -/
def tacIdx (x : Tac) (c : IC) : Nat :=
  ((if x.i.toNat ≥ 128 then fld (c.sv x.y.toNat) 5 0 else 0) + x.i.toNat % 64) % 64

/-- ACRD (R210): at +6. -/
def opAcrd (x : Tac) : SlotOp :=
  { tacOp x.g x.b with
    legal := legal (.acrd x), dsts := [.v x.x.toNat], srcB := [x.b.toNat]
    srcS := if x.i.toNat ≥ 128 then [x.y.toNat] else []
    eff := flyV 6 x.x.toNat 0 fun c =>
      let b := c.t.bank x.b.toNat
      let m := tacIdx x c
      chunks fun t => if x.i.getLsbD 6 then b.el t m else b.el m t }
def execAcrd (x : Tac) (s : State) : Host.Outcome State Fault Refusal :=
  issueOne 5 (encWord (.acrd x)) (opAcrd x) s

/-- ACWR (R210): raw bits; PSN is kept. -/
def opAcwr (x : Tac) : SlotOp :=
  { tacOp x.g x.b with
    legal := legal (.acwr x), srcV := [x.x.toNat], srcS := if x.i.toNat ≥ 128 then [x.y.toNat] else []
    eff := fun c s =>
      let v := c.v 32 x.x
      let m := tacIdx x c
      s.fly c.k 2 (if x.i.getLsbD 6 then .bankCol x.b.toNat m v else .bankRow x.b.toNat m v) }
def execAcwr (x : Tac) (s : State) : Host.Outcome State Fault Refusal :=
  issueOne 5 (encWord (.acwr x)) (opAcwr x) s

/-- The factor of element (i, j) in ACSC (07 Table 7-6). -/
def scaleOf (x : Acsc) (v : VReg) (i j : Nat) : Ex :=
  if x.i.toNat < 64 then d32 (vLane v 32 i)
  else if x.i.toNat < 128 then d32 (vLane v 32 j)
  else .fin false 1 (sextI x.i.toNat 6)

/-- ACSC (R210). -/
def opAcsc (x : Acsc) : SlotOp :=
  { tacOp x.g x.b with
    legal := legal (.acsc x), srcB := [x.b.toNat], srcV := if x.i.toNat < 128 then [x.x.toNat] else []
    eff := fun c s =>
      let b := c.t.bank x.b.toNat
      let v := c.v 32 x.x
      s.fly c.k 2 (.bank x.b.toNat (Bank.of fun i j => r32 ((d32 (b.el i j)).mul (scaleOf x v i j))) none) }
def execAcsc (x : Acsc) (s : State) : Host.Outcome State Fault Refusal :=
  issueOne 5 (encWord (.acsc x)) (opAcsc x) s

/-- ACMV (R210): both banks are checked; a bank to itself without .t has no effect. -/
def opAcmv (x : Acmv) : SlotOp :=
  { tacOp x.g x.b with
    banks := [x.b.toNat, x.x.toNat], srcB := [x.x.toNat], sched := bankSched [x.b.toNat, x.x.toNat]
    eff := fun c s =>
      let b := c.t.bank x.x.toNat
      if x.b = x.x ∧ x.i = 0 then s
      else s.fly c.k 2 (.bank x.b.toNat (if x.i = 1 then b.transpose else b) (some (c.t.bBad x.x.toNat))) }
def execAcmv (x : Acmv) (s : State) : Host.Outcome State Fault Refusal :=
  issueOne 5 (encWord (.acmv x)) (opAcmv x) s

/-- ACPS (R210). -/
def opAcps (x : Acps) : SlotOp :=
  { tacOp x.g x.b with
    legal := legal (.acps x), dsts := if x.i = 1 then [] else [.s x.x.toNat]
    eff := fun c s =>
      if x.i = 1 then s.fly c.k 2 (.bankPsn x.b.toNat false)
      else s.fly c.k 2 (.s x.x.toNat (BitVec.ofNat 64 (b2n (c.t.bBad x.b.toNat))) false) }
def execAcps (x : Acps) (s : State) : Host.Outcome State Fault Refusal :=
  issueOne 5 (encWord (.acps x)) (opAcps x) s

/-- MPRG (R209). -/
def opMprg (x : Mprg) : SlotOp :=
  { tacOp x.g x.b with
    dsts := [.s x.x.toNat], eff := flyS 2 x.x.toNat fun c => getD 0 c.t.prog x.b.toNat }
def execMprg (x : Mprg) (s : State) : Host.Outcome State Fault Refusal :=
  issueOne 5 (encWord (.mprg x)) (opMprg x) s

/-! ### Loading and storing banks (07 R212–R215) -/

/-- A transfer descriptor (07 Table 7-7). -/
structure XDesc where
  w0 : W64
  w1 : W64

def XDesc.pitch (d : XDesc) : Nat := fld d.w1 47 32
def XDesc.rec_ (d : XDesc) : Bool := d.w1.getLsbD 8
def XDesc.tr (d : XDesc) : Bool := d.w1.getLsbD 7
def XDesc.sp (d : XDesc) : Bool := d.w1.getLsbD 6
def XDesc.rm (d : XDesc) : Nat := fld d.w1 5 4
def XDesc.fmt (d : XDesc) : Nat := fld d.w1 3 0

/-- A malformed transfer descriptor (07 R212). -/
def XDesc.bad (d : XDesc) (load : Bool) : Bool :=
  fld d.w1 63 48 != 0 || fld d.w1 31 9 != 0 || (d.rec_ && (d.sp || d.fmt != 0)) || (!d.rec_ && decide (2 < d.fmt)) ||
  d.rm == 3 || (d.rm == 2 && d.fmt == 0 && !d.rec_) || (load && d.rm != 0)

def IC.xdesc (c : IC) (p : BitVec 4) : XDesc := ⟨c.sv (pairReg p), c.sv (pairReg p + 1)⟩

/-- The record of a REC transfer's page. -/
def XDesc.record (d : XDesc) (c : IC) : Option Nat := if d.rec_ then (c.hnd d.w0).tens else none

/-- Bytes of a memory row (07 R212). -/
def XDesc.row (d : XDesc) (c : IC) : Nat :=
  if d.rec_ then match d.record c with
    | some i => convBytes (c.s.recGeo c.cx i)
    | none => 64
  else if d.fmt = 0 then 256 else 128

/-- The bytes from the first row to the end of the last. -/
def XDesc.span (d : XDesc) (c : IC) : Nat := 63 * d.pitch + d.row c

/-- The scratchpad rows. -/
def XDesc.spRows (d : XDesc) (c : IC) : List (Nat × Nat) := (List.range 64).map fun i => (d.w0.toNat + i * d.pitch, d.row c)

/-- Descriptor, address, alignment (07 R216 steps 2–4). -/
def xferChk (p : BitVec 4) (load : Bool) (c : IC) : Option SF :=
  let d := c.xdesc p
  if d.bad load then some ⟨20, c.word.toNat, 0⟩
  else if d.sp then
    match (d.spRows c).find? fun r => decide (2 ^ 25 < r.1 + r.2) with
    | some r => some ⟨8, r.1, 0⟩
    | none => if d.w0.toNat % d.row c ≠ 0 ∨ d.pitch % d.row c ≠ 0 then some ⟨9, d.w0.toNat, 0⟩ else none
  else (ptrAddr d.w0 false).or
    (if ptrOfs d.w0 % d.row c ≠ 0 ∨ d.pitch % d.row c ≠ 0 then some ⟨9, d.w0.toNat, 0⟩ else none)

/-- The version words a REC transfer converts through: a load's lines name theirs, a store has the write version. -/
def xferVers (d : XDesc) (c : IC) (load : Bool) (i : Nat) : List Nat :=
  if load then
    ((List.range 64).flatMap fun r => (List.range (d.row c / 64)).map fun j =>
      tagVer (c.s.tag (c.pa d.w0 + r * d.pitch + 64 * j))).dedup.map (c.s.recVer c.cx i)
  else [c.s.recVer c.cx i (c.s.recWv c.cx i)]

/-- Tensor-format, then format-region (07 R212, R216 step 10). -/
def xferFormat (d : XDesc) (c : IC) (load : Bool) : Option SF :=
  let h := c.hnd d.w0
  if !d.rec_ || h.st = .pending then none
  else match h.tens with
    | none => some ⟨17, 0, ptrHx d.w0⟩
    | some i =>
      let fs := (xferVers d c load i).map verFmt
      if c.s.recGeo c.cx i = 3 ∨ fs.any fmtReserved ∨ (!load ∧ d.rm = 2 ∧ fs.any fun f => f == 0 || f == 7 || f == 8) then
        some ⟨17, i, ptrHx d.w0⟩
      else if !isData (c.s.recGeo c.cx i) h.size (ptrOfs d.w0 + d.span c - 1) then
        some ⟨18, h.vaAt (ptrOfs d.w0), ptrHx d.w0⟩
      else none

/-- The 4,096 elements of a store, in memory order (07 R213). -/
def xferCodes (x : Tab) (c : IC) : List Nat :=
  let b := c.t.bank x.b.toNat
  (List.range 64).flatMap fun i => (List.range 64).map fun j => if (c.xdesc x.p).tr then b.el j i else b.el i j

/-- The rows of a REC = 0 store (02 R54). -/
def plainRows (d : XDesc) (st : W64) (xs : List Nat) : List (List Byte) :=
  let w := fmtBits d.fmt
  (List.range 64).map fun i => bytesOf (8 * w) (packLE w ((List.range 64).map fun j =>
    (convert (d32 (xs.getD (64 * i + j) 0)) d.fmt (rmOf d.rm st (64 * i + j)) 0).1))

/-- The rows of a REC = 1 store, each as STCV writes 64 lanes: its bytes, its scale bytes, its classes (05 R152). -/
def recRows (ver rm : Nat) (st : W64) (xs : List Ex) : List (List Byte × List Nat × List Cls) :=
  (List.range 64).map fun i =>
    let r := encodeLine ver ((xs.drop (64 * i)).take 64) fun j => rmOf rm st (64 * i + j)
    (stcvBytes ver r.1, r.2.1, r.2.2)

/-- The classes of the whole store, for the judgement of tensor overflow (07 R213). -/
def xferClasses (x : Tab) (c : IC) (i : Nat) : List Cls :=
  (recRows (c.s.recVer c.cx i (c.s.recWv c.cx i)) (c.xdesc x.p).rm c.sr ((xferCodes x c).map d32)).flatMap fun r => r.2.2

/-- ACLD and ACST but for their effect. -/
def xferOp (x : Tab) (load : Bool) : SlotOp :=
  let b := x.b.toNat
  let ks := tickets x.c.toNat x.n.toNat
  { g := x.g.toNat, whr := .partOnly, dsts := [.k x.k.toNat], banks := [b]
    srcS := [pairReg x.p, pairReg x.p + 1], srcB := if load then [] else [b]
    sched := fun c => bankBusy c (c.captured ks) b || decide (4 ≤ c.port.length)
    chk := xferChk x.p load
    hold := fun c =>
      let d := c.xdesc x.p
      (ticketHold c ks).or (if !d.sp && (c.hnd d.w0).st == .pending then some 5 else none)
    spRuns := fun c => if (c.xdesc x.p).sp then (c.xdesc x.p).spRows c else []
    impure := fun c =>
      let d := c.xdesc x.p
      let h := c.hnd d.w0
      (if d.sp then none
       else c.outside (!load) ((List.range 64).map fun i => (h.vaAt (ptrOfs d.w0 + i * d.pitch), d.row c))).or
      (if d.rm = 2 then some 0 else none)
    draws := fun c => if (c.xdesc x.p).rm = 2 then 4096 else 0
    post := fun c =>
      let d := c.xdesc x.p
      if d.sp then spMapFault c (d.spRows c)
      else ((ptrLate c d.w0 (d.span c) (!load)).or (xferFormat d c load)).or
        (match d.record c with
         | none => none
         | some i =>
           if !load && c.s.recOact c.cx i = 2 && c.s.crosses (coreOf c.k) c.cx i (overCount (xferClasses x c i))
           then some ⟨19, i, ptrHx d.w0⟩ else none) }

/-- Adds a transfer and its pseudo command. -/
def State.startXfer (s : State) (c : IC) (x : Tab) (major : Nat) (y : Xfer) : State :=
  (s.newCmd { id := 0, key := c.k, ctx := c.cx, pos := 5, major, baddr := c.t.pc, st := .running, cid := x.b.toNat }
    x.k.toNat).modTh c.k fun t => { t with xfers := t.xfers ++ [{ y with cmd := s.nextId }] }

/-- ACLD (R214): the bank is written once every row has arrived. -/
def opAcld (x : Tab) : SlotOp :=
  { xferOp x true with
    eff := fun c s =>
      let d := c.xdesc x.p
      let h := c.hnd d.w0
      let base := if d.sp then d.w0.toNat else c.pa d.w0
      let n := d.row c / 64
      let id := s.nextId
      let s1 := s.startXfer c x 3
        { cmd := 0, load := true, bank := x.b.toNat, tr := d.tr, rows := (List.range 64).map fun i => base + i * d.pitch
          rowBytes := d.row c, fmt := d.fmt, sp := d.sp }
      if d.sp then s1
      else forN (64 * n) s1 fun i s =>
        s.addReq c.k id h.va false (.acld id i (base + i / n * d.pitch + 64 * (i % n)) d.fmt (if d.rec_ then h.bound else none)) }
def execAcld (x : Tab) (s : State) : Host.Outcome State Fault Refusal :=
  issueOne 5 (encWord (.acld x)) (opAcld x) s

/-- The store requests of a REC = 1 ACST (07 R213): each row and its scale bytes, then the report of all elements. -/
def State.storeRec (s : State) (c : IC) (x : Tab) (i : Nat) : State :=
  let d := c.xdesc x.p
  let h := c.hnd d.w0
  let ver := c.s.recVer c.cx i (c.s.recWv c.cx i)
  let xs := (xferCodes x c).map d32
  let rows := recRows ver d.rm c.sr xs
  let acc := s.nextId
  let s1 := forN 64 s fun r s =>
    let (bs, scales, _) := rows.getD r ([], [], [])
    let ofs := ptrOfs d.w0 + r * d.pitch
    let s := forN (bs.length / 64) s fun j s =>
      s.addReq c.k acc h.va false (.store (h.base + ofs + 64 * j) ((bs.drop (64 * j)).take 64) (some (c.s.recWv c.cx i)) false h.bound)
    if scales.isEmpty then s
    else s.addReq c.k acc h.va false
      (.store (h.base + dataRegion h.size + 4 * (ofs / 64)) (bytesOf 4 (packLE 8 scales)) (some 0) false h.bound)
  s1.report (coreOf c.k) c.cx i xs (rows.flatMap fun r => r.2.2) false

/-- ACST (R213): the bank is read at issue. -/
def opAcst (x : Tab) : SlotOp :=
  { xferOp x false with
    eff := fun c s =>
      let d := c.xdesc x.p
      let h := c.hnd d.w0
      let y : Xfer := { cmd := 0, load := false, bank := x.b.toNat, tr := d.tr, rowBytes := d.row c, fmt := d.fmt, sp := d.sp
                        rows := (List.range 64).map fun i => (if d.sp then d.w0.toNat else c.pa d.w0) + i * d.pitch }
      if d.sp then s.startXfer c x 4 { y with data := plainRows d c.sr (xferCodes x c) }
      else
        let s1 := match d.record c with
          | some i => s.storeRec c x i
          | none =>
            let rows := plainRows d c.sr (xferCodes x c)
            forN 64 s fun r s =>
              let bs := rows.getD r []
              forN (bs.length / 64) s fun j s =>
                let ofs := ptrOfs d.w0 + r * d.pitch + 64 * j
                s.addReq c.k s.nextId h.va false
                  (.store (h.base + ofs) ((bs.drop (64 * j)).take 64) (some (rawVer c h ofs)) false h.bound)
        s1.startXfer c x 4 { y with reqs := (s1.reqs.filter fun r => decide (s.nextId ≤ r.id) && r.key == c.k).map Req.id } }
def execAcst (x : Tab) (s : State) : Host.Outcome State Fault Refusal :=
  issueOne 5 (encWord (.acst x)) (opAcst x) s

/-- Fills a bank from rows of FP32 codes (07 R214). -/
def bankOfRows (tr : Bool) (codes : List Nat) : Bank :=
  let b : Bank := (List.range 64).map fun i => (i, vOfLanes 32 ((codes.drop (64 * i)).take 64))
  if tr then b.transpose else b

/-- The end of a transfer of partition k: it leaves the port and its ticket fires. -/
def State.endXfer (s : State) (k cmd : Nat) : State :=
  (s.modTh k fun t => { t with xfers := t.xfers.filter fun y => y.cmd != cmd }).fire cmd

/-- ACLD_COMPLETE (07 R214): every row is in hand, or is read from the scratchpad in this cycle; the bank is written. -/
def execAcldComplete (k xfer : Nat) (s : State) : Host.Outcome State Fault Refusal :=
  .next (match (s.th k).xfers.find? fun y => y.cmd == xfer && y.load with
    | none => s
    | some y =>
      let c := s.ctxOf k
      let cl := clusterOf k
      if y.sp then
        if (s.spMissing c cl (y.rows.map fun a => (a, y.rowBytes))).isEmpty then
          let w := fmtBits y.fmt
          let codes := y.rows.flatMap fun a =>
            (unpackLE w 64 (ofBytes (s.spRead false c cl a y.rowBytes))).map fun e => r32 (decCode y.fmt e)
          let lines := (y.rows.flatMap fun a => (List.range (y.rowBytes / 64)).map fun j => a + 64 * j).filter fun a =>
            s.spPoison false c cl a 64
          let s1 := (lines.foldl (fun s a => s.log c 2 a (agentField k 0 true)) s).spTouch (coreOf k) c (y.rows.map fun a => (a, y.rowBytes))
          ({ s1 with fresh := s1.fresh + 1 }.modTh k fun t =>
            (t.setBank y.bank (bankOfRows y.tr codes)).setBPsn y.bank (!lines.isEmpty)).endXfer k xfer
        else s
      else if y.got.length = 64 * (y.rowBytes / 64) then
        let codes := (List.range y.got.length).flatMap fun i => ((y.got.find? fun g => g.1 == i).map Prod.snd).getD []
        (s.modTh k fun t => (t.setBank y.bank (bankOfRows y.tr codes)).setBPsn y.bank y.psn).endXfer k xfer
      else s)

/-- ACST_COMPLETE (07 R213): every line has performed, or the rows are written into the swizzled view, in ascending order: where they
overlap the last stands (DESIGN CHOICE, notes/assumptions/141). -/
def execAcstComplete (k xfer : Nat) (s : State) : Host.Outcome State Fault Refusal :=
  .next (match (s.th k).xfers.find? fun y => y.cmd == xfer && !y.load with
    | none => s
    | some y =>
      let c := s.ctxOf k
      let cl := clusterOf k
      if y.sp then
        if (s.spMissing c cl (y.rows.map fun a => (a, y.rowBytes))).isEmpty then
          ((y.rows.zip y.data).foldl (fun s r => s.spWrite false c cl r.1 k xfer r.2 none) s).endXfer k xfer
        else s
      else if y.reqs.any fun r => (s.req? r).isSome then s else s.endXfer k xfer)

end Sys2Proof.Machine
end

