-- ==== Sys2Proof/Machine/Scalar.lean ====
section
/-! DEFINITION. Scalar and predicate instructions (04 R103–R114, R127). -/

namespace Sys2Proof.Machine

open Sys2Proof

/-- An RRR form: S(D) at +lat from S(A) and S(B). -/
def rrrOp (x : RRR) (lg : Bool) (lat : Nat) (f : W64 → W64 → W64) : SlotOp :=
  { g := x.g.toNat, gn := x.n == 1, legal := lg, dsts := [.s x.d.toNat], srcS := [x.a.toNat, x.b.toNat]
    eff := flyS lat x.d.toNat fun c => f (c.sv x.a.toNat) (c.sv x.b.toNat) }

/-- An RRI form: S(D) at +1 from S(A) and the sign-extended immediate (04 R104). -/
def rriOp (x : RRI) (f : W64 → W64 → W64) : SlotOp :=
  { g := x.g.toNat, dsts := [.s x.d.toNat], srcS := [x.a.toNat]
    eff := flyS 1 x.d.toNat fun c => f (c.sv x.a.toNat) (w64 (imm10 x.i)) }

/-- A shift by an immediate (04 R104). -/
def shiOp (x : ShI) (f : W64 → Nat → W64) : SlotOp :=
  { g := x.g.toNat, dsts := [.s x.d.toNat], srcS := [x.a.toNat]
    eff := flyS 1 x.d.toNat fun c => f (c.sv x.a.toNat) x.i.toNat }

/-- The .w variant (04 Table 4-2): the low 32 bits of a result, sign-extended. -/
def wForm (y : BitVec 32) : W64 := y.signExtend 64

/-- Low 32 bits of a word. -/
def lo32 (a : W64) : BitVec 32 := a.setWidth 32

/-- Shift amounts: modulo 64, and modulo 32 under .w (04 R105). -/
def sh64 (b : W64) : Nat := b.toNat % 64
def sh32 (b : W64) : Nat := b.toNat % 32

/-- ADD with its scaled forms .x2, .x4, .x8 and .x64 (04 Table 4-2). -/
def addForm (f : Nat) (a b : W64) : W64 :=
  match f with
  | 0 => a + b
  | 1 => wForm (lo32 a + lo32 b)
  | 2 => a + (b <<< 1)
  | 3 => a + (b <<< 2)
  | 4 => a + (b <<< 3)
  | _ => a + (b <<< 6)

/-- A result with its .w variant, chosen by FN (04 Table 4-2). -/
def wOr (fn : BitVec 3) (w : W64 → W64 → BitVec 32) (f : W64 → W64 → W64) (a b : W64) : W64 :=
  if fn = 1 then wForm (w a b) else f a b

/-- ADD (R105). -/
def opAdd (x : RRR) : SlotOp := rrrOp x (legal (.add x)) 1 (addForm x.f.toNat)
def execAdd (x : RRR) (s : State) : Host.Outcome State Fault Refusal :=
  issueOne 0 (encWord (.add x)) (opAdd x) s

/-- SUB (R105). -/
def opSub (x : RRR) : SlotOp :=
  rrrOp x (legal (.sub x)) 1 (wOr x.f (fun a b => lo32 a - lo32 b) fun a b => a - b)
def execSub (x : RRR) (s : State) : Host.Outcome State Fault Refusal :=
  issueOne 0 (encWord (.sub x)) (opSub x) s

/-- AND (R105). -/
def opAnd (x : RRR) : SlotOp := rrrOp x (legal (.and x)) 1 fun a b => a &&& b
def execAnd (x : RRR) (s : State) : Host.Outcome State Fault Refusal :=
  issueOne 0 (encWord (.and x)) (opAnd x) s

/-- OR (R105). -/
def opOr (x : RRR) : SlotOp := rrrOp x (legal (.or x)) 1 fun a b => a ||| b
def execOr (x : RRR) (s : State) : Host.Outcome State Fault Refusal :=
  issueOne 0 (encWord (.or x)) (opOr x) s

/-- XOR (R105). -/
def opXor (x : RRR) : SlotOp := rrrOp x (legal (.xor x)) 1 fun a b => a ^^^ b
def execXor (x : RRR) (s : State) : Host.Outcome State Fault Refusal :=
  issueOne 0 (encWord (.xor x)) (opXor x) s

/-- ANDN (R105). -/
def opAndn (x : RRR) : SlotOp := rrrOp x (legal (.andn x)) 1 fun a b => a &&& ~~~b
def execAndn (x : RRR) (s : State) : Host.Outcome State Fault Refusal :=
  issueOne 0 (encWord (.andn x)) (opAndn x) s

/-- SHL (R105). -/
def opShl (x : RRR) : SlotOp :=
    rrrOp x (legal (.shl x)) 1 (wOr x.f (fun a b => lo32 a <<< sh32 b) fun a b => a <<< sh64 b)
def execShl (x : RRR) (s : State) : Host.Outcome State Fault Refusal :=
  issueOne 0 (encWord (.shl x)) (opShl x) s

/-- SHR (R105). -/
def opShr (x : RRR) : SlotOp :=
    rrrOp x (legal (.shr x)) 1 (wOr x.f (fun a b => lo32 a >>> sh32 b) fun a b => a >>> sh64 b)
def execShr (x : RRR) (s : State) : Host.Outcome State Fault Refusal :=
  issueOne 0 (encWord (.shr x)) (opShr x) s

/-- SAR (R105). -/
def opSar (x : RRR) : SlotOp :=
    rrrOp x (legal (.sar x)) 1 (wOr x.f (fun a b => (lo32 a).sshiftRight (sh32 b)) fun a b => a.sshiftRight (sh64 b))
def execSar (x : RRR) (s : State) : Host.Outcome State Fault Refusal :=
  issueOne 0 (encWord (.sar x)) (opSar x) s

/-- ROT (R105). -/
def opRot (x : RRR) : SlotOp :=
    rrrOp x (legal (.rot x)) 1 (wOr x.f (fun a b => (lo32 a).rotateLeft (sh32 b)) fun a b => a.rotateLeft (sh64 b))
def execRot (x : RRR) (s : State) : Host.Outcome State Fault Refusal :=
  issueOne 0 (encWord (.rot x)) (opRot x) s

/-- MIN (R105). -/
def opMin (x : RRR) : SlotOp := rrrOp x (legal (.min x)) 1 fun a b => if b.slt a then b else a
def execMin (x : RRR) (s : State) : Host.Outcome State Fault Refusal :=
  issueOne 0 (encWord (.min x)) (opMin x) s

/-- MAX (R105). -/
def opMax (x : RRR) : SlotOp := rrrOp x (legal (.max x)) 1 fun a b => if a.slt b then b else a
def execMax (x : RRR) (s : State) : Host.Outcome State Fault Refusal :=
  issueOne 0 (encWord (.max x)) (opMax x) s

/-- MINU (R105). -/
def opMinu (x : RRR) : SlotOp := rrrOp x (legal (.minu x)) 1 fun a b => if b.ult a then b else a
def execMinu (x : RRR) (s : State) : Host.Outcome State Fault Refusal :=
  issueOne 0 (encWord (.minu x)) (opMinu x) s

/-- MAXU (R105). -/
def opMaxu (x : RRR) : SlotOp := rrrOp x (legal (.maxu x)) 1 fun a b => if a.ult b then b else a
def execMaxu (x : RRR) (s : State) : Host.Outcome State Fault Refusal :=
  issueOne 0 (encWord (.maxu x)) (opMaxu x) s

/-- MUL (R105): the result lands at +3. -/
def opMul (x : RRR) : SlotOp :=
  rrrOp x (legal (.mul x)) 3 (wOr x.f (fun a b => lo32 a * lo32 b) fun a b => a * b)
def execMul (x : RRR) (s : State) : Host.Outcome State Fault Refusal :=
  issueOne 0 (encWord (.mul x)) (opMul x) s

/-- MULH (R105): the result lands at +3. -/
def opMulh (x : RRR) : SlotOp :=
  rrrOp x (legal (.mulh x)) 3 fun a b => BitVec.ofInt 64 (a.toInt * b.toInt / 2 ^ 64)
def execMulh (x : RRR) (s : State) : Host.Outcome State Fault Refusal :=
  issueOne 0 (encWord (.mulh x)) (opMulh x) s

/-- MULHU (R105): the result lands at +3. -/
def opMulhu (x : RRR) : SlotOp :=
  rrrOp x (legal (.mulhu x)) 3 fun a b => BitVec.ofNat 64 (a.toNat * b.toNat / 2 ^ 64)
def execMulhu (x : RRR) (s : State) : Host.Outcome State Fault Refusal :=
  issueOne 0 (encWord (.mulhu x)) (opMulhu x) s

/-- ADDI (R105). -/
def opAddi (x : RRI) : SlotOp := rriOp x fun a b => a + b
def execAddi (x : RRI) (s : State) : Host.Outcome State Fault Refusal :=
  issueOne 0 (encWord (.addi x)) (opAddi x) s

/-- ANDI (R105). -/
def opAndi (x : RRI) : SlotOp := rriOp x fun a b => a &&& b
def execAndi (x : RRI) (s : State) : Host.Outcome State Fault Refusal :=
  issueOne 0 (encWord (.andi x)) (opAndi x) s

/-- ORI (R105). -/
def opOri (x : RRI) : SlotOp := rriOp x fun a b => a ||| b
def execOri (x : RRI) (s : State) : Host.Outcome State Fault Refusal :=
  issueOne 0 (encWord (.ori x)) (opOri x) s

/-- XORI (R105). -/
def opXori (x : RRI) : SlotOp := rriOp x fun a b => a ^^^ b
def execXori (x : RRI) (s : State) : Host.Outcome State Fault Refusal :=
  issueOne 0 (encWord (.xori x)) (opXori x) s

/-- SHLI (R105). -/
def opShli (x : ShI) : SlotOp := shiOp x fun a n => a <<< n
def execShli (x : ShI) (s : State) : Host.Outcome State Fault Refusal :=
  issueOne 0 (encWord (.shli x)) (opShli x) s

/-- SHRI (R105). -/
def opShri (x : ShI) : SlotOp := shiOp x fun a n => a >>> n
def execShri (x : ShI) (s : State) : Host.Outcome State Fault Refusal :=
  issueOne 0 (encWord (.shri x)) (opShri x) s

/-- SARI (R105). -/
def opSari (x : ShI) : SlotOp := shiOp x fun a n => a.sshiftRight n
def execSari (x : ShI) (s : State) : Host.Outcome State Fault Refusal :=
  issueOne 0 (encWord (.sari x)) (opSari x) s

/-- MOVI (R106). -/
def opMovi (x : RI) : SlotOp :=
    { g := x.g.toNat, dsts := [.s x.d.toNat], eff := flyS 1 x.d.toNat fun _ => x.i.signExtend 64 }
def execMovi (x : RI) (s : State) : Host.Outcome State Fault Refusal :=
  issueOne 0 (encWord (.movi x)) (opMovi x) s

/-- MOVHI (R106): it reads its own destination at issue. -/
def opMovhi (x : RI) : SlotOp :=
  { g := x.g.toNat, dsts := [.s x.d.toNat], srcS := [x.d.toNat]
    eff := flyS 1 x.d.toNat fun c => (c.sv x.d.toNat <<< 16) ||| x.i.setWidth 64 }
def execMovhi (x : RI) (s : State) : Host.Outcome State Fault Refusal :=
  issueOne 0 (encWord (.movhi x)) (opMovhi x) s

/-- SEL (R107): the selector is P(FN). -/
def opSel (x : RRR) : SlotOp :=
  { rrrOp x (legal (.sel x)) 1 (fun a _ => a) with
    eff := flyS 1 x.d.toNat fun c => if c.t.p x.f.toNat then c.sv x.a.toNat else c.sv x.b.toNat }
def execSel (x : RRR) (s : State) : Host.Outcome State Fault Refusal :=
  issueOne 0 (encWord (.sel x)) (opSel x) s

/-- CMP (R111): FN = 1 is .and, reading PD at issue. -/
def opCmp (x : Cmp) : SlotOp :=
  { g := x.g.toNat, gn := x.n == 1, legal := legal (.cmp x), dsts := [.p x.p.toNat], srcS := [x.a.toNat, x.b.toNat]
    eff := flyP 1 x.p.toNat fun c =>
      condS x.c.toNat (c.sv x.a.toNat) (c.sv x.b.toNat) && (x.f == 0 || c.t.p x.p.toNat) }
def execCmp (x : Cmp) (s : State) : Host.Outcome State Fault Refusal :=
  issueOne 0 (encWord (.cmp x)) (opCmp x) s

/-- CMPI (R111). -/
def opCmpi (x : Cmpi) : SlotOp :=
  { g := x.g.toNat, legal := legal (.cmpi x), dsts := [.p x.p.toNat], srcS := [x.a.toNat]
    eff := flyP 1 x.p.toNat fun c => condS x.c.toNat (c.sv x.a.toNat) (x.i.signExtend 64) }
def execCmpi (x : Cmpi) (s : State) : Host.Outcome State Fault Refusal :=
  issueOne 0 (encWord (.cmpi x)) (opCmpi x) s

/-- PLOG (R112). -/
def opPlog (x : Plog) : SlotOp :=
  { g := x.g.toNat, gn := x.n == 1, legal := legal (.plog x), dsts := [.p x.p.toNat]
    eff := flyP 1 x.p.toNat fun c => plogOp x.c.toNat (c.t.p x.a.toNat) (c.t.p x.b.toNat) }
def execPlog (x : Plog) (s : State) : Host.Outcome State Fault Refusal :=
  issueOne 0 (encWord (.plog x)) (opPlog x) s

/-- Bit i of the result is bit 63 − i (04 Table 4-3). -/
def brev64 (a : W64) : W64 := BitVec.ofNat 64 (boolBits 64 fun i => a.getLsbD (63 - i))

/-- Byte i of the result is byte 7 − i (04 Table 4-3). -/
def bswap64 (a : W64) : W64 := BitVec.ofNat 64 (packLE 8 ((List.range 8).map fun i => laneN a.toNat 8 (7 - i)))

/-- BITOP's operations (04 Table 4-3). -/
def bitopF (f : Nat) (a b : W64) : W64 :=
  match f with
  | 0 => BitVec.ofNat 64 (popN 64 a.toNat)
  | 1 => BitVec.ofNat 64 (clzN 64 a.toNat)
  | 2 => BitVec.ofNat 64 (ctzN 64 a.toNat)
  | 3 => brev64 a
  | 4 => bswap64 a
  | 5 => w64 (sextI a.toNat (sh64 b + 1))
  | _ => BitVec.ofNat 64 (a.toNat % 2 ^ (sh64 b + 1))

/-- BITOP (R108). -/
def opBitop (x : RRR) : SlotOp := rrrOp x (legal (.bitop x)) 1 (bitopF x.f.toNat)
def execBitop (x : RRR) (s : State) : Host.Outcome State Fault Refusal :=
  issueOne 0 (encWord (.bitop x)) (opBitop x) s

/-- BFX (04 R109): the field from bit lo for w bits, ending at bit 63. -/
def bfxF (fn : Nat) (d a b : W64) : W64 :=
  let lo := fld b 5 0
  let w := min (fld b 14 8) (64 - lo)
  match fn with
  | 0 => BitVec.ofNat 64 ((a.toNat >>> lo) % 2 ^ w)
  | 1 => if w = 0 then 0 else w64 (sextI (a.toNat >>> lo) w)
  | _ =>
    let m := BitVec.ofNat 64 ((2 ^ w - 1) * 2 ^ lo)
    ((a <<< lo) &&& m) ||| (d &&& ~~~m)

/-- BFX (R109): .ins reads its own destination at issue, and with w = 0 writes it back unchanged at +1 (DESIGN CHOICE,
notes/assumptions/101). -/
def opBfx (x : RRR) : SlotOp :=
  { rrrOp x (legal (.bfx x)) 1 (fun a _ => a) with
    srcS := if x.f = 2 then [x.a.toNat, x.b.toNat, x.d.toNat] else [x.a.toNat, x.b.toNat]
    eff := flyS 1 x.d.toNat fun c => bfxF x.f.toNat (c.sv x.d.toNat) (c.sv x.a.toNat) (c.sv x.b.toNat) }
def execBfx (x : RRR) (s : State) : Host.Outcome State Fault Refusal :=
  issueOne 0 (encWord (.bfx x)) (opBfx x) s

/-- DIV (04 Table 4-4). -/
def divF (fn : Nat) (a b : W64) : W64 :=
  match fn with
  | 0 => if b = 0 then BitVec.allOnes 64 else BitVec.ofInt 64 (a.toInt.tdiv b.toInt)
  | 1 => if b = 0 then BitVec.allOnes 64 else BitVec.ofNat 64 (a.toNat / b.toNat)
  | 2 => if b = 0 then a else BitVec.ofInt 64 (a.toInt.tmod b.toInt)
  | _ => if b = 0 then a else BitVec.ofNat 64 (a.toNat % b.toNat)

/-- DIV (R110): the result lands at +18, and the divider is busy for 18 cycles. -/
def opDiv (x : RRR) : SlotOp :=
  { rrrOp x (legal (.div x)) 18 (divF x.f.toNat) with
    sched := fun c => decide (c.t.scyc < c.t.divFree)
    eff := fun c s =>
      (flyS 18 x.d.toNat (fun c => divF x.f.toNat (c.sv x.a.toNat) (c.sv x.b.toNat)) c s).modTh c.k fun t =>
        { t with divFree := c.t.scyc + 18 } }
def execDiv (x : RRR) (s : State) : Host.Outcome State Fault Refusal :=
  issueOne 0 (encWord (.div x)) (opDiv x) s

/-- MOVP (R114). -/
def opMovp (x : DN) : SlotOp :=
  { g := x.g.toNat, gn := x.n == 1, legal := legal (.movp x), dsts := [.s x.d.toNat]
    eff := flyS 1 x.d.toNat fun c => BitVec.ofNat 64 (boolBits 16 c.t.p) }
def execMovp (x : DN) (s : State) : Host.Outcome State Fault Refusal :=
  issueOne 0 (encWord (.movp x)) (opMovp x) s

/-- MOVP_W (R114): it names all of P1–P15 as destinations. -/
def opMovpW (x : AN) : SlotOp :=
  { g := x.g.toNat, gn := x.n == 1, legal := legal (.movpW x), srcS := [x.a.toNat]
    dsts := (List.range 15).map fun i => .p (i + 1)
    eff := fun c s => s.fly c.k 1 (.preds ((c.sv x.a.toNat).setWidth 16)) }
def execMovpW (x : AN) (s : State) : Host.Outcome State Fault Refusal :=
  issueOne 0 (encWord (.movpW x)) (opMovpW x) s

/-- KTST (R113). -/
def opKtst (x : Ktst) : SlotOp :=
  { g := x.g.toNat, gn := x.n == 1, legal := legal (.ktst x), dsts := [.p x.p.toNat]
    eff := flyP 1 x.p.toNat fun c => c.s.fired c.k x.a.toNat }
def execKtst (x : Ktst) (s : State) : Host.Outcome State Fault Refusal :=
  issueOne 0 (encWord (.ktst x)) (opKtst x) s

/-- KTST_ALL (R113). -/
def opKtstAll (x : KtstAll) : SlotOp :=
  { g := x.g.toNat, gn := x.n == 1, legal := legal (.ktstAll x), dsts := [.p x.p.toNat]
    eff := flyP 1 x.p.toNat fun c => (tickets x.a.toNat (x.b.toNat + 1)).all (c.s.fired c.k) }
def execKtstAll (x : KtstAll) (s : State) : Host.Outcome State Fault Refusal :=
  issueOne 0 (encWord (.ktstAll x)) (opKtstAll x) s

/-- MOVX (R127). -/
def opMovx (x : RR1) : SlotOp :=
  { g := x.g.toNat, gn := x.n == 1, legal := legal (.movx x), dsts := [.s x.d.toNat]
    eff := flyS 1 x.d.toNat fun c => BitVec.ofNat 64 (c.t.loopIdx x.a.toNat) }
def execMovx (x : RR1) (s : State) : Host.Outcome State Fault Refusal :=
  issueOne 0 (encWord (.movx x)) (opMovx x) s

/-- MOVX_K (R127). -/
def opMovxK (x : DN) : SlotOp :=
  { g := x.g.toNat, gn := x.n == 1, legal := legal (.movxK x), dsts := [.s x.d.toNat]
    eff := flyS 1 x.d.toNat fun c => BitVec.ofNat 64 (boolBits 32 (c.s.fired c.k)) }
def execMovxK (x : DN) (s : State) : Host.Outcome State Fault Refusal :=
  issueOne 0 (encWord (.movxK x)) (opMovxK x) s

end Sys2Proof.Machine
end

