-- ==== Sys2Proof/Machine/Bundle.lean ====
section
/-! DEFINITION. The bundle at the program counter: fetch, decode, issue (03 R66–R71, R93). -/

namespace Sys2Proof.Machine

open Sys2Proof

/-- What the word of an instruction is at issue; none for an instruction without a slot word. -/
def slotOf (i : Instr) : Option SlotOp :=
  match i with
  | .add x => some (opAdd x)
  | .sub x => some (opSub x)
  | .and x => some (opAnd x)
  | .or x => some (opOr x)
  | .xor x => some (opXor x)
  | .andn x => some (opAndn x)
  | .shl x => some (opShl x)
  | .shr x => some (opShr x)
  | .sar x => some (opSar x)
  | .rot x => some (opRot x)
  | .min x => some (opMin x)
  | .max x => some (opMax x)
  | .minu x => some (opMinu x)
  | .maxu x => some (opMaxu x)
  | .mul x => some (opMul x)
  | .mulh x => some (opMulh x)
  | .mulhu x => some (opMulhu x)
  | .addi x => some (opAddi x)
  | .andi x => some (opAndi x)
  | .ori x => some (opOri x)
  | .xori x => some (opXori x)
  | .shli x => some (opShli x)
  | .shri x => some (opShri x)
  | .sari x => some (opSari x)
  | .movi x => some (opMovi x)
  | .movhi x => some (opMovhi x)
  | .sel x => some (opSel x)
  | .cmp x => some (opCmp x)
  | .cmpi x => some (opCmpi x)
  | .plog x => some (opPlog x)
  | .bitop x => some (opBitop x)
  | .bfx x => some (opBfx x)
  | .div x => some (opDiv x)
  | .br x => some (opBr x)
  | .jmp x => some (opJmp x)
  | .call x => some (opCall x)
  | .ret x => some (opRet x)
  | .loop x => some (opLoop x)
  | .loopr x => some (opLoopr x)
  | .lbrk x => some (opLbrk x)
  | .audef x => some (opAudef x)
  | .waitk x => some (opWaitk x)
  | .waitm x => some (opWaitm x)
  | .trap x => some (opTrap x)
  | .pres x => some (opPres x)
  | .presSkip x => some (opPresSkip x)
  | .presMig x => some (opPresMig x)
  | .pkill x => some (opPkill x)
  | .crr x => some (opCrr x)
  | .crw x => some (opCrw x)
  | .icinv x => some (opIcinv x)
  | .brk x => some (opBrk x)
  | .fin x => some (opFin x)
  | .movx x => some (opMovx x)
  | .movxK x => some (opMovxK x)
  | .movp x => some (opMovp x)
  | .movpW x => some (opMovpW x)
  | .ktst x => some (opKtst x)
  | .ktstAll x => some (opKtstAll x)
  | .lds x => some (opLds x)
  | .sts x => some (opSts x)
  | .ldv x => some (opLdv x)
  | .stv x => some (opStv x)
  | .ldg x => some (opLdg x)
  | .stg x => some (opStg x)
  | .ldgv x => some (opLdgv x)
  | .stgv x => some (opStgv x)
  | .ldcv x => some (opLdcv x)
  | .stcv x => some (opStcv x)
  | .gath x => some (opGath x)
  | .scat x => some (opScat x)
  | .xlat x => some (opXlat x)
  | .hrel x => some (opHrel x)
  | .probe x => some (opProbe x)
  | .pref x => some (opPref x)
  | .drain x => some (opDrain x)
  | .atadd x => some (opAtadd x)
  | .atmin x => some (opAtmin x)
  | .atmax x => some (opAtmax x)
  | .atand x => some (opAtand x)
  | .ator x => some (opAtor x)
  | .atxor x => some (opAtxor x)
  | .atxch x => some (opAtxch x)
  | .atcas x => some (opAtcas x)
  | .atld x => some (opAtld x)
  | .atst x => some (opAtst x)
  | .ltag x => some (opLtag x)
  | .gaths x => some (opGaths x)
  | .scats x => some (opScats x)
  | .clfl x => some (opClfl x)
  | .clinv x => some (opClinv x)
  | .pclr x => some (opPclr x)
  | .vadd x => some (opVadd x)
  | .vsub x => some (opVsub x)
  | .vmin x => some (opVmin x)
  | .vmax x => some (opVmax x)
  | .vuna x => some (opVuna x)
  | .vand x => some (opVand x)
  | .vor x => some (opVor x)
  | .vxor x => some (opVxor x)
  | .vshl x => some (opVshl x)
  | .vshr x => some (opVshr x)
  | .vsar x => some (opVsar x)
  | .viadd x => some (opViadd x)
  | .visub x => some (opVisub x)
  | .vcmp x => some (opVcmp x)
  | .vsel x => some (opVsel x)
  | .vmov x => some (opVmov x)
  | .vcvt x => some (opVcvt x)
  | .vred x => some (opVred x)
  | .vscan x => some (opVscan x)
  | .vperm x => some (opVperm x)
  | .vshuf x => some (opVshuf x)
  | .vrot x => some (opVrot x)
  | .vmsk x => some (opVmsk x)
  | .vmts x => some (opVmts x)
  | .vseg x => some (opVseg x)
  | .vbsc x => some (opVbsc x)
  | .vqnt x => some (opVqnt x)
  | .vdqnt x => some (opVdqnt x)
  | .vclmp x => some (opVclmp x)
  | .vimnx x => some (opVimnx x)
  | .vext x => some (opVext x)
  | .vins x => some (opVins x)
  | .vmul x => some (opVmul x)
  | .vfma x => some (opVfma x)
  | .vfms x => some (opVfms x)
  | .vfnma x => some (opVfnma x)
  | .vimul x => some (opVimul x)
  | .vrcp x => some (opVrcp x)
  | .vrsq x => some (opVrsq x)
  | .vsqrt x => some (opVsqrt x)
  | .vexp2 x => some (opVexp2 x)
  | .vlog2 x => some (opVlog2 x)
  | .vdot x => some (opVdot x)
  | .mma x => some (opMma x)
  | .mmat x => some (opMmat x)
  | .mmaz x => some (opMmaz x)
  | .acld x => some (opAcld x)
  | .acst x => some (opAcst x)
  | .acz x => some (opAcz x)
  | .acrd x => some (opAcrd x)
  | .acwr x => some (opAcwr x)
  | .acsc x => some (opAcsc x)
  | .acmv x => some (opAcmv x)
  | .acps x => some (opAcps x)
  | .mprg x => some (opMprg x)
  | .cpy x => some (opCpy x)
  | .cpyc x => some (opCpyc x)
  | .cpyf x => some (opCpyf x)
  | .cpyk x => some (opCpyk x)
  | .cwait x => some (opCwait x)
  | .cstat x => some (opCstat x)
  | .tstep x => some (opTstep x)
  | .tscale x => some (opTscale x)
  | .tread x => some (opTread x)
  | .treadSync x => some (opTreadSync x)
  | .tcfg x => some (opTcfg x)
  | .trst x => some (opTrst x)
  | .tsub x => some (opTsub x)
  | .twait x => some (opTwait x)
  | .twaitAll x => some (opTwaitAll x)
  | .semsAdd x => some (opSemsAdd x)
  | .semsSet x => some (opSemsSet x)
  | .semw x => some (opSemw x)
  | .qinit x => some (opQinit x)
  | .qinitLoad x => some (opQinitLoad x)
  | .qgate x => some (opQgate x)
  | .qdiag x => some (opQdiag x)
  | .qswap x => some (opQswap x)
  | .qmeas x => some (opQmeas x)
  | .qmeasSamp x => some (opQmeasSamp x)
  | .ruq x => some (opRuq x)
  | .rufl x => some (opRufl x)
  | .occr x => some (opOccr x)
  | .occrClr x => some (opOccrClr x)
  | .kjoin x => some (opKjoin x)
  | .send x => some (opSend x)
  | .recv x => some (opRecv x)
  | .recvadd x => some (opRecvadd x)
  | .chst x => some (opChst x)
  | .chopn x => some (opChopn x)
  | .chcl x => some (opChcl x)
  | .coll x => some (opColl x)
  | .colw x => some (opColw x)
  | .cola x => some (opCola x)
  | .barr x => some (opBarr x)
  | .barx x => some (opBarx x)
  | .barw x => some (opBarw x)
  | .bariInit x => some (opBariInit x)
  | .bariFree x => some (opBariFree x)
  | .grpc x => some (opGrpc x)
  | .grpf x => some (opGrpf x)
  | .lnks x => some (opLnks x)
  | _ => none

/-- A state-vector entry whose operand count is none of 08 Table 8-11: a descriptor fault (08 R239, R254 step 3). -/
def badCount (pos : Nat) (w : W32) : Bool :=
  let major := bitsN w.toNat 31 26
  let fn := bitsN w.toNat 4 0
  pos == 6 && ((major == 15 && fn % 16 != 0) || (major == 18 && fn < 16 && fn != 2))

/-- What an illegal word of a known instruction is: it names the registers its fields name, and no more (06 R195). -/
def SlotOp.illegal (o : SlotOp) : SlotOp := { o with legal := false, brk := none }

/-- A word at E1 of a major that only E0 takes (03 R83). -/
def e1Only0 (pos : Nat) (w : W32) : Bool := pos == 4 && decide (32 ≤ w.toNat / 67108864)

/-- A slot of a bundle, decoded by its position (03 R70); a word that is no instruction has no operation.  At E1 a word of a major that
only E0 takes is illegal after the bundle checks, to which it names its fields (06 R195). -/
def slotAt (pos : Nat) (w : W32) : Slot :=
  { pos, word := w, op := match (if e1Only0 pos w then decodeE w.toNat else decodeSlot pos w) with
      | .ok i => if e1Only0 pos w then (slotOf i).map SlotOp.illegal else slotOf i
      | .error (.fixedBits _ i) =>
        if badCount pos w then (slotOf i).map fun o => { o with chk := fun c => some (descFault c) }
        else (slotOf i).map SlotOp.illegal
      | .error (.illegal _ i) => (slotOf i).map SlotOp.illegal
      | .error _ => none }

/-- The slots of a bundle: the positions of MASK in ascending order, each with its word (03 R67). -/
def slotsAt (line : List Byte) (off : Nat) (h : Header) : List Slot :=
  let ps := (List.range 8).filter fun p => h.mask.testBit p
  ps.zipIdx.map fun e => slotAt e.1 (BitVec.ofNat 32 (wordAt line (off + 4 + 4 * e.2)))

/-- The marker word: the last word of a bundle with MK = 1 (03 R67). -/
def markerAt (line : List Byte) (off : Nat) (h : Header) : Option W32 :=
  if h.mk_ then some (BitVec.ofNat 32 (wordAt line (off + 4 * (h.words - 1)))) else none

/-- The header at an offset of a line. -/
def headerAt (line : List Byte) (off : Nat) : Header := ⟨BitVec.ofNat 32 (wordAt line off)⟩

/-- Issues the bundle at the program counter of an issuer whose cycle has begun: a fetch fault (04 R115), a hold while the
line is fetched (03 R93), or the bundle of the cached line. -/
def State.issueAtPc (s : State) (k : Nat) : State :=
  let t := s.th k
  match s.codePa k t.pc with
  | none => s.bundleFault k t.pc [(0, ⟨24, t.pc, 0⟩)]
  | some pa =>
    match s.icLine (s.tcore k) (pa / 64) with
    | none => (s.modTh k fun t => { t with missed := some (t.pc / 64) }).holdCycle k 7
    | some line =>
      let off := t.pc % 64
      let h := headerAt line off
      s.issueBegun k h (markerAt line off h) (slotsAt line off h)

/-- BUNDLE_ISSUE (03 R71): issuer k, whose turn of the cycle stands, issues its next bundle. -/
def execBundleIssue (k : Nat) (s : State) : Host.Outcome State Fault Refusal :=
  .next (if s.turn.contains k then s.cycle k fun s => s.issueAtPc k else s)

/-- FETCH_MISS_FILL (03 R93, 13 R370): the line of an outstanding fetch enters the L1 instruction cache of the issuer's core,
and its translation the translation cache. -/
def execFetchMissFill (k : Nat) (s : State) : Host.Outcome State Fault Refusal :=
  .next (match (s.th k).missed with
    | none => s
    | some vl =>
      let s1 := s.modTh k fun t => { t with missed := none }
      match s1.codePa k (vl * 64) with
      | none => s1
      | some pa =>
        let core := s1.tcore k
        let viol := s1.violates (s1.firmware k) pa
        let bytes := if viol then s1.violatedBytes pa 64 else rdBytes s1.mem pa 64
        let s2 := if viol then s1.log (s1.ctxOf k) 4 pa (s1.agentOf k) else s1.othersRead (pa / 64) core
        (s2.xFill core (s2.ctxOf k) (vl * 64)).icFill core (pa / 64) bytes)

/-- The no-operation header (03 R83): a bundle of no slot; with MK its marker is the next word of its line. -/
def execNop (x : Nop) (s : State) : Host.Outcome State Fault Refusal :=
  let h : Header := ⟨encWord (.nop x)⟩
  .next (s.cycle s.cur fun s =>
    let t := s.th s.cur
    s.issueBegun s.cur h (if h.mk_ then some (BitVec.ofNat 32 (match s.codeLine s.cur t.pc with
      | some l => wordAt l (t.pc % 64 + 4)
      | none => 0)) else none) [])

end Sys2Proof.Machine
end

