-- ==== Sys2Proof/Machine/Pages.lean ====
section
/-! DEFINITION. Page-table shootdowns, scratchpad page-ins and page-outs, the bounce buffer, and the power of a core
(01 R34, 13 R371–R384). -/

namespace Sys2Proof.Machine

open Sys2Proof

/-! ### What a write changes -/

/-- The byte at an address once a request has performed. -/
def State.byteAfter (s : State) (r : Req) (a : Nat) : Byte :=
  match r.kind with
  | .store pa bytes .. => if pa ≤ a ∧ a < pa + bytes.length then bytes.getD (a - pa) 0 else rdByte s.mem a
  | .atomic op at_ pa b c _ _ _ =>
    let n := atWidth at_
    if pa ≤ a ∧ a < pa + n then
      (bytesOf n (atomicNew op at_ (8 * n) (rdN s.mem pa n) (b.toNat % 2 ^ (8 * n)) (c.toNat % 2 ^ (8 * n)))).getD (a - pa) 0
    else rdByte s.mem a
  | .patch line bytes .. => ((bytes.find? fun e => 64 * line + e.1 == a).map Prod.snd).getD (rdByte s.mem a)
  | .pclr line => if a / 64 = line then 0 else rdByte s.mem a
  | _ => rdByte s.mem a

/-- Whether a write or atomic is carried out: no violation, no table of the part's, no poisoned line (05 R163, 10 R286); one of the
part's own always is. -/
def State.carried (s : State) (r : Req) (pa : Nat) (full : Bool) : Bool :=
  r.key == partKey || !s.violates (s.firmware (s.reqIssuer r)) pa && (s.protectedKind pa).isNone && (!tagPsn (s.tag pa) || full)

/-- The line whose bytes a request changes when it performs. -/
def State.changes (s : State) (r : Req) : Option Nat :=
  let on (pa n : Nat) (full : Bool) : Option Nat :=
    if s.carried r pa full && (List.range n).any fun i => s.byteAfter r (pa + i) != rdByte s.mem (pa + i) then some (pa / 64) else none
  match r.kind with
  | .store pa bytes .. => on pa bytes.length (bytes.length == 64)
  | .patch line .. => on (64 * line) 64 false
  | .atomic _ at_ pa .. => on pa (atWidth at_) false
  | .pclr line => on (64 * line) 64 true
  | _ => none

/-- The host's requests perform in the order it issued them (17 R445). -/
def State.hostOrder (s : State) (r : Req) : Bool :=
  r.key != hostKey || !(s.reqs.any fun q => q.key == hostKey && decide (q.id < r.id))

/-- Whether a request's order lets it perform (10 R302, 17 R445). -/
def State.inOrder (s : State) (r : Req) : Bool := s.mayPerform r && s.hostOrder r

/-! ### Shootdowns (13 R371, R372) -/

/-- Drops a core's cached translations derived from a line. -/
def State.dropXlat (s : State) (core line : Nat) : State :=
  let hit := (s.xcache.filter fun e => e.1 == core && e.2.2.2 == line).map fun e => (e.2.1, e.2.2.1)
  { s with xcache := s.xcache.filter fun e => !(e.1 == core && hit.contains (e.2.1, e.2.2.1)) }

/-- Moves a core's handles derived from a line on: VALID to REVOKED; a PENDING one walks again. -/
def State.revoke (s : State) (core line : Nat) : State :=
  { s with
    thr := s.thr.map fun e =>
      if e.2.live && s.tcore e.1 == core then
        (e.1, { e.2 with hs := e.2.hs.map fun h =>
          if h.2.st == .valid && s.passes (s.ctxOf e.1) h.2.va line then (h.1, { h.2 with st := .revoked }) else h })
      else e
    reqs := s.reqs.filter fun r => match r.kind with
      | .pref k _ _ _ => !(k == core && s.passes r.ctx r.vpage line)
      | _ => true }

/-- Performs a store or an atomic at its home, and forgets its shootdown. -/
def State.performReq (s : State) (r : Req) : State :=
  let s0 := s.performed r
  let s1 := match r.kind with
    | .store pa bytes ver psn bound => s0.performStore r pa bytes ver psn bound
    | .patch line bytes ver psn bound => s0.performPatch r line bytes ver psn bound
    | .atomic op at_ pa b c ret _ _ => s0.performAtomic r op at_ pa b c ret
    | .pclr line => s0.performPclr r line
    | _ => s0
  let s2 := s1.dropReq r.id
  { s2 with shoot := s2.shoot.filter (fun e => e.1 != r.id), shootDone := s2.shootDone.filter fun e => e.1 != r.id }

/-- PAGE_TABLE_WRITE (R371, R372): one core applies the invalidation of a pending write of a line of entries. -/
def execPageTableWrite (core line : Nat) (s : State) : Host.Outcome State Fault Refusal :=
  .next (match s.reqs.find? fun r => s.changes r == some line && s.inOrder r && !s.shootDone.contains (r.id, core) with
    | none => s
    | some r =>
      let s1 := (s.dropXlat core line).revoke core line
      { s1 with shoot := if s1.shoot.contains (r.id, line) then s1.shoot else s1.shoot ++ [(r.id, line)]
                shootDone := s1.shootDone ++ [(r.id, core)] })

/-! ### Entries of the scratchpad page table (13 R376, R377) -/

/-- The scratchpad pages whose entries stand in a line: context and page. -/
def State.sptPages (s : State) (line : Nat) : List (Nat × Nat) :=
  s.ctxs.flatMap fun e =>
    let base := s.cword e.1 0x10
    if e.2.st = .free ∨ line * 64 < base ∨ base + 131072 ≤ line * 64 then []
    else (List.range 8).map fun i => (e.1, (line * 64 - base) / 8 + i)

/-- The scratchpad pages whose entries a request changes. -/
def State.sptChanged (s : State) (r : Req) : List (Nat × Nat) :=
  match s.changes r with
  | none => []
  | some line => (s.sptPages line).filter fun p =>
      let a := s.cword p.1 0x10 + 8 * p.2
      (List.range 8).any fun i => s.byteAfter r (a + i) != rdByte s.mem (a + i)

/-- The pages among them that stand in a cluster, are on their way in or out, or have bounce-buffer lines unmerged (13 R383). -/
def State.sptHeld (s : State) (r : Req) : List (Nat × Nat) :=
  (s.sptChanged r).filter fun p => (s.spPage p.1 p.2).res != .absent || s.bounced p.1 p.2

/-- Performs a write, and judges the pages afresh whose entries it changes. -/
def State.performEntry (s : State) (r : Req) : State :=
  (s.sptChanged r).foldl (fun s p => s.pageAfresh (pageKey p.1 p.2)) (s.performReq r)

/-- Whether a write may perform with nothing more to do first. -/
def State.clear (s : State) (r : Req) : Bool :=
  (s.sptHeld r).isEmpty && !(s.shoot.any fun e => e.1 == r.id) && match s.changes r with
    | some line => !s.lineReached line r.id r.key
    | none => true

/-- SHOOTDOWN_COMPLETE (R371): nothing reaches the old pages any longer, and the write performs. -/
def execShootdownComplete (req : Nat) (s : State) : Host.Outcome State Fault Refusal :=
  .next (match s.req? req, s.shoot.find? fun e => e.1 == req with
    | some r, some (_, line) => if s.inOrder r && !s.lineReached line req r.key && (s.sptHeld r).isEmpty then s.performEntry r else s
    | _, _ => s)

/-- Starts the page-out of a page whose entry a write changes; its requests wait for the new entry (13 R378). -/
def State.sptOut (s : State) (c n : Nat) : State :=
  let p := s.spPage c n
  let s1 := s.setPage c n { p with unmap := true }
  match p.res with
  | .res d _ => if s.bounced c n || s.pinnedWork d (pageKey c n) p then s1 else s1.spDepart c n
  | _ => s1

/-- SPT_ENTRY_WRITE (R377): a write that changes entries of the scratchpad page table performs once no page concerned is
resident; until then their page-outs start. -/
def execSptEntryWrite (req : Nat) (s : State) : Host.Outcome State Fault Refusal :=
  .next (match s.req? req with
    | none => s
    | some r =>
      if !s.inOrder r || (s.sptChanged r).isEmpty then s
      else match s.sptHeld r with
        | [] => if s.clear r then s.performEntry r else s
        | l => l.foldl (fun s p => s.sptOut p.1 p.2) s)

/-! ### Page-ins and page-outs (13 R378–R382) -/

/-- Fills a frame from a backing block, tags with it, or with zero lines. -/
def State.pageFill (s : State) (back : Option Nat) (fb : Nat) : State :=
  let s1 : State := { s with
    frames := wrBytes s.frames fb (match back with
      | some b => rdBytes s.mem b 2048
      | none => List.replicate 2048 0)
    unjoined := s.unjoined.filter fun u => u.line / 32 != fb / 2048 }
  forN 32 s1 fun i s => match back with
    | some b => (s.othersRead (b / 64 + i) 500).setFtag (fb + 64 * i) (s.tag (b + 64 * i))
    | none => s.setFtag (fb + 64 * i) 0

/-- Whether a write of the part's to a page's backing block waits for a shootdown (13 R371). -/
def State.blockWaits (s : State) (back : Nat) : Bool := (List.range 32).any fun i => s.partWaits (back / 64 + i)

/-- PAGE_IN_COMPLETE (R378). -/
def execPageInComplete (ctx page : Nat) (s : State) : Host.Outcome State Fault Refusal :=
  .next (
    let p := s.spPage ctx page
    match p.res, spEntryOf p.entry with
    | .pin cl f, some (back, _) =>
      if s.blockWaits back then s
      else (s.pageFill (if p.written then some back else none) ((cl * 768 + f) * 2048)).setPage ctx page
        { p with res := .res cl f, dirty := 0, since := s.gcyc, used := s.gcyc }
    | _, _ => s)

/-- Writes a frame's dirty lines to the backing block, with their tags; a line of a table the part keeps takes none (09 R256). -/
def State.pageSave (s : State) (c : Nat) (p : SpPage) (back fb : Nat) : State :=
  let s1 := forN 32 s fun i s =>
    if p.dirty.getLsbD i then s.agentWrite c (back + 64 * i) (rdBytes s.frames (fb + 64 * i) 64) (some (s.ftag (fb + 64 * i))) else s
  { s1 with unjoined := s1.unjoined.filter fun u => u.line / 32 != fb / 2048 }

/-- PAGE_OUT_COMPLETE (R378): once every line of the page has performed, the frame is freed, and a waiting request starts its page-in. -/
def execPageOutComplete (ctx page : Nat) (s : State) : Host.Outcome State Fault Refusal :=
  .next (
    let p := s.spPage ctx page
    match p.res, spEntryOf p.entry with
    | .pout cl f, some (back, _) =>
      if s.blockWaits back then s
      else
        let s1 := s.pageSave ctx p back ((cl * 768 + f) * 2048)
        if s1.blockWaits back then s1.setPage ctx page { p with dirty := 0 }
        else (s1.setPage ctx page { p with res := .absent, written := true, dirty := 0 }).spServe ctx page
    | _, _ => s)

/-- RESIDENCY_STAY_EXPIRE (R382): 2,048 cycles after it became resident a page leaves for a cluster that waits for it. -/
def execResidencyStayExpire (ctx page : Nat) (s : State) : Host.Outcome State Fault Refusal :=
  .next (
    let p := s.spPage ctx page
    match p.res with
    | .res d _ =>
      if p.reqs.isEmpty || s.gcyc < p.since + 2048 || s.pinned d (pageKey ctx page) p || s.bounced ctx page then s
      else s.spDepart ctx page
    | _ => s)

/-! ### The bounce buffer (13 R383) -/

/-- One slot goes into the frame of its page; the agents it is ordered before, and a join since, go with it. -/
def State.mergeFrame (s : State) (cl f : Nat) (b : Bounce) : State :=
  let fa := (cl * 768 + f) * 2048 + b.addr % 2048
  let s1 := s.spPatch b.ctx b.addr b.own b.cmd fa b.bytes (mkTag b.psn (b.tag.getD 0))
  let own (u : Unjoined) : Bool := u.line == fa / 64 && u.own == b.own && u.cmd == b.cmd
  { s1 with unjoined := (s1.unjoined.filter fun u => !(b.joined && own u)).map fun u =>
      if own u then { u with known := b.known.foldl (fun m e => putK m e.1 e.2) u.known } else u }

/-- One slot goes into the backing block of its page. -/
def State.mergeBack (s : State) (back : Nat) (b : Bounce) : State :=
  let a := back + b.addr % 2048
  if tagPsn (s.tag a) && b.bytes.length != 64 then s.log b.ctx 3 b.addr (agentField (coreOf (b.own % 4096)) 2 true)
  else (byteRuns b.bytes).foldl (fun s r => s.agentWrite b.ctx (a + r.1) r.2 (some (mkTag b.psn (b.tag.getD 0)))) s

/-- BOUNCE_MERGE (R383): the slots of one page, in the order they were written, into its frame when it is RES, or into its
backing block when it is ABSENT.  A page that still reads as zero is zero there first. -/
def execBounceMerge (ctx page : Nat) (s : State) : Host.Outcome State Fault Refusal :=
  .next (
    let p := s.spPage ctx page
    let mine (b : Bounce) : Bool := b.ctx == ctx && b.addr / 2048 == page
    let l := s.bounce.filter mine
    let rest : State := { s with bounce := s.bounce.filter fun b => !mine b }
    if l.isEmpty then s
    else match p.res, spEntryOf p.entry with
      | .res cl f, some _ => l.foldl (fun s b => s.mergeFrame cl f b) rest
      | .absent, some (back, _) =>
        let s1 := if p.written then rest else forN 32 rest fun i s => s.agentWrite ctx (back + 64 * i) (List.replicate 64 0) (some 0)
        (l.foldl (fun s b => s.mergeBack back b) s1).setPage ctx page { p with written := true }
      | _, _ => s)

/-! ### The power of a core (01 R34) -/

/-- The pages in the frames of a core. -/
def State.corePages (s : State) (core : Nat) : List (Nat × SpPage) :=
  s.pages.filter fun e => match e.2.res with
    | .pin cl f => cl * 4 + f / 192 == core
    | .res cl f => cl * 4 + f / 192 == core
    | .pout cl f => cl * 4 + f / 192 == core
    | .absent => false

/-- CORE_GATE (R34): the tasks of the core's partitions are saved, its frames are written out, and then it is gated; each
event takes what may be taken.  Copies of its engine do not keep it from being gated, and run on (notes/assumptions/98). -/
def execCoreGate (core : Nat) (s : State) : Host.Outcome State Fault Refusal :=
  .next (
    let ps := (List.range 8).map fun i => core * 8 + i
    if 384 ≤ core ∨ s.gated.contains core then s
    else if ps.any fun p => (s.th p).task.isSome then ps.foldl State.stopToSave s
    else if (s.corePages core).isEmpty then
      let s0 := (s.deltas.filter fun d => d.core == core).foldl State.merge s
      let s1 := (s0.l1.filter fun e => e.1 == core).foldl (fun s e => s.evictL1 core e.2.1) s0
      { s1 with
        gated := s1.gated ++ [core]
        deltas := s1.deltas.filter fun d => d.core != core
        cached := s1.cached.filter fun e => e.1 != core
        xcache := s1.xcache.filter fun e => e.1 != core
        spCache := s1.spCache.filter fun e => e.1 != core
        icache := s1.icache.filter fun e => e.1 != core }
    else (s.corePages core).foldl (fun s e => match e.2.res with
      | .res d _ => if s.pinnedWork d e.1 e.2 || s.bounced (e.1 / 16384) (e.1 % 16384) then s else s.spDepart (e.1 / 16384) (e.1 % 16384)
      | _ => s) s)

/-- CORE_POWER_UP (R34). -/
def execCorePowerUp (core : Nat) (s : State) : Host.Outcome State Fault Refusal :=
  .next { s with gated := s.gated.filter (· != core) }

end Sys2Proof.Machine
end

