-- ==== Sys2Proof/Machine/Debug.lean ====
section
/-! DEFINITION. Debug stops and steps, the window, line writes and tokens (19). -/

namespace Sys2Proof.Machine

open Sys2Proof

/-! ### Stopping and stepping (19 R471–R474) -/

/-- The partitions a STOP or RUN reaches (19 Table 19-2). -/
def State.debugScope (s : State) (p scope : Nat) : List Nat :=
  match scope with
  | 0 => [p]
  | 1 => (List.range 8).map fun i => p / 8 * 8 + i
  | 2 => (List.range 32).map fun i => p / 32 * 32 + i
  | _ => match s.owner p with
    | some c => (s.ctx c).allot
    | none => []

/-- STOP at one partition: a step under way completes first, with CAUSE 1 (19 Table 19-3); else the stop comes with the next GCYC edge, the
same for every partition of its scope (19 R472). -/
def State.stopOne (s : State) (p : Nat) : State :=
  s.modTh p fun t => { t with dbg := if t.dbg.step then { t.dbg with cause := 1 } else { t.dbg with edge := 1 } }

/-- A stop of partition p ends (19 R473, R474): its handles are walked again (05 R137), and DRTH is loaded (19 R479). -/
def State.endStop (s : State) (p : Nat) (d : DebugSt) : State :=
  s.modTh p fun t => { t.handlesAgain with dbg := d, drth := if t.task.isSome then drthOf (s.ctx (s.ctxOf p)).cdbg else t.drth }

/-- RUN at one partition, with the next edge. -/
def State.runOne (s : State) (p : Nat) : State := s.modTh p fun t => { t with dbg := { t.dbg with edge := 2 } }

/-- What a GCYC edge brings to a partition: a stop, unless it is stopped already (a BRK of that cycle keeps its CAUSE, 19 Table 19-3), or
the end of one. -/
def State.edgeOne (s : State) (p : Nat) : State :=
  let d := (s.th p).dbg
  match d.edge with
  | 1 => if d.stopped || d.step then s.modTh p fun t => { t with dbg := { t.dbg with edge := 0 } }
         else (s.stallEnd p).modTh p fun t => { t with dbg := { stopped := true, cause := 1 } }
  | 2 => if d.stopped then s.endStop p {} else s.modTh p fun t => { t with dbg := { t.dbg with edge := 0 } }
  | _ => s

/-- The edge of every partition that a STOP or RUN of this cycle reached. -/
def State.edgeTick (s : State) : State := ((s.thr.filter fun e => e.2.dbg.edge != 0).map Prod.fst).foldl State.edgeOne s

/-- A command written to DCTL (19 Table 19-2): ignored while the feature is disabled, and while a step is pending. -/
def State.dctlCmd (s : State) (p scope cmd : Nat) : State :=
  let t := s.th p
  if 3072 ≤ p || !s.feature 0 || t.dbg.step || s.sys.recovery then s
  else match cmd with
    | 1 => (s.debugScope p scope).foldl State.stopOne s
    | 2 => if t.dbg.stopped && t.dbg.edge == 0 && t.mode == .running then s.endStop p { step := true } else s
    | 3 => (s.debugScope p scope).foldl State.runOne s
    | _ => s

/-- The write of DCTL by the management controller. -/
def State.byDctl (s : State) (p scope cmd : Nat) : State :=
  if p < 3072 then s.byMc (0x100000 + 16 * p) (BitVec.ofNat 64 (scope % 4 * 1024 + cmd)) fun s => s.dctlCmd p (scope % 4) cmd else s

/-- DEBUG_STOP (R472). -/
def execDebugStop (part scope : Nat) (s : State) : Host.Outcome State Fault Refusal := .next (s.byDctl part scope 1)
/-- DEBUG_STEP (R473). -/
def execDebugStep (part : Nat) (s : State) : Host.Outcome State Fault Refusal := .next (s.byDctl part 0 2)
/-- DEBUG_RUN (R474). -/
def execDebugRun (part scope : Nat) (s : State) : Host.Outcome State Fault Refusal := .next (s.byDctl part scope 3)

/-! ### The window (19 R475) -/

/-- An 8-byte write of a window reaches the fields of 12 R352 and V0–V59; of a parked partition, also the park image, from
which PRES reloads the fields of R352. -/
def State.windowPut (s : State) (p off : Nat) (v : W64) : State :=
  let image (s : State) (v : Nat) : State :=
    if (s.th p).mode = .parked then
      s.vwrN (s.ctxOf p) (s.slotAddr (s.ctxOf p) (((s.th p).task.map TaskRef.slot).getD p) + off) 8 v
    else s
  if !s.feature 2 || !s.windowOpen p || off % 8 != 0 || decide (3072 ≤ p) then s
  else if 0x408 ≤ off ∧ off < 0x600 then
    image (s.modTh p fun t => t.setS ((off - 0x400) / 8) v (t.sBad ((off - 0x400) / 8))) v.toNat
  else if 0x1E0 ≤ off ∧ off < 0x2E0 then
    image (s.modTh p fun t => t.setH ((off - 0x1E0) / 8) (handleOf v.toNat)) v.toNat
  else if off = 0x2E0 then
    let b := v.setWidth 16 ||| 1#16
    image (s.modTh p fun t => { t with pr := b }) b.toNat
  else if off = 0x330 then image (s.modTh p fun t => { t with srstate := v }) v.toNat
  else if 0x800 ≤ off ∧ off < 0x4400 then
    let n := (off - 0x800) / 256
    let j := off % 256 / 8
    s.modTh p fun t => { t with vr := putD 0 t.vr n (vOfLanes 64 ((List.range 32).map fun i =>
      if i = j then v.toNat else vLane (t.vPhys n) 64 i)) }
  else s

/-- WINDOW_WRITE (R475). -/
def execWindowWrite (part off : Nat) (v : BitVec 64) (s : State) : Host.Outcome State Fault Refusal :=
  .next (if part < 3072 ∧ off < 0x40000 ∧ off % 8 = 0 then s.byMc (0x40000000 + 0x40000 * part + off) v fun s => s.windowPut part off v else s)

/-! ### Debug line writes (19 R476) -/

/-- A write of DLADDR starts the line write; one while a write is in progress is ignored. -/
def State.dlWrite (s : State) (v : W64) : State :=
  if !s.feature 3 || s.sys.dlPending.isSome then s
  else { s with sys := { s.sys with dlPending := some (fld v 49 6) } }

/-- DEBUG_LINE_WRITE (R476). -/
def execDebugLineWrite (v : BitVec 64) (s : State) : Host.Outcome State Fault Refusal := .next (s.byMc 0x5000 v fun s => s.dlWrite v)

/-- DEBUG_LINE_WRITE_PERFORM (R476): the line leaves every instruction cache, and the 64 bytes of DLDATA replace it, after the shootdown
of what a line of page-table entries gave (13 R371).  The write
has no record in hand and leaves VER as it is, as the host's does; a table the part keeps takes none (notes/assumptions/116). -/
def execDebugLineWritePerform (s : State) : Host.Outcome State Fault Refusal :=
  .next (match s.sys.dlPending with
    | none => s
    | some line =>
      let s0 : State := { s with icache := s.icache.filter fun e => e.2.1 != line }
      let s1 : State := { s0 with sys := { s0.sys with dlPending := none } }
      if s.partWaits line then s
      else if s1.violates true (line * 64) || physClass (line * 64) = .control then s1.logFw 4 (line * 64) (agentField 0 2 false)
      else match s1.protectedKind (line * 64) with
        | some kd => s1.logFw kd (line * 64) (agentField 0 2 false)
        | none =>
          let put (s : State) : State := s.partWrite (line * 64) ((List.range 64).map fun i => getD 0 s.sys.dlData i)
            (some (mkTag false (tagVer (s.tag (line * 64)))))
          if (put s0).partWaits line then put s0 else put s1)

/-! ### Debug tokens (19 R486, R487) -/

/-- A write of 1 to DUNLK starts the check. -/
def State.unlock (s : State) (v : W64) : State :=
  if v ≠ 1 ∨ s.sys.tokenBusy then s else { s with sys := { s.sys with tokenBusy := true, dunlk := 1 } }

/-- DEBUG_UNLOCK (R487). -/
def execDebugUnlock (v : BitVec 64) (s : State) : Host.Outcome State Fault Refusal := .next (s.byMc 0x6008 v fun s => s.unlock v)

/-- DEBUG_TOKEN_CHECK_DONE (R487): DNONCE is drawn anew whatever the outcome. -/
def execDebugTokenCheckDone (s : State) : Host.Outcome State Fault Refusal :=
  .next (
    let b (o n : Nat) : List Byte := (List.range n).map fun i => getD 0 s.sys.dtok (o + i)
    let ok := b 0 32 == devId s.sys.keyZero s.sys.image && ofBytes (b 0x20 8) == ofBytes (s.sys.dnonce.take 8) &&
      ((b 0x2C 20).all fun x => x == 0) && Config.tokenGenuine (b 0 64) (b 0x40 2420)
    if !s.sys.tokenBusy then s
    else
      { s with
        fresh := s.fresh + 1
        sys := { s.sys with
          tokenBusy := false, dunlk := if ok then 2 else 4
          debugOn := if ok then s.sys.debugOn ||| (ofBytes (b 0x28 4) % 64) else s.sys.debugOn
          dnonce := (List.range 8).map fun i => Config.entropy (s.fresh * 64 + i) } })

end Sys2Proof.Machine
end

