-- ==== Sys2Proof/Machine/Regs.lean ====
section
/-! DEFINITION. Writes of the registers of the package control space (00 R12, R13, 10 R285, 12 R339, R348, 17, 19, 20). -/

namespace Sys2Proof.Machine

open Sys2Proof

/-! ### Firmware's rings (12 R348) -/

/-- Whether the ring a base or count register belongs to holds no unconsumed record. -/
def State.ringIdle (s : State) (off : Nat) : Bool :=
  let base := if off < 0x8010 then fld s.sys.fwqbase 49 12 * 4096 else fld s.sys.fwlbase 49 12 * 4096
  let cnt := if off < 0x8010 then s.sys.fwqcnt else s.sys.fwlcnt
  cnt == 0 || s.rd64 base == s.rd64 (base + 8)

def State.fwSet (s : State) (off : Nat) (v : W64) : State :=
  if off = 0x8000 then { s with sys := { s.sys with fwqbase := BitVec.ofNat 64 (fld v 49 12 * 4096) } }
  else if off = 0x8008 then { s with sys := { s.sys with fwqcnt := BitVec.ofNat 64 (fld v 16 0) } }
  else if off = 0x8010 then { s with sys := { s.sys with fwlbase := BitVec.ofNat 64 (fld v 49 12 * 4096) } }
  else { s with sys := { s.sys with fwlcnt := BitVec.ofNat 64 (fld v 20 0) } }

/-- A write of a base or count takes effect at once, or once the ring's TAIL equals its HEAD; it replaces one of the same register that
waits. -/
def State.fwWrite (s : State) (off : Nat) (v : W64) : State :=
  if s.ringIdle off then ({ s with sys := { s.sys with fwPend := s.sys.fwPend.filter fun e => e.1 != off } } : State).fwSet off v
  else { s with sys := { s.sys with fwPend := s.sys.fwPend.filter (fun e => e.1 != off) ++ [(off, v)] } }

/-- Each cycle: waiting writes whose ring has emptied. -/
def State.fwTick (s : State) : State :=
  let due := s.sys.fwPend.filter fun e => s.ringIdle e.1
  due.foldl (fun s e => s.fwSet e.1 e.2) { s with sys := { s.sys with fwPend := s.sys.fwPend.filter fun e => !s.ringIdle e.1 } }

/-! ### Tenants (20 R499) -/

/-- A write of a slot's first word: V = 1 provisions the tenant and draws its secret; V = 0 releases it, unless a context of
it is resident. -/
def State.tenantWrite (s : State) (n : Nat) (v : W64) : State :=
  let old := s.tenantSlot n
  let rest := s.tenants.filter fun x => x.slot != n
  if v.getLsbD 16 then
    let same := match old with
      | some x => x.reg == BitVec.ofNat 64 (fld v 16 0)
      | none => false
    { s with
      fresh := s.fresh + 1
      tenants := rest ++ [{ slot := n, reg := BitVec.ofNat 64 (fld v 16 0), quota := (old.map Tenant.quota).getD 0
                            secret := (List.range 32).map fun i => Config.entropy (s.fresh * 64 + i)
                            stats := if same then (old.map Tenant.stats).getD {} else {} }] }
  else match old with
    | none => s
    | some x =>
      let tid := fld x.reg 15 0
      if x.reg.getLsbD 16 && s.ctxs.any fun e => e.2.st != .free && e.2.tenant == tid then s
      else { s.dropReuse (fun e => x.reg.getLsbD 16 && e.tenant == tid) with tenants := rest }

/-- A write of a slot's quota. -/
def State.quotaWrite (s : State) (n : Nat) (v : W64) : State :=
  match s.tenantSlot n with
  | some _ => { s with tenants := s.tenants.map fun x => if x.slot == n then { x with quota := fld v 16 0 } else x }
  | none => { s with tenants := s.tenants ++ [{ slot := n, reg := 0, quota := fld v 16 0, secret := [] }] }

/-! ### Counters (19 R483, R485) -/

/-- A write of PMCn: COUNT is set, a 1 clears OVF, and the cycle's events for the counter are discarded. -/
def State.pmcPut (s : State) (core n : Nat) (v : W64) : State :=
  let i := core * 16 + n
  let ovf := (getD 0 s.pmc i).getLsbD 63 && !v.getLsbD 63
  if s.feature 5 && decide (core < 384) && decide (n < 16) then
    { s with pmc := putD 0 s.pmc i (BitVec.ofNat 64 (b2n ovf * 2 ^ 63 + fld v 47 0)), pmcSkip := s.pmcSkip ++ [i] }
  else s

/-- A write of PMSELn. -/
def State.pmselPut (s : State) (core n : Nat) (v : W64) : State :=
  let i := core * 16 + n
  if s.feature 5 && decide (core < 384) && decide (n < 16) then
    { s with pmsel := putD 0 s.pmsel i (BitVec.ofNat 64 (fld v 15 0)), pmcSkip := s.pmcSkip ++ [i] }
  else s

/-! ### The register map -/

/-- A write of CCTL (12 Table 12-4): DIE is set, and while BUSY = 1 the command is ignored (12 R339). -/
def State.cctlWrite (s : State) (c : Nat) (v : W64) : State :=
  (s.modCtx c fun x => { x with die := fld v 9 8 }).cctlCmd c (fld v 3 0)

/-- A write of CDBG (19 Table 19-4): the bit of a disabled feature is ignored. -/
def State.cdbgWrite (s : State) (c : Nat) (v : W64) : State :=
  s.modCtx c fun x => { x with cdbg := BitVec.ofNat 64 (fld v 52 32 * 2 ^ 32 +
    b2n (if s.feature 4 then v.getLsbD 2 else x.cdbg.getLsbD 2) * 4 + b2n (if s.feature 3 then v.getLsbD 1 else x.cdbg.getLsbD 1) * 2) }

/-- A write of the 8-byte word of the control space at an offset. -/
def State.ctlWrite (s : State) (off : Nat) (v : W64) : State :=
  if s.sys.recovery then s
  else if off < 0x400 then
    let c := off / 16
    if off % 16 = 0 then s.modCtx c fun x => { x with cdesc := BitVec.ofNat 64 (fld v 49 10 * 1024) } else s.cctlWrite c v
  else if off < 0x800 then
    let c := (off - 0x400) / 16
    if off % 16 = 0 then s.cdbgWrite c v
    else if s.feature 4 then s.modCtx c fun x => { x with trbase := BitVec.ofNat 64 (fld v 49 12 * 4096 + fld v 4 0) } else s
  else if off = 0x1000 then { s with fab := { s.fab with fabid := fld v 13 0 } }
  else if 0x2000 ≤ off ∧ off < 0x2800 then
    forN 64 s fun i s => if v.getLsbD i then s.unrchClear ((off - 0x2000) * 8 + i) else s
  else if 0x4000 ≤ off ∧ off < 0x40C8 then s.linkEnable ((off - 0x4000) / 8) (v.getLsbD 0)
  else if off = 0x5000 then s.dlWrite v
  else if 0x5040 ≤ off ∧ off < 0x5080 then
    if s.feature 3 then forN 8 s fun i s =>
      { s with sys := { s.sys with dlData := putD 0 s.sys.dlData (off - 0x5040 + i) (BitVec.ofNat 8 (v.toNat >>> (8 * i))) } }
    else s
  else if off = 0x6008 then s.unlock v
  else if off = 0x7800 then { s with sys := { s.sys with plim := BitVec.ofNat 64 (max 600 (min 2200 (fld v 11 0))) } }
  else if 0x8000 ≤ off ∧ off < 0x8020 then s.fwWrite off v
  else if 0x9000 ≤ off ∧ off < 0x9400 then
    if off % 16 = 0 then s.modCtx ((off - 0x9000) / 16) fun x => { x with tmode := fld v 1 0 } else s
  else if 0xA000 ≤ off ∧ off < 0xE000 then
    let n := (off - 0xA000) / 64
    if off % 64 = 0 then s.tenantWrite n v else if off % 64 = 8 then s.quotaWrite n v else s
  else if 0x10000 ≤ off ∧ off < 0x11000 then forN 8 s fun i s =>
    { s with sys := { s.sys with dtok := putD 0 s.sys.dtok (off - 0x10000 + i) (BitVec.ofNat 8 (v.toNat >>> (8 * i))) } }
  else if 0x100000 ≤ off ∧ off < 0x10C000 then
    if off % 16 = 0 then s.dctlCmd ((off - 0x100000) / 16) (fld v 11 10) (fld v 3 0) else s
  else if 0x200000 ≤ off ∧ off < 0x218000 then
    let core := (off - 0x200000) / 256
    let n := off % 256 / 8
    if n < 16 then s.pmcPut core n v else s.pmselPut core (n - 16) v
  else if 0x1000000 ≤ off ∧ off < 0x1020000 then
    { s with fab := { s.fab with routes := putD 0 s.fab.routes ((off - 0x1000000) / 8) (BitVec.ofNat 64 (fld v 39 18 * 2 ^ 18 + fld v 0 0)) } }
  else if 0x40000000 ≤ off ∧ off < 0x70000000 then s.windowPut ((off - 0x40000000) / 0x40000) (off % 0x40000) v
  else s

/-- What the bytes of a word that a narrower write does not name keep: a bit that acts when 1 is written is written 0. -/
def State.ctlKeep (s : State) (off : Nat) : Nat :=
  if 0x2000 ≤ off ∧ off < 0x2800 then 0
  else if 0x200000 ≤ off ∧ off < 0x218000 then s.ctlWord off % 2 ^ 63
  else s.ctlWord off

/-- A store of bytes to the control space: word by word, ascending. -/
def State.ctlStore (s : State) (pa : Nat) (bs : List Byte) : State :=
  let o := pa - ctlBase
  forN ((o % 8 + bs.length + 7) / 8) s fun i s =>
    let w := o / 8 * 8 + 8 * i
    let old := bytesOf 8 (s.ctlKeep w)
    s.ctlWrite w (BitVec.ofNat 64 (ofBytes ((List.range 8).map fun j =>
      if o ≤ w + j ∧ w + j < o + bs.length then bs.getD (w + j - o) 0 else old.getD j 0)))

/-! ### Writes of firmware and the management controller -/

/-- A write over the management controller: below I0 it starts the exit and waits (20 R489). -/
def State.mcWrite (s : State) (off : Nat) (v : W64) : State := s.byMc off v fun s => s.ctlWrite off v

/-- REGISTER_WRITE (R12): a write of the register at a physical address of the control space. -/
def execRegisterWrite (addr : Nat) (v : BitVec 64) (s : State) : Host.Outcome State Fault Refusal :=
  .next (if physClass addr = .control then s.mcWrite ((addr - ctlBase) / 8 * 8) v else s)

/-- TENANT_PROVISION (R499): a write that sets V. -/
def execTenantProvision (slot : Nat) (v : BitVec 64) (s : State) : Host.Outcome State Fault Refusal :=
  .next (if slot < 256 ∧ v.getLsbD 16 then s.mcWrite (0xA000 + 64 * slot) v else s)

/-- TENANT_RELEASE (R499): a write that clears V. -/
def execTenantRelease (slot : Nat) (v : BitVec 64) (s : State) : Host.Outcome State Fault Refusal :=
  .next (if slot < 256 ∧ v.getLsbD 16 = false then s.mcWrite (0xA000 + 64 * slot) v else s)

/-- PMC_WRITE (R485). -/
def execPmcWrite (core n : Nat) (v : BitVec 64) (s : State) : Host.Outcome State Fault Refusal :=
  .next (if core < 384 ∧ n < 16 then s.byMc (0x200000 + 256 * core + 8 * n) v fun s => s.pmcPut core n v else s)
/-- PMSEL_WRITE (R485). -/
def execPmselWrite (core n : Nat) (v : BitVec 64) (s : State) : Host.Outcome State Fault Refusal :=
  .next (if core < 384 ∧ n < 16 then s.byMc (0x200000 + 256 * core + 128 + 8 * n) v fun s => s.pmselPut core n v else s)

end Sys2Proof.Machine
end

