-- ==== Sys2Proof/Machine/Cache.lean ====
section
/-! DEFINITION. Where requests perform: the L1 states, the homes, errors, and the host's accesses (05 R157–R163, 10 R289–R296,
17 R445, R446). -/

namespace Sys2Proof.Machine

open Sys2Proof

/-! ### L1 data lines (10 Table 10-3) -/

/-- A core's L1 takes a line: 2,048 lines (01 Table 1-3).  Which line makes room is not given (notes/assumptions/111). -/
def State.setL1 (s : State) (core line : Nat) (st : Moesi) : State :=
  let mine := s.l1.filter fun e => e.1 == core && e.2.1 != line
  if mine.length < 2048 then s.putL1 core line st
  else
    let v := (mine.getD (Config.victim s.fresh % mine.length) (core, line, .i)).2.1
    ({ s with fresh := s.fresh + 1 }.evictL1 core v).putL1 core line st

/-- Whether the directory shows another holder of a line than a core: a sharer's bit, the host's, or another owner (R289, R290). -/
def State.heldElsewhere (s : State) (core line : Nat) : Bool :=
  let e := s.dirOf line
  e.sharers != 0 || e.host || ((e.st == .exclusive || e.st == .owned) && e.owner != core)

/-- Whether a line's watch counter is nonzero at a reuse unit (11 R334). -/
def State.watched (s : State) (line : Nat) : Bool := (List.range 4).any fun u => getD 0 s.watchCnt (watchKey u line) != 0

/-- A load miss: E where the directory shows no other holder, else S; a watched line is granted only in S (11 R334). -/
def State.l1Fill (s : State) (core part line : Nat) : State :=
  if 384 ≤ core ∨ s.l1State core line ≠ .i ∨ physClass (line * 64) = .control ∨ physClass (line * 64) = .reserved then s
  else
    let s1 := s.othersRead line core
    let s2 := if s.heldElsewhere core line || s.watched line then (s1.dirShare line core).setL1 core line .s
      else (s1.modDir line fun e => { e with st := .exclusive, owner := core }).setL1 core line .e
    s2.pmcEvent core part 7 1

/-- A store miss, an upgrade, or the silent step from E: every other copy goes. -/
def State.l1Own (s : State) (core part line : Nat) : State :=
  if 384 ≤ core ∨ s.watched line ∨ physClass (line * 64) = .control ∨ physClass (line * 64) = .reserved then s
  else match s.l1State core line with
    | .m => s
    | .e => s.putL1 core line .m
    | st =>
      let s1 := if st = .i then s.pmcEvent core part 7 1 else s
      (((s1.putL1 core line .i).invalidate line).modDir line fun _ => { st := .exclusive, owner := core }).setL1 core line .m

/-- The lines a request touches. -/
def ReqKind.lines (k : ReqKind) : List Nat :=
  (k.runs.flatMap fun x => (List.range ((x.1 % 64 + x.2 + 63) / 64)).map fun i => x.1 / 64 + i).dedup

/-- A request of a partition on a core that reads, or writes, a line. -/
def State.wants (s : State) (core line : Nat) (wr : Bool) : Option Req :=
  s.reqs.find? fun r => decide (r.key < engKey 0) && r.key != hostKey && r.key != partKey && !isCs r.key && coreOf (partOf r.key) == core &&
    r.kind.lines.contains line && match r.kind with
      | .store .. => wr
      | .load .. => !wr
      | .conv .. => !wr
      | .acld .. => !wr
      | _ => false

/-- L1_LOAD_MISS (R290). -/
def execL1LoadMiss (core line : Nat) (s : State) : Host.Outcome State Fault Refusal :=
  .next (match s.wants core line false with
    | some r => s.l1Fill core (partOf r.key) line
    | none => s)

/-- L1_STORE_MISS (R290). -/
def execL1StoreMiss (core line : Nat) (s : State) : Host.Outcome State Fault Refusal :=
  .next (match s.wants core line true with
    | some r => if s.l1State core line = .i then s.l1Own core (partOf r.key) line else s
    | none => s)

/-- L1_UPGRADE (R290): a store to a line held in S, O or E. -/
def execL1Upgrade (core line : Nat) (s : State) : Host.Outcome State Fault Refusal :=
  .next (match s.wants core line true with
    | some r => if s.l1State core line = .i then s else s.l1Own core (partOf r.key) line
    | none => s)

/-- L1_EVICTION (R290): a dirty line goes back to its home. -/
def execL1Eviction (core line : Nat) (s : State) : Host.Outcome State Fault Refusal := .next (s.evictL1 core line)

/-- DIRECTORY_ENTRY_EVICT (R289): every copy is recalled. -/
def execDirectoryEntryEvict (line : Nat) (s : State) : Host.Outcome State Fault Refusal := .next (s.invalidate line)

/-! ### Performing (10 R291–R294, R302) -/

/-- Whether a request goes to a register of the control space. -/
def State.toCtl (s : State) (r : Req) (pa : Nat) : Bool := physClass pa == .control && s.firmware (s.reqIssuer r)

/-- Whether a request's line passes through its partition's L1. -/
def Req.cached (r : Req) : Bool := decide (r.key < engKey 0) && r.key != hostKey && r.key != partKey && !isCs r.key

/-- A store performs; the core that made it holds the line in M, and its slice a line as clean or dirty as it was. -/
def State.performWrite (s : State) (r : Req) (pa : Nat) (bytes : List Byte) : State :=
  if s.toCtl r pa then (s.dropReq r.id).ctlStore pa bytes
  else if !s.clear r then s
  else if r.cached && !s.violates (s.firmware (s.reqIssuer r)) pa then
    let core := coreOf (partOf r.key)
    let line := pa / 64
    let dirty := getD false s.l2 line || s.l1.any fun e => e.2.1 == line && e.1 != core && (e.2.2 == .m || e.2.2 == .o)
    let s1 := s.performEntry r
    let s2 : State := { s1 with l2 := s1.l2.map fun e => if e.1 == line then (line, dirty) else e }
    if s1.watched line then s1 else s2.l1Own core (partOf r.key) line
  else s.performEntry r

/-- CLFL and CLINV on a line (05 R159): the issuing core's dirty copy goes home, and CLFL keeps it clean, CLINV not; with .l2
the slice's dirty copy goes to HBM4 and stays. -/
def State.maintain (s : State) (core line : Nat) (inv l2 : Bool) : State :=
  let s1 := if inv then s.evictL1 core line
    else match s.l1State core line with
      | .m => (s.l2Touch line true).putL1 core line .e
      | .o =>
        let s2 := (s.l2Touch line true).putL1 core line .s
        { s2 with dir := s2.dir.map fun e => if e.1 == line && e.2.st == .owned then (line, { e.2 with st := .shared }) else e }
      | _ => s
  if l2 then { s1 with l2 := s1.l2.map fun e => if e.1 == line then (line, false) else e } else s1

/-- HOME_WRITE_PERFORM (R291): a store, a cache maintenance, a prefetch or an instruction-cache invalidation performs. -/
def execHomeWritePerform (req : Nat) (s : State) : Host.Outcome State Fault Refusal :=
  .next (match s.req? req with
    | none => s
    | some r =>
      if !s.inOrder r then s
      else match r.kind with
        | .store pa bytes .. => s.performWrite r pa bytes
        | .patch .. => if s.clear r then s.performEntry r else s
        | .pclr _ => if s.clear r then s.performEntry r else s
        | .maint core line n inv l2 => forN n (s.dropReq req) fun i s => s.maintain core (line + i) inv l2
        | .pref core line n l1 =>
          forN n (s.dropReq req) fun i s => if l1 then s.l1Fill core (partOf r.key) (line + i) else s.l2Touch (line + i) false
        | .icinv scope lo n => (s.dropReq req).icInvalidate (s.coreIn r.key scope) (s.covers r.ctx lo n)
        | _ => s)

/-- An atomic of firmware on a register. -/
def State.ctlAtomic (s : State) (r : Req) (op : AtomicOp) (at_ pa : Nat) (b c : W64) (ret : Option Nat) : State :=
  let n := atWidth at_
  let old := ofBytes (s.physBytes pa n)
  let new_ := atomicNew op at_ (8 * n) old (b.toNat % 2 ^ (8 * n)) (c.toNat % 2 ^ (8 * n))
  let s1 := if op = .ld then s.dropReq r.id else (s.dropReq r.id).ctlStore pa (bytesOf n new_)
  match ret with
  | none => s1
  | some d => s1.arrive r.key r.id (.s d (atExtend at_ old) false)

/-- ATOMIC_AT_HOME (R293). -/
def execAtomicAtHome (req : Nat) (s : State) : Host.Outcome State Fault Refusal :=
  .next (match s.req? req with
    | none => s
    | some r => match r.kind with
      | .atomic op at_ pa b c ret _ _ =>
        if !s.inOrder r then s
        else if s.toCtl r pa then (s.performed r).ctlAtomic r op at_ pa b c ret
        else if !s.clear r then s
        else
          let old := rdBytes s.mem pa (atWidth at_)
          let s1 := s.performEntry r
          if r.key = hostKey then { s1 with sys := { s1.sys with lastRead := old } } else s1
      | _ => s)

/-- LOAD_DATA_ARRIVE (R93, R149): one line or lane of a load is read; with its last the value enters the landing buffer. -/
def execLoadDataArrive (req : Nat) (s : State) : Host.Outcome State Fault Refusal :=
  .next (match s.req? req with
    | none => s
    | some r =>
      if !s.mayPerform r then s
      else
        let s1 := (s.performed r).loadArrive r
        if (s1.req? req).isSome || !r.cached || !r.kind.reads then s1
        else match r.kind with
          | .ltag .. => s1
          | .atomic .. => s1
          | k => k.lines.foldl (fun s1 l =>
            if s.violates (s.firmware (s.reqIssuer r)) (l * 64) then s1 else s1.l1Fill (coreOf (partOf r.key)) (partOf r.key) l) s1)

/-! ### Errors (10 R295, R296) -/

/-- An error in an issuer's registers, banks or landing buffer sets a poison flag (05 R162, 07 R207, R211). -/
def Thr.spoil (t : Thr) (site : ErrorSite) : Thr :=
  let bad (l : Land) : Land := match l with
    | .s n v _ => .s n v true
    | .v n v m _ => .v n v m true
    | l => l
  match site with
  | .sreg _ n => if n = 0 then t else { t with sPsn := putD false t.sPsn n true }
  | .vreg _ n => { t with vPsn := putD false t.vPsn n true }
  | .bank _ n => t.setBPsn n true
  | .landing _ n => { t with flight := t.flight.zipIdx.map fun e => if e.2 = n ∧ e.1.entry then { e.1 with land := bad e.1.land } else e.1 }
  | _ => t

/-- UNCORRECTABLE_ERROR (R296): a line of HBM or of the host window, a frame line, or a register.  A frame line of no page is
logged with the firmware, by its place (notes/assumptions/117). -/
def execUncorrectableError (site : ErrorSite) (s : State) : Host.Outcome State Fault Refusal :=
  let reg (k : Nat) : State := if s.thr.any (fun e => e.1 == k) then s.modTh k fun t => t.spoil site else s
  .next (match site with
    | .line l =>
      if physClass (l * 64) = .hbm ∨ physClass (l * 64) = .host then
        (s.setTag (l * 64) (mkTag true (tagVer (s.tag (l * 64))))).logFw 1 (l * 64) (agentField (homeSlice (l * 64)) 2 false)
      else s
    | .frame l =>
      let core := l / 32 / 768 * 4 + l / 32 % 768 / 192
      if 384 ≤ core then s
      else
        let s1 := s.setFtag (l * 64) (mkTag true (tagVer (s.ftag (l * 64))))
        match s.frameUser (l / 32 / 768) (l / 32 % 768) with
        | none => s1.logFw 1 (l % 24576 * 64) (agentField core 2 true)
        | some (k, _) => s1.log (k / 16384) 1 (k % 16384 * 2048 + l % 32 * 64) (agentField core 2 true)
    | .sreg k n => if n < 64 then reg k else s
    | .vreg k n => if n < 60 then reg k else s
    | .bank k n => if n < 4 then reg k else s
    | .landing k _ => reg k)

/-- CORRECTABLE_ERROR (R295). -/
def execCorrectableError (die : Nat) (s : State) : Host.Outcome State Fault Refusal :=
  .next (if die < 4 then { s with corrected := putK s.corrected die (getD 0 s.corrected die + 1) } else s)

/-! ### The host over Linor Link (10 R292, 17 R445) -/

/-- The host may keep a line it has read or written, and the directory's host bit marks it. -/
def State.hostHold (s : State) (line : Nat) (wr : Bool) : State :=
  let keep := Config.hostKeeps s.fresh && !(wr && s.watched line)
  let old := s.hostLines.find? fun e => e.1 == line
  let st := if wr then Moesi.m else if s.l1.any (fun e => e.2.1 == line) then .s else .e
  let s1 : State := { s with fresh := s.fresh + 1 }
  if !keep || (!wr && old.isSome) then s1
  else
    let s2 : State := { s1 with hostLines := s.hostLines.filter (fun e => e.1 != line) ++ [(line, st)] }
    s2.modDir line fun e =>
      if st = .s then { e with host := true, st := if e.st = .uncached then .shared else e.st }
      else { st := .exclusive, owner := hostOwner, host := true }

/-- A request of the host on an HBM line: at once where nothing of the host waits and no shootdown is due, else in order. -/
def State.hostReq (s : State) (pa : Nat) (kind : ReqKind) (wr : Bool) : State :=
  let r : Req := { id := s.nextId, key := hostKey, acc := s.nextId, ctx := 64, tracked := false, kind }
  let s1 := { s with nextId := s.nextId + 1, reqs := s.reqs ++ [r] }
  if s1.hostOrder r && s1.clear r then
    let old := match kind with
      | .atomic _ at_ .. => rdBytes s.mem pa (atWidth at_)
      | _ => s.sys.lastRead
    let s2 := s1.performEntry r
    { s2.hostHold (pa / 64) wr with sys := { s2.sys with lastRead := old } }
  else s1

/-- A host write within one line; on a poisoned line of its own window as on one of HBM (05 R163, 10 R296). -/
def State.hostPut (s : State) (pa : Nat) (bs : List Byte) : State :=
  match physClass pa with
  | .hbm => if s.sys.recovery then s else s.hostReq pa (.store pa bs none false none) true
  | .host =>
    if tagPsn (s.tag pa) then
      if bs.length = 64 then (s.lineWrite pa bs).setTag pa (mkTag false (tagVer (s.tag pa))) else s.logFw 3 pa (agentField 0 2 false)
    else s.lineWrite pa bs
  | _ => s.logFw 4 pa (agentField 0 2 false)

/-- A host read within one line.  Of the control space the host reads only LCS. -/
def State.hostGet (s : State) (pa n : Nat) : List Byte × State :=
  let lcs := decide (ctlBase + 0x7000 ≤ pa) && decide (pa + n ≤ ctlBase + 0x7010)
  match physClass pa with
  | .hbm =>
    if s.sys.recovery then (List.replicate n 0, s) else (rdBytes s.mem pa n, (s.othersRead (pa / 64) 500).hostHold (pa / 64) false)
  | .host => (rdBytes s.mem pa n, s.shareLine (pa / 64) 500)
  | _ => if lcs then (s.ctlBytes pa n, s)
         else (s.violatedBytes pa n, s.logFw 4 pa (agentField 0 2 false))

def State.hostWrite (s : State) (addr : Nat) (bytes : List Byte) : State :=
  (splitLines addr bytes.length).foldl (fun s e => s.hostPut (addr + e.1) ((bytes.drop e.1).take e.2)) s

def State.hostRead (s : State) (addr len : Nat) : State :=
  let (bs, s1) := (splitLines addr len).foldl (fun acc e =>
    let (b, s1) := acc.2.hostGet (addr + e.1) e.2
    (acc.1 ++ b, s1)) (([] : List Byte), s)
  { s1 with sys := { s1.sys with lastRead := bs } }

/-- A host atomic: it performs unmerged at the home; one that is not aligned, or not on an HBM line, is none. -/
def State.hostAtomic (s : State) (op : AtomicOp) (addr : Nat) (at_ : Nat) (b c : W64) : State :=
  if addr % atWidth at_ != 0 || s.sys.recovery || physClass addr != .hbm then s
  else s.hostReq addr (.atomic op at_ addr b c none 0 5) true

/-- What the host asks is served, and a read or an atomic answered in flits (17 R435), where Linor Link is UP and the address lies in the physical space of 10 R285. -/
def hostAsk (addr len : Nat) (a : Asked) (f : State → State) (s : State) : Host.Outcome State Fault Refusal :=
  if 2 ^ 50 < addr + len then .fault .outsidePhysicalSpace
  else .next (if (s.link linorPort).st == 3 then s.served a f else s)

/-- HOST_WRITE (R445). -/
def execHostWrite (addr : Nat) (bytes : List (BitVec 8)) (s : State) : Host.Outcome State Fault Refusal :=
  hostAsk addr bytes.length (.write addr bytes) (fun s => s.hostWrite addr bytes) s

/-- HOST_READ (R445). -/
def execHostRead (addr len : Nat) (s : State) : Host.Outcome State Fault Refusal :=
  hostAsk addr len (.read addr len) (fun s => (s.hostRead addr len).transmit linorPort none) s

/-- HOST_ATOMIC (R445). -/
def execHostAtomic (op : AtomicOp) (addr : Nat) (at_ : BitVec 3) (b c : BitVec 64) (s : State) : Host.Outcome State Fault Refusal :=
  hostAsk addr 8 (.atomic op addr at_ b c) (fun s => (s.hostAtomic op addr at_.toNat b c).transmit linorPort none) s

end Sys2Proof.Machine
end

