-- ==== Sys2Proof/Machine/Power.lean ====
section
/-! DEFINITION. Idle levels, the power limit, reset, fuses and attestation (17 R447, 20 R488–R496). -/

namespace Sys2Proof.Machine

open Sys2Proof

/-! ### Idle levels (20 R488, R489) -/

/-- Each cycle: how long the package has been idle. -/
def State.idleTick (s : State) : State := { s with sys := { s.sys with idleFor := if s.quiet then s.sys.idleFor + 1 else 0 } }

/-- IDLE_ENTRY (R488). -/
def execIdleEntry (s : State) : Host.Outcome State Fault Refusal := .next s.enterDue

/-- IDLE_EXIT (R489): a request of the management controller starts the exit. -/
def execIdleExit (s : State) : Host.Outcome State Fault Refusal := .next s.enterDue.startExit

/-! ### Fuses and attestation (20 R492, R494–R496) -/

/-- A fuse write: a life-cycle stage, which only advances (R495), or, as number 4, the rollback count, which firmware raises to its own
SVN (R492). -/
def State.fuseWrite (s : State) (n : Nat) : State :=
  if n = 4 then { s with sys := { s.sys with rollback := max s.sys.rollback (imageSvn s.sys.image) } }
  else if s.sys.lcsStage < n ∧ n < 4 then { s with sys := { s.sys with lcsStage := n } } else s

/-- The body of an attestation report (R494). -/
def State.reportBody (s : State) (nonce : BitVec 256) : List Byte :=
  bytesOf 32 nonce.toNat ++ devId s.sys.keyZero s.sys.image ++ imageDigest s.sys.image ++ bytesOf 8 (imageSvn s.sys.image) ++
  bytesOf 8 s.sys.rollback ++ bytesOf 8 (s.ctlWord 0x7000) ++ bytesOf 8 (s.ctlWord 0x7008)

/-- The report and its 2,420-byte signature. -/
def State.attest (s : State) (nonce : BitVec 256) : State :=
  if s.sys.recovery then s
  else
    let body := s.reportBody nonce
    { s with sys := { s.sys with
      report := body ++ (List.range 2420).map (Config.identitySign (keySeed s.sys.keyZero s.sys.image) (sha3 body)) } }

/-- FUSE_WRITE (R492, R495). -/
def execFuseWrite (stage : Nat) (s : State) : Host.Outcome State Fault Refusal := .next (s.served (.fuse stage) fun s => s.fuseWrite stage)

/-- ATTESTATION_REQUEST (R494). -/
def execAttestationRequest (nonce : BitVec 256) (s : State) : Host.Outcome State Fault Refusal :=
  .next (s.served (.attest nonce) fun s => s.attest nonce)

/-- A request that woke the part, or came during the exit; a packet has aged meanwhile (17 R436). -/
def State.serve (s : State) (a : Asked) : State :=
  match a with
  | .flit p f since =>
    if (s.link p).st = 3 then s.flitIn p { f with pkt := f.pkt.map fun k => { k with age := k.age + (s.gcyc - since) } } else s
  | .write addr bytes => s.hostWrite addr bytes
  | .read addr len => (s.hostRead addr len).transmit linorPort none
  | .atomic op addr at_ b c => (s.hostAtomic op addr at_.toNat b c).transmit linorPort none
  | .reg addr v => s.ctlWrite ((addr - ctlBase) / 8 * 8) v
  | .fuse n => s.fuseWrite n
  | .attest nonce => s.attest nonce

/-- IDLE_EXIT_COMPLETE (R489): I0 is reached, and what was asked is served in its order. -/
def execIdleExitComplete (s : State) : Host.Outcome State Fault Refusal :=
  .next (match s.sys.idleTo with
    | none => s
    | some g =>
      if s.gcyc < g then s
      else s.sys.asked.foldl State.serve { s with sys := { s.sys with idle := 0, idleFor := 0, idleTo := none, asked := [] } })

/-- HLTOL_MESSAGE (R447): a level whose exit takes longer than the new value is left at once; one whose entry starts in this cycle is
judged after it. -/
def execHltolMessage (v : BitVec 16) (s : State) : Host.Outcome State Fault Refusal :=
  .next (if (s.link linorPort).st = 3 ∧ s.sys.recovery = false then
      let s0 := s.enterDue
      let s1 : State := { s0 with sys := { s0.sys with hltol := v.toNat } }
      if tolerated v.toNat s1.sys.idle then s1 else s1.startExit
    else s)

/-! ### The power limit (20 R490) -/

/-- THROTTLE_ADJUST (R490): a sample of module power every 10 µs; the mean of the last 1 ms moves the fraction. -/
def execThrottleAdjust (sample : Nat) (s : State) : Host.Outcome State Fault Refusal :=
  .next (if s.gcyc < s.sys.sampled + 18000 then s
    else
      let l := (sample :: s.sys.samples).take 100
      let sum := l.foldl (· + ·) 0
      let lim := s.sys.plim.toNat * l.length
      let f := s.sys.frac
      let f' := if 98 * lim ≤ 100 * sum then min 63 (f + 1) else if 100 * sum < 95 * lim then f - 1 else f
      { s with sys := { s.sys with
        sampled := s.gcyc, samples := l, meanw := sum / l.length, frac := f'
        throt := if f' = 0 then s.sys.throt else satAdd 32 s.sys.throt 1 } })

/-! ### Reset (20 R491) -/

/-- PACKAGE_RESET (R491): the start-up sequence.  Where the firmware image is not accepted it stops at step 2: nothing issues, and the
package stays in RECOVERY.  The fuses, the host's own memory and the outside world's events stand; DNONCE is drawn anew (19 R487;
notes/assumptions/7). -/
def execPackageReset (s : State) : Host.Outcome State Fault Refusal :=
  let r : State := State.reset
  .next (
    if imageGood s.fresh s.sys.rollback then
      { r with
        mem := s.mem.filter (fun c => physClass c.1 == .host)
        agenda := s.agenda, fresh := s.fresh + 1
        sys := { r.sys with dnonce := (List.range 8).map fun i => Config.entropy (s.fresh * 64 + i)
                            lcsStage := s.sys.lcsStage, keyZero := s.sys.lcsStage == 3
                            image := s.fresh, rollback := s.sys.rollback } }
    else
      { s with
        turn := [], fresh := s.fresh + 1
        sys := { s.sys with lcsReady := false, recovery := true, idle := 0, idleFor := 0, idleTo := none, asked := [] } })

end Sys2Proof.Machine
end

