-- ==== Sys2Proof/Machine/Start.lean ====
section
/-! DEFINITION. The start of engine commands, and the end of a cycle (01 R42, 08 R220, R221). -/

namespace Sys2Proof.Machine

open Sys2Proof

/-! ### ENGINE_START (08 R220) -/

/-- A command with nothing to do at its start but to run: it waits, or its own events carry it. -/
def State.runCmd (s : State) (m : Cmd) : State := s.modCmd m.id fun m => { m with st := .running, since := s.gcyc }

/-- The entry of a context's table that a command acts on: the offsets of the table's base and count in the descriptor, the bytes of an
entry, and its number. -/
def Cmd.tableEntry (m : Cmd) : Option (Nat × Nat × Nat × Nat) :=
  let w := (m.w.getD 0 0).toNat
  if m.pos = 6 then
    if 6 ≤ m.major ∧ m.major ≤ 10 then some (0x20, 0x28, 512, w % 2 ^ 20)
    else if 15 ≤ m.major ∧ m.major ≤ 19 then some (0x98, 0xA0, 128, w % 4096)
    else none
  else if m.pos = 7 then
    if 9 ≤ m.major ∧ m.major ≤ 12 then some (0x78, 0x80, 64, w % 65536)
    else if (6 ≤ m.major ∧ m.major ≤ 8) ∨ m.major = 13 ∨ m.major = 14 then some (0x88, 0x90, 64, w % 4096)
    else none
  else none

/-- The physical address of that entry, where it violates. -/
def State.entryViolates (s : State) (m : Cmd) : Option Nat :=
  match m.tableEntry with
  | none => none
  | some (base, cnt, size, n) =>
    if n < s.cword m.ctx cnt then (s.vpa m.ctx (s.cword m.ctx base + size * n)).filter (s.violates false) else none

/-- A command that meets an access violation at a page it captured, or at the record it acts on, ends in a command error (10 R286); GRPC
gives its own code for a table that does (16 R415), and a TSUB retires its task first (11 R314). -/
def State.startViolates (s : State) (m : Cmd) : Option Nat :=
  (s.entryViolates m).or
    (if m.isCopy || (m.pos == 7 && m.major == 13) || (m.pos == 6 && m.major == 11) then none
     else (m.caps.find? fun k => k.size != 0 && s.violates (s.firmware m.key) k.pa).map Cap.pa)

/-- What a command does at its start, by position and major opcode. -/
def State.startCmd (s : State) (m : Cmd) : State :=
  let r := s.runCmd m
  if m.pos = 6 then
    if m.major ≤ 3 then r.startCopy m
    else if 6 ≤ m.major ∧ m.major ≤ 10 then r.startTensor m
    else if m.major = 13 then r.startSems m
    else if m.major = 20 then r.startRuq m
    else if m.major = 21 then r.startRufl m
    else if m.major = 22 then r.startOccr m
    else r
  else if m.major = 4 then r.startChopn m
  else if m.major = 6 then r.startColl m
  else if m.major = 8 then r.startCola m
  else if 9 ≤ m.major ∧ m.major ≤ 11 then r.startBar m
  else if m.major = 12 then r.startBari m
  else if m.major = 13 then r.startGrpc m
  else if m.major = 14 then r.startGrpf m
  else if m.major = 15 then r.startLnks m
  else r

/-- Commands of no start: those of a fixed time, and CHCL and KJOIN. -/
def Cmd.startless (m : Cmd) : Bool :=
  m.due.isSome || (m.pos == 6 && m.major == 23) || (m.pos == 7 && (decide (m.major < 4) || m.major == 5)) || (m.pos != 6 && m.pos != 7)

/-- A command that may start starts. -/
def State.startEngine (s : State) (m : Cmd) : State :=
  if m.startless || !s.mayStart m || s.tensorHeld m || (!m.isCopy && s.capsOwed m) then s
  else match s.startViolates m with
    | some pa => (s.log m.ctx 4 pa (agentField m.runner 2 false)).cmdError m (1 + Config.violationCode m.major % 255)
    | none => s.startCmd m

/-- ENGINE_START (R220). -/
def execEngineStart (cmd : Nat) (s : State) : Host.Outcome State Fault Refusal :=
  .next (match s.cmd? cmd with
    | none => s
    | some m => s.startEngine m)

/-! ### What fires at the end of a cycle -/

/-- CWAIT and BARW start at their acceptance, or in the cycle in which their tickets have fired (08 R231, 15 R403). -/
def State.startWaits (s : State) : State :=
  s.cmds.foldl (fun s m => if (m.pos == 6 && m.major == 4) || (m.pos == 7 && m.major == 11) then s.startEngine m else s) s

/-- Whether a waiting command's condition holds; for a CWAIT whose task has ended, that its channel has no copy up to W0 outstanding. -/
def State.waitDone (s : State) (m : Cmd) : Bool :=
  let w (i : Nat) : W64 := m.w.getD i 0
  if m.pos = 6 ∧ m.major = 4 then
    if isGone m.key then !(s.cmds.any fun d => d.key == m.key && d.isCopy && d.fn == m.fn && d.st != .done &&
      decide (0 ≤ sextI (wrapN ((fld (w 0) 31 0 : Int) - d.cid) 32) 32))
    else ((s.owner? m.key).chan m.fn).passed ((w 0).toNat)
  else if m.pos = 6 ∧ m.major = 12 then s.twaitDone m
  else if m.pos = 6 ∧ m.major = 14 then decide (fld (w 1) 31 0 ≤ s.semRead m.ctx (fld (w 0) 11 0))
  else if m.pos = 7 ∧ m.major = 7 then (s.grp m.ctx (fld (w 0) 11 0)).ended.contains (fld (w 1) 31 0)
  else if m.pos = 7 ∧ m.major = 11 then m.aux.head? == some 1
  else false

/-- The waiting commands whose condition holds fire, from the cycle after their start; KJOIN fires once its tickets have; the
fixed-time commands of an ended task fire. -/
def State.fireWaits (s : State) : State :=
  s.cmds.foldl (fun s m =>
    if m.st == .running && decide (m.since < s.gcyc) && s.waitDone m then s.fire m.id
    else if m.pos == 6 && m.major == 23 && m.st != .done && decide (m.since < s.gcyc) && m.waits.all (fun w => !s.live w) then s.fire m.id
    else if m.due.isSome && isGone m.key then s.fire m.id
    else s) s

/-- A drain has completed when nothing it waits for is left (05 R157). -/
def State.pruneDrains (s : State) : State :=
  { s with reqs := s.reqs.filter fun d => match d.kind with
      | .drain sc => s.reqs.any fun q =>
        q.who == d.who && decide (q.id < d.id) && !q.kind.isDrain && (!soleScope d.who sc || q.kind.reads)
      | _ => true }

/-- The issuer of a wait that fires receives what its object carries: the SEMSs of a SEMW, the completed phase of a BARW, every
member's part of a COLL or COLW (10 R305 edge 7, R306). -/
def State.hearFired (s : State) : State :=
  s.cmds.foldl (fun s m =>
    let w (i : Nat) : W64 := m.w.getD i 0
    if m.st != .done then s
    else if m.pos = 6 ∧ m.major = 14 then s.hear [1, m.ctx, fld (w 0) 11 0] m.key
    else if m.pos = 7 ∧ m.major = 11 then s.hear [7, m.ctx, (w 0).toNat, m.aux.getD 1 0] m.key
    else if m.pos = 7 ∧ m.major = 6 then s.hear [4, m.ctx, grpNum m, m.cid] m.key
    else if m.pos = 7 ∧ m.major = 7 then s.hear [4, m.ctx, fld (w 0) 11 0, fld (w 1) 31 0] m.key
    else s) s

/-- A command that has ended but for writes of its own that wait fires with the last of them (08 R221). -/
def State.endTick (s : State) : State :=
  { s with cmds := s.cmds.map fun m => if m.st == .ending && !(s.reqs.any fun r => r.key == engKey m.id) then { m with st := .done } else m }

/-- Commands that have fired become visible as fired (04 R113). -/
def State.pruneCmds (s : State) : State := { s with cmds := s.cmds.filter fun m => m.st != .done }

/-- What the machinery does by itself at the end of a cycle. -/
def State.settle (s : State) : State :=
  let s1 := (((((s.endTick.startWaits.fireWaits).copyTick).tensorTick).taskTick).resumeTick).closeTick
  let s2 := (((((s1.collTick).colaTick).quarTick).fabricTick).failTick).barTick
  let s3 := ((((s2.savedTick).pmcCycle).pmcTick).fwTick).idleTick
  let s4 := (((s3.hearFired).pruneDrains).pruneCmds).observe
  ((s4.pruneOrders).pagerTick).edgeTick

/-- Issuers with a turn in the next cycle: whatever is not idle, ascending (01 R26). -/
def State.issuers (s : State) : List Nat := (s.thr.filter fun e => e.2.mode != .idle).map Prod.fst

/-- The end of a GCYC and the start of the next (01 R42).  In RECOVERY the cycles are counted and nothing more (20 R491). -/
def State.tick (s : State) : State :=
  if s.sys.recovery then { s with gcyc := s.gcyc + 1, turn := [] }
  else
    let s1 := s.settle
    { s1 with gcyc := s1.gcyc + 1, turn := s1.issuers }

end Sys2Proof.Machine
end

