-- ==== Sys2Proof/Machine/Dispatch.lean ====
section
/-! DEFINITION. The meaning of every instruction and step, one arm per constructor. -/

namespace Sys2Proof.Machine

open Sys2Proof

def exec (i : Instr) (s : State) : Host.Outcome State Fault Refusal :=
  match i with
  | .bundleIssue k => Sys2Proof.Machine.execBundleIssue k s
  | .resultLand k => Sys2Proof.Machine.execResultLand k s
  | .loadDataArrive req => Sys2Proof.Machine.execLoadDataArrive req s
  | .nop x => Sys2Proof.Machine.execNop x s
  | .add x => Sys2Proof.Machine.execAdd x s
  | .sub x => Sys2Proof.Machine.execSub x s
  | .and x => Sys2Proof.Machine.execAnd x s
  | .or x => Sys2Proof.Machine.execOr x s
  | .xor x => Sys2Proof.Machine.execXor x s
  | .andn x => Sys2Proof.Machine.execAndn x s
  | .shl x => Sys2Proof.Machine.execShl x s
  | .shr x => Sys2Proof.Machine.execShr x s
  | .sar x => Sys2Proof.Machine.execSar x s
  | .rot x => Sys2Proof.Machine.execRot x s
  | .min x => Sys2Proof.Machine.execMin x s
  | .max x => Sys2Proof.Machine.execMax x s
  | .minu x => Sys2Proof.Machine.execMinu x s
  | .maxu x => Sys2Proof.Machine.execMaxu x s
  | .mul x => Sys2Proof.Machine.execMul x s
  | .mulh x => Sys2Proof.Machine.execMulh x s
  | .mulhu x => Sys2Proof.Machine.execMulhu x s
  | .addi x => Sys2Proof.Machine.execAddi x s
  | .andi x => Sys2Proof.Machine.execAndi x s
  | .ori x => Sys2Proof.Machine.execOri x s
  | .xori x => Sys2Proof.Machine.execXori x s
  | .shli x => Sys2Proof.Machine.execShli x s
  | .shri x => Sys2Proof.Machine.execShri x s
  | .sari x => Sys2Proof.Machine.execSari x s
  | .movi x => Sys2Proof.Machine.execMovi x s
  | .movhi x => Sys2Proof.Machine.execMovhi x s
  | .sel x => Sys2Proof.Machine.execSel x s
  | .cmp x => Sys2Proof.Machine.execCmp x s
  | .cmpi x => Sys2Proof.Machine.execCmpi x s
  | .plog x => Sys2Proof.Machine.execPlog x s
  | .bitop x => Sys2Proof.Machine.execBitop x s
  | .bfx x => Sys2Proof.Machine.execBfx x s
  | .div x => Sys2Proof.Machine.execDiv x s
  | .br x => Sys2Proof.Machine.execBr x s
  | .jmp x => Sys2Proof.Machine.execJmp x s
  | .call x => Sys2Proof.Machine.execCall x s
  | .ret x => Sys2Proof.Machine.execRet x s
  | .loop x => Sys2Proof.Machine.execLoop x s
  | .loopr x => Sys2Proof.Machine.execLoopr x s
  | .lbrk x => Sys2Proof.Machine.execLbrk x s
  | .audef x => Sys2Proof.Machine.execAudef x s
  | .waitk x => Sys2Proof.Machine.execWaitk x s
  | .waitm x => Sys2Proof.Machine.execWaitm x s
  | .waitmReread k => Sys2Proof.Machine.execWaitmReread k s
  | .trap x => Sys2Proof.Machine.execTrap x s
  | .pres x => Sys2Proof.Machine.execPres x s
  | .presSkip x => Sys2Proof.Machine.execPresSkip x s
  | .presMig x => Sys2Proof.Machine.execPresMig x s
  | .pkill x => Sys2Proof.Machine.execPkill x s
  | .crr x => Sys2Proof.Machine.execCrr x s
  | .crw x => Sys2Proof.Machine.execCrw x s
  | .icinv x => Sys2Proof.Machine.execIcinv x s
  | .brk x => Sys2Proof.Machine.execBrk x s
  | .fin x => Sys2Proof.Machine.execFin x s
  | .movx x => Sys2Proof.Machine.execMovx x s
  | .movxK x => Sys2Proof.Machine.execMovxK x s
  | .movp x => Sys2Proof.Machine.execMovp x s
  | .movpW x => Sys2Proof.Machine.execMovpW x s
  | .ktst x => Sys2Proof.Machine.execKtst x s
  | .ktstAll x => Sys2Proof.Machine.execKtstAll x s
  | .lds x => Sys2Proof.Machine.execLds x s
  | .sts x => Sys2Proof.Machine.execSts x s
  | .ldv x => Sys2Proof.Machine.execLdv x s
  | .stv x => Sys2Proof.Machine.execStv x s
  | .ldg x => Sys2Proof.Machine.execLdg x s
  | .stg x => Sys2Proof.Machine.execStg x s
  | .ldgv x => Sys2Proof.Machine.execLdgv x s
  | .stgv x => Sys2Proof.Machine.execStgv x s
  | .ldcv x => Sys2Proof.Machine.execLdcv x s
  | .stcv x => Sys2Proof.Machine.execStcv x s
  | .gath x => Sys2Proof.Machine.execGath x s
  | .scat x => Sys2Proof.Machine.execScat x s
  | .xlat x => Sys2Proof.Machine.execXlat x s
  | .hrel x => Sys2Proof.Machine.execHrel x s
  | .probe x => Sys2Proof.Machine.execProbe x s
  | .pref x => Sys2Proof.Machine.execPref x s
  | .drain x => Sys2Proof.Machine.execDrain x s
  | .atadd x => Sys2Proof.Machine.execAtadd x s
  | .atmin x => Sys2Proof.Machine.execAtmin x s
  | .atmax x => Sys2Proof.Machine.execAtmax x s
  | .atand x => Sys2Proof.Machine.execAtand x s
  | .ator x => Sys2Proof.Machine.execAtor x s
  | .atxor x => Sys2Proof.Machine.execAtxor x s
  | .atxch x => Sys2Proof.Machine.execAtxch x s
  | .atcas x => Sys2Proof.Machine.execAtcas x s
  | .atld x => Sys2Proof.Machine.execAtld x s
  | .atst x => Sys2Proof.Machine.execAtst x s
  | .ltag x => Sys2Proof.Machine.execLtag x s
  | .gaths x => Sys2Proof.Machine.execGaths x s
  | .scats x => Sys2Proof.Machine.execScats x s
  | .clfl x => Sys2Proof.Machine.execClfl x s
  | .clinv x => Sys2Proof.Machine.execClinv x s
  | .pclr x => Sys2Proof.Machine.execPclr x s
  | .vadd x => Sys2Proof.Machine.execVadd x s
  | .vsub x => Sys2Proof.Machine.execVsub x s
  | .vmin x => Sys2Proof.Machine.execVmin x s
  | .vmax x => Sys2Proof.Machine.execVmax x s
  | .vuna x => Sys2Proof.Machine.execVuna x s
  | .vand x => Sys2Proof.Machine.execVand x s
  | .vor x => Sys2Proof.Machine.execVor x s
  | .vxor x => Sys2Proof.Machine.execVxor x s
  | .vshl x => Sys2Proof.Machine.execVshl x s
  | .vshr x => Sys2Proof.Machine.execVshr x s
  | .vsar x => Sys2Proof.Machine.execVsar x s
  | .viadd x => Sys2Proof.Machine.execViadd x s
  | .visub x => Sys2Proof.Machine.execVisub x s
  | .vcmp x => Sys2Proof.Machine.execVcmp x s
  | .vsel x => Sys2Proof.Machine.execVsel x s
  | .vmov x => Sys2Proof.Machine.execVmov x s
  | .vcvt x => Sys2Proof.Machine.execVcvt x s
  | .vred x => Sys2Proof.Machine.execVred x s
  | .vscan x => Sys2Proof.Machine.execVscan x s
  | .vperm x => Sys2Proof.Machine.execVperm x s
  | .vshuf x => Sys2Proof.Machine.execVshuf x s
  | .vrot x => Sys2Proof.Machine.execVrot x s
  | .vmsk x => Sys2Proof.Machine.execVmsk x s
  | .vmts x => Sys2Proof.Machine.execVmts x s
  | .vseg x => Sys2Proof.Machine.execVseg x s
  | .vbsc x => Sys2Proof.Machine.execVbsc x s
  | .vqnt x => Sys2Proof.Machine.execVqnt x s
  | .vdqnt x => Sys2Proof.Machine.execVdqnt x s
  | .vclmp x => Sys2Proof.Machine.execVclmp x s
  | .vimnx x => Sys2Proof.Machine.execVimnx x s
  | .vext x => Sys2Proof.Machine.execVext x s
  | .vins x => Sys2Proof.Machine.execVins x s
  | .vmul x => Sys2Proof.Machine.execVmul x s
  | .vfma x => Sys2Proof.Machine.execVfma x s
  | .vfms x => Sys2Proof.Machine.execVfms x s
  | .vfnma x => Sys2Proof.Machine.execVfnma x s
  | .vimul x => Sys2Proof.Machine.execVimul x s
  | .vrcp x => Sys2Proof.Machine.execVrcp x s
  | .vrsq x => Sys2Proof.Machine.execVrsq x s
  | .vsqrt x => Sys2Proof.Machine.execVsqrt x s
  | .vexp2 x => Sys2Proof.Machine.execVexp2 x s
  | .vlog2 x => Sys2Proof.Machine.execVlog2 x s
  | .vdot x => Sys2Proof.Machine.execVdot x s
  | .mma x => Sys2Proof.Machine.execMma x s
  | .mmat x => Sys2Proof.Machine.execMmat x s
  | .mmaz x => Sys2Proof.Machine.execMmaz x s
  | .matrixGroupRead k => Sys2Proof.Machine.execMatrixGroupRead k s
  | .matrixComplete k => Sys2Proof.Machine.execMatrixComplete k s
  | .acld x => Sys2Proof.Machine.execAcld x s
  | .acldComplete k xfer => Sys2Proof.Machine.execAcldComplete k xfer s
  | .acst x => Sys2Proof.Machine.execAcst x s
  | .acstComplete k xfer => Sys2Proof.Machine.execAcstComplete k xfer s
  | .acz x => Sys2Proof.Machine.execAcz x s
  | .acrd x => Sys2Proof.Machine.execAcrd x s
  | .acwr x => Sys2Proof.Machine.execAcwr x s
  | .acsc x => Sys2Proof.Machine.execAcsc x s
  | .acmv x => Sys2Proof.Machine.execAcmv x s
  | .acps x => Sys2Proof.Machine.execAcps x s
  | .mprg x => Sys2Proof.Machine.execMprg x s
  | .engineStart cmd => Sys2Proof.Machine.execEngineStart cmd s
  | .cpy x => Sys2Proof.Machine.execCpy x s
  | .cpyc x => Sys2Proof.Machine.execCpyc x s
  | .cpyf x => Sys2Proof.Machine.execCpyf x s
  | .cpyk x => Sys2Proof.Machine.execCpyk x s
  | .copyNotBeforeRelease cmd => Sys2Proof.Machine.execCopyNotBeforeRelease cmd s
  | .copySourceResume cmd => Sys2Proof.Machine.execCopySourceResume cmd s
  | .copyComplete cmd => Sys2Proof.Machine.execCopyComplete cmd s
  | .cwait x => Sys2Proof.Machine.execCwait x s
  | .cstat x => Sys2Proof.Machine.execCstat x s
  | .tstep x => Sys2Proof.Machine.execTstep x s
  | .tscale x => Sys2Proof.Machine.execTscale x s
  | .tread x => Sys2Proof.Machine.execTread x s
  | .treadSync x => Sys2Proof.Machine.execTreadSync x s
  | .tcfg x => Sys2Proof.Machine.execTcfg x s
  | .trst x => Sys2Proof.Machine.execTrst x s
  | .deltaMerge core ctx idx => Sys2Proof.Machine.execDeltaMerge core ctx idx s
  | .deltaMergeTimeout core ctx idx => Sys2Proof.Machine.execDeltaMergeTimeout core ctx idx s
  | .installRetry ctx idx => Sys2Proof.Machine.execInstallRetry ctx idx s
  | .tensorCrossingPost ctx idx => Sys2Proof.Machine.execTensorCrossingPost ctx idx s
  | .tsub x => Sys2Proof.Machine.execTsub x s
  | .taskEnter => Sys2Proof.Machine.execTaskEnter s
  | .twait x => Sys2Proof.Machine.execTwait x s
  | .twaitAll x => Sys2Proof.Machine.execTwaitAll x s
  | .semsAdd x => Sys2Proof.Machine.execSemsAdd x s
  | .semsSet x => Sys2Proof.Machine.execSemsSet x s
  | .semw x => Sys2Proof.Machine.execSemw x s
  | .qinit x => Sys2Proof.Machine.execQinit x s
  | .qinitLoad x => Sys2Proof.Machine.execQinitLoad x s
  | .qgate x => Sys2Proof.Machine.execQgate x s
  | .qdiag x => Sys2Proof.Machine.execQdiag x s
  | .qswap x => Sys2Proof.Machine.execQswap x s
  | .qmeas x => Sys2Proof.Machine.execQmeas x s
  | .qmeasSamp x => Sys2Proof.Machine.execQmeasSamp x s
  | .ruq x => Sys2Proof.Machine.execRuq x s
  | .rufl x => Sys2Proof.Machine.execRufl x s
  | .occr x => Sys2Proof.Machine.execOccr x s
  | .occrClr x => Sys2Proof.Machine.execOccrClr x s
  | .kjoin x => Sys2Proof.Machine.execKjoin x s
  | .send x => Sys2Proof.Machine.execSend x s
  | .recv x => Sys2Proof.Machine.execRecv x s
  | .recvadd x => Sys2Proof.Machine.execRecvadd x s
  | .chst x => Sys2Proof.Machine.execChst x s
  | .chopn x => Sys2Proof.Machine.execChopn x s
  | .chcl x => Sys2Proof.Machine.execChcl x s
  | .channelElementArrive ctx ch => Sys2Proof.Machine.execChannelElementArrive ctx ch s
  | .channelCreditArrive ctx ch => Sys2Proof.Machine.execChannelCreditArrive ctx ch s
  | .remoteOpenMatch ctx ch far => Sys2Proof.Machine.execRemoteOpenMatch ctx ch far s
  | .deadlockDetect ctx parts => Sys2Proof.Machine.execDeadlockDetect ctx parts s
  | .coll x => Sys2Proof.Machine.execColl x s
  | .colw x => Sys2Proof.Machine.execColw x s
  | .cola x => Sys2Proof.Machine.execCola x s
  | .collectivePacketReceive ctx pkt => Sys2Proof.Machine.execCollectivePacketReceive ctx pkt s
  | .scaleAgreementDone cmd exp => Sys2Proof.Machine.execScaleAgreementDone cmd exp s
  | .collectiveChunkComplete cmd chunk => Sys2Proof.Machine.execCollectiveChunkComplete cmd chunk s
  | .collectiveEnd cmd => Sys2Proof.Machine.execCollectiveEnd cmd s
  | .barr x => Sys2Proof.Machine.execBarr x s
  | .barx x => Sys2Proof.Machine.execBarx x s
  | .barw x => Sys2Proof.Machine.execBarw x s
  | .bariInit x => Sys2Proof.Machine.execBariInit x s
  | .bariFree x => Sys2Proof.Machine.execBariFree x s
  | .barrierUpdateApply upd => Sys2Proof.Machine.execBarrierUpdateApply upd s
  | .barrierPhaseComplete ctx bar => Sys2Proof.Machine.execBarrierPhaseComplete ctx bar s
  | .grpc x => Sys2Proof.Machine.execGrpc x s
  | .grpf x => Sys2Proof.Machine.execGrpf x s
  | .groupJoinReceive ctx grp join => Sys2Proof.Machine.execGroupJoinReceive ctx grp join s
  | .memberFailure ctx grp cause member => Sys2Proof.Machine.execMemberFailure ctx grp cause member s
  | .quarantineEnd ctx grp => Sys2Proof.Machine.execQuarantineEnd ctx grp s
  | .lnks x => Sys2Proof.Machine.execLnks x s
  | .faultRecordWrite rec => Sys2Proof.Machine.execFaultRecordWrite rec s
  | .translationWalkDone k h => Sys2Proof.Machine.execTranslationWalkDone k h s
  | .recordLeavesMetadataCache core ctx idx => Sys2Proof.Machine.execRecordLeavesMetadataCache core ctx idx s
  | .pageTableWrite core line => Sys2Proof.Machine.execPageTableWrite core line s
  | .shootdownComplete req => Sys2Proof.Machine.execShootdownComplete req s
  | .homeWritePerform req => Sys2Proof.Machine.execHomeWritePerform req s
  | .atomicAtHome req => Sys2Proof.Machine.execAtomicAtHome req s
  | .l1LoadMiss core line => Sys2Proof.Machine.execL1LoadMiss core line s
  | .l1StoreMiss core line => Sys2Proof.Machine.execL1StoreMiss core line s
  | .l1Upgrade core line => Sys2Proof.Machine.execL1Upgrade core line s
  | .l1Eviction core line => Sys2Proof.Machine.execL1Eviction core line s
  | .directoryEntryEvict line => Sys2Proof.Machine.execDirectoryEntryEvict line s
  | .uncorrectableError site => Sys2Proof.Machine.execUncorrectableError site s
  | .correctableError die => Sys2Proof.Machine.execCorrectableError die s
  | .taskDispatch part => Sys2Proof.Machine.execTaskDispatch part s
  | .reuseLookup ctx count => Sys2Proof.Machine.execReuseLookup ctx count s
  | .reusePlaceComplete ctx count => Sys2Proof.Machine.execReusePlaceComplete ctx count s
  | .taskRetire ctx count => Sys2Proof.Machine.execTaskRetire ctx count s
  | .contextCreate ctx => Sys2Proof.Machine.execContextCreate ctx s
  | .contextRun ctx => Sys2Proof.Machine.execContextRun ctx s
  | .contextPreempt ctx => Sys2Proof.Machine.execContextPreempt ctx s
  | .contextDestroy ctx => Sys2Proof.Machine.execContextDestroy ctx s
  | .contextDestroyComplete ctx => Sys2Proof.Machine.execContextDestroyComplete ctx s
  | .cctlInvalidCommand ctx code => Sys2Proof.Machine.execCctlInvalidCommand ctx code s
  | .partitionSaveComplete part => Sys2Proof.Machine.execPartitionSaveComplete part s
  | .saveComplete ctx => Sys2Proof.Machine.execSaveComplete ctx s
  | .coreGate core => Sys2Proof.Machine.execCoreGate core s
  | .pageInComplete ctx page => Sys2Proof.Machine.execPageInComplete ctx page s
  | .pageOutComplete ctx page => Sys2Proof.Machine.execPageOutComplete ctx page s
  | .residencyStayExpire ctx page => Sys2Proof.Machine.execResidencyStayExpire ctx page s
  | .sptEntryWrite req => Sys2Proof.Machine.execSptEntryWrite req s
  | .bounceMerge ctx page => Sys2Proof.Machine.execBounceMerge ctx page s
  | .linkEnable port => Sys2Proof.Machine.execLinkEnable port s
  | .linkDisable port => Sys2Proof.Machine.execLinkDisable port s
  | .signalDetect port => Sys2Proof.Machine.execSignalDetect port s
  | .linkTrained port peer => Sys2Proof.Machine.execLinkTrained port peer s
  | .trainingTimeout port => Sys2Proof.Machine.execTrainingTimeout port s
  | .retryExhausted port => Sys2Proof.Machine.execRetryExhausted port s
  | .retrainDone port => Sys2Proof.Machine.execRetrainDone port s
  | .retrainFail port => Sys2Proof.Machine.execRetrainFail port s
  | .signalLost port => Sys2Proof.Machine.execSignalLost port s
  | .flitReceive port flit => Sys2Proof.Machine.execFlitReceive port flit s
  | .flitResend port => Sys2Proof.Machine.execFlitResend port s
  | .packetDeliver src seq => Sys2Proof.Machine.execPacketDeliver src seq s
  | .packetAgeDiscard port src seq => Sys2Proof.Machine.execPacketAgeDiscard port src seq s
  | .packetResendTimeout pkt => Sys2Proof.Machine.execPacketResendTimeout pkt s
  | .packetGiveUp pkt => Sys2Proof.Machine.execPacketGiveUp pkt s
  | .noRouteTimeout fab => Sys2Proof.Machine.execNoRouteTimeout fab s
  | .unreachableNoticeReceive fab => Sys2Proof.Machine.execUnreachableNoticeReceive fab s
  | .unrchClear fab => Sys2Proof.Machine.execUnrchClear fab s
  | .resyncReceive fab => Sys2Proof.Machine.execResyncReceive fab s
  | .timeStampExchange port ofs => Sys2Proof.Machine.execTimeStampExchange port ofs s
  | .hostWrite addr bytes => Sys2Proof.Machine.execHostWrite addr bytes s
  | .hostRead addr len => Sys2Proof.Machine.execHostRead addr len s
  | .hostAtomic op addr at_ b c => Sys2Proof.Machine.execHostAtomic op addr at_ b c s
  | .hltolMessage v => Sys2Proof.Machine.execHltolMessage v s
  | .idleEntry => Sys2Proof.Machine.execIdleEntry s
  | .idleExit => Sys2Proof.Machine.execIdleExit s
  | .idleExitComplete => Sys2Proof.Machine.execIdleExitComplete s
  | .throttleAdjust sample => Sys2Proof.Machine.execThrottleAdjust sample s
  | .packageReset => Sys2Proof.Machine.execPackageReset s
  | .fuseWrite stage => Sys2Proof.Machine.execFuseWrite stage s
  | .attestationRequest nonce => Sys2Proof.Machine.execAttestationRequest nonce s
  | .debugStop part scope => Sys2Proof.Machine.execDebugStop part scope s
  | .debugStep part => Sys2Proof.Machine.execDebugStep part s
  | .debugRun part scope => Sys2Proof.Machine.execDebugRun part scope s
  | .windowWrite part off v => Sys2Proof.Machine.execWindowWrite part off v s
  | .debugLineWrite v => Sys2Proof.Machine.execDebugLineWrite v s
  | .debugUnlock v => Sys2Proof.Machine.execDebugUnlock v s
  | .pmcWrite core n v => Sys2Proof.Machine.execPmcWrite core n v s
  | .pmselWrite core n v => Sys2Proof.Machine.execPmselWrite core n v s
  | .tenantProvision slot v => Sys2Proof.Machine.execTenantProvision slot v s
  | .tenantRelease slot v => Sys2Proof.Machine.execTenantRelease slot v s
  | .registerWrite addr v => Sys2Proof.Machine.execRegisterWrite addr v s
  | .corePowerUp core => Sys2Proof.Machine.execCorePowerUp core s
  | .fetchMissFill k => Sys2Proof.Machine.execFetchMissFill k s
  | .packetAckReceive pkt => Sys2Proof.Machine.execPacketAckReceive pkt s
  | .stateVectorCommandComplete cmd => Sys2Proof.Machine.execStateVectorCommandComplete cmd s
  | .debugTokenCheckDone => Sys2Proof.Machine.execDebugTokenCheckDone s
  | .debugLineWritePerform => Sys2Proof.Machine.execDebugLineWritePerform s

end Sys2Proof.Machine
end

