-- ==== Sys2Proof/Machine/Run.lean ====
section
/-! DEFINITION. How the host's test word reaches the fetch. -/

namespace Sys2Proof.Machine

open Sys2Proof

/-- The code address that `withFetchWord` uses, virtual and physical. -/
def testPc : Nat := 0x10000

/-- A page table of one 2 MiB page, virtual 0 at physical 0, readable, executable and open to task code, whose root is at
0x1000 (13 Tables 13-2, 13-3). -/
def testTable (m : List Host.Cell) : List Host.Cell :=
  wrBytes (wrBytes (wrBytes m 0x1000 (bytesOf 8 0x2001)) 0x2000 (bytesOf 8 0x3001)) 0x3000 (bytesOf 8 23)

/-- The bytes of a test bundle: for the word of a slot the plain header of its position and the word; for the
no-operation header the word itself. -/
def testBundle (w : W32) : List Byte :=
  match decodeAny w with
  | some (8, _) => bytesOf 8 w.toNat
  | some (p, _) => bytesOf 4 (2 ^ p) ++ bytesOf 4 w.toNat
  | none => bytesOf 8 (1 + 2 ^ 32 * w.toNat)

/-- The issuer that may run a word: partition 0, or the command stream of context 0 for what only a command stream may
issue. -/
def testIssuer (w : W32) : Nat :=
  match decodeAny w with
  | some (_, i) => match slotOf i with
    | some o => if o.whr = .csOnly ∨ o.whr = .firmware then csKey 0 else 0
    | none => 0
  | none => 0

/-- The state in which the next step fetches a bundle at `testPc`. -/
def State.fetchOf (s : State) (w : W32) : State :=
  let k := testIssuer w
  let line := testBundle w ++ List.replicate 56 0
  let mem := wrBytes (testTable s.mem) testPc line
  let t := { s.th k with mode := .running, pc := testPc, pend := none, empty := false, flight := [], mats := [],
                         matStop := none, dbg := {}
                         task := if k = 0 then some { count := 1, kernel := testPc, pure := false, cycles := 0, phase := 0, slot := 0 } else none }
  let s1 := ({ s with mem, cur := k, turn := [k], agenda := [] }).setTh k t
  let x : Ctx := { s.ctx 0 with st := .running, allot := [0], slot := some 0, die := 0, desc := putK (putK [] 0 65536) 8 0x1000 }
  let s2 := s1.setCtx 0 x
  let core := s2.tcore k
  { s2 with icache := (s2.icache.filter fun e => !(e.1 == core && e.2.1 == testPc / 64)) ++ [(core, testPc / 64, line)]
            sys := { s2.sys with frac := 0 } }

/-- The events of the agenda are steps of the machinery; a slot instruction is issued only by a bundle. -/
def State.isEvent (i : Instr) : Bool := (encode i).isNone

/-- What happens in RECOVERY: the management controller answers, Linor Link runs, and the host's accesses reach the LCS register alone
(20 R491); an error in a memory may come at any time (10 R295, R296). -/
def inRecovery (i : Instr) : Bool :=
  match i with
  | .packageReset => true
  | .fuseWrite _ => true
  | .attestationRequest _ => true
  | .hostWrite _ _ => true
  | .hostRead _ _ => true
  | .hostAtomic .. => true
  | .uncorrectableError _ => true
  | .correctableError _ => true
  | .signalDetect p => p == linorPort
  | .linkTrained p .. => p == linorPort
  | .trainingTimeout p => p == linorPort
  | .retryExhausted p .. => p == linorPort
  | .retrainDone p => p == linorPort
  | .retrainFail p => p == linorPort
  | .signalLost p => p == linorPort
  | .flitReceive p .. => p == linorPort
  | .flitResend p .. => p == linorPort
  | _ => false

/-- Whether an entry of the agenda happens. -/
def State.happens (s : State) (i : Instr) : Bool := State.isEvent i && (!s.sys.recovery || inRecovery i)

end Sys2Proof.Machine
end

