-- ==== Sys2Proof/Machine/Step.lean ====
section
/-! DEFINITION. One step of the package: the next event of the agenda, else the next issuer's bundle, else the end of the
cycle. -/

namespace Sys2Proof.Machine

open Sys2Proof

/-- One step. -/
def step (s : State) : Host.Outcome State Fault Refusal :=
  match s.agenda with
  | e :: r => if s.happens e then exec e { s with agenda := r } else .next { s with agenda := r }
  | [] => match s.turn with
    | k :: _ => exec (.bundleIssue k) { s with cur := k }
    | [] => .next s.tick

/-- s with an instruction where the next step fetches. -/
def State.withFetchWord (s : State) (nbits w : Nat) : State := s.fetchOf (BitVec.ofNat 32 (w % 2 ^ nbits))

end Sys2Proof.Machine
end

