-- ==== Sys2Proof/Safety.lean ====
section
/-! DEFINITION. The terms that claims about the package use: sound states, an issuer that issues, the circumstances of a
one-slot bundle, and the parts of a cycle around a slot's effect. -/

namespace Sys2Proof.Machine

open Sys2Proof

/-! ### Sound states -/

/-- Physical and frame memory are in canonical form. -/
def State.memWf (s : State) : Bool := Memory.wf s.mem && Memory.wf s.frames

/-- No command numbered `id` has met an access violation, and no write of its own waits for a shootdown, so its ticket fires at its end
(10 R286, 13 R371). -/
def State.clean (s : State) (id : Nat) : Bool := (s.cmds.all fun m => m.id != id || !m.viol) && s.reqs.all fun r => r.key != engKey id

/-- A request of the management controller or over Linor Link is served at once: the package is at I0 and enters no deeper level in this
cycle (20 R489). -/
abbrev State.awake (s : State) : Prop := s.sys.idle = 0 ∧ s.entryDue = false

/-- One more count of a record's LIVE at a core goes to its delta there, and to no home record: the core holds the record, and no field
of the delta is full after it (09 R267). -/
abbrev State.deltaRoom (s : State) (core c i : Nat) : Prop :=
  (core, c, i) ∈ s.cached ∧ (s.delta core c i).full = false ∧ ∀ v, (getD 0 (s.delta core c i).live v).natAbs + 1 < 2 ^ 15

/-- No translation, no page in a cluster and no waiting write rests on a line: the part, or the engine of key `own`, writes it at
once (13 R371, R377). -/
def State.calm (s : State) (line own : Nat) : Bool := !s.lineReached line 0 own && !s.entriesHeld line && !s.partWaits line

/-- An accepted engine command starts at its start event (08 R220): its tickets have fired, its issuer's stores have performed, nothing
of its issuer or of a pending install is before it, and no release it would read too soon is owed. -/
def State.starts (s : State) (m : Cmd) : Bool :=
  !m.startless && s.mayStart m && !s.tensorHeld m && (m.isCopy || !s.capsOwed m)

/-- An engine may write n bytes within one line of HBM at a captured page with no tensor record, and nothing turns the write away. -/
abbrev State.open_ (s : State) (m : Cmd) (k : Cap) (n : Nat) : Prop :=
  k.tens = none ∧ k.pa % 64 + n ≤ 64 ∧ physClass k.pa = .hbm ∧ s.protectedKind k.pa = none ∧ (tagPsn (s.tag k.pa) = false ∨ n = 64) ∧
  s.calm (k.pa / 64) (engKey m.id) = true

/-- The words of a tensor record lie in one page of HBM, whose translation reads none of them, and nothing rests on their lines. -/
abbrev State.recCalm (s : State) (c i : Nat) : Prop :=
  s.recVa c i % 512 = 0 ∧ ∀ j, j < 64 → ∃ pa ∈ s.vpa c (s.recVa c i + 8 * j), pa % 8 = 0 ∧ physClass pa = .hbm ∧
    s.passes c (s.recVa c i) (pa / 64) = false ∧ s.calm (pa / 64) 0 = true

/-! ### The issue of a bundle -/

/-- The package when issuer k's cycle has begun: what is due has landed (03 R92), a multiply-accumulate that is complete
has ended, and a group of rows that is due has been read (07 R203). -/
def State.begun (s : State) (k : Nat) : State := (((s.took k).landThr k).matrixDone k).matrixStep k

/-- Issuer k issues a bundle in this cycle (03 R71, R93): it runs, is not stopped by the debugger, not withheld by the
throttle, not frozen, lacks no page its matrix unit reads now, and is in no empty cycle of a loop not entered. -/
structure Issues (s : State) (k : Nat) : Prop where
  running : (s.th k).mode = .running
  free : (s.th k).dbg.stopped = false
  powered : s.withheld k = false
  landed : (s.th k).frozen = false
  pages : (((s.took k).landThr k).matrixDone k).matMissing k = []
  whole : ((s.begun k).th k).empty = false

/-- A position holds a slot (03 Table 3-5) that issuer k may use: a command stream has no V and E slots (03 R84). -/
def slotPos (k pos : Nat) : Prop := (pos = 0 ∨ pos = 2 ∨ pos = 6 ∨ pos = 7) ∨ (isCs k = false ∧ (pos = 3 ∨ pos = 5))

/-- The next bundle of issuer k of package u may be a plain bundle of one slot: two words fit in the rest of the line
(03 R68), and the address is not both a delay bundle's and an end bundle's (04 R121). -/
def Fits (u : State) (k : Nat) : Prop := (u.th k).pc % 64 ≤ 56 ∧ ((u.th k).inDelay && (u.th k).atEnd) = false

/-- The header of a bundle with one slot that names S(b) as its broadcast port (03 R73). -/
def Header.port (pos b : Nat) : Header := ⟨BitVec.ofNat 32 (2 ^ pos + 2 ^ 8 + b % 64 * 2 ^ 9)⟩

/-- The circumstances of the slot of a one-slot bundle, a plain one where no other header is named. -/
def oneIC (u : State) (k pos : Nat) (w : W32) (h : Header := Header.one pos) : IC := { s := u, k, h, pos, word := w }

/-- The operation of a slot that meets no fault and no hold: its code is legal and its issuer may issue it (03 R84–R86),
its guard is true, it does not stand where a schedule forbids it, no source is poisoned, and its own checks pass. -/
structure Clear (u : State) (k pos : Nat) (h : Header) (w : W32) (o : SlotOp) : Prop where
  static : slotStatic (oneIC u k pos w h) (some o) = none
  guard : o.on (u.th k) = true
  early : slotEarly (oneIC u k pos w h) o = none
  ports : h.be = true ∨ o.srcV.contains 60 = false
  noBrk : o.brk = none
  free : slotHold (oneIC u k pos w h) (some o) = none
  late : slotPost (oneIC u k pos w h) (some o) = none

/-- Issuer k, in its turn, commits the plain one-slot bundle of instruction i at position pos; u is the package when the
cycle has begun. -/
structure Commits (s u : State) (k pos : Nat) (i : Instr) : Prop where
  cur : s.cur = k
  issues : Issues s k
  begun : s.begun k = u
  fits : Fits u k
  place : slotPos k pos
  clear : ∃ o, slotOf i = some o ∧ Clear u k pos (Header.one pos) (encWord i) o

/-- Issuer k, in its turn, commits the bundle that stands at its program counter: header h names a broadcast port, and the one
slot, at position pos, holds instruction i. -/
structure Fetched (s u : State) (k pos : Nat) (h : Header) (i : Instr) : Prop where
  cur : s.cur = k
  due : k ∈ s.turn
  issues : Issues s k
  begun : s.begun k = u
  fits : Fits u k
  place : slotPos k pos ∧ isCs k = false
  port : h = Header.port pos h.bs
  word : decodeSlot pos (encWord i) = .ok i
  line : ∃ pa l, u.codePa k (u.th k).pc = some pa ∧ u.icLine (u.tcore k) (pa / 64) = some l ∧
    wordAt l ((u.th k).pc % 64) = h.word.toNat ∧ wordAt l ((u.th k).pc % 64 + 4) = (encWord i).toNat
  clear : ∃ o, slotOf i = some o ∧ Clear u k pos h (encWord i) o

/-- What the commit of a one-slot bundle of instruction i gives: the plain bundle by the event of i itself, one whose header names a
broadcast port by BUNDLE_ISSUE. -/
def runs (s u : State) (k pos : Nat) (h : Header) (i : Instr) (gives : Host.Outcome State Fault Refusal → Prop) : Prop :=
  (h = Header.one pos → Commits s u k pos i → gives (exec i s)) ∧ (Fetched s u k pos h i → gives (exec (.bundleIssue k) s))

/-! ### Around the effect of a slot -/

/-- The rest of the cycle after a slot's effect: `old` is the issuer before the commit, `imp` a purity violation of the
slot, `trap` the code and value of a TRAP. -/
def State.rest (s : State) (k : Nat) (old : Thr) (imp : Bool) (trap : Option (Nat × Nat)) : State :=
  ((((s.loopEnd k old).taint k imp).count k).tally k 1).afterCommit k old.pc trap

/-- The next state when a slot with effect f commits; `imp` and `trap` as above, `draws` the random draws it takes. -/
def committed (u : State) (k : Nat) (f : State → State) (imp : Bool := false) (draws : Nat := 0)
    (trap : Option (Nat × Nat) := none) : Host.Outcome State Fault Refusal :=
  .next ((f (u.advance k 8 draws)).rest k (u.th k) imp trap)

/-! ### Frames -/

/-- Instructions whose bundle, when it commits, changes only its issuer's sequencer and puts a result in flight: scalar,
predicate, control, vector, and the accumulator instructions that read and write registers. -/
def registerOnly (i : Instr) : Bool :=
  match i with
  | .add _ | .sub _ | .and _ | .or _ | .xor _ | .andn _ | .shl _ | .shr _ | .sar _ | .rot _ | .min _ | .max _ | .minu _
  | .maxu _ | .mul _ | .mulh _ | .mulhu _ | .addi _ | .andi _ | .ori _ | .xori _ | .shli _ | .shri _ | .sari _ | .movi _
  | .movhi _ | .sel _ | .cmp _ | .cmpi _ | .plog _ | .bitop _ | .bfx _ | .div _ | .br _ | .jmp _ | .call _ | .ret _ | .loop _
  | .loopr _ | .lbrk _ | .audef _ | .waitk _ | .movx _ | .movxK _ | .movp _ | .movpW _ | .ktst _ | .ktstAll _ => true
  | .vadd _ | .vsub _ | .vmin _ | .vmax _ | .vuna _ | .vand _ | .vor _ | .vxor _ | .vshl _ | .vshr _ | .vsar _ | .viadd _
  | .visub _ | .vcmp _ | .vsel _ | .vmov _ | .vcvt _ | .vred _ | .vscan _ | .vperm _ | .vshuf _ | .vrot _ | .vmsk _ | .vmts _
  | .vseg _ | .vbsc _ | .vqnt _ | .vdqnt _ | .vclmp _ | .vimnx _ | .vext _ | .vins _ | .vmul _ | .vfma _ | .vfms _ | .vfnma _
  | .vimul _ | .vrcp _ | .vrsq _ | .vsqrt _ | .vexp2 _ | .vlog2 _ | .vdot _ => true
  | .acz _ | .acrd _ | .acwr _ | .acsc _ | .acmv _ | .acps _ | .mprg _ => true
  | _ => false

end Sys2Proof.Machine
end

