-- ==== Sys2Proof/WellFormed.lean ====
section
/-! DEFINITION. Well-formed instructions: slot words whose codes are legal, and steps that name things the package has. -/

namespace Sys2Proof

/-- A core, a partition, a context, a link port (01 R26, 12 R337, 17 R434). -/
def isCore (c : Nat) : Bool := decide (c < 384)
def isPart (p : Nat) : Bool := decide (p < 3072)
def isCtx (c : Nat) : Bool := decide (c < 64)
def isPort (p : Nat) : Bool := decide (p < 25)

/-- An issuer's key: a partition, or 4096 + a context. -/
def isIssuer (k : Nat) : Bool := isPart k || (decide (4096 ≤ k) && isCtx (k - 4096))

/-- Whether an instruction is well formed. -/
def Instr.wf (i : Instr) : Bool :=
  legal i &&
  match i with
  | .bundleIssue k => isIssuer k
  | .resultLand k => isIssuer k
  | .waitmReread k => isIssuer k
  | .matrixGroupRead k => isIssuer k
  | .fetchMissFill k => isIssuer k
  | .translationWalkDone k h => isIssuer k && decide (h < 32)
  | .deltaMerge core ctx _ => isCore core && isCtx ctx
  | .deltaMergeTimeout core ctx _ => isCore core && isCtx ctx
  | .recordLeavesMetadataCache _ ctx _ => isCtx ctx
  | .installRetry ctx _ => isCtx ctx
  | .tensorCrossingPost ctx _ => isCtx ctx
  | .channelElementArrive ctx ch => isCtx ctx && decide (ch < 64)
  | .channelCreditArrive ctx ch => isCtx ctx && decide (ch < 64)
  | .remoteOpenMatch ctx ch _ => isCtx ctx && decide (ch < 64)
  | .deadlockDetect ctx ps => isCtx ctx && ps.all isPart
  | .barrierPhaseComplete ctx bar => isCtx ctx && decide (bar < 65536)
  | .groupJoinReceive ctx _ _ => isCtx ctx
  | .memberFailure ctx _ cause _ => isCtx ctx && decide (1 ≤ cause)
  | .quarantineEnd ctx _ => isCtx ctx
  | .l1LoadMiss core _ => isCore core
  | .l1StoreMiss core _ => isCore core
  | .l1Upgrade core _ => isCore core
  | .l1Eviction core _ => isCore core
  | .correctableError die => decide (die < 4)
  | .taskDispatch part => isPart part
  | .reuseLookup ctx _ => isCtx ctx
  | .reusePlaceComplete ctx _ => isCtx ctx
  | .taskRetire ctx _ => isCtx ctx
  | .contextCreate ctx => isCtx ctx
  | .contextRun ctx => isCtx ctx
  | .contextPreempt ctx => isCtx ctx
  | .contextDestroy ctx => isCtx ctx
  | .contextDestroyComplete ctx => isCtx ctx
  | .cctlInvalidCommand ctx _ => isCtx ctx
  | .partitionSaveComplete part => isPart part
  | .saveComplete ctx => isCtx ctx
  | .coreGate core => isCore core
  | .corePowerUp core => isCore core
  | .pageInComplete ctx page => isCtx ctx && decide (page < 16384)
  | .pageOutComplete ctx page => isCtx ctx && decide (page < 16384)
  | .residencyStayExpire ctx page => isCtx ctx && decide (page < 16384)
  | .bounceMerge ctx page => isCtx ctx && decide (page < 16384)
  | .linkEnable p => isPort p
  | .linkDisable p => isPort p
  | .signalDetect p => isPort p
  | .linkTrained p _ => isPort p
  | .trainingTimeout p => isPort p
  | .retryExhausted p => isPort p
  | .retrainDone p => isPort p
  | .retrainFail p => isPort p
  | .signalLost p => isPort p
  | .flitReceive p _ => isPort p
  | .flitResend p => isPort p
  | .packetAgeDiscard p _ _ => isPort p
  | .timeStampExchange p _ => isPort p
  | .debugStop part _ => isPart part
  | .debugStep part => isPart part
  | .debugRun part _ => isPart part
  | .windowWrite part _ _ => isPart part
  | .pmcWrite core n _ => isCore core && decide (n < 16)
  | .pmselWrite core n _ => isCore core && decide (n < 16)
  | .hostWrite addr bytes => decide (addr < 2 ^ 50) && !bytes.isEmpty
  | .hostRead addr len => decide (addr < 2 ^ 50) && decide (0 < len)
  | .hostAtomic _ addr _ _ _ => decide (addr < 2 ^ 50)
  | .registerWrite addr _ => decide (addr < 2 ^ 50)
  | .tenantProvision slot _ => decide (slot < 256)
  | .tenantRelease slot _ => decide (slot < 256)
  | _ => true

end Sys2Proof
end

