-- ==== Sys2Proof/Certificates/Slice0/Obligations.lean ====
section
/-! DEFINITION. The statements for the provers. -/

open Sys2Proof Sys2Proof.Machine

/-! ### Scalar and predicate instructions (04) -/

/-- R105 (Tables 4-1, 4-2): the arithmetic of S registers.  A result lands at +1, a product's at +3 (R103); a variant that is not
allowed is an illegal instruction. -/
def Obligations.ScalarArithmetic : Prop :=
  ∀ (s u : State) (k : Nat),
    (∀ x : RRR, ∀ e ∈ [(Instr.add x, 5), (.sub x, 1), (.and x, 0), (.or x, 0), (.xor x, 0), (.andn x, 0), (.shl x, 1), (.shr x, 1),
        (.sar x, 1), (.rot x, 1), (.min x, 0), (.max x, 0), (.minu x, 0), (.maxu x, 0), (.mul x, 1), (.mulh x, 0), (.mulhu x, 0)],
      e.2 < x.f.toNat →
        slotStatic (oneIC u k 0 (encWord e.1)) (slotOf e.1) = some ⟨2, (encWord e.1).toNat, 0⟩) ∧
    (∀ x : RRR,
      let a := (u.th k).s x.a.toNat
      let b := (u.th k).s x.b.toNat
      let a' : BitVec 32 := a.setWidth 32
      let b' : BitVec 32 := b.setWidth 32
      let n := b.toNat % 64
      let n' := b.toNat % 32
      let w (y : BitVec 32) (z : W64) : W64 := if x.f = 1 then y.signExtend 64 else z
      ∀ e ∈ [
        (Instr.add x, 1, match x.f.toNat with
          | 0 => a + b
          | 1 => (a' + b').signExtend 64
          | 2 => a + (b <<< 1)
          | 3 => a + (b <<< 2)
          | 4 => a + (b <<< 3)
          | _ => a + (b <<< 6)),
        (.sub x, 1, w (a' - b') (a - b)), (.and x, 1, a &&& b), (.or x, 1, a ||| b), (.xor x, 1, a ^^^ b),
        (.andn x, 1, a &&& ~~~b), (.shl x, 1, w (a' <<< n') (a <<< n)), (.shr x, 1, w (a' >>> n') (a >>> n)),
        (.sar x, 1, w (a'.sshiftRight n') (a.sshiftRight n)), (.rot x, 1, w (a'.rotateLeft n') (a.rotateLeft n)),
        (.min x, 1, if a.toInt ≤ b.toInt then a else b), (.max x, 1, if a.toInt ≤ b.toInt then b else a),
        (.minu x, 1, if a.toNat ≤ b.toNat then a else b), (.maxu x, 1, if a.toNat ≤ b.toNat then b else a),
        (.mul x, 3, w (BitVec.ofNat 32 (a'.toNat * b'.toNat)) (BitVec.ofNat 64 (a.toNat * b.toNat))),
        (.mulh x, 3, BitVec.ofInt 64 (a.toInt * b.toInt / 2 ^ 64)),
        (.mulhu x, 3, BitVec.ofNat 64 (a.toNat * b.toNat / 2 ^ 64))],
        Commits s u k 0 e.1 → exec e.1 s = committed u k fun v => v.fly k e.2.1 (.s x.d.toNat e.2.2 false)) ∧
    (∀ x : RRI,
      let a := (u.th k).s x.a.toNat
      let b : W64 := x.i.signExtend 64
      ∀ e ∈ [(Instr.addi x, a + b), (.andi x, a &&& b), (.ori x, a ||| b), (.xori x, a ^^^ b)],
        Commits s u k 0 e.1 → exec e.1 s = committed u k fun v => v.fly k 1 (.s x.d.toNat e.2 false)) ∧
    ∀ x : ShI,
      let a := (u.th k).s x.a.toNat
      ∀ e ∈ [(Instr.shli x, a <<< x.i.toNat), (.shri x, a >>> x.i.toNat), (.sari x, a.sshiftRight x.i.toNat)],
        Commits s u k 0 e.1 → exec e.1 s = committed u k fun v => v.fly k 1 (.s x.d.toNat e.2 false)

/-- R106–R110: MOVI, MOVHI, SEL, BITOP, BFX and DIV.  A quotient lands at +18, and keeps the divider busy till then.
That BFX.ins of no bits delivers S(D) as it stands is the model's choice (notes/assumptions/101). -/
def Obligations.ScalarMoves : Prop :=
  ∀ (s u : State) (k : Nat),
    let r := (u.th k).s
    (∀ x : RI, Commits s u k 0 (.movi x) →
      exec (.movi x) s = committed u k fun v => v.fly k 1 (.s x.d.toNat (x.i.signExtend 64) false)) ∧
    (∀ x : RI, Commits s u k 0 (.movhi x) →
      exec (.movhi x) s = committed u k fun v =>
        v.fly k 1 (.s x.d.toNat ((r x.d.toNat <<< 16) ||| x.i.zeroExtend 64) false)) ∧
    (∀ x : RRR, Commits s u k 0 (.sel x) →
      exec (.sel x) s = committed u k fun v =>
        v.fly k 1 (.s x.d.toNat (if (u.th k).p x.f.toNat then r x.a.toNat else r x.b.toNat) false)) ∧
    (∀ x : RRR,
      let a := r x.a.toNat
      let n := (r x.b.toNat).toNat % 64
      Commits s u k 0 (.bitop x) → ∃ y : W64,
        exec (.bitop x) s = committed u k (fun v => v.fly k 1 (.s x.d.toNat y false)) ∧
        (x.f = 0 → y.toNat = ((List.range 64).filter fun i => a.getLsbD i).length) ∧
        (x.f = 1 → y.toNat ≤ 64 ∧ (∀ i, i < y.toNat → a.getLsbD (63 - i) = false) ∧
          (y.toNat < 64 → a.getLsbD (63 - y.toNat) = true)) ∧
        (x.f = 2 → y.toNat ≤ 64 ∧ (∀ i, i < y.toNat → a.getLsbD i = false) ∧ (y.toNat < 64 → a.getLsbD y.toNat = true)) ∧
        (x.f = 3 → ∀ i, i < 64 → y.getLsbD i = a.getLsbD (63 - i)) ∧
        (x.f = 4 → ∀ i j, i < 8 → j < 8 → y.getLsbD (8 * i + j) = a.getLsbD (8 * (7 - i) + j)) ∧
        (x.f = 5 → ∀ i, i < 64 → y.getLsbD i = a.getLsbD (min i n)) ∧
        (x.f = 6 → ∀ i, i < 64 → y.getLsbD i = (a.getLsbD i && decide (i ≤ n)))) ∧
    (∀ x : RRR,
      let a := r x.a.toNat
      let d := r x.d.toNat
      let b := (r x.b.toNat).toNat
      let lo := b % 64
      let w := min (b / 256 % 128) (64 - lo)
      Commits s u k 0 (.bfx x) → ∃ y : W64,
        exec (.bfx x) s = committed u k (fun v => v.fly k 1 (.s x.d.toNat y false)) ∧
        (x.f = 0 → ∀ i, i < 64 → y.getLsbD i = (decide (i < w) && a.getLsbD (lo + i))) ∧
        (x.f = 1 → ∀ i, i < 64 → y.getLsbD i = (w != 0 && a.getLsbD (lo + min i (w - 1)))) ∧
        (x.f = 2 → ∀ i, i < 64 → y.getLsbD i = if lo ≤ i ∧ i < lo + w then a.getLsbD (i - lo) else d.getLsbD i)) ∧
    (∀ x : RRR,
      let a := r x.a.toNat
      let b := r x.b.toNat
      Commits s u k 0 (.div x) → exec (.div x) s = committed u k fun v =>
        (v.fly k 18 (.s x.d.toNat (match x.f.toNat with
          | 0 => if b = 0 then BitVec.allOnes 64 else BitVec.ofInt 64 (a.toInt.tdiv b.toInt)
          | 1 => if b = 0 then BitVec.allOnes 64 else a / b
          | 2 => if b = 0 then a else BitVec.ofInt 64 (a.toInt.tmod b.toInt)
          | _ => if b = 0 then a else a % b) false)).modTh k fun t => { t with divFree := (u.th k).scyc + 18 })

/-- R111–R114, R127: the predicate results, the ticket tests and the moves between predicates, loop indices, tickets and
S registers; a comparison's code above 7 is illegal, and a PD of 0 discards the result. -/
def Obligations.PredicateResults : Prop :=
  ∀ (s u : State) (k : Nat),
    let r := (u.th k).s
    let p := (u.th k).p
    let cond (c : Nat) (a b : W64) : Bool := match c with
      | 0 => decide (a = b)
      | 1 => decide (a ≠ b)
      | 2 => decide (a.toInt < b.toInt)
      | 3 => decide (b.toInt ≤ a.toInt)
      | 4 => decide (a.toNat < b.toNat)
      | 5 => decide (b.toNat ≤ a.toNat)
      | 6 => decide (a &&& b ≠ 0)
      | _ => decide (a &&& b = 0)
    let writes (i : Instr) (n : Nat) (b : Bool) : Prop :=
      Commits s u k 0 i → exec i s = committed u k fun v => v.fly k 1 (.p n b)
    (∀ x : Cmp, let c := cond x.c.toNat (r x.a.toNat) (r x.b.toNat)
      writes (.cmp x) x.p.toNat (if x.f = 0 then c else p x.p.toNat && c)) ∧
    (∀ x : Cmpi, writes (.cmpi x) x.p.toNat (cond x.c.toNat (r x.a.toNat) (x.i.signExtend 64))) ∧
    (∀ (x : Cmp) (y : Cmpi), ∀ e ∈ [(Instr.cmp x, x.c), (.cmpi y, y.c)], 8 ≤ e.2.toNat →
      slotStatic (oneIC u k 0 (encWord e.1)) (slotOf e.1) = some ⟨2, (encWord e.1).toNat, 0⟩) ∧
    (∀ (t : Thr) (b : Bool), landOne t (.p 0 b) = t) ∧
    (∀ x : Plog, let a := p x.a.toNat; let b := p x.b.toNat
      writes (.plog x) x.p.toNat (match x.c.toNat with
        | 0 => a && b
        | 1 => a || b
        | 2 => a != b
        | 3 => a && !b
        | 4 => !(a && b)
        | 5 => !(a || b)
        | 6 => a == b
        | 7 => a
        | _ => !a)) ∧
    (∀ x : Ktst, writes (.ktst x) x.p.toNat (u.fired k x.a.toNat)) ∧
    (∀ x : KtstAll, ∃ b, writes (.ktstAll x) x.p.toNat b ∧
      (b = true ↔ ∀ i, i ≤ x.b.toNat → u.fired k ((x.a.toNat + i) % 32) = true)) ∧
    (∀ x : DN, Commits s u k 0 (.movp x) → ∃ y : W64,
      exec (.movp x) s = committed u k (fun v => v.fly k 1 (.s x.d.toNat y false)) ∧
      ∀ i, i < 64 → y.getLsbD i = (decide (i < 16) && p i)) ∧
    (∀ x : AN, Commits s u k 0 (.movpW x) →
      exec (.movpW x) s = committed u k fun v => v.fly k 1 (.preds ((r x.a.toNat).setWidth 16))) ∧
    (∀ x : RR1, Commits s u k 0 (.movx x) →
      exec (.movx x) s = committed u k fun v => v.fly k 1 (.s x.d.toNat (BitVec.ofNat 64 (match (u.th k).loops[x.a.toNat]? with
        | some e => e.index
        | none => 0)) false)) ∧
    ∀ x : DN, Commits s u k 0 (.movxK x) → ∃ y : W64,
      exec (.movxK x) s = committed u k (fun v => v.fly k 1 (.s x.d.toNat y false)) ∧
      ∀ i, i < 64 → y.getLsbD i = (decide (i < 32) && u.fired k i)

/-- When the instructions of 04 R105–R114 and R127 commit: an issuer that issues, with a two-word bundle that fits, a
legal code, a true guard and no poisoned source, commits them; DIV also needs the divider to be free (R110).  No other
condition holds or faults them. -/
def Obligations.ScalarNeverStalls : Prop :=
  ∀ (s u : State) (k : Nat), s.cur = k → Issues s k → s.begun k = u → Fits u k →
    let on (g : BitVec 4) (n : BitVec 1) : Prop := (u.th k).p g.toNat = (n == 0)
    let ok (n : BitVec 6) : Prop := (u.th k).sBad n.toNat = false
    (∀ x : RRR, on x.g x.n → ok x.a → ok x.b →
      ∀ i ∈ [Instr.add x, .sub x, .and x, .or x, .xor x, .andn x, .shl x, .shr x, .sar x, .rot x, .min x, .max x, .minu x,
          .maxu x, .mul x, .mulh x, .mulhu x, .sel x, .bitop x], legal i = true → Commits s u k 0 i) ∧
    (∀ x : RRR, on x.g x.n → ok x.a → ok x.b → (x.f = 2 → ok x.d) → legal (.bfx x) = true → Commits s u k 0 (.bfx x)) ∧
    (∀ x : RRR, on x.g x.n → ok x.a → ok x.b → (u.th k).divFree ≤ (u.th k).scyc → legal (.div x) = true →
      Commits s u k 0 (.div x)) ∧
    (∀ x : RRI, on x.g 0 → ok x.a → ∀ i ∈ [Instr.addi x, .andi x, .ori x, .xori x], Commits s u k 0 i) ∧
    (∀ x : ShI, on x.g 0 → ok x.a → ∀ i ∈ [Instr.shli x, .shri x, .sari x], Commits s u k 0 i) ∧
    (∀ x : RI, on x.g 0 → Commits s u k 0 (.movi x) ∧ (ok x.d → Commits s u k 0 (.movhi x))) ∧
    (∀ x : Cmp, on x.g x.n → ok x.a → ok x.b → legal (.cmp x) = true → Commits s u k 0 (.cmp x)) ∧
    (∀ x : Cmpi, on x.g 0 → ok x.a → legal (.cmpi x) = true → Commits s u k 0 (.cmpi x)) ∧
    (∀ x : Plog, on x.g x.n → legal (.plog x) = true → Commits s u k 0 (.plog x)) ∧
    (∀ x : Ktst, on x.g x.n → legal (.ktst x) = true → Commits s u k 0 (.ktst x)) ∧
    (∀ x : KtstAll, on x.g x.n → legal (.ktstAll x) = true → Commits s u k 0 (.ktstAll x)) ∧
    (∀ x : DN, on x.g x.n → (legal (.movp x) = true → Commits s u k 0 (.movp x)) ∧
      (legal (.movxK x) = true → Commits s u k 0 (.movxK x))) ∧
    (∀ x : AN, on x.g x.n → ok x.a → legal (.movpW x) = true → Commits s u k 0 (.movpW x)) ∧
    ∀ x : RR1, on x.g x.n → legal (.movx x) = true → Commits s u k 0 (.movx x)


/-! ### Control transfer, loops, waiting, ending (04) -/

/-- R115–R118: a taken transfer leaves a pending target that lands in the program counter at +2; CALL writes S63 with the
address after its delay bundle; LBRK leaves the innermost loop. -/
def Obligations.ControlTransfer : Prop :=
  ∀ (s u : State) (k : Nat),
    let t := u.th k
    let goes (a : Nat) (v : State) : State := v.modTh k fun t => { t with pend := some ((u.th k).scyc + 2, a) }
    let rel (o : BitVec 21) : Nat := (BitVec.ofInt 64 ((t.pc : Int) + 4 * o.toInt)).toNat
    (∀ x : Brf, Commits s u k 0 (.br x) → exec (.br x) s = committed u k (goes (rel x.o))) ∧
    (∀ x : AN, Commits s u k 0 (.jmp x) → exec (.jmp x) s = committed u k (goes (t.s x.a.toNat).toNat)) ∧
    (∀ x : AN, Commits s u k 0 (.ret x) → exec (.ret x) s = committed u k (goes (t.s x.a.toNat).toNat)) ∧
    (∀ x : Brf, Commits s u k 0 (.call x) → exec (.call x) s = committed u k fun v =>
      (goes (rel x.o) v).fly k 1 (.s 63 (BitVec.ofNat 64 (u.bundleAfter k ((t.pc + 8) % 2 ^ 52))) false)) ∧
    ∀ x : Brf, Commits s u k 0 (.lbrk x) → ∃ e r, t.loops = e :: r ∧
      exec (.lbrk x) s = committed u k fun v =>
        let v1 := v.modTh k fun t => { t with loops := r, rotn := if e.rot then 0 else t.rotn }
        goes (rel x.o) (if e.rot then v1.fly k 1 (.stages 0) else v1)

/-- R119, R120, R123: LOOP and LOOPR push an entry, or skip the body at the cost of one empty cycle; a rotating loop
clears ROTN and enables stage 0; AUDEF defines a rule from +1.  R121: the end check of a bundle at the END address of the top loop entry: another pass, or the exit of the loop. -/
def Obligations.LoopsAndRules : Prop :=
  (∀ (s u : State) (k : Nat),
     let t := u.th k
     let after := (t.pc + 8) % 2 ^ 52
     let skips (stop : Nat) (v : State) : State :=
       v.modTh k fun t => { t with empty := true, pend := some ((u.th k).scyc + 2, u.bundleAfter k stop) }
     (∀ x : RI, Commits s u k 0 (.loop x) →
       let n := (t.s x.d.toNat).toNat
       let stop := (t.pc + 4 * x.i.toNat) % 2 ^ 52
       (n = 0 → exec (.loop x) s = committed u k (skips stop)) ∧
       (n ≠ 0 → exec (.loop x) s = committed u k fun v => v.modTh k fun t =>
         { t with loops := { start := after, stop, trips := n, index := 0, rot := false, n, w := 0, stg := 0 } :: t.loops })) ∧
     (∀ x : Loopr, Commits s u k 0 (.loopr x) →
       let n := (t.s x.c.toNat).toNat
       let stop := (t.pc + 4 * x.e.toNat) % 2 ^ 52
       (n = 0 → exec (.loopr x) s = committed u k (skips stop)) ∧
       (n ≠ 0 → exec (.loopr x) s = committed u k fun v => (v.modTh k fun t =>
         { t with loops := { start := after, stop, trips := n + x.s.toNat, index := 0, rot := true, n, w := x.w.toNat,
                             stg := x.s.toNat } :: t.loops, rotn := 0 }).fly k 1 (.stages 1))) ∧
     ∀ x : RRR, Commits s u k 0 (.audef x) → exec (.audef x) s = committed u k fun v =>
       v.fly k 1 (.rule x.d.toNat { first := x.a.toNat, count := x.f.toNat + 1, stride := t.s x.b.toNat })) ∧
  (∀ (v : State) (k : Nat) (old : Thr) (e : LoopEnt) (r : List LoopEnt),
     old.inDelay = false → (v.th k).loops = e :: r → e.stop = old.pc →
     (e.index + 1 < e.trips →
       v.loopEnd k old = v.modTh k fun t => { t with loops := { e with index := e.index + 1 } :: r, pc := e.start }) ∧
     (e.trips ≤ e.index + 1 → (∀ f ∈ r.head?, f.stop ≠ old.pc) →
       let w := v.modTh k fun t => { t with loops := r, rotn := if e.rot then 0 else t.rotn }
       v.loopEnd k old = if e.rot then w.fly k 1 (.stages 0) else w))

/-- R124, R125, R128: WAITK has no effect; WAITM delivers the word of a readable line; FIN ends the task's issue with the
status of S(A) and discards loops, rules and rotation. -/
def Obligations.WaitAndFin : Prop :=
  ∀ (s u : State) (k : Nat),
    (∀ x : ABN, Commits s u k 0 (.waitk x) → exec (.waitk x) s = committed u k id) ∧
    (∀ x : RRR, Commits s u k 0 (.waitm x) →
      ∃ pa, u.vpa (u.ctxOf k) ((u.th k).s x.a.toNat).toNat = some pa ∧
        (u.violates (u.firmware k) pa = false → tagPsn (u.tag pa) = false →
          let w : W64 := BitVec.ofNat 64 (ofBytes (u.physBytes pa 8))
          (∃ f : State → State, (∀ v, (f v).mem = v.mem ∧ (f v).reqs = v.reqs ∧ (f v).thr = v.thr) ∧
            exec (.waitm x) s = committed u k (fun v => (f v).fly k 1 (.s x.d.toNat w false))) ∧
          (match x.f.toNat with
            | 0 => w ≠ (u.th k).s x.b.toNat
            | 1 => w = (u.th k).s x.b.toNat
            | 2 => ((u.th k).s x.b.toNat).toNat ≤ w.toNat
            | _ => w.toNat < ((u.th k).s x.b.toNat).toNat))) ∧
    ∀ x : AN, Commits s u k 0 (.fin x) → ∃ v,
      exec (.fin x) s = committed u k (fun _ => v) ∧
      (v.th k).mode = .finishing ∧ (v.th k).loops = [] ∧ (v.th k).rules = [] ∧ (v.th k).rotn = 0 ∧
      (v.th k).flight = (u.th k).flight ∧
      ∀ j, (u.th k).task = some j →
        (v.th k).task = some { j with status := ((u.th k).s x.a.toNat).toNat % 2 ^ 16, fin := true }

/-- R129: TRAP commits, and its issuer then stops with a TRAP record that carries the code and S(D): a partition parks at
the next bundle, a command stream's context halts.  Where its bundle meets a MATRIX stop too, that stop's record follows (the
model's choice, notes/assumptions/110).  R130, 19 R477: a BRK stops its partition before the bundle commits where breakpoint stops are armed, and raises a
breakpoint fault where they are not. -/
def Obligations.TrapAndBrk : Prop :=
  (∀ (s u : State) (k : Nat) (x : RI), Commits s u k 0 (.trap x) → (u.th k).loops = [] →
     (isCs k = true → (u.th k).matStop = none) →
     ∃ t r l, exec (.trap x) s = .next t ∧ t.recs = u.recs ++ r :: l ∧ (l = [] ↔ (u.th k).matStop = none) ∧
       (∀ q ∈ l, q.kind = 3) ∧ r.kind = 2 ∧ r.det0 = x.i.toNat ∧ r.det1 = ((u.th k).s x.d.toNat).toNat ∧ r.baddr = (u.th k).pc ∧
       (isCs k = false → (t.th k).mode = .parked ∧ (t.th k).pc = ((u.th k).pc + 8) % 2 ^ 52 ∧
         (t.th k).scyc = ((u.th k).scyc + 1) % 2 ^ 64 ∧ (t.th k).park.reissue = false) ∧
       (isCs k = true → (t.ctx (k - 4096)).st = .halted ∧ (t.th k).mode = .idle)) ∧
  (∀ (s u : State) (k : Nat) (x : Brk),
     s.cur = k → Issues s k → s.begun k = u → Fits u k → legal (.brk x) = true → (u.th k).p x.g.toNat = true →
     let armed := !isCs k && u.feature 3 && cdbgBrkArm (u.ctx (u.ctxOf k)).cdbg
     (armed = true → ∃ t, exec (.brk x) s = .next t ∧ (t.th k).dbg.stopped = true ∧ (t.th k).dbg.cause = 2 ∧
       (t.th k).dbg.brkid = x.i.toNat ∧ (t.th k).pc = (u.th k).pc ∧ (t.th k).scyc = (u.th k).scyc) ∧
     (armed = false →
       exec (.brk x) s = .next (u.bundleFault k (u.th k).pc [(0, ⟨23, x.i.toNat, 0⟩)])))

/-- R126, 03 R89, R90, 04 R132, R131, Tables 3-15 to 3-25, 11-6: control registers are read, each with the value of its table, and written; ICINV
drops the lines of the issuing core at once and leaves a request for the other cores of its scope (the model's reading,
notes/assumptions/20); PRES, PRES.skip, PRES.mig and PKILL deliver the status of Table 4-10, as in notes/assumptions/41 and 144. -/
def Obligations.SystemResults : Prop :=
  ∀ (s u : State) (k : Nat),
    let r := (u.th k).s
    let c := u.ctxOf k
    let ic (i : Instr) := oneIC u k 0 (encWord i)
    (∀ x : Crf, Commits s u k 0 (.crr x) → ∃ y, crRead (ic (.crr x)) x.l.toNat = some y ∧
      exec (.crr x) s = committed u k (fun v => v.fly k 1 (.s x.s.toNat y false))
        (decide (x.l.toNat = 0x003 ∨ x.l.toNat = 0x004 ∨ x.l.toNat = 0x010)) ∧
      let t := u.th k
      let q := u.ctx c
      (isCs k = false →
        (∀ e ∈ [(0x000, k), (0x001, c % 64), (0x002, q.tenant), (0x003, t.scyc), (0x004, u.gcyc), (0x009, t.barb.toNat),
            (0x00A, t.bard.toNat), (0x00C, t.aland.toNat), (0x010, t.srstate.toNat), (0x018, t.fltrec.toNat), (0x020, t.drth.toNat)],
          x.l.toNat = e.1 → y.toNat = e.2 % 2 ^ 64) ∧
        (x.l.toNat = 0x008 → y.toNat % 2 ^ 32 = t.rotn % 2 ^ 32 ∧ y.toNat / 2 ^ 32 = (match t.rotLoop with
          | some e => if e.w = 0 then 0 else t.rotn % e.w
          | none => 0) % 2 ^ 32) ∧
        (∀ n, n < 16 → x.l.toNat = 0x100 + n →
          y = if u.feature 5 = true ∧ ∀ i, i < 8 → k / 8 * 8 + i ∈ q.allot then getD 0 u.pmc (k / 8 * 16 + n) else 0) ∧
        ∀ n, n < 16 → x.l.toNat = 0x110 + n → y = if u.feature 5 = true then getD 0 u.pmsel (k / 8 * 16 + n) else 0) ∧
      (isCs k = true → ∀ e ∈ [(0x001, c), (0x002, q.tenant), (0x004, u.gcyc), (0x030, u.csid c), (0x031, q.subcnt % 2 ^ 32),
          (0x032, q.retlo % 2 ^ 32), (0x033, q.tmode), (0x034, u.quota q.tenant)], x.l.toNat = e.1 → y.toNat = e.2 % 2 ^ 64)) ∧
    (∀ x : Crf, Commits s u k 0 (.crw x) → isCs k = false → ∃ n, ctlOf x.l.toNat = some n ∧
      exec (.crw x) s = committed u k (fun v => v.fly k 1 (.ctl n (r x.s.toNat))) (decide (x.l.toNat = 0x010))) ∧
    (∀ x : Crf, Commits s u k 0 (.crw x) → isCs k = true → x.l.toNat = 0x033 ∧
      exec (.crw x) s = committed u k fun v => v.fly k 1 (.tmode (r x.s.toNat))) ∧
    (∀ (v : State) (w : W64), isCs k = true → (v.th k).flight = [{ due := (v.th k).scyc, land := .tmode w }] →
      ((v.landThr k).ctx (k - 4096)).tmode = w.toNat % 4) ∧
    (∀ x : Icinv, Commits s u k 0 (.icinv x) →
      let va := (r x.a.toNat).toNat
      let n := (r x.b.toNat).toNat
      let own (v : State) : State := v.icInvalidate (fun core => core == u.tcore k) (u.covers c va n)
      (x.f.toNat ≤ 1 → exec (.icinv x) s = committed u k own) ∧
      (2 ≤ x.f.toNat → exec (.icinv x) s = committed u k fun v =>
        (own v).addReq k (own v).nextId 0 false (.icinv x.f.toNat va n))) ∧
    (∀ x : RR1, ∀ e ∈ [(Instr.pres x, false), (.presSkip x, true)], Commits s u k 0 e.1 →
      let p := (r x.a.toNat).toNat
      let st := if p ∉ (u.ctx c).allot then 2
        else if (u.th p).mode ≠ .parked ∨ (u.th p).park.resume.isSome = true then 1
        else if e.2 = true ∧ (u.th p).park.fetch = true then 4 else 0
      exec e.1 s = committed u k fun v =>
        (if st = 0 then v.modTh p fun t => { t with park := { t.park with resume := some (k, u.nextId, e.2) } } else v).fly k 1
          (.s x.d.toNat (BitVec.ofNat 64 st) false)) ∧
    (∀ x : PresMig, Commits s u k 0 (.presMig x) →
      let a := (r x.a.toNat).toNat
      let b := (r x.b.toNat).toNat
      let st := if b ∉ (u.ctx c).allot then 2
        else if ¬a < 3072 ∨ ((u.savedAt c a).bind Thr.task).isSome = false then 1
        else if u.idleTarget b = false then 3 else 0
      (st ≠ 0 → exec (.presMig x) s = committed u k fun v => v.fly k 1 (.s x.d.toNat (BitVec.ofNat 64 st) false)) ∧
      ∀ j, st = 0 → (u.savedAt c a).bind Thr.task = some j →
        ∃ v : State, exec (.presMig x) s = committed u k (fun _ => v.fly k 1 (.s x.d.toNat 0 false)) ∧
          (v.th b).resumed = [{ j with slot := a }]) ∧
    ∀ x : RR1, Commits s u k 0 (.pkill x) →
      let p := (r x.a.toNat).toNat
      (p ∉ (u.ctx c).allot → exec (.pkill x) s = committed u k fun v => v.fly k 1 (.s x.d.toNat 2 false)) ∧
      let runs := (u.th p).task.isSome ∧ (u.th p).mode ≠ .finishing
      (p ∈ (u.ctx c).allot → ¬runs → u.savedAt c p = none →
        exec (.pkill x) s = committed u k fun v => v.fly k 1 (.s x.d.toNat 1 false)) ∧
      (p ∈ (u.ctx c).allot → runs →
        exec (.pkill x) s = committed u k fun v => (v.killRunning p).fly k 1 (.s x.d.toNat 0 false)) ∧
      (p ∈ (u.ctx c).allot → ¬runs → (u.savedAt c p).isSome = true →
        exec (.pkill x) s = committed u k fun v => (v.killSaved c p).fly k 1 (.s x.d.toNat 0 false))

/-! ### Scratchpad and global memory (05) -/

/-- R142–R145: LDS, STS, LDV, STV, GATHS, SCATS and PROBE: the address, the bytes and the latency of each; what they read
and write goes through the issuer's view of its context's scratchpad (10 R299). -/
def Obligations.ScratchpadAccess : Prop :=
  ∀ (s u : State) (k : Nat),
    let t := u.th k
    let c := u.ctxOf k
    let ic (i : Instr) := oneIC u k 2 (encWord i)
    let cl := k / 32
    let at_ (x : RRI) (w : Nat) : Nat := (t.s x.a.toNat + BitVec.ofInt 64 (x.i.toInt * w)).toNat
    let lanes (x : RRR) : List (Nat × W64) := ((List.range 64).filter fun i => (t.m (x.f.toNat % 4)).getLsbD i).map fun i =>
      (i, t.s x.a.toNat + BitVec.ofInt 64 (sextI (vLane (vSource t (Header.one 2) 32 x.b.toNat) 32 i) 32 * (if x.f.toNat < 4 then 1 else 4)))
    (∀ x : RRI, Commits s u k 2 (.lds x) → let a := at_ x 8; let r := spLoad (ic (.lds x)) a 8
      exec (.lds x) s = committed u k fun v =>
        (v.logSp (ic (.lds x)) [(a, 8)]).fly k 5 (.s x.d.toNat (BitVec.ofNat 64 (ofBytes r.1)) r.2)) ∧
    (∀ x : RRI, Commits s u k 2 (.sts x) → exec (.sts x) s = committed u k fun v =>
      v.spWrite true c cl (at_ x 8) k 0 (bytesOf 8 (t.s x.d.toNat).toNat) none) ∧
    (∀ x : RRI, Commits s u k 2 (.ldv x) → let a := at_ x 256; let r := spLoad (ic (.ldv x)) a 256
      exec (.ldv x) s = committed u k fun v => (v.logSp (ic (.ldv x)) [(a, 256)]).fly k 7
        (.v (t.vName x.d.toNat) (BitVec.ofNat 2048 (ofBytes r.1)) (BitVec.allOnes 64) r.2)) ∧
    (∀ x : RRI, Commits s u k 2 (.stv x) → exec (.stv x) s = committed u k fun v =>
      v.spWrite true c cl (at_ x 256) k 0 (bytesOf 256 (t.vPhys (t.vName x.d.toNat)).toNat) none) ∧
    (∀ x : RRR, Commits s u k 2 (.gaths x) → ∃ (v' : State) (y : VReg) (bad : Bool),
      exec (.gaths x) s = committed u k (fun _ => v'.fly k 9 (.v (t.vName x.d.toNat) y (t.m (x.f.toNat % 4)) bad)) ∧
      (bad = false → (v'.th k).flight = t.flight ∧ v'.frames = (u.stallEnd k).frames ∧ v'.mem = (u.stallEnd k).mem) ∧
      ∀ l ∈ lanes x, vLane y 32 l.1 = ofBytes (u.spRead true c cl l.2.toNat 4)) ∧
    (∀ x : RRR, Commits s u k 2 (.scats x) → exec (.scats x) s = committed u k fun v =>
      (scatWrites ((lanes x).map fun l => (l.2.toNat, vLane (t.vPhys (t.vName x.d.toNat)) 32 l.1))).foldl (fun v w =>
        v.spWrite true c cl w.1 k 0 w.2 none) v) ∧
    ∀ x : Probe, Commits s u k 2 (.probe x) → let a := (t.s x.a.toNat).toNat
      exec (.probe x) s = committed u k fun v =>
        let v1 := v.fly k 8 (.s x.d.toNat (probeValue (ic (.probe x)) a) false)
        if x.f = 1 ∧ u.spFrame c cl a = none then v1.spAsk (k / 8) k c (pageKey c (a / 2048)) cl else v1

/-- R142, R143, R162, R163, 10 R299: a store to a resident page whose lines hold no unjoined write and no poison puts its bytes into the frame,
line after line, and changes no other byte of the frames and none of physical memory; so do STS and STV.  To a poisoned line a store of fewer than
64 bytes is dropped and logged, and one of 64 clears the poison.  Of the lanes of a scatter that name one address the highest-numbered
stands; that lanes which together write a whole line write it at once is the model's choice (notes/assumptions/137). -/
def Obligations.ScratchpadStoreBytes : Prop :=
  let plain (v : State) (fa n : Nat) : Prop := (∀ w ∈ v.unjoined, w.line < fa / 64 ∨ (fa + n - 1) / 64 < w.line) ∧
    ∀ i, i < n → tagPsn (v.ftag (fa + i)) = false
  let puts (f g : List Host.Cell) (fa : Nat) (bs : List Byte) : Prop :=
    (∀ b, b < fa ∨ fa + bs.length ≤ b → rdByte g b = rdByte f b) ∧ ∀ i, i < bs.length → rdByte g (fa + i) = bs.getD i 0
  (∀ (v : State) (lin : Bool) (c cl a own fa : Nat) (bs : List Byte), bs ≠ [] → a % 2048 + bs.length ≤ 2048 →
    v.spFrame c cl a = some fa → plain v fa bs.length →
    let w := v.spWrite lin c cl a own 0 bs none
    puts v.frames w.frames fa bs ∧ w.mem = v.mem ∧ w.ftags = v.ftags ∧ w.spRead lin c cl a bs.length = bs) ∧
  (∀ (s u : State) (k fa : Nat) (x : RRI),
    ∀ e ∈ [(Instr.sts x, bytesOf 8 ((u.th k).s x.d.toNat).toNat), (.stv x, bytesOf 256 ((u.th k).vPhys ((u.th k).vName x.d.toNat)).toNat)],
    Commits s u k 2 e.1 →
    u.spFrame (u.ctxOf k) (k / 32) ((u.th k).s x.a.toNat + BitVec.ofInt 64 (x.i.toInt * e.2.length)).toNat = some fa →
    plain u fa e.2.length → ∃ t, exec e.1 s = .next t ∧ puts u.frames t.frames fa e.2) ∧
  (∀ (v : State) (lin : Bool) (c a own fa : Nat) (bs : List Byte), tagPsn (v.ftag fa) = true →
    (bs.length ≠ 64 → v.spStore lin c a own 0 fa bs none = v.log c 3 a (agentField (own % 4096) 0 true)) ∧
    (bs.length = 64 → fa % 64 = 0 → (∀ w ∈ v.unjoined, w.line ≠ fa / 64) →
      let w := v.spStore lin c a own 0 fa bs none
      puts v.frames w.frames fa bs ∧ tagPsn (w.ftag fa) = false)) ∧
  ∀ (m : List Host.Cell) (p q : List (Nat × Nat)) (l : Nat × Nat), (∀ x ∈ p ++ l :: q, x.1 % 4 = 0) → (∀ x ∈ q, x.1 ≠ l.1) →
    rdBytes ((scatWrites (p ++ l :: q)).foldl (fun m w => wrBytes m w.1 w.2) m) l.1 4 = bytesOf 4 l.2

/-- R146–R149: global loads, stores, gathers and scatters send their requests: the pieces a load reads and the lines a
store writes, at the page the handle captured. -/
def Obligations.GlobalAccess : Prop :=
  ∀ (s u : State) (k : Nat),
    let t := u.th k
    let ic (i : Instr) := oneIC u k 2 (encWord i)
    let ptr (a : BitVec 4) : W64 := t.s (16 + a.toNat)
    let w (p : W64) : Nat := atWidth (ptrAt p)
    let imp (i : Instr) (wr : Bool) (p : W64) (n : Nat) : Bool :=
      ((ic i).outside wr [(((ic i).hnd p).vaAt (ptrOfs p), n)]).isSome
    (∀ x : Gld, Commits s u k 2 (.ldg x) → let p := ptr x.a
      exec (.ldg x) s = committed u k (fun v => (v.addReq k v.nextId ((ic (.ldg x)).hnd p).va true
          (.load [(0, ((ic (.ldg x)).hnd p).base + ptrOfs p, w p)] [] false x.d.toNat false (ptrAt p) (BitVec.allOnes 64))).flyReq
            k x.l.toNat v.nextId) (imp (.ldg x) false p (w p))) ∧
    (∀ x : Gst, Commits s u k 2 (.stg x) → let p := ptr x.a
      exec (.stg x) s = committed u k (fun v =>
        v.sendStore (ic (.stg x)) v.nextId ((ic (.stg x)).hnd p) (ptrOfs p) (bytesOf (w p) (t.s x.d.toNat).toNat))
        (imp (.stg x) true p (w p))) ∧
    (∀ x : Gld, Commits s u k 2 (.ldgv x) → let p := ptr x.a; let pa := ((ic (.ldgv x)).hnd p).base + ptrOfs p
      exec (.ldgv x) s = committed u k (fun v => (v.addReq k v.nextId ((ic (.ldgv x)).hnd p).va true
          (.load [(0, pa, 64), (64, pa + 64, 64), (128, pa + 128, 64), (192, pa + 192, 64)] [] false (t.vName x.d.toNat) true 0
            (BitVec.allOnes 64))).flyReq k x.l.toNat v.nextId) (imp (.ldgv x) false p 256)) ∧
    (∀ x : Gst, Commits s u k 2 (.stgv x) → let p := ptr x.a
      exec (.stgv x) s = committed u k (fun v =>
        v.sendStore (ic (.stgv x)) v.nextId ((ic (.stgv x)).hnd p) (ptrOfs p) (bytesOf 256 (t.vPhys (t.vName x.d.toNat)).toNat))
        (imp (.stgv x) true p 256)) ∧
    (∀ x : RRR, Commits s u k 2 (.gath x) →
      let p := t.s x.a.toNat
      let h := (ic (.gath x)).hnd p
      let m := t.m (x.f.toNat % 4)
      let ps := (gathGlob x (ic (.gath x))).map fun l => (4 * l.1, h.base + l.2.toNat, 4)
      let imp := ((ic (.gath x)).outside false ((gathGlob x (ic (.gath x))).map fun l => (h.vaAt l.2.toNat, 4))).isSome
      (m ≠ 0 → exec (.gath x) s = committed u k (fun v => (v.addReq k v.nextId h.va true
          (.load ps [] false (t.vName x.d.toNat) true 0 m)).flyReq k (t.aland.toNat % 2 ^ 12) v.nextId) imp) ∧
      (m = 0 → exec (.gath x) s = committed u k (fun v => v.modTh k fun t => { t with flight := t.flight ++
        [{ due := t.scyc + t.aland.toNat % 2 ^ 12, land := .v ((u.th k).vName x.d.toNat) 0 m false, entry := true }] }) imp)) ∧
    (∀ x : RRR, Commits s u k 2 (.scat x) →
      let p := t.s x.a.toNat
      let h := (ic (.scat x)).hnd p
      let imp := ((ic (.scat x)).outside true ((gathGlob x (ic (.scat x))).map fun l => (h.vaAt l.2.toNat, 4))).isSome
      exec (.scat x) s = committed u k (fun v => (scatWrites ((gathGlob x (ic (.scat x))).map fun l =>
        (l.2.toNat, vLane (t.vPhys (t.vName x.d.toNat)) 32 l.1))).foldl (fun w y => w.sendStore (ic (.scat x)) v.nextId h y.1 y.2) v) imp) ∧
    (∀ x : Gld, Commits s u k 2 (.ldcv x) → let p := ptr x.a; let h := (ic (.ldcv x)).hnd p
      ∃ r, h.tens = some r ∧ exec (.ldcv x) s = committed u k (fun v => (v.addReq k v.nextId h.va true
          (.conv (h.base + ptrOfs p) (convW x.a (ic (.ldcv x)) / 64) r h.base h.size [] false (t.vName x.d.toNat))).flyReq
            k x.l.toNat v.nextId) (imp (.ldcv x) false p (convW x.a (ic (.ldcv x))))) ∧
    ∀ x : Stcv, Commits s u k 2 (.stcv x) → let p := ptr x.a; let h := (ic (.stcv x)).hnd p
      ∃ (r n : Nat) (f : State → State), h.tens = some r ∧
        n = (if x.r = 2 then lineElems (u.recGeo (u.ctxOf k) r) else 0) ∧
        exec (.stcv x) s = committed u k f (imp (.stcv x) true p (convW x.a (ic (.stcv x))) || x.r == 2) n ∧
        ∀ v, ∃ l, (f v).reqs = v.reqs ++ l ∧
          (∀ q ∈ l, q.key ≠ 4001 → ∃ pa bs ver, q.kind = .store pa bs (some ver) false (some (r, h.base, h.size)) ∧ q.key = k ∧
            h.base ≤ pa) ∧
          ∃ q ∈ l, ∃ bs, q.kind = .store (h.base + ptrOfs p) bs (some (u.recWv (u.ctxOf k) r)) false (some (r, h.base, h.size)) ∧
            bs = (stcvBytes (stcvData x (ic (.stcv x)) r).1 (stcvData x (ic (.stcv x)) r).2.2.1).take 64

/-- R154–R156: each atomic sends one request for its operation, width, order and scope, which returns the old value at
+ALAND unless its D is 0; ATST returns nothing. -/
def Obligations.AtomicsSent : Prop :=
  ∀ (s u : State) (k : Nat),
    let t := u.th k
    let ptr (a : BitVec 4) : W64 := t.s (16 + a.toNat)
    let hd (i : Instr) (p : W64) : Handle := (oneIC u k 2 (encWord i)).hnd p
    (∀ x : Atm, ∀ e ∈ [(Instr.atadd x, AtomicOp.add), (.atmin x, .min), (.atmax x, .max), (.atand x, .and), (.ator x, .or),
        (.atxor x, .xor), (.atxch x, .xch), (.atcas x, .cas), (.atld x, .ld)],
      Commits s u k 2 e.1 →
      let p := ptr x.a
      let h := hd e.1 p
      let req (ret : Option Nat) : ReqKind := .atomic e.2 (ptrAt p) (h.base + ptrOfs p) (t.s x.b.toNat)
        (if e.2 = .cas then t.s x.d.toNat else 0) ret x.o.toNat x.c.toNat
      (x.d = 0 → exec e.1 s = committed u k (fun v => v.addReq k v.nextId h.va true (req none)) true) ∧
      (x.d ≠ 0 → exec e.1 s = committed u k (fun v => (v.addReq k v.nextId h.va true (req (some x.d.toNat))).flyReq k
        (t.aland.toNat % 2 ^ 12) v.nextId) true)) ∧
    ∀ x : Atst, Commits s u k 2 (.atst x) →
      let p := ptr x.a
      let h := hd (.atst x) p
      exec (.atst x) s = committed u k (fun v => v.addReq k v.nextId h.va true
        (.atomic .st (ptrAt p) (h.base + ptrOfs p) (t.s x.b.toNat) 0 none x.o.toNat x.c.toNat)) true

/-- R137–R139, R157–R161: XLAT lands at +12, HREL at +1; LTAG, PREF, DRAIN, CLFL and CLINV send requests; PCLR clears a line
and its tag at once, unless it lies in a table that only the part writes or is a violation: that is only logged.  Where an earlier access of
its issuer, a translation or a resident page is still in its way it waits as a request (the model's reading, notes/assumptions/118). -/
def Obligations.TranslationAndOrder : Prop :=
  ∀ (s u : State) (k : Nat),
    let t := u.th k
    let c := u.ctxOf k
    let hd (i : Instr) (p : W64) : Handle := (oneIC u k 2 (encWord i)).hnd p
    (∀ x : RR1, Commits s u k 2 (.xlat x) → exec (.xlat x) s = committed u k fun v =>
      v.fly k 12 (.xlat x.d.toNat ((t.s x.a.toNat).toNat / 4096 * 4096))) ∧
    (∀ x : DN, Commits s u k 2 (.hrel x) → exec (.hrel x) s = committed u k fun v => v.fly k 1 (.hrel x.d.toNat)) ∧
    (∀ x : RR1, Commits s u k 2 (.ltag x) → ∃ imp, let p := t.s x.a.toNat; let h := hd (.ltag x) p
      exec (.ltag x) s = committed u k (fun v => (v.addReq k v.nextId h.va true
        (.ltag (h.base + ptrOfs p) h.tens x.d.toNat)).flyReq k (t.aland.toNat % 2 ^ 12) v.nextId) imp) ∧
    (∀ x : Pref, Commits s u k 2 (.pref x) → let p := t.s (16 + x.a.toNat); let h := hd (.pref x) p
      let good := ptrMbz p = 0 ∧ h.st = .valid ∧ ptrOfs p < h.size
      (good → exec (.pref x) s = committed u k fun v => v.addReq k v.nextId h.va true
        (.pref (u.tcore k) ((h.base + ptrOfs p) / 64) (min (x.l.toNat + 1) (h.size / 64 - ptrOfs p / 64)) (x.e == 0))) ∧
      (¬good → exec (.pref x) s = committed u k id)) ∧
    (∀ x : Drain, Commits s u k 2 (.drain x) → exec (.drain x) s = committed u k fun v =>
      v.addReq k v.nextId 0 false (.drain x.f.toNat)) ∧
    (∀ x : Clfl, Commits s u k 2 (.clfl x) → let p := t.s x.a.toNat; let h := hd (.clfl x) p
      exec (.clfl x) s = committed u k fun v => v.addReq k v.nextId h.va true
        (.maint (u.tcore k) ((h.base + ptrOfs p) / 64) ((ptrOfs p % 64 + max 1 (t.s x.b.toNat).toNat + 63) / 64) false (x.f == 1))) ∧
    (∀ x : ABN, Commits s u k 2 (.clinv x) → let p := t.s x.a.toNat; let h := hd (.clinv x) p
      exec (.clinv x) s = committed u k fun v => v.addReq k v.nextId h.va true
        (.maint (u.tcore k) ((h.base + ptrOfs p) / 64) ((ptrOfs p % 64 + max 1 (t.s x.b.toNat).toNat + 63) / 64) true false)) ∧
    ∀ x : AN, Commits s u k 2 (.pclr x) → let a := (t.s x.a.toNat).toNat
      let may (v : State) : Prop := v.mayPerform { id := v.nextId, key := k, acc := v.nextId, ctx := c, kind := .pclr (a / 64) } = true
      let free (v : State) : Prop := v.violates true a = true ∨ v.still k a (List.replicate 64 0) = true
      a % 64 = 0 ∧ ∃ f : State → State, exec (.pclr x) s = committed u k f ∧ ∀ v : State,
        (¬(may v ∧ free v) → f v = v.addReq k v.nextId 0 false (.pclr (a / 64))) ∧
        (may v → free v → v.violates true a = false → v.protectedKind a = none → (∀ i, i < 64 → rdByte (f v).mem (a + i) = 0) ∧
          (f v).tag a = 0 ∧ ∀ b, b < a ∨ a + 64 ≤ b → rdByte (f v).mem b = rdByte v.mem b) ∧
        ∀ kd, k < 3072 ∨ (4096 ≤ k ∧ k < 8192) → may v → free v → (if v.violates true a then some 4 else v.protectedKind a) = some kd →
          f v = v.afreshLine (a / 64) (v.log c kd a (v.agentOf k))

/-! ### Vector instructions (06) -/

/-- R166–R178, R193: the lane-wise instructions write V(D), under the mask M(MS), with a function of the sources' lanes of the
same number, at the latency of their class; code 60 is the broadcast port, every lane of which is S(BS), where the bundle's header names
one (03 R73).  It rests on the model's readings in notes/assumptions/107. -/
def Obligations.VectorLanes : Prop :=
  ∀ (s u : State) (k : Nat) (h : Header),
    let t := u.th k
    let src (w : Nat) (code : BitVec 6) : VReg := vSource t h w code.toNat
    let out (i : Instr) (lat : Nat) (d : BitVec 6) (m : BitVec 2) (w : Nat) (f : Nat → Nat) : Prop :=
      runs s u k 3 h i fun r => ∃ y : VReg,
        r = committed u k (fun v => v.fly k lat (.v (t.vName d.toNat) y (t.m m.toNat) false)) ∧
        ∀ j, j < 2048 / w → vLane y w j = f j % 2 ^ w
    (h.be = true → ∀ w j, w ∈ [16, 32] → j < 2048 / w → vLane (src w 60) w j = (t.s h.bs).toNat % 2 ^ w) ∧
    (∀ x : VRR,
      let ty := x.t.toNat
      let w := tyWidth ty
      let a (j : Nat) := vLane (src w x.a) w j
      let b (j : Nat) := vLane (src w x.b) w j
      let d (j : Nat) := vLane (src w x.d) w j
      let F := tyFmt ty
      let rnd (f : Ex → Ex → Ex) (j : Nat) : Nat := F.round (f (F.decode (a j)) (F.decode (b j)))
      let fma (f : Ex → Ex → Ex) (j : Nat) : Nat := F.round (f ((F.decode (a j)).mul (F.decode (b j))) (F.decode (d j)))
      let a' (j : Nat) := vLane (src 32 x.a) 32 j
      let b' (j : Nat) := vLane (src 32 x.b) 32 j
      out (.vadd x) 2 x.d x.m w (rnd Ex.add) ∧
      out (.vsub x) 2 x.d x.m w (rnd fun p q => p.add q.negate) ∧
      out (.vmin x) 2 x.d x.m w (rnd Ex.min2) ∧
      out (.vmax x) 2 x.d x.m w (rnd Ex.max2) ∧
      out (.vmul x) 5 x.d x.m w (rnd Ex.mul) ∧
      out (.vfma x) 5 x.d x.m w (fma Ex.add) ∧
      out (.vfms x) 5 x.d x.m w (fma fun p q => p.add q.negate) ∧
      out (.vfnma x) 5 x.d x.m w (fma fun p q => p.negate.add q) ∧
      out (.vuna x) 2 x.d x.m w (fun j => if x.b.toNat ≤ 4 then F.round (unaF x.b.toNat (F.decode (a j))) else unaI x.b.toNat (a j)) ∧
      out (.vclmp x) 2 x.d x.m w (fun j => if ty = 3 then clampI (a j) (b j) else rnd clampF j) ∧
      out (.vand x) 2 x.d x.m w (fun j => a j &&& b j) ∧
      out (.vor x) 2 x.d x.m w (fun j => a j ||| b j) ∧
      out (.vxor x) 2 x.d x.m w (fun j => a j ^^^ b j) ∧
      out (.viadd x) 2 x.d x.m 32 (fun j =>
        if ty = 0 then wrapN (max (-2 ^ 31) (min (2 ^ 31 - 1) (sextI (a' j) 32 + sextI (b' j) 32))) 32
        else if ty = 1 then min (a' j + b' j) (2 ^ 32 - 1) else a' j + b' j) ∧
      out (.visub x) 2 x.d x.m 32 (fun j =>
        if ty = 0 then wrapN (max (-2 ^ 31) (min (2 ^ 31 - 1) (sextI (a' j) 32 - sextI (b' j) 32))) 32
        else if ty = 1 then a' j - b' j else wrapN ((a' j : Int) - b' j) 32) ∧
      out (.vimul x) 5 x.d x.m 32 (fun j =>
        if ty = 0 then wrapN (sextI (a' j) 32 * sextI (b' j) 32 / 2 ^ 32) 32
        else if ty = 1 then a' j * b' j / 2 ^ 32 else a' j * b' j) ∧
      out (.vimnx x) 2 x.d x.m 32 (fun j =>
        if ty = 0 then (if sextI (a' j) 32 < sextI (b' j) 32 then a' j else b' j)
        else if ty = 1 then (if sextI (a' j) 32 < sextI (b' j) 32 then b' j else a' j)
        else if ty = 2 then min (a' j) (b' j) else max (a' j) (b' j)) ∧
      (runs s u k 3 h (.vsel x) fun r => ∃ y : VReg,
        r = committed u k (fun v => v.fly k 2 (.v (t.vName x.d.toNat) y (BitVec.allOnes 64) false)) ∧
        ∀ j, j < 64 → vLane y 32 j =
          if (t.m x.m.toNat).getLsbD j then vLane (src w x.a) 32 j else vLane (src w x.b) 32 j)) ∧
    (∀ x : VShI,
      let a (j : Nat) := vLane (src 32 x.a) 32 j
      out (.vshl x) 2 x.d x.m 32 (fun j => a j * 2 ^ x.i.toNat) ∧
      out (.vshr x) 2 x.d x.m 32 (fun j => a j / 2 ^ x.i.toNat) ∧
      out (.vsar x) 2 x.d x.m 32 (fun j => wrapN (sextI (a j) 32 / 2 ^ x.i.toNat) 32)) ∧
    ∀ x : VRA,
      let w := tyWidth x.t.toNat
      let a (j : Nat) := vLane (src w x.a) w j
      let ap (major j : Nat) : Nat := approxLane major x.t.toNat (tyFmt x.t.toNat) (a j)
      out (.vmov x) 2 x.d x.m w a ∧ out (.vrcp x) 12 x.d x.m w (ap 37) ∧ out (.vrsq x) 12 x.d x.m w (ap 38) ∧
      out (.vsqrt x) 12 x.d x.m w (ap 39) ∧ out (.vexp2 x) 12 x.d x.m w (ap 40) ∧ out (.vlog2 x) 12 x.d x.m w (ap 41)

/-- R179–R182: VCMP, VMSK and VMTS: a mask result has bit i for chunk i, and lands in M(D) under M(MS); a source may be the broadcast port
of the bundle's header. -/
def Obligations.VectorMasks : Prop :=
  ∀ (s u : State) (k : Nat) (h : Header),
    let t := u.th k
    let src (code : BitVec 6) : VReg := vSource t h 32 code.toNat
    (∀ x : VRR, runs s u k 3 h (.vcmp x) fun r => ∃ y : W64,
      r = committed u k (fun v => v.fly k 2 (.m (x.d.toNat % 8) y (t.m x.m.toNat))) ∧
      ∀ i, i < 64 → y.getLsbD i = cmpLane x.t.toNat (x.d.toNat / 8) (vLane (src x.a) 32 i) (vLane (src x.b) 32 i)) ∧
    (∀ x : VRB, runs s u k 3 h (.vmsk x) fun r =>
      r = committed u k fun v => v.fly k 2 (.m (x.d.toNat % 8)
        (vmskOp (x.d.toNat / 8) (t.m x.a.toNat) (t.m x.b.toNat)) (t.m x.m.toNat))) ∧
    ∀ x : VRB, runs s u k 3 h (.vmts x) fun r =>
      let v0 := src x.a
      (x.b.toNat ≤ 3 → ∃ y : W64,
        r = committed u k (fun v => v.fly k 3 (.m (x.d.toNat % 8) y (t.m x.m.toNat))) ∧
        (x.b = 0 → ∀ i, i < 64 → y.getLsbD i = decide (i < vLane v0 32 0)) ∧
        (x.b = 1 → ∀ i, i < 64 → y.getLsbD i = v0.getLsbD (32 * i + 31)) ∧
        (x.b = 2 → ∀ i, i < 64 → y.getLsbD i = decide (vLane v0 32 i ≠ 0)) ∧
        (x.b = 3 → y = v0.setWidth 64)) ∧
      (4 ≤ x.b.toNat → ∃ y : VReg,
        r = committed u k (fun v => v.fly k 3 (.v (t.vName x.d.toNat) y (t.m x.m.toNat) false)) ∧
        (x.b = 4 → ∀ i, i < 64 → vLane y 32 i = if (t.m x.a.toNat).getLsbD i then 2 ^ 32 - 1 else 0) ∧
        (x.b = 5 → ∀ i, i < 64 → vLane y 32 i = ((List.range 64).filter fun j => (t.m x.a.toNat).getLsbD j).length))

/-- R183–R192: conversions, block scales, reductions, dot products, scans and lane movement, of registers or of the broadcast port of the
bundle's header; a conversion that rounds stochastically takes its draws and is a purity violation.  It rests on the model's readings in
notes/assumptions/107–109. -/
def Obligations.VectorWhole : Prop :=
  ∀ (s u : State) (k : Nat) (h : Header),
    let t := u.th k
    let src (w : Nat) (code : BitVec 6) : VReg := vSource t h w code.toNat
    let out (i : Instr) (lat : Nat) (d : BitVec 6) (m : W64) (y : VReg) : Prop := runs s u k 3 h i fun r =>
      r = committed u k fun v => v.fly k lat (.v (t.vName d.toNat) y m false)
    let conv (i : Instr) (d : BitVec 6) (sr : Bool) (n : Nat) (y : VReg) : Prop := runs s u k 3 h i fun r =>
      r = committed u k (fun v => v.fly k 3 (.v (t.vName d.toNat) y (BitVec.allOnes 64) false)) sr (if sr then n else 0)
    let lanes (f : Nat → Nat) : VReg := vOfLanes 32 ((List.range 64).map f)
    (∀ x : VCv,
      let w := if x.s.toNat = 1 ∨ x.s.toNat = 2 then 16 else 32
      let v := src w x.a
      conv (.vcvt x) x.d (x.r == 2) 64 (lanes fun i => cvtChunk x.s.toNat x.e.toNat x.r.toNat t.srstate i (vLane v 32 i)) ∧
      conv (.vqnt x) x.d (x.r == 2) (if x.s = 1 then 128 else 64)
        (quantize x.e.toNat x.r.toNat t.srstate
          ((lanesOf (if x.s = 1 then 16 else 32) v).map (tyFmt x.s.toNat).decode)) ∧
      (runs s u k 3 h (.vdqnt x) fun r => ∃ y : VReg, let w' := if x.e = 1 then 16 else 32
        r = committed u k (fun v => v.fly k 3 (.v (t.vName x.d.toNat) y (BitVec.allOnes 64) false)) (x.r == 2) ∧
        ∀ j, j < 2048 / w' → vLane y w' j =
          ((tyFmt x.e.toNat).conv (packedEl x.s.toNat v j) (if x.s = 5 then .rne else rmOf x.r.toNat t.srstate j)).1 % 2 ^ w')) ∧
    (∀ x : VRR,
      let ty := x.t.toNat
      let w := tyWidth ty
      let F := tyFmt ty
      let m := t.m x.m.toNat
      let on (code : BitVec 6) : List Nat := activeLanes w m (src w code)
      let n := if ty = 1 then 16 else 32
      out (.vbsc x) 3 x.d m (lanes fun i => blockChunk (x.b.toNat / 16) (blockByte (x.b.toNat % 16)
        ((activeLanes w (m &&& maskOf fun j => j / n == i / n) (src w x.a)).map F.decode))) ∧
      out (.vred x) 8 x.d m (lanes fun _ =>
        if ty = 3 then foldI (x.b.toNat - 1) (on x.a) else r32 (redF x.b.toNat ((on x.a).map F.decode))) ∧
      out (.vdot x) 8 x.d m (lanes fun i => r32 (exSum [d32 (vLane (src 32 x.d) 32 i),
        exSum (List.zipWith (fun p q => (F.decode p).mul (F.decode q)) (on x.a) (on x.b))])) ∧
      out (.vscan x) 10 x.d m (lanes fun i =>
        scanLane ty (x.b.toNat - 1) m (src 32 x.a) 0 (if x.b.toNat = 1 then i else i + 1)) ∧
      out (.vseg x) 10 x.d m (lanes fun i =>
        scanLane ty (x.b.toNat / 8) m (src 32 x.a) (segStart (t.m (x.b.toNat % 8)) i) (i + 1))) ∧
    (∀ x : VRB, out (.vperm x) 3 x.d (t.m x.m.toNat) (lanes fun i =>
      let y := vLane (src 32 x.b) 32 i
      if y.testBit 31 then 0 else vLane (src 32 x.a) 32 (y % 64))) ∧
    (∀ x : VRI,
      let q := x.i.toNat % 64
      let a (i : Nat) : Nat := vLane (src 32 x.a) 32 i
      out (.vshuf x) 3 x.d (t.m x.m.toNat) (lanes fun i => match x.i.toNat / 64 with
        | 0 => a (i ^^^ q)
        | 1 => a q
        | 2 => a i % 2 ^ 16 * 2 ^ 16 + a i / 2 ^ 16
        | _ => a (63 - i)) ∧
      out (.vrot x) 3 x.d (t.m x.m.toNat) (lanes fun i => match x.i.toNat / 64 with
        | 0 => a ((i + 64 - q) % 64)
        | 1 => if q ≤ i then a (i - q) else 0
        | _ => if i + q < 64 then a (i + q) else 0)) ∧
    ∀ x : VEx,
      out (.vext x) 3 x.d (t.m x.m.toNat) (lanes fun i =>
        if i + x.i.toNat < 64 then vLane (src 32 x.a) 32 (i + x.i.toNat) else vLane (src 32 x.d) 32 (i + x.i.toNat - 64)) ∧
      out (.vins x) 3 x.d (t.m x.m.toNat &&& BitVec.ofNat 64 (2 ^ x.i.toNat)) (lanes fun _ => vLane (src 32 x.a) 32 0)

/-! ### Matrix and accumulators (07) -/

/-- R197–R204: MMA, MMAT and MMAZ take the matrix unit for 128 cycles and their bank for 144, capture both descriptors and
the records of their handles, produce a ticket, and read group 0 at issue. -/
def Obligations.MatrixIssue : Prop :=
  ∀ (s u : State) (k : Nat) (x : Tmm), ∀ e ∈ [(Instr.mma x, 0), (.mmat x, 1), (.mmaz x, 2)], Commits s u k 5 e.1 →
    let t := u.th k
    let b := x.b.toNat
    let da : OpDesc := ⟨t.s (32 + 2 * x.p.toNat), t.s (33 + 2 * x.p.toNat)⟩
    let db : OpDesc := ⟨t.s (32 + 2 * x.q.toNat), t.s (33 + 2 * x.q.toNat)⟩
    let rc (d : OpDesc) : Option Nat := if d.rec_ then (t.h d.hx).tens else none
    let acc := if e.2 = 2 then Bank.fill 0x80000000 else t.bank b
    let run (id : Nat) : MatRun := { op := e.2, bank := b, acc, a0 := da.w0, a1 := da.w1, b0 := db.w0, b1 := db.w1,
                                     recA := rc da, recB := rc db, recs := (rc da).toList ++ (rc db).toList,
                                     issued := t.scyc, baddr := t.pc, cmd := id }
    exec e.1 s = committed u k fun v =>
      ((v.newCmd { id := 0, key := k, ctx := u.ctxOf k, pos := 5, major := e.2, baddr := t.pc, st := .running, cid := b }
          x.k.toNat).modTh k fun q =>
        let q1 := if e.2 = 2 then (q.setBank b acc).setBPsn b false else q
        ({ q1 with mats := q1.mats ++ [run v.nextId], matFree := t.scyc + 128,
                   bankFree := putK q1.bankFree b (t.scyc + 144) }).setProg b
          (progWord 0 e.2 1 (run v.nextId).groups 0)).readGroup k (run v.nextId)

/-- R203 and 02 R63: a group read that meets no poisoned line and no refused format adds, to each element of the bank, the sum
of the 16 exact products of a row of A and a row of B; MMAT exchanges the two.  R206: a group read that meets a poisoned line of either operand
reads nothing: the multiply-accumulate is abandoned, its bank's PSN flag is set, and a MATRIX stop of cause POISON becomes pending; one that
meets a line of a format its operand does not accept leaves a MATRIX stop of cause FORMAT pending, and the bank and its flag as they were.  A stop
pending at a commit parks the partition with a MATRIX record. -/
def Obligations.MatrixGroupReads : Prop :=
  (∀ (s : State) (k : Nat) (m : MatRun),
     let c := s.ctxOf k
     let cl := k / 32
     let da : OpDesc := ⟨m.a0, m.a1⟩
     let db : OpDesc := ⟨m.b0, m.b1⟩
     let g := m.next
     s.groupPoison c cl da g = none → s.groupPoison c cl db g = none →
     s.groupFormat c cl da m.recA g = false → s.groupFormat c cl db m.recB g = false →
     let t := s.readGroup k m
     let a (r : Nat) := s.runVals c cl da m.recA r g
     let b (r : Nat) := s.runVals c cl db m.recB r g
     (∀ i j, i < 64 → j < 64 → ((t.th k).bank m.bank).el i j =
       r32 ((d32 (m.acc.el i j)).add (d32 (groupSum (List.zipWith Ex.mul
         (a (if m.op = 1 then j else i)) (b (if m.op = 1 then i else j)))))) % 2 ^ 32) ∧
     (∀ n, n ≠ m.bank → (t.th k).bank n = (s.th k).bank n) ∧ t.mem = s.mem ∧ t.frames = s.frames ∧
     ∀ j, j ≠ k → t.th j = s.th j) ∧
  (∀ (s : State) (k : Nat) (m : MatRun),
     let pois (w v : W64) := s.groupPoison (s.ctxOf k) (k / 32) ⟨w, v⟩ m.next
     let bad (w v : W64) (r : Option Nat) := s.groupFormat (s.ctxOf k) (k / 32) ⟨w, v⟩ r m.next
     let t := s.readGroup k m
     ((pois m.a0 m.a1).isSome = true ∨ (pois m.b0 m.b1).isSome = true →
       (t.th k).matStop = some (m.next, 2, m.cmd) ∧ (t.th k).bBad m.bank = true ∧ (∀ n, (t.th k).bank n = (s.th k).bank n) ∧
       (∀ y ∈ (t.th k).mats, y.cmd = m.cmd → y.abandoned = true) ∧ (t.th k).flight = (s.th k).flight) ∧
     (pois m.a0 m.a1 = none → pois m.b0 m.b1 = none → bad m.a0 m.a1 m.recA = true ∨ bad m.b0 m.b1 m.recB = true →
       (t.th k).matStop = some (m.next, 1, m.cmd) ∧ (∀ n, (t.th k).bank n = (s.th k).bank n ∧ (t.th k).bBad n = (s.th k).bBad n) ∧
       (t.th k).mats = (s.th k).mats ∧ (t.th k).flight = (s.th k).flight ∧ t.mem = s.mem)) ∧
  ∀ (s : State) (k baddr g cause cmd : Nat) (m : MatRun), (s.th k).matStop = some (g, cause, cmd) →
    ((s.th k).mats.find? fun y => y.cmd == cmd) = some m →
    let t := s.afterCommit k baddr none
    ∃ r, t.recs = s.recs ++ [r] ∧ r.kind = 3 ∧ r.det0 = m.bank + 16 * g + 256 * cause ∧ r.det1 = baddr ∧ r.baddr = m.baddr ∧
      r.scyc = (s.th k).scyc ∧ (t.th k).mode = .parked ∧ (t.th k).park.reissue = false ∧ (t.th k).park.matFormat = (cause == 1) ∧
      (t.th k).pc = (s.th k).pc

/-- R210, R211, R215: the accumulator instructions: a bank cleared, read and written by row or column, scaled, copied and
transposed, its PSN flag read and cleared, its progress word read. -/
def Obligations.AccumulatorResults : Prop :=
  ∀ (s u : State) (k : Nat) (h : Header),
    let t := u.th k
    let src (code : BitVec 6) : VReg := vSource t h 32 code.toNat
    let idx (x : Tac) : Nat := ((if 128 ≤ x.i.toNat then (t.s x.y.toNat).toNat % 64 else 0) + x.i.toNat) % 64
    (∀ x : Acz, Commits s u k 5 (.acz x) →
      exec (.acz x) s = committed u k fun v => v.fly k 2 (.bank x.b.toNat [] (some false))) ∧
    (∀ x : Tac, Commits s u k 5 (.acrd x) → ∃ y : VReg,
      exec (.acrd x) s = committed u k (fun v => v.fly k 6 (.v (t.vName x.x.toNat) y (BitVec.allOnes 64) false)) ∧
      ∀ i, i < 64 → vLane y 32 i =
        if x.i.getLsbD 6 then (t.bank x.b.toNat).el i (idx x) else (t.bank x.b.toNat).el (idx x) i) ∧
    (∀ x : Tac, runs s u k 5 h (.acwr x) fun r => r = committed u k fun v => v.fly k 2
      (if x.i.getLsbD 6 then .bankCol x.b.toNat (idx x) (src x.x) else .bankRow x.b.toNat (idx x) (src x.x))) ∧
    (∀ x : Acsc, runs s u k 5 h (.acsc x) fun r => ∃ y : Bank,
      r = committed u k (fun v => v.fly k 2 (.bank x.b.toNat y none)) ∧
      ∀ i j, i < 64 → j < 64 → y.el i j = r32 ((d32 ((t.bank x.b.toNat).el i j)).mul
        (if x.i.toNat < 64 then d32 (vLane (src x.x) 32 i)
         else if x.i.toNat < 128 then d32 (vLane (src x.x) 32 j)
         else .fin false 1 (sextI x.i.toNat 6))) % 2 ^ 32) ∧
    (∀ x : Acmv, Commits s u k 5 (.acmv x) →
      (x.b = x.x → x.i = 0 → exec (.acmv x) s = committed u k id) ∧
      (¬(x.b = x.x ∧ x.i = 0) → exec (.acmv x) s = committed u k fun v => v.fly k 2 (.bank x.b.toNat
        (if x.i = 1 then (t.bank x.x.toNat).transpose else t.bank x.x.toNat) (some (t.bBad x.x.toNat))))) ∧
    (∀ x : Acps, Commits s u k 5 (.acps x) →
      (x.i = 1 → exec (.acps x) s = committed u k fun v => v.fly k 2 (.bankPsn x.b.toNat false)) ∧
      (x.i = 0 → exec (.acps x) s = committed u k fun v => v.fly k 2
        (.s x.x.toNat (if t.bBad x.b.toNat then 1 else 0) false))) ∧
    ∀ x : Mprg, Commits s u k 5 (.mprg x) →
      exec (.mprg x) s = committed u k fun v => v.fly k 2 (.s x.x.toNat (getD 0 t.prog x.b.toNat) false)

/-- R212–R214: ACLD and ACST take a place at the accumulator port and produce a ticket; through a handle, a load sends a
request for each line of its 64 rows, a store the lines it writes; at scratchpad rows both act when they complete (the model's reading,
notes/assumptions/26). -/
def Obligations.BankTransfers : Prop :=
  ∀ (s u : State) (k : Nat) (x : Tab),
    let t := u.th k
    (Commits s u k 5 (.acld x) →
      let ic := oneIC u k 5 (encWord (.acld x))
      let d := ic.xdesc x.p
      let base := if d.sp then d.w0.toNat else (ic.hnd d.w0).base + ptrOfs d.w0
      ∃ (w : State) (imp : Bool) (y : Xfer), exec (.acld x) s = committed u k (fun _ => w) imp ∧
        (w.th k).xfers = t.xfers ++ [y] ∧ y.load = true ∧ y.bank = x.b.toNat ∧ y.cmd = u.nextId ∧ y.tr = d.tr ∧ y.sp = d.sp ∧
        y.rows = (List.range 64).map (fun i => base + i * d.pitch) ∧ (w.th k).flight = t.flight ∧
        (w.th k).banks = t.banks ∧ (d.sp = true → w.reqs = u.reqs) ∧
        (d.sp = false → w.reqs.length = u.reqs.length + 64 * (d.row ic / 64)) ∧
        (x.k ≠ 0 → getD none (w.th k).ks x.k.toNat = some u.nextId)) ∧
    (Commits s u k 5 (.acst x) →
      let ic := oneIC u k 5 (encWord (.acst x))
      let d := ic.xdesc x.p
      ∃ (f : State → State) (imp : Bool),
        exec (.acst x) s = committed u k f imp (if d.rm = 2 then 4096 else 0) ∧
        ∀ v, ∃ y : Xfer, (((f v).th k).xfers = (v.th k).xfers ++ [y]) ∧ y.load = false ∧ y.bank = x.b.toNat ∧ y.sp = d.sp ∧
          ((f v).th k).banks = (v.th k).banks ∧ (d.sp = true → y.data = plainRows d t.srstate (xferCodes x ic)) ∧
          (d.sp = false → ∀ r ∈ (f v).reqs, r ∈ v.reqs ∨ r.key = 4001 ∨ r.key = k ∧ r.id ∈ y.reqs) ∧
          (x.k ≠ 0 → getD none ((f v).th k).ks x.k.toNat = some y.cmd))

/-- R92, R203, R204, R213, R214: the steps of the matrix unit and the accumulator port: results land, the due group is read, a
complete multiply-accumulate fires its ticket, and a transfer whose data is complete writes its bank and fires its ticket.  That a transfer of
scratchpad rows reads or writes them when it completes is the model's reading (notes/assumptions/26). -/
def Obligations.MatrixSteps : Prop :=
  ∀ (s : State) (k n : Nat),
    ((s.th k).mode = .running → (s.th k).dbg.stopped = false → (s.th k).frozen = false →
      exec (.resultLand k) s = .next (s.landThr k) ∧
      (∀ m, (s.th k).matDue = some m → (s.th k).matStop = none → s.matMissing k = [] →
        exec (.matrixGroupRead k) s = .next (s.readGroup k m)) ∧
      (∀ m ms, (s.th k).mats = m :: ms → m.issued + 144 ≤ (s.th k).scyc → s.clean m.cmd = true →
        ∃ t, exec (.matrixComplete k) s = .next t ∧ t.ended m.cmd = true ∧ (∀ y ∈ (t.th k).mats, y.cmd ≠ m.cmd) ∧
          t.mem = s.mem ∧ (t.th k).banks = (s.th k).banks)) ∧
    (∀ y ys, (s.th k).xfers = y :: ys → y.cmd = n → s.clean n = true → y.load = true → y.sp = false → y.got.length = 64 * (y.rowBytes / 64) →
      ∃ t, exec (.acldComplete k n) s = .next t ∧ t.ended n = true ∧
        (t.th k).bank y.bank = bankOfRows y.tr ((List.range y.got.length).flatMap fun i =>
          ((y.got.find? fun g => g.1 == i).map Prod.snd).getD []) ∧
        (t.th k).bBad y.bank = y.psn ∧ t.mem = s.mem) ∧
    (∀ y ys, (s.th k).xfers = y :: ys → y.cmd = n → s.clean n = true → y.load = false → y.sp = false →
      (∀ r ∈ s.reqs, r.id ∉ y.reqs) →
      ∃ t, exec (.acstComplete k n) s = .next t ∧ t.ended n = true ∧ (∀ z ∈ (t.th k).xfers, z.cmd ≠ n) ∧ t.mem = s.mem) ∧
    (∀ y ys, (s.th k).xfers = y :: ys → y.cmd = n → s.clean n = true → y.load = true → y.sp = true →
      s.spMissing (s.ctxOf k) (k / 32) (y.rows.map fun a => (a, y.rowBytes)) = [] →
      ∃ t, exec (.acldComplete k n) s = .next t ∧ t.ended n = true ∧
        (t.th k).bank y.bank = bankOfRows y.tr (y.rows.flatMap fun a =>
          (unpackLE (fmtBits y.fmt) 64 (ofBytes (s.spRead false (s.ctxOf k) (k / 32) a y.rowBytes))).map fun e =>
            r32 (decCode y.fmt e))) ∧
    ∀ y ys, (s.th k).xfers = y :: ys → y.cmd = n → y.load = false → y.sp = true →
      s.spMissing (s.ctxOf k) (k / 32) (y.rows.map fun a => (a, y.rowBytes)) = [] →
      exec (.acstComplete k n) s = .next (((y.rows.zip y.data).foldl (fun v r =>
        v.spWrite false (s.ctxOf k) (k / 32) r.1 k n r.2 none) s).endXfer k n)

/-! ### Engine commands and channels (08, 09, 11, 14–18) -/

/-- R217–R223: an engine command is accepted when its bundle commits: it captures its operand words, the pages its pointers
name, which enter the core's translation cache, the tickets it consumes and its place behind its issuer's requests, and binds the ticket
it produces. -/
def Obligations.EngineCommandsAccepted : Prop :=
  ∀ (s u : State) (k : Nat),
    let t := u.th k
    let wd (p : BitVec 5) (i : Nat) : W64 := t.s (2 * p.toNat + i)
    let ic := oneIC u k 6 0
    let r := u.dieOf k
    let takes (i : Instr) (kp kc : BitVec 5) (kn : BitVec 2) (m : Cmd) (imp : Bool) : Prop := Commits s u k m.pos i →
      exec i s = committed u k (fun v => ((m.caps.filter fun p => p.size != 0).foldl (fun v p => v.xFill (u.tcore k) (u.ctxOf k) p.va) v).newCmd { m with
        key := k, ctx := u.ctxOf k, baddr := t.pc, before := u.nextId, since := u.gcyc
        waits := ic.captured ((List.range kn.toNat).map fun j => (kc.toNat + j) % 32) } kp.toNat) imp
    (∀ x : Eng,
      let w0 := wd x.p 0
      let w1 := wd x.p 1
      let cp := [ic.cap w1]
      ∀ e ∈ [
        (Instr.tstep x, ({ id := 0, pos := 6, major := 6, w := [w0, w1], runner := r } : Cmd), true),
        (.tscale x, { id := 0, pos := 6, major := 7, w := [w0, w1], runner := r }, true),
        (.tread x, { id := 0, pos := 6, major := 8, w := [w0, w1], caps := cp, runner := r }, true),
        (.treadSync x, { id := 0, pos := 6, major := 8, fn := 1, w := [w0, w1], caps := cp, runner := r }, true),
        (.tcfg x, { id := 0, pos := 6, major := 9, w := [w0, w1], caps := cp, runner := r }, true),
        (.trst x, { id := 0, pos := 6, major := 10, w := [w0, w1], runner := r }, true),
        (.twait x, { id := 0, pos := 6, major := 12, w := [w0], runner := r }, false),
        (.twaitAll x, { id := 0, pos := 6, major := 12, fn := 1, w := [w0], runner := r }, false),
        (.semsAdd x, { id := 0, pos := 6, major := 13, w := [w0, w1], runner := r }, true),
        (.semsSet x, { id := 0, pos := 6, major := 13, fn := 1, w := [w0, w1], runner := r }, true),
        (.semw x, { id := 0, pos := 6, major := 14, w := [w0, w1], runner := r }, true),
        (.qinit x, { id := 0, pos := 6, major := 15, w := [w0, w1], caps := cp, runner := r }, true),
        (.qinitLoad x, { id := 0, pos := 6, major := 15, fn := 16, w := [w0, w1], caps := cp, runner := r }, true),
        (.qswap x, { id := 0, pos := 6, major := 18, fn := 2, w := [w0, w1], runner := r }, true),
        (.ruq x, { id := 0, pos := 6, major := 20, caps := cp, runner := r }, true),
        (.occr x, { id := 0, pos := 6, major := 22, w := [w0], caps := cp, runner := r }, false),
        (.occrClr x, { id := 0, pos := 6, major := 22, fn := 1, w := [w0], caps := cp, runner := r }, false),
        (.colw x, { id := 0, pos := 7, major := 7, w := [w0, w1], runner := r }, true),
        (.bariInit x, { id := 0, pos := 7, major := 12, w := [w0, w1], runner := r }, false),
        (.bariFree x, { id := 0, pos := 7, major := 12, fn := 1, w := [w0, w1], runner := r }, false)],
        takes e.1 x.k x.c x.n e.2.1 e.2.2) ∧
    (∀ x : EngI,
      let m (major fn : Nat) : Cmd :=
        { id := 0, pos := 6, major, fn, w := [wd x.p 0, wd x.p 1], caps := [ic.cap (wd x.p 1)], runner := r }
      takes (.qgate x) x.k x.c x.n (m 16 x.i.toNat) true ∧ takes (.qdiag x) x.k x.c x.n (m 17 x.i.toNat) true ∧
      takes (.qmeas x) x.k x.c x.n (m 19 x.i.toNat) true ∧ takes (.qmeasSamp x) x.k x.c x.n (m 19 (x.i.toNat + 16)) true) ∧
    (∀ x : EngR,
      let m (major : Nat) : Cmd :=
        { id := 0, pos := 7, major, fn := x.r.toNat, w := [BitVec.ofNat 64 (barName ic x.p (x.r == 1)), wd x.p 1], runner := r }
      takes (.barr x) x.k x.c x.n (m 9) true ∧ takes (.barx x) x.k x.c x.n (m 10) true ∧
      takes (.barw x) x.k x.c x.n (m 11) true) ∧
    (∀ x : EngF,
      takes (.grpf x) x.k x.c x.n { id := 0, pos := 7, major := 14, fn := x.f.toNat, w := [wd x.p 0, wd x.p 1], runner := r } false ∧
      takes (.lnks x) x.k x.c x.n { id := 0, pos := 7, major := 15, fn := x.f.toNat, caps := [ic.cap (wd x.p 1)], runner := r } true) ∧
    (∀ x : Rufl, takes (.rufl x) x.k x.c x.n
      { id := 0, pos := 6, major := 21, fn := x.f.toNat, w := [wd x.p 0, wd x.p 1], runner := r } false) ∧
    (∀ x : Kjoin, takes (.kjoin x) x.k x.c x.n { id := 0, pos := 6, major := 23, runner := r } false) ∧
    ∀ x : EngH, takes (.cwait x) x.k x.c x.n { id := 0, pos := 6, major := 4, fn := x.h.toNat, w := [wd x.p 0] } false

/-- R224–R235: a copy takes the next identifier of its channel; CSTAT reads a channel, and with EV = 3 clears its error. -/
def Obligations.CopiesAccepted : Prop :=
  ∀ (s u : State) (k : Nat),
    let t := u.th k
    (∀ x : EngH, ∀ e ∈ [(Instr.cpy x, 0, 4), (.cpyc x, 1, 4), (.cpyf x, 2, 5), (.cpyk x, 3, 5)], Commits s u k 6 e.1 →
      let ch := x.h.toNat
      let id := (t.chan ch).nextId
      let w := (List.range e.2.2).map fun i => t.s (2 * x.p.toNat + i)
      ∃ (imp : Bool) (f : State → State), exec e.1 s = committed u k f imp ∧ ∀ v, ∃ m : Cmd,
        (f v).cmds = v.cmds ++ [m] ∧ m.id = v.nextId ∧ m.key = k ∧ m.pos = 6 ∧ m.major = e.2.1 ∧ m.fn = ch ∧ m.cid = id ∧
        m.w = w ∧ m.st = .accepted ∧
        m.runner = (if isCs k then u.dieOf k * 96 + cpCore (w.getD 3 0) else k / 8) ∧
        ((f v).th k).chan ch = { (v.th k).chan ch with nextId := (id + 1) % 2 ^ 32 } ∧ ((f v).th k).flight = (v.th k).flight ∧
        (x.k ≠ 0 → getD none ((f v).th k).ks x.k.toNat = some m.id)) ∧
    ∀ x : Cstat, Commits s u k 6 (.cstat x) →
      ∃ f : State → State, exec (.cstat x) s = committed u k f ∧ ∀ v, ∃ m : Cmd,
        (f v).cmds = v.cmds ++ [m] ∧ m.due = some (t.scyc + 4) ∧
        ((f v).th k).flight = (v.th k).flight ++ [{ due := (v.th k).scyc + 4, land := (.s (2 * x.p.toNat)
          (BitVec.ofNat 64 (cstatValue x.e.toNat (t.chan x.h.toNat))) false) }] ∧
        (x.e = 3 → (((f v).th k).chan x.h.toNat).errCnt = 0 ∧ (((f v).th k).chan x.h.toNat).errId = 0)

/-- R236, R248, R249, 16 R413: TSUB takes the context's next task count, COLL the member's next collective number, COLA its
next agreement number; GRPC on a record that is FREE or in QUARANTINE restarts them.  That the collective number wraps at 2^32 is the model's
reading (notes/assumptions/53). -/
def Obligations.NumberedCommands : Prop :=
  ∀ (s u : State) (k : Nat) (x : EngF),
    let t := u.th k
    let c := u.ctxOf k
    let g := (t.s (2 * x.p.toNat)).toNat % 4096
    (Commits s u k 6 (.tsub x) →
      let n := ((u.ctx c).subcnt + 1) % 2 ^ 32
      ∃ w m, exec (.tsub x) s = committed u k (fun _ => w) ∧ w.cmds = u.cmds ++ [m] ∧ m.major = 11 ∧ m.cid = n ∧ m.id = u.nextId ∧
        (w.ctx c).subcnt = n ∧ w.tasks = u.tasks ++ [{ ctx := c, count := n, cmd := u.nextId, seq := u.nextId }] ∧
        (w.th k).flight = t.flight ++ [{ due := t.scyc + 4, land := .s (2 * x.p.toNat) (BitVec.ofNat 64 n) false }]) ∧
    (Commits s u k 7 (.coll x) → ∃ w m, exec (.coll x) s = committed u k (fun _ => w) true ∧ m ∈ w.cmds ∧
      m.id = u.nextId ∧ m.major = 6 ∧ m.fn = x.f.toNat ∧ m.cid = ((u.grp c g).colls + 1) % 2 ^ 32 ∧
      (w.grp c g).colls = ((u.grp c g).colls + 1) % 2 ^ 32 ∧ (w.th k).flight = t.flight) ∧
    (Commits s u k 7 (.cola x) → ∃ w m, exec (.cola x) s = committed u k (fun _ => w) true ∧ m ∈ w.cmds ∧
      m.id = u.nextId ∧ m.major = 8 ∧ m.cid = (u.grp c g).colas + 1 ∧ (w.grp c g).colas = (u.grp c g).colas + 1 ∧
      (w.th k).flight = t.flight) ∧
    (Commits s u k 7 (.grpc x) → ∃ w m, exec (.grpc x) s = committed u k (fun _ => w) ∧ m ∈ w.cmds ∧
      m.id = u.nextId ∧ m.major = 13 ∧ (w.th k).flight = t.flight ∧
      ((u.stallEnd k).grpOk c g = true → ((u.stallEnd k).grpState c g = 0 ∨ (u.stallEnd k).grpState c g = 4) →
        (w.grp c g).colls = 0 ∧ (w.grp c g).colas = 0))

/-- R244–R246, 14 R390–R394: SEND to a partition of this package uses a credit and puts its element on the way; RECV and
RECVADD take the oldest element out of the queue, deliver it, or its sum with V, at +4, and return its credit; CHST reports the channel at +4; CHOPN and CHCL are accepted, a close mark
being queued in the cycle of its CHCL. -/
def Obligations.ChannelInstructions : Prop :=
  ∀ (s u : State) (k : Nat),
    let t := u.th k
    let c := u.ctxOf k
    (∀ x : Chn, let q := u.getChan c x.h.toNat
      (Commits s u k 7 (.send x) → q.st = .opened ∧ q.remS = false ∧ q.snd = k ∧
        (q.remR = false → ∃ w m, exec (.send x) s = committed u k (fun _ => w) true ∧ w.cmds = u.cmds ++ [m] ∧ m.major = 0 ∧
          (w.getChan c x.h.toNat).usable = q.usable - 1 ∧ (w.getChan c x.h.toNat).sent = (q.sent + 1) % 2 ^ 32 ∧
          (w.getChan c x.h.toNat).transit = q.transit ++ [(some (sendBytes (oneIC u k 7 (encWord (.send x))) q x.v.toNat), u.nextId, false)])) ∧
      (∀ e ∈ [(Instr.recv x, false), (.recvadd x, true)], Commits s u k 7 e.1 → q.rcv = k ∧ ∃ w m y bad,
        exec e.1 s = committed u k (fun _ => w) true ∧ m ∈ w.cmds ∧ m.id = u.nextId ∧ m.due = some (t.scyc + 4) ∧
        (w.th k).flight = t.flight ++ [{ due := t.scyc + 4, land := .v (t.vName x.v.toNat) y (BitVec.allOnes 64) bad }] ∧
        (e.2 = false → y.toNat = ofBytes (u.headElement q).1 % 2 ^ 2048) ∧ (bad = !(u.headElement q).2.isEmpty) ∧
        (let old := (vSource t (Header.one 7) 32 x.v.toNat).toNat
         let b := fmtBits q.fmt
         e.2 = true → q.count * b % 8 = 0 → q.count * b ≤ 2048 → y.toNat / 2 ^ (q.count * b) = old / 2 ^ (q.count * b) ∧
           ∀ i, i < q.count → laneN y.toNat b i = (let d := laneN (ofBytes (u.headElement q).1) b i
             if q.fmt = 8 then laneN old b i + d
             else (convert ((decCode q.fmt (laneN old b i)).add (decCode q.fmt d)) q.fmt .rne 0).1) % 2 ^ b) ∧
        let r := w.getChan c x.h.toNat
        r.stand = q.stand.drop 1 ∧ r.recv = (q.recv + 1) % 2 ^ 32 ∧ (q.remS = false → r.back = q.back + 1) ∧
        (q.remS = true → q.pkg ∉ u.fab.unrch → (u.routeWord q.pkg).getLsbD 0 = true →
          ∃ p ∈ w.fab.sent, p.dst = q.pkg ∧ p.body = .credit q.peerTen q.peerCh)) ∧
      (Commits s u k 7 (.chst x) → ∃ w m, exec (.chst x) s = committed u k (fun _ => w) true ∧ w.cmds = u.cmds ++ [m] ∧
        m.due = some (t.scyc + 4) ∧ (w.th k).flight = t.flight ++ [{ due := t.scyc + 4, land := (.s x.v.toNat
          (BitVec.ofNat 64 (chstValue q k)) false) }]) ∧
      (Commits s u k 7 (.chopn x) → ∃ w m, exec (.chopn x) s = committed u k (fun _ => w) true ∧ w.cmds = u.cmds ++ [m] ∧
        m.major = 4 ∧ m.fn = x.h.toNat ∧ m.st = .accepted ∧ (x.v = 0 → m.caps = []))) ∧
    ∀ x : Chcl, Commits s u k 7 (.chcl x) → ∃ w m, exec (.chcl x) s = committed u k (fun _ => w) true ∧
      w.cmds = u.cmds ++ [m] ∧ m.major = 5 ∧ m.id = u.nextId ∧
      (w.getChan c x.h.toNat).closing = (u.getChan c x.h.toNat).closing ++ [u.nextId]

/-! ### Where accesses perform (05, 10) -/

/-- R93, R149, R162: one piece of a load that may be read now is read: the byte runs of its pieces in no fixed order.  With its last
piece the value takes the place of the waiting landing entry, sign- or zero-extended as its access type says where it goes to a
scalar register, and the request is gone; memory is as it was.  So for the line of a converting load, for a tag, and for a line of
a bank. -/
def Obligations.LoadDataArrives : Prop :=
  ∀ (s : State) (id : Nat) (r : Req), s.req? id = some r →
    let lands (t : State) (l : Land) : Prop := (t.th r.key).flight = (s.th r.key).flight.map (fun f =>
      if f.land = .wait id then { f with land := l } else f) ∧ (∀ q, q ≠ r.key → t.th q = s.th q) ∧ t.req? id = none ∧ t.frames = s.frames
    let sound (pa : Nat) : Prop := s.violates (s.firmware (s.reqIssuer r)) pa = false ∧ tagPsn (s.tag pa) = false
    (s.mayPerform r = false → exec (.loadDataArrive id) s = .next s) ∧
    (s.mayPerform r = true → r.id = id →
      (∀ off pa n psn d vec ty mask, r.kind = .load [(off, pa, n)] [] psn d vec ty mask → r.key < 8192 → sound pa →
        ∃ t, exec (.loadDataArrive id) s = .next t ∧ t.mem = s.mem ∧ lands t (if vec then .v d (placed [(off, s.physBytes pa n)]) mask psn
          else .s d (atExtend ty (ofBytes (s.physBytes pa n))) psn)) ∧
      (∀ pieces got psn d vec ty mask, r.kind = .load pieces got psn d vec ty mask → got.length < pieces.length →
        (∀ g ∈ got, g.1 < pieces.length) → (∀ p ∈ pieces, sound p.2.1) →
        ∃ t i, exec (.loadDataArrive id) s = .next t ∧ i < pieces.length ∧ i ∉ got.map Prod.fst ∧ t.mem = s.mem ∧
          let p := pieces.getD i (0, 0, 0)
          let all := got ++ [(i, s.physBytes p.2.1 p.2.2)]
          (got.length + 1 < pieces.length → t.req? id = some { r with kind := .load pieces all psn d vec ty mask } ∧ t.thr = s.thr) ∧
          (got.length + 1 = pieces.length → vec = true → r.key < 8192 →
            lands t (.v d (placed (all.map fun g => ((pieces.getD g.1 (0, 0, 0)).1, g.2))) mask psn))) ∧
      (∀ pa tens d, r.kind = .ltag pa tens d → r.key < 8192 → s.violates (s.firmware (s.reqIssuer r)) pa = false →
        ∃ t, exec (.loadDataArrive id) s = .next t ∧ t.mem = s.mem ∧ lands t (.s d (BitVec.ofNat 64 ((s.tag pa).toNat + match tens with
          | none => 0
          | some i => 16 + 32 * i)) false)) ∧
      (∀ line tens base size psn d, r.kind = .conv line 1 tens base size [] psn d → r.key < 8192 → sound line →
        (∀ a, s.scaleLine r.ctx tens base size line = some a → sound a) →
        ∃ t, exec (.loadDataArrive id) s = .next t ∧ t.mem = s.mem ∧ lands t (.v d (vOfLanes (if s.recGeo r.ctx tens = 3 then 16 else 32)
          (s.convLanes r.ctx tens base size line)) (BitVec.allOnes 64) psn)) ∧
      (∀ x i pa fmt, r.kind = .acld x i pa fmt none → sound pa → ∃ t, exec (.loadDataArrive id) s = .next t ∧ t.mem = s.mem ∧
        t.req? id = none ∧ (t.th r.key).xfers = (s.th r.key).xfers.map fun y =>
          if y.cmd = x then { y with got := y.got ++ [(i, s.acldLanes r.ctx pa fmt none)] } else y))

/-- R163, 10 R291: a store that performs at an HBM line which is neither protected nor poisoned writes exactly its bytes, and the
line takes the store's version and a clear poison flag; where a tensor record counts the line's new version, its core's delta has room for
it.  R163: a store of less than 64 bytes to a poisoned line is dropped: the line keeps its tag and its bytes. -/
def Obligations.StorePerforms : Prop :=
  (∀ (s : State) (id pa : Nat) (bs : List Byte) (ver : Option Nat) (r : Req) (bound : Option (Nat × Nat × Nat)),
     s.req? id = some r → s.mayPerform r = true → s.hostOrder r = true → s.clear r = true →
     r.kind = .store pa bs ver false bound → pa % 64 + bs.length ≤ 64 →
     physClass pa = .hbm → s.protectedKind pa = none → tagPsn (s.tag pa) = false → r.key ≠ 4001 →
     (∀ i b n, bound = some (i, b, n) → ver.getD (tagVer (s.tag pa)) = tagVer (s.tag pa) ∨ s.deltaRoom (s.reqCore r) r.ctx i) →
     ∃ t, exec (.homeWritePerform id) s = .next t ∧
       (∀ i, i < bs.length → rdByte t.mem (pa + i) = bs.getD i 0) ∧
       (∀ a, a < pa ∨ pa + bs.length ≤ a → rdByte t.mem a = rdByte s.mem a) ∧
       t.tag pa = mkTag false (ver.getD (tagVer (s.tag pa))) ∧ (∀ q ∈ t.reqs, q.id ≠ id) ∧ t.frames = s.frames) ∧
  (∀ (s : State) (r : Req) (pa : Nat) (bs : List Byte) (ver : Option Nat) (bound : Option (Nat × Nat × Nat)),
     physClass pa = .hbm → s.protectedKind pa = none → tagPsn (s.tag pa) = true → bs.length ≠ 64 → r.key ≠ 4001 →
     s.performStore r pa bs ver false bound = s.log r.ctx 3 pa (s.reqAgent r))

/-- R154, R155, 10 R293: an atomic performs at its home as one read and one write: the new value of Table 5-8 is stored and the
old one returned. -/
def Obligations.AtomicPerforms : Prop :=
  ∀ (s : State) (id pa : Nat) (r : Req) (op : AtomicOp) (ty : Nat) (b c : W64) (d o sc : Nat),
    s.req? id = some r → s.mayPerform r = true → s.hostOrder r = true → s.clear r = true → r.key < 1048576 →
    r.key ≠ 4000 → r.kind = .atomic op ty pa b c (some d) o sc → ty ≤ 4 → pa % atWidth ty = 0 →
    physClass pa = .hbm → s.protectedKind pa = none → tagPsn (s.tag pa) = false →
    let n := atWidth ty
    let old := ofBytes (rdBytes s.mem pa n)
    let new_ := atomicNew op ty (8 * n) old (b.toNat % 2 ^ (8 * n)) (c.toNat % 2 ^ (8 * n))
    ∃ t, exec (.atomicAtHome id) s = .next t ∧
      (op ≠ .ld → ofBytes (rdBytes t.mem pa n) = new_ % 2 ^ (8 * n)) ∧
      (∀ a, a < pa ∨ pa + n ≤ a → rdByte t.mem a = rdByte s.mem a) ∧
      (t.th r.key).flight.length = (s.th r.key).flight.length ∧
      (∀ f ∈ (s.th r.key).flight, f.land = .wait id → { f with land := .s d (atExtend ty old) false } ∈ (t.th r.key).flight)

/-- 10 R289, R290: the permissions of L1 lines: a load miss that a request of the core makes brings the line in, exclusively where
no other holds it; a store makes every other copy leave; an eviction and the loss of a directory entry drop copies.  None of
them changes a byte of memory.  11 R334: a line that a reuse unit watches takes no exclusive copy. -/
def Obligations.CacheStates : Prop :=
  ∀ (s : State) (core line : Nat), core < 384 → physClass (line * 64) = .hbm →
    (∀ r, s.wants core line false = some r → s.l1State core line = .i → ∃ t, exec (.l1LoadMiss core line) s = .next t ∧
      t.l1State core line = (if s.heldElsewhere core line || s.watched line then .s else .e) ∧ t.mem = s.mem) ∧
    (∀ r, s.wants core line true = some r → s.watched line = false → s.l1State core line = .i →
      ∃ t, exec (.l1StoreMiss core line) s = .next t ∧ t.l1State core line = .m ∧
        (∀ e ∈ t.l1, e.2.1 = line → e.1 = core) ∧ (∀ e ∈ t.hostLines, e.1 ≠ line) ∧ t.mem = s.mem) ∧
    (∀ r, s.wants core line true = some r → s.watched line = false → s.l1State core line ≠ .i →
      ∃ t, exec (.l1Upgrade core line) s = .next t ∧ t.l1State core line = .m ∧
        (s.l1State core line = .s ∨ s.l1State core line = .o → ∀ e ∈ t.l1, e.2.1 = line → e.1 = core) ∧ t.mem = s.mem) ∧
    (s.watched line = true → exec (.l1StoreMiss core line) s = .next s ∧ exec (.l1Upgrade core line) s = .next s) ∧
    (∃ t, exec (.l1Eviction core line) s = .next t ∧ t.l1State core line = .i ∧ t.mem = s.mem ∧ t.tags = s.tags) ∧
    ∃ t, exec (.directoryEntryEvict line) s = .next t ∧ (∀ e ∈ t.l1, e.2.1 ≠ line) ∧ (∀ e ∈ t.hostLines, e.1 ≠ line) ∧
      t.mem = s.mem

/-- 10 R295, R296, 05 R162, 07 R211: a corrected error is counted; an uncorrectable one poisons its line, of HBM, the host window or a
frame, whose bytes stay, and writes the next entry of the firmware error log, or counts one lost where the log is full (12 R348, Table
12-13); in a register, a bank or a landing entry of an issuer it sets the poison flag and no value.  It rests on the model's readings in
notes/assumptions/117. -/
def Obligations.MemoryErrors : Prop :=
  ∀ (s : State) (l die k n : Nat),
    let rest (t : State) : Prop := (∀ j, j ≠ k → t.th j = s.th j) ∧ t.mem = s.mem ∧ t.frames = s.frames ∧ (t.th k).pc = (s.th k).pc
    (die < 4 → ∃ t, exec (.correctableError die) s = .next t ∧ getD 0 t.corrected die = getD 0 s.corrected die + 1 ∧
      t.mem = s.mem ∧ t.tags = s.tags) ∧
    (l * 64 < 0x9000000000 ∨ physClass (l * 64) = .host → ∃ t, exec (.uncorrectableError (.line l)) s = .next t ∧
      tagPsn (t.tag (l * 64)) = true ∧ tagVer (t.tag (l * 64)) = tagVer (s.tag (l * 64)) ∧ (s.sys.fwlcnt = 0 → t.mem = s.mem) ∧
      let cnt := s.sys.fwlcnt.toNat
      let base := fld s.sys.fwlbase 49 12 * 4096
      let tail := s.rd64 base
      let entry := base + 0x40 + 32 * (tail % cnt)
      (cnt ≠ 0 → physClass base = .hbm → s.calm (base / 64) 0 = true →
        (tail < s.rd64 (base + 8) + cnt → s.calm (entry / 64) 0 = true → rdBytes t.mem entry 32 =
          [(tail + 1) % 2 ^ 32 * 2 ^ 32 + 1, l * 64, s.gcyc, homeSlice (l * 64) + 2 * 2 ^ 12].flatMap (bytesOf 8) ∧
          t.rd64 base = (tail + 1) % 2 ^ 64) ∧
        (s.rd64 (base + 8) + cnt ≤ tail → t.rd64 (base + 16) = (s.rd64 (base + 16) + 1) % 2 ^ 64 ∧ t.rd64 base = tail))) ∧
    (l < 2359296 → ∃ t, exec (.uncorrectableError (.frame l)) s = .next t ∧ tagPsn (t.ftag (l * 64)) = true ∧ t.frames = s.frames) ∧
    ((∃ e ∈ s.thr, e.1 = k) →
      (n ≠ 0 → n < 64 → ∃ t, exec (.uncorrectableError (.sreg k n)) s = .next t ∧ rest t ∧ (t.th k).sBad n = true ∧
        (∀ j, (t.th k).s j = (s.th k).s j) ∧ ∀ j, j ≠ n → (t.th k).sBad j = (s.th k).sBad j) ∧
      (n < 60 → ∃ t, exec (.uncorrectableError (.vreg k n)) s = .next t ∧ rest t ∧ (t.th k).vBadP n = true ∧
        (∀ j, (t.th k).vPhys j = (s.th k).vPhys j) ∧ ∀ j, j ≠ n → (t.th k).vBadP j = (s.th k).vBadP j) ∧
      (n < 4 → ∃ t, exec (.uncorrectableError (.bank k n)) s = .next t ∧ rest t ∧ (t.th k).bBad n = true ∧
        (∀ j, (t.th k).bank j = (s.th k).bank j) ∧ ∀ j, j ≠ n → (t.th k).bBad j = (s.th k).bBad j) ∧
      ∀ f, (s.th k).flight[n]? = some f → f.entry = true → ∃ t, exec (.uncorrectableError (.landing k n)) s = .next t ∧ rest t ∧
        (∀ d v p, f.land = .s d v p → (t.th k).flight[n]? = some { f with land := .s d v true }) ∧
        (∀ d v x p, f.land = .v d v x p → (t.th k).flight[n]? = some { f with land := .v d v x true }) ∧
        ∀ j, j ≠ n → (t.th k).flight[j]? = (s.th k).flight[j]?)

/-- 17 R445, 10 R286, R292, R296: the host's accesses over a link that is up: a write to memory of the package and a read of it, and a
dropped write to a poisoned line of its own window; a link that is not up carries nothing; below I0 an access waits while the package leaves its idle level (20 R489); an access beyond the physical space of 10 R285 is the one stop of the model.  It rests on the model's readings in
notes/assumptions/68, 83 and 97. -/
def Obligations.HostAccesses : Prop :=
  ∀ (s : State) (addr : Nat) (bs : List Byte) (len : Nat) (op : AtomicOp) (ty : BitVec 3) (b c : W64),
    let up := (s.link 24).st = 3
    let calm := s.sys.idle = 0 ∧ s.entryDue = false
    (2 ^ 50 < addr + bs.length → exec (.hostWrite addr bs) s = .fault .outsidePhysicalSpace) ∧
    (2 ^ 50 < addr + len → exec (.hostRead addr len) s = .fault .outsidePhysicalSpace) ∧
    (2 ^ 50 < addr + 8 → exec (.hostAtomic op addr ty b c) s = .fault .outsidePhysicalSpace) ∧
    (¬up → addr + bs.length ≤ 2 ^ 50 → exec (.hostWrite addr bs) s = .next s) ∧
    (¬up → addr + len ≤ 2 ^ 50 → exec (.hostRead addr len) s = .next s) ∧
    (¬up → addr + 8 ≤ 2 ^ 50 → exec (.hostAtomic op addr ty b c) s = .next s) ∧
    (up → s.sys.idle ≠ 0 →
      let waits (i : Instr) (a : Asked) : Prop := ∃ t, exec i s = .next t ∧ t.sys.asked = s.sys.asked ++ [a] ∧ t.sys.idleTo.isSome = true ∧
        t.mem = s.mem ∧ t.thr = s.thr
      (addr + bs.length ≤ 2 ^ 50 → waits (.hostWrite addr bs) (.write addr bs)) ∧
      (addr + len ≤ 2 ^ 50 → waits (.hostRead addr len) (.read addr len)) ∧
      (addr + 8 ≤ 2 ^ 50 → waits (.hostAtomic op addr ty b c) (.atomic op addr ty b c))) ∧
    (up → calm → addr + bs.length ≤ 2 ^ 50 →
      (exec (.hostWrite addr bs) s =
        .next ((splitLines addr bs.length).foldl (fun u e => u.hostPut (addr + e.1) ((bs.drop e.1).take e.2)) s)) ∧
      (physClass addr = .host → addr % 64 + bs.length ≤ 64 → bs ≠ [] →
        (tagPsn (s.tag addr) = false ∨ bs.length = 64 → ∃ t, exec (.hostWrite addr bs) s = .next t ∧
          (∀ i, i < bs.length → rdByte t.mem (addr + i) = bs.getD i 0) ∧ tagPsn (t.tag addr) = false) ∧
        (tagPsn (s.tag addr) = true → bs.length ≠ 64 →
          exec (.hostWrite addr bs) s = .next (s.logFw 3 addr (agentField 0 2 false)))) ∧
      let w : Req := { id := s.nextId, key := 4000, acc := s.nextId, ctx := 64, tracked := false, kind := .store addr bs none false none }
      let s1 : State := { s with nextId := s.nextId + 1, reqs := s.reqs ++ [w] }
      (physClass addr = .hbm → addr % 64 + bs.length ≤ 64 → bs ≠ [] → s.sys.recovery = false →
        ((∃ q ∈ s.reqs, q.key = 4000 ∧ q.id < s.nextId) ∨ s1.clear w = false → exec (.hostWrite addr bs) s = .next s1) ∧
        ((∀ q ∈ s.reqs, q.key ≠ 4000) → s1.clear w = true → s.violates (s.firmware 4000) addr = false → s.protectedKind addr = none →
          tagPsn (s.tag addr) = false → ∃ t, exec (.hostWrite addr bs) s = .next t ∧
            (∀ i, i < bs.length → rdByte t.mem (addr + i) = bs.getD i 0) ∧
            (∀ a, a < addr ∨ addr + bs.length ≤ a → rdByte t.mem a = rdByte s.mem a) ∧
            tagVer (t.tag addr) = tagVer (s.tag addr) ∧ ∀ q ∈ t.reqs, q ∈ s.reqs))) ∧
    (up → calm → addr + len ≤ 2 ^ 50 →
      (∃ t, exec (.hostRead addr len) s = .next t ∧ t.sys.lastRead.length = len ∧ (t.link 24).st = 3) ∧
      (physClass addr = .hbm ∨ physClass addr = .host → (s.sys.recovery = false ∨ physClass addr = .host) → 0 < len →
        addr % 64 + len ≤ 64 → ∃ t, exec (.hostRead addr len) s = .next t ∧ t.sys.lastRead = rdBytes s.mem addr len ∧ t.mem = s.mem)) ∧
    (up → calm → addr + 8 ≤ 2 ^ 50 →
      let r : Req := { id := s.nextId, key := 4000, acc := s.nextId, ctx := 64, tracked := false, kind := .atomic op ty.toNat addr b c none 0 5 }
      let s1 : State := { s with nextId := s.nextId + 1, reqs := s.reqs ++ [r] }
      (addr % atWidth ty.toNat ≠ 0 ∨ s.sys.recovery = true ∨ physClass addr ≠ .hbm →
        ∃ t, exec (.hostAtomic op addr ty b c) s = .next t ∧ t.mem = s.mem ∧ t.reqs = s.reqs) ∧
      (s.sys.recovery = false → physClass addr = .hbm → addr % atWidth ty.toNat = 0 →
        ((∃ q ∈ s.reqs, q.key = 4000 ∧ q.id < s.nextId) ∨ s1.clear r = false →
          ∃ t, exec (.hostAtomic op addr ty b c) s = .next t ∧ t.reqs = s.reqs ++ [r] ∧ t.mem = s.mem) ∧
        ((∀ q ∈ s.reqs, q.key ≠ 4000) → s1.clear r = true →
          ∃ t, exec (.hostAtomic op addr ty b c) s = .next t ∧ t.sys.lastRead = rdBytes s.mem addr (atWidth ty.toNat))))

/-! ### Pages (13) -/

/-- R137, R370, R371: a walk ends: the handle becomes VALID with what the leaf entry gives, or FAILED; a core that applies an
invalidation drops the translations that went through the line, and its VALID handles whose translation did become REVOKED. -/
def Obligations.TranslationSteps : Prop :=
  ∀ (s : State) (k h core line req : Nat),
    (((s.th k).h h).st = .pending → h < 32 → s.shooting (s.tcore k) (s.ctxOf k) ((s.th k).h h).va = false →
      (s.walk (s.ctxOf k) (!isCs k) ((s.th k).h h).va = none →
        ∃ t, exec (.translationWalkDone k h) s = .next t ∧ (t.th k).h h = { (s.th k).h h with st := .failed }) ∧
      (∀ l, s.walk (s.ctxOf k) (!isCs k) ((s.th k).h h).va = some l →
        ∃ t, exec (.translationWalkDone k h) s = .next t ∧ (t.th k).h h =
          { st := .valid, va := ((s.th k).h h).va, base := l.base, size := l.size, wr := l.wr, cow := l.cow, tens := l.tens } ∧
          (l.tens = none → t.mem = s.mem) ∧ ∀ i, l.tens = some i → (s.tcore k, s.ctxOf k, i) ∈ t.cached)) ∧
    ((∃ r ∈ s.reqs, s.changes r = some line ∧ s.inOrder r = true ∧ (r.id, core) ∉ s.shootDone) →
      ∃ t r, exec (.pageTableWrite core line) s = .next t ∧ r ∈ s.reqs ∧ s.changes r = some line ∧ s.inOrder r = true ∧
        (r.id, core) ∉ s.shootDone ∧ (r.id, core) ∈ t.shootDone ∧ (r.id, line) ∈ t.shoot ∧
        (∀ e ∈ t.xcache, ¬(e.1 = core ∧ e.2.2.2 = line)) ∧ t.mem = s.mem ∧
        ∀ j i, let h := (s.th j).h i
          let hit := (s.th j).live = true ∧ s.tcore j = core ∧ h.st = .valid ∧ s.passes (s.ctxOf j) h.va line = true
          (hit → (t.th j).h i = { h with st := .revoked }) ∧ (¬hit → (t.th j).h i = h)) ∧
    (∀ r, s.req? req = some r → (req, line) ∈ s.shoot → (∀ e ∈ s.shoot, e.1 = req → e.2 = line) → s.inOrder r = true →
      s.lineReached line req r.key = false → s.sptHeld r = [] → exec (.shootdownComplete req) s = .next (s.performEntry r)) ∧
    (∀ r, s.req? req = some r → s.inOrder r = true → s.sptChanged r ≠ [] → s.sptHeld r = [] → s.clear r = true →
      exec (.sptEntryWrite req) s = .next (s.performEntry r)) ∧
    (∀ r, s.req? req = some r → s.inOrder r = true → s.sptChanged r ≠ [] → s.sptHeld r ≠ [] →
      exec (.sptEntryWrite req) s = .next ((s.sptHeld r).foldl (fun v p => v.sptOut p.1 p.2) s))

/-- R378, R382: a page-in fills its frame with the backing block, or with zeros for a page never written, and the page becomes
resident; a page-out writes its dirty lines back, each with its tag, and frees the frame; a stay of 2,048 cycles ends for a waiting cluster; what
stands in the bounce buffer goes into the frame of a resident page, or into the backing block of an absent one.  Where a line of the block
waits for a shootdown, the move waits.  That moves complete with bounce lines unmerged, and that a merge into the block sets WRITTEN, are the
model's readings (notes/assumptions/72). -/
def Obligations.PagerSteps : Prop :=
  ∀ (s : State) (c n cl f back : Nat) (zf : Bool),
    let p := s.spPage c n
    let fb := (cl * 768 + f) * 2048
    spEntryOf p.entry = some (back, zf) →
    (s.blockWaits back = true → (p.res = .pin cl f → exec (.pageInComplete c n) s = .next s) ∧
      (p.res = .pout cl f → exec (.pageOutComplete c n) s = .next s)) ∧
    (p.res = .pin cl f → s.blockWaits back = false → ∃ t, exec (.pageInComplete c n) s = .next t ∧ (t.spPage c n).res = .res cl f ∧
      (t.spPage c n).dirty = 0 ∧ (t.spPage c n).since = s.gcyc ∧ t.mem = s.mem ∧
      (∀ i, i < 2048 → rdByte t.frames (fb + i) = if p.written then rdByte s.mem (back + i) else 0) ∧
      ∀ a, a < fb ∨ fb + 2048 ≤ a → rdByte t.frames a = rdByte s.frames a) ∧
    (p.res = .pout cl f → p.reqs = [] → s.blockWaits back = false →
      let line (i : Nat) (v : State) : State := v.agentWrite c (back + 64 * i) (rdBytes v.frames (fb + 64 * i) 64) (some (v.ftag (fb + 64 * i)))
      (∀ i, i < 32 → p.dirty.getLsbD i = true →
        let v := forN i s fun i v => if p.dirty.getLsbD i then line i v else v
        let pa := back + 64 * i
        v.protectedKind pa = none ∧ v.violates false pa = false ∧ v.still 0 pa (rdBytes s.frames (fb + 64 * i) 64) = true) →
      ∃ t, exec (.pageOutComplete c n) s = .next t ∧ (t.spPage c n).res = .absent ∧
      (t.spPage c n).written = true ∧ (t.spPage c n).dirty = 0 ∧ t.frames = s.frames ∧
      (∀ i, i < 32 → p.dirty.getLsbD i = true → t.tag (back + 64 * i) = s.ftag (fb + 64 * i) ∧ ∀ j, j < 64 →
        rdByte t.mem (back + 64 * i + j) = rdByte s.frames (fb + 64 * i + j)) ∧
      ∀ a, a < back ∨ back + 2048 ≤ a → rdByte t.mem a = rdByte s.mem a) ∧
    (p.res = .res cl f → p.reqs ≠ [] → p.since + 2048 ≤ s.gcyc → s.pinned cl (pageKey c n) p = false → s.bounced c n = false →
      exec (.residencyStayExpire c n) s = .next (s.spDepart c n)) ∧
    (p.res = .res cl f → (∃ b ∈ s.bounce, b.ctx = c ∧ b.addr / 2048 = n) →
      ∃ t, exec (.bounceMerge c n) s = .next t ∧ ∀ b ∈ t.bounce, ¬(b.ctx = c ∧ b.addr / 2048 = n)) ∧
    (p.res = .absent → (∃ b ∈ s.bounce, b.ctx = c ∧ b.addr / 2048 = n) → ∃ t, exec (.bounceMerge c n) s = .next t ∧
      (∀ b ∈ t.bounce, ¬(b.ctx = c ∧ b.addr / 2048 = n)) ∧ (t.spPage c n).written = true ∧ t.frames = s.frames)

/-- 01 R34: a core with no task and no page in its frames is gated, and what its caches held is gone; it is powered up again.  It rests on the model's readings in
notes/assumptions/74; that copies of its engine do not keep it from being gated is its choice (notes/assumptions/98). -/
def Obligations.CorePower : Prop :=
  ∀ (s : State) (core : Nat),
    (core < 384 → core ∉ s.gated → (∀ i, i < 8 → (s.th (core * 8 + i)).task = none) → s.corePages core = [] →
      ∃ t, exec (.coreGate core) s = .next t ∧ core ∈ t.gated ∧ (∀ d ∈ t.deltas, d.core ≠ core) ∧
        (∀ e ∈ t.icache, e.1 ≠ core) ∧ (∀ e ∈ t.l1, e.1 ≠ core) ∧ (∀ e ∈ t.xcache, e.1 ≠ core) ∧ ∀ e ∈ t.spCache, e.1 ≠ core) ∧
    (core < 384 → core ∉ s.gated → (∃ i, i < 8 ∧ (s.th (core * 8 + i)).task.isSome = true) →
      exec (.coreGate core) s = .next (((List.range 8).map fun i => core * 8 + i).foldl State.stopToSave s)) ∧
    ∃ t, exec (.corePowerUp core) s = .next t ∧ core ∉ t.gated ∧ t.mem = s.mem ∧ ∀ k, t.th k = s.th k

/-! ### Power, reset, security (17 R447, 20) -/

/-- R488, R489, 17 R447: after 2^16 idle cycles the package enters the next deeper level that the host tolerates; an exit takes it
to I0 once its latency has passed, and what came meanwhile is served in its order; a message that no longer tolerates the level starts the exit.  R490: a sample of power at least 18,000 cycles after the last moves the throttle's fraction by one: up where the mean of at
most 100 samples has reached 98 % of PLIM, down where it is under 95 %.  It rests on the model's readings in
notes/assumptions/68 (the order in which what waits is served), 81 and 91. -/
def Obligations.IdleAndThrottle : Prop :=
  (∀ (s : State) (v : BitVec 16),
     (s.quiet = true → 2 ^ 16 ≤ s.sys.idleFor → s.sys.idleTo = none → s.sys.idle < 4 → tolerated s.sys.hltol (s.sys.idle + 1) = true →
       exec .idleEntry s = .next { s with sys := { s.sys with idle := s.sys.idle + 1 } }) ∧
     (s.sys.idle ≠ 0 → s.sys.idleTo = none →
       ∃ t g, exec .idleExit s = .next t ∧ t.sys.idleTo = some g ∧ s.gcyc ≤ g ∧ t.mem = s.mem ∧ t.thr = s.thr) ∧
     (∀ g, s.sys.idleTo = some g →
       (s.gcyc < g → exec .idleExitComplete s = .next s) ∧
       (g ≤ s.gcyc → exec .idleExitComplete s =
         .next (s.sys.asked.foldl State.serve { s with sys := { s.sys with idle := 0, idleFor := 0, idleTo := none, asked := [] } })) ∧
       (g ≤ s.gcyc → s.sys.asked = [] → exec .idleExitComplete s =
         .next { s with sys := { s.sys with idle := 0, idleFor := 0, idleTo := none, asked := [] } })) ∧
     ((s.link 24).st ≠ 3 ∨ s.sys.recovery = true → exec (.hltolMessage v) s = .next s) ∧
     ((s.link 24).st = 3 → s.sys.recovery = false → s.entryDue = false → ∃ t, exec (.hltolMessage v) s = .next t ∧ t.sys.hltol = v.toNat ∧ t.sys.idle = s.sys.idle ∧
       t.mem = s.mem ∧ t.thr = s.thr ∧
       (tolerated v.toNat s.sys.idle = true → t = { s with sys := { s.sys with hltol := v.toNat } }) ∧
       (tolerated v.toNat s.sys.idle = false → t.sys.idleTo.isSome = true))) ∧
  (∀ (s : State) (p : Nat), s.sys.sampled + 18000 ≤ s.gcyc →
     let l := (p :: s.sys.samples).take 100
     let lim := s.sys.plim.toNat * l.length
     ∃ t, exec (.throttleAdjust p) s = .next t ∧ t.sys.meanw = l.sum / l.length ∧ t.sys.samples = l ∧ t.sys.sampled = s.gcyc ∧
       t.sys.frac = (if 98 * lim ≤ 100 * l.sum then min 63 (s.sys.frac + 1)
         else if 100 * l.sum < 95 * lim then s.sys.frac - 1 else s.sys.frac) ∧
       t.mem = s.mem ∧ t.thr = s.thr)

/-- R491, R492, R495, R496: a package reset whose firmware image the boot ROM accepts (its MAGIC, its code's digest, its signature, and an SVN
not under the fused count) leaves every register as reset gives it and no byte of the package's memory, and keeps the fuses; with any other
image it stops at its second step, in RECOVERY.  A fuse only advances the life cycle, and the rollback count only rises, to the image's SVN.
R493, R494: outside RECOVERY an attestation request leaves a report of the fields in their order, the nonce first, and the signature of
everything before it by the identity key.  Below I0 a request waits.  It rests on the model's readings in notes/assumptions/4 (the registers R491
gives no value), 87, 88, 96 and 145. -/
def Obligations.ResetFusesAttestation : Prop :=
  (∀ (s : State),
     ∃ t, exec .packageReset s = .next t ∧ t.sys.lcsStage = s.sys.lcsStage ∧ t.sys.rollback = s.sys.rollback ∧
       if imageGood s.fresh s.sys.rollback = true then
         t.sys.recovery = false ∧ t.sys.image = s.fresh ∧ t.gcyc = 0 ∧ t.ctxs = [] ∧ t.cmds = [] ∧ t.reqs = [] ∧ (∀ k, t.th k = {}) ∧
           (∀ a, physClass a ≠ .host → rdByte t.mem a = 0) ∧ (∀ a, rdByte t.frames a = 0) ∧ ∀ a, t.tag a = 0
       else t.sys.recovery = true ∧ t.sys.lcsReady = false ∧ t.turn = [] ∧ t.mem = s.mem ∧ t.thr = s.thr) ∧
  (∀ i n, imageGood i n = true ↔ ofBytes (imageBytes i 0 4) = 0x574F4C49 ∧ sha3 (imageBytes i 64 (ofBytes (imageBytes i 0x10 8))) = imageBytes i 0x20 32 ∧
     Config.firmwareSigned (sha3 (imageBytes i 0 64)) (imageBytes i (64 + ofBytes (imageBytes i 0x10 8)) 2420) = true ∧
     n ≤ ofBytes (imageBytes i 0x08 8)) ∧
  (∀ (s : State) (n : Nat) (nonce : BitVec 256),
     (s.sys.idle = 0 → s.entryDue = false →
       (∃ t, exec (.fuseWrite n) s = .next t ∧ t.sys.lcsStage = (if s.sys.lcsStage < n ∧ n < 4 then n else s.sys.lcsStage) ∧
         t.sys.rollback = (if n = 4 then max s.sys.rollback (imageSvn s.sys.image) else s.sys.rollback) ∧ t.mem = s.mem ∧ t.thr = s.thr) ∧
       (s.sys.recovery = false → ∃ t, exec (.attestationRequest nonce) s = .next t ∧ t.mem = s.mem ∧ t.thr = s.thr ∧
         let seed := keySeed s.sys.keyZero s.sys.image
         let body := bytesOf 32 nonce.toNat ++ sha3 ((List.range 1312).map (Config.publicKey seed)) ++ imageBytes s.sys.image 0x20 32 ++
           bytesOf 8 (ofBytes (imageBytes s.sys.image 0x08 8)) ++ bytesOf 8 s.sys.rollback ++ bytesOf 8 (s.ctlWord 0x7000) ++
           bytesOf 8 (s.ctlWord 0x7008)
         t.sys.report = body ++ (List.range 2420).map (Config.identitySign seed (sha3 body))) ∧
       (s.sys.recovery = true → exec (.attestationRequest nonce) s = .next s)) ∧
     (s.sys.idle ≠ 0 → ∀ e ∈ [(Instr.fuseWrite n, Asked.fuse n), (.attestationRequest nonce, .attest nonce)], ∃ t, exec e.1 s = .next t ∧
       t.sys.asked = s.sys.asked ++ [e.2] ∧ t.sys.idleTo.isSome = true ∧ t.sys.report = s.sys.report ∧ t.sys.lcsStage = s.sys.lcsStage ∧ t.mem = s.mem))


/-! ### Issue, faults and exceptions (03, 12) -/

/-- 03 R84, R85: what only a partition may issue is illegal (code 2) in a command stream; what only a command stream may
issue is privileged (code 3) in a partition; PCLR is privileged but for firmware. -/
def Obligations.IssuerClasses : Prop :=
  ∀ (u : State) (k pos : Nat) (i : Instr), legal i = true →
    let c := oneIC u k pos (encWord i)
    let det := (encWord i).toNat
    (∀ o, slotOf i = some o → o.ill c = false) →
    (((∃ x : RRI, i ∈ [Instr.lds x, .sts x, .ldv x, .stv x]) ∨ (∃ x : Gld, i ∈ [Instr.ldgv x, .ldcv x]) ∨ (∃ x : Gst, i = .stgv x) ∨
        (∃ x : Stcv, i = .stcv x) ∨ (∃ x : RRR, i ∈ [Instr.gath x, .scat x, .gaths x, .scats x]) ∨ (∃ x : Probe, i = .probe x) ∨
        (∃ x : Chn, i ∈ [Instr.send x, .recv x, .recvadd x]) ∨ (∃ x : Loopr, i = .loopr x) ∨ (∃ x : Brf, i = .lbrk x) ∨
        ∃ x : AN, i = .fin x) →
      slotStatic c (slotOf i) = if isCs k then some ⟨2, det, 0⟩ else none) ∧
    (((∃ x : RRR, i = .waitm x) ∨ (∃ x : RR1, i ∈ [Instr.pres x, .presSkip x, .pkill x]) ∨ (∃ x : PresMig, i = .presMig x) ∨
        (∃ x : EngF, i ∈ [Instr.tsub x, .grpc x, .grpf x]) ∨ (∃ x : Eng, i ∈ [Instr.twait x, .twaitAll x, .tscale x, .tcfg x,
          .occr x, .occrClr x, .qinit x, .qinitLoad x, .bariInit x, .bariFree x]) ∨ (∃ x : Rufl, i = .rufl x) ∨ ∃ x : Chn, i = .chopn x) →
      slotStatic c (slotOf i) = if isCs k then none else some ⟨3, det, 0⟩) ∧
    (∀ x : AN, i = .pclr x → slotStatic c (slotOf i) = if u.firmware k then none else some ⟨3, det, 0⟩)

/-- 03 R78, R84–R86, R93, R94: before its guard, a slot is judged illegal (code 2) or privileged (code 3); with a false guard it
has no effect, and its bundle commits; with a true one it may be held, which leaves the program counter and SCYC where they
are. -/
def Obligations.IssueRules : Prop :=
  ∀ (s u : State) (k pos : Nat) (i : Instr) (o : SlotOp),
    encode i = some (pos, encWord i) → slotOf i = some o →
    let c := oneIC u k pos (encWord i)
    let det := (encWord i).toNat
    (o.legal = legal i) ∧
    (legal i = false → slotStatic c (some o) = some ⟨2, det, 0⟩) ∧
    (o.whr = .partOnly → isCs k = true → slotStatic c (some o) = some ⟨2, det, 0⟩) ∧
    (legal i = true → o.ill c = false → o.whr = .csOnly → isCs k = false → slotStatic c (some o) = some ⟨3, det, 0⟩) ∧
    (legal i = true → o.ill c = false → o.whr = .firmware → u.firmware k = false → slotStatic c (some o) = some ⟨3, det, 0⟩) ∧
    (s.cur = k → Issues s k → s.begun k = u → Fits u k → slotPos k pos → o.srcV.contains 60 = false →
      slotStatic c (some o) = none →
      (o.on (u.th k) = false → exec i s = .next
        ((((((u.advance k 8 0).loopEnd k (u.th k)).taint k false).count k).tally k 0).afterCommit k (u.th k).pc none)) ∧
      ∀ cause, o.brk = none → o.on (u.th k) = true → slotPre c (some o) = none → slotHold c (some o) = some cause →
        ∃ t, exec i s = .next t ∧ (t.th k).pc = (u.th k).pc ∧ (t.th k).scyc = (u.th k).scyc ∧ (t.th k).held = some cause ∧
          (t.th k).mode = .running ∧ (t.th k).flight = (u.th k).flight)

/-- 12 R347, R349, Tables 12-7, 12-9: a bundle whose slot faults does not commit; its issuer takes the exception.  A BUNDLE
record carries the fault's code at its position, DET0, DET1, SCYC and the loop indices.  A partition parks with its state as
it was, and its park image goes to its save slot; a command stream is saved, and its context halts. -/
def Obligations.ExceptionEntry : Prop :=
  ∀ (s u : State) (k pos : Nat) (i : Instr) (o : SlotOp) (f : SF),
    s.cur = k → Issues s k → s.begun k = u → Fits u k → slotPos k pos → encode i = some (pos, encWord i) →
    slotOf i = some o → o.brk = none → o.srcV.contains 60 = false → (u.th k).matStop = none →
    let c := oneIC u k pos (encWord i)
    (slotPre c (some o) = some f ∨
      (slotPre c (some o) = none ∧ slotHold c (some o) = none ∧ slotPost c (some o) = some f)) →
    ∃ t r, exec i s = .next t ∧ t.recs = u.recs ++ [r] ∧
      r.kind = 1 ∧ r.ctx = u.ctxOf k ∧ r.baddr = (u.th k).pc ∧ r.slots = f.code * 2 ^ (6 * pos) ∧ r.scyc = (u.th k).scyc ∧
      r.gcyc = u.gcyc ∧ r.det0 = f.det ∧ r.det1 = pos + 256 * f.hx ∧ r.loops = (u.th k).loops.map LoopEnt.index ∧
      (t.th k).pc = (u.th k).pc ∧ (∀ n, (t.th k).s n = (u.th k).s n) ∧ (t.th k).flight = (u.th k).flight ∧
      (t.th k).loops = (u.th k).loops ∧
      (isCs k = false → (t.th k).mode = .parked ∧ (t.th k).scyc = (u.th k).scyc ∧ (t.th k).park.reissue = true ∧
        r.parks = some k ∧ r.srcCode = 0 ∧ r.idField = k ∧
        t.mem = ((u.stallEnd k).vwrRun (u.ctxOf k) (t.slotAddr (u.ctxOf k) k) (t.parkImage k true)).mem) ∧
      (isCs k = true → (t.ctx (k - 4096)).st = .halted ∧ (t.ctx (k - 4096)).slot = none ∧ (t.th k).mode = .idle ∧
        r.fw = true ∧ r.srcCode = 1 ∧ r.idField = u.csid (k - 4096))

/-- The frame of the instructions of `registerOnly`: at the commit no byte of memory or of a frame, no tag and no other issuer changes, and of
the issuer's own state no register, bank, handle, ticket, control register or poison flag: results only stand in flight. -/
def Obligations.RegisterFrame : Prop :=
  ∀ (s u : State) (k pos : Nat) (i : Instr), registerOnly i = true → Commits s u k pos i →
    (u.th k).matStop = none → ((u.th k).held = none ∨ u.tracing (u.ctxOf k) = false) →
    ∃ t, exec i s = .next t ∧
      (∀ a, rdByte t.mem a = rdByte u.mem a) ∧ (∀ a, rdByte t.frames a = rdByte u.frames a) ∧ t.tags = u.tags ∧
      t.reqs = u.reqs ∧ t.cmds = u.cmds ∧ t.ctxs = u.ctxs ∧ t.recs = u.recs ∧ t.sys = u.sys ∧
      (∀ j, j ≠ k → t.th j = u.th j) ∧
      let a := t.th k
      let b := u.th k
      (∀ n, a.s n = b.s n) ∧ (∀ n, a.sBad n = b.sBad n) ∧ (∀ n, a.p n = b.p n) ∧ (∀ n, a.m n = b.m n) ∧
      (∀ n, a.vPhys n = b.vPhys n) ∧ (∀ n, a.vBadP n = b.vBadP n) ∧ (∀ n, a.bank n = b.bank n) ∧ (∀ n, a.bBad n = b.bBad n) ∧
      (∀ n, a.h n = b.h n) ∧ a.ks = b.ks ∧ a.rules = b.rules ∧ a.chans = b.chans ∧ a.prog = b.prog ∧
      a.aland = b.aland ∧ a.bard = b.bard ∧ a.barb = b.barb ∧ a.fltrec = b.fltrec ∧ a.drth = b.drth ∧
      a.mode = .running ∧ a.scyc = (b.scyc + 1) % 2 ^ 64 ∧ ∃ l, a.flight = b.flight ++ l ∧ l.length ≤ 8

/-- 03 R75, R87, R90, R92, 04 R114, R123, 05 R137, R138, R162, 06 R179, 07 R210: a result that lands changes only the register, the bank, the
handle or the rule it names.  S0, P0 and M0 take no write and read 0, true and all ones; a vector result enters the lanes of its mask; ALAND is at
least 24; BARB.ROT stays below BARD.DEPTH. -/
def Obligations.ResultLanding : Prop :=
  ∀ (t : Thr) (n : Nat) (v x : W64) (psn : Bool),
    (let a := landOne t (.s n v psn)
     a.s 0 = 0 ∧ (n ≠ 0 → a.s n = v ∧ a.sBad n = psn) ∧ (∀ j, j ≠ n → a.s j = t.s j ∧ a.sBad j = t.sBad j) ∧
     { a with sr := t.sr, sPsn := t.sPsn } = t) ∧
    (let a := landOne t (.p n psn)
     a.p 0 = true ∧ (n ≠ 0 → n < 16 → a.p n = psn) ∧ (∀ j, j ≠ n → a.p j = t.p j) ∧ { a with pr := t.pr } = t) ∧
    (let a := landOne t (.m n v x)
     a.m 0 = BitVec.allOnes 64 ∧ (n ≠ 0 → ∀ i, i < 64 → (a.m n).getLsbD i = if x.getLsbD i then v.getLsbD i else (t.m n).getLsbD i) ∧
     (∀ j, j ≠ n → a.m j = t.m j) ∧ { a with mr := t.mr } = t) ∧
    (∀ y : VReg, let a := landOne t (.v n y x psn)
     (∀ i, i < 64 → vLane (a.vPhys n) 32 i = if x.getLsbD i then vLane y 32 i else vLane (t.vPhys n) 32 i) ∧
     (a.vBadP n = if x = BitVec.allOnes 64 then psn else (t.vBadP n || psn)) ∧
     (∀ j, j ≠ n → a.vPhys j = t.vPhys j ∧ a.vBadP j = t.vBadP j) ∧ { a with vr := t.vr, vPsn := t.vPsn } = t) ∧
    (let a := landOne t (.preds (v.setWidth 16))
     a.p 0 = true ∧ (∀ j, j ≠ 0 → j < 16 → a.p j = v.getLsbD j) ∧ { a with pr := t.pr } = t) ∧
    (let a := landOne t (.stages (v.setWidth 8))
     (∀ j, j < 8 → a.p j = t.p j) ∧ (∀ j, j < 8 → a.p (8 + j) = v.getLsbD j) ∧ { a with pr := t.pr } = t) ∧
    (∀ (b : Nat) (y : VReg), n < 64 → let a := landOne t (.bankRow b n y); let c := landOne t (.bankCol b n y)
     (∀ i j, i < 64 → j < 64 → (a.bank b).el i j = (if i = n then vLane y 32 j else (t.bank b).el i j) ∧
       (c.bank b).el i j = if j = n then vLane y 32 i else (t.bank b).el i j) ∧
     (∀ j, j ≠ b → a.bank j = t.bank j ∧ c.bank j = t.bank j) ∧ { a with banks := t.banks } = t ∧ { c with banks := t.banks } = t) ∧
    (∀ (b : Bank) (q : Option Bool), let a := landOne t (.bank n b q)
     a.bank n = b ∧ a.bBad n = q.getD (t.bBad n) ∧ (∀ j, j ≠ n → a.bank j = t.bank j ∧ a.bBad j = t.bBad j) ∧
     { a with banks := t.banks, bPsn := t.bPsn } = t) ∧
    (let a := landOne t (.bankPsn n psn)
     a.bBad n = psn ∧ (∀ j, j ≠ n → a.bBad j = t.bBad j) ∧ { a with bPsn := t.bPsn } = t) ∧
    (∀ va : Nat, ∀ e ∈ [(Land.xlat n va, ({ st := .pending, va } : Handle)), (.hrel n, {})], let a := landOne t e.1
     a.h n = e.2 ∧ (∀ j, j ≠ n → a.h j = t.h j) ∧ { a with hs := t.hs } = t) ∧
    (∀ r : Rule, let a := landOne t (.rule n r)
     (a.rules.find? fun e => e.1 == n) = some (n, r) ∧
     (∀ j, j ≠ n → (a.rules.find? fun e => e.1 == j) = t.rules.find? fun e => e.1 == j) ∧ { a with rules := t.rules } = t) ∧
    (let a := landOne t (.ctl .aland v)
     a.aland.toNat = max 24 (v.toNat % 2 ^ 12) ∧ { a with aland := t.aland } = t) ∧
    (let a := landOne t (.ctl .barb v)
     let d := t.bard.toNat % 16
     a.barb.toNat % 256 = (if d = 0 then v.toNat % 16 else v.toNat % 16 % d) ∧ a.barb.toNat / 256 = v.toNat / 256 % 2 ^ 16 ∧
     { a with barb := t.barb } = t) ∧
    (let a := landOne t (.barbRot n)
     a.barb.toNat % 16 = n % 16 ∧ a.barb.toNat / 16 = t.barb.toNat / 16 ∧ { a with barb := t.barb } = t) ∧
    (let a := landOne t (.ctl .bard v)
     a.bard.toNat = v.toNat % 16 ∧ { a with bard := t.bard } = t) ∧
    (let a := landOne t (.ctl .srstate v)
     a.srstate = v ∧ { a with srstate := t.srstate } = t) ∧
    landOne t (.tmode v) = t ∧ landOne t (.wait n) = t

/-! ### Engines, tensor records, tasks and channels proceed (08, 09, 11, 14) -/

/-- R220, R221, R226, R227, R240, R241, 11 R323, R326, 17 R444: an accepted command starts once its tickets have fired, its issuer's
earlier stores have performed and no earlier command of its issuer on its object is in the way; till then nothing happens.  SEMS then
takes effect on its counter, the commands that only wait stand running, a copy of one line writes it, a converting copy of one line
writes its elements rounded to the other format, RUQ, OCCR and LNKS write their records, RUFL drops the tenant's entries, and a command
at a page that may not be accessed ends in a command error.  It rests on the model's readings in notes/assumptions/69. -/
def Obligations.EngineCommandsStart : Prop :=
  ∀ (s : State) (id : Nat) (m : Cmd), s.cmd? id = some m →
    let u := s.runCmd m
    let cap (i : Nat) : Cap := m.caps.getD i { va := 0, pa := 0, base := 0, size := 0, tens := none }
    let writes (bs : List Byte) : Prop := exec (.engineStart id) s = .next ((u.engineWrite m (cap 0) bs).fire id) ∧
      (u.open_ m (cap 0) bs.length → 0 < bs.length → s.clean id = true →
        ∃ t, exec (.engineStart id) s = .next t ∧ t.ended id = true ∧ rdBytes t.mem (cap 0).pa bs.length = bs ∧
          ∀ a, a < (cap 0).pa ∨ (cap 0).pa + bs.length ≤ a → rdByte t.mem a = rdByte s.mem a)
    (s.starts m = false → exec (.engineStart id) s = .next s) ∧
    (s.starts m = true →
      (∀ pa, s.startViolates m = some pa → ∃ t r, exec (.engineStart id) s = .next t ∧ r ∈ t.recs ∧ r.kind = 4 ∧
        r.cmd = some id ∧ r.baddr = m.baddr ∧
        r.det0 = m.major + 64 * m.pos + 512 * (if isCs m.key then 1 else 0) + 65536 * m.runner) ∧
      (s.startViolates m = none →
        (m.pos = 6 → m.major = 13 → s.clean id = true →
          let n := (m.w.getD 0 0).toNat
          let v := (m.w.getD 1 0).toNat % 2 ^ 32
          s.violates false (s.semPa m.ctx n) = false → u.calm (s.semPa m.ctx n / 64) 0 = true →
          ∃ t, exec (.engineStart id) s = .next t ∧ t.ended id = true ∧
            t.semRead m.ctx n = (if m.fn = 0 then s.semRead m.ctx n + v else v) % 2 ^ 32 ∧
            ∀ a, a < s.semPa m.ctx n ∨ s.semPa m.ctx n + 4 ≤ a → rdByte t.mem a = rdByte s.mem a) ∧
        ((m.pos = 6 ∧ (m.major = 4 ∨ m.major = 12 ∨ m.major = 14)) ∨ (m.pos = 7 ∧ m.major = 7) →
          exec (.engineStart id) s = .next u) ∧
        (m.pos = 6 → m.major = 20 →
          let tid := (s.ctx m.ctx).tenant
          let x := ((s.tenant? tid).map Tenant.stats).getD {}
          let held := (s.reuse.filter fun e => e.tenant == tid).length
          writes ([x.lookup, x.hit, x.insert, x.cancel, x.refuse, x.evict, held % 2 ^ 32 + 4 * s.quota tid * 2 ^ 32, x.dup].flatMap
            (bytesOf 8))) ∧
        (m.pos = 6 → m.major = 21 → s.clean id = true →
          let tid := (s.ctx m.ctx).tenant
          let q := ((m.w.getD 0 0).toNat, (m.w.getD 1 0).toNat)
          ∃ t, exec (.engineStart id) s = .next t ∧ t.ended id = true ∧ t.mem = s.mem ∧
            ∀ e, e ∈ t.reuse ↔ e ∈ s.reuse ∧ ¬(e.tenant = tid ∧ (m.fn = 0 ∨ ∃ r ∈ e.reads, linesMeet q r = true))) ∧
        (m.pos = 6 → m.major = 22 →
          let first := (m.w.getD 0 0).toNat
          let words (p : Nat) : List Nat :=
            let o := getD {} s.occ p
            if p ∈ (s.ctx m.ctx).allot then
              [o.tasks * 2 ^ 32 + o.drift * 2 ^ 16 + (if o.valid then 2 ^ 12 else 0) + o.phase, o.busy, o.stall,
                s.gcyc - o.since - o.busy - o.stall, o.prev.getD 0 0, o.prev.getD 1 0, o.prev.getD 2 0, o.prev.getD 3 0]
            else [0, 0, 0, 0, 0, 0, 0, 0]
          let bs := (List.range 64).flatMap fun i => (words (first + i)).flatMap (bytesOf 8)
          (m.fn = 0 → exec (.engineStart id) s = .next ((u.engineWrite m (cap 0) bs).fire id)) ∧
          (m.fn ≠ 0 → ∃ t, exec (.engineStart id) s = .next t ∧ t.mem = (u.engineWrite m (cap 0) bs).mem ∧
            ∀ p, (first ≤ p ∧ p < first + 64 ∧ p ∈ (s.ctx m.ctx).allot → getD {} t.occ p = { since := s.gcyc }) ∧
              (p < first ∨ first + 64 ≤ p ∨ p ∉ (s.ctx m.ctx).allot → getD {} t.occ p = getD {} s.occ p))) ∧
        (m.pos = 7 → m.major = 15 →
          let l := s.link m.fn
          let lw := if l.st = 3 ∨ l.st = 4 then (if m.fn = 24 then 5 - l.narrow else 3 - l.narrow) else 0
          let fab (v : Nat) : Nat := if m.fn = 24 then 0 else v
          writes (([fab (l.peer * 2 ^ 26 + l.peerPort * 2 ^ 21) + lw * 16 + l.st, l.flitTx, l.flitRx, l.crc * 2 ^ 32 + l.retry,
            l.retrain * 2 ^ 32 + l.degrade * 2 ^ 16 + l.exhaust, fab (wrapN l.peerOfs 64), s.gcyc, fab (l.dropAge * 2 ^ 32)]).flatMap
              (bytesOf 8))) ∧
        (m.pos = 6 → m.major ≤ 3 → copyDue s.gcyc (m.w.getD 3 0) = false →
          ∃ t, exec (.engineStart id) s = .next t ∧ t.mem = s.mem ∧ t.reqs = s.reqs ∧ (t.cmd? id).map Cmd.st = some .timed) ∧
        (m.pos = 6 → m.major ≤ 1 → copyDue s.gcyc (m.w.getD 3 0) = true → cpRows (m.w.getD 2 0) = 1 → m.row = 0 →
          cpSsp (m.w.getD 3 0) = false → cpDsp (m.w.getD 3 0) = false →
          let n := cpRowb (m.w.getD 2 0)
          0 < n → (cap 0).pa % 64 + n ≤ 64 → physClass (cap 0).pa = .hbm →
          s.violates (s.firmware m.key) (cap 1).pa = false → s.owed (engKey id) [((cap 0).pa, n)] = false →
          tagPsn (s.tag (cap 0).pa) = false → m.buf = [] →
          let sends (bs : List Byte) : Prop := (cap 1).pa % 64 + bs.length ≤ 64 →
            ∃ t r ver b, exec (.engineStart id) s = .next t ∧ t.reqs = s.reqs ++ [r] ∧ r.key = engKey id ∧
              r.kind = .store (cap 1).pa bs ver false b ∧ t.mem = s.mem
          (m.major = 0 → sends (rdBytes s.mem (cap 0).pa n)) ∧
          (m.major = 1 → (cap 0).tens = none → (cap 1).tens = none →
            let f := cpSfmt (m.w.getD 3 0)
            let g := cpDfmt (m.w.getD 3 0)
            let md : Rm := if cpRm (m.w.getD 3 0) = 1 then .rtz else .rne
            plainFmt f = true → plainFmt g = true → n % (fmtBits f / 8) = 0 →
            sends ((List.range (n / (fmtBits f / 8))).flatMap fun i =>
              bytesOf (fmtBits g / 8) (convert (decCode f (rdN s.mem ((cap 0).pa + fmtBits f / 8 * i) (fmtBits f / 8))) g md 0).1)))))

/-- R229, R232, R233, Tables 8-6, 8-7: a copy waits for its not-before time, resumes when its source page is in, and completes once
its rows are done and its lines have performed: its channel records it, its fingerprint is written, and its ticket fires, or its
command error is formed. -/
def Obligations.CopiesProceed : Prop :=
  ∀ (s : State) (id : Nat) (m : Cmd), s.cmd? id = some m → m.isCopy = true →
    (m.st = .timed → copyDue s.gcyc (m.w.getD 3 0) = true → exec (.copyNotBeforeRelease id) s = .next (s.copyBegin m)) ∧
    (m.st = .timed → copyDue s.gcyc (m.w.getD 3 0) = false → exec (.copyNotBeforeRelease id) s = .next s) ∧
    (m.st = .parked → exec (.copySourceResume id) s =
      .next ((s.modCmd id fun m => { m with st := .running }).copySome id)) ∧
    (m.st = .running → cpRows (m.w.getD 2 0) ≤ m.row → (∀ r ∈ s.reqs, r.key ≠ engKey id) → s.clean id = true →
      ∃ t, exec (.copyComplete id) s = .next t ∧
        (m.key < 8192 →
          (t.th m.key).chan m.fn = ((s.th m.key).chan m.fn).complete m.cid m.kind ∧ (t.th m.key).flight = (s.th m.key).flight) ∧
        (m.kind = 0 → (∀ cap, m.caps[2]? = some cap → s.open_ m cap 32) → t.ended id = true ∧ t.recs = s.recs) ∧
        (m.kind ≠ 0 → t.ended id = false ∧ ∃ r, t.recs = s.recs ++ [r] ∧ r.kind = 4 ∧ r.det1 = m.kind ∧ r.cmd = some id) ∧
        (m.caps[2]? = none → cpBe (m.w.getD 3 0) = false → t.mem = s.mem) ∧
        (∀ cap, cpBe (m.w.getD 3 0) = false → m.caps[2]? = some cap → s.open_ m cap 32 → rdBytes t.mem cap.pa 32 = fingerprint m))

/-- 09 R264, R267, R270–R274, R276, R278, R279, 08 R234, R235: deltas that are full, recalled or 65,536 cycles old merge; a pending
install is tried again every 4,096 cycles; the first crossing of a step posts a TENSOR record; a record that leaves a core's metadata
cache merges its delta and sends the core's handles of it to walk again; TSTEP counts the step, evaluates the policy with hysteresis
and installs what results; TSCALE forces a version; TREAD writes the record, TRST clears its statistics, TCFG configures it or ends in
the lowest code that holds; a version goes into the first slot that takes it.  It rests on the model's readings in
notes/assumptions/35 and 113. -/
def Obligations.TensorRecordSteps : Prop :=
  ∀ (s : State) (core ctx idx : Nat),
    (∀ d, (s.deltas.find? fun d => d.core == core && d.of ctx idx) = some d →
      let merges (i : Instr) : Prop := ∃ t, exec i s = .next t ∧
        t.delta core ctx idx = { d with hist := [], zero := 0, nan := 0, ovr := 0, under := 0, live := [], ovtot := 0, since := s.gcyc }
      (d.full = true → s.pendingInstall ctx idx = none → merges (.deltaMerge core ctx idx)) ∧
      (d.since + 65536 ≤ s.gcyc → s.pendingInstall ctx idx = none → merges (.deltaMergeTimeout core ctx idx)) ∧
      (d.full = false → s.pendingInstall ctx idx = none → exec (.deltaMerge core ctx idx) s = .next s) ∧
      (s.gcyc < d.since + 65536 → exec (.deltaMergeTimeout core ctx idx) s = .next s)) ∧
    (∀ x, s.pendingInstall ctx idx = some x →
      (s.gcyc < x.retry → exec (.installRetry ctx idx) s = .next s) ∧
      (x.retry ≤ s.gcyc → s.clean x.cmd = true → ∃ t, exec (.installRetry ctx idx) s = .next t ∧
        let v := (s.vshare ctx (s.recVa ctx idx) 512).recall ctx idx
        ((v.tryInstall ctx idx x.fmt x.scale).isSome = true → t.ended x.cmd = true ∧ t.pendingInstall ctx idx = none) ∧
        ((v.tryInstall ctx idx x.fmt x.scale).isSome = false →
          t.pendingInstall ctx idx = some { x with retry := s.gcyc + 4096 }))) ∧
    (∀ p, (s.posts.find? fun p => p.1 == ctx && p.2.1 == idx) = some p →
      ((s.recFree ctx idx || s.recTrip ctx idx) = true →
        exec (.tensorCrossingPost ctx idx) s = .next { s with posts := s.posts.erase p }) ∧
      ((s.recFree ctx idx || s.recTrip ctx idx) = false →
        ∃ t r, exec (.tensorCrossingPost ctx idx) s = .next t ∧ t.posts = s.posts.erase p ∧ t.recs = s.recs ++ [r] ∧ r.kind = 5 ∧
          r.ctx = ctx ∧ r.srcCode = 3 ∧ r.idField = s.recDie ctx idx ∧ r.det0 = idx ∧ r.det1 / 2 ^ 32 = p.2.2.1)) ∧
    (s.recCaptured core ctx idx = true → exec (.recordLeavesMetadataCache core ctx idx) s = .next s) ∧
    (s.cached.contains (core, ctx, idx) = true → s.recCaptured core ctx idx = false →
      ∃ t, exec (.recordLeavesMetadataCache core ctx idx) s = .next t ∧ t.cached.contains (core, ctx, idx) = false ∧
        (∀ d ∈ t.deltas, ¬(d.core = core ∧ d.ctx = ctx ∧ d.idx = idx)) ∧
        ∀ k h, s.tcore k = core → s.ctxOf k = ctx → ((s.th k).h h).st = .valid → ((s.th k).h h).tens = some idx →
          ((t.th k).h h).st = .pending) ∧
    (∀ id m, s.cmd? id = some m → s.starts m = true → s.startViolates m = none → m.pos = 6 → 6 ≤ m.major → m.major ≤ 10 →
      let c := m.ctx
      let i := (m.w.getD 0 0).toNat
      let u := ((s.runCmd m).vshare c (s.recVa c i) 512).recFix c i
      let cap := m.caps.getD 0 { va := 0, pa := 0, base := 0, size := 0, tens := none }
      let does (t : State) : Prop := exec (.engineStart id) s = .next t
      let errs (code : Nat) : Prop := ∃ t r, does t ∧ r ∈ t.recs ∧ r.kind = 4 ∧ r.det1 = code ∧ r.cmd = some id
      (m.major ≠ 9 → u.recState c i = 0 → errs 1) ∧
      (u.recState c i ≠ 0 →
        (m.major = 6 →
          let v := (u.recall c i).recMod c i 0x10 fun w => w / 2 ^ 32 * 2 ^ 32 + min (w % 2 ^ 32 + 1) (2 ^ 32 - 1)
          let cfg := v.recWord c i 8
          let h := v.hysteresis c i (evaluate (v.recPol c i) (v.recGeo c i) (v.recSlot c i (v.recWv c i)).1 (v.recHist c i)
            (cfg / 2 ^ 48 % 2 ^ 16) (cfg / 2 ^ 24 % 2 ^ 8) (cfg / 2 ^ 36 % 2 ^ 4) (cfg / 2 ^ 16 % 2 ^ 8) (cfg / 2 ^ 8 % 2 ^ 8))
          let w := (((if h.2.recAccum c i then h.2 else h.2.clearStats c i)).ctrlPut c i 14 14 0).csovZero c i
          (h.1 = none → does (w.fire id)) ∧ ∀ n, h.1 = some n → does (w.install c i n.1 n.2 id false)) ∧
        (m.major = 7 →
          let w1 := (m.w.getD 1 0).toNat
          let n : Nat × Int := (w1 / 2 ^ 8 % 2 ^ 4, sextI (w1 % 2 ^ 6) 6)
          let v := u.lowReset c i
          (geoAllows (u.recGeo c i) (u.recSfmt c i) n.1 = false → errs 3) ∧
          (geoAllows (u.recGeo c i) (u.recSfmt c i) n.1 = true →
            (v.recGeo c i < 2 ∨ n = v.recSlot c i (v.recWv c i) → does (v.fire id)) ∧
            (2 ≤ v.recGeo c i → n ≠ v.recSlot c i (v.recWv c i) → does (v.install c i n.1 n.2 id true)))) ∧
        (m.major = 8 →
          let v := if m.fn = 1 then u.recall c i else u
          does ((v.engineWrite m cap ((List.range 64).flatMap fun j => bytesOf 8 (v.recRaw c i (8 * j)))).fire id)) ∧
        (m.major = 10 → does ((((u.clearStats c i).ctrlPut c i 14 14 0).csovZero c i).fire id) ∧
          (u.recCalm c i → ∃ t, does t ∧ (∀ b, b < 64 → t.recBin c i b = 0) ∧ t.recRaw c i 0x40 = 0 ∧ t.recRaw c i 0x48 = 0 ∧
            t.recRaw c i 0x10 = u.recRaw c i 0x10 ∧ ∀ v, v < 4 → t.recVer c i v = u.recVer c i v))) ∧
      (m.major = 9 →
        let e := u.engineRead m cap 64
        let w (j : Nat) : Nat := ofBytes ((e.1.drop (8 * j)).take 8)
        let op := w 0 % 16
        let free := e.2.2.recState c i = 0
        let rsv := 2 ^ 23 ≤ w 0 ∨ w 1 / 2 ^ 32 % 2 ^ 4 ≠ 0 ∨ w 1 % 2 ^ 8 ≠ 0 ∨ 2 ^ 32 ≤ w 2 ∨ 2 ^ 52 ≤ w 3 ∨ ∃ b ∈ e.1.drop 32, b ≠ 0
        let sfmt := w 0 / 2 ^ 4 % 2 ^ 4
        let ifmt := w 0 / 2 ^ 8 % 2 ^ 4
        (op = 1 ∧ ¬free ∨ op < 6 ∧ op ≠ 1 ∧ free → errs 1) ∧
        ((op = 1 → free) → (op < 6 → op ≠ 1 → ¬free) →
          (6 ≤ op ∨ w 0 / 2 ^ 20 % 4 = 3 ∧ op ≤ 1 ∨ rsv → errs 2) ∧
          (op < 6 → ¬(w 0 / 2 ^ 20 % 4 = 3 ∧ op ≤ 1) → ¬rsv →
            (op = 1 → geoOf sfmt = 4 ∨ geoAllows (geoOf sfmt) sfmt ifmt = false → errs 3) ∧
            (op = 1 → geoOf sfmt ≠ 4 → geoAllows (geoOf sfmt) sfmt ifmt = true → e.2.2.recCalm c i → e.2.2.clean id = true →
              ∃ t, does t ∧ t.ended id = true ∧
                t.recRaw c i 0 = 1 + sfmt * 2 ^ 4 + geoOf sfmt * 2 ^ 8 + w 0 / 2 ^ 18 % 2 ^ 2 * 2 ^ 10 + w 0 / 2 ^ 20 % 4 * 2 ^ 12 +
                  w 0 / 2 ^ 22 % 2 * 2 ^ 16 ∧
                t.recRaw c i 8 = w 1 ∧ t.recRaw c i 0x18 = w 2 ∧ (∀ v, v < 4 → t.recRaw c i (0x20 + 8 * v) = ifmt * 2 ^ 8 + w 0 / 2 ^ 12 % 2 ^ 6) ∧
                (∀ j, 8 ≤ j → j < 64 → t.recRaw c i (8 * j) = 0) ∧ ∀ d ∈ t.deltas, ¬(d.ctx = c ∧ d.idx = i)) ∧
            (op = 2 → (∃ v, v < 4 ∧ 2 ^ 32 ≤ (e.2.2.recall c i).recVer c i v) → errs 5) ∧
            (op = 5 → does ((e.2.2.ctrlPut c i 15 15 0).fire id)))))) ∧
    (∀ (pol geo fmt pct hb head r4 r5 hi p : Nat) (hist : List Nat),
      let cum (b : Nat) : Nat := (hist.take (b + 1)).sum
      let at_ (b : Nat) : Prop := 0 < cum b ∧ pct * hist.sum ≤ 65536 * cum b
      (pol = 0 ∨ fmt ∉ [3, 4, 5, 6] ∨ hist.sum = 0 → evaluate pol geo fmt hist pct hb head r4 r5 = none) ∧
      (pol ≠ 0 → fmt ∈ [3, 4, 5, 6] → hist.length = 64 → hi < 64 → hist.getD hi 0 ≠ 0 → (∀ b, b < 64 → hi < b → hist.getD b 0 = 0) →
        p < 64 → at_ p → (∀ b, b < p → ¬at_ b) →
        let f := if pol = 3 ∧ geo = 2 then if hi - p ≤ r4 then 3 else if hi - p ≤ r5 then 4 else 6 else fmt
        let emax : Int := if f = 3 then 8 else if f = 4 then 15 else 2
        evaluate pol geo fmt hist pct hb head r4 r5 =
          some (f, min (max (((if pol = 2 then p else hi : Nat) : Int) - sextI hb 8 + head - emax) (-32)) 31))) ∧
    (∀ (cand : Nat × Int),
      let cur := s.recSlot ctx idx (s.recWv ctx idx)
      let ctrl := s.recWord ctx idx 0
      let held : Nat × Int := (ctrl / 2 ^ 54 % 2 ^ 4, sextI (ctrl / 2 ^ 48 % 2 ^ 6) 6)
      let cnt := ctrl / 2 ^ 40 % 2 ^ 8
      let rank (f : Nat) : Nat := if f = 4 then 1 else if f = 6 then 2 else 0
      let above (x y : Nat × Int) : Prop := rank y.1 < rank x.1 ∨ rank x.1 = rank y.1 ∧ y.2 < x.2
      let h := s.hysteresis ctx idx (some cand)
      s.hysteresis ctx idx none = (none, s) ∧
      (cand = cur → h = (none, s.lowReset ctx idx)) ∧
      (cand ≠ cur → above cand cur → h = (some cand, s.lowReset ctx idx)) ∧
      ∀ low, (cnt = 0 ∨ above cand held → low = cand) → (cnt ≠ 0 → ¬above cand held → low = held) → cand ≠ cur → ¬above cand cur →
        (s.recWord ctx idx 8 / 2 ^ 40 % 2 ^ 8 < cnt + 1 → h = (some low, s.lowReset ctx idx)) ∧
        (cnt + 1 ≤ s.recWord ctx idx 8 / 2 ^ 40 % 2 ^ 8 → h.1 = none ∧
          h.2 = ((s.ctrlPut ctx idx 57 54 low.1).ctrlPut ctx idx 53 48 (wrapN low.2 6)).ctrlPut ctx idx 47 40 (cnt + 1))) ∧
    (∀ (f : Nat) (sc : Int) (n : Nat),
      let wv := s.recWv ctx idx
      let same (v : Nat) : Prop := v ≠ wv ∧ s.recSlot ctx idx v = (f, sc)
      let room (v : Nat) : Prop := s.recVer ctx idx v < 2 ^ 32 ∧ s.carriesVer ctx idx v = false
      (n < 4 → same n → (∀ v, v < n → ¬same v) → s.tryInstall ctx idx f sc = some (s.ctrlPut ctx idx 3 2 n)) ∧
      ((∀ v, v < 4 → ¬same v) →
        (0 < n → n < 4 → room ((wv + n) % 4) → (∀ d, d < n → 0 < d → ¬room ((wv + d) % 4)) →
          s.tryInstall ctx idx f sc =
            some ((s.recPut ctx idx (0x20 + 8 * ((wv + n) % 4)) (f * 256 + wrapN sc 6)).ctrlPut ctx idx 3 2 ((wv + n) % 4))) ∧
        ((∀ d, d < 4 → 0 < d → ¬room ((wv + d) % 4)) → s.tryInstall ctx idx f sc = none)))

/-- 11 R316–R322, R332–R335, 04 R128: a submitted task enters the dependence table in commit order with its dependences, or is
refused with a command error; an idle partition takes the QUEUED task of lowest count; a lookup that finds nothing lets the
task run, one that finds a result places it; a finished task retires once its tickets have fired and its stores have
performed: it leaves the table, its dependants no longer wait for it, its completion word is written, and its semaphore rises; a saved task goes on where it stood.  It rests on the model's readings in
notes/assumptions/112. -/
def Obligations.TaskSteps : Prop :=
  ∀ (s : State) (c n p : Nat) (x : Task),
    let tid := (s.ctx c).tenant
    let refused (t : State) : Prop :=
      (t.tenant? tid).map (fun y => y.stats.refuse) = (s.tenant? tid).map fun y => min (y.stats.refuse + 1) (2 ^ 64 - 1)
    let v := s.rangesShare c x.reads
    let retires (i : Instr) (w : Nat) (x : Task) : Prop := ∃ t, exec i s = .next t ∧
      (∀ u ∈ t.tasks, ¬(u.ctx = c ∧ u.count = n)) ∧ (∀ u ∈ t.tasks, u.ctx = c → n ∉ u.deps) ∧
      (x.watching = false → x.cadr = 0 → x.sigs = [] → t.mem = s.mem) ∧
      (∀ g, x.watching = false → x.cadr = 0 → x.sigs = [g] → s.violates false (s.semPa c g) = false →
        s.calm (s.semPa c g / 64) 0 = true → t.semRead c g = (s.semRead c g + 1) % 2 ^ 32 ∧
        ∀ a, a < s.semPa c g ∨ s.semPa c g + 4 ≤ a → rdByte t.mem a = rdByte s.mem a) ∧
      (∀ l, x.watching = false → x.cadr ≠ 0 → x.sigs = [] → s.walk c false x.cadr = some l → l.tens = none →
        let pa := l.base + x.cadr % l.size
        pa % 64 + 8 ≤ 64 → physClass pa = .hbm → s.protectedKind pa = none → tagPsn (s.tag pa) = false →
        s.calm (pa / 64) (engKey x.cmd) = true → rdBytes t.mem pa 8 = bytesOf 8 (n * 2 ^ 32 + w))
    (x ∈ s.tasks → x.st = .submitted → ((s.cmd? x.cmd).map Cmd.st = some .running) →
      (∀ y ∈ s.tasks, y.st = .submitted → y ≠ x → x.seq < y.seq) →
      (s.tasks.filter fun u => u.st != .submitted).length < 16384 →
      ∀ m, s.cmd? x.cmd = some m → s.capsOwed m = false →
      let e := s.engineRead m (m.caps.getD 0 { va := 0, pa := 0, base := 0, size := 0, tens := none }) 256
      let r := e.2.2.vshare x.ctx (wordOf e.1 0 % 2 ^ 52 / 64 * 64) 0x140
      let sub := r.submission x e.1
      ((∃ k ∈ r.cmds, k.id = m.id ∧ k.viol = true) → ∃ t q, exec .taskEnter s = .next t ∧ q ∈ t.recs ∧ q.kind = 4 ∧ q.cmd = some m.id ∧
        ∀ u ∈ t.tasks, ¬(u.ctx = x.ctx ∧ u.count = x.count)) ∧
      (sub.codes = [] → r.clean x.cmd = true → ∃ t u, exec .taskEnter s = .next t ∧ t.ended m.id = true ∧ u ∈ t.tasks ∧ u = { sub.task with deps := u.deps } ∧
        ∀ y ∈ r.tasks, y.ctx = sub.task.ctx → y.st ≠ .submitted → dependsOn sub.task y = true → y.count ∈ u.deps) ∧
      ∀ code rest, sub.codes = code :: rest → (∀ k ∈ r.cmds, k.id = m.id → k.viol = false) → ∃ t r, exec .taskEnter s = .next t ∧ r ∈ t.recs ∧ r.kind = 4 ∧ r.det1 = code ∧
        r.cmd = some m.id ∧ ∀ u ∈ t.tasks, ¬(u.ctx = sub.task.ctx ∧ u.count = sub.task.count)) ∧
    (s.owner p = some c → (s.th p).mode = .idle → s.queues c = true → s.gated.contains (coreOf p) = false →
      (s.th p).dbg.stopped = false → (s.th p).dbg.step = false → (s.th p).resumed = [] → s.nextQueued p c = some x → x.consts.length ≤ 8 →
      ∃ t, exec (.taskDispatch p) s = .next t ∧ (t.th p).mode = .running ∧ (t.th p).pc = (x.kernel + 0x140) % 2 ^ 52 ∧
        (t.th p).scyc = 0 ∧ (t.th p).flight = [] ∧ (t.th p).loops = [] ∧
        (∀ i, i < x.consts.length → (t.th p).s (i + 1) = x.consts.getD i 0) ∧ (∀ i, x.consts.length < i → (t.th p).s i = 0) ∧
        ((t.th p).task.map TaskRef.count = some x.count) ∧ t.mem = s.mem ∧ ∀ q, q ≠ p → t.th q = s.th q) ∧
    (∀ j rest y, s.owner p = some c → (s.th p).mode = .idle → s.queues c = true → s.gated.contains (coreOf p) = false →
      (s.th p).dbg.stopped = false → (s.th p).dbg.step = false → (s.th p).resumed = j :: rest → s.savedAt c j.slot = some y →
      ∃ t, exec (.taskDispatch p) s = .next t ∧ (t.th p).mode = y.savedMode ∧ (t.th p).pc = y.pc ∧ (t.th p).scyc = y.scyc ∧
        (t.th p).resumed = rest ∧ (t.th p).flight = y.flight ∧ (t.th p).loops = y.loops ∧ (∀ i, (t.th p).s i = y.s i) ∧
        (∀ h, (t.th p).h h = (y.h h).again) ∧ t.mem = s.mem ∧ ∀ q, q ≠ p → t.th q = s.th q) ∧
    ((s.tasks.find? fun t => t.ctx == c && t.count == n && t.st == .lookup) = some x →
      (s.taskKey x = none → ∃ t u, exec (.reuseLookup c n) s = .next t ∧ u ∈ t.tasks ∧ u.ctx = c ∧ u.count = n ∧ u.looked = true ∧
        refused t ∧ t.mem = v.mem ∧ t.reqs = v.reqs) ∧
      (∀ key, s.taskKey x = some key →
        (s.reuse.find? fun e => e.die == x.unit && e.tenant == (s.ctx c).tenant && e.key == key) = none →
        ∃ t u, exec (.reuseLookup c n) s = .next t ∧ u ∈ t.tasks ∧ u.ctx = c ∧ u.count = n ∧ u.looked = true ∧
          u.pureKey = some key ∧ t.mem = v.mem) ∧
      (∀ key e, s.taskKey x = some key →
        (s.reuse.find? fun e => e.die == x.unit && e.tenant == (s.ctx c).tenant && e.key == key) = some e →
        ((∃ r ∈ x.writes, ∃ i, i < (r.1 % 64 + r.2 + 63) / 64 ∧ v.writable c (r.1 / 64 * 64 + 64 * i) = false) →
          ∃ t u, exec (.reuseLookup c n) s = .next t ∧ u ∈ t.tasks ∧ u.ctx = c ∧ u.count = n ∧ u.looked = true ∧
            refused t ∧ t.mem = v.mem ∧ t.reqs = v.reqs) ∧
        ((∀ r ∈ x.writes, ∀ i, i < (r.1 % 64 + r.2 + 63) / 64 → v.writable c (r.1 / 64 * 64 + 64 * i) = true) →
        ∃ t u, exec (.reuseLookup c n) s = .next t ∧ u ∈ t.tasks ∧ u.ctx = c ∧ u.count = n ∧ u.st = .placing ∧
          u.watching = false ∧ t.mem = v.mem ∧ ∀ r ∈ s.reqs, r ∈ t.reqs))) ∧
    ((s.tasks.find? fun t => t.ctx == c && t.count == n && t.st == .placing) = some x →
      (∀ r ∈ s.reqs, r.key ≠ engKey x.cmd) → retires (.reusePlaceComplete c n) ((if x.impure then 2 ^ 17 else 0) + 2 ^ 16) x) ∧
    ((s.tasks.find? fun t => t.ctx == c && t.count == n && t.st == .finishing && t.released) = some x →
      (∀ i ∈ x.produced, s.ended i = true) →
      (∀ r ∈ s.reqs, r.key = goneKey c x.part → r.id < x.after → r.kind.writes = false) →
      retires (.taskRetire c n) ((if x.impure then 2 ^ 17 else 0) + x.status) x)

/-- 14 R388–R397, 17 R436: the element or close mark longest on its way stands in the receiver's queue and fires its ticket; a
credit becomes usable; two openings that match open the channel and two that differ end in command error 5, the channel as it was before; what the far
package sent takes effect where it arrives; partitions that
have waited 2^20 cycles for each other form a DEADLOCK record.  It rests on the model's readings in
notes/assumptions/114. -/
def Obligations.ChannelSteps : Prop :=
  ∀ (s : State) (c n : Nat) (parts : List Nat) (far : FarOpen),
    let q := s.getChan c n
    (∀ e id dead rest, q.transit = (e, id, dead) :: rest →
      ∃ t, exec (.channelElementArrive c n) s = .next t ∧ (s.clean id = true → t.ended id = true) ∧ (t.getChan c n).transit = rest ∧
        (dead = true → (t.getChan c n).stand = q.stand ∧ (t.getChan c n).st = q.st) ∧
        (dead = false → e = none → (t.getChan c n).stand = q.stand ∧ (t.getChan c n).marked = true ∧
          (q.st = .opened ∨ q.st = .draining → (t.getChan c n).st = if q.stand = [] then .closed else .draining)) ∧
        ∀ b, dead = false → e = some b → (t.getChan c n).stand = q.stand ++ [b] ∧ (t.getChan c n).st = q.st) ∧
    (0 < q.back → ∃ t, exec (.channelCreditArrive c n) s = .next t ∧ (t.getChan c n).back = q.back - 1 ∧
      (t.getChan c n).usable = q.usable + 1 ∧ (t.getChan c n).stand = q.stand) ∧
    (∀ d u, s.nextFor q = some (d, u) →
      let t := u.chanPacket q d.2
      (q.transit = [] → (∀ a b, d.2 ≠ .credit a b) → (∀ g, d.2 ≠ .chopn g) → exec (.channelElementArrive c n) s = .next t) ∧
      (q.back = 0 → (∃ a b, d.2 = .credit a b) → exec (.channelCreditArrive c n) s = .next t ∧
        (q.live = true → q.remR = true → (t.getChan c n).usable = q.usable + 1)) ∧
      (∀ a b l, d.2 = .element a b l → q.live = true → q.remS = true → (t.getChan c n).stand = q.stand ++ [l] ∧
        (t.getChan c n).sent = (q.sent + 1) % 2 ^ 32)) ∧
    (∀ id m, q.st = .opening → q.opening = some id → s.cmd? id = some m → far.fab = q.pkg → far.ch = q.peerCh → far.peerCh = n →
      far.peerTen = (s.ctx c).tenant → (far.fab, PktBody.chopn far) ∈ s.fab.delivered →
      (∀ g, (far.fab, PktBody.chopn g) ∈ s.fab.delivered → g.peerTen = far.peerTen → g.peerCh = n → g = far) →
      let same := far.fmt = q.fmt ∧ far.count = q.count ∧ far.depth = q.depth ∧ far.tenant = q.peerTen
      ∃ t, exec (.remoteOpenMatch c n far) s = .next t ∧
        (same → s.clean id = true → t.ended id = true ∧ (t.getChan c n).st = .opened ∧
          (t.getChan c n).usable = if q.remR then q.depth else 0) ∧
        (¬same → (∃ r, t.recs = s.recs ++ [r] ∧ r.kind = 4 ∧ r.det1 = 5 ∧ r.cmd = some id) ∧
          ∀ w, q.was = some w → (t.getChan c n).st = w.st ∧ (t.getChan c n).desc = w.desc ∧ (t.getChan c n).sent = w.sent ∧
            (t.getChan c n).recv = w.recv ∧ (t.getChan c n).usable = w.usable ∧ (t.getChan c n).back = w.back ∧
            (t.getChan c n).marked = w.marked)) ∧
    ((parts.all fun p => (s.th p).told) = false → parts.Nodup →
      (∀ p ∈ parts, p < 3072 ∧ ∃ w, s.stuckOn c p = some w ∧ (if w.snd = p then w.rcv else w.snd) ∈ parts) →
      ∃ t r, exec (.deadlockDetect c parts) s = .next t ∧ t.recs = s.recs ++ [r] ∧ r.kind = 7 ∧ r.ctx = c ∧ r.srcCode = 5 ∧
        r.det0 % 4096 ∈ parts ∧ (∀ p ∈ parts, r.det0 % 4096 ≤ p) ∧ r.det0 / 4096 = parts.length % 4096 ∧
        (∀ p ∈ parts, ∀ w, s.stuckOn c p = some w → w.ch < 64 → r.det1.testBit w.ch = true) ∧ t.mem = s.mem)

/-! ### Collectives, groups, barriers, contexts (12, 15, 16) -/

/-- 16 R412, R419, R421, R422, R424, R426, 08 R249: a collective packet of the group's generation is kept; the scale agreement fixes the
wire scale from the largest exponent; a chunk's contribution is read and sent; the owner of a chunk of a reduction combines the
contributions in the order of its plan and writes the result, converted once; a collective or agreement whose parts are all here ends
and writes its status or its word, and one whose members' descriptors differ ends in MISMATCH.  A packet for no context that may take
it is dropped.  It rests on the model's readings in notes/assumptions/54. -/
def Obligations.CollectiveSteps : Prop :=
  ∀ (s : State) (c g src cmd chunk : Nat) (pkt : CollPacket) (e : Int) (x : Coll) (m : Cmd),
    ((src, PktBody.coll pkt) ∈ s.fab.delivered → (s.ctx c).st ≠ .free → (s.ctx c).tenant = pkt.tenant → pkt.grp = g →
      s.grpOk c g = true → (s.grpState c g = 1 ∨ s.grpState c g = 2) → pkt.gen = s.grpGen c g →
      kindObject pkt.kind = none → kindAgrees pkt.kind = false → pkt.seq ∉ (s.grp c g).ended →
      ∃ t, exec (.collectivePacketReceive c pkt) s = .next t ∧ (t.grp c g).packets = (s.grp c g).packets ++ [pkt] ∧ t.mem = s.mem) ∧
    ((s.colls.find? fun y => y.cmd == cmd) = some x → s.cmd? cmd = some m →
      (s.collAgreed x ≠ (true, true) → exec (.collectiveChunkComplete cmd chunk) s = .next s ∧
        exec (.scaleAgreementDone cmd e) s = .next s) ∧
      (s.collAgreed x = (true, true) → x.wfmt ≠ 0 → x.scale = none → s.capsOwed m = false →
        let k := max (s.collExp m x) e
        let gd : Int := if isReduction x.op = true ∧ x.rop = 0 then clog2 (s.grpN x.ctx x.grp) else 0
        let sw : Int := if k = -128 then 0 else min (max (k + gd + 1 - (if x.wfmt = 3 then 8 else 15)) (-32)) 31
        exec (.scaleAgreementDone cmd e) s = .next ((s.collShare m x).modColl cmd fun y => { y with scale := some sw })) ∧
      (s.collAgreed x = (true, true) → (x.wfmt = 0 ∨ x.scale.isSome = true) → chunk < x.chunks (s.grpN x.ctx x.grp) → chunk ∉ x.done →
        s.capsOwed m = false → ∃ t y, exec (.collectiveChunkComplete cmd chunk) s = .next t ∧ (t.colls.find? fun y => y.cmd == cmd) = some y ∧
          chunk ∈ y.started ∧ y.seq = x.seq ∧ y.op = x.op ∧ y.desc = x.desc ∧
          (x.op = 6 → x.root ≠ s.grpRank x.ctx x.grp → chunk ∈ x.started → chunk ∈ y.done)) ∧
      (s.collAgreed x = (true, true) → x.wfmt = 0 → (x.op = 0 ∨ x.op = 6) → chunk < x.chunks (s.grpN x.ctx x.grp) → chunk ∉ x.done →
        chunk ∈ x.started → x.owner (s.grpN x.ctx x.grp) chunk = s.grpRank x.ctx x.grp → s.capsOwed m = false → x.dst = some none →
        ∀ vals, s.collForm x chunk 0 = some (vals, false) →
          let w := fmtBits x.fmt / 8
          let a := x.dstVa + 4096 * chunk * w
          let bs := vals.flatMap fun v => bytesOf w (convert v.1 x.fmt .rne 0).1
          a % 64 + bs.length ≤ 64 → bs ≠ [] → m.pagePa a % 64 = a % 64 →
          s.open_ m { va := a, pa := m.pagePa a, base := 0, size := 0, tens := none } bs.length →
          ∃ t y, exec (.collectiveChunkComplete cmd chunk) s = .next t ∧ rdBytes t.mem (m.pagePa a) bs.length = bs ∧
            (t.colls.find? fun y => y.cmd == cmd) = some y ∧ chunk ∈ y.done) ∧
      (m.isCola = false → (s.collAgreed x).2 = false → exec (.collectiveEnd cmd) s = .next (s.collClose m x 3 0)) ∧
      (m.isCola = false → (s.collAgreed x).2 = true → (∃ k, k < x.chunks (s.grpN x.ctx x.grp) ∧ k ∉ x.done) →
        exec (.collectiveEnd cmd) s = .next s) ∧
      (m.isCola = false → x.ctx = m.ctx → (s.collAgreed x).2 = true → s.clean m.id = true →
        (∀ k, k < x.chunks (s.grpN x.ctx x.grp) → k ∈ x.done) →
        let at_ : Cap := { cap0 m with va := (cap0 m).va + 0x28, pa := (cap0 m).pa + 0x28 }
        let flag (b : Bool) (i : Nat) : Nat := if b then 2 ^ i else 0
        s.open_ m at_ 16 → ∃ t, exec (.collectiveEnd cmd) s = .next t ∧ t.ended cmd = true ∧ (∀ y ∈ t.colls, y.cmd ≠ cmd) ∧
          m.cid ∈ (t.grp m.ctx (grpNum m)).ended ∧
          rdBytes t.mem at_.pa 16 = bytesOf 8 (x.chunks (s.grpN x.ctx x.grp) * 2 ^ 32 + x.algrun * 2 ^ 6 + flag x.replan 5 +
            flag (!x.detours.isEmpty) 4 + flag x.psn 3 + 1) ++
            bytesOf 8 (match x.scale with
              | some sw => 2 ^ 8 + wrapN sw 6
              | none => 0))) ∧
    ((src, PktBody.coll pkt) ∈ s.fab.delivered → (∀ e ∈ s.ctxs, e.2.st = .free ∨ e.2.tenant ≠ pkt.tenant) →
      ∃ t, exec (.collectivePacketReceive c pkt) s = .next t ∧ t.fab.delivered.length + 1 = s.fab.delivered.length ∧
        t.grps = s.grps ∧ t.mem = s.mem) ∧
    (∀ (w : W64) (ws : List W64), s.cmd? cmd = some m → m.isCola = true → s.clean cmd = true → m.st = .running → m.aux ≠ [] →
      s.open_ m (cap0 m) 8 → ws.length + 1 = s.grpN m.ctx (grpNum m) →
      (∀ r, r < s.grpN m.ctx (grpNum m) → ∃ p ∈ s.packetsOf m.ctx (grpNum m) m.cid kindAgrees, p.member = r) →
      (∀ p ∈ s.packetsOf m.ctx (grpNum m) m.cid kindAgrees, p.kind = .agree m.fn ((w :: ws).getD p.member 0)) →
      let both (a b : W64) : W64 := if m.fn = 0 then (if a.toInt < b.toInt then b else a) else if m.fn = 1 then (if b.toInt < a.toInt then b else a)
        else if m.fn = 2 then a + b else a ||| b
      ∃ t, exec (.collectiveEnd cmd) s = .next t ∧ t.ended cmd = true ∧ m.cid ∈ (t.grp m.ctx (grpNum m)).agreed ∧
        rdBytes t.mem (cap0 m).pa 8 = bytesOf 8 (ws.foldl both w).toNat) ∧
    ∀ (o alg : Nat) (cb : Ex → Ex → Ex) (v : Ex) (vs : List Ex),
      let xs := v :: vs
      let turn := (xs.drop ((o + 1) % xs.length)) ++ xs.take ((o + 1) % xs.length)
      combine 4 o cb xs = vs.foldl cb v ∧
      combine 1 o cb xs = (turn.drop 1).foldl cb (turn.getD 0 v) ∧
      (alg = 2 ∨ alg = 3 → combine alg o cb [v] = v ∧
        ∀ k, 0 < vs.length → (∃ j, j < k ∧ k = 2 ^ j) → k < xs.length → xs.length ≤ 2 * k →
          combine alg o cb xs = cb (combine alg o cb (xs.take k)) (combine alg o cb (xs.drop k)))

/-- 15 R400–R403, R407, 16 R411–R417: BARR and BARX send an update to its barrier's home, BARW waits there on PARITY, BARI makes a
barrier and frees it; an update reaches the home, or is dropped and counted by a barrier that is FREE; a phase completes when the
arrivals reach the target and no byte is expected, and the BARWs that wait for it fire; GRPC takes a member table or ends in the lowest
code that holds, GRPF leaves the group; a join of a forming group is counted, the last makes it active, one that differs fails it; an
unreachable member, or one that leaves, fails its group: a forming one at once, an active one at the end of the cycle; a quarantine
that is over frees its record.  It rests on the model's readings in notes/assumptions/112, 126 and 143. -/
def Obligations.GroupAndBarrierSteps : Prop :=
  ∀ (s : State) (c n : Nat), n < 65536 →
    let whole := ∀ pa, s.barPa c n = some pa → s.violates false pa = false ∧ s.calm (pa / 64) 0 = true
    (∀ id m, s.cmd? id = some m → m.ctx = c → s.starts m = true → s.startViolates m = none → m.pos = 7 → (m.w.getD 0 0).toNat = n →
      let u := s.runCmd m
      let w1 := (m.w.getD 1 0).toNat
      let errs (code : Nat) : Prop := ∃ t r, exec (.engineStart id) s = .next t ∧ r ∈ t.recs ∧ r.kind = 4 ∧ r.det1 = code ∧ r.cmd = some id
      (9 ≤ m.major → m.major ≤ 12 → s.cword c 0x80 ≤ n → errs 2) ∧
      (n < s.cword c 0x80 →
        (m.major = 9 → exec (.engineStart id) s = .next { u with
          barUpds := s.barUpds ++ [{ id := s.nextId, ctx := c, bar := n, cmd := some id, arr := w1 % 2 ^ 16, expB := 0 }], nextId := s.nextId + 1 }) ∧
        (m.major = 10 → exec (.engineStart id) s = .next { u with
          barUpds := s.barUpds ++ [{ id := s.nextId, ctx := c, bar := n, cmd := some id, arr := 0, expB := (w1 % 2 ^ 32 : Nat) }]
          nextId := s.nextId + 1 }) ∧
        (getD 0 s.barSeen (barKey c n) = s.gcyc + 1 →
          (m.major = 11 → s.barActive c n = false → errs 1) ∧
          (m.major = 11 → s.barActive c n = true → ∃ t x, exec (.engineStart id) s = .next t ∧ t.cmd? id = some x ∧ x.st = .running ∧
            t.mem = s.mem ∧ (x.aux = [] ↔ s.barParity c n = w1 % 2)) ∧
          (m.major = 12 → m.fn = 0 → s.barActive c n = true → errs 3) ∧
          (m.major = 12 → m.fn ≠ 0 → s.barActive c n = false → errs 3) ∧
          (m.major = 12 → m.fn = 0 → s.barActive c n = false → s.walk c false (s.cword c 0x78 + 64 * n) = none → errs 4) ∧
          (∀ l, m.major = 12 → m.fn = 0 → s.barActive c n = false → s.walk c false (s.cword c 0x78 + 64 * n) = some l →
            (l.wr = false ∨ l.cow = true ∨ l.tens.isSome = true → errs 4) ∧
            let pa := l.base + (s.cword c 0x78 + 64 * n) % l.size
            (l.wr = true → l.cow = false → l.tens = none → physClass pa = .hbm → pa % 64 = 0 → u.calm (pa / 64) 0 = true → s.clean id = true →
              ∃ t, exec (.engineStart id) s = .next t ∧ t.ended id = true ∧ t.barActive c n = true ∧
                t.barWord c n 0 = w1 % 2 ^ 16 * 2 ^ 16 + 1 ∧ t.barWord c n 1 = 0 ∧ t.barWord c n 2 = 0 ∧ t.barWord c n 3 = s.rd64 (pa + 24))) ∧
          (m.major = 12 → m.fn ≠ 0 → s.barActive c n = true → whole → s.clean id = true →
            ∃ t, exec (.engineStart id) s = .next t ∧ t.ended id = true ∧ t.barActive c n = false ∧
              ∀ d ∈ s.cmds, d.pos = 7 → d.major = 11 → d.ctx = c → d.st = .running → d.aux = [] → (d.w.getD 0 0).toNat = n →
                ∃ r ∈ t.recs, r.kind = 4 ∧ r.det1 = 1 ∧ r.cmd = some d.id)))) ∧
    (∀ id u, (s.barUpds.find? fun v => v.id == id) = some u → u.ctx = c → u.bar = n →
      (∀ d, u.cmd = some d → s.clean d = true → ∃ t, exec (.barrierUpdateApply id) s = .next t ∧ t.ended d = true ∧ ∀ v ∈ t.barUpds, v.id ≠ id) ∧
      (s.barActive c n = false →
        let key := match u.cmd with
          | some d => ((s.cmd? d).map Cmd.key).getD 0
          | none => 0
        let w := ({ s with barUpds := s.barUpds.filter fun v => v.id != id } : State).barPut c n 3 (min (s.barWord c n 3 + 1) (2 ^ 64 - 1))
        let l := w.log c 8 ((w.barPa c n).getD 0) (s.agentOf key)
        exec (.barrierUpdateApply id) s = .next (match u.cmd with
          | some d => l.fire d
          | none => l) ∧
        (whole → s.passes c (s.cword c 0x78 + 64 * n) (((s.barPa c n).getD 0) / 64) = false → (s.barPa c n).isSome = true →
          w.barWord c n 3 = min (s.barWord c n 3 + 1) (2 ^ 64 - 1) ∧ ∀ i, i < 8 → i ≠ 3 → w.barWord c n i = s.barWord c n i)) ∧
      (s.barActive c n = true → getD 0 s.barSeen (barKey c n) = s.gcyc + 1 → whole →
        let exp := sextI (s.barWord c n 2) 64 + u.expB
        ∃ t, exec (.barrierUpdateApply id) s = .next t ∧ t.barWord c n 1 = min (s.barWord c n 1 + u.arr) (2 ^ 32 - 1) ∧
          t.barWord c n 2 = wrapN (max (-2 ^ 62) (min (2 ^ 62) exp)) 64 ∧
          (s.barWord c n 1 + u.arr < 2 ^ 32 → -2 ^ 62 ≤ exp → exp ≤ 2 ^ 62 → t.barWord c n 0 = s.barWord c n 0))) ∧
    (let w := s.barWord c n 0
     let target := w / 2 ^ 16 % 2 ^ 16
     let full := s.barActive c n = true ∧ target ≤ s.barWord c n 1 ∧ s.barWord c n 2 = 0
     getD 0 s.barSeen (barKey c n) ≠ s.gcyc + 1 →
      (full → whole → ∃ t, exec (.barrierPhaseComplete c n) s = .next t ∧
        (∀ d ∈ s.cmds, let waits := d.pos = 7 ∧ d.major = 11 ∧ d.ctx = c ∧ d.st = .running ∧ d.aux = [] ∧ (d.w.getD 0 0).toNat = n ∧
            (d.w.getD 1 0).toNat % 2 ≠ (w / 2 ^ 32 + 1) % 2
          (waits → ∃ e ∈ t.cmds, e.id = d.id ∧ e.st = .done) ∧ (¬waits → d ∈ t.cmds)) ∧ t.barWord c n 1 = s.barWord c n 1 - target ∧
        t.barWord c n 2 = 0 ∧ t.barWord c n 0 / 2 ^ 32 = (w / 2 ^ 32 + 1) % 2 ^ 32 ∧ t.barWord c n 0 / 2 % 2 = (w / 2 ^ 32 + 1) % 2 ∧
        t.barWord c n 0 / 2 ^ 16 % 2 ^ 16 = target) ∧
      (¬full → ∃ t, exec (.barrierPhaseComplete c n) s = .next t ∧ t.mem = s.mem ∧ t.cmds = s.cmds)) ∧
    (n < 4096 → ∀ id m, s.cmd? id = some m → m.ctx = c → s.starts m = true → s.startViolates m = none → m.pos = 7 → grpNum m = n →
      let u := s.runCmd m
      let errs (code : Nat) : Prop := ∃ t r, exec (.engineStart id) s = .next t ∧ r ∈ t.recs ∧ r.kind = 4 ∧ r.det1 = code ∧ r.cmd = some id
      (m.major = 14 →
        (s.grpOk c n = false → errs 6) ∧
        (s.grpOk c n = true → s.grpState c n = 0 ∨ s.grpState c n = 4 → errs 1) ∧
        (s.grpOk c n = true → s.grpState c n ≠ 0 → s.grpState c n ≠ 4 →
          exec (.engineStart id) s = .next (((u.grpLeave c n).grpPut c n 6 0).fire id))) ∧
      (m.major = 13 →
        let cap := cap0 m
        (cap.pa % 64 ≠ 0 → errs (if s.grpOk c n = true ∧ (s.grpState c n ≠ 0 ∨ m.aux.getD 0 0 = 0) then 1 else 6)) ∧
        (cap.pa % 64 = 0 → s.violates (s.firmware m.key) cap.pa = false →
          let e := u.engineRead m cap 64
          let w (i : Nat) : Nat := ofBytes ((e.1.drop (8 * i)).take 8)
          let nn := w 0 % 2 ^ 14
          let room := (cap.base + cap.size - cap.pa - 64) / 8
          let f := e.2.2.engineRead m { cap with va := cap.va + 64, pa := cap.pa + 64 } (8 * min nn room)
          let v := f.2.2
          let ids := (List.range (min nn room)).map fun i => ofBytes ((f.1.drop (8 * i)).take 8)
          let gen := w 0 / 2 ^ 20 % 2 ^ 4
          let busy := v.grpOk c n = true ∧ (v.grpState c n ≠ 0 ∨ m.aux.getD 0 0 = 0)
          let bad := nn < 2 ∨ 8192 < nn ∨ w 0 / 2 ^ 14 % 4 ≠ 0 ∨ w 0 / 2 ^ 17 % 8 ≠ 0 ∨ 2 ^ 24 ≤ w 0 ∨ (∃ i, i < 8 ∧ 0 < i ∧ w i ≠ 0) ∨
            (∃ x ∈ ids, 2 ^ 14 ≤ x) ∨ ¬ids.Nodup ∨ nn ≤ room ∧ v.fab.fabid ∉ ids
          let old := v.grpOk c n = true ∧ v.grpUsed c n = true ∧ v.grpGen c n = gen
          (busy → errs 1) ∧ (¬busy → bad → errs 2) ∧ (¬busy → ¬bad → old → errs 3) ∧
          (¬busy → ¬bad → ¬old → v.grpOk c n = false ∨ room < nn → errs 6) ∧
          (¬busy → ¬bad → ¬old → v.grpOk c n = true → nn ≤ room → ∃ t, exec (.engineStart id) s = .next t ∧
            (t.grp c n).members = ids ∧ (t.grp c n).digest = ofBytes ((sha3 (e.1 ++ f.1)).take 8) ∧ (t.grp c n).joined = [] ∧
            (t.grp c n).grpc = some id)))) ∧
    (n < 4096 → ∀ (src : Nat) (j : GroupJoin), (src, PktBody.join (s.ctx c).tenant n j) ∈ s.fab.delivered → s.grpOk c n = true →
      s.grpState c n = 1 → (s.ctx c).st ≠ .free →
      let same := j.gen = s.grpGen c n ∧ j.n = s.grpN c n ∧ j.digest = (s.grp c n).digest
      (same → (∃ r, r ∈ s.grpOthers c n ∧ r ≠ j.member ∧ r ∉ (s.grp c n).joined) →
        ∃ t, exec (.groupJoinReceive c n j) s = .next t ∧ j.member ∈ (t.grp c n).joined ∧ t.mem = s.mem) ∧
      (same → (∀ r ∈ s.grpOthers c n, r = j.member ∨ r ∈ (s.grp c n).joined) → ∀ id, (s.grp c n).grpc = some id →
        ∃ t, exec (.groupJoinReceive c n j) s = .next t ∧ (s.clean id = true → t.ended id = true) ∧ (t.grp c n).grpc = none ∧
          t.mem = ((s.grpSetState c n 2).grpPut c n 6 0).mem) ∧
      (¬same → ∃ t r, exec (.groupJoinReceive c n j) s = .next t ∧ r ∈ t.recs ∧ r.kind = 6 ∧ r.ctx = c ∧ r.srcCode = 4 ∧
        r.det0 / 2 ^ 32 = 3)) ∧
    (n < 4096 → ∀ r, s.grpOk c n = true → (s.grpState c n = 1 ∨ s.grpState c n = 2) → r < s.grpN c n → r ≠ s.grpRank c n →
      (s.ctx c).st ≠ .free → (s.grp c n).members.getD r 16384 ∈ s.fab.unrch →
      ∃ t, exec (.memberFailure c n 1 r) s = .next t ∧
        (s.grpState c n = 1 → ∃ q, q ∈ t.recs ∧ q.kind = 6 ∧ q.ctx = c ∧ q.srcCode = 4 ∧ q.det0 / 2 ^ 32 = 1) ∧
        (s.grpState c n = 2 → (s.grp c n).failing = none → (t.grp c n).failing = some (1, r) ∧ t.mem = s.mem ∧
          ∃ q, q ∈ (t.failNow c n 1 r).recs ∧ q.kind = 6 ∧ q.ctx = c ∧ q.srcCode = 4 ∧ q.det0 / 2 ^ 32 = 1)) ∧
    (n < 4096 → ∀ src gen r, (src, PktBody.leave (s.ctx c).tenant n gen r) ∈ s.fab.delivered → (s.ctx c).st ≠ .free → s.grpOk c n = true →
      (∀ x g, (x, PktBody.leave (s.ctx c).tenant n g r) ∈ s.fab.delivered → g = gen) → s.grpState c n = 2 →
      gen = s.grpGen c n → (s.grp c n).failing = none →
      ∃ t, exec (.memberFailure c n 2 r) s = .next t ∧ (t.grp c n).failing = some (2, r) ∧ t.mem = s.mem) ∧
    (n < 4096 → s.grpOk c n = true → s.grpState c n = 4 →
      (s.gcyc < s.grpW c n 2 → exec (.quarantineEnd c n) s = .next s) ∧
      ∀ pa, s.grpW c n 2 ≤ s.gcyc → s.vpa c (s.grpVa c n) = some pa →
        s.violates false pa = false → s.calm (pa / 64) 0 = true → pa % 64 = 0 → ∃ t, exec (.quarantineEnd c n) s = .next t ∧ rdBytes t.mem pa 64 = quarClear (s.grpW c n 0) (s.grpW c n 3) ∧
          ∀ a, a < pa ∨ pa + 64 ≤ a → rdByte t.mem a = rdByte s.mem a)

/-- 12 R337–R345, R355–R363: the commands of CCTL, their errors and their ends; a fault record is written before its queue's TAIL,
and then its partition's FLTREC and its command's ticket follow.  It rests on the model's readings in
notes/assumptions/47. -/
def Obligations.ContextSteps : Prop :=
  ∀ (s : State) (c p : Nat), c < 64 →
    let x := s.ctx c
    let err (i : Instr) (e : Nat) : Prop := ∃ t, exec i s = .next t ∧ (t.ctx c).err = e ∧ (t.ctx c).st = x.st ∧ t.mem = s.mem
    (s.awake → x.busy = true ∨ s.sys.recovery = true → ∀ i ∈ [Instr.contextCreate c, .contextRun c, .contextPreempt c, .contextDestroy c],
      exec i s = .next s) ∧
    (s.awake → x.busy = false → s.sys.recovery = false →
      (x.st ≠ .free → err (.contextCreate c) 1) ∧
      (x.st = .free →
        let d := fld x.cdesc 49 10 * 1024
        let s1 := s.modCtx c fun y => { y with desc := (s.readDesc d).filter fun e => e.2 != 0 }
        (s1.descValid c d = false ∨ s1.boundPages c (s1.cword c 0xA8) 16384 = none → err (.contextCreate c) 2) ∧
        ∀ sem pool, s1.descValid c d = true → s1.boundPages c (s1.cword c 0xA8) 16384 = some sem →
          (if s1.cword c 0x68 = 0 then some [] else s1.boundPages c (s1.cword c 0x60) (s1.cword c 0x68)) = some pool →
          ((∃ e ∈ s.ctxs, e.1 ≠ c ∧ e.2.st ≠ .free ∧ ∃ q ∈ e.2.allot, q ∈ s.readAllot d) → err (.contextCreate c) 4) ∧
          ((∀ e ∈ s.ctxs, e.1 ≠ c → e.2.st ≠ .free → ∀ q ∈ e.2.allot, q ∉ s.readAllot d) → ∃ t, exec (.contextCreate c) s = .next t ∧
            (t.ctx c).st = .resident ∧ (t.ctx c).err = 0 ∧ (t.ctx c).allot = s.readAllot d ∧ (t.ctx c).semPages = sem ∧
            (t.th (csKey c)).pc = (s.rd64 (d + 0x18) + 0x140) % 2 ^ 52 ∧ ∀ n, (t.th (csKey c)).s n = 0)) ∧
      (x.st = .resident ∨ x.st = .halted → ∀ k, k < 4 → (∀ e ∈ s.ctxs, e.1 ≠ c → ¬(e.2.rdie = x.die ∧ e.2.slot = some k)) →
        ∃ t, exec (.contextRun c) s = .next t ∧ (t.ctx c).st = .running ∧ (t.ctx c).slot.isSome = true ∧ (t.ctx c).rdie = x.die ∧
          (t.th (csKey c)).mode = .running ∧ t.mem = s.mem) ∧
      (x.st = .resident ∨ x.st = .halted → (∀ k, k < 4 → ∃ e ∈ s.ctxs, e.1 ≠ c ∧ e.2.rdie = x.die ∧ e.2.slot = some k) →
        err (.contextRun c) 3) ∧
      (x.st ≠ .resident → x.st ≠ .halted → err (.contextRun c) 1) ∧
      (x.st = .running ∨ x.st = .halted → ∃ t, exec (.contextPreempt c) s = .next t ∧ (t.ctx c).st = .saving ∧ (t.ctx c).busy = true ∧
        (t.ctx c).err = 0 ∧ ∀ q ∈ x.allot, q < 3072 → (s.th q).task.isSome = true →
          ((s.th q).mode = .running ∨ (s.th q).mode = .parked → (s.th q).park.resume = none → (t.th q).mode = .saving) ∧
          ((s.th q).mode = .finishing → (s.th q).park.resume = none → (t.th q).mode = .finishing)) ∧
      (x.st ≠ .running → x.st ≠ .halted → err (.contextPreempt c) 1) ∧
      (x.st = .resident → ∃ t, exec (.contextDestroy c) s = .next t ∧ (t.ctx c).busy = true ∧ (t.ctx c).destroying = true) ∧
      (x.st ≠ .resident → err (.contextDestroy c) 1) ∧
      ∀ code, 5 ≤ code → code < 16 → err (.cctlInvalidCommand c code) 1) ∧
    (x.destroying = true → s.drained c = true → ∃ t, exec (.contextDestroyComplete c) s = .next t ∧ (t.ctx c).st = .free ∧
      (t.ctx c).allot = [] ∧ (∀ q ∈ t.chans, q.ctx ≠ c) ∧ (∀ g ∈ t.grps, g.ctx ≠ c) ∧ (∀ d ∈ t.deltas, d.ctx ≠ c) ∧
      (∀ e ∈ t.pages, e.1 / 16384 ≠ c) ∧ ∀ b ∈ t.bounce, b.ctx ≠ c) ∧
    (x.destroying = false ∨ s.drained c = false → exec (.contextDestroyComplete c) s = .next s) ∧
    (x.st = .saving → (∀ q ∈ x.allot, (s.th q).task = none) →
      ∃ t, exec (.saveComplete c) s = .next t ∧ (t.ctx c).st = .resident ∧ (t.ctx c).busy = false ∧ t.mem = s.mem) ∧
    (∀ j, p < 3072 → s.ctxOf p = c → (s.th p).mode = .saving → (∀ f ∈ (s.th p).flight, f.waiting = false) → (s.th p).xfers = [] →
      (s.th p).task = some j →
      ∃ t, exec (.partitionSaveComplete p) s = .next t ∧ (t.th p).mode = .idle ∧ (t.th p).task = none ∧
        t.mem = (s.vwrRun c (s.slotAddr c p) (s.slotImage c p)).mem ∧
        ∃ y, t.savedAt c p = some y ∧ y.task = some { j with slot := p } ∧ (∀ i, y.s i = (s.th p).s i) ∧ y.pc = (s.th p).pc ∧
          y.flight = (s.th p).flight ∧ y.savedMode = (s.th p).savedMode) ∧
    ∀ id r, (s.recs.find? fun q => q.id == id) = some r → (∀ q ∈ s.recs, q.src = r.src → q.fw = r.fw → r.id ≤ q.id) →
      let base := s.fqBase r
      let tail := s.fqRead r base
      let va := base + 0x80 + 128 * (tail % s.fqCnt r)
      s.fqCnt r ≠ 0 → ((r.cmd.bind s.cmd?).all fun m => m.pos != 6 || decide (m.major < 15) || decide (19 < m.major)) = true →
      (r.fw = false → s.vpa r.ctx base = none → exec (.faultRecordWrite id) s = .next s) ∧
      (r.fw = false → (s.vpa r.ctx base).isSome = true → tail < s.fqRead r (base + 8) + s.fqCnt r →
        (s.vpa r.ctx va = none → exec (.faultRecordWrite id) s = .next s) ∧
        ((s.vpa r.ctx va).isSome = true → ∃ t, exec (.faultRecordWrite id) s = .next t ∧
          t.mem = ((s.vwrRun r.ctx va (recImage (tail + 1) r)).vwrRun r.ctx base (bytesOf 8 (tail + 1))).mem ∧
          (∀ q ∈ t.recs, q.id ≠ id) ∧ (∀ k, r.parks = some k → (t.th k).fltrec = BitVec.ofNat 64 va) ∧
          ∀ k, r.cmd = some k → s.clean k = true → t.ended k = true)) ∧
      (r.fw = true → (∀ a ∈ [base, va, va + 64], s.violates false a = false ∧ s.calm (a / 64) 0 = true) →
      (tail < s.fqRead r (base + 8) + s.fqCnt r → ∃ t, exec (.faultRecordWrite id) s = .next t ∧
        rdBytes t.mem va 128 = recImage (tail + 1) r ∧ t.rd64 base = (tail + 1) % 2 ^ 64 ∧ (∀ q ∈ t.recs, q.id ≠ id) ∧
        (∀ k, r.parks = some k → (t.th k).fltrec = BitVec.ofNat 64 va) ∧ ∀ k, r.cmd = some k → s.clean k = true → t.ended k = true) ∧
      (s.rd64 (base + 8) + s.fqCnt r ≤ tail → r.counted = false → ∃ t, exec (.faultRecordWrite id) s = .next t ∧
        t.rd64 (base + 16) = (s.rd64 (base + 16) + 1) % 2 ^ 64 ∧ ∃ q ∈ t.recs, q.id = id ∧ q.counted = true) ∧
      (s.rd64 (base + 8) + s.fqCnt r ≤ tail → r.counted = true → exec (.faultRecordWrite id) s = .next s))

/-! ### Links, packets, debug, registers (17, 19, 20) -/

/-- 17 R433, R435, R443, R444, 20 R489: the states of a link and what moves it between them, in a cycle in which firmware has not; flits
that arrive in sequence are taken, those that fail their CRC are counted, and those not acknowledged are sent again, up to 8 times.
Below I0 an arriving flit or a write of firmware's starts the exit and waits, in the order in which they came (notes/assumptions/68).  Entering DISABLED clears the counters and keeps what the link
has learnt of its peer.  That every flit not acknowledged is sent again together is the model's
choice (notes/assumptions/115). -/
def Obligations.LinkSteps : Prop :=
  ∀ (s : State) (p : Nat) (peer : LinkPeer) (ofs : Int) (flit : Flit), p ≤ 24 →
    let l := s.link p
    let goes (i : Instr) (st : Nat) : Prop := ∃ t, exec i s = .next t ∧ (t.link p).st = st ∧ (t.link p).since = s.gcyc ∧
      ∀ q, q ≠ p → t.link q = s.link q
    (s.awake →
      (l.st = 0 → goes (.linkEnable p) 1) ∧ (l.st ≠ 0 → exec (.linkEnable p) s = .next s) ∧
      (l.st ≠ 0 → goes (.linkDisable p) 0 ∧ ∃ t, exec (.linkDisable p) s = .next t ∧ t.link p =
        { st := 0, since := s.gcyc, peer := l.peer, peerPort := l.peerPort, peerOfs := l.peerOfs, fwAt := s.gcyc + 1 })) ∧
    (l.fwAt = s.gcyc + 1 → ∀ i ∈ [Instr.signalDetect p, .linkTrained p peer, .trainingTimeout p, .retryExhausted p, .retrainDone p,
      .retrainFail p, .signalLost p, .timeStampExchange p ofs, .flitReceive p flit, .flitResend p], exec i s = .next s) ∧
    (l.fwAt ≠ s.gcyc + 1 →
    (l.st = 1 → goes (.signalDetect p) 2) ∧
    (l.st = 2 → s.gcyc < l.since + 2 ^ 24 → goes (.linkTrained p peer) 3 ∧ (p < 24 → ∃ t, exec (.linkTrained p peer) s = .next t ∧
      (t.link p).peer = peer.pkg % 2 ^ 14 ∧ (t.link p).peerPort = peer.port % 32 ∧ (t.link p).peerOfs = peer.ofs)) ∧
    (l.st = 2 → l.since + 2 ^ 24 ≤ s.gcyc → goes (.trainingTimeout p) 1 ∧ exec (.linkTrained p peer) s = .next s) ∧
    (l.st = 3 →
      ((∃ e ∈ l.replay, 8 ≤ e.2.2) → goes (.retryExhausted p) 4 ∧ ∃ t, exec (.retryExhausted p) s = .next t ∧
        (t.link p).exhaust = min (l.exhaust + 1) 65535 ∧ (t.link p).replay = [] ∧
        ∀ k ∈ t.fab.sent, (∃ e ∈ l.replay, e.2.1 = some k.id) → k.again = true) ∧
      (l.replay ≠ [] → (∀ e ∈ l.replay, e.2.2 < 8) → ∃ t, exec (.flitResend p) s = .next t ∧ (t.link p).st = 3 ∧
        (t.link p).replay = (l.replay.map fun e => (e.1, e.2.1, e.2.2 + 1)) ∧
        (t.link p).retry = min (l.retry + l.replay.length) (2 ^ 32 - 1))) ∧
    (l.st = 4 → (l.narrow < 2 → goes (.retrainDone p) 3 ∧ ∃ t, exec (.retrainDone p) s = .next t ∧ (t.link p).narrow = l.narrow + 1) ∧
      (2 ≤ l.narrow → exec (.retrainDone p) s = .next s) ∧ goes (.retrainFail p) 5) ∧
    (l.st = 2 ∨ l.st = 3 ∨ l.st = 4 → goes (.signalLost p) 1) ∧
    (l.st = 3 → p < 24 → ∃ t, exec (.timeStampExchange p ofs) s = .next t ∧ t.link p = { l with peerOfs := ofs }) ∧
    (l.st = 3 → s.sys.idle ≠ 0 → ∃ t, exec (.flitReceive p flit) s = .next t ∧ t.sys.idleTo.isSome = true ∧
      t.sys.asked = s.sys.asked ++ [.flit p flit s.gcyc] ∧ t.links = s.links ∧ t.fab = s.fab) ∧
    (l.st = 3 → s.awake →
      (flit.crcOk = false → ∃ t, exec (.flitReceive p flit) s = .next t ∧ (t.link p).crc = min (l.crc + 1) (2 ^ 32 - 1) ∧
        ((t.link p).st = if (l.crcTimes.filter fun a => decide (s.gcyc < a + 2 ^ 20)).length < 63 then 3 else 4) ∧
        t.fab.early = s.fab.early) ∧
      (flit.crcOk = true → flit.seq % 4096 ≠ l.rxNext → ∃ t, exec (.flitReceive p flit) s = .next t ∧
        (t.link p).rxNext = l.rxNext ∧ (t.link p).flitRx = l.flitRx ∧ t.fab = s.fab) ∧
      (flit.crcOk = true → flit.seq % 4096 = l.rxNext → ∃ t, exec (.flitReceive p flit) s = .next t ∧
        (t.link p).rxNext = (l.rxNext + 1) % 4096 ∧ (t.link p).flitRx = min (l.flitRx + 1) (2 ^ 64 - 1) ∧
        ∀ k, flit.pkt = some k → p < 24 → k.dst = s.fab.fabid → k.src ∉ s.fab.unrch → getD 0 s.fab.rxSeq k.src ≤ k.seq →
          k ∈ t.fab.early ∨ ∃ e ∈ s.fab.early, e.src = k.src ∧ e.seq = k.seq)))

/-- 17 R436, R437, R441, R442: a packet is delivered in the order of its pair, discarded where it ages in the switch, sent again
while it is not acknowledged, and given up after 2^21 cycles: its destination is then unreachable, till firmware clears it and both
ends resynchronise; the package's own entry is ignored.  It rests on the model's readings in
notes/assumptions/57, 66, 115 and 142 (the answer to a resynchronisation not awaited). -/
def Obligations.PacketSteps : Prop :=
  ∀ (s : State) (x seq id port : Nat),
    (∀ k, (s.fab.early.find? fun k => k.src == x && k.seq == seq) = some k → x ∉ s.fab.resync →
      (seq = getD 0 s.fab.rxSeq x → k.body ≠ .resync → ∃ t, exec (.packetDeliver x seq) s = .next t ∧
        t.fab.delivered = s.fab.delivered ++ [(x, k.body)] ∧ getD 0 t.fab.rxSeq x = seq + 1 ∧
        ∀ e ∈ t.fab.early, e.src = x → seq < e.seq) ∧
      (seq ≠ getD 0 s.fab.rxSeq x → exec (.packetDeliver x seq) s = .next s)) ∧
    (∀ e, (s.fab.through.find? fun e => e.pkt.src == x && e.pkt.seq == seq && decide (2 ^ 20 < e.pkt.age + (s.gcyc - e.since))) = some e →
      s.leavesBy e.entry = port → ∃ t, exec (.packetAgeDiscard port x seq) s = .next t ∧
        t.fab.through = s.fab.through.erase e ∧ (t.link port).dropAge = min ((s.link port).dropAge + 1) (2 ^ 32 - 1)) ∧
    (∀ k, (s.fab.sent.find? fun k => k.id == id) = some k →
      (∀ p alt, (k.again = true ∨ k.last + 2 ^ 16 ≤ s.gcyc) → (∀ f, k.first = some f → s.gcyc < f + 2 ^ 21) → k.dst ∉ s.fab.resync →
        s.route k.dst = some (p, alt) →
        ∃ t, exec (.packetResendTimeout id) s = .next t ∧
          (s.link p).replay.length + (s.link p).queue.length < (t.link p).replay.length + (t.link p).queue.length ∧
          ∀ y ∈ t.fab.sent, y.id = id → y.last = s.gcyc ∧ y.again = false ∧ y.port = some p ∧ y.first.isSome = true) ∧
      (k.first.isSome = true → ∃ t, exec (.packetAckReceive id) s = .next t ∧ (∀ y ∈ t.fab.sent, y.id ≠ id) ∧
        ∀ m, k.cmd = some m → s.clean m = true → t.ended m = true) ∧
      (k.first = none → exec (.packetAckReceive id) s = .next s) ∧
      (∀ f, k.first = some f → f + 2 ^ 21 ≤ s.gcyc → ∃ t, exec (.packetGiveUp id) s = .next t ∧ k.dst ∈ t.fab.unrch) ∧
      ((∀ f, k.first = some f → s.gcyc < f + 2 ^ 21) → exec (.packetGiveUp id) s = .next s)) ∧
    (∀ g, (s.fab.noRoute.find? fun e => e.1 == x) = some (x, g) →
      (g + 2 ^ 18 ≤ s.gcyc → x ≠ s.fab.fabid → ∃ t, exec (.noRouteTimeout x) s = .next t ∧ x ∈ t.fab.unrch) ∧
      (s.gcyc < g + 2 ^ 18 ∨ x = s.fab.fabid → exec (.noRouteTimeout x) s = .next s)) ∧
    (∀ src, (src, PktBody.notice x) ∈ s.fab.delivered → ∃ t, exec (.unreachableNoticeReceive x) s = .next t ∧ x ∈ t.fab.unrch) ∧
    (s.awake → x < 2 ^ 14 →
      (x ∈ s.fab.unrch → ∃ t, exec (.unrchClear x) s = .next t ∧ x ∉ t.fab.unrch ∧ x ∈ t.fab.resync ∧ getD 0 t.fab.rxSeq x = 0) ∧
      (x ∉ s.fab.unrch → exec (.unrchClear x) s = .next s)) ∧
    ∀ k, (s.fab.early.find? fun k => k.src == x && k.body == .resync) = some k →
      ∃ t, exec (.resyncReceive x) s = .next t ∧ getD 0 t.fab.rxSeq x = k.seq + 1 ∧ (∀ e ∈ t.fab.early, e ∈ s.fab.early ∧ e ≠ k) ∧
        (x ∈ s.fab.resync → x ∉ t.fab.resync ∧ t.fab.sent = s.fab.sent) ∧
        (x ∉ s.fab.resync → x ∉ s.fab.unrch → (s.routeWord x).getLsbD 0 = true →
          t.fab.sent.length = s.fab.sent.length + 1 ∧ ∃ q ∈ t.fab.sent, q.dst = x ∧ q.body = .resync)

/-- 19 R471–R476, R480–R483, R486, R487, 05 R137: STOP and RUN act at the next GCYC edge, on every partition of their scope at once; STEP runs one
bundle; after a stop's end the handles are walked again; writes through the window; a debug line write replaces a line of code
everywhere, its poison flag cleared (the model's reading, notes/assumptions/79), once no translation rests on the line; a token, judged with the
bytes that stand at the end of the check (notes/assumptions/80), enables features; the counters are written; a marker and a stall that ends
put the next entry into the trace ring, or count one lost (R480–R482).  It rests on the model's readings in
notes/assumptions/116 and 120 too. -/
def Obligations.DebugSteps : Prop :=
  ∀ (s : State) (p scope : Nat) (v : W64), p < 3072 →
    let sc := scope % 4
    (s.awake → s.feature 0 = false ∨ (s.th p).dbg.step = true ∨ s.sys.recovery = true →
      exec (.debugStop p scope) s = .next s ∧ exec (.debugStep p) s = .next s ∧ exec (.debugRun p scope) s = .next s) ∧
    (s.awake → s.feature 0 = true → (s.th p).dbg.step = false → s.sys.recovery = false →
      (∃ t, exec (.debugStop p scope) s = .next t ∧ t.mem = s.mem ∧ (∀ q ∈ s.debugScope p sc, t.th q = { s.th q with
          dbg := if (s.th q).dbg.step then { (s.th q).dbg with cause := 1 } else { (s.th q).dbg with edge := 1 } }) ∧
        ∀ q, q ∉ s.debugScope p sc → t.th q = s.th q) ∧
      (∃ t, exec (.debugRun p scope) s = .next t ∧ t.mem = s.mem ∧
        (∀ q ∈ s.debugScope p sc, t.th q = { s.th q with dbg := { (s.th q).dbg with edge := 2 } }) ∧
        ∀ q, q ∉ s.debugScope p sc → t.th q = s.th q) ∧
      let again (q : Nat) (t : State) : Prop := (t.th q).pc = (s.th q).pc ∧ (t.th q).scyc = (s.th q).scyc ∧
        (t.th q).flight = (s.th q).flight ∧ (∀ n, (t.th q).s n = (s.th q).s n) ∧
        (∀ h, (t.th q).h h = if ((s.th q).h h).st = .valid then { st := .pending, va := ((s.th q).h h).va } else (s.th q).h h) ∧
        ((s.th q).task.isSome = true → (t.th q).drth = drthOf (s.ctx (s.ctxOf q)).cdbg)
      (∀ q, (s.th q).dbg.edge = 1 → (s.th q).dbg.stopped = false → (s.th q).dbg.step = false → let t := s.edgeTick
        (t.th q).dbg = { stopped := true, cause := 1 } ∧ (t.th q).pc = (s.th q).pc ∧ (t.th q).scyc = (s.th q).scyc ∧
          (t.th q).mode = (s.th q).mode ∧ (t.th q).flight = (s.th q).flight) ∧
      (∀ q, (s.th q).dbg.edge = 1 → (s.th q).dbg.stopped = true → (s.edgeTick.th q).dbg = { (s.th q).dbg with edge := 0 }) ∧
      (∀ q, (s.th q).dbg.edge = 2 → (s.th q).dbg.stopped = true → (s.edgeTick.th q).dbg = {} ∧ again q s.edgeTick) ∧
      ((s.th p).dbg.stopped = true → (s.th p).dbg.edge = 0 → (s.th p).mode = .running → ∃ t, exec (.debugStep p) s = .next t ∧
        (t.th p).dbg = { step := true } ∧ again p t ∧ ∀ q, q ≠ p → t.th q = s.th q)) ∧
    (s.awake → s.feature 2 = true → s.windowOpen p = true →
      (∀ n, 1 ≤ n → n < 64 → ∃ t, exec (.windowWrite p (0x400 + 8 * n) v) s = .next t ∧ (t.th p).s n = v ∧
        (∀ j, j ≠ n → (t.th p).s j = (s.th p).s j) ∧ ∀ q j, q ≠ p → (t.th q).s j = (s.th q).s j) ∧
      (∀ n j, n < 60 → j < 32 → ∃ t, exec (.windowWrite p (0x800 + 256 * n + 8 * j) v) s = .next t ∧
        (∀ i, i < 32 → vLane ((t.th p).vPhys n) 64 i = if i = j then v.toNat else vLane ((s.th p).vPhys n) 64 i) ∧
        (∀ i, i ≠ n → (t.th p).vPhys i = (s.th p).vPhys i) ∧ t.mem = s.mem) ∧
      ∃ t, exec (.windowWrite p 0x2E0 v) s = .next t ∧ ∀ i, i < 16 → (t.th p).p i = (i == 0 || v.getLsbD i)) ∧
    (s.awake → s.feature 2 = false ∨ s.windowOpen p = false → exec (.windowWrite p scope v) s = .next s) ∧
    (s.awake → s.feature 3 = true → s.sys.dlPending = none →
      exec (.debugLineWrite v) s = .next { s with sys := { s.sys with dlPending := some (v.toNat / 64 % 2 ^ 44) } }) ∧
    (∀ l, s.sys.dlPending = some l → s.partWaits l = true → exec .debugLineWritePerform s = .next s) ∧
    (∀ l, s.sys.dlPending = some l → s.partWaits l = false → s.violates true (l * 64) = false → physClass (l * 64) ≠ .control →
      s.protectedKind (l * 64) = none →
      let data := (List.range 64).map fun i => getD 0 s.sys.dlData i
      (s.still 0 (l * 64) data = true → ∃ t, exec .debugLineWritePerform s = .next t ∧
        t.sys.dlPending = none ∧ (∀ e ∈ t.icache, e.2.1 ≠ l) ∧ rdBytes t.mem (l * 64) 64 = data ∧
        t.tag (l * 64) = mkTag false (tagVer (s.tag (l * 64))) ∧ (∀ a, a < l * 64 ∨ l * 64 + 64 ≤ a → rdByte t.mem a = rdByte s.mem a)) ∧
      (s.still 0 (l * 64) data = false → ∃ t r, exec .debugLineWritePerform s = .next t ∧ t.sys.dlPending = some l ∧
        (∀ e ∈ t.icache, e.2.1 ≠ l) ∧ t.mem = s.mem ∧ t.reqs = s.reqs ++ [r] ∧ r.key = 4001 ∧
        r.kind = .store (l * 64) data (some (tagVer (s.tag (l * 64)))) false none)) ∧
    (∀ l, s.sys.dlPending = some l → s.partWaits l = false → (s.violates true (l * 64) = true ∨ physClass (l * 64) = .control ∨ (s.protectedKind (l * 64)).isSome = true) → ∃ t,
      exec .debugLineWritePerform s = .next t ∧ t.sys.dlPending = none ∧ (∀ e ∈ t.icache, e.2.1 ≠ l) ∧ t.tags = s.tags) ∧
    (s.awake → s.sys.tokenBusy = false → exec (.debugUnlock 1) s = .next { s with sys := { s.sys with tokenBusy := true, dunlk := 1 } }) ∧
    (s.awake → v ≠ 1 → exec (.debugUnlock v) s = .next s) ∧
    (s.sys.tokenBusy = true → ∃ t, exec .debugTokenCheckDone s = .next t ∧ t.sys.tokenBusy = false ∧
      (t.sys.dunlk = 2 ∨ t.sys.dunlk = 4) ∧ (t.sys.dunlk = 4 → t.sys.debugOn = s.sys.debugOn) ∧
      (t.sys.dunlk = 2 → ∀ i, i < 8 → getD 0 s.sys.dtok (0x20 + i) = (s.sys.dnonce.getD i 0)) ∧ t.mem = s.mem ∧ t.thr = s.thr) ∧
    (∀ c w0 baddr w3,
      let base := fld (s.ctx c).trbase 49 12 * 4096
      let n := 2 ^ ((s.ctx c).trbase.toNat % 32)
      let tail := s.rd64 base
      let entry := base + 0x40 + 32 * (tail % n)
      let t := s.traceLog c w0 baddr w3
      (∀ a ∈ [base, entry], physClass a = .hbm ∧ s.protectedKind a = none ∧ s.calm (a / 64) 0 = true) →
      (tail < s.rd64 (base + 8) + n →
        (s.agentWrite c entry ([(tail + 1) % 2 ^ 32 * 2 ^ 32 + w0, baddr, s.gcyc, w3].flatMap (bytesOf 8))).protectedKind base = none →
        rdBytes t.mem entry 32 = [(tail + 1) % 2 ^ 32 * 2 ^ 32 + w0, baddr, s.gcyc, w3].flatMap (bytesOf 8) ∧
        t.rd64 base = (tail + 1) % 2 ^ 64) ∧
      (s.rd64 (base + 8) + n ≤ tail → t.rd64 (base + 16) = (s.rd64 (base + 16) + 1) % 2 ^ 64 ∧ t.rd64 base = tail)) ∧
    (∀ (w : W32) (baddr elap : Nat),
      let c := s.ctxOf p
      let drift := sextI (wrapN ((elap : Int) - (w.toNat % 2 ^ 20 : Nat)) 20) 20
      let beyond := fld (s.th p).drth 19 0 < drift.natAbs
      let t := s.marker p w baddr elap
      (s.tracing c = false → t.mem = s.mem ∧ (t.th p).stallArmed = false) ∧
      (s.tracing c = true → ((t.th p).stallArmed = true ↔ beyond) ∧
        t.mem = if (s.th p).drth.getLsbD 20 = true ∨ beyond then
          (s.traceLog c (p * 2 ^ 20 + w.toNat / 2 ^ 20 * 2 ^ 8 + 1) baddr (wrapN drift 64)).mem else s.mem)) ∧
    (∀ cause, (s.th p).held = some cause →
      (s.stallEnd p).mem = (if (s.th p).stallArmed = true ∧ s.tracing (s.ctxOf p) = true then
        (s.traceLog (s.ctxOf p) (p * 2 ^ 20 + 2) (s.th p).pc ((s.gcyc - (s.th p).heldFrom) * 2 ^ 32 + cause)).mem else s.mem) ∧
      ((s.stallEnd p).th p).held = none) ∧
    ∀ core n, s.awake → core < 384 → n < 16 → s.feature 5 = true →
      (∃ t, exec (.pmcWrite core n v) s = .next t ∧ (getD 0 t.pmc (core * 16 + n)).toNat % 2 ^ 48 = v.toNat % 2 ^ 48 ∧
        (v.getLsbD 63 = true → (getD 0 t.pmc (core * 16 + n)).getLsbD 63 = false) ∧
        ∀ j, j ≠ core * 16 + n → getD 0 t.pmc j = getD 0 s.pmc j) ∧
      ∃ t, exec (.pmselWrite core n v) s = .next t ∧ (getD 0 t.pmsel (core * 16 + n)).toNat = v.toNat % 2 ^ 16 ∧
        ∀ j, j ≠ core * 16 + n → getD 0 t.pmsel j = getD 0 s.pmsel j

/-- 00 R12, R13, 17 R441, R444, 19 Table 19-4, 20 R489, R490, R499: writes of the control space.  At I0 a write takes effect; below, it starts the
exit and waits; one of the cycle that enters a deeper level comes after the entry; in RECOVERY it is ignored (the model's reading,
notes/assumptions/89).  It rests on the model's readings in notes/assumptions/68 (the queue of what waits), 77 and 78 too. -/
def Obligations.RegisterWrites : Prop :=
  ∀ (s : State) (v : W64) (n : Nat),
    let reg (off : Nat) : Instr := .registerWrite (0x10000000000 + off) v
    (s.awake → s.sys.recovery = true → ∀ off, off < 2 ^ 32 → exec (reg off) s = .next s) ∧
    (s.sys.idle ≠ 0 ∨ s.entryDue = true → ∀ off, off < 2 ^ 32 → off % 8 = 0 → ∃ t, exec (reg off) s = .next t ∧ t.mem = s.mem ∧
      t.sys.idle = (if s.entryDue then s.sys.idle + 1 else s.sys.idle) ∧
      t.sys.idleTo.isSome = true ∧ t.sys.asked = s.sys.asked ++ [.reg (0x10000000000 + off) v]) ∧
    (∀ a, physClass a ≠ .control → exec (.registerWrite a v) s = .next s) ∧
    (s.awake → s.sys.recovery = false →
      exec (reg 0x1000) s = .next { s with fab := { s.fab with fabid := v.toNat % 2 ^ 14 } } ∧
      (∃ t, exec (reg 0x7800) s = .next t ∧ t.sys.plim.toNat = max 600 (min 2200 (v.toNat % 2 ^ 12)) ∧ t.mem = s.mem ∧ t.thr = s.thr) ∧
      (n < 64 → ∃ t, exec (reg (16 * n)) s = .next t ∧ (t.ctx n).cdesc.toNat = v.toNat % 2 ^ 50 / 1024 * 1024 ∧
        (∀ c, c ≠ n → t.ctx c = s.ctx c) ∧ t.mem = s.mem ∧ t.thr = s.thr) ∧
      (n < 64 → ∃ t, exec (reg (0x9000 + 16 * n)) s = .next t ∧ (t.ctx n).tmode = v.toNat % 4 ∧ t.mem = s.mem) ∧
      (n < 16384 → ∃ t, exec (reg (0x1000000 + 8 * n)) s = .next t ∧
        (∀ i, i < 64 → (t.routeWord n).getLsbD i = (v.getLsbD i && decide (i = 0 ∨ (18 ≤ i ∧ i < 40)))) ∧
        ∀ m, m ≠ n → t.routeWord m = s.routeWord m) ∧
      (n < 25 → exec (reg (0x4000 + 8 * n)) s = exec (if v.getLsbD 0 then .linkEnable n else .linkDisable n) s) ∧
      (n < 256 → v.getLsbD 16 = true → ∃ t, exec (.tenantProvision n v) s = .next t ∧ (∃ x ∈ t.tenants, x.slot = n ∧
          x.reg.toNat = v.toNat % 2 ^ 17 ∧ x.quota = ((s.tenantSlot n).map Tenant.quota).getD 0) ∧
        (∀ x, x.slot ≠ n → (x ∈ t.tenants ↔ x ∈ s.tenants)) ∧ t.mem = s.mem) ∧
      (n < 256 → v.getLsbD 16 = false → ∀ x, s.tenantSlot n = some x →
        (x.reg.getLsbD 16 = true → (∃ e ∈ s.ctxs, e.2.st ≠ .free ∧ e.2.tenant = x.reg.toNat % 2 ^ 16) →
          exec (.tenantRelease n v) s = .next s) ∧
        ((∀ e ∈ s.ctxs, e.2.st = .free ∨ e.2.tenant ≠ x.reg.toNat % 2 ^ 16) → ∃ t, exec (.tenantRelease n v) s = .next t ∧
          (∀ y ∈ t.tenants, y.slot ≠ n) ∧ t.mem = s.mem ∧
          (x.reg.getLsbD 16 = true → ∀ e ∈ t.reuse, e.tenant ≠ x.reg.toNat % 2 ^ 16))))

/-! ### State-vector commands at their engine (18) -/

/-- 18 R453, R455, R458, R460–R466, Tables 18-3 to 18-6: a command whose object has one in progress waits; an object number outside
the table, an object that is not READY or is FAILED, a qubit it does not have, and a bad descriptor each end in the code of the
table; a QINIT creates the object in the state |0…0⟩, or with REL = 1 frees the record; a QSWAP in one package exchanges two map
entries and raises QSEQ, and fires; in one package, with its qubits local, QGATE multiplies each group of amplitudes by its matrix,
QDIAG each amplitude by its entry, each component one exact sum rounded once, and QMEAS writes the sums and samples of the squares.
It rests on the model's readings in notes/assumptions/53 and 59. -/
def Obligations.StateVectorSteps : Prop :=
  (∀ (s : State) (id : Nat) (m : Cmd), s.cmd? id = some m → m.pos = 6 → 15 ≤ m.major → m.major ≤ 19 → m.st = .running →
    (∀ q ∈ s.qcmds, q.1 ≠ id) → s.clean id = true → s.capsOwed m = false →
    let n := svNum (m.w.getD 0 0)
    let o := s.svGet m.ctx n
    let q (i : Nat) : Nat := svQubit (m.w.getD 0 0) i
    let cap := m.caps.getD 0 { va := 0, pa := 0, base := 0, size := 0, tens := none }
    let e := s.engineRead m cap 64
    let w (i : Nat) : Nat := wordOf e.1 (8 * i)
    let does (t : State) : Prop := exec (.stateVectorCommandComplete id) s = .next t
    let errs (code : Nat) : Prop := ∃ t r, does t ∧ t.ended id = false ∧ r ∈ t.recs ∧ r.kind = 4 ∧ r.det1 = code ∧ r.cmd = some id
    ((∃ x ∈ s.qcmds, x.2.1 = m.ctx ∧ x.2.2 = n) → does s) ∧
    ((∀ x ∈ s.qcmds, x.2.1 ≠ m.ctx ∨ x.2.2 ≠ n) →
      (s.cword m.ctx 0xA0 ≤ n → errs 1) ∧
      (n < s.cword m.ctx 0xA0 →
        (m.major ≠ 15 → o.st = 2 → errs 7) ∧
        (m.major ≠ 15 → o.st ≠ 1 → o.st ≠ 2 → errs 1) ∧
        (m.major = 18 → o.st = 1 → svN m.fn = 2 → o.nq ≤ q 0 ∨ o.nq ≤ q 1 → errs 3) ∧
        (m.major = 15 → (w 0).testBit 31 = true → o.st = 0 → errs 1) ∧
        (m.major = 15 → (w 0).testBit 31 = false →
          (w 0 % 16 ≠ 10 ∧ w 0 % 16 ≠ 11) ∨ w 0 / 1024 % 4 = 3 ∨ w 1 % 4096 ≠ 0 ∨ w 2 ≠ 0 → errs 2) ∧
        (m.major = 15 → (w 0).testBit 31 = true → o.st ≠ 0 → e.2.2.clean id = true → ∃ t, does t ∧
          t.ended id = true ∧ t.mem = (e.2.2.vwrRun m.ctx (s.cword m.ctx 0x98 + 128 * n) (List.replicate 128 0)).mem) ∧
        (∀ x, m.major = 15 → (w 0).testBit 31 = false → e.2.2.svCreate m.ctx ((List.range 8).map w) = some x →
          x = { st := 1, fmt := w 0 % 2 ^ 4, nq := w 0 / 2 ^ 4 % 2 ^ 6, dieb := w 0 / 2 ^ 10 % 2 ^ 2, chipb := w 0 / 2 ^ 12 % 2 ^ 4
                group := w 0 / 2 ^ 16 % 2 ^ 12, base := w 1, map := List.range (w 0 / 2 ^ 4 % 2 ^ 6) } ∧
          (e.2.2.svPages m x.base x.bytes true = none → errs 5) ∧
          ∀ ps, e.2.2.svPages m x.base x.bytes true = some ps →
            (m.fn = 16 → does (e.2.2.svEnd m x)) ∧
            (m.fn = 0 → does ((e.2.2.svWrite { m with caps := m.caps.take 1 ++ ps } x (x.zeroState (e.2.2.svRank m.ctx x)) fun _ => true).svEnd
              m x))) ∧
        (m.major = 18 → o.st = 1 → o.chipb = 0 → svN m.fn = 2 → q 0 < o.nq → q 1 < o.nq → o.map.Nodup →
          ∃ t, does t ∧ t.ended id = true ∧
            t.mem = (s.svPut m.ctx n { o with
              qseq := (o.qseq + 1) % 2 ^ 32
              map := (o.map.set (q 0) (o.map.getD (q 1) 0)).set (q 1) (o.map.getD (q 0) 0) }).mem) ∧
        (m.major = 16 ∨ m.major = 17 ∨ m.major = 19 → o.st = 1 → o.chipb = 0 → m.met = [] →
          let k := svN m.fn
          let qs := (List.range k).map q
          let d := if m.major = 16 then o.e * 4 ^ k else if m.major = 17 then o.e * 2 ^ k else 0
          let sa := s.engineRead m cap 16
          let smp := m.major = 19 ∧ m.fn / 16 = 1
          let s0 := if smp then sa.2.2 else s
          let m0 : Cmd := if smp then { m with w := m.w.take 2 ++ [BitVec.ofNat 64 (wordOf sa.1 0), BitVec.ofNat 64 (wordOf sa.1 8)] } else m
          let cnt := (m0.w.getD 3 0).toNat % 2 ^ 32
          let bad := d ≠ 0 ∧ ((cap.pa - cap.base) % d ≠ 0 ∨ cap.size < cap.pa - cap.base + d) ∨
            smp ∧ (65536 < cnt ∨ cap.size < cap.pa - cap.base + 0x40 + 8 * 2 ^ k + cnt)
          (bad → errs 2) ∧
          (¬bad → (∃ x ∈ qs, o.nq ≤ x) → errs 3) ∧
          (¬bad → (∀ x ∈ qs, x < o.nq) →
            (m.major = 16 → o.loc < k → errs 4) ∧
            ((m.major = 16 → k ≤ o.loc) →
              (s0.svPages m0 o.base o.bytes (m.major != 19) = none → errs 5) ∧
              ∀ ps, s0.svPages m0 o.base o.bytes (m.major != 19) = some ps →
                (m.major = 16 → ∀ x ∈ qs, o.map.getD x 0 < o.loc) →
                let g := s0.engineRead m0 cap d
                let m1 : Cmd := { m0 with caps := cap :: ps, hash := g.1, aux := 0 :: 0 :: o.map }
                let r := ({ g.2.2.modCmd id (fun _ => m1) with qcmds := g.2.2.qcmds ++ [(id, m.ctx, n)] } : State).svRead m1 o fun _ => true
                let b := qs.map fun x => o.map.getD x 0
                let after := { o with qseq := (o.qseq + 1) % 2 ^ 32 }
                (r.2.1 ≠ [] → errs 6) ∧
                (r.2.1 = [] →
                  (m.major = 16 → does ((r.2.2.svWrite m1 o (o.gate (o.entries g.1) b r.1) fun _ => true).svEnd m1 after)) ∧
                  (m.major = 17 → does ((r.2.2.svWrite m1 o (o.diag (o.entries g.1) b 0 r.1) fun _ => true).svEnd m1 after)) ∧
                  (m.major = 19 → does ((r.2.2.svResult m1 (o.sums k 0 b r.1)).svEnd m1 after))))))))) ∧
  (∀ (o : SvObj) (u : List (Ex × Ex)) (b : List Nat) (a : List Amp) (rank p : Nat),
    let grp (k : Nat) : Amp := a.getD (withLocal b p k) (0, false)
    let part (x : Nat) : Ex × Ex := (o.half.decode (x % 2 ^ (4 * o.e)), o.half.decode (x / 2 ^ (4 * o.e) % 2 ^ (4 * o.e)))
    let re (x y : Ex × Ex) : List Ex := [x.1.mul y.1, (x.2.mul y.2).negate]
    let im (x y : Ex × Ex) : List Ex := [x.1.mul y.2, x.2.mul y.1]
    (p < o.count → o.fmt = 10 → (o.zeroState rank).getD p (0, true) = (if p = 0 ∧ rank = 0 then 0x3F800000 else 0, false)) ∧
    (p < o.count → o.fmt = 11 → (o.zeroState rank).getD p (0, true) = (if p = 0 ∧ rank = 0 then 0x3FF0000000000000 else 0, false)) ∧
    (b.Nodup → (∀ k j, j < b.length → (withLocal b p k).testBit (b.getD j 0) = k.testBit j) ∧
      ∀ k i, i ∉ b → (withLocal b p k).testBit i = p.testBit i) ∧
    (∀ j, j < b.length → (localIdx b p).testBit j = p.testBit (b.getD j 0)) ∧
    (p < a.length →
      let row (c : Nat) : Ex × Ex := u.getD (localIdx b p * 2 ^ b.length + c) (.nan, .nan)
      (o.gate u b a).getD p (0, false) =
        (o.round ((List.range (2 ^ b.length)).flatMap fun c => re (row c) (part (grp c).1)) +
          2 ^ (4 * o.e) * o.round ((List.range (2 ^ b.length)).flatMap fun c => im (row c) (part (grp c).1)),
         (List.range (2 ^ b.length)).any fun c => (grp c).2)) ∧
    (p < a.length →
      let k := u.getD (localIdx b (p + rank * 2 ^ (o.nq - o.chipb))) (.nan, .nan)
      let x := a.getD p (0, false)
      (o.diag u b rank a).getD p (0, false) = (o.round (re k (part x.1)) + 2 ^ (4 * o.e) * o.round (im k (part x.1)), x.2)) ∧
    (∀ n k, k < 2 ^ n → (o.sums n rank b a).getD k .nan = exSum ((List.range a.length).flatMap fun i =>
      let x := part (a.getD i (0, false)).1
      if localIdx b (i + rank * 2 ^ (o.nq - o.chipb)) = k then [x.1.mul x.1, x.2.mul x.2] else []))) ∧
  (∀ (s : State) (m : Cmd) (seed cnt i : Nat) (cs : List Ex) (tot : Ex),
    let cap := m.caps.getD 0 { va := 0, pa := 0, base := 0, size := 0, tens := none }
    let smp := if m.fn / 16 = 1 then svSamples (m.w.getD 2 0).toNat ((m.w.getD 3 0).toNat % 2 ^ 32) cs (exSum cs) else []
    s.svResult m cs = s.engineWrite m { cap with va := cap.va + 0x10, pa := cap.pa + 0x10 }
      (bytesOf 8 (fp64.round (exSum cs)) ++ bytesOf 40 0 ++ (cs.flatMap fun c => bytesOf 8 (fp64.round c)) ++ smp) ∧
    (tot.isNan = true ∨ tot.isInf = true ∨ tot.isZero = true → svSamples seed cnt cs tot = List.replicate cnt 0xFF) ∧
    (tot.isNan = false → tot.isInf = false → tot.isZero = false → i < cnt →
      let z := mix (BitVec.ofNat 64 (seed + (i + 1) * mixG))
      let below (k : Nat) : Bool := ((Ex.fin false (z.toNat / 2 ^ 11) (-53)).mul tot).ltv (exSum (cs.take (k + 1)))
      ∀ k, k < cs.length → k < 256 → below k = true → (∀ j, j < k → below j = false) →
        (svSamples seed cnt cs tot).getD i 0 = BitVec.ofNat 8 k))

/-! ### A step (03, 04) -/

/-- 03 R66–R71, R86, R93, 04 R115, R125: with no event due, the issuer in turn fetches at its program counter.  A line in its cache gives the
plain one-slot bundle or the no-operation header there, and the step is what exec says of the instruction; a bundle of any
header and slots that meets no fault and no hold commits with the effects of its slots, and one that is held stays; an unfetched
line holds the issuer until the fetch fills it; an address without executable code is a fetch fault.  An event of the
agenda that happens is its exec, and a cycle without turns left ends. -/
def Obligations.StepRunsDecodedInstruction : Prop :=
  ∀ (s : State),
    (∀ e r, s.agenda = e :: r → step s = if s.happens e = true then exec e { s with agenda := r } else .next { s with agenda := r }) ∧
    (s.agenda = [] → s.turn = [] → step s = .next s.tick) ∧
    (∀ k r, s.agenda = [] → s.turn = k :: r →
      let c : State := { s with cur := k }
      let u := c.begun k
      let pc := (u.th k).pc
      step s = exec (.bundleIssue k) c ∧
      (∀ pa line, u.codePa k pc = some pa → u.icLine (u.tcore k) (pa / 64) = some line →
        (∀ pos i, slotPos k pos → wordAt line (pc % 64) = 2 ^ pos →
          decodeSlot pos (BitVec.ofNat 32 (wordAt line (pc % 64 + 4))) = .ok i → step s = exec i c) ∧
        (∀ i, decodeNop (BitVec.ofNat 32 (wordAt line (pc % 64))) = some i → step s = exec i c)) ∧
      (∀ pa, Issues c k → u.codePa k pc = some pa → u.icLine (u.tcore k) (pa / 64) = none →
        ∃ t, step s = .next t ∧ (t.th k).pc = pc ∧ (t.th k).scyc = (u.th k).scyc ∧ (t.th k).held = some 7 ∧
          (t.th k).missed = some (pc / 64) ∧ t.mem = u.mem) ∧
      (Issues c k → u.codePa k pc = none → (u.th k).matStop = none →
        ∃ t x, step s = .next t ∧ t.recs = u.recs ++ [x] ∧ x.kind = 1 ∧ x.slots = 24 ∧ x.det0 = pc ∧ x.baddr = pc ∧
          (t.th k).pc = pc) ∧
      (∀ pa line, Issues c k → u.codePa k pc = some pa → u.icLine (u.tcore k) (pa / 64) = some line →
        let h := headerAt line (pc % 64)
        let sl := slotsAt line (pc % 64) h
        let mk := slotIC u k h sl
        bundleBad (u.th k) (isCs k) h (decide (64 < pc % 64 + 4 * h.words)) sl = false →
        ((u.th k).inDelay && (u.th k).atEnd) = false → brkOf mk sl = none → faultsOf mk slotPre sl = [] →
        ((∀ x ∈ sl, slotHold (mk x) x.op = none) → faultsOf mk slotPost sl = [] →
          exec (.bundleIssue k) c =
            .next ((u.commit k h (markerAt line (pc % 64) h) sl mk).afterCommit k pc (trapOf mk sl))) ∧
        ((∃ x ∈ sl, (slotHold (mk x) x.op).isSome = true) → ∃ t, exec (.bundleIssue k) c = .next t ∧ (t.th k).pc = pc ∧
          (t.th k).scyc = (u.th k).scyc ∧ (t.th k).mode = .running ∧ (t.th k).held.isSome = true))) ∧
    (∀ k, k ∉ s.turn → exec (.bundleIssue k) s = .next s) ∧
    (∀ k vl pa, (s.th k).missed = some vl → s.codePa k (vl * 64) = some pa → s.violates (s.firmware k) pa = false →
      ∃ t, exec (.fetchMissFill k) s = .next t ∧ t.icLine (s.tcore k) (pa / 64) = some (rdBytes s.mem pa 64) ∧
        (t.th k).missed = none ∧ t.mem = s.mem) ∧
    (∀ k l, (s.th k).waitm = some (l, true) →
      exec (.waitmReread k) s = .next (s.modTh k fun t => { t with waitm := none })) ∧
    (∀ k u (x : Nop), s.cur = k → Issues s k → s.begun k = u →
      (u.th k).pc % 64 + 4 * (1 + x.m.toNat) ≤ 64 → ((u.th k).inDelay && (u.th k).atEnd) = false →
      (x.u ≠ 0 → ((u.th k).rules.find? fun e => e.1 == x.u.toNat).isSome = true) → (x.t = 1 → (u.th k).rotLoop.isSome = true) →
      (isCs k = true → x.e = 0 ∧ x.v = 0 ∧ x.t = 0) →
      let t := u.th k
      let s0 := u.advance k (4 * (1 + x.m.toNat)) 0
      let s1 := if x.t = 1 then rotate k t false s0 else s0
      let s2 := if x.v = 1 then s1.join k else s1
      let s3 := if x.u = 0 then s2 else auStep k x.u.toNat t s2
      let s4 := if x.m = 1 then s3.marker k (BitVec.ofNat 32 (match u.codeLine k t.pc with
        | some l => wordAt l (t.pc % 64 + 4)
        | none => 0)) t.pc t.elap else s3
      exec (.nop x) s = .next ((((((s4.loopEnd k t).taint k false).count k).tally k 0)).afterCommit k t.pc none))

/-! ### Encodings (03 R67–R84) -/

/-- Words that the spec's tables give decode to the instructions the tables name (03 R82's example, Tables 4-9, 5-10, 6-13, 7-8, 8-9, 14-5,
18-8). -/
def Obligations.DecodesTableWords : Prop :=
  decodeSlot 0 0x00031050#32 = .ok (.add ⟨0, 3, 4, 5, 0, 0⟩) ∧
  decodeSlot 1 0x44861840#32 = .ok (.addi ⟨2, 6, 6, 64⟩) ∧
  decodeSlot 0 0x98050302#32 = .ok (.loopr ⟨0, 5, 3, 0, 2⟩) ∧
  decodeTableWord 32 0x60050002 = some (.movi ⟨0, 5, 2⟩) ∧
  decodeSlot 2 0x30031000#32 = .ok (.xlat ⟨0, 3, 4, 0⟩) ∧
  decodeSlot 2 0x44001246#32 = .ok (.atadd ⟨0, 0, 1, 9, 0, 3, 0⟩) ∧
  decodeSlot 3 0x00010BC0#32 = .ok (.vadd ⟨0, 1, 2, 60, 0, 0⟩) ∧
  decodeSlot 4 0x440B2801#32 = .ok (.vred ⟨0, 11, 10, 0, 0, 1⟩) ∧
  decodeSlot 5 0x08101206#32 = .ok (.mmaz ⟨0, 1, 0, 1, 4, 1, 2⟩) ∧
  decodeSlot 6 0x00061540#32 = .ok (.cpy ⟨0, 3, 1, 1, 10, 0⟩) ∧
  decodeSlot 6 0x40000162#32 = .ok (.qgate ⟨0, 0, 0, 0, 11, 2⟩) ∧
  decodeSlot 7 0x0004014A#32 = .ok (.send ⟨0, 2, 0, 5, 10⟩) ∧
  decodeTableWord 32 0xFC000000 = none ∧ decodeSlot 4 0x84000000#32 = .error (.unassigned 4 33)

/-- 03 R70, R79–R83: every well-formed instruction with a word is what its word decodes to, with every operand at every value; and a
word that decodes is the word of the instruction it decodes to, so that no two words name one instruction. -/
def Obligations.EncodeDecodeRoundTrip : Prop :=
  (∀ (i : Instr) (pos : Nat) (w : W32), i.wf = true → encode i = some (pos, w) → decodeAt pos w = some i) ∧
  (∀ (i : Instr) (pos : Nat) (w : W32), decodeSlot pos w = .ok i →
    encWord i = w ∧ i.wf = true ∧ (slotOf i).isSome = true ∧ (pos ≠ 1 → pos ≠ 4 → encode i = some (pos, w))) ∧
  (∀ (i : Instr) (w : W32), decodeNop w = some i → encode i = some (8, w))

/-! ### The memory through a step, and reset -/

/-- No step leaves the canonical form of memory: from every state whose physical and frame memory are in it, so is every next state. -/
def Obligations.StepKeepsMemory : Prop :=
  ∀ s t : State, s.memWf = true → step s = .next t → t.memWf = true

/-- 20 R491 steps 4–7 and the reset values that the register tables give (3-19 to 3-25, 8-7, 11-8 to 11-10, 12-4, 17-3 to 17-6, 20-4,
20-5): what stands right after reset, memory in its canonical form.  That no debug feature is on rests on the model's choice of PRODUCTION
(notes/assumptions/6). -/
def Obligations.ResetValues : Prop :=
  let s := State.reset
  s.memWf = true ∧ s.gcyc = 0 ∧ (∀ a, physClass a ≠ .host → rdByte s.mem a = 0) ∧ (∀ a, rdByte s.frames a = 0) ∧ (∀ a, s.tag a = 0) ∧
  (∀ k, (s.th k).s 0 = 0 ∧ (s.th k).p 0 = true ∧ (s.th k).m 0 = BitVec.allOnes 64 ∧
    (∀ b i j, ((s.th k).bank b).el i j = 0) ∧ (∀ b, (s.th k).bBad b = false) ∧ (∀ h, ((s.th k).h h).st = .invalid) ∧
    (∀ x, getD none (s.th k).ks x = none) ∧ (s.th k).loops = [] ∧ (s.th k).rotn = 0 ∧ (s.th k).scyc = 0 ∧
    (s.th k).barb = 0 ∧ (s.th k).bard = 0 ∧ (s.th k).aland = 0x100 ∧ (s.th k).srstate = 0 ∧ (s.th k).fltrec = 0 ∧ (s.th k).drth = 0 ∧
    (∀ c, (s.th k).chan c = { nextId := 1, doneId := 1, errId := 0, errKind := 0, errCnt := 0, ended := [] }) ∧
    (s.th k).mode = .idle ∧ (s.th k).flight = []) ∧
  (∀ c, (s.ctx c).st = .free ∧ (s.ctx c).cdesc = 0 ∧ (s.ctx c).busy = false ∧ (s.ctx c).err = 0 ∧ (s.ctx c).tmode = 0 ∧
    (s.ctx c).subcnt = 0 ∧ (s.ctx c).retlo = 1) ∧
  s.chans = [] ∧ s.grps = [] ∧ s.barUpds = [] ∧ s.deltas = [] ∧ s.tasks = [] ∧ s.cmds = [] ∧ s.reqs = [] ∧ s.recs = [] ∧
  s.fab.fabid = 0 ∧ s.fab.routes = [] ∧ s.sys.hltol = 0 ∧ s.sys.idle = 0 ∧ s.sys.plim = 0x898 ∧ s.sys.throt = 0 ∧ s.sys.frac = 0 ∧
  s.sys.lcsReady = true ∧ s.sys.debugOn = 0 ∧ s.tenants = []
end

