-- ==== Sys2Proof/Laws/Issue.lean ====
section
/-! SUPPORT. What the issue of a one-slot bundle does, said once. -/

namespace Sys2Proof.Machine

open Sys2Proof

/-- An issuer that issues runs `issue` on the package its begun cycle left. -/
theorem cycle_of_issues {s : State} {k : Nat} (h : Issues s k) (issue : State → State) :
    s.cycle k issue = issue (s.begun k) := by
  have e1 : (s.took k).th k = s.th k := rfl
  have e2 : (s.took k).withheld k = s.withheld k := rfl
  have hw : (((((s.took k).landThr k).matrixDone k).matrixStep k).th k).empty = false := h.whole
  simp only [State.cycle, e1, e2, h.running, h.free, h.powered, h.landed, h.pages]
  simp [hw, State.begun]

/-- The fields of the header of a plain one-slot bundle (03 Table 3-2). -/
theorem one_fields (k pos : Nat) (h : slotPos k pos) :
    (Header.one pos).rsv = 0 ∧ (Header.one pos).be = false ∧ (Header.one pos).au = 0 ∧ (Header.one pos).rt = false ∧
    (Header.one pos).vj = false ∧ (Header.one pos).words = 2 ∧ (Header.one pos).mk_ = false ∧
    (isCs k && ((Header.one pos).mask / 8 % 8 != 0)) = false := by
  rcases h with (rfl | rfl | rfl | rfl) | ⟨hk, rfl | rfl⟩
  all_goals refine ⟨by decide, by decide, by decide, by decide, by decide, by decide, by decide, ?_⟩
  all_goals rw [Bool.and_eq_false_iff]
  all_goals first | exact Or.inr (by decide) | exact Or.inl hk

/-- The fields of the header of a one-slot bundle with a broadcast port (03 Table 3-2), and its slot. -/
theorem port_fields {k pos : Nat} (b : Nat) (h : slotPos k pos) :
    (Header.port pos b).rsv = 0 ∧ (Header.port pos b).be = true ∧ (Header.port pos b).au = 0 ∧ (Header.port pos b).rt = false ∧
    (Header.port pos b).vj = false ∧ (Header.port pos b).words = 2 ∧ (Header.port pos b).mk_ = false ∧
    ((List.range 8).filter fun p => (Header.port pos b).mask.testBit p) = [pos] := by
  have hb : ∀ pos ∈ [0, 2, 3, 5, 6, 7], ∀ c, c < 64 →
      let h : Header := ⟨BitVec.ofNat 32 (2 ^ pos + 2 ^ 8 + c * 2 ^ 9)⟩
      h.rsv = 0 ∧ h.be = true ∧ h.au = 0 ∧ h.rt = false ∧ h.vj = false ∧ h.words = 2 ∧ h.mk_ = false ∧
        ((List.range 8).filter fun p => h.mask.testBit p) = [pos] := by decide
  refine hb pos ?_ (b % 64) (Nat.mod_lt _ (by decide))
  rcases h with (rfl | rfl | rfl | rfl) | ⟨_, rfl | rfl⟩ <;> decide

/-- A plain one-slot bundle meets none of the bundle checks (03 R86). -/
theorem bundleBad_one {u : State} {k pos : Nat} {w : W32} {o : SlotOp} (hf : Fits u k) (hp : slotPos k pos)
    (hv : o.srcV.contains 60 = false) :
    bundleBad (u.th k) (isCs k) (Header.one pos) (decide ((u.th k).pc % 64 + 4 * (Header.one pos).words > 64))
      [{ pos, word := w, op := some o }] = false := by
  obtain ⟨h1, h2, h3, h4, h5, h6, _, h7⟩ := one_fields k pos hp
  have hc : ¬ (u.th k).pc % 64 + 4 * 2 > 64 := by have := hf.1; omega
  have hv' : 60 ∉ o.srcV := by simpa using hv
  have h7' : isCs k = true → (Header.one pos).mask / 8 % 8 = 0 := by simpa using h7
  simp only [bundleBad, h1, h2, h3, h4, h5, h6, hc]
  simp [namesClash]
  exact ⟨hv', h7'⟩

/-- Nor does a partition's one-slot bundle with a broadcast port (03 R73, R84, R86). -/
theorem bundleBad_port {u : State} {k pos : Nat} {w : W32} {o : SlotOp} (b : Nat) (hf : Fits u k) (hp : slotPos k pos)
    (hk : isCs k = false) :
    bundleBad (u.th k) (isCs k) (Header.port pos b) (decide ((u.th k).pc % 64 + 4 * (Header.port pos b).words > 64))
      [{ pos, word := w, op := some o }] = false := by
  obtain ⟨h1, h2, h3, h4, h5, h6, _, _⟩ := port_fields b hp
  have hc : ¬ (u.th k).pc % 64 + 4 * 2 > 64 := by have := hf.1; omega
  simp only [bundleBad, h1, h2, h3, h4, h5, h6, hc, hk]
  simp [namesClash]

/-- The circumstances of the one slot. -/
theorem slotIC_one (u : State) (k pos : Nat) (h : Header) (w : W32) (o : SlotOp) :
    slotIC u k h [{ pos, word := w, op := some o }] { pos, word := w, op := some o } = oneIC u k pos w h := by
  simp [slotIC, oneIC, drawsOf]

/-- The slot of a one-slot bundle that meets no fault and no hold: its effect stands between the start and the rest of the cycle. -/
theorem issueBegun_of_clear {u : State} {k pos : Nat} {h : Header} {w : W32} {o : SlotOp} (hf : Fits u k)
    (hb : bundleBad (u.th k) (isCs k) h (decide ((u.th k).pc % 64 + 4 * h.words > 64)) [{ pos, word := w, op := some o }] = false)
    (h3 : h.au = 0) (h4 : h.rt = false) (h5 : h.vj = false) (h6 : h.words = 2) (hc : Clear u k pos h w o) :
    u.issueBegun k h none [{ pos, word := w, op := some o }] =
      (o.eff (oneIC u k pos w h) (u.advance k 8 (o.draws (oneIC u k pos w h)))).rest k (u.th k)
      (o.impure (oneIC u k pos w h)).isSome ((o.stop (oneIC u k pos w h)).map fun v => (v / 2 ^ 64, v % 2 ^ 64)) := by
  have hg := hc.guard
  have ht : (oneIC u k pos w h).t = u.th k := rfl
  have hpure : purityFault (oneIC u k pos w h) o = none := by
    have h := hc.late
    simp only [slotPost, ht, hg, if_true] at h
    split at h
    · cases h
    · exact h
  have hpre : slotPre (oneIC u k pos w h) (some o) = none := by
    simp [slotPre, hc.static, ht, hg, hc.early, hpure]
  unfold State.issueBegun
  simp only [hb]
  have hd := hf.2
  have hbrk : brkOf (slotIC u k h [{ pos, word := w, op := some o }]) [{ pos, word := w, op := some o }] = none := by
    simp [brkOf, firstSome, hc.noBrk]
  simp only [hd, hbrk]
  simp only [faultsOf, List.filterMap_cons, List.filterMap_nil, slotIC_one, hpre, firstSome, hc.free, hc.late]
  have hi : impureSlots (slotIC u k h [{ pos, word := w, op := some o }])
      [{ pos, word := w, op := some o }] = (o.impure (oneIC u k pos w h)).isSome := by
    simp [impureSlots, slotIC_one, ht, hg]
  have hn : onCount (u.th k) [{ pos, word := w, op := some o }] = 1 := by simp [onCount, hg]
  have hdr : drawsOf (u.th k) (slotIC u k h [{ pos, word := w, op := some o }])
      [{ pos, word := w, op := some o }] = o.draws (oneIC u k pos w h) := by
    simp [drawsOf, slotIC_one, hg]
  have htr : trapOf (slotIC u k h [{ pos, word := w, op := some o }])
      [{ pos, word := w, op := some o }] = (o.stop (oneIC u k pos w h)).map fun v => (v / 2 ^ 64, v % 2 ^ 64) := by
    cases hstop : o.stop (oneIC u k pos w h) <;> simp [trapOf, firstSome, slotIC_one, ht, hg, hstop]
  have hcs (x : State) : commitSlots (slotIC u k h [{ pos, word := w, op := some o }])
      [{ pos, word := w, op := some o }] x = o.eff (oneIC u k pos w h) x := by
    simp [commitSlots, slotIC_one, ht, hg]
  simp only [State.commit, State.rest, hi, hn, hdr, htr, hcs, h3, h4, h5, h6]
  rfl

/-- A slot that meets no fault and no hold commits. -/
theorem issueOne_of_clear {s u : State} {k pos : Nat} {w : W32} {o : SlotOp} (hi : Issues s k) (hu : s.begun k = u)
    (hk : s.cur = k) (hf : Fits u k) (hp : slotPos k pos) (hc : Clear u k pos (Header.one pos) w o) :
    issueOne pos w o s = .next ((o.eff (oneIC u k pos w) (u.advance k 8 (o.draws (oneIC u k pos w)))).rest k (u.th k)
      (o.impure (oneIC u k pos w)).isSome ((o.stop (oneIC u k pos w)).map fun v => (v / 2 ^ 64, v % 2 ^ 64))) := by
  subst hk
  obtain ⟨_, h2, h3, h4, h5, h6, _, _⟩ := one_fields s.cur pos hp
  unfold issueOne State.issueBundle
  rw [cycle_of_issues hi, hu, issueBegun_of_clear hf (bundleBad_one hf hp (hc.ports.resolve_left (by simp [h2]))) h3 h4 h5 h6 hc]

/-- An instruction that commits answers the next state of its operation's effect. -/
theorem issueOne_of_commits {s u : State} {k pos : Nat} {i : Instr} {o : SlotOp} (h : Commits s u k pos i)
    (ho : slotOf i = some o) :
    issueOne pos (encWord i) o s = committed u k (o.eff (oneIC u k pos (encWord i)))
      (o.impure (oneIC u k pos (encWord i))).isSome (o.draws (oneIC u k pos (encWord i)))
      ((o.stop (oneIC u k pos (encWord i))).map fun v => (v / 2 ^ 64, v % 2 ^ 64)) := by
  obtain ⟨o', ho', hc⟩ := h.clear
  rw [ho] at ho'
  cases ho'
  exact issueOne_of_clear h.issues h.begun h.cur h.fits h.place hc

/-- So does a bundle with a broadcast port that BUNDLE_ISSUE finds at the program counter. -/
theorem bundleIssue_of_fetched {s u : State} {k pos : Nat} {i : Instr} {o : SlotOp} {h : Header} (hx : Fetched s u k pos h i)
    (ho : slotOf i = some o) :
    execBundleIssue k s = committed u k (o.eff (oneIC u k pos (encWord i) h))
      (o.impure (oneIC u k pos (encWord i) h)).isSome (o.draws (oneIC u k pos (encWord i) h))
      ((o.stop (oneIC u k pos (encWord i) h)).map fun v => (v / 2 ^ 64, v % 2 ^ 64)) := by
  obtain ⟨o', ho', hc⟩ := hx.clear
  rw [ho] at ho'
  cases ho'
  obtain ⟨pa, l, hpa, hl, hw, hi⟩ := hx.line
  obtain ⟨_, _, h3, h4, h5, h6, hm, hs⟩ := port_fields h.bs hx.place.1
  have hb := bundleBad_port (w := encWord i) (o := o) h.bs hx.fits hx.place.1 hx.place.2
  rw [← hx.port] at h3 h4 h5 h6 hm hs hb
  have hh : headerAt l ((u.th k).pc % 64) = h := by simp [headerAt, hw]
  have he : e1Only0 pos (encWord i) = false := by
    rcases hx.place.1 with (rfl | rfl | rfl | rfl) | ⟨_, rfl | rfl⟩ <;> simp [e1Only0]
  have hsl : slotsAt l ((u.th k).pc % 64) h = [{ pos, word := encWord i, op := some o }] := by
    simp [slotsAt, hs, hi, slotAt, he, hx.word, ho]
  have ht : s.turn.contains k = true := by simpa using hx.due
  unfold execBundleIssue
  rw [if_pos ht, cycle_of_issues hx.issues, hx.begun]
  simp only [State.issueAtPc, hpa, hl, hh, hsl, markerAt, hm]
  rw [if_neg (by simp), issueBegun_of_clear hx.fits hb h3 h4 h5 h6 hc]
  rfl

end Sys2Proof.Machine
end

