-- ==== Sys2Proof/Laws/Maps.lean ====
section
/-! SUPPORT. Reading a sparse map after a write to it.  The laws need no order of the keys. -/

namespace Sys2Proof.Machine

variable {α : Type}

/-- A read is a search for the first entry of the key. -/
theorem getD_eq_find (d : α) (m : Map α) (k : Nat) : getD d m k = ((m.find? (·.1 = k)).map Prod.snd).getD d := by
  fun_induction getD d m k <;> simp_all

/-- A key set reads as its value, any other as before. -/
theorem getD_putK (d : α) (m : Map α) (k : Nat) (v : α) (j : Nat) :
    getD d (putK m k v) j = if j = k then v else getD d m j := by
  fun_induction putK m k v <;> grind [getD]

/-- A filter by key hides the keys it drops. -/
theorem getD_filter (d : α) (m : Map α) (f : Nat → Bool) (k : Nat) :
    getD d (m.filter fun c => f c.1) k = if f k then getD d m k else d := by
  simp only [getD_eq_find, List.find?_filter]
  split
  · congr 2; exact List.find?_congr fun c hc => by grind
  · rw [List.find?_eq_none.2 (by grind)]; rfl

/-- A removed key reads as the default. -/
theorem getD_delK (d : α) (m : Map α) (k j : Nat) : getD d (delK m k) j = if j = k then d else getD d m j := by
  have := getD_filter d m (· != k) j
  grind [delK]

/-- So in a map kept canonical. -/
theorem getD_putD [DecidableEq α] (d : α) (m : Map α) (k : Nat) (v : α) (j : Nat) :
    getD d (putD d m k v) j = if j = k then v else getD d m j := by
  grind [putD, getD_delK, getD_putK]

/-- In two maps after each other, the first that lists the key answers. -/
theorem getD_append (d : α) (l m : Map α) (k : Nat) : getD d (l ++ m) k = getD (getD d m k) l k := by
  simp only [getD_eq_find, List.find?_append]
  cases l.find? (·.1 = k) <;> rfl

/-- A key not listed reads as the default. -/
theorem getD_absent (d : α) {m : Map α} {k : Nat} (h : ∀ c ∈ m, c.1 ≠ k) : getD d m k = d := by
  rw [getD_eq_find, List.find?_eq_none.2 (by simpa using fun a b h' => h (a, b) h')]; rfl

@[simp] theorem getD_putK_same (d : α) (m : Map α) (k : Nat) (v : α) : getD d (putK m k v) k = v := by simp [getD_putK]

@[simp] theorem getD_putD_same [DecidableEq α] (d : α) (m : Map α) (k : Nat) (v : α) : getD d (putD d m k v) k = v := by
  simp [getD_putD]

end Sys2Proof.Machine
end

