-- ==== Sys2Proof/Laws/Memory.lean ====
section
/-! SUPPORT. Memory: what a byte reads as after a write, and that every memory operation keeps the canonical form. -/

namespace Sys2Proof.Machine

open Sys2Proof

/-! ### The canonical form -/

/-- Canonical: addresses rise, and no entry equals what an unlisted address reads as. -/
theorem Memory.wf_iff (m : List Host.Cell) :
    Memory.wf m = true ↔ m.Pairwise (fun c d => c.1 < d.1) ∧ ∀ c ∈ m, c.2 ≠ unlisted := by
  fun_induction Memory.wf m <;> grind [List.pairwise_cons]

/-- The cells of a run lie in it and are worth listing. -/
theorem cellsOf_mem {a : Nat} {bs : List Byte} {c : Host.Cell} (h : c ∈ cellsOf a bs) :
    a ≤ c.1 ∧ c.1 < a + bs.length ∧ c.2 ≠ unlisted := by
  fun_induction cellsOf a bs <;> grind

/-- They rise. -/
theorem cellsOf_sorted (a : Nat) (bs : List Byte) : (cellsOf a bs).Pairwise (fun c d => c.1 < d.1) := by
  fun_induction cellsOf a bs <;> grind [List.pairwise_cons, → cellsOf_mem]

/-- A filtered memory is canonical. -/
theorem Memory.wf_filter {m : List Host.Cell} (h : Memory.wf m = true) (f : Host.Cell → Bool) :
    Memory.wf (m.filter f) = true := by
  grind [Memory.wf_iff]

/-- A write keeps the canonical form. -/
theorem Memory.wf_wrBytes {m : List Host.Cell} (h : Memory.wf m = true) (a : Nat) (bs : List Byte) :
    Memory.wf (wrBytes m a bs) = true := by
  rw [Memory.wf_iff] at *
  simp only [wrBytes, List.pairwise_append, List.mem_append, List.mem_filter, decide_eq_true_eq]
  refine ⟨⟨⟨h.1.filter _, cellsOf_sorted a bs, ?_⟩, h.1.filter _, ?_⟩, ?_⟩ <;> grind [→ cellsOf_mem]

/-! ### One byte -/

/-- What a run lists. -/
theorem getD_cellsOf (d : Byte) (a : Nat) (bs : List Byte) (j : Nat) : getD d (cellsOf a bs) j =
    if a ≤ j ∧ j < a + bs.length ∧ bs.getD (j - a) 0 ≠ unlisted then bs.getD (j - a) 0 else d := by
  fun_induction cellsOf a bs <;> grind [getD]

/-- A byte after a write: the byte written, where the write covers it, else the byte before. -/
theorem rdByte_wrBytes (m : List Host.Cell) (a : Nat) (bs : List Byte) (j : Nat) :
    rdByte (wrBytes m a bs) j = if a ≤ j ∧ j < a + bs.length then bs.getD (j - a) 0 else rdByte m j := by
  have below (d : Byte) := getD_filter d m (fun x => decide (x < a)) j
  have above := getD_filter unlisted m (fun x => decide (a + bs.length ≤ x)) j
  simp only [rdByte, wrBytes, getD_append, below, above, getD_cellsOf]
  grind

/-- Read after write. -/
theorem rdByte_wrBytes_in {m : List Host.Cell} {a i : Nat} {bs : List Byte} (h : i < bs.length) :
    rdByte (wrBytes m a bs) (a + i) = bs.getD i 0 := by
  rw [rdByte_wrBytes, if_pos (by omega)]; congr 1; omega

/-- A write leaves every other place alone. -/
theorem rdByte_wrBytes_out {m : List Host.Cell} {a j : Nat} {bs : List Byte} (h : j < a ∨ a + bs.length ≤ j) :
    rdByte (wrBytes m a bs) j = rdByte m j := by
  rw [rdByte_wrBytes, if_neg (by omega)]

/-! ### Runs of bytes -/

@[simp] theorem rdBytes_length (m : List Host.Cell) (a n : Nat) : (rdBytes m a n).length = n := by
  fun_induction rdBytes m a n <;> grind

theorem rdBytes_getD (m : List Host.Cell) (a n i : Nat) (h : i < n) : (rdBytes m a n).getD i 0 = rdByte m (a + i) := by
  fun_induction rdBytes m a n generalizing i <;> cases i <;> grind

/-- Two memories that agree on a run of bytes give the same bytes. -/
theorem rdBytes_congr {m m' : List Host.Cell} {a n : Nat} (h : ∀ i, i < n → rdByte m (a + i) = rdByte m' (a + i)) :
    rdBytes m a n = rdBytes m' a n := by
  apply List.ext_getElem (by simp)
  intro i h1 h2
  have := rdBytes_getD m a n i (by simpa using h1)
  have := rdBytes_getD m' a n i (by simpa using h1)
  grind [rdBytes_length]

/-- The bytes of a write read back. -/
theorem rdBytes_wrBytes_same (m : List Host.Cell) (a : Nat) (bs : List Byte) : rdBytes (wrBytes m a bs) a bs.length = bs := by
  apply List.ext_getElem (by simp)
  intro i h1 h2
  have e := rdBytes_getD (wrBytes m a bs) a bs.length i h2
  rw [rdByte_wrBytes_in h2] at e
  simpa [List.getD_eq_getElem?_getD, h1, h2] using e

/-- A write away from a run of bytes leaves it. -/
theorem rdBytes_wrBytes_out {m : List Host.Cell} {a j n : Nat} {bs : List Byte} (h : j + n ≤ a ∨ a + bs.length ≤ j) :
    rdBytes (wrBytes m a bs) j n = rdBytes m j n :=
  rdBytes_congr fun i hi => rdByte_wrBytes_out (by omega)

@[simp] theorem bytesOf_length (n x : Nat) : (bytesOf n x).length = n := by
  fun_induction bytesOf n x <;> grind

/-- The number of the bytes of a number. -/
theorem ofBytes_bytesOf (n x : Nat) : ofBytes (bytesOf n x) = x % 2 ^ (8 * n) := by
  induction n generalizing x with
  | zero => simp [bytesOf, ofBytes, Nat.mod_one]
  | succ n ih =>
    simp only [bytesOf, ofBytes, ih, BitVec.toNat_ofNat, Nat.shiftRight_eq_div_pow]
    have e : 2 ^ (8 * (n + 1)) = 256 * 2 ^ (8 * n) := by rw [Nat.mul_add, Nat.pow_add]; omega
    rw [e, Nat.mod_mul]

/-- A number written reads back. -/
theorem rdN_wrBytes (m : List Host.Cell) (a n x : Nat) : rdN (wrBytes m a (bytesOf n x)) a n = x % 2 ^ (8 * n) := by
  have := rdBytes_wrBytes_same m a (bytesOf n x)
  rw [bytesOf_length] at this
  rw [rdN, this, ofBytes_bytesOf]

end Sys2Proof.Machine
end

