-- ==== Sys2Proof/Laws/State.lean ====
section
/-! SUPPORT. What each named update of the state leaves as it was, field by field, and what the accessors read after it. -/

namespace Sys2Proof.Machine

open Sys2Proof

/-! ### Replaces an issuer -/

section
variable (s : State) (k : Nat) (t : Thr)
@[simp] theorem State.setTh_gcyc : (s.setTh k t).gcyc = s.gcyc := rfl
@[simp] theorem State.setTh_cur : (s.setTh k t).cur = s.cur := rfl
@[simp] theorem State.setTh_turn : (s.setTh k t).turn = s.turn := rfl
@[simp] theorem State.setTh_agenda : (s.setTh k t).agenda = s.agenda := rfl
@[simp] theorem State.setTh_fresh : (s.setTh k t).fresh = s.fresh := rfl
@[simp] theorem State.setTh_nextId : (s.setTh k t).nextId = s.nextId := rfl
@[simp] theorem State.setTh_mem : (s.setTh k t).mem = s.mem := rfl
@[simp] theorem State.setTh_tags : (s.setTh k t).tags = s.tags := rfl
@[simp] theorem State.setTh_frames : (s.setTh k t).frames = s.frames := rfl
@[simp] theorem State.setTh_ftags : (s.setTh k t).ftags = s.ftags := rfl
@[simp] theorem State.setTh_unjoined : (s.setTh k t).unjoined = s.unjoined := rfl
@[simp] theorem State.setTh_l1 : (s.setTh k t).l1 = s.l1 := rfl
@[simp] theorem State.setTh_hostLines : (s.setTh k t).hostLines = s.hostLines := rfl
@[simp] theorem State.setTh_dir : (s.setTh k t).dir = s.dir := rfl
@[simp] theorem State.setTh_l2 : (s.setTh k t).l2 = s.l2 := rfl
@[simp] theorem State.setTh_icache : (s.setTh k t).icache = s.icache := rfl
@[simp] theorem State.setTh_xcache : (s.setTh k t).xcache = s.xcache := rfl
@[simp] theorem State.setTh_spCache : (s.setTh k t).spCache = s.spCache := rfl
@[simp] theorem State.setTh_corrected : (s.setTh k t).corrected = s.corrected := rfl
@[simp] theorem State.setTh_reqs : (s.setTh k t).reqs = s.reqs := rfl
@[simp] theorem State.setTh_debts : (s.setTh k t).debts = s.debts := rfl
@[simp] theorem State.setTh_passed : (s.setTh k t).passed = s.passed := rfl
@[simp] theorem State.setTh_signals : (s.setTh k t).signals = s.signals := rfl
@[simp] theorem State.setTh_shoot : (s.setTh k t).shoot = s.shoot := rfl
@[simp] theorem State.setTh_shootDone : (s.setTh k t).shootDone = s.shootDone := rfl
@[simp] theorem State.setTh_cmds : (s.setTh k t).cmds = s.cmds := rfl
@[simp] theorem State.setTh_recs : (s.setTh k t).recs = s.recs := rfl
@[simp] theorem State.setTh_deltas : (s.setTh k t).deltas = s.deltas := rfl
@[simp] theorem State.setTh_cached : (s.setTh k t).cached = s.cached := rfl
@[simp] theorem State.setTh_installs : (s.setTh k t).installs = s.installs := rfl
@[simp] theorem State.setTh_posts : (s.setTh k t).posts = s.posts := rfl
@[simp] theorem State.setTh_barUpds : (s.setTh k t).barUpds = s.barUpds := rfl
@[simp] theorem State.setTh_barLine : (s.setTh k t).barLine = s.barLine := rfl
@[simp] theorem State.setTh_barSeen : (s.setTh k t).barSeen = s.barSeen := rfl
@[simp] theorem State.setTh_chans : (s.setTh k t).chans = s.chans := rfl
@[simp] theorem State.setTh_grps : (s.setTh k t).grps = s.grps := rfl
@[simp] theorem State.setTh_colls : (s.setTh k t).colls = s.colls := rfl
@[simp] theorem State.setTh_quar : (s.setTh k t).quar = s.quar := rfl
@[simp] theorem State.setTh_qcmds : (s.setTh k t).qcmds = s.qcmds := rfl
@[simp] theorem State.setTh_pages : (s.setTh k t).pages = s.pages := rfl
@[simp] theorem State.setTh_bounce : (s.setTh k t).bounce = s.bounce := rfl
@[simp] theorem State.setTh_gated : (s.setTh k t).gated = s.gated := rfl
@[simp] theorem State.setTh_tasks : (s.setTh k t).tasks = s.tasks := rfl
@[simp] theorem State.setTh_occ : (s.setTh k t).occ = s.occ := rfl
@[simp] theorem State.setTh_reuse : (s.setTh k t).reuse = s.reuse := rfl
@[simp] theorem State.setTh_watchCnt : (s.setTh k t).watchCnt = s.watchCnt := rfl
@[simp] theorem State.setTh_tenants : (s.setTh k t).tenants = s.tenants := rfl
@[simp] theorem State.setTh_saved : (s.setTh k t).saved = s.saved := rfl
@[simp] theorem State.setTh_ctxs : (s.setTh k t).ctxs = s.ctxs := rfl
@[simp] theorem State.setTh_links : (s.setTh k t).links = s.links := rfl
@[simp] theorem State.setTh_fab : (s.setTh k t).fab = s.fab := rfl
@[simp] theorem State.setTh_sys : (s.setTh k t).sys = s.sys := rfl
@[simp] theorem State.setTh_pmc : (s.setTh k t).pmc = s.pmc := rfl
@[simp] theorem State.setTh_pmsel : (s.setTh k t).pmsel = s.pmsel := rfl
@[simp] theorem State.setTh_pmcSkip : (s.setTh k t).pmcSkip = s.pmcSkip := rfl
@[simp] theorem State.setTh_pmcPend : (s.setTh k t).pmcPend = s.pmcPend := rfl
@[simp] theorem State.setTh_copyParks : (s.setTh k t).copyParks = s.copyParks := rfl
end

/-! ### Changes an issuer -/

section
variable (s : State) (k : Nat) (f : Thr → Thr)
@[simp] theorem State.modTh_gcyc : (s.modTh k f).gcyc = s.gcyc := rfl
@[simp] theorem State.modTh_cur : (s.modTh k f).cur = s.cur := rfl
@[simp] theorem State.modTh_turn : (s.modTh k f).turn = s.turn := rfl
@[simp] theorem State.modTh_agenda : (s.modTh k f).agenda = s.agenda := rfl
@[simp] theorem State.modTh_fresh : (s.modTh k f).fresh = s.fresh := rfl
@[simp] theorem State.modTh_nextId : (s.modTh k f).nextId = s.nextId := rfl
@[simp] theorem State.modTh_mem : (s.modTh k f).mem = s.mem := rfl
@[simp] theorem State.modTh_tags : (s.modTh k f).tags = s.tags := rfl
@[simp] theorem State.modTh_frames : (s.modTh k f).frames = s.frames := rfl
@[simp] theorem State.modTh_ftags : (s.modTh k f).ftags = s.ftags := rfl
@[simp] theorem State.modTh_unjoined : (s.modTh k f).unjoined = s.unjoined := rfl
@[simp] theorem State.modTh_l1 : (s.modTh k f).l1 = s.l1 := rfl
@[simp] theorem State.modTh_hostLines : (s.modTh k f).hostLines = s.hostLines := rfl
@[simp] theorem State.modTh_dir : (s.modTh k f).dir = s.dir := rfl
@[simp] theorem State.modTh_l2 : (s.modTh k f).l2 = s.l2 := rfl
@[simp] theorem State.modTh_icache : (s.modTh k f).icache = s.icache := rfl
@[simp] theorem State.modTh_xcache : (s.modTh k f).xcache = s.xcache := rfl
@[simp] theorem State.modTh_spCache : (s.modTh k f).spCache = s.spCache := rfl
@[simp] theorem State.modTh_corrected : (s.modTh k f).corrected = s.corrected := rfl
@[simp] theorem State.modTh_reqs : (s.modTh k f).reqs = s.reqs := rfl
@[simp] theorem State.modTh_debts : (s.modTh k f).debts = s.debts := rfl
@[simp] theorem State.modTh_passed : (s.modTh k f).passed = s.passed := rfl
@[simp] theorem State.modTh_signals : (s.modTh k f).signals = s.signals := rfl
@[simp] theorem State.modTh_shoot : (s.modTh k f).shoot = s.shoot := rfl
@[simp] theorem State.modTh_shootDone : (s.modTh k f).shootDone = s.shootDone := rfl
@[simp] theorem State.modTh_cmds : (s.modTh k f).cmds = s.cmds := rfl
@[simp] theorem State.modTh_recs : (s.modTh k f).recs = s.recs := rfl
@[simp] theorem State.modTh_deltas : (s.modTh k f).deltas = s.deltas := rfl
@[simp] theorem State.modTh_cached : (s.modTh k f).cached = s.cached := rfl
@[simp] theorem State.modTh_installs : (s.modTh k f).installs = s.installs := rfl
@[simp] theorem State.modTh_posts : (s.modTh k f).posts = s.posts := rfl
@[simp] theorem State.modTh_barUpds : (s.modTh k f).barUpds = s.barUpds := rfl
@[simp] theorem State.modTh_barLine : (s.modTh k f).barLine = s.barLine := rfl
@[simp] theorem State.modTh_barSeen : (s.modTh k f).barSeen = s.barSeen := rfl
@[simp] theorem State.modTh_chans : (s.modTh k f).chans = s.chans := rfl
@[simp] theorem State.modTh_grps : (s.modTh k f).grps = s.grps := rfl
@[simp] theorem State.modTh_colls : (s.modTh k f).colls = s.colls := rfl
@[simp] theorem State.modTh_quar : (s.modTh k f).quar = s.quar := rfl
@[simp] theorem State.modTh_qcmds : (s.modTh k f).qcmds = s.qcmds := rfl
@[simp] theorem State.modTh_pages : (s.modTh k f).pages = s.pages := rfl
@[simp] theorem State.modTh_bounce : (s.modTh k f).bounce = s.bounce := rfl
@[simp] theorem State.modTh_gated : (s.modTh k f).gated = s.gated := rfl
@[simp] theorem State.modTh_tasks : (s.modTh k f).tasks = s.tasks := rfl
@[simp] theorem State.modTh_occ : (s.modTh k f).occ = s.occ := rfl
@[simp] theorem State.modTh_reuse : (s.modTh k f).reuse = s.reuse := rfl
@[simp] theorem State.modTh_watchCnt : (s.modTh k f).watchCnt = s.watchCnt := rfl
@[simp] theorem State.modTh_tenants : (s.modTh k f).tenants = s.tenants := rfl
@[simp] theorem State.modTh_saved : (s.modTh k f).saved = s.saved := rfl
@[simp] theorem State.modTh_ctxs : (s.modTh k f).ctxs = s.ctxs := rfl
@[simp] theorem State.modTh_links : (s.modTh k f).links = s.links := rfl
@[simp] theorem State.modTh_fab : (s.modTh k f).fab = s.fab := rfl
@[simp] theorem State.modTh_sys : (s.modTh k f).sys = s.sys := rfl
@[simp] theorem State.modTh_pmc : (s.modTh k f).pmc = s.pmc := rfl
@[simp] theorem State.modTh_pmsel : (s.modTh k f).pmsel = s.pmsel := rfl
@[simp] theorem State.modTh_pmcSkip : (s.modTh k f).pmcSkip = s.pmcSkip := rfl
@[simp] theorem State.modTh_pmcPend : (s.modTh k f).pmcPend = s.pmcPend := rfl
@[simp] theorem State.modTh_copyParks : (s.modTh k f).copyParks = s.copyParks := rfl
end

/-! ### Replaces a context -/

section
variable (s : State) (c : Nat) (x : Ctx)
@[simp] theorem State.setCtx_gcyc : (s.setCtx c x).gcyc = s.gcyc := rfl
@[simp] theorem State.setCtx_cur : (s.setCtx c x).cur = s.cur := rfl
@[simp] theorem State.setCtx_turn : (s.setCtx c x).turn = s.turn := rfl
@[simp] theorem State.setCtx_agenda : (s.setCtx c x).agenda = s.agenda := rfl
@[simp] theorem State.setCtx_fresh : (s.setCtx c x).fresh = s.fresh := rfl
@[simp] theorem State.setCtx_nextId : (s.setCtx c x).nextId = s.nextId := rfl
@[simp] theorem State.setCtx_thr : (s.setCtx c x).thr = s.thr := rfl
@[simp] theorem State.setCtx_mem : (s.setCtx c x).mem = s.mem := rfl
@[simp] theorem State.setCtx_tags : (s.setCtx c x).tags = s.tags := rfl
@[simp] theorem State.setCtx_frames : (s.setCtx c x).frames = s.frames := rfl
@[simp] theorem State.setCtx_ftags : (s.setCtx c x).ftags = s.ftags := rfl
@[simp] theorem State.setCtx_unjoined : (s.setCtx c x).unjoined = s.unjoined := rfl
@[simp] theorem State.setCtx_l1 : (s.setCtx c x).l1 = s.l1 := rfl
@[simp] theorem State.setCtx_hostLines : (s.setCtx c x).hostLines = s.hostLines := rfl
@[simp] theorem State.setCtx_dir : (s.setCtx c x).dir = s.dir := rfl
@[simp] theorem State.setCtx_l2 : (s.setCtx c x).l2 = s.l2 := rfl
@[simp] theorem State.setCtx_icache : (s.setCtx c x).icache = s.icache := rfl
@[simp] theorem State.setCtx_xcache : (s.setCtx c x).xcache = s.xcache := rfl
@[simp] theorem State.setCtx_spCache : (s.setCtx c x).spCache = s.spCache := rfl
@[simp] theorem State.setCtx_corrected : (s.setCtx c x).corrected = s.corrected := rfl
@[simp] theorem State.setCtx_reqs : (s.setCtx c x).reqs = s.reqs := rfl
@[simp] theorem State.setCtx_debts : (s.setCtx c x).debts = s.debts := rfl
@[simp] theorem State.setCtx_passed : (s.setCtx c x).passed = s.passed := rfl
@[simp] theorem State.setCtx_signals : (s.setCtx c x).signals = s.signals := rfl
@[simp] theorem State.setCtx_shoot : (s.setCtx c x).shoot = s.shoot := rfl
@[simp] theorem State.setCtx_shootDone : (s.setCtx c x).shootDone = s.shootDone := rfl
@[simp] theorem State.setCtx_cmds : (s.setCtx c x).cmds = s.cmds := rfl
@[simp] theorem State.setCtx_recs : (s.setCtx c x).recs = s.recs := rfl
@[simp] theorem State.setCtx_deltas : (s.setCtx c x).deltas = s.deltas := rfl
@[simp] theorem State.setCtx_cached : (s.setCtx c x).cached = s.cached := rfl
@[simp] theorem State.setCtx_installs : (s.setCtx c x).installs = s.installs := rfl
@[simp] theorem State.setCtx_posts : (s.setCtx c x).posts = s.posts := rfl
@[simp] theorem State.setCtx_barUpds : (s.setCtx c x).barUpds = s.barUpds := rfl
@[simp] theorem State.setCtx_barLine : (s.setCtx c x).barLine = s.barLine := rfl
@[simp] theorem State.setCtx_barSeen : (s.setCtx c x).barSeen = s.barSeen := rfl
@[simp] theorem State.setCtx_chans : (s.setCtx c x).chans = s.chans := rfl
@[simp] theorem State.setCtx_grps : (s.setCtx c x).grps = s.grps := rfl
@[simp] theorem State.setCtx_colls : (s.setCtx c x).colls = s.colls := rfl
@[simp] theorem State.setCtx_quar : (s.setCtx c x).quar = s.quar := rfl
@[simp] theorem State.setCtx_qcmds : (s.setCtx c x).qcmds = s.qcmds := rfl
@[simp] theorem State.setCtx_pages : (s.setCtx c x).pages = s.pages := rfl
@[simp] theorem State.setCtx_bounce : (s.setCtx c x).bounce = s.bounce := rfl
@[simp] theorem State.setCtx_gated : (s.setCtx c x).gated = s.gated := rfl
@[simp] theorem State.setCtx_tasks : (s.setCtx c x).tasks = s.tasks := rfl
@[simp] theorem State.setCtx_occ : (s.setCtx c x).occ = s.occ := rfl
@[simp] theorem State.setCtx_reuse : (s.setCtx c x).reuse = s.reuse := rfl
@[simp] theorem State.setCtx_watchCnt : (s.setCtx c x).watchCnt = s.watchCnt := rfl
@[simp] theorem State.setCtx_tenants : (s.setCtx c x).tenants = s.tenants := rfl
@[simp] theorem State.setCtx_saved : (s.setCtx c x).saved = s.saved := rfl
@[simp] theorem State.setCtx_links : (s.setCtx c x).links = s.links := rfl
@[simp] theorem State.setCtx_fab : (s.setCtx c x).fab = s.fab := rfl
@[simp] theorem State.setCtx_sys : (s.setCtx c x).sys = s.sys := rfl
@[simp] theorem State.setCtx_pmc : (s.setCtx c x).pmc = s.pmc := rfl
@[simp] theorem State.setCtx_pmsel : (s.setCtx c x).pmsel = s.pmsel := rfl
@[simp] theorem State.setCtx_pmcSkip : (s.setCtx c x).pmcSkip = s.pmcSkip := rfl
@[simp] theorem State.setCtx_pmcPend : (s.setCtx c x).pmcPend = s.pmcPend := rfl
@[simp] theorem State.setCtx_copyParks : (s.setCtx c x).copyParks = s.copyParks := rfl
end

/-! ### Changes a context -/

section
variable (s : State) (c : Nat) (f : Ctx → Ctx)
@[simp] theorem State.modCtx_gcyc : (s.modCtx c f).gcyc = s.gcyc := rfl
@[simp] theorem State.modCtx_cur : (s.modCtx c f).cur = s.cur := rfl
@[simp] theorem State.modCtx_turn : (s.modCtx c f).turn = s.turn := rfl
@[simp] theorem State.modCtx_agenda : (s.modCtx c f).agenda = s.agenda := rfl
@[simp] theorem State.modCtx_fresh : (s.modCtx c f).fresh = s.fresh := rfl
@[simp] theorem State.modCtx_nextId : (s.modCtx c f).nextId = s.nextId := rfl
@[simp] theorem State.modCtx_thr : (s.modCtx c f).thr = s.thr := rfl
@[simp] theorem State.modCtx_mem : (s.modCtx c f).mem = s.mem := rfl
@[simp] theorem State.modCtx_tags : (s.modCtx c f).tags = s.tags := rfl
@[simp] theorem State.modCtx_frames : (s.modCtx c f).frames = s.frames := rfl
@[simp] theorem State.modCtx_ftags : (s.modCtx c f).ftags = s.ftags := rfl
@[simp] theorem State.modCtx_unjoined : (s.modCtx c f).unjoined = s.unjoined := rfl
@[simp] theorem State.modCtx_l1 : (s.modCtx c f).l1 = s.l1 := rfl
@[simp] theorem State.modCtx_hostLines : (s.modCtx c f).hostLines = s.hostLines := rfl
@[simp] theorem State.modCtx_dir : (s.modCtx c f).dir = s.dir := rfl
@[simp] theorem State.modCtx_l2 : (s.modCtx c f).l2 = s.l2 := rfl
@[simp] theorem State.modCtx_icache : (s.modCtx c f).icache = s.icache := rfl
@[simp] theorem State.modCtx_xcache : (s.modCtx c f).xcache = s.xcache := rfl
@[simp] theorem State.modCtx_spCache : (s.modCtx c f).spCache = s.spCache := rfl
@[simp] theorem State.modCtx_corrected : (s.modCtx c f).corrected = s.corrected := rfl
@[simp] theorem State.modCtx_reqs : (s.modCtx c f).reqs = s.reqs := rfl
@[simp] theorem State.modCtx_debts : (s.modCtx c f).debts = s.debts := rfl
@[simp] theorem State.modCtx_passed : (s.modCtx c f).passed = s.passed := rfl
@[simp] theorem State.modCtx_signals : (s.modCtx c f).signals = s.signals := rfl
@[simp] theorem State.modCtx_shoot : (s.modCtx c f).shoot = s.shoot := rfl
@[simp] theorem State.modCtx_shootDone : (s.modCtx c f).shootDone = s.shootDone := rfl
@[simp] theorem State.modCtx_cmds : (s.modCtx c f).cmds = s.cmds := rfl
@[simp] theorem State.modCtx_recs : (s.modCtx c f).recs = s.recs := rfl
@[simp] theorem State.modCtx_deltas : (s.modCtx c f).deltas = s.deltas := rfl
@[simp] theorem State.modCtx_cached : (s.modCtx c f).cached = s.cached := rfl
@[simp] theorem State.modCtx_installs : (s.modCtx c f).installs = s.installs := rfl
@[simp] theorem State.modCtx_posts : (s.modCtx c f).posts = s.posts := rfl
@[simp] theorem State.modCtx_barUpds : (s.modCtx c f).barUpds = s.barUpds := rfl
@[simp] theorem State.modCtx_barLine : (s.modCtx c f).barLine = s.barLine := rfl
@[simp] theorem State.modCtx_barSeen : (s.modCtx c f).barSeen = s.barSeen := rfl
@[simp] theorem State.modCtx_chans : (s.modCtx c f).chans = s.chans := rfl
@[simp] theorem State.modCtx_grps : (s.modCtx c f).grps = s.grps := rfl
@[simp] theorem State.modCtx_colls : (s.modCtx c f).colls = s.colls := rfl
@[simp] theorem State.modCtx_quar : (s.modCtx c f).quar = s.quar := rfl
@[simp] theorem State.modCtx_qcmds : (s.modCtx c f).qcmds = s.qcmds := rfl
@[simp] theorem State.modCtx_pages : (s.modCtx c f).pages = s.pages := rfl
@[simp] theorem State.modCtx_bounce : (s.modCtx c f).bounce = s.bounce := rfl
@[simp] theorem State.modCtx_gated : (s.modCtx c f).gated = s.gated := rfl
@[simp] theorem State.modCtx_tasks : (s.modCtx c f).tasks = s.tasks := rfl
@[simp] theorem State.modCtx_occ : (s.modCtx c f).occ = s.occ := rfl
@[simp] theorem State.modCtx_reuse : (s.modCtx c f).reuse = s.reuse := rfl
@[simp] theorem State.modCtx_watchCnt : (s.modCtx c f).watchCnt = s.watchCnt := rfl
@[simp] theorem State.modCtx_tenants : (s.modCtx c f).tenants = s.tenants := rfl
@[simp] theorem State.modCtx_saved : (s.modCtx c f).saved = s.saved := rfl
@[simp] theorem State.modCtx_links : (s.modCtx c f).links = s.links := rfl
@[simp] theorem State.modCtx_fab : (s.modCtx c f).fab = s.fab := rfl
@[simp] theorem State.modCtx_sys : (s.modCtx c f).sys = s.sys := rfl
@[simp] theorem State.modCtx_pmc : (s.modCtx c f).pmc = s.pmc := rfl
@[simp] theorem State.modCtx_pmsel : (s.modCtx c f).pmsel = s.pmsel := rfl
@[simp] theorem State.modCtx_pmcSkip : (s.modCtx c f).pmcSkip = s.pmcSkip := rfl
@[simp] theorem State.modCtx_pmcPend : (s.modCtx c f).pmcPend = s.pmcPend := rfl
@[simp] theorem State.modCtx_copyParks : (s.modCtx c f).copyParks = s.copyParks := rfl
end

/-! ### Changes a command -/

section
variable (s : State) (id : Nat) (f : Cmd → Cmd)
@[simp] theorem State.modCmd_gcyc : (s.modCmd id f).gcyc = s.gcyc := rfl
@[simp] theorem State.modCmd_cur : (s.modCmd id f).cur = s.cur := rfl
@[simp] theorem State.modCmd_turn : (s.modCmd id f).turn = s.turn := rfl
@[simp] theorem State.modCmd_agenda : (s.modCmd id f).agenda = s.agenda := rfl
@[simp] theorem State.modCmd_fresh : (s.modCmd id f).fresh = s.fresh := rfl
@[simp] theorem State.modCmd_nextId : (s.modCmd id f).nextId = s.nextId := rfl
@[simp] theorem State.modCmd_thr : (s.modCmd id f).thr = s.thr := rfl
@[simp] theorem State.modCmd_mem : (s.modCmd id f).mem = s.mem := rfl
@[simp] theorem State.modCmd_tags : (s.modCmd id f).tags = s.tags := rfl
@[simp] theorem State.modCmd_frames : (s.modCmd id f).frames = s.frames := rfl
@[simp] theorem State.modCmd_ftags : (s.modCmd id f).ftags = s.ftags := rfl
@[simp] theorem State.modCmd_unjoined : (s.modCmd id f).unjoined = s.unjoined := rfl
@[simp] theorem State.modCmd_l1 : (s.modCmd id f).l1 = s.l1 := rfl
@[simp] theorem State.modCmd_hostLines : (s.modCmd id f).hostLines = s.hostLines := rfl
@[simp] theorem State.modCmd_dir : (s.modCmd id f).dir = s.dir := rfl
@[simp] theorem State.modCmd_l2 : (s.modCmd id f).l2 = s.l2 := rfl
@[simp] theorem State.modCmd_icache : (s.modCmd id f).icache = s.icache := rfl
@[simp] theorem State.modCmd_xcache : (s.modCmd id f).xcache = s.xcache := rfl
@[simp] theorem State.modCmd_spCache : (s.modCmd id f).spCache = s.spCache := rfl
@[simp] theorem State.modCmd_corrected : (s.modCmd id f).corrected = s.corrected := rfl
@[simp] theorem State.modCmd_reqs : (s.modCmd id f).reqs = s.reqs := rfl
@[simp] theorem State.modCmd_debts : (s.modCmd id f).debts = s.debts := rfl
@[simp] theorem State.modCmd_passed : (s.modCmd id f).passed = s.passed := rfl
@[simp] theorem State.modCmd_signals : (s.modCmd id f).signals = s.signals := rfl
@[simp] theorem State.modCmd_shoot : (s.modCmd id f).shoot = s.shoot := rfl
@[simp] theorem State.modCmd_shootDone : (s.modCmd id f).shootDone = s.shootDone := rfl
@[simp] theorem State.modCmd_recs : (s.modCmd id f).recs = s.recs := rfl
@[simp] theorem State.modCmd_deltas : (s.modCmd id f).deltas = s.deltas := rfl
@[simp] theorem State.modCmd_cached : (s.modCmd id f).cached = s.cached := rfl
@[simp] theorem State.modCmd_installs : (s.modCmd id f).installs = s.installs := rfl
@[simp] theorem State.modCmd_posts : (s.modCmd id f).posts = s.posts := rfl
@[simp] theorem State.modCmd_barUpds : (s.modCmd id f).barUpds = s.barUpds := rfl
@[simp] theorem State.modCmd_barLine : (s.modCmd id f).barLine = s.barLine := rfl
@[simp] theorem State.modCmd_barSeen : (s.modCmd id f).barSeen = s.barSeen := rfl
@[simp] theorem State.modCmd_chans : (s.modCmd id f).chans = s.chans := rfl
@[simp] theorem State.modCmd_grps : (s.modCmd id f).grps = s.grps := rfl
@[simp] theorem State.modCmd_colls : (s.modCmd id f).colls = s.colls := rfl
@[simp] theorem State.modCmd_quar : (s.modCmd id f).quar = s.quar := rfl
@[simp] theorem State.modCmd_qcmds : (s.modCmd id f).qcmds = s.qcmds := rfl
@[simp] theorem State.modCmd_pages : (s.modCmd id f).pages = s.pages := rfl
@[simp] theorem State.modCmd_bounce : (s.modCmd id f).bounce = s.bounce := rfl
@[simp] theorem State.modCmd_gated : (s.modCmd id f).gated = s.gated := rfl
@[simp] theorem State.modCmd_tasks : (s.modCmd id f).tasks = s.tasks := rfl
@[simp] theorem State.modCmd_occ : (s.modCmd id f).occ = s.occ := rfl
@[simp] theorem State.modCmd_reuse : (s.modCmd id f).reuse = s.reuse := rfl
@[simp] theorem State.modCmd_watchCnt : (s.modCmd id f).watchCnt = s.watchCnt := rfl
@[simp] theorem State.modCmd_tenants : (s.modCmd id f).tenants = s.tenants := rfl
@[simp] theorem State.modCmd_saved : (s.modCmd id f).saved = s.saved := rfl
@[simp] theorem State.modCmd_ctxs : (s.modCmd id f).ctxs = s.ctxs := rfl
@[simp] theorem State.modCmd_links : (s.modCmd id f).links = s.links := rfl
@[simp] theorem State.modCmd_fab : (s.modCmd id f).fab = s.fab := rfl
@[simp] theorem State.modCmd_sys : (s.modCmd id f).sys = s.sys := rfl
@[simp] theorem State.modCmd_pmc : (s.modCmd id f).pmc = s.pmc := rfl
@[simp] theorem State.modCmd_pmsel : (s.modCmd id f).pmsel = s.pmsel := rfl
@[simp] theorem State.modCmd_pmcSkip : (s.modCmd id f).pmcSkip = s.pmcSkip := rfl
@[simp] theorem State.modCmd_pmcPend : (s.modCmd id f).pmcPend = s.pmcPend := rfl
@[simp] theorem State.modCmd_copyParks : (s.modCmd id f).copyParks = s.copyParks := rfl
end

/-! ### Fires a ticket -/

section
variable (s : State) (id : Nat)
@[simp] theorem State.fire_gcyc : (s.fire id).gcyc = s.gcyc := by unfold State.fire; split <;> rfl
@[simp] theorem State.fire_cur : (s.fire id).cur = s.cur := by unfold State.fire; split <;> rfl
@[simp] theorem State.fire_turn : (s.fire id).turn = s.turn := by unfold State.fire; split <;> rfl
@[simp] theorem State.fire_agenda : (s.fire id).agenda = s.agenda := by unfold State.fire; split <;> rfl
@[simp] theorem State.fire_fresh : (s.fire id).fresh = s.fresh := by unfold State.fire; split <;> rfl
@[simp] theorem State.fire_thr : (s.fire id).thr = s.thr := by unfold State.fire; split <;> rfl
@[simp] theorem State.fire_mem : (s.fire id).mem = s.mem := by unfold State.fire; split <;> rfl
@[simp] theorem State.fire_tags : (s.fire id).tags = s.tags := by unfold State.fire; split <;> rfl
@[simp] theorem State.fire_frames : (s.fire id).frames = s.frames := by unfold State.fire; split <;> rfl
@[simp] theorem State.fire_ftags : (s.fire id).ftags = s.ftags := by unfold State.fire; split <;> rfl
@[simp] theorem State.fire_unjoined : (s.fire id).unjoined = s.unjoined := by unfold State.fire; split <;> rfl
@[simp] theorem State.fire_l1 : (s.fire id).l1 = s.l1 := by unfold State.fire; split <;> rfl
@[simp] theorem State.fire_hostLines : (s.fire id).hostLines = s.hostLines := by unfold State.fire; split <;> rfl
@[simp] theorem State.fire_dir : (s.fire id).dir = s.dir := by unfold State.fire; split <;> rfl
@[simp] theorem State.fire_l2 : (s.fire id).l2 = s.l2 := by unfold State.fire; split <;> rfl
@[simp] theorem State.fire_icache : (s.fire id).icache = s.icache := by unfold State.fire; split <;> rfl
@[simp] theorem State.fire_xcache : (s.fire id).xcache = s.xcache := by unfold State.fire; split <;> rfl
@[simp] theorem State.fire_spCache : (s.fire id).spCache = s.spCache := by unfold State.fire; split <;> rfl
@[simp] theorem State.fire_corrected : (s.fire id).corrected = s.corrected := by unfold State.fire; split <;> rfl
@[simp] theorem State.fire_reqs : (s.fire id).reqs = s.reqs := by unfold State.fire; split <;> rfl
@[simp] theorem State.fire_debts : (s.fire id).debts = s.debts := by unfold State.fire; split <;> rfl
@[simp] theorem State.fire_passed : (s.fire id).passed = s.passed := by unfold State.fire; split <;> rfl
@[simp] theorem State.fire_signals : (s.fire id).signals = s.signals := by unfold State.fire; split <;> rfl
@[simp] theorem State.fire_shoot : (s.fire id).shoot = s.shoot := by unfold State.fire; split <;> rfl
@[simp] theorem State.fire_shootDone : (s.fire id).shootDone = s.shootDone := by unfold State.fire; split <;> rfl
@[simp] theorem State.fire_deltas : (s.fire id).deltas = s.deltas := by unfold State.fire; split <;> rfl
@[simp] theorem State.fire_cached : (s.fire id).cached = s.cached := by unfold State.fire; split <;> rfl
@[simp] theorem State.fire_installs : (s.fire id).installs = s.installs := by unfold State.fire; split <;> rfl
@[simp] theorem State.fire_posts : (s.fire id).posts = s.posts := by unfold State.fire; split <;> rfl
@[simp] theorem State.fire_barUpds : (s.fire id).barUpds = s.barUpds := by unfold State.fire; split <;> rfl
@[simp] theorem State.fire_barLine : (s.fire id).barLine = s.barLine := by unfold State.fire; split <;> rfl
@[simp] theorem State.fire_barSeen : (s.fire id).barSeen = s.barSeen := by unfold State.fire; split <;> rfl
@[simp] theorem State.fire_chans : (s.fire id).chans = s.chans := by unfold State.fire; split <;> rfl
@[simp] theorem State.fire_grps : (s.fire id).grps = s.grps := by unfold State.fire; split <;> rfl
@[simp] theorem State.fire_colls : (s.fire id).colls = s.colls := by unfold State.fire; split <;> rfl
@[simp] theorem State.fire_quar : (s.fire id).quar = s.quar := by unfold State.fire; split <;> rfl
@[simp] theorem State.fire_qcmds : (s.fire id).qcmds = s.qcmds := by unfold State.fire; split <;> rfl
@[simp] theorem State.fire_pages : (s.fire id).pages = s.pages := by unfold State.fire; split <;> rfl
@[simp] theorem State.fire_bounce : (s.fire id).bounce = s.bounce := by unfold State.fire; split <;> rfl
@[simp] theorem State.fire_gated : (s.fire id).gated = s.gated := by unfold State.fire; split <;> rfl
@[simp] theorem State.fire_tasks : (s.fire id).tasks = s.tasks := by unfold State.fire; split <;> rfl
@[simp] theorem State.fire_occ : (s.fire id).occ = s.occ := by unfold State.fire; split <;> rfl
@[simp] theorem State.fire_reuse : (s.fire id).reuse = s.reuse := by unfold State.fire; split <;> rfl
@[simp] theorem State.fire_watchCnt : (s.fire id).watchCnt = s.watchCnt := by unfold State.fire; split <;> rfl
@[simp] theorem State.fire_tenants : (s.fire id).tenants = s.tenants := by unfold State.fire; split <;> rfl
@[simp] theorem State.fire_saved : (s.fire id).saved = s.saved := by unfold State.fire; split <;> rfl
@[simp] theorem State.fire_ctxs : (s.fire id).ctxs = s.ctxs := by unfold State.fire; split <;> rfl
@[simp] theorem State.fire_links : (s.fire id).links = s.links := by unfold State.fire; split <;> rfl
@[simp] theorem State.fire_fab : (s.fire id).fab = s.fab := by unfold State.fire; split <;> rfl
@[simp] theorem State.fire_sys : (s.fire id).sys = s.sys := by unfold State.fire; split <;> rfl
@[simp] theorem State.fire_pmc : (s.fire id).pmc = s.pmc := by unfold State.fire; split <;> rfl
@[simp] theorem State.fire_pmsel : (s.fire id).pmsel = s.pmsel := by unfold State.fire; split <;> rfl
@[simp] theorem State.fire_pmcSkip : (s.fire id).pmcSkip = s.pmcSkip := by unfold State.fire; split <;> rfl
@[simp] theorem State.fire_pmcPend : (s.fire id).pmcPend = s.pmcPend := by unfold State.fire; split <;> rfl
@[simp] theorem State.fire_copyParks : (s.fire id).copyParks = s.copyParks := by unfold State.fire; split <;> rfl
end

/-! ### Puts a result in flight -/

section
variable (s : State) (k n : Nat) (l : Land)
@[simp] theorem State.fly_gcyc : (s.fly k n l).gcyc = s.gcyc := rfl
@[simp] theorem State.fly_cur : (s.fly k n l).cur = s.cur := rfl
@[simp] theorem State.fly_turn : (s.fly k n l).turn = s.turn := rfl
@[simp] theorem State.fly_agenda : (s.fly k n l).agenda = s.agenda := rfl
@[simp] theorem State.fly_fresh : (s.fly k n l).fresh = s.fresh := rfl
@[simp] theorem State.fly_nextId : (s.fly k n l).nextId = s.nextId := rfl
@[simp] theorem State.fly_mem : (s.fly k n l).mem = s.mem := rfl
@[simp] theorem State.fly_tags : (s.fly k n l).tags = s.tags := rfl
@[simp] theorem State.fly_frames : (s.fly k n l).frames = s.frames := rfl
@[simp] theorem State.fly_ftags : (s.fly k n l).ftags = s.ftags := rfl
@[simp] theorem State.fly_unjoined : (s.fly k n l).unjoined = s.unjoined := rfl
@[simp] theorem State.fly_l1 : (s.fly k n l).l1 = s.l1 := rfl
@[simp] theorem State.fly_hostLines : (s.fly k n l).hostLines = s.hostLines := rfl
@[simp] theorem State.fly_dir : (s.fly k n l).dir = s.dir := rfl
@[simp] theorem State.fly_l2 : (s.fly k n l).l2 = s.l2 := rfl
@[simp] theorem State.fly_icache : (s.fly k n l).icache = s.icache := rfl
@[simp] theorem State.fly_xcache : (s.fly k n l).xcache = s.xcache := rfl
@[simp] theorem State.fly_spCache : (s.fly k n l).spCache = s.spCache := rfl
@[simp] theorem State.fly_corrected : (s.fly k n l).corrected = s.corrected := rfl
@[simp] theorem State.fly_reqs : (s.fly k n l).reqs = s.reqs := rfl
@[simp] theorem State.fly_debts : (s.fly k n l).debts = s.debts := rfl
@[simp] theorem State.fly_passed : (s.fly k n l).passed = s.passed := rfl
@[simp] theorem State.fly_signals : (s.fly k n l).signals = s.signals := rfl
@[simp] theorem State.fly_shoot : (s.fly k n l).shoot = s.shoot := rfl
@[simp] theorem State.fly_shootDone : (s.fly k n l).shootDone = s.shootDone := rfl
@[simp] theorem State.fly_cmds : (s.fly k n l).cmds = s.cmds := rfl
@[simp] theorem State.fly_recs : (s.fly k n l).recs = s.recs := rfl
@[simp] theorem State.fly_deltas : (s.fly k n l).deltas = s.deltas := rfl
@[simp] theorem State.fly_cached : (s.fly k n l).cached = s.cached := rfl
@[simp] theorem State.fly_installs : (s.fly k n l).installs = s.installs := rfl
@[simp] theorem State.fly_posts : (s.fly k n l).posts = s.posts := rfl
@[simp] theorem State.fly_barUpds : (s.fly k n l).barUpds = s.barUpds := rfl
@[simp] theorem State.fly_barLine : (s.fly k n l).barLine = s.barLine := rfl
@[simp] theorem State.fly_barSeen : (s.fly k n l).barSeen = s.barSeen := rfl
@[simp] theorem State.fly_chans : (s.fly k n l).chans = s.chans := rfl
@[simp] theorem State.fly_grps : (s.fly k n l).grps = s.grps := rfl
@[simp] theorem State.fly_colls : (s.fly k n l).colls = s.colls := rfl
@[simp] theorem State.fly_quar : (s.fly k n l).quar = s.quar := rfl
@[simp] theorem State.fly_qcmds : (s.fly k n l).qcmds = s.qcmds := rfl
@[simp] theorem State.fly_pages : (s.fly k n l).pages = s.pages := rfl
@[simp] theorem State.fly_bounce : (s.fly k n l).bounce = s.bounce := rfl
@[simp] theorem State.fly_gated : (s.fly k n l).gated = s.gated := rfl
@[simp] theorem State.fly_tasks : (s.fly k n l).tasks = s.tasks := rfl
@[simp] theorem State.fly_occ : (s.fly k n l).occ = s.occ := rfl
@[simp] theorem State.fly_reuse : (s.fly k n l).reuse = s.reuse := rfl
@[simp] theorem State.fly_watchCnt : (s.fly k n l).watchCnt = s.watchCnt := rfl
@[simp] theorem State.fly_tenants : (s.fly k n l).tenants = s.tenants := rfl
@[simp] theorem State.fly_saved : (s.fly k n l).saved = s.saved := rfl
@[simp] theorem State.fly_ctxs : (s.fly k n l).ctxs = s.ctxs := rfl
@[simp] theorem State.fly_links : (s.fly k n l).links = s.links := rfl
@[simp] theorem State.fly_fab : (s.fly k n l).fab = s.fab := rfl
@[simp] theorem State.fly_sys : (s.fly k n l).sys = s.sys := rfl
@[simp] theorem State.fly_pmc : (s.fly k n l).pmc = s.pmc := rfl
@[simp] theorem State.fly_pmsel : (s.fly k n l).pmsel = s.pmsel := rfl
@[simp] theorem State.fly_pmcSkip : (s.fly k n l).pmcSkip = s.pmcSkip := rfl
@[simp] theorem State.fly_pmcPend : (s.fly k n l).pmcPend = s.pmcPend := rfl
@[simp] theorem State.fly_copyParks : (s.fly k n l).copyParks = s.copyParks := rfl
end

/-! ### Puts a returning request in flight -/

section
variable (s : State) (k n r : Nat)
@[simp] theorem State.flyReq_gcyc : (s.flyReq k n r).gcyc = s.gcyc := rfl
@[simp] theorem State.flyReq_cur : (s.flyReq k n r).cur = s.cur := rfl
@[simp] theorem State.flyReq_turn : (s.flyReq k n r).turn = s.turn := rfl
@[simp] theorem State.flyReq_agenda : (s.flyReq k n r).agenda = s.agenda := rfl
@[simp] theorem State.flyReq_fresh : (s.flyReq k n r).fresh = s.fresh := rfl
@[simp] theorem State.flyReq_nextId : (s.flyReq k n r).nextId = s.nextId := rfl
@[simp] theorem State.flyReq_mem : (s.flyReq k n r).mem = s.mem := rfl
@[simp] theorem State.flyReq_tags : (s.flyReq k n r).tags = s.tags := rfl
@[simp] theorem State.flyReq_frames : (s.flyReq k n r).frames = s.frames := rfl
@[simp] theorem State.flyReq_ftags : (s.flyReq k n r).ftags = s.ftags := rfl
@[simp] theorem State.flyReq_unjoined : (s.flyReq k n r).unjoined = s.unjoined := rfl
@[simp] theorem State.flyReq_l1 : (s.flyReq k n r).l1 = s.l1 := rfl
@[simp] theorem State.flyReq_hostLines : (s.flyReq k n r).hostLines = s.hostLines := rfl
@[simp] theorem State.flyReq_dir : (s.flyReq k n r).dir = s.dir := rfl
@[simp] theorem State.flyReq_l2 : (s.flyReq k n r).l2 = s.l2 := rfl
@[simp] theorem State.flyReq_icache : (s.flyReq k n r).icache = s.icache := rfl
@[simp] theorem State.flyReq_xcache : (s.flyReq k n r).xcache = s.xcache := rfl
@[simp] theorem State.flyReq_spCache : (s.flyReq k n r).spCache = s.spCache := rfl
@[simp] theorem State.flyReq_corrected : (s.flyReq k n r).corrected = s.corrected := rfl
@[simp] theorem State.flyReq_reqs : (s.flyReq k n r).reqs = s.reqs := rfl
@[simp] theorem State.flyReq_debts : (s.flyReq k n r).debts = s.debts := rfl
@[simp] theorem State.flyReq_passed : (s.flyReq k n r).passed = s.passed := rfl
@[simp] theorem State.flyReq_signals : (s.flyReq k n r).signals = s.signals := rfl
@[simp] theorem State.flyReq_shoot : (s.flyReq k n r).shoot = s.shoot := rfl
@[simp] theorem State.flyReq_shootDone : (s.flyReq k n r).shootDone = s.shootDone := rfl
@[simp] theorem State.flyReq_cmds : (s.flyReq k n r).cmds = s.cmds := rfl
@[simp] theorem State.flyReq_recs : (s.flyReq k n r).recs = s.recs := rfl
@[simp] theorem State.flyReq_deltas : (s.flyReq k n r).deltas = s.deltas := rfl
@[simp] theorem State.flyReq_cached : (s.flyReq k n r).cached = s.cached := rfl
@[simp] theorem State.flyReq_installs : (s.flyReq k n r).installs = s.installs := rfl
@[simp] theorem State.flyReq_posts : (s.flyReq k n r).posts = s.posts := rfl
@[simp] theorem State.flyReq_barUpds : (s.flyReq k n r).barUpds = s.barUpds := rfl
@[simp] theorem State.flyReq_barLine : (s.flyReq k n r).barLine = s.barLine := rfl
@[simp] theorem State.flyReq_barSeen : (s.flyReq k n r).barSeen = s.barSeen := rfl
@[simp] theorem State.flyReq_chans : (s.flyReq k n r).chans = s.chans := rfl
@[simp] theorem State.flyReq_grps : (s.flyReq k n r).grps = s.grps := rfl
@[simp] theorem State.flyReq_colls : (s.flyReq k n r).colls = s.colls := rfl
@[simp] theorem State.flyReq_quar : (s.flyReq k n r).quar = s.quar := rfl
@[simp] theorem State.flyReq_qcmds : (s.flyReq k n r).qcmds = s.qcmds := rfl
@[simp] theorem State.flyReq_pages : (s.flyReq k n r).pages = s.pages := rfl
@[simp] theorem State.flyReq_bounce : (s.flyReq k n r).bounce = s.bounce := rfl
@[simp] theorem State.flyReq_gated : (s.flyReq k n r).gated = s.gated := rfl
@[simp] theorem State.flyReq_tasks : (s.flyReq k n r).tasks = s.tasks := rfl
@[simp] theorem State.flyReq_occ : (s.flyReq k n r).occ = s.occ := rfl
@[simp] theorem State.flyReq_reuse : (s.flyReq k n r).reuse = s.reuse := rfl
@[simp] theorem State.flyReq_watchCnt : (s.flyReq k n r).watchCnt = s.watchCnt := rfl
@[simp] theorem State.flyReq_tenants : (s.flyReq k n r).tenants = s.tenants := rfl
@[simp] theorem State.flyReq_saved : (s.flyReq k n r).saved = s.saved := rfl
@[simp] theorem State.flyReq_ctxs : (s.flyReq k n r).ctxs = s.ctxs := rfl
@[simp] theorem State.flyReq_links : (s.flyReq k n r).links = s.links := rfl
@[simp] theorem State.flyReq_fab : (s.flyReq k n r).fab = s.fab := rfl
@[simp] theorem State.flyReq_sys : (s.flyReq k n r).sys = s.sys := rfl
@[simp] theorem State.flyReq_pmc : (s.flyReq k n r).pmc = s.pmc := rfl
@[simp] theorem State.flyReq_pmsel : (s.flyReq k n r).pmsel = s.pmsel := rfl
@[simp] theorem State.flyReq_pmcSkip : (s.flyReq k n r).pmcSkip = s.pmcSkip := rfl
@[simp] theorem State.flyReq_pmcPend : (s.flyReq k n r).pmcPend = s.pmcPend := rfl
@[simp] theorem State.flyReq_copyParks : (s.flyReq k n r).copyParks = s.copyParks := rfl
end

/-! ### Forms a record -/

section
variable (s : State) (r : Rec)
@[simp] theorem State.post_gcyc : (s.post r).gcyc = s.gcyc := rfl
@[simp] theorem State.post_cur : (s.post r).cur = s.cur := rfl
@[simp] theorem State.post_turn : (s.post r).turn = s.turn := rfl
@[simp] theorem State.post_agenda : (s.post r).agenda = s.agenda := rfl
@[simp] theorem State.post_fresh : (s.post r).fresh = s.fresh := rfl
@[simp] theorem State.post_thr : (s.post r).thr = s.thr := rfl
@[simp] theorem State.post_mem : (s.post r).mem = s.mem := rfl
@[simp] theorem State.post_tags : (s.post r).tags = s.tags := rfl
@[simp] theorem State.post_frames : (s.post r).frames = s.frames := rfl
@[simp] theorem State.post_ftags : (s.post r).ftags = s.ftags := rfl
@[simp] theorem State.post_unjoined : (s.post r).unjoined = s.unjoined := rfl
@[simp] theorem State.post_l1 : (s.post r).l1 = s.l1 := rfl
@[simp] theorem State.post_hostLines : (s.post r).hostLines = s.hostLines := rfl
@[simp] theorem State.post_dir : (s.post r).dir = s.dir := rfl
@[simp] theorem State.post_l2 : (s.post r).l2 = s.l2 := rfl
@[simp] theorem State.post_icache : (s.post r).icache = s.icache := rfl
@[simp] theorem State.post_xcache : (s.post r).xcache = s.xcache := rfl
@[simp] theorem State.post_spCache : (s.post r).spCache = s.spCache := rfl
@[simp] theorem State.post_corrected : (s.post r).corrected = s.corrected := rfl
@[simp] theorem State.post_reqs : (s.post r).reqs = s.reqs := rfl
@[simp] theorem State.post_debts : (s.post r).debts = s.debts := rfl
@[simp] theorem State.post_passed : (s.post r).passed = s.passed := rfl
@[simp] theorem State.post_signals : (s.post r).signals = s.signals := rfl
@[simp] theorem State.post_shoot : (s.post r).shoot = s.shoot := rfl
@[simp] theorem State.post_shootDone : (s.post r).shootDone = s.shootDone := rfl
@[simp] theorem State.post_cmds : (s.post r).cmds = s.cmds := rfl
@[simp] theorem State.post_deltas : (s.post r).deltas = s.deltas := rfl
@[simp] theorem State.post_cached : (s.post r).cached = s.cached := rfl
@[simp] theorem State.post_installs : (s.post r).installs = s.installs := rfl
@[simp] theorem State.post_posts : (s.post r).posts = s.posts := rfl
@[simp] theorem State.post_barUpds : (s.post r).barUpds = s.barUpds := rfl
@[simp] theorem State.post_barLine : (s.post r).barLine = s.barLine := rfl
@[simp] theorem State.post_barSeen : (s.post r).barSeen = s.barSeen := rfl
@[simp] theorem State.post_chans : (s.post r).chans = s.chans := rfl
@[simp] theorem State.post_grps : (s.post r).grps = s.grps := rfl
@[simp] theorem State.post_colls : (s.post r).colls = s.colls := rfl
@[simp] theorem State.post_quar : (s.post r).quar = s.quar := rfl
@[simp] theorem State.post_qcmds : (s.post r).qcmds = s.qcmds := rfl
@[simp] theorem State.post_pages : (s.post r).pages = s.pages := rfl
@[simp] theorem State.post_bounce : (s.post r).bounce = s.bounce := rfl
@[simp] theorem State.post_gated : (s.post r).gated = s.gated := rfl
@[simp] theorem State.post_tasks : (s.post r).tasks = s.tasks := rfl
@[simp] theorem State.post_occ : (s.post r).occ = s.occ := rfl
@[simp] theorem State.post_reuse : (s.post r).reuse = s.reuse := rfl
@[simp] theorem State.post_watchCnt : (s.post r).watchCnt = s.watchCnt := rfl
@[simp] theorem State.post_tenants : (s.post r).tenants = s.tenants := rfl
@[simp] theorem State.post_saved : (s.post r).saved = s.saved := rfl
@[simp] theorem State.post_ctxs : (s.post r).ctxs = s.ctxs := rfl
@[simp] theorem State.post_links : (s.post r).links = s.links := rfl
@[simp] theorem State.post_fab : (s.post r).fab = s.fab := rfl
@[simp] theorem State.post_sys : (s.post r).sys = s.sys := rfl
@[simp] theorem State.post_pmc : (s.post r).pmc = s.pmc := rfl
@[simp] theorem State.post_pmsel : (s.post r).pmsel = s.pmsel := rfl
@[simp] theorem State.post_pmcSkip : (s.post r).pmcSkip = s.pmcSkip := rfl
@[simp] theorem State.post_pmcPend : (s.post r).pmcPend = s.pmcPend := rfl
@[simp] theorem State.post_copyParks : (s.post r).copyParks = s.copyParks := rfl
end

/-! ### Ends a command in an error -/

section
variable (s : State) (c : Cmd) (n : Nat)
@[simp] theorem State.cmdError_gcyc : (s.cmdError c n).gcyc = s.gcyc := rfl
@[simp] theorem State.cmdError_cur : (s.cmdError c n).cur = s.cur := rfl
@[simp] theorem State.cmdError_turn : (s.cmdError c n).turn = s.turn := rfl
@[simp] theorem State.cmdError_agenda : (s.cmdError c n).agenda = s.agenda := rfl
@[simp] theorem State.cmdError_fresh : (s.cmdError c n).fresh = s.fresh := rfl
@[simp] theorem State.cmdError_thr : (s.cmdError c n).thr = s.thr := rfl
@[simp] theorem State.cmdError_mem : (s.cmdError c n).mem = s.mem := rfl
@[simp] theorem State.cmdError_tags : (s.cmdError c n).tags = s.tags := rfl
@[simp] theorem State.cmdError_frames : (s.cmdError c n).frames = s.frames := rfl
@[simp] theorem State.cmdError_ftags : (s.cmdError c n).ftags = s.ftags := rfl
@[simp] theorem State.cmdError_unjoined : (s.cmdError c n).unjoined = s.unjoined := rfl
@[simp] theorem State.cmdError_l1 : (s.cmdError c n).l1 = s.l1 := rfl
@[simp] theorem State.cmdError_hostLines : (s.cmdError c n).hostLines = s.hostLines := rfl
@[simp] theorem State.cmdError_dir : (s.cmdError c n).dir = s.dir := rfl
@[simp] theorem State.cmdError_l2 : (s.cmdError c n).l2 = s.l2 := rfl
@[simp] theorem State.cmdError_icache : (s.cmdError c n).icache = s.icache := rfl
@[simp] theorem State.cmdError_xcache : (s.cmdError c n).xcache = s.xcache := rfl
@[simp] theorem State.cmdError_spCache : (s.cmdError c n).spCache = s.spCache := rfl
@[simp] theorem State.cmdError_corrected : (s.cmdError c n).corrected = s.corrected := rfl
@[simp] theorem State.cmdError_reqs : (s.cmdError c n).reqs = s.reqs := rfl
@[simp] theorem State.cmdError_debts : (s.cmdError c n).debts = s.debts := rfl
@[simp] theorem State.cmdError_passed : (s.cmdError c n).passed = s.passed := rfl
@[simp] theorem State.cmdError_signals : (s.cmdError c n).signals = s.signals := rfl
@[simp] theorem State.cmdError_shoot : (s.cmdError c n).shoot = s.shoot := rfl
@[simp] theorem State.cmdError_shootDone : (s.cmdError c n).shootDone = s.shootDone := rfl
@[simp] theorem State.cmdError_deltas : (s.cmdError c n).deltas = s.deltas := rfl
@[simp] theorem State.cmdError_cached : (s.cmdError c n).cached = s.cached := rfl
@[simp] theorem State.cmdError_installs : (s.cmdError c n).installs = s.installs := rfl
@[simp] theorem State.cmdError_posts : (s.cmdError c n).posts = s.posts := rfl
@[simp] theorem State.cmdError_barUpds : (s.cmdError c n).barUpds = s.barUpds := rfl
@[simp] theorem State.cmdError_barLine : (s.cmdError c n).barLine = s.barLine := rfl
@[simp] theorem State.cmdError_barSeen : (s.cmdError c n).barSeen = s.barSeen := rfl
@[simp] theorem State.cmdError_chans : (s.cmdError c n).chans = s.chans := rfl
@[simp] theorem State.cmdError_grps : (s.cmdError c n).grps = s.grps := rfl
@[simp] theorem State.cmdError_colls : (s.cmdError c n).colls = s.colls := rfl
@[simp] theorem State.cmdError_quar : (s.cmdError c n).quar = s.quar := rfl
@[simp] theorem State.cmdError_qcmds : (s.cmdError c n).qcmds = s.qcmds := rfl
@[simp] theorem State.cmdError_pages : (s.cmdError c n).pages = s.pages := rfl
@[simp] theorem State.cmdError_bounce : (s.cmdError c n).bounce = s.bounce := rfl
@[simp] theorem State.cmdError_gated : (s.cmdError c n).gated = s.gated := rfl
@[simp] theorem State.cmdError_tasks : (s.cmdError c n).tasks = s.tasks := rfl
@[simp] theorem State.cmdError_occ : (s.cmdError c n).occ = s.occ := rfl
@[simp] theorem State.cmdError_reuse : (s.cmdError c n).reuse = s.reuse := rfl
@[simp] theorem State.cmdError_watchCnt : (s.cmdError c n).watchCnt = s.watchCnt := rfl
@[simp] theorem State.cmdError_tenants : (s.cmdError c n).tenants = s.tenants := rfl
@[simp] theorem State.cmdError_saved : (s.cmdError c n).saved = s.saved := rfl
@[simp] theorem State.cmdError_ctxs : (s.cmdError c n).ctxs = s.ctxs := rfl
@[simp] theorem State.cmdError_links : (s.cmdError c n).links = s.links := rfl
@[simp] theorem State.cmdError_fab : (s.cmdError c n).fab = s.fab := rfl
@[simp] theorem State.cmdError_sys : (s.cmdError c n).sys = s.sys := rfl
@[simp] theorem State.cmdError_pmc : (s.cmdError c n).pmc = s.pmc := rfl
@[simp] theorem State.cmdError_pmsel : (s.cmdError c n).pmsel = s.pmsel := rfl
@[simp] theorem State.cmdError_pmcSkip : (s.cmdError c n).pmcSkip = s.pmcSkip := rfl
@[simp] theorem State.cmdError_pmcPend : (s.cmdError c n).pmcPend = s.pmcPend := rfl
@[simp] theorem State.cmdError_copyParks : (s.cmdError c n).copyParks = s.copyParks := rfl
end

/-! ### Writes a line tag -/

section
variable (s : State) (pa : Nat) (g : BitVec 4)
@[simp] theorem State.setTag_gcyc : (s.setTag pa g).gcyc = s.gcyc := rfl
@[simp] theorem State.setTag_cur : (s.setTag pa g).cur = s.cur := rfl
@[simp] theorem State.setTag_turn : (s.setTag pa g).turn = s.turn := rfl
@[simp] theorem State.setTag_agenda : (s.setTag pa g).agenda = s.agenda := rfl
@[simp] theorem State.setTag_fresh : (s.setTag pa g).fresh = s.fresh := rfl
@[simp] theorem State.setTag_nextId : (s.setTag pa g).nextId = s.nextId := rfl
@[simp] theorem State.setTag_thr : (s.setTag pa g).thr = s.thr := rfl
@[simp] theorem State.setTag_mem : (s.setTag pa g).mem = s.mem := rfl
@[simp] theorem State.setTag_frames : (s.setTag pa g).frames = s.frames := rfl
@[simp] theorem State.setTag_ftags : (s.setTag pa g).ftags = s.ftags := rfl
@[simp] theorem State.setTag_unjoined : (s.setTag pa g).unjoined = s.unjoined := rfl
@[simp] theorem State.setTag_l1 : (s.setTag pa g).l1 = s.l1 := rfl
@[simp] theorem State.setTag_hostLines : (s.setTag pa g).hostLines = s.hostLines := rfl
@[simp] theorem State.setTag_dir : (s.setTag pa g).dir = s.dir := rfl
@[simp] theorem State.setTag_l2 : (s.setTag pa g).l2 = s.l2 := rfl
@[simp] theorem State.setTag_icache : (s.setTag pa g).icache = s.icache := rfl
@[simp] theorem State.setTag_xcache : (s.setTag pa g).xcache = s.xcache := rfl
@[simp] theorem State.setTag_spCache : (s.setTag pa g).spCache = s.spCache := rfl
@[simp] theorem State.setTag_corrected : (s.setTag pa g).corrected = s.corrected := rfl
@[simp] theorem State.setTag_reqs : (s.setTag pa g).reqs = s.reqs := rfl
@[simp] theorem State.setTag_debts : (s.setTag pa g).debts = s.debts := rfl
@[simp] theorem State.setTag_passed : (s.setTag pa g).passed = s.passed := rfl
@[simp] theorem State.setTag_signals : (s.setTag pa g).signals = s.signals := rfl
@[simp] theorem State.setTag_shoot : (s.setTag pa g).shoot = s.shoot := rfl
@[simp] theorem State.setTag_shootDone : (s.setTag pa g).shootDone = s.shootDone := rfl
@[simp] theorem State.setTag_cmds : (s.setTag pa g).cmds = s.cmds := rfl
@[simp] theorem State.setTag_recs : (s.setTag pa g).recs = s.recs := rfl
@[simp] theorem State.setTag_deltas : (s.setTag pa g).deltas = s.deltas := rfl
@[simp] theorem State.setTag_cached : (s.setTag pa g).cached = s.cached := rfl
@[simp] theorem State.setTag_installs : (s.setTag pa g).installs = s.installs := rfl
@[simp] theorem State.setTag_posts : (s.setTag pa g).posts = s.posts := rfl
@[simp] theorem State.setTag_barUpds : (s.setTag pa g).barUpds = s.barUpds := rfl
@[simp] theorem State.setTag_barLine : (s.setTag pa g).barLine = s.barLine := rfl
@[simp] theorem State.setTag_barSeen : (s.setTag pa g).barSeen = s.barSeen := rfl
@[simp] theorem State.setTag_chans : (s.setTag pa g).chans = s.chans := rfl
@[simp] theorem State.setTag_grps : (s.setTag pa g).grps = s.grps := rfl
@[simp] theorem State.setTag_colls : (s.setTag pa g).colls = s.colls := rfl
@[simp] theorem State.setTag_quar : (s.setTag pa g).quar = s.quar := rfl
@[simp] theorem State.setTag_qcmds : (s.setTag pa g).qcmds = s.qcmds := rfl
@[simp] theorem State.setTag_pages : (s.setTag pa g).pages = s.pages := rfl
@[simp] theorem State.setTag_bounce : (s.setTag pa g).bounce = s.bounce := rfl
@[simp] theorem State.setTag_gated : (s.setTag pa g).gated = s.gated := rfl
@[simp] theorem State.setTag_tasks : (s.setTag pa g).tasks = s.tasks := rfl
@[simp] theorem State.setTag_occ : (s.setTag pa g).occ = s.occ := rfl
@[simp] theorem State.setTag_reuse : (s.setTag pa g).reuse = s.reuse := rfl
@[simp] theorem State.setTag_watchCnt : (s.setTag pa g).watchCnt = s.watchCnt := rfl
@[simp] theorem State.setTag_tenants : (s.setTag pa g).tenants = s.tenants := rfl
@[simp] theorem State.setTag_saved : (s.setTag pa g).saved = s.saved := rfl
@[simp] theorem State.setTag_ctxs : (s.setTag pa g).ctxs = s.ctxs := rfl
@[simp] theorem State.setTag_links : (s.setTag pa g).links = s.links := rfl
@[simp] theorem State.setTag_fab : (s.setTag pa g).fab = s.fab := rfl
@[simp] theorem State.setTag_sys : (s.setTag pa g).sys = s.sys := rfl
@[simp] theorem State.setTag_pmc : (s.setTag pa g).pmc = s.pmc := rfl
@[simp] theorem State.setTag_pmsel : (s.setTag pa g).pmsel = s.pmsel := rfl
@[simp] theorem State.setTag_pmcSkip : (s.setTag pa g).pmcSkip = s.pmcSkip := rfl
@[simp] theorem State.setTag_pmcPend : (s.setTag pa g).pmcPend = s.pmcPend := rfl
@[simp] theorem State.setTag_copyParks : (s.setTag pa g).copyParks = s.copyParks := rfl
end

/-! ### Drops a request -/

section
variable (s : State) (id : Nat)
@[simp] theorem State.dropReq_gcyc : (s.dropReq id).gcyc = s.gcyc := rfl
@[simp] theorem State.dropReq_cur : (s.dropReq id).cur = s.cur := rfl
@[simp] theorem State.dropReq_turn : (s.dropReq id).turn = s.turn := rfl
@[simp] theorem State.dropReq_agenda : (s.dropReq id).agenda = s.agenda := rfl
@[simp] theorem State.dropReq_fresh : (s.dropReq id).fresh = s.fresh := rfl
@[simp] theorem State.dropReq_nextId : (s.dropReq id).nextId = s.nextId := rfl
@[simp] theorem State.dropReq_thr : (s.dropReq id).thr = s.thr := rfl
@[simp] theorem State.dropReq_mem : (s.dropReq id).mem = s.mem := rfl
@[simp] theorem State.dropReq_tags : (s.dropReq id).tags = s.tags := rfl
@[simp] theorem State.dropReq_frames : (s.dropReq id).frames = s.frames := rfl
@[simp] theorem State.dropReq_ftags : (s.dropReq id).ftags = s.ftags := rfl
@[simp] theorem State.dropReq_unjoined : (s.dropReq id).unjoined = s.unjoined := rfl
@[simp] theorem State.dropReq_l1 : (s.dropReq id).l1 = s.l1 := rfl
@[simp] theorem State.dropReq_hostLines : (s.dropReq id).hostLines = s.hostLines := rfl
@[simp] theorem State.dropReq_dir : (s.dropReq id).dir = s.dir := rfl
@[simp] theorem State.dropReq_l2 : (s.dropReq id).l2 = s.l2 := rfl
@[simp] theorem State.dropReq_icache : (s.dropReq id).icache = s.icache := rfl
@[simp] theorem State.dropReq_xcache : (s.dropReq id).xcache = s.xcache := rfl
@[simp] theorem State.dropReq_spCache : (s.dropReq id).spCache = s.spCache := rfl
@[simp] theorem State.dropReq_corrected : (s.dropReq id).corrected = s.corrected := rfl
@[simp] theorem State.dropReq_debts : (s.dropReq id).debts = s.debts := rfl
@[simp] theorem State.dropReq_passed : (s.dropReq id).passed = s.passed := rfl
@[simp] theorem State.dropReq_signals : (s.dropReq id).signals = s.signals := rfl
@[simp] theorem State.dropReq_shoot : (s.dropReq id).shoot = s.shoot := rfl
@[simp] theorem State.dropReq_shootDone : (s.dropReq id).shootDone = s.shootDone := rfl
@[simp] theorem State.dropReq_cmds : (s.dropReq id).cmds = s.cmds := rfl
@[simp] theorem State.dropReq_recs : (s.dropReq id).recs = s.recs := rfl
@[simp] theorem State.dropReq_deltas : (s.dropReq id).deltas = s.deltas := rfl
@[simp] theorem State.dropReq_cached : (s.dropReq id).cached = s.cached := rfl
@[simp] theorem State.dropReq_installs : (s.dropReq id).installs = s.installs := rfl
@[simp] theorem State.dropReq_posts : (s.dropReq id).posts = s.posts := rfl
@[simp] theorem State.dropReq_barUpds : (s.dropReq id).barUpds = s.barUpds := rfl
@[simp] theorem State.dropReq_barLine : (s.dropReq id).barLine = s.barLine := rfl
@[simp] theorem State.dropReq_barSeen : (s.dropReq id).barSeen = s.barSeen := rfl
@[simp] theorem State.dropReq_chans : (s.dropReq id).chans = s.chans := rfl
@[simp] theorem State.dropReq_grps : (s.dropReq id).grps = s.grps := rfl
@[simp] theorem State.dropReq_colls : (s.dropReq id).colls = s.colls := rfl
@[simp] theorem State.dropReq_quar : (s.dropReq id).quar = s.quar := rfl
@[simp] theorem State.dropReq_qcmds : (s.dropReq id).qcmds = s.qcmds := rfl
@[simp] theorem State.dropReq_pages : (s.dropReq id).pages = s.pages := rfl
@[simp] theorem State.dropReq_bounce : (s.dropReq id).bounce = s.bounce := rfl
@[simp] theorem State.dropReq_gated : (s.dropReq id).gated = s.gated := rfl
@[simp] theorem State.dropReq_tasks : (s.dropReq id).tasks = s.tasks := rfl
@[simp] theorem State.dropReq_occ : (s.dropReq id).occ = s.occ := rfl
@[simp] theorem State.dropReq_reuse : (s.dropReq id).reuse = s.reuse := rfl
@[simp] theorem State.dropReq_watchCnt : (s.dropReq id).watchCnt = s.watchCnt := rfl
@[simp] theorem State.dropReq_tenants : (s.dropReq id).tenants = s.tenants := rfl
@[simp] theorem State.dropReq_saved : (s.dropReq id).saved = s.saved := rfl
@[simp] theorem State.dropReq_ctxs : (s.dropReq id).ctxs = s.ctxs := rfl
@[simp] theorem State.dropReq_links : (s.dropReq id).links = s.links := rfl
@[simp] theorem State.dropReq_fab : (s.dropReq id).fab = s.fab := rfl
@[simp] theorem State.dropReq_sys : (s.dropReq id).sys = s.sys := rfl
@[simp] theorem State.dropReq_pmc : (s.dropReq id).pmc = s.pmc := rfl
@[simp] theorem State.dropReq_pmsel : (s.dropReq id).pmsel = s.pmsel := rfl
@[simp] theorem State.dropReq_pmcSkip : (s.dropReq id).pmcSkip = s.pmcSkip := rfl
@[simp] theorem State.dropReq_pmcPend : (s.dropReq id).pmcPend = s.pmcPend := rfl
@[simp] theorem State.dropReq_copyParks : (s.dropReq id).copyParks = s.copyParks := rfl
end

/-! ### Replaces a request -/

section
variable (s : State) (r : Req)
@[simp] theorem State.setReq_gcyc : (s.setReq r).gcyc = s.gcyc := rfl
@[simp] theorem State.setReq_cur : (s.setReq r).cur = s.cur := rfl
@[simp] theorem State.setReq_turn : (s.setReq r).turn = s.turn := rfl
@[simp] theorem State.setReq_agenda : (s.setReq r).agenda = s.agenda := rfl
@[simp] theorem State.setReq_fresh : (s.setReq r).fresh = s.fresh := rfl
@[simp] theorem State.setReq_nextId : (s.setReq r).nextId = s.nextId := rfl
@[simp] theorem State.setReq_thr : (s.setReq r).thr = s.thr := rfl
@[simp] theorem State.setReq_mem : (s.setReq r).mem = s.mem := rfl
@[simp] theorem State.setReq_tags : (s.setReq r).tags = s.tags := rfl
@[simp] theorem State.setReq_frames : (s.setReq r).frames = s.frames := rfl
@[simp] theorem State.setReq_ftags : (s.setReq r).ftags = s.ftags := rfl
@[simp] theorem State.setReq_unjoined : (s.setReq r).unjoined = s.unjoined := rfl
@[simp] theorem State.setReq_l1 : (s.setReq r).l1 = s.l1 := rfl
@[simp] theorem State.setReq_hostLines : (s.setReq r).hostLines = s.hostLines := rfl
@[simp] theorem State.setReq_dir : (s.setReq r).dir = s.dir := rfl
@[simp] theorem State.setReq_l2 : (s.setReq r).l2 = s.l2 := rfl
@[simp] theorem State.setReq_icache : (s.setReq r).icache = s.icache := rfl
@[simp] theorem State.setReq_xcache : (s.setReq r).xcache = s.xcache := rfl
@[simp] theorem State.setReq_spCache : (s.setReq r).spCache = s.spCache := rfl
@[simp] theorem State.setReq_corrected : (s.setReq r).corrected = s.corrected := rfl
@[simp] theorem State.setReq_debts : (s.setReq r).debts = s.debts := rfl
@[simp] theorem State.setReq_passed : (s.setReq r).passed = s.passed := rfl
@[simp] theorem State.setReq_signals : (s.setReq r).signals = s.signals := rfl
@[simp] theorem State.setReq_shoot : (s.setReq r).shoot = s.shoot := rfl
@[simp] theorem State.setReq_shootDone : (s.setReq r).shootDone = s.shootDone := rfl
@[simp] theorem State.setReq_cmds : (s.setReq r).cmds = s.cmds := rfl
@[simp] theorem State.setReq_recs : (s.setReq r).recs = s.recs := rfl
@[simp] theorem State.setReq_deltas : (s.setReq r).deltas = s.deltas := rfl
@[simp] theorem State.setReq_cached : (s.setReq r).cached = s.cached := rfl
@[simp] theorem State.setReq_installs : (s.setReq r).installs = s.installs := rfl
@[simp] theorem State.setReq_posts : (s.setReq r).posts = s.posts := rfl
@[simp] theorem State.setReq_barUpds : (s.setReq r).barUpds = s.barUpds := rfl
@[simp] theorem State.setReq_barLine : (s.setReq r).barLine = s.barLine := rfl
@[simp] theorem State.setReq_barSeen : (s.setReq r).barSeen = s.barSeen := rfl
@[simp] theorem State.setReq_chans : (s.setReq r).chans = s.chans := rfl
@[simp] theorem State.setReq_grps : (s.setReq r).grps = s.grps := rfl
@[simp] theorem State.setReq_colls : (s.setReq r).colls = s.colls := rfl
@[simp] theorem State.setReq_quar : (s.setReq r).quar = s.quar := rfl
@[simp] theorem State.setReq_qcmds : (s.setReq r).qcmds = s.qcmds := rfl
@[simp] theorem State.setReq_pages : (s.setReq r).pages = s.pages := rfl
@[simp] theorem State.setReq_bounce : (s.setReq r).bounce = s.bounce := rfl
@[simp] theorem State.setReq_gated : (s.setReq r).gated = s.gated := rfl
@[simp] theorem State.setReq_tasks : (s.setReq r).tasks = s.tasks := rfl
@[simp] theorem State.setReq_occ : (s.setReq r).occ = s.occ := rfl
@[simp] theorem State.setReq_reuse : (s.setReq r).reuse = s.reuse := rfl
@[simp] theorem State.setReq_watchCnt : (s.setReq r).watchCnt = s.watchCnt := rfl
@[simp] theorem State.setReq_tenants : (s.setReq r).tenants = s.tenants := rfl
@[simp] theorem State.setReq_saved : (s.setReq r).saved = s.saved := rfl
@[simp] theorem State.setReq_ctxs : (s.setReq r).ctxs = s.ctxs := rfl
@[simp] theorem State.setReq_links : (s.setReq r).links = s.links := rfl
@[simp] theorem State.setReq_fab : (s.setReq r).fab = s.fab := rfl
@[simp] theorem State.setReq_sys : (s.setReq r).sys = s.sys := rfl
@[simp] theorem State.setReq_pmc : (s.setReq r).pmc = s.pmc := rfl
@[simp] theorem State.setReq_pmsel : (s.setReq r).pmsel = s.pmsel := rfl
@[simp] theorem State.setReq_pmcSkip : (s.setReq r).pmcSkip = s.pmcSkip := rfl
@[simp] theorem State.setReq_pmcPend : (s.setReq r).pmcPend = s.pmcPend := rfl
@[simp] theorem State.setReq_copyParks : (s.setReq r).copyParks = s.copyParks := rfl
end

/-! ### A line enters its slice -/

section
variable (s : State) (l : Nat) (d : Bool)
@[simp] theorem State.l2Touch_gcyc : (s.l2Touch l d).gcyc = s.gcyc := rfl
@[simp] theorem State.l2Touch_cur : (s.l2Touch l d).cur = s.cur := rfl
@[simp] theorem State.l2Touch_turn : (s.l2Touch l d).turn = s.turn := rfl
@[simp] theorem State.l2Touch_agenda : (s.l2Touch l d).agenda = s.agenda := rfl
@[simp] theorem State.l2Touch_nextId : (s.l2Touch l d).nextId = s.nextId := rfl
@[simp] theorem State.l2Touch_thr : (s.l2Touch l d).thr = s.thr := rfl
@[simp] theorem State.l2Touch_mem : (s.l2Touch l d).mem = s.mem := rfl
@[simp] theorem State.l2Touch_tags : (s.l2Touch l d).tags = s.tags := rfl
@[simp] theorem State.l2Touch_frames : (s.l2Touch l d).frames = s.frames := rfl
@[simp] theorem State.l2Touch_ftags : (s.l2Touch l d).ftags = s.ftags := rfl
@[simp] theorem State.l2Touch_unjoined : (s.l2Touch l d).unjoined = s.unjoined := rfl
@[simp] theorem State.l2Touch_l1 : (s.l2Touch l d).l1 = s.l1 := rfl
@[simp] theorem State.l2Touch_hostLines : (s.l2Touch l d).hostLines = s.hostLines := rfl
@[simp] theorem State.l2Touch_dir : (s.l2Touch l d).dir = s.dir := rfl
@[simp] theorem State.l2Touch_icache : (s.l2Touch l d).icache = s.icache := rfl
@[simp] theorem State.l2Touch_xcache : (s.l2Touch l d).xcache = s.xcache := rfl
@[simp] theorem State.l2Touch_spCache : (s.l2Touch l d).spCache = s.spCache := rfl
@[simp] theorem State.l2Touch_corrected : (s.l2Touch l d).corrected = s.corrected := rfl
@[simp] theorem State.l2Touch_reqs : (s.l2Touch l d).reqs = s.reqs := rfl
@[simp] theorem State.l2Touch_debts : (s.l2Touch l d).debts = s.debts := rfl
@[simp] theorem State.l2Touch_passed : (s.l2Touch l d).passed = s.passed := rfl
@[simp] theorem State.l2Touch_signals : (s.l2Touch l d).signals = s.signals := rfl
@[simp] theorem State.l2Touch_shoot : (s.l2Touch l d).shoot = s.shoot := rfl
@[simp] theorem State.l2Touch_shootDone : (s.l2Touch l d).shootDone = s.shootDone := rfl
@[simp] theorem State.l2Touch_cmds : (s.l2Touch l d).cmds = s.cmds := rfl
@[simp] theorem State.l2Touch_recs : (s.l2Touch l d).recs = s.recs := rfl
@[simp] theorem State.l2Touch_deltas : (s.l2Touch l d).deltas = s.deltas := rfl
@[simp] theorem State.l2Touch_cached : (s.l2Touch l d).cached = s.cached := rfl
@[simp] theorem State.l2Touch_installs : (s.l2Touch l d).installs = s.installs := rfl
@[simp] theorem State.l2Touch_posts : (s.l2Touch l d).posts = s.posts := rfl
@[simp] theorem State.l2Touch_barUpds : (s.l2Touch l d).barUpds = s.barUpds := rfl
@[simp] theorem State.l2Touch_barLine : (s.l2Touch l d).barLine = s.barLine := rfl
@[simp] theorem State.l2Touch_barSeen : (s.l2Touch l d).barSeen = s.barSeen := rfl
@[simp] theorem State.l2Touch_chans : (s.l2Touch l d).chans = s.chans := rfl
@[simp] theorem State.l2Touch_grps : (s.l2Touch l d).grps = s.grps := rfl
@[simp] theorem State.l2Touch_colls : (s.l2Touch l d).colls = s.colls := rfl
@[simp] theorem State.l2Touch_quar : (s.l2Touch l d).quar = s.quar := rfl
@[simp] theorem State.l2Touch_qcmds : (s.l2Touch l d).qcmds = s.qcmds := rfl
@[simp] theorem State.l2Touch_pages : (s.l2Touch l d).pages = s.pages := rfl
@[simp] theorem State.l2Touch_bounce : (s.l2Touch l d).bounce = s.bounce := rfl
@[simp] theorem State.l2Touch_gated : (s.l2Touch l d).gated = s.gated := rfl
@[simp] theorem State.l2Touch_tasks : (s.l2Touch l d).tasks = s.tasks := rfl
@[simp] theorem State.l2Touch_occ : (s.l2Touch l d).occ = s.occ := rfl
@[simp] theorem State.l2Touch_reuse : (s.l2Touch l d).reuse = s.reuse := rfl
@[simp] theorem State.l2Touch_watchCnt : (s.l2Touch l d).watchCnt = s.watchCnt := rfl
@[simp] theorem State.l2Touch_tenants : (s.l2Touch l d).tenants = s.tenants := rfl
@[simp] theorem State.l2Touch_saved : (s.l2Touch l d).saved = s.saved := rfl
@[simp] theorem State.l2Touch_ctxs : (s.l2Touch l d).ctxs = s.ctxs := rfl
@[simp] theorem State.l2Touch_links : (s.l2Touch l d).links = s.links := rfl
@[simp] theorem State.l2Touch_fab : (s.l2Touch l d).fab = s.fab := rfl
@[simp] theorem State.l2Touch_sys : (s.l2Touch l d).sys = s.sys := rfl
@[simp] theorem State.l2Touch_pmc : (s.l2Touch l d).pmc = s.pmc := rfl
@[simp] theorem State.l2Touch_pmsel : (s.l2Touch l d).pmsel = s.pmsel := rfl
@[simp] theorem State.l2Touch_pmcSkip : (s.l2Touch l d).pmcSkip = s.pmcSkip := rfl
@[simp] theorem State.l2Touch_pmcPend : (s.l2Touch l d).pmcPend = s.pmcPend := rfl
@[simp] theorem State.l2Touch_copyParks : (s.l2Touch l d).copyParks = s.copyParks := rfl
end

/-! ### Drops the cached copies of a line -/

section
variable (s : State) (l : Nat)
@[simp] theorem State.invalidate_gcyc : (s.invalidate l).gcyc = s.gcyc := rfl
@[simp] theorem State.invalidate_cur : (s.invalidate l).cur = s.cur := rfl
@[simp] theorem State.invalidate_turn : (s.invalidate l).turn = s.turn := rfl
@[simp] theorem State.invalidate_agenda : (s.invalidate l).agenda = s.agenda := rfl
@[simp] theorem State.invalidate_nextId : (s.invalidate l).nextId = s.nextId := rfl
@[simp] theorem State.invalidate_thr : (s.invalidate l).thr = s.thr := rfl
@[simp] theorem State.invalidate_mem : (s.invalidate l).mem = s.mem := rfl
@[simp] theorem State.invalidate_tags : (s.invalidate l).tags = s.tags := rfl
@[simp] theorem State.invalidate_frames : (s.invalidate l).frames = s.frames := rfl
@[simp] theorem State.invalidate_ftags : (s.invalidate l).ftags = s.ftags := rfl
@[simp] theorem State.invalidate_unjoined : (s.invalidate l).unjoined = s.unjoined := rfl
@[simp] theorem State.invalidate_icache : (s.invalidate l).icache = s.icache := rfl
@[simp] theorem State.invalidate_xcache : (s.invalidate l).xcache = s.xcache := rfl
@[simp] theorem State.invalidate_spCache : (s.invalidate l).spCache = s.spCache := rfl
@[simp] theorem State.invalidate_corrected : (s.invalidate l).corrected = s.corrected := rfl
@[simp] theorem State.invalidate_reqs : (s.invalidate l).reqs = s.reqs := rfl
@[simp] theorem State.invalidate_debts : (s.invalidate l).debts = s.debts := rfl
@[simp] theorem State.invalidate_passed : (s.invalidate l).passed = s.passed := rfl
@[simp] theorem State.invalidate_signals : (s.invalidate l).signals = s.signals := rfl
@[simp] theorem State.invalidate_shoot : (s.invalidate l).shoot = s.shoot := rfl
@[simp] theorem State.invalidate_shootDone : (s.invalidate l).shootDone = s.shootDone := rfl
@[simp] theorem State.invalidate_cmds : (s.invalidate l).cmds = s.cmds := rfl
@[simp] theorem State.invalidate_recs : (s.invalidate l).recs = s.recs := rfl
@[simp] theorem State.invalidate_deltas : (s.invalidate l).deltas = s.deltas := rfl
@[simp] theorem State.invalidate_cached : (s.invalidate l).cached = s.cached := rfl
@[simp] theorem State.invalidate_installs : (s.invalidate l).installs = s.installs := rfl
@[simp] theorem State.invalidate_posts : (s.invalidate l).posts = s.posts := rfl
@[simp] theorem State.invalidate_barUpds : (s.invalidate l).barUpds = s.barUpds := rfl
@[simp] theorem State.invalidate_barLine : (s.invalidate l).barLine = s.barLine := rfl
@[simp] theorem State.invalidate_barSeen : (s.invalidate l).barSeen = s.barSeen := rfl
@[simp] theorem State.invalidate_chans : (s.invalidate l).chans = s.chans := rfl
@[simp] theorem State.invalidate_grps : (s.invalidate l).grps = s.grps := rfl
@[simp] theorem State.invalidate_colls : (s.invalidate l).colls = s.colls := rfl
@[simp] theorem State.invalidate_quar : (s.invalidate l).quar = s.quar := rfl
@[simp] theorem State.invalidate_qcmds : (s.invalidate l).qcmds = s.qcmds := rfl
@[simp] theorem State.invalidate_pages : (s.invalidate l).pages = s.pages := rfl
@[simp] theorem State.invalidate_bounce : (s.invalidate l).bounce = s.bounce := rfl
@[simp] theorem State.invalidate_gated : (s.invalidate l).gated = s.gated := rfl
@[simp] theorem State.invalidate_tasks : (s.invalidate l).tasks = s.tasks := rfl
@[simp] theorem State.invalidate_occ : (s.invalidate l).occ = s.occ := rfl
@[simp] theorem State.invalidate_reuse : (s.invalidate l).reuse = s.reuse := rfl
@[simp] theorem State.invalidate_watchCnt : (s.invalidate l).watchCnt = s.watchCnt := rfl
@[simp] theorem State.invalidate_tenants : (s.invalidate l).tenants = s.tenants := rfl
@[simp] theorem State.invalidate_saved : (s.invalidate l).saved = s.saved := rfl
@[simp] theorem State.invalidate_ctxs : (s.invalidate l).ctxs = s.ctxs := rfl
@[simp] theorem State.invalidate_links : (s.invalidate l).links = s.links := rfl
@[simp] theorem State.invalidate_fab : (s.invalidate l).fab = s.fab := rfl
@[simp] theorem State.invalidate_sys : (s.invalidate l).sys = s.sys := rfl
@[simp] theorem State.invalidate_pmc : (s.invalidate l).pmc = s.pmc := rfl
@[simp] theorem State.invalidate_pmsel : (s.invalidate l).pmsel = s.pmsel := rfl
@[simp] theorem State.invalidate_pmcSkip : (s.invalidate l).pmcSkip = s.pmcSkip := rfl
@[simp] theorem State.invalidate_pmcPend : (s.invalidate l).pmcPend = s.pmcPend := rfl
@[simp] theorem State.invalidate_copyParks : (s.invalidate l).copyParks = s.copyParks := rfl
end

/-! ### An access crosses Linor Link -/

section
variable (s : State) (l : Nat)
@[simp] theorem State.hostFlit_gcyc : (s.hostFlit l).gcyc = s.gcyc := by unfold State.hostFlit; split <;> rfl
@[simp] theorem State.hostFlit_cur : (s.hostFlit l).cur = s.cur := by unfold State.hostFlit; split <;> rfl
@[simp] theorem State.hostFlit_turn : (s.hostFlit l).turn = s.turn := by unfold State.hostFlit; split <;> rfl
@[simp] theorem State.hostFlit_agenda : (s.hostFlit l).agenda = s.agenda := by unfold State.hostFlit; split <;> rfl
@[simp] theorem State.hostFlit_nextId : (s.hostFlit l).nextId = s.nextId := by unfold State.hostFlit; split <;> rfl
@[simp] theorem State.hostFlit_thr : (s.hostFlit l).thr = s.thr := by unfold State.hostFlit; split <;> rfl
@[simp] theorem State.hostFlit_mem : (s.hostFlit l).mem = s.mem := by unfold State.hostFlit; split <;> rfl
@[simp] theorem State.hostFlit_tags : (s.hostFlit l).tags = s.tags := by unfold State.hostFlit; split <;> rfl
@[simp] theorem State.hostFlit_frames : (s.hostFlit l).frames = s.frames := by unfold State.hostFlit; split <;> rfl
@[simp] theorem State.hostFlit_ftags : (s.hostFlit l).ftags = s.ftags := by unfold State.hostFlit; split <;> rfl
@[simp] theorem State.hostFlit_unjoined : (s.hostFlit l).unjoined = s.unjoined := by unfold State.hostFlit; split <;> rfl
@[simp] theorem State.hostFlit_l1 : (s.hostFlit l).l1 = s.l1 := by unfold State.hostFlit; split <;> rfl
@[simp] theorem State.hostFlit_hostLines : (s.hostFlit l).hostLines = s.hostLines := by unfold State.hostFlit; split <;> rfl
@[simp] theorem State.hostFlit_dir : (s.hostFlit l).dir = s.dir := by unfold State.hostFlit; split <;> rfl
@[simp] theorem State.hostFlit_l2 : (s.hostFlit l).l2 = s.l2 := by unfold State.hostFlit; split <;> rfl
@[simp] theorem State.hostFlit_icache : (s.hostFlit l).icache = s.icache := by unfold State.hostFlit; split <;> rfl
@[simp] theorem State.hostFlit_xcache : (s.hostFlit l).xcache = s.xcache := by unfold State.hostFlit; split <;> rfl
@[simp] theorem State.hostFlit_spCache : (s.hostFlit l).spCache = s.spCache := by unfold State.hostFlit; split <;> rfl
@[simp] theorem State.hostFlit_corrected : (s.hostFlit l).corrected = s.corrected := by unfold State.hostFlit; split <;> rfl
@[simp] theorem State.hostFlit_reqs : (s.hostFlit l).reqs = s.reqs := by unfold State.hostFlit; split <;> rfl
@[simp] theorem State.hostFlit_debts : (s.hostFlit l).debts = s.debts := by unfold State.hostFlit; split <;> rfl
@[simp] theorem State.hostFlit_passed : (s.hostFlit l).passed = s.passed := by unfold State.hostFlit; split <;> rfl
@[simp] theorem State.hostFlit_signals : (s.hostFlit l).signals = s.signals := by unfold State.hostFlit; split <;> rfl
@[simp] theorem State.hostFlit_shoot : (s.hostFlit l).shoot = s.shoot := by unfold State.hostFlit; split <;> rfl
@[simp] theorem State.hostFlit_shootDone : (s.hostFlit l).shootDone = s.shootDone := by unfold State.hostFlit; split <;> rfl
@[simp] theorem State.hostFlit_cmds : (s.hostFlit l).cmds = s.cmds := by unfold State.hostFlit; split <;> rfl
@[simp] theorem State.hostFlit_recs : (s.hostFlit l).recs = s.recs := by unfold State.hostFlit; split <;> rfl
@[simp] theorem State.hostFlit_deltas : (s.hostFlit l).deltas = s.deltas := by unfold State.hostFlit; split <;> rfl
@[simp] theorem State.hostFlit_cached : (s.hostFlit l).cached = s.cached := by unfold State.hostFlit; split <;> rfl
@[simp] theorem State.hostFlit_installs : (s.hostFlit l).installs = s.installs := by unfold State.hostFlit; split <;> rfl
@[simp] theorem State.hostFlit_posts : (s.hostFlit l).posts = s.posts := by unfold State.hostFlit; split <;> rfl
@[simp] theorem State.hostFlit_barUpds : (s.hostFlit l).barUpds = s.barUpds := by unfold State.hostFlit; split <;> rfl
@[simp] theorem State.hostFlit_barLine : (s.hostFlit l).barLine = s.barLine := by unfold State.hostFlit; split <;> rfl
@[simp] theorem State.hostFlit_barSeen : (s.hostFlit l).barSeen = s.barSeen := by unfold State.hostFlit; split <;> rfl
@[simp] theorem State.hostFlit_chans : (s.hostFlit l).chans = s.chans := by unfold State.hostFlit; split <;> rfl
@[simp] theorem State.hostFlit_grps : (s.hostFlit l).grps = s.grps := by unfold State.hostFlit; split <;> rfl
@[simp] theorem State.hostFlit_colls : (s.hostFlit l).colls = s.colls := by unfold State.hostFlit; split <;> rfl
@[simp] theorem State.hostFlit_quar : (s.hostFlit l).quar = s.quar := by unfold State.hostFlit; split <;> rfl
@[simp] theorem State.hostFlit_qcmds : (s.hostFlit l).qcmds = s.qcmds := by unfold State.hostFlit; split <;> rfl
@[simp] theorem State.hostFlit_pages : (s.hostFlit l).pages = s.pages := by unfold State.hostFlit; split <;> rfl
@[simp] theorem State.hostFlit_bounce : (s.hostFlit l).bounce = s.bounce := by unfold State.hostFlit; split <;> rfl
@[simp] theorem State.hostFlit_gated : (s.hostFlit l).gated = s.gated := by unfold State.hostFlit; split <;> rfl
@[simp] theorem State.hostFlit_tasks : (s.hostFlit l).tasks = s.tasks := by unfold State.hostFlit; split <;> rfl
@[simp] theorem State.hostFlit_occ : (s.hostFlit l).occ = s.occ := by unfold State.hostFlit; split <;> rfl
@[simp] theorem State.hostFlit_reuse : (s.hostFlit l).reuse = s.reuse := by unfold State.hostFlit; split <;> rfl
@[simp] theorem State.hostFlit_watchCnt : (s.hostFlit l).watchCnt = s.watchCnt := by unfold State.hostFlit; split <;> rfl
@[simp] theorem State.hostFlit_tenants : (s.hostFlit l).tenants = s.tenants := by unfold State.hostFlit; split <;> rfl
@[simp] theorem State.hostFlit_saved : (s.hostFlit l).saved = s.saved := by unfold State.hostFlit; split <;> rfl
@[simp] theorem State.hostFlit_ctxs : (s.hostFlit l).ctxs = s.ctxs := by unfold State.hostFlit; split <;> rfl
@[simp] theorem State.hostFlit_fab : (s.hostFlit l).fab = s.fab := by unfold State.hostFlit; split <;> rfl
@[simp] theorem State.hostFlit_sys : (s.hostFlit l).sys = s.sys := by unfold State.hostFlit; split <;> rfl
@[simp] theorem State.hostFlit_pmc : (s.hostFlit l).pmc = s.pmc := by unfold State.hostFlit; split <;> rfl
@[simp] theorem State.hostFlit_pmsel : (s.hostFlit l).pmsel = s.pmsel := by unfold State.hostFlit; split <;> rfl
@[simp] theorem State.hostFlit_pmcSkip : (s.hostFlit l).pmcSkip = s.pmcSkip := by unfold State.hostFlit; split <;> rfl
@[simp] theorem State.hostFlit_pmcPend : (s.hostFlit l).pmcPend = s.pmcPend := by unfold State.hostFlit; split <;> rfl
@[simp] theorem State.hostFlit_copyParks : (s.hostFlit l).copyParks = s.copyParks := by unfold State.hostFlit; split <;> rfl
end

/-! ### A line is shared -/

section
variable (s : State) (l k : Nat)
@[simp] theorem State.shareLine_gcyc : (s.shareLine l k).gcyc = s.gcyc := rfl
@[simp] theorem State.shareLine_cur : (s.shareLine l k).cur = s.cur := rfl
@[simp] theorem State.shareLine_turn : (s.shareLine l k).turn = s.turn := rfl
@[simp] theorem State.shareLine_agenda : (s.shareLine l k).agenda = s.agenda := rfl
@[simp] theorem State.shareLine_nextId : (s.shareLine l k).nextId = s.nextId := rfl
@[simp] theorem State.shareLine_thr : (s.shareLine l k).thr = s.thr := rfl
@[simp] theorem State.shareLine_mem : (s.shareLine l k).mem = s.mem := rfl
@[simp] theorem State.shareLine_tags : (s.shareLine l k).tags = s.tags := rfl
@[simp] theorem State.shareLine_frames : (s.shareLine l k).frames = s.frames := rfl
@[simp] theorem State.shareLine_ftags : (s.shareLine l k).ftags = s.ftags := rfl
@[simp] theorem State.shareLine_unjoined : (s.shareLine l k).unjoined = s.unjoined := rfl
@[simp] theorem State.shareLine_icache : (s.shareLine l k).icache = s.icache := rfl
@[simp] theorem State.shareLine_xcache : (s.shareLine l k).xcache = s.xcache := rfl
@[simp] theorem State.shareLine_spCache : (s.shareLine l k).spCache = s.spCache := rfl
@[simp] theorem State.shareLine_corrected : (s.shareLine l k).corrected = s.corrected := rfl
@[simp] theorem State.shareLine_reqs : (s.shareLine l k).reqs = s.reqs := rfl
@[simp] theorem State.shareLine_debts : (s.shareLine l k).debts = s.debts := rfl
@[simp] theorem State.shareLine_passed : (s.shareLine l k).passed = s.passed := rfl
@[simp] theorem State.shareLine_signals : (s.shareLine l k).signals = s.signals := rfl
@[simp] theorem State.shareLine_shoot : (s.shareLine l k).shoot = s.shoot := rfl
@[simp] theorem State.shareLine_shootDone : (s.shareLine l k).shootDone = s.shootDone := rfl
@[simp] theorem State.shareLine_cmds : (s.shareLine l k).cmds = s.cmds := rfl
@[simp] theorem State.shareLine_recs : (s.shareLine l k).recs = s.recs := rfl
@[simp] theorem State.shareLine_deltas : (s.shareLine l k).deltas = s.deltas := rfl
@[simp] theorem State.shareLine_cached : (s.shareLine l k).cached = s.cached := rfl
@[simp] theorem State.shareLine_installs : (s.shareLine l k).installs = s.installs := rfl
@[simp] theorem State.shareLine_posts : (s.shareLine l k).posts = s.posts := rfl
@[simp] theorem State.shareLine_barUpds : (s.shareLine l k).barUpds = s.barUpds := rfl
@[simp] theorem State.shareLine_barLine : (s.shareLine l k).barLine = s.barLine := rfl
@[simp] theorem State.shareLine_barSeen : (s.shareLine l k).barSeen = s.barSeen := rfl
@[simp] theorem State.shareLine_chans : (s.shareLine l k).chans = s.chans := rfl
@[simp] theorem State.shareLine_grps : (s.shareLine l k).grps = s.grps := rfl
@[simp] theorem State.shareLine_colls : (s.shareLine l k).colls = s.colls := rfl
@[simp] theorem State.shareLine_quar : (s.shareLine l k).quar = s.quar := rfl
@[simp] theorem State.shareLine_qcmds : (s.shareLine l k).qcmds = s.qcmds := rfl
@[simp] theorem State.shareLine_pages : (s.shareLine l k).pages = s.pages := rfl
@[simp] theorem State.shareLine_bounce : (s.shareLine l k).bounce = s.bounce := rfl
@[simp] theorem State.shareLine_gated : (s.shareLine l k).gated = s.gated := rfl
@[simp] theorem State.shareLine_tasks : (s.shareLine l k).tasks = s.tasks := rfl
@[simp] theorem State.shareLine_occ : (s.shareLine l k).occ = s.occ := rfl
@[simp] theorem State.shareLine_reuse : (s.shareLine l k).reuse = s.reuse := rfl
@[simp] theorem State.shareLine_watchCnt : (s.shareLine l k).watchCnt = s.watchCnt := rfl
@[simp] theorem State.shareLine_tenants : (s.shareLine l k).tenants = s.tenants := rfl
@[simp] theorem State.shareLine_saved : (s.shareLine l k).saved = s.saved := rfl
@[simp] theorem State.shareLine_ctxs : (s.shareLine l k).ctxs = s.ctxs := rfl
@[simp] theorem State.shareLine_links : (s.shareLine l k).links = s.links := rfl
@[simp] theorem State.shareLine_fab : (s.shareLine l k).fab = s.fab := rfl
@[simp] theorem State.shareLine_sys : (s.shareLine l k).sys = s.sys := rfl
@[simp] theorem State.shareLine_pmc : (s.shareLine l k).pmc = s.pmc := rfl
@[simp] theorem State.shareLine_pmsel : (s.shareLine l k).pmsel = s.pmsel := rfl
@[simp] theorem State.shareLine_pmcSkip : (s.shareLine l k).pmcSkip = s.pmcSkip := rfl
@[simp] theorem State.shareLine_pmcPend : (s.shareLine l k).pmcPend = s.pmcPend := rfl
@[simp] theorem State.shareLine_copyParks : (s.shareLine l k).copyParks = s.copyParks := rfl
end

/-! ### A read by another agent -/

section
variable (s : State) (l k : Nat)
@[simp] theorem State.othersRead_gcyc : (s.othersRead l k).gcyc = s.gcyc := State.hostFlit_gcyc (s.shareLine l k) l
@[simp] theorem State.othersRead_cur : (s.othersRead l k).cur = s.cur := State.hostFlit_cur (s.shareLine l k) l
@[simp] theorem State.othersRead_turn : (s.othersRead l k).turn = s.turn := State.hostFlit_turn (s.shareLine l k) l
@[simp] theorem State.othersRead_agenda : (s.othersRead l k).agenda = s.agenda := State.hostFlit_agenda (s.shareLine l k) l
@[simp] theorem State.othersRead_nextId : (s.othersRead l k).nextId = s.nextId := State.hostFlit_nextId (s.shareLine l k) l
@[simp] theorem State.othersRead_thr : (s.othersRead l k).thr = s.thr := State.hostFlit_thr (s.shareLine l k) l
@[simp] theorem State.othersRead_mem : (s.othersRead l k).mem = s.mem := State.hostFlit_mem (s.shareLine l k) l
@[simp] theorem State.othersRead_tags : (s.othersRead l k).tags = s.tags := State.hostFlit_tags (s.shareLine l k) l
@[simp] theorem State.othersRead_frames : (s.othersRead l k).frames = s.frames := State.hostFlit_frames (s.shareLine l k) l
@[simp] theorem State.othersRead_ftags : (s.othersRead l k).ftags = s.ftags := State.hostFlit_ftags (s.shareLine l k) l
@[simp] theorem State.othersRead_unjoined : (s.othersRead l k).unjoined = s.unjoined := State.hostFlit_unjoined (s.shareLine l k) l
@[simp] theorem State.othersRead_icache : (s.othersRead l k).icache = s.icache := State.hostFlit_icache (s.shareLine l k) l
@[simp] theorem State.othersRead_xcache : (s.othersRead l k).xcache = s.xcache := State.hostFlit_xcache (s.shareLine l k) l
@[simp] theorem State.othersRead_spCache : (s.othersRead l k).spCache = s.spCache := State.hostFlit_spCache (s.shareLine l k) l
@[simp] theorem State.othersRead_corrected : (s.othersRead l k).corrected = s.corrected := State.hostFlit_corrected (s.shareLine l k) l
@[simp] theorem State.othersRead_reqs : (s.othersRead l k).reqs = s.reqs := State.hostFlit_reqs (s.shareLine l k) l
@[simp] theorem State.othersRead_debts : (s.othersRead l k).debts = s.debts := State.hostFlit_debts (s.shareLine l k) l
@[simp] theorem State.othersRead_passed : (s.othersRead l k).passed = s.passed := State.hostFlit_passed (s.shareLine l k) l
@[simp] theorem State.othersRead_signals : (s.othersRead l k).signals = s.signals := State.hostFlit_signals (s.shareLine l k) l
@[simp] theorem State.othersRead_shoot : (s.othersRead l k).shoot = s.shoot := State.hostFlit_shoot (s.shareLine l k) l
@[simp] theorem State.othersRead_shootDone : (s.othersRead l k).shootDone = s.shootDone := State.hostFlit_shootDone (s.shareLine l k) l
@[simp] theorem State.othersRead_cmds : (s.othersRead l k).cmds = s.cmds := State.hostFlit_cmds (s.shareLine l k) l
@[simp] theorem State.othersRead_recs : (s.othersRead l k).recs = s.recs := State.hostFlit_recs (s.shareLine l k) l
@[simp] theorem State.othersRead_deltas : (s.othersRead l k).deltas = s.deltas := State.hostFlit_deltas (s.shareLine l k) l
@[simp] theorem State.othersRead_cached : (s.othersRead l k).cached = s.cached := State.hostFlit_cached (s.shareLine l k) l
@[simp] theorem State.othersRead_installs : (s.othersRead l k).installs = s.installs := State.hostFlit_installs (s.shareLine l k) l
@[simp] theorem State.othersRead_posts : (s.othersRead l k).posts = s.posts := State.hostFlit_posts (s.shareLine l k) l
@[simp] theorem State.othersRead_barUpds : (s.othersRead l k).barUpds = s.barUpds := State.hostFlit_barUpds (s.shareLine l k) l
@[simp] theorem State.othersRead_barLine : (s.othersRead l k).barLine = s.barLine := State.hostFlit_barLine (s.shareLine l k) l
@[simp] theorem State.othersRead_barSeen : (s.othersRead l k).barSeen = s.barSeen := State.hostFlit_barSeen (s.shareLine l k) l
@[simp] theorem State.othersRead_chans : (s.othersRead l k).chans = s.chans := State.hostFlit_chans (s.shareLine l k) l
@[simp] theorem State.othersRead_grps : (s.othersRead l k).grps = s.grps := State.hostFlit_grps (s.shareLine l k) l
@[simp] theorem State.othersRead_colls : (s.othersRead l k).colls = s.colls := State.hostFlit_colls (s.shareLine l k) l
@[simp] theorem State.othersRead_quar : (s.othersRead l k).quar = s.quar := State.hostFlit_quar (s.shareLine l k) l
@[simp] theorem State.othersRead_qcmds : (s.othersRead l k).qcmds = s.qcmds := State.hostFlit_qcmds (s.shareLine l k) l
@[simp] theorem State.othersRead_pages : (s.othersRead l k).pages = s.pages := State.hostFlit_pages (s.shareLine l k) l
@[simp] theorem State.othersRead_bounce : (s.othersRead l k).bounce = s.bounce := State.hostFlit_bounce (s.shareLine l k) l
@[simp] theorem State.othersRead_gated : (s.othersRead l k).gated = s.gated := State.hostFlit_gated (s.shareLine l k) l
@[simp] theorem State.othersRead_tasks : (s.othersRead l k).tasks = s.tasks := State.hostFlit_tasks (s.shareLine l k) l
@[simp] theorem State.othersRead_occ : (s.othersRead l k).occ = s.occ := State.hostFlit_occ (s.shareLine l k) l
@[simp] theorem State.othersRead_reuse : (s.othersRead l k).reuse = s.reuse := State.hostFlit_reuse (s.shareLine l k) l
@[simp] theorem State.othersRead_watchCnt : (s.othersRead l k).watchCnt = s.watchCnt := State.hostFlit_watchCnt (s.shareLine l k) l
@[simp] theorem State.othersRead_tenants : (s.othersRead l k).tenants = s.tenants := State.hostFlit_tenants (s.shareLine l k) l
@[simp] theorem State.othersRead_saved : (s.othersRead l k).saved = s.saved := State.hostFlit_saved (s.shareLine l k) l
@[simp] theorem State.othersRead_ctxs : (s.othersRead l k).ctxs = s.ctxs := State.hostFlit_ctxs (s.shareLine l k) l
@[simp] theorem State.othersRead_fab : (s.othersRead l k).fab = s.fab := State.hostFlit_fab (s.shareLine l k) l
@[simp] theorem State.othersRead_sys : (s.othersRead l k).sys = s.sys := State.hostFlit_sys (s.shareLine l k) l
@[simp] theorem State.othersRead_pmc : (s.othersRead l k).pmc = s.pmc := State.hostFlit_pmc (s.shareLine l k) l
@[simp] theorem State.othersRead_pmsel : (s.othersRead l k).pmsel = s.pmsel := State.hostFlit_pmsel (s.shareLine l k) l
@[simp] theorem State.othersRead_pmcSkip : (s.othersRead l k).pmcSkip = s.pmcSkip := State.hostFlit_pmcSkip (s.shareLine l k) l
@[simp] theorem State.othersRead_pmcPend : (s.othersRead l k).pmcPend = s.pmcPend := State.hostFlit_pmcPend (s.shareLine l k) l
@[simp] theorem State.othersRead_copyParks : (s.othersRead l k).copyParks = s.copyParks := State.hostFlit_copyParks (s.shareLine l k) l
end

/-! ### Wakes the watchers of a line -/

section
variable (s : State) (l : Nat)
@[simp] theorem State.wake_gcyc : (s.wake l).gcyc = s.gcyc := rfl
@[simp] theorem State.wake_cur : (s.wake l).cur = s.cur := rfl
@[simp] theorem State.wake_turn : (s.wake l).turn = s.turn := rfl
@[simp] theorem State.wake_agenda : (s.wake l).agenda = s.agenda := rfl
@[simp] theorem State.wake_fresh : (s.wake l).fresh = s.fresh := rfl
@[simp] theorem State.wake_nextId : (s.wake l).nextId = s.nextId := rfl
@[simp] theorem State.wake_mem : (s.wake l).mem = s.mem := rfl
@[simp] theorem State.wake_tags : (s.wake l).tags = s.tags := rfl
@[simp] theorem State.wake_frames : (s.wake l).frames = s.frames := rfl
@[simp] theorem State.wake_ftags : (s.wake l).ftags = s.ftags := rfl
@[simp] theorem State.wake_unjoined : (s.wake l).unjoined = s.unjoined := rfl
@[simp] theorem State.wake_l1 : (s.wake l).l1 = s.l1 := rfl
@[simp] theorem State.wake_hostLines : (s.wake l).hostLines = s.hostLines := rfl
@[simp] theorem State.wake_dir : (s.wake l).dir = s.dir := rfl
@[simp] theorem State.wake_l2 : (s.wake l).l2 = s.l2 := rfl
@[simp] theorem State.wake_icache : (s.wake l).icache = s.icache := rfl
@[simp] theorem State.wake_xcache : (s.wake l).xcache = s.xcache := rfl
@[simp] theorem State.wake_spCache : (s.wake l).spCache = s.spCache := rfl
@[simp] theorem State.wake_corrected : (s.wake l).corrected = s.corrected := rfl
@[simp] theorem State.wake_reqs : (s.wake l).reqs = s.reqs := rfl
@[simp] theorem State.wake_debts : (s.wake l).debts = s.debts := rfl
@[simp] theorem State.wake_passed : (s.wake l).passed = s.passed := rfl
@[simp] theorem State.wake_signals : (s.wake l).signals = s.signals := rfl
@[simp] theorem State.wake_shoot : (s.wake l).shoot = s.shoot := rfl
@[simp] theorem State.wake_shootDone : (s.wake l).shootDone = s.shootDone := rfl
@[simp] theorem State.wake_cmds : (s.wake l).cmds = s.cmds := rfl
@[simp] theorem State.wake_recs : (s.wake l).recs = s.recs := rfl
@[simp] theorem State.wake_deltas : (s.wake l).deltas = s.deltas := rfl
@[simp] theorem State.wake_cached : (s.wake l).cached = s.cached := rfl
@[simp] theorem State.wake_installs : (s.wake l).installs = s.installs := rfl
@[simp] theorem State.wake_posts : (s.wake l).posts = s.posts := rfl
@[simp] theorem State.wake_barUpds : (s.wake l).barUpds = s.barUpds := rfl
@[simp] theorem State.wake_barLine : (s.wake l).barLine = s.barLine := rfl
@[simp] theorem State.wake_barSeen : (s.wake l).barSeen = s.barSeen := rfl
@[simp] theorem State.wake_chans : (s.wake l).chans = s.chans := rfl
@[simp] theorem State.wake_grps : (s.wake l).grps = s.grps := rfl
@[simp] theorem State.wake_colls : (s.wake l).colls = s.colls := rfl
@[simp] theorem State.wake_quar : (s.wake l).quar = s.quar := rfl
@[simp] theorem State.wake_qcmds : (s.wake l).qcmds = s.qcmds := rfl
@[simp] theorem State.wake_pages : (s.wake l).pages = s.pages := rfl
@[simp] theorem State.wake_bounce : (s.wake l).bounce = s.bounce := rfl
@[simp] theorem State.wake_gated : (s.wake l).gated = s.gated := rfl
@[simp] theorem State.wake_tasks : (s.wake l).tasks = s.tasks := rfl
@[simp] theorem State.wake_occ : (s.wake l).occ = s.occ := rfl
@[simp] theorem State.wake_reuse : (s.wake l).reuse = s.reuse := rfl
@[simp] theorem State.wake_watchCnt : (s.wake l).watchCnt = s.watchCnt := rfl
@[simp] theorem State.wake_tenants : (s.wake l).tenants = s.tenants := rfl
@[simp] theorem State.wake_saved : (s.wake l).saved = s.saved := rfl
@[simp] theorem State.wake_ctxs : (s.wake l).ctxs = s.ctxs := rfl
@[simp] theorem State.wake_links : (s.wake l).links = s.links := rfl
@[simp] theorem State.wake_fab : (s.wake l).fab = s.fab := rfl
@[simp] theorem State.wake_sys : (s.wake l).sys = s.sys := rfl
@[simp] theorem State.wake_pmc : (s.wake l).pmc = s.pmc := rfl
@[simp] theorem State.wake_pmsel : (s.wake l).pmsel = s.pmsel := rfl
@[simp] theorem State.wake_pmcSkip : (s.wake l).pmcSkip = s.pmcSkip := rfl
@[simp] theorem State.wake_pmcPend : (s.wake l).pmcPend = s.pmcPend := rfl
@[simp] theorem State.wake_copyParks : (s.wake l).copyParks = s.copyParks := rfl
end

/-! ### Cancels watches -/

section
variable (s : State) (l : Nat) (o : Option (Nat × Nat))
@[simp] theorem State.watchHit_gcyc : (s.watchHit l o).gcyc = s.gcyc := rfl
@[simp] theorem State.watchHit_cur : (s.watchHit l o).cur = s.cur := rfl
@[simp] theorem State.watchHit_turn : (s.watchHit l o).turn = s.turn := rfl
@[simp] theorem State.watchHit_agenda : (s.watchHit l o).agenda = s.agenda := rfl
@[simp] theorem State.watchHit_fresh : (s.watchHit l o).fresh = s.fresh := rfl
@[simp] theorem State.watchHit_nextId : (s.watchHit l o).nextId = s.nextId := rfl
@[simp] theorem State.watchHit_thr : (s.watchHit l o).thr = s.thr := rfl
@[simp] theorem State.watchHit_mem : (s.watchHit l o).mem = s.mem := rfl
@[simp] theorem State.watchHit_tags : (s.watchHit l o).tags = s.tags := rfl
@[simp] theorem State.watchHit_frames : (s.watchHit l o).frames = s.frames := rfl
@[simp] theorem State.watchHit_ftags : (s.watchHit l o).ftags = s.ftags := rfl
@[simp] theorem State.watchHit_unjoined : (s.watchHit l o).unjoined = s.unjoined := rfl
@[simp] theorem State.watchHit_l1 : (s.watchHit l o).l1 = s.l1 := rfl
@[simp] theorem State.watchHit_hostLines : (s.watchHit l o).hostLines = s.hostLines := rfl
@[simp] theorem State.watchHit_dir : (s.watchHit l o).dir = s.dir := rfl
@[simp] theorem State.watchHit_l2 : (s.watchHit l o).l2 = s.l2 := rfl
@[simp] theorem State.watchHit_icache : (s.watchHit l o).icache = s.icache := rfl
@[simp] theorem State.watchHit_xcache : (s.watchHit l o).xcache = s.xcache := rfl
@[simp] theorem State.watchHit_spCache : (s.watchHit l o).spCache = s.spCache := rfl
@[simp] theorem State.watchHit_corrected : (s.watchHit l o).corrected = s.corrected := rfl
@[simp] theorem State.watchHit_reqs : (s.watchHit l o).reqs = s.reqs := rfl
@[simp] theorem State.watchHit_debts : (s.watchHit l o).debts = s.debts := rfl
@[simp] theorem State.watchHit_passed : (s.watchHit l o).passed = s.passed := rfl
@[simp] theorem State.watchHit_signals : (s.watchHit l o).signals = s.signals := rfl
@[simp] theorem State.watchHit_shoot : (s.watchHit l o).shoot = s.shoot := rfl
@[simp] theorem State.watchHit_shootDone : (s.watchHit l o).shootDone = s.shootDone := rfl
@[simp] theorem State.watchHit_cmds : (s.watchHit l o).cmds = s.cmds := rfl
@[simp] theorem State.watchHit_recs : (s.watchHit l o).recs = s.recs := rfl
@[simp] theorem State.watchHit_deltas : (s.watchHit l o).deltas = s.deltas := rfl
@[simp] theorem State.watchHit_cached : (s.watchHit l o).cached = s.cached := rfl
@[simp] theorem State.watchHit_installs : (s.watchHit l o).installs = s.installs := rfl
@[simp] theorem State.watchHit_posts : (s.watchHit l o).posts = s.posts := rfl
@[simp] theorem State.watchHit_barUpds : (s.watchHit l o).barUpds = s.barUpds := rfl
@[simp] theorem State.watchHit_barLine : (s.watchHit l o).barLine = s.barLine := rfl
@[simp] theorem State.watchHit_barSeen : (s.watchHit l o).barSeen = s.barSeen := rfl
@[simp] theorem State.watchHit_chans : (s.watchHit l o).chans = s.chans := rfl
@[simp] theorem State.watchHit_grps : (s.watchHit l o).grps = s.grps := rfl
@[simp] theorem State.watchHit_colls : (s.watchHit l o).colls = s.colls := rfl
@[simp] theorem State.watchHit_quar : (s.watchHit l o).quar = s.quar := rfl
@[simp] theorem State.watchHit_qcmds : (s.watchHit l o).qcmds = s.qcmds := rfl
@[simp] theorem State.watchHit_pages : (s.watchHit l o).pages = s.pages := rfl
@[simp] theorem State.watchHit_bounce : (s.watchHit l o).bounce = s.bounce := rfl
@[simp] theorem State.watchHit_gated : (s.watchHit l o).gated = s.gated := rfl
@[simp] theorem State.watchHit_occ : (s.watchHit l o).occ = s.occ := rfl
@[simp] theorem State.watchHit_reuse : (s.watchHit l o).reuse = s.reuse := rfl
@[simp] theorem State.watchHit_watchCnt : (s.watchHit l o).watchCnt = s.watchCnt := rfl
@[simp] theorem State.watchHit_tenants : (s.watchHit l o).tenants = s.tenants := rfl
@[simp] theorem State.watchHit_saved : (s.watchHit l o).saved = s.saved := rfl
@[simp] theorem State.watchHit_ctxs : (s.watchHit l o).ctxs = s.ctxs := rfl
@[simp] theorem State.watchHit_links : (s.watchHit l o).links = s.links := rfl
@[simp] theorem State.watchHit_fab : (s.watchHit l o).fab = s.fab := rfl
@[simp] theorem State.watchHit_sys : (s.watchHit l o).sys = s.sys := rfl
@[simp] theorem State.watchHit_pmc : (s.watchHit l o).pmc = s.pmc := rfl
@[simp] theorem State.watchHit_pmsel : (s.watchHit l o).pmsel = s.pmsel := rfl
@[simp] theorem State.watchHit_pmcSkip : (s.watchHit l o).pmcSkip = s.pmcSkip := rfl
@[simp] theorem State.watchHit_pmcPend : (s.watchHit l o).pmcPend = s.pmcPend := rfl
@[simp] theorem State.watchHit_copyParks : (s.watchHit l o).copyParks = s.copyParks := rfl
end

/-! ### Bytes of a line change -/

section
variable (s : State) (pa : Nat) (bs : List Byte) (o : Option (Nat × Nat))
@[simp] theorem State.lineWrite_gcyc : (s.lineWrite pa bs o).gcyc = s.gcyc := rfl
@[simp] theorem State.lineWrite_cur : (s.lineWrite pa bs o).cur = s.cur := rfl
@[simp] theorem State.lineWrite_turn : (s.lineWrite pa bs o).turn = s.turn := rfl
@[simp] theorem State.lineWrite_agenda : (s.lineWrite pa bs o).agenda = s.agenda := rfl
@[simp] theorem State.lineWrite_nextId : (s.lineWrite pa bs o).nextId = s.nextId := rfl
@[simp] theorem State.lineWrite_tags : (s.lineWrite pa bs o).tags = s.tags := rfl
@[simp] theorem State.lineWrite_frames : (s.lineWrite pa bs o).frames = s.frames := rfl
@[simp] theorem State.lineWrite_ftags : (s.lineWrite pa bs o).ftags = s.ftags := rfl
@[simp] theorem State.lineWrite_unjoined : (s.lineWrite pa bs o).unjoined = s.unjoined := rfl
@[simp] theorem State.lineWrite_icache : (s.lineWrite pa bs o).icache = s.icache := rfl
@[simp] theorem State.lineWrite_xcache : (s.lineWrite pa bs o).xcache = s.xcache := rfl
@[simp] theorem State.lineWrite_spCache : (s.lineWrite pa bs o).spCache = s.spCache := rfl
@[simp] theorem State.lineWrite_corrected : (s.lineWrite pa bs o).corrected = s.corrected := rfl
@[simp] theorem State.lineWrite_reqs : (s.lineWrite pa bs o).reqs = s.reqs := rfl
@[simp] theorem State.lineWrite_debts : (s.lineWrite pa bs o).debts = s.debts := rfl
@[simp] theorem State.lineWrite_passed : (s.lineWrite pa bs o).passed = s.passed := rfl
@[simp] theorem State.lineWrite_signals : (s.lineWrite pa bs o).signals = s.signals := rfl
@[simp] theorem State.lineWrite_shoot : (s.lineWrite pa bs o).shoot = s.shoot := rfl
@[simp] theorem State.lineWrite_shootDone : (s.lineWrite pa bs o).shootDone = s.shootDone := rfl
@[simp] theorem State.lineWrite_cmds : (s.lineWrite pa bs o).cmds = s.cmds := rfl
@[simp] theorem State.lineWrite_recs : (s.lineWrite pa bs o).recs = s.recs := rfl
@[simp] theorem State.lineWrite_deltas : (s.lineWrite pa bs o).deltas = s.deltas := rfl
@[simp] theorem State.lineWrite_cached : (s.lineWrite pa bs o).cached = s.cached := rfl
@[simp] theorem State.lineWrite_installs : (s.lineWrite pa bs o).installs = s.installs := rfl
@[simp] theorem State.lineWrite_posts : (s.lineWrite pa bs o).posts = s.posts := rfl
@[simp] theorem State.lineWrite_barUpds : (s.lineWrite pa bs o).barUpds = s.barUpds := rfl
@[simp] theorem State.lineWrite_barLine : (s.lineWrite pa bs o).barLine = s.barLine := rfl
@[simp] theorem State.lineWrite_barSeen : (s.lineWrite pa bs o).barSeen = s.barSeen := rfl
@[simp] theorem State.lineWrite_chans : (s.lineWrite pa bs o).chans = s.chans := rfl
@[simp] theorem State.lineWrite_grps : (s.lineWrite pa bs o).grps = s.grps := rfl
@[simp] theorem State.lineWrite_colls : (s.lineWrite pa bs o).colls = s.colls := rfl
@[simp] theorem State.lineWrite_quar : (s.lineWrite pa bs o).quar = s.quar := rfl
@[simp] theorem State.lineWrite_qcmds : (s.lineWrite pa bs o).qcmds = s.qcmds := rfl
@[simp] theorem State.lineWrite_pages : (s.lineWrite pa bs o).pages = s.pages := rfl
@[simp] theorem State.lineWrite_bounce : (s.lineWrite pa bs o).bounce = s.bounce := rfl
@[simp] theorem State.lineWrite_gated : (s.lineWrite pa bs o).gated = s.gated := rfl
@[simp] theorem State.lineWrite_occ : (s.lineWrite pa bs o).occ = s.occ := rfl
@[simp] theorem State.lineWrite_reuse : (s.lineWrite pa bs o).reuse = s.reuse := rfl
@[simp] theorem State.lineWrite_watchCnt : (s.lineWrite pa bs o).watchCnt = s.watchCnt := rfl
@[simp] theorem State.lineWrite_tenants : (s.lineWrite pa bs o).tenants = s.tenants := rfl
@[simp] theorem State.lineWrite_saved : (s.lineWrite pa bs o).saved = s.saved := rfl
@[simp] theorem State.lineWrite_ctxs : (s.lineWrite pa bs o).ctxs = s.ctxs := rfl
@[simp] theorem State.lineWrite_links : (s.lineWrite pa bs o).links = s.links := rfl
@[simp] theorem State.lineWrite_fab : (s.lineWrite pa bs o).fab = s.fab := rfl
@[simp] theorem State.lineWrite_sys : (s.lineWrite pa bs o).sys = s.sys := rfl
@[simp] theorem State.lineWrite_pmc : (s.lineWrite pa bs o).pmc = s.pmc := rfl
@[simp] theorem State.lineWrite_pmsel : (s.lineWrite pa bs o).pmsel = s.pmsel := rfl
@[simp] theorem State.lineWrite_pmcSkip : (s.lineWrite pa bs o).pmcSkip = s.pmcSkip := rfl
@[simp] theorem State.lineWrite_pmcPend : (s.lineWrite pa bs o).pmcPend = s.pmcPend := rfl
@[simp] theorem State.lineWrite_copyParks : (s.lineWrite pa bs o).copyParks = s.copyParks := rfl
end

/-! ### A write at the home -/

section
variable (s : State) (pa : Nat) (bs : List Byte) (o : Option (Nat × Nat))
@[simp] theorem State.homeWrite_gcyc : (s.homeWrite pa bs o).gcyc = s.gcyc := State.hostFlit_gcyc (s.lineWrite pa bs o) (pa / 64)
@[simp] theorem State.homeWrite_cur : (s.homeWrite pa bs o).cur = s.cur := State.hostFlit_cur (s.lineWrite pa bs o) (pa / 64)
@[simp] theorem State.homeWrite_turn : (s.homeWrite pa bs o).turn = s.turn := State.hostFlit_turn (s.lineWrite pa bs o) (pa / 64)
@[simp] theorem State.homeWrite_agenda : (s.homeWrite pa bs o).agenda = s.agenda := State.hostFlit_agenda (s.lineWrite pa bs o) (pa / 64)
@[simp] theorem State.homeWrite_nextId : (s.homeWrite pa bs o).nextId = s.nextId := State.hostFlit_nextId (s.lineWrite pa bs o) (pa / 64)
@[simp] theorem State.homeWrite_tags : (s.homeWrite pa bs o).tags = s.tags := State.hostFlit_tags (s.lineWrite pa bs o) (pa / 64)
@[simp] theorem State.homeWrite_frames : (s.homeWrite pa bs o).frames = s.frames := State.hostFlit_frames (s.lineWrite pa bs o) (pa / 64)
@[simp] theorem State.homeWrite_ftags : (s.homeWrite pa bs o).ftags = s.ftags := State.hostFlit_ftags (s.lineWrite pa bs o) (pa / 64)
@[simp] theorem State.homeWrite_unjoined : (s.homeWrite pa bs o).unjoined = s.unjoined := State.hostFlit_unjoined (s.lineWrite pa bs o) (pa / 64)
@[simp] theorem State.homeWrite_icache : (s.homeWrite pa bs o).icache = s.icache := State.hostFlit_icache (s.lineWrite pa bs o) (pa / 64)
@[simp] theorem State.homeWrite_xcache : (s.homeWrite pa bs o).xcache = s.xcache := State.hostFlit_xcache (s.lineWrite pa bs o) (pa / 64)
@[simp] theorem State.homeWrite_spCache : (s.homeWrite pa bs o).spCache = s.spCache := State.hostFlit_spCache (s.lineWrite pa bs o) (pa / 64)
@[simp] theorem State.homeWrite_corrected : (s.homeWrite pa bs o).corrected = s.corrected := State.hostFlit_corrected (s.lineWrite pa bs o) (pa / 64)
@[simp] theorem State.homeWrite_reqs : (s.homeWrite pa bs o).reqs = s.reqs := State.hostFlit_reqs (s.lineWrite pa bs o) (pa / 64)
@[simp] theorem State.homeWrite_debts : (s.homeWrite pa bs o).debts = s.debts := State.hostFlit_debts (s.lineWrite pa bs o) (pa / 64)
@[simp] theorem State.homeWrite_passed : (s.homeWrite pa bs o).passed = s.passed := State.hostFlit_passed (s.lineWrite pa bs o) (pa / 64)
@[simp] theorem State.homeWrite_signals : (s.homeWrite pa bs o).signals = s.signals := State.hostFlit_signals (s.lineWrite pa bs o) (pa / 64)
@[simp] theorem State.homeWrite_shoot : (s.homeWrite pa bs o).shoot = s.shoot := State.hostFlit_shoot (s.lineWrite pa bs o) (pa / 64)
@[simp] theorem State.homeWrite_shootDone : (s.homeWrite pa bs o).shootDone = s.shootDone := State.hostFlit_shootDone (s.lineWrite pa bs o) (pa / 64)
@[simp] theorem State.homeWrite_cmds : (s.homeWrite pa bs o).cmds = s.cmds := State.hostFlit_cmds (s.lineWrite pa bs o) (pa / 64)
@[simp] theorem State.homeWrite_recs : (s.homeWrite pa bs o).recs = s.recs := State.hostFlit_recs (s.lineWrite pa bs o) (pa / 64)
@[simp] theorem State.homeWrite_deltas : (s.homeWrite pa bs o).deltas = s.deltas := State.hostFlit_deltas (s.lineWrite pa bs o) (pa / 64)
@[simp] theorem State.homeWrite_cached : (s.homeWrite pa bs o).cached = s.cached := State.hostFlit_cached (s.lineWrite pa bs o) (pa / 64)
@[simp] theorem State.homeWrite_installs : (s.homeWrite pa bs o).installs = s.installs := State.hostFlit_installs (s.lineWrite pa bs o) (pa / 64)
@[simp] theorem State.homeWrite_posts : (s.homeWrite pa bs o).posts = s.posts := State.hostFlit_posts (s.lineWrite pa bs o) (pa / 64)
@[simp] theorem State.homeWrite_barUpds : (s.homeWrite pa bs o).barUpds = s.barUpds := State.hostFlit_barUpds (s.lineWrite pa bs o) (pa / 64)
@[simp] theorem State.homeWrite_barLine : (s.homeWrite pa bs o).barLine = s.barLine := State.hostFlit_barLine (s.lineWrite pa bs o) (pa / 64)
@[simp] theorem State.homeWrite_barSeen : (s.homeWrite pa bs o).barSeen = s.barSeen := State.hostFlit_barSeen (s.lineWrite pa bs o) (pa / 64)
@[simp] theorem State.homeWrite_chans : (s.homeWrite pa bs o).chans = s.chans := State.hostFlit_chans (s.lineWrite pa bs o) (pa / 64)
@[simp] theorem State.homeWrite_grps : (s.homeWrite pa bs o).grps = s.grps := State.hostFlit_grps (s.lineWrite pa bs o) (pa / 64)
@[simp] theorem State.homeWrite_colls : (s.homeWrite pa bs o).colls = s.colls := State.hostFlit_colls (s.lineWrite pa bs o) (pa / 64)
@[simp] theorem State.homeWrite_quar : (s.homeWrite pa bs o).quar = s.quar := State.hostFlit_quar (s.lineWrite pa bs o) (pa / 64)
@[simp] theorem State.homeWrite_qcmds : (s.homeWrite pa bs o).qcmds = s.qcmds := State.hostFlit_qcmds (s.lineWrite pa bs o) (pa / 64)
@[simp] theorem State.homeWrite_pages : (s.homeWrite pa bs o).pages = s.pages := State.hostFlit_pages (s.lineWrite pa bs o) (pa / 64)
@[simp] theorem State.homeWrite_bounce : (s.homeWrite pa bs o).bounce = s.bounce := State.hostFlit_bounce (s.lineWrite pa bs o) (pa / 64)
@[simp] theorem State.homeWrite_gated : (s.homeWrite pa bs o).gated = s.gated := State.hostFlit_gated (s.lineWrite pa bs o) (pa / 64)
@[simp] theorem State.homeWrite_occ : (s.homeWrite pa bs o).occ = s.occ := State.hostFlit_occ (s.lineWrite pa bs o) (pa / 64)
@[simp] theorem State.homeWrite_reuse : (s.homeWrite pa bs o).reuse = s.reuse := State.hostFlit_reuse (s.lineWrite pa bs o) (pa / 64)
@[simp] theorem State.homeWrite_watchCnt : (s.homeWrite pa bs o).watchCnt = s.watchCnt := State.hostFlit_watchCnt (s.lineWrite pa bs o) (pa / 64)
@[simp] theorem State.homeWrite_tenants : (s.homeWrite pa bs o).tenants = s.tenants := State.hostFlit_tenants (s.lineWrite pa bs o) (pa / 64)
@[simp] theorem State.homeWrite_saved : (s.homeWrite pa bs o).saved = s.saved := State.hostFlit_saved (s.lineWrite pa bs o) (pa / 64)
@[simp] theorem State.homeWrite_ctxs : (s.homeWrite pa bs o).ctxs = s.ctxs := State.hostFlit_ctxs (s.lineWrite pa bs o) (pa / 64)
@[simp] theorem State.homeWrite_fab : (s.homeWrite pa bs o).fab = s.fab := State.hostFlit_fab (s.lineWrite pa bs o) (pa / 64)
@[simp] theorem State.homeWrite_sys : (s.homeWrite pa bs o).sys = s.sys := State.hostFlit_sys (s.lineWrite pa bs o) (pa / 64)
@[simp] theorem State.homeWrite_pmc : (s.homeWrite pa bs o).pmc = s.pmc := State.hostFlit_pmc (s.lineWrite pa bs o) (pa / 64)
@[simp] theorem State.homeWrite_pmsel : (s.homeWrite pa bs o).pmsel = s.pmsel := State.hostFlit_pmsel (s.lineWrite pa bs o) (pa / 64)
@[simp] theorem State.homeWrite_pmcSkip : (s.homeWrite pa bs o).pmcSkip = s.pmcSkip := State.hostFlit_pmcSkip (s.lineWrite pa bs o) (pa / 64)
@[simp] theorem State.homeWrite_pmcPend : (s.homeWrite pa bs o).pmcPend = s.pmcPend := State.hostFlit_pmcPend (s.lineWrite pa bs o) (pa / 64)
@[simp] theorem State.homeWrite_copyParks : (s.homeWrite pa bs o).copyParks = s.copyParks := State.hostFlit_copyParks (s.lineWrite pa bs o) (pa / 64)
end

/-! ### An issuer takes its turn -/

section
variable (s : State) (k : Nat)
@[simp] theorem State.took_gcyc : (s.took k).gcyc = s.gcyc := rfl
@[simp] theorem State.took_cur : (s.took k).cur = s.cur := rfl
@[simp] theorem State.took_agenda : (s.took k).agenda = s.agenda := rfl
@[simp] theorem State.took_fresh : (s.took k).fresh = s.fresh := rfl
@[simp] theorem State.took_nextId : (s.took k).nextId = s.nextId := rfl
@[simp] theorem State.took_thr : (s.took k).thr = s.thr := rfl
@[simp] theorem State.took_mem : (s.took k).mem = s.mem := rfl
@[simp] theorem State.took_tags : (s.took k).tags = s.tags := rfl
@[simp] theorem State.took_frames : (s.took k).frames = s.frames := rfl
@[simp] theorem State.took_ftags : (s.took k).ftags = s.ftags := rfl
@[simp] theorem State.took_unjoined : (s.took k).unjoined = s.unjoined := rfl
@[simp] theorem State.took_l1 : (s.took k).l1 = s.l1 := rfl
@[simp] theorem State.took_hostLines : (s.took k).hostLines = s.hostLines := rfl
@[simp] theorem State.took_dir : (s.took k).dir = s.dir := rfl
@[simp] theorem State.took_l2 : (s.took k).l2 = s.l2 := rfl
@[simp] theorem State.took_icache : (s.took k).icache = s.icache := rfl
@[simp] theorem State.took_xcache : (s.took k).xcache = s.xcache := rfl
@[simp] theorem State.took_spCache : (s.took k).spCache = s.spCache := rfl
@[simp] theorem State.took_corrected : (s.took k).corrected = s.corrected := rfl
@[simp] theorem State.took_reqs : (s.took k).reqs = s.reqs := rfl
@[simp] theorem State.took_debts : (s.took k).debts = s.debts := rfl
@[simp] theorem State.took_passed : (s.took k).passed = s.passed := rfl
@[simp] theorem State.took_signals : (s.took k).signals = s.signals := rfl
@[simp] theorem State.took_shoot : (s.took k).shoot = s.shoot := rfl
@[simp] theorem State.took_shootDone : (s.took k).shootDone = s.shootDone := rfl
@[simp] theorem State.took_cmds : (s.took k).cmds = s.cmds := rfl
@[simp] theorem State.took_recs : (s.took k).recs = s.recs := rfl
@[simp] theorem State.took_deltas : (s.took k).deltas = s.deltas := rfl
@[simp] theorem State.took_cached : (s.took k).cached = s.cached := rfl
@[simp] theorem State.took_installs : (s.took k).installs = s.installs := rfl
@[simp] theorem State.took_posts : (s.took k).posts = s.posts := rfl
@[simp] theorem State.took_barUpds : (s.took k).barUpds = s.barUpds := rfl
@[simp] theorem State.took_barLine : (s.took k).barLine = s.barLine := rfl
@[simp] theorem State.took_barSeen : (s.took k).barSeen = s.barSeen := rfl
@[simp] theorem State.took_chans : (s.took k).chans = s.chans := rfl
@[simp] theorem State.took_grps : (s.took k).grps = s.grps := rfl
@[simp] theorem State.took_colls : (s.took k).colls = s.colls := rfl
@[simp] theorem State.took_quar : (s.took k).quar = s.quar := rfl
@[simp] theorem State.took_qcmds : (s.took k).qcmds = s.qcmds := rfl
@[simp] theorem State.took_pages : (s.took k).pages = s.pages := rfl
@[simp] theorem State.took_bounce : (s.took k).bounce = s.bounce := rfl
@[simp] theorem State.took_gated : (s.took k).gated = s.gated := rfl
@[simp] theorem State.took_tasks : (s.took k).tasks = s.tasks := rfl
@[simp] theorem State.took_occ : (s.took k).occ = s.occ := rfl
@[simp] theorem State.took_reuse : (s.took k).reuse = s.reuse := rfl
@[simp] theorem State.took_watchCnt : (s.took k).watchCnt = s.watchCnt := rfl
@[simp] theorem State.took_tenants : (s.took k).tenants = s.tenants := rfl
@[simp] theorem State.took_saved : (s.took k).saved = s.saved := rfl
@[simp] theorem State.took_ctxs : (s.took k).ctxs = s.ctxs := rfl
@[simp] theorem State.took_links : (s.took k).links = s.links := rfl
@[simp] theorem State.took_fab : (s.took k).fab = s.fab := rfl
@[simp] theorem State.took_sys : (s.took k).sys = s.sys := rfl
@[simp] theorem State.took_pmc : (s.took k).pmc = s.pmc := rfl
@[simp] theorem State.took_pmsel : (s.took k).pmsel = s.pmsel := rfl
@[simp] theorem State.took_pmcSkip : (s.took k).pmcSkip = s.pmcSkip := rfl
@[simp] theorem State.took_pmcPend : (s.took k).pmcPend = s.pmcPend := rfl
@[simp] theorem State.took_copyParks : (s.took k).copyParks = s.copyParks := rfl
end

/-! ### The accessors -/

theorem State.th_setTh (s : State) (k : Nat) (t : Thr) (j : Nat) : (s.setTh k t).th j = if j = k then t else s.th j :=
  getD_putK ({} : Thr) s.thr k t j

@[simp] theorem State.th_setTh_same (s : State) (k : Nat) (t : Thr) : (s.setTh k t).th k = t := by simp [State.th_setTh]

theorem State.th_setTh_ne (s : State) {k j : Nat} (t : Thr) (h : j ≠ k) : (s.setTh k t).th j = s.th j := by
  simp [State.th_setTh, h]

theorem State.th_modTh (s : State) (k : Nat) (f : Thr → Thr) (j : Nat) :
    (s.modTh k f).th j = if j = k then f (s.th k) else s.th j := s.th_setTh k _ j

@[simp] theorem State.th_modTh_same (s : State) (k : Nat) (f : Thr → Thr) : (s.modTh k f).th k = f (s.th k) := by
  simp [State.th_modTh]

theorem State.th_modTh_ne (s : State) {k j : Nat} (f : Thr → Thr) (h : j ≠ k) : (s.modTh k f).th j = s.th j := by
  simp [State.th_modTh, h]

theorem State.ctx_setCtx (s : State) (c : Nat) (x : Ctx) (d : Nat) : (s.setCtx c x).ctx d = if d = c then x else s.ctx d :=
  getD_putK ({} : Ctx) s.ctxs c x d

@[simp] theorem State.ctx_setCtx_same (s : State) (c : Nat) (x : Ctx) : (s.setCtx c x).ctx c = x := by
  simp [State.ctx_setCtx]

theorem State.ctx_modCtx (s : State) (c : Nat) (f : Ctx → Ctx) (d : Nat) :
    (s.modCtx c f).ctx d = if d = c then f (s.ctx c) else s.ctx d := s.ctx_setCtx c _ d

@[simp] theorem State.th_setCtx (s : State) (c : Nat) (x : Ctx) (k : Nat) : (s.setCtx c x).th k = s.th k := rfl
@[simp] theorem State.ctx_setTh (s : State) (k : Nat) (t : Thr) (c : Nat) : (s.setTh k t).ctx c = s.ctx c := rfl
@[simp] theorem State.ctx_modTh (s : State) (k : Nat) (f : Thr → Thr) (c : Nat) : (s.modTh k f).ctx c = s.ctx c := rfl
@[simp] theorem State.ctx_fly (s : State) (k n : Nat) (l : Land) (c : Nat) : (s.fly k n l).ctx c = s.ctx c := rfl
@[simp] theorem State.th_post (s : State) (r : Rec) (k : Nat) : (s.post r).th k = s.th k := rfl
@[simp] theorem State.ctx_post (s : State) (r : Rec) (c : Nat) : (s.post r).ctx c = s.ctx c := rfl

theorem State.th_fly (s : State) (k n : Nat) (l : Land) (j : Nat) :
    (s.fly k n l).th j = if j = k then { s.th k with flight := (s.th k).flight ++ [{ due := (s.th k).scyc + n, land := l }] }
      else s.th j := s.th_modTh k _ j

theorem State.tag_setTag (s : State) (pa : Nat) (g : BitVec 4) (a : Nat) :
    (s.setTag pa g).tag a = if a / 64 = pa / 64 then g else s.tag a := getD_putD 0 s.tags (pa / 64) g (a / 64)

/-! ### Registers (03 R87) -/

@[simp] theorem Thr.s_zero (t : Thr) : t.s 0 = 0 := rfl
@[simp] theorem Thr.p_zero (t : Thr) : t.p 0 = true := rfl
@[simp] theorem Thr.m_zero (t : Thr) : t.m 0 = BitVec.allOnes 64 := rfl

theorem Thr.s_setS (t : Thr) (n : Nat) (v : W64) (b : Bool) (j : Nat) :
    (t.setS n v b).s j = if j = n ∧ n ≠ 0 then v else t.s j := by
  grind [Thr.setS, Thr.s, getD_putD]

theorem Thr.sBad_setS (t : Thr) (n : Nat) (v : W64) (b : Bool) (j : Nat) :
    (t.setS n v b).sBad j = if j = n ∧ n ≠ 0 then b else t.sBad j := by
  grind [Thr.setS, Thr.sBad, getD_putD]

theorem Thr.p_setP (t : Thr) (n : Nat) (b : Bool) (j : Nat) (hn : n < 16) :
    (t.setP n b).p j = if j = n ∧ n ≠ 0 then b else t.p j := by
  have bit : (BitVec.ofNat 16 (2 ^ n)).getLsbD j = decide (n = j) := by
    rw [BitVec.getLsbD_ofNat, Nat.testBit_two_pow]; grind
  unfold Thr.setP Thr.p
  grind

theorem Thr.h_setH (t : Thr) (n : Nat) (h : Handle) (j : Nat) : (t.setH n h).h j = if j = n then h else t.h j :=
  getD_putD ({} : Handle) t.hs n h j

theorem Thr.bank_setBank (t : Thr) (n : Nat) (b : Bank) (j : Nat) : (t.setBank n b).bank j = if j = n then b else t.bank j :=
  getD_putK [] t.banks n b j

theorem Thr.bBad_setBPsn (t : Thr) (n : Nat) (b : Bool) (j : Nat) : (t.setBPsn n b).bBad j = if j = n then b else t.bBad j :=
  getD_putD false t.bPsn n b j

theorem Thr.m_setM (t : Thr) (n : Nat) (v mask : W64) (j : Nat) :
    (t.setM n v mask).m j = if j = n ∧ n ≠ 0 then (v &&& mask) ||| (t.m n &&& ~~~mask) else t.m j := by
  grind [Thr.setM, Thr.m, getD_putD]

end Sys2Proof.Machine
end

