-- ==== Sys2Proof/Laws/MemOps.lean ====
section
/-! SUPPORT. Every memory operation keeps both memories canonical. -/

namespace Sys2Proof.Machine

open Sys2Proof

/-- Both memories are canonical. -/
abbrev MemWf (s : State) : Prop := s.memWf = true

variable {s : State}

theorem memWf_iff : MemWf s ↔ Memory.wf s.mem = true ∧ Memory.wf s.frames = true := by simp [MemWf, State.memWf]

/-- Only the two memories count. -/
theorem MemWf.of_eq {t : State} (h : MemWf s) (hm : t.mem = s.mem) (hf : t.frames = s.frames) : MemWf t := by
  rw [memWf_iff, hm, hf]
  exact memWf_iff.1 h

/-- What every round of a loop keeps, the loop keeps. -/
theorem foldl_keeps {α σ : Type} (P : σ → Prop) {f : σ → α → σ} (h : ∀ s a, P s → P (f s a)) (l : List α) {s : σ} (hs : P s) :
    P (l.foldl f s) := List.foldlRecOn l f hs fun s hs a _ => h s a hs

theorem MemWf.forN {f : Nat → State → State} (hs : MemWf s) (n : Nat) (h : ∀ i s, MemWf s → MemWf (f i s)) : MemWf (forN n s f) :=
  foldl_keeps MemWf (fun s i => h i s) _ hs

/-- A choice between canonical states. -/
theorem MemWf.ite {b : Prop} [Decidable b] {t : State} (hs : MemWf s) (ht : MemWf t) : MemWf (if b then s else t) := by
  split <;> assumption

/-! ### Physical memory (10) -/

theorem MemWf.hostFlit (h : MemWf s) (line : Nat) : MemWf (s.hostFlit line) := by
  simpa only [memWf_iff, State.hostFlit_mem, State.hostFlit_frames] using memWf_iff.1 h

theorem MemWf.lineWrite (h : MemWf s) (pa : Nat) (bs : List Byte) (own : Option (Nat × Nat)) : MemWf (s.lineWrite pa bs own) :=
  memWf_iff.2 ⟨Memory.wf_wrBytes (memWf_iff.1 h).1 pa bs, (memWf_iff.1 h).2⟩

theorem MemWf.homeWrite (h : MemWf s) (pa : Nat) (bs : List Byte) (own : Option (Nat × Nat)) : MemWf (s.homeWrite pa bs own) :=
  (h.lineWrite pa bs own).hostFlit _

theorem MemWf.shareLine (h : MemWf s) (line k : Nat) : MemWf (s.shareLine line k) := h

theorem MemWf.othersRead (h : MemWf s) (line k : Nat) : MemWf (s.othersRead line k) := (h.shareLine line k).hostFlit _

theorem MemWf.dirShare (h : MemWf s) (line core : Nat) : MemWf (s.dirShare line core) := by
  have room : MemWf (s.dirRoom line) := by
    unfold State.dirRoom
    dsimp only
    split
    · exact h
    · split
      exacts [h, h.of_eq rfl rfl]
  exact room.of_eq rfl rfl

/-! ### The part's own writes (10 R291) -/

theorem MemWf.partDone (h : MemWf s) (pa : Nat) (bs : List Byte) (tag : Option (BitVec 4)) : MemWf (s.partDone pa bs tag) := by
  cases tag
  exacts [.ite (h.homeWrite pa bs none) (h.homeWrite pa bs none), h.homeWrite pa bs none]

theorem MemWf.pageAfresh (h : MemWf s) (key : Nat) : MemWf (s.pageAfresh key) := h

theorem MemWf.afreshLine (h : MemWf s) (u : State) (line : Nat) : MemWf (u.afreshLine line s) := by
  unfold State.afreshLine
  exact foldl_keeps MemWf (fun _ k hs => hs.pageAfresh k) _ h

theorem MemWf.partWrite (h : MemWf s) (pa : Nat) (bs : List Byte) (tag : Option (BitVec 4)) : MemWf (s.partWrite pa bs tag) :=
  .ite ((h.partDone pa bs tag).afreshLine ..) h

theorem MemWf.vputN (h : MemWf s) (c va n v : Nat) : MemWf (s.vputN c va n v) := by
  unfold State.vputN
  split
  exacts [h, .ite h (h.partWrite ..)]

theorem MemWf.vputRun (h : MemWf s) (c va : Nat) (bs : List Byte) : MemWf (s.vputRun c va bs) := by
  refine h.forN _ fun i s hs => ?_
  dsimp only
  split
  exacts [hs, .ite hs (hs.partWrite ..)]

theorem MemWf.logFw (h : MemWf s) (kind addr agent : Nat) : MemWf (s.logFw kind addr agent) :=
  .ite h (.ite ((h.partWrite ..).partWrite ..) (h.partWrite ..))

theorem MemWf.log (h : MemWf s) (c kind addr agent : Nat) : MemWf (s.log c kind addr agent) :=
  .ite (h.logFw ..) (.ite ((h.vputRun ..).vputN ..) (h.vputN ..))

theorem MemWf.structBad (h : MemWf s) (c va : Nat) : MemWf (s.structBad c va) := by
  unfold State.structBad
  split
  exacts [h, .ite (h.log ..) h]

theorem MemWf.vwrN (h : MemWf s) (c va n v : Nat) : MemWf (s.vwrN c va n v) := (h.structBad c va).vputN c va n v

theorem MemWf.vwrRun (h : MemWf s) (c va : Nat) (bs : List Byte) : MemWf (s.vwrRun c va bs) :=
  MemWf.vputRun (h.forN _ fun _ _ hs => hs.structBad ..) c va bs

theorem MemWf.partPut (h : MemWf s) (c pa : Nat) (bs : List Byte) : MemWf (s.partPut c pa bs) := .ite (h.log ..) (h.partWrite ..)

theorem MemWf.agentWrite (h : MemWf s) (c pa : Nat) (bs : List Byte) (tag : Option (BitVec 4)) : MemWf (s.agentWrite c pa bs tag) := by
  unfold State.agentWrite
  split
  exacts [h.log .., .ite (h.log ..) (h.partWrite ..)]

theorem MemWf.vshare (h : MemWf s) (c va n core : Nat) : MemWf (s.vshare c va n core) := by
  refine h.forN _ fun i s hs => ?_
  dsimp only
  split
  exacts [hs, .ite (hs.log ..) (hs.othersRead ..)]

theorem MemWf.traceLog (h : MemWf s) (c w0 baddr w3 : Nat) : MemWf (s.traceLog c w0 baddr w3) :=
  .ite h (.ite ((h.agentWrite ..).agentWrite ..) (h.agentWrite ..))

/-! ### Taking an exception (12) -/

theorem MemWf.pmcEvent (h : MemWf s) (core part ev n : Nat) : MemWf (s.pmcEvent core part ev n) :=
  .ite h (h.forN _ fun _ _ hs => .ite hs hs)

theorem MemWf.takePark (h : MemWf s) (p kind baddr slots det0 det1 : Nat) (a b c : Bool) :
    MemWf (s.takePark p kind baddr slots det0 det1 a b c) := by
  unfold State.takePark
  extract_lets _ _ s1 s2 _
  have h1 : MemWf s1 := h.pmcEvent ..
  exact MemWf.vwrRun (s := s2) h1 ..

theorem MemWf.saveCs (h : MemWf s) (c : Nat) (held : List W32) : MemWf (s.saveCs c held) := h.vwrRun c _ _

theorem MemWf.takeHalt (h : MemWf s) (c kind baddr slots det0 det1 : Nat) : MemWf (s.takeHalt c kind baddr slots det0 det1) := by
  unfold State.takeHalt
  exact MemWf.saveCs (s := s.post _) h c []

theorem MemWf.take (h : MemWf s) (k kind baddr slots det0 det1 : Nat) (a b : Bool) : MemWf (s.take k kind baddr slots det0 det1 a b) :=
  .ite (h.takeHalt ..) (h.takePark ..)

/-! ### Tensor records (09) -/

theorem MemWf.recPut (h : MemWf s) (c i off v : Nat) : MemWf (s.recPut c i off v) := h.vwrN ..

theorem MemWf.mergeDelta (h : MemWf s) (d : Delta) : MemWf (s.mergeDelta d) := by
  unfold State.mergeDelta
  refine MemWf.forN ((((h.forN _ fun j u hu => ?_).recPut ..).recPut ..).recPut ..) _ fun v u hu => ?_
  · exact .ite hu (hu.recPut ..)
  · exact .ite hu (.ite ((hu.recPut ..).recPut ..) (hu.recPut ..))

theorem MemWf.modDelta (h : MemWf s) (core c i : Nat) (f : Delta → Delta) : MemWf (s.modDelta core c i f) := by
  unfold State.modDelta
  have merged (d : Delta) : MemWf ((s.setDelta d).merge d) := MemWf.mergeDelta (s := s.setDelta d) h d
  exact .ite (merged _) (.ite (merged _) h)

theorem MemWf.liveMove (h : MemWf s) (core c : Nat) (bound : Option (Nat × Nat × Nat)) (pa o n : Nat) :
    MemWf (s.liveMove core c bound pa o n) := by
  unfold State.liveMove
  split
  exacts [h, .ite h (h.modDelta ..)]

/-! ### Requests perform (05, 10) -/

theorem MemWf.putLine (h : MemWf s) (core c pa : Nat) (bytes : List Byte) (ver : Option Nat) (psn : Bool)
    (bound : Option (Nat × Nat × Nat)) (own : Option (Nat × Nat)) : MemWf (s.putLine core c pa bytes ver psn bound own) :=
  MemWf.liveMove (s := (s.homeWrite pa bytes own).setTag _ _) (h.homeWrite pa bytes own) ..

theorem MemWf.metViolation (h : MemWf s) (r : Req) : MemWf (s.metViolation r) := by
  unfold State.metViolation
  split <;> exact h

theorem MemWf.signal (h : MemWf s) (obj : List Nat) (k id : Nat) : MemWf (s.signal obj k id) := .ite h h

theorem MemWf.receive (h : MemWf s) (k : Nat) (p : Signal → Bool) : MemWf (s.receive k p) := by
  unfold State.receive
  exact .ite h h

theorem MemWf.performStore (h : MemWf s) (r : Req) (pa : Nat) (bytes : List Byte) (ver : Option Nat) (psn : Bool)
    (bound : Option (Nat × Nat × Nat)) : MemWf (s.performStore r pa bytes ver psn bound) := by
  have logged (b : Bool) (kd ag : Nat) : MemWf (if b then s.log r.ctx kd pa ag else s) := .ite (h.log ..) h
  unfold State.performStore
  dsimp only
  refine .ite (h.partDone ..) (.ite ((h.metViolation r).log ..) (.ite h ?_))
  split
  · exact h.log ..
  · exact .ite (logged ..) (MemWf.putLine (s := State.dropRelease _ pa bytes.length) (logged ..) ..)

theorem MemWf.performPatch (h : MemWf s) (r : Req) (line : Nat) (bytes : List (Nat × Byte)) (ver : Nat) (psn : Bool)
    (bound : Option (Nat × Nat × Nat)) : MemWf (s.performPatch r line bytes ver psn bound) := by
  unfold State.performPatch
  dsimp only
  refine .ite (foldl_keeps MemWf (fun u x hu => hu.performStore ..) _ h) ?_
  split
  · exact h.log ..
  · exact .ite (h.log ..) (foldl_keeps MemWf (fun u x hu => MemWf.putLine (s := u.dropRelease _ _) hu ..) _ h)

theorem MemWf.performAtomic (h : MemWf s) (r : Req) (op : AtomicOp) (at_ pa : Nat) (b c : W64) (ret : Option Nat) :
    MemWf (s.performAtomic r op at_ pa b c ret) := by
  have back {u : State} (v : Nat) (psn : Bool) (hu : MemWf u) : MemWf (match ret with
      | none => u
      | some d => u.arrive r.key r.id (.s d (atExtend at_ v) psn)) := by cases ret <;> exact hu
  have heard (b : Bool) {u : State} (hu : MemWf u) : MemWf (if b then u.hearRelease r.key pa r.kind.scope else u) :=
    .ite (hu.receive ..) hu
  have signalled (b : Bool) : MemWf (if b then s.signal [6, pa, r.kind.scope] r.key r.id else s) := .ite (h.signal ..) h
  have touched {u : State} (hu : MemWf u) (l : Nat) : MemWf ((u.invalidate l).l2Touch l false) := hu.of_eq rfl rfl
  have logged (k ag : Nat) : MemWf (s.log r.ctx k pa ag) := h.log ..
  unfold State.performAtomic
  dsimp only
  split
  · exact back _ _ (logged ..)
  · split
    · exact back _ _ (logged ..)
    · split
      · exact back _ _ ((touched h _).log ..)
      · refine back _ _ ?_
        split
        exacts [(touched (heard _ (signalled _)) _).hostFlit _, (heard _ (signalled _)).homeWrite ..]

theorem MemWf.readPiece (h : MemWf s) (r : Req) (pa n : Nat) : MemWf (s.readPiece r pa n).2.2 := by
  unfold State.readPiece
  extract_lets k s1
  have h1 : MemWf s1 := h.othersRead ..
  clear_value s1
  split
  · exact (h.metViolation r).log ..
  · split
    exacts [h1.log .., h1]

theorem MemWf.storeNow (h : MemWf s) (r : Req) (pa : Nat) (bytes : List Byte) (ver : Option Nat) (psn : Bool)
    (bound : Option (Nat × Nat × Nat)) : MemWf (s.storeNow r pa bytes ver psn bound) :=
  .ite ((h.performStore r pa bytes ver psn bound).afreshLine ..) h

theorem MemWf.performPclr (h : MemWf s) (r : Req) (line : Nat) : MemWf (s.performPclr r line) := by
  unfold State.performPclr
  refine .ite (h.log ..) ?_
  split
  exacts [h.log .., h.homeWrite ..]

theorem MemWf.engineWrite (h : MemWf s) (m : Cmd) (cap : Cap) (bs : List Byte) : MemWf (s.engineWrite m cap bs) :=
  h.forN _ fun _ _ hu => hu.storeNow ..

theorem MemWf.engineRead (h : MemWf s) (m : Cmd) (cap : Cap) (n : Nat) : MemWf (s.engineRead m cap n).2.2 := by
  unfold State.engineRead
  refine foldl_keeps (fun x : List Byte × Bool × State => MemWf x.2.2) (fun x i hx => ?_) _ h
  exact MemWf.readPiece hx ..

/-! ### Scratchpad frames (13) -/

theorem MemWf.viewWrite (h : MemWf s) (lin : Bool) (own cmd fa : Nat) (bs : List Byte) : MemWf (s.viewWrite lin own cmd fa bs) :=
  memWf_iff.2 ⟨(memWf_iff.1 h).1, Memory.wf_wrBytes (memWf_iff.1 h).2 _ _⟩

theorem MemWf.spStore (h : MemWf s) (lin : Bool) (c a own cmd fa : Nat) (bs : List Byte) (tag : Option (BitVec 4)) :
    MemWf (s.spStore lin c a own cmd fa bs tag) := by
  have logged (b : Bool) (kd ag : Nat) : MemWf (if b then s.log c kd a ag else s) := .ite (h.log ..) h
  have tagged {u : State} (hu : MemWf u) (b : Bool) (v : BitVec 4) : MemWf (match tag with
      | some t => u.setViewTag lin fa t
      | none => if b then u.setViewTag lin fa v else u) := by
    cases tag
    exacts [.ite hu hu, hu]
  unfold State.spStore
  dsimp only
  exact .ite (logged ..) (tagged (u := (State.viewWrite _ lin own cmd fa bs).touchPage c a true) (MemWf.viewWrite (logged ..) lin own cmd fa bs) _ _)

theorem MemWf.spPatch (h : MemWf s) (c a own cmd fa : Nat) (bytes : List (Nat × Byte)) (tag : BitVec 4) :
    MemWf (s.spPatch c a own cmd fa bytes tag) := by
  unfold State.spPatch
  split
  · exact h.spStore ..
  · split
    · exact h.log ..
    · extract_lets s1
      have h1 : MemWf s1 := by
        refine foldl_keeps MemWf (fun u x hu => ?_) _ h
        exact (hu.viewWrite false own cmd (fa + x.1) x.2).of_eq rfl rfl
      exact h1.of_eq rfl rfl

theorem MemWf.spCacheFill (h : MemWf s) (core c n : Nat) : MemWf (s.spCacheFill core c n) := by
  unfold State.spCacheFill
  extract_lets _ _ s1 _
  have h1 : MemWf s1 := (h.othersRead ..).dirShare ..
  clear_value s1
  split
  · exact h
  · split <;> exact h1.of_eq rfl rfl

theorem MemWf.spWrite (h : MemWf s) (lin : Bool) (c cl a own cmd : Nat) (bs : List Byte) (tag : Option (BitVec 4)) :
    MemWf (s.spWrite lin c cl a own cmd bs tag) := by
  refine h.forN _ fun i u hu => ?_
  dsimp only
  split
  exacts [(hu.spCacheFill ..).spStore .., hu]

theorem MemWf.pageFill (h : MemWf s) (back : Option Nat) (fb : Nat) : MemWf (s.pageFill back fb) := by
  unfold State.pageFill
  extract_lets s1
  have h1 : MemWf s1 := memWf_iff.2 ⟨(memWf_iff.1 h).1, Memory.wf_wrBytes (memWf_iff.1 h).2 ..⟩
  exact h1.forN _ fun i u hu => by
    split
    exacts [hu.othersRead .., hu]

theorem MemWf.pageSave (h : MemWf s) (c : Nat) (p : SpPage) (back fb : Nat) : MemWf (s.pageSave c p back fb) :=
  h.forN 32 fun _ _ hu => MemWf.ite (hu.agentWrite ..) hu

/-! ### Reset -/

/-- The memory after reset is canonical. -/
theorem State.reset_memWf : State.reset.memWf = true := rfl

end Sys2Proof.Machine
end

