-- ==== Sys2Proof/Tests/Slice0.lean ====
section
/-! SUPPORT. Checks of our own: words written out from the spec's encodings, the checks of WellFormed, one step on small states with
values taken from the spec's rules and examples, and for each obligation a state and operands that meet its hypotheses. -/

namespace Sys2Proof.Tests
open Sys2Proof.Machine
-- The theorems below are checked one after another: many kernel evaluations at once need too many threads.
set_option Elab.async false

/-! ### Small states -/

/-- Tables that map the first 2 GiB to itself (11 R324), and a few words of data. -/
def labMem : List Host.Cell :=
  let w (m : List Host.Cell) (a v : Nat) : List Host.Cell := wrBytes m a (bytesOf 8 v)
  w (w (w (w (w (w (w [] 0x1000 0x2001) 0x2000 0x3001) 0x3000 31) 0x4000 0x8001) 0x6000 0x121) 0x6020 0x200) 0x40000 0x1122334455667788

/-- A running context with partitions 0 and 1. -/
def labCtx : Ctx :=
  { st := .running, allot := [0, 1], slot := some 0, semPages := [0x11]
    desc := [(0, 0x10000), (8, 0x1000), (0x10, 0x4000), (0x20, 0x6000), (0x28, 4), (0x30, 0x9000), (0x38, 32), (0x40, 0xB000),
      (0x48, 64), (0x50, 0x80000), (0x58, 0x7000), (0x70, 0xC000), (0x78, 0xD000), (0x80, 4), (0x88, 0xE000), (0x90, 4),
      (0x98, 0xF000), (0xA0, 2), (0xA8, 0x11000)] }

/-- An issuer that runs at 0x10000, with handle 1 of a plain page and handle 2 of a page bound to record 0. -/
def labThr : Thr :=
  { mode := .running, pc := 0x10000
    hs := [(1, { st := .valid, va := 0x40000, base := 0x40000, size := 0x10000, wr := true }),
      (2, { st := .valid, va := 0x50000, base := 0x50000, size := 0x10000, wr := true, tens := some 0 })]
    task := some { count := 1, kernel := 0x10000, pure := false, cycles := 0, phase := 0, slot := 0 } }

def labChan : Chan := { ctx := 0, ch := 0, st := .opened, desc := [0x1000, 0, 0, 0x48000, 0], qbuf := 0x48000, usable := 1, stand := [bytesOf 4 7] }

/-- Issuer k of context 0 in turn, with the scalar registers given. -/
def lab (k : Nat) (sr : List (Nat × Nat)) : State :=
  { mem := labMem, cur := k, turn := [k], ctxs := [(0, labCtx)]
    pages := [(0, { res := .res 0 0, written := true })]
    chans := [labChan]
    thr := [(k, { labThr with sr := sr.map fun e => (e.1, BitVec.ofNat 64 e.2), task := if k = 0 then labThr.task else none })]
    icache := [(if k < 4096 then 0 else 384, 0x400, List.replicate 64 0)] }

/-! ### The hypotheses of a committing bundle, as a check -/

def issuesB (s : State) (k : Nat) : Bool :=
  (s.th k).mode == .running && !(s.th k).dbg.stopped && !s.withheld k && !(s.th k).frozen &&
  ((((s.took k).landThr k).matrixDone k).matMissing k).isEmpty && !((s.begun k).th k).empty

theorem issues_of {s : State} {k : Nat} (h : issuesB s k = true) : Issues s k := by
  simp [issuesB] at h
  obtain ⟨⟨⟨⟨⟨a, b⟩, c⟩, d⟩, e⟩, f⟩ := h
  exact ⟨by simpa using a, b, c, d, e, f⟩

def clearB (u : State) (k pos : Nat) (h : Header) (w : W32) (o : SlotOp) : Bool :=
  (slotStatic (oneIC u k pos w h) (some o)).isNone && o.on (u.th k) && (slotEarly (oneIC u k pos w h) o).isNone &&
  (h.be || !o.srcV.contains 60) && o.brk.isNone && (slotHold (oneIC u k pos w h) (some o)).isNone && (slotPost (oneIC u k pos w h) (some o)).isNone

theorem clear_of {u : State} {k pos : Nat} {h : Header} {w : W32} {o : SlotOp} (hc : clearB u k pos h w o = true) :
    Clear u k pos h w o := by
  simp only [clearB, Bool.and_eq_true, Bool.or_eq_true, Option.isNone_iff_eq_none, Bool.not_eq_true'] at hc
  obtain ⟨⟨⟨⟨⟨⟨a, b⟩, c⟩, d⟩, e⟩, f⟩, g⟩ := hc
  exact ⟨a, b, c, d, e, f, g⟩

def commitsB (s : State) (k pos : Nat) (i : Instr) : Bool :=
  s.cur == k && issuesB s k && decide (((s.begun k).th k).pc % 64 ≤ 56) && !(((s.begun k).th k).inDelay && ((s.begun k).th k).atEnd) &&
  (pos == 0 || pos == 2 || pos == 6 || pos == 7 || (!isCs k && (pos == 3 || pos == 5))) &&
  match slotOf i with
  | none => false
  | some o => clearB (s.begun k) k pos (Header.one pos) (encWord i) o

theorem commits_of {s : State} {k pos : Nat} {i : Instr} (h : commitsB s k pos i = true) : Commits s (s.begun k) k pos i := by
  simp only [commitsB, Bool.and_eq_true, Bool.or_eq_true, decide_eq_true_eq, beq_iff_eq, Bool.not_eq_true'] at h
  obtain ⟨⟨⟨⟨⟨a, b⟩, c⟩, d⟩, e⟩, f⟩ := h
  refine ⟨a, issues_of b, rfl, ⟨c, d⟩, ?_, ?_⟩
  · obtain (((h | h) | h) | h) | h := e
    · exact .inl (.inl h)
    · exact .inl (.inr (.inl h))
    · exact .inl (.inr (.inr (.inl h)))
    · exact .inl (.inr (.inr (.inr h)))
    · exact .inr h
  · cases hs : slotOf i with
    | none => simp [hs] at f
    | some o => exact ⟨o, rfl, clear_of (by simpa [hs] using f)⟩

/-- The check of a bundle with a broadcast port. -/
def fetchedB (s : State) (k pos b : Nat) (i : Instr) : Bool :=
  let u := s.begun k
  let h := Header.port pos b
  let pc := (u.th k).pc
  s.cur == k && s.turn.contains k && issuesB s k && decide (pc % 64 ≤ 56) && !((u.th k).inDelay && (u.th k).atEnd) &&
  (pos == 3 || pos == 5) && !isCs k && h == Header.port pos h.bs && (match decodeSlot pos (encWord i) with
    | .ok j => j == i
    | .error _ => false) &&
  (match u.codePa k pc with
   | none => false
   | some pa => match u.icLine (u.tcore k) (pa / 64) with
     | none => false
     | some l => wordAt l (pc % 64) == h.word.toNat && wordAt l (pc % 64 + 4) == (encWord i).toNat) &&
  match slotOf i with
  | none => false
  | some o => clearB u k pos h (encWord i) o

theorem fetched_of {s : State} {k pos b : Nat} {i : Instr} (hc : fetchedB s k pos b i = true) :
    Fetched s (s.begun k) k pos (Header.port pos b) i := by
  simp only [fetchedB, Bool.and_eq_true, Bool.or_eq_true, decide_eq_true_eq, beq_iff_eq, Bool.not_eq_true'] at hc
  obtain ⟨⟨⟨⟨⟨⟨⟨⟨⟨⟨a, b⟩, c⟩, d⟩, e⟩, f⟩, g⟩, h⟩, w⟩, l⟩, o⟩ := hc
  refine ⟨a, by simpa using b, issues_of c, rfl, ⟨d, e⟩, ⟨.inr ⟨g, f⟩, g⟩, h, ?_, ?_, ?_⟩
  · cases hd : decodeSlot pos (encWord i) with
    | error _ => simp [hd] at w
    | ok j => simp only [hd, beq_iff_eq] at w; rw [w]
  · cases hp : (s.begun k).codePa k ((s.begun k).th k).pc with
    | none => simp [hp] at l
    | some pa =>
      cases hl : (s.begun k).icLine ((s.begun k).tcore k) (pa / 64) with
      | none => simp [hp, hl] at l
      | some l' => simp only [hp, hl, Bool.and_eq_true, beq_iff_eq] at l; exact ⟨pa, l', rfl, hl, l.1, l.2⟩
  · cases hs : slotOf i with
    | none => simp [hs] at o
    | some o' => exact ⟨o', rfl, clear_of (by simpa [hs] using o)⟩

/-- The slot where a plain bundle of an instruction has it. -/
def placeOf (i : Instr) : Nat := ((encode i).map Prod.fst).getD 0

/-- A plain bundle of instruction i commits at issuer k of a state. -/
def Runs (s : State) (k : Nat) (i : Instr) : Prop := Commits s (s.begun k) k (placeOf i) i

/-- A list of cases (issuer, scalar registers, instruction), each of which commits on the small state of that issuer. -/
theorem all_run {l : List (Nat × List (Nat × Nat) × Instr)} (h : (l.all fun e => commitsB (lab e.1 e.2.1) e.1 (placeOf e.2.2) e.2.2) = true) :
    ∀ e ∈ l, Runs (lab e.1 e.2.1) e.1 e.2.2 := fun e he => commits_of (List.all_eq_true.1 h e he)
/-! ### Words written out from the encodings of 03 Tables 3-5 and 3-8 to 3-13, and words the spec prints -/

theorem test_decode_scalar1 : ∀ e ∈ ([
    (0x016558BB#32, .add ⟨5, 37, 22, 11, 5, 1⟩),
    (0x056558B3#32, .sub ⟨5, 37, 22, 11, 1, 1⟩),
    (0x096558B1#32, .and ⟨5, 37, 22, 11, 0, 1⟩),
    (0x0D6558B1#32, .or ⟨5, 37, 22, 11, 0, 1⟩),
    (0x116558B1#32, .xor ⟨5, 37, 22, 11, 0, 1⟩),
    (0x156558B1#32, .andn ⟨5, 37, 22, 11, 0, 1⟩),
    (0x196558B3#32, .shl ⟨5, 37, 22, 11, 1, 1⟩),
    (0x1D6558B3#32, .shr ⟨5, 37, 22, 11, 1, 1⟩),
    (0x216558B3#32, .sar ⟨5, 37, 22, 11, 1, 1⟩),
    (0x256558B3#32, .rot ⟨5, 37, 22, 11, 1, 1⟩),
    (0x296558B1#32, .min ⟨5, 37, 22, 11, 0, 1⟩),
    (0x2D6558B1#32, .max ⟨5, 37, 22, 11, 0, 1⟩),
    (0x316558B1#32, .minu ⟨5, 37, 22, 11, 0, 1⟩),
    (0x356558B1#32, .maxu ⟨5, 37, 22, 11, 0, 1⟩),
    (0x396558B3#32, .mul ⟨5, 37, 22, 11, 1, 1⟩),
    (0x3D6558B1#32, .mulh ⟨5, 37, 22, 11, 0, 1⟩),
    (0x416558B1#32, .mulhu ⟨5, 37, 22, 11, 0, 1⟩),
    (0x45655B55#32, .addi ⟨5, 37, 22, 853⟩),
    (0x49655B55#32, .andi ⟨5, 37, 22, 853⟩),
    (0x4D655B55#32, .ori ⟨5, 37, 22, 853⟩),
    (0x51655B55#32, .xori ⟨5, 37, 22, 853⟩),
    (0x5565582A#32, .shli ⟨5, 37, 22, 42⟩),
    (0x59655815#32, .shri ⟨5, 37, 22, 21⟩),
    (0x5D65583F#32, .sari ⟨5, 37, 22, 63⟩),
    (0x6165B155#32, .movi ⟨5, 37, 45397⟩),
    (0x6565B155#32, .movhi ⟨5, 37, 45397⟩),
    (0x696558BF#32, .sel ⟨5, 37, 22, 11, 7, 1⟩),
    (0x6D6562CF#32, .cmp ⟨5, 9, 22, 11, 3, 1, 1⟩),
    (0x71656813#32, .cmpi ⟨5, 9, 22, 129, 3⟩),
    (0x7564E199#32, .plog ⟨5, 9, 14, 6, 6, 1⟩),
    (0x796558BD#32, .bitop ⟨5, 37, 22, 11, 6, 1⟩),
    (0x7D6558B5#32, .bfx ⟨5, 37, 22, 11, 2, 1⟩)] : List (W32 × Instr)),
    decodeSlot 0 e.1 = .ok e.2 := by
  decide

theorem test_decode_scalar2 : ∀ e ∈ ([
    (0x816558B7#32, .div ⟨5, 37, 22, 11, 3, 1⟩),
    (0x8542468B#32, .br ⟨5, 74565, 1⟩),
    (0x89405801#32, .jmp ⟨5, 22, 1⟩),
    (0x8D42468B#32, .call ⟨5, 74565, 1⟩),
    (0x91405801#32, .ret ⟨5, 22, 1⟩),
    (0x9565B155#32, .loop ⟨5, 37, 45397⟩),
    (0x9946093B#32, .loopr ⟨5, 6, 9, 7, 3⟩),
    (0x9D42468B#32, .lbrk ⟨5, 74565, 1⟩),
    (0xA14758BD#32, .audef ⟨5, 7, 22, 11, 6, 1⟩),
    (0xA54058B1#32, .waitk ⟨5, 22, 11, 1⟩),
    (0xA96558B7#32, .waitm ⟨5, 37, 22, 11, 3, 1⟩),
    (0xAD65B155#32, .trap ⟨5, 37, 45397⟩),
    (0xB1655801#32, .pres ⟨5, 37, 22, 1⟩),
    (0xB1655803#32, .presSkip ⟨5, 37, 22, 1⟩),
    (0xB16558B5#32, .presMig ⟨5, 37, 22, 11, 1⟩),
    (0xB5655801#32, .pkill ⟨5, 37, 22, 1⟩),
    (0xB96100C1#32, .crr ⟨5, 33, 3, 1⟩),
    (0xBD6100C1#32, .crw ⟨5, 33, 3, 1⟩),
    (0xC14058BB#32, .icinv ⟨5, 22, 11, 5, 1⟩),
    (0xC540B155#32, .brk ⟨5, 45397⟩),
    (0xC9405801#32, .fin ⟨5, 22, 1⟩),
    (0xCD651401#32, .movx ⟨5, 37, 5, 1⟩),
    (0xCD650003#32, .movxK ⟨5, 37, 1⟩),
    (0xD1650001#32, .movp ⟨5, 37, 1⟩),
    (0xD1405803#32, .movpW ⟨5, 22, 1⟩),
    (0xD5656001#32, .ktst ⟨5, 9, 22, 1⟩),
    (0xD56562C3#32, .ktstAll ⟨5, 9, 22, 11, 1⟩)] : List (W32 × Instr)),
    decodeSlot 0 e.1 = .ok e.2 := by
  decide

theorem test_decode_memory1 : ∀ e ∈ ([
    (0x01655B55#32, .lds ⟨5, 37, 22, 853⟩),
    (0x05655B55#32, .sts ⟨5, 37, 22, 853⟩),
    (0x09655B55#32, .ldv ⟨5, 37, 22, 853⟩),
    (0x0D655B55#32, .stv ⟨5, 37, 22, 853⟩),
    (0x11656028#32, .ldg ⟨5, 37, 6, 40⟩),
    (0x15656000#32, .stg ⟨5, 37, 6⟩),
    (0x19656028#32, .ldgv ⟨5, 37, 6, 40⟩),
    (0x1D656000#32, .stgv ⟨5, 37, 6⟩),
    (0x21656028#32, .ldcv ⟨5, 37, 6, 40⟩),
    (0x25656002#32, .stcv ⟨5, 37, 6, 2⟩),
    (0x296558BB#32, .gath ⟨5, 37, 22, 11, 5, 1⟩),
    (0x2D6558B3#32, .scat ⟨5, 37, 22, 11, 1, 1⟩),
    (0x315E5801#32, .xlat ⟨5, 30, 22, 1⟩),
    (0x355E0001#32, .hrel ⟨5, 30, 1⟩),
    (0x39655803#32, .probe ⟨5, 37, 22, 1, 1⟩),
    (0x3D416028#32, .pref ⟨5, 1, 6, 40⟩),
    (0x4140000B#32, .drain ⟨5, 5, 1⟩),
    (0x456562E7#32, .atadd ⟨5, 37, 6, 11, 2, 3, 1⟩),
    (0x496562E7#32, .atmin ⟨5, 37, 6, 11, 2, 3, 1⟩),
    (0x4D6562E7#32, .atmax ⟨5, 37, 6, 11, 2, 3, 1⟩),
    (0x516562E7#32, .atand ⟨5, 37, 6, 11, 2, 3, 1⟩),
    (0x556562E7#32, .ator ⟨5, 37, 6, 11, 2, 3, 1⟩),
    (0x596562E7#32, .atxor ⟨5, 37, 6, 11, 2, 3, 1⟩),
    (0x5D6562E7#32, .atxch ⟨5, 37, 6, 11, 2, 3, 1⟩),
    (0x616562E7#32, .atcas ⟨5, 37, 6, 11, 2, 3, 1⟩),
    (0x65656017#32, .atld ⟨5, 37, 6, 0, 1, 3, 1⟩),
    (0x694062E7#32, .atst ⟨5, 6, 11, 2, 3, 1⟩),
    (0x6D655801#32, .ltag ⟨5, 37, 22, 1⟩),
    (0x716558B3#32, .gaths ⟨5, 37, 22, 11, 1, 1⟩),
    (0x756558B3#32, .scats ⟨5, 37, 22, 11, 1, 1⟩),
    (0x794058B3#32, .clfl ⟨5, 22, 11, 1, 1⟩),
    (0x7D4058B1#32, .clinv ⟨5, 22, 11, 1⟩)] : List (W32 × Instr)),
    decodeSlot 2 e.1 = .ok e.2 := by
  decide

theorem test_decode_memory2 : ∀ e ∈ ([
    (0x81405801#32, .pclr ⟨5, 22, 1⟩)] : List (W32 × Instr)),
    decodeSlot 2 e.1 = .ok e.2 := by
  decide

theorem test_decode_vector1 : ∀ e ∈ ([
    (0x016558B9#32, .vadd ⟨5, 37, 22, 11, 2, 1⟩),
    (0x056558B9#32, .vsub ⟨5, 37, 22, 11, 2, 1⟩),
    (0x096558B9#32, .vmin ⟨5, 37, 22, 11, 2, 1⟩),
    (0x0D6558B9#32, .vmax ⟨5, 37, 22, 11, 2, 1⟩),
    (0x11655839#32, .vuna ⟨5, 37, 22, 3, 2, 1⟩),
    (0x156558B9#32, .vand ⟨5, 37, 22, 11, 2, 1⟩),
    (0x196558B9#32, .vor ⟨5, 37, 22, 11, 2, 1⟩),
    (0x1D6558B9#32, .vxor ⟨5, 37, 22, 11, 2, 1⟩),
    (0x21655869#32, .vshl ⟨5, 37, 22, 26, 1⟩),
    (0x25655855#32, .vshr ⟨5, 37, 22, 21, 1⟩),
    (0x2965587D#32, .vsar ⟨5, 37, 22, 31, 1⟩),
    (0x2D6558B5#32, .viadd ⟨5, 37, 22, 11, 1, 1⟩),
    (0x316558B5#32, .visub ⟨5, 37, 22, 11, 1, 1⟩),
    (0x355558BD#32, .vcmp ⟨5, 21, 22, 11, 3, 1⟩),
    (0x396558B9#32, .vsel ⟨5, 37, 22, 11, 2, 1⟩),
    (0x3D655809#32, .vmov ⟨5, 37, 22, 2, 1⟩),
    (0x41655A09#32, .vcvt ⟨5, 37, 22, 8, 2, 1⟩),
    (0x45655849#32, .vred ⟨5, 37, 22, 4, 2, 1⟩),
    (0x4965583D#32, .vscan ⟨5, 37, 22, 3, 3, 1⟩),
    (0x4D6558BD#32, .vperm ⟨5, 37, 22, 11, 1⟩),
    (0x51655955#32, .vshuf ⟨5, 37, 22, 85, 1⟩),
    (0x55655A55#32, .vrot ⟨5, 37, 22, 149, 1⟩),
    (0x595B1831#32, .vmsk ⟨5, 27, 6, 3, 1⟩),
    (0x5D43F00D#32, .vmts ⟨5, 3, 60, 0, 1⟩),
    (0x6165593D#32, .vseg ⟨5, 37, 22, 19, 3, 1⟩),
    (0x65655945#32, .vbsc ⟨5, 37, 22, 20, 1, 1⟩),
    (0x69655811#32, .vqnt ⟨5, 37, 22, 0, 4, 1⟩),
    (0x6D655941#32, .vdqnt ⟨5, 37, 22, 5, 0, 1⟩),
    (0x716558B9#32, .vclmp ⟨5, 37, 22, 11, 2, 1⟩),
    (0x756558B9#32, .vimnx ⟨5, 37, 22, 11, 2, 1⟩),
    (0x796558A9#32, .vext ⟨5, 37, 22, 42, 1⟩),
    (0x7D655855#32, .vins ⟨5, 37, 22, 21, 1⟩)] : List (W32 × Instr)),
    decodeSlot 3 e.1 = .ok e.2 := by
  decide

theorem test_decode_vector2 : ∀ e ∈ ([
    (0x816558B9#32, .vmul ⟨5, 37, 22, 11, 2, 1⟩),
    (0x856558B9#32, .vfma ⟨5, 37, 22, 11, 2, 1⟩),
    (0x896558B9#32, .vfms ⟨5, 37, 22, 11, 2, 1⟩),
    (0x8D6558B9#32, .vfnma ⟨5, 37, 22, 11, 2, 1⟩),
    (0x916558B5#32, .vimul ⟨5, 37, 22, 11, 1, 1⟩),
    (0x95655809#32, .vrcp ⟨5, 37, 22, 2, 1⟩),
    (0x99655809#32, .vrsq ⟨5, 37, 22, 2, 1⟩),
    (0x9D655809#32, .vsqrt ⟨5, 37, 22, 2, 1⟩),
    (0xA1655809#32, .vexp2 ⟨5, 37, 22, 2, 1⟩),
    (0xA5655809#32, .vlog2 ⟨5, 37, 22, 2, 1⟩),
    (0xA96558B9#32, .vdot ⟨5, 37, 22, 11, 2, 1⟩)] : List (W32 × Instr)),
    decodeSlot 3 e.1 = .ok e.2 := by
  decide

theorem test_decode_matrix : ∀ e ∈ ([
    (0x0165989A#32, .mma ⟨5, 2, 5, 9, 17, 6, 2⟩),
    (0x0565989A#32, .mmat ⟨5, 2, 5, 9, 17, 6, 2⟩),
    (0x0965989A#32, .mmaz ⟨5, 2, 5, 9, 17, 6, 2⟩),
    (0x0D65089A#32, .acld ⟨5, 2, 5, 17, 6, 2⟩),
    (0x1165089A#32, .acst ⟨5, 2, 5, 17, 6, 2⟩),
    (0x15600000#32, .acz ⟨5, 2⟩),
    (0x196A4685#32, .acrd ⟨5, 2, 41, 6, 133⟩),
    (0x1D6A4600#32, .acwr ⟨5, 2, 41, 6, 0⟩),
    (0x21600085#32, .acsc ⟨5, 2, 0, 133⟩),
    (0x25604001#32, .acmv ⟨5, 2, 1, 1⟩),
    (0x29600001#32, .acps ⟨5, 2, 0, 1⟩),
    (0x2D6A4000#32, .mprg ⟨5, 2, 41⟩)] : List (W32 × Instr)),
    decodeSlot 5 e.1 = .ok e.2 := by
  decide

theorem test_decode_engine : ∀ e ∈ ([
    (0x016269A1#32, .cpy ⟨5, 17, 6, 2, 13, 1⟩),
    (0x056269A1#32, .cpyc ⟨5, 17, 6, 2, 13, 1⟩),
    (0x096269A1#32, .cpyf ⟨5, 17, 6, 2, 13, 1⟩),
    (0x0D6269A1#32, .cpyk ⟨5, 17, 6, 2, 13, 1⟩),
    (0x116269A1#32, .cwait ⟨5, 17, 6, 2, 13, 1⟩),
    (0x156269B6#32, .cstat ⟨5, 17, 6, 2, 13, 2, 6⟩),
    (0x196269A0#32, .tstep ⟨5, 17, 6, 2, 13⟩),
    (0x1D6269A0#32, .tscale ⟨5, 17, 6, 2, 13⟩),
    (0x216269A0#32, .tread ⟨5, 17, 6, 2, 13⟩),
    (0x216269A1#32, .treadSync ⟨5, 17, 6, 2, 13⟩),
    (0x256269A0#32, .tcfg ⟨5, 17, 6, 2, 13⟩),
    (0x296269A0#32, .trst ⟨5, 17, 6, 2, 13⟩),
    (0x2D6269A0#32, .tsub ⟨5, 17, 6, 2, 13, 0⟩),
    (0x316269A0#32, .twait ⟨5, 17, 6, 2, 13⟩),
    (0x316269A1#32, .twaitAll ⟨5, 17, 6, 2, 13⟩),
    (0x356269A0#32, .semsAdd ⟨5, 17, 6, 2, 13⟩),
    (0x356269A1#32, .semsSet ⟨5, 17, 6, 2, 13⟩),
    (0x396269A0#32, .semw ⟨5, 17, 6, 2, 13⟩),
    (0x3D6269A0#32, .qinit ⟨5, 17, 6, 2, 13⟩),
    (0x3D6269B0#32, .qinitLoad ⟨5, 17, 6, 2, 13⟩),
    (0x416269A3#32, .qgate ⟨5, 17, 6, 2, 13, 3⟩),
    (0x456269A7#32, .qdiag ⟨5, 17, 6, 2, 13, 7⟩),
    (0x496269A2#32, .qswap ⟨5, 17, 6, 2, 13⟩),
    (0x4D6269A8#32, .qmeas ⟨5, 17, 6, 2, 13, 8⟩),
    (0x4D6269B8#32, .qmeasSamp ⟨5, 17, 6, 2, 13, 8⟩),
    (0x516269A0#32, .ruq ⟨5, 17, 6, 2, 13⟩),
    (0x556269A1#32, .rufl ⟨5, 17, 6, 2, 13, 1⟩),
    (0x596269A0#32, .occr ⟨5, 17, 6, 2, 13⟩),
    (0x596269A1#32, .occrClr ⟨5, 17, 6, 2, 13⟩),
    (0x5D626800#32, .kjoin ⟨5, 17, 6, 2⟩)] : List (W32 × Instr)),
    decodeSlot 6 e.1 = .ok e.2 := by
  decide

theorem test_decode_channel : ∀ e ∈ ([
    (0x016268D5#32, .send ⟨5, 17, 6, 35, 21⟩),
    (0x056268D5#32, .recv ⟨5, 17, 6, 35, 21⟩),
    (0x096268D5#32, .recvadd ⟨5, 17, 6, 35, 21⟩),
    (0x0D6268D5#32, .chst ⟨5, 17, 6, 35, 21⟩),
    (0x116268D5#32, .chopn ⟨5, 17, 6, 35, 21⟩),
    (0x156268C0#32, .chcl ⟨5, 17, 6, 35⟩),
    (0x196269A5#32, .coll ⟨5, 17, 6, 2, 13, 5⟩),
    (0x1D6269A0#32, .colw ⟨5, 17, 6, 2, 13⟩),
    (0x216269A1#32, .cola ⟨5, 17, 6, 2, 13, 1⟩),
    (0x256269A1#32, .barr ⟨5, 17, 6, 2, 13, 1⟩),
    (0x296269A1#32, .barx ⟨5, 17, 6, 2, 13, 1⟩),
    (0x2D6269A1#32, .barw ⟨5, 17, 6, 2, 13, 1⟩),
    (0x316269A0#32, .bariInit ⟨5, 17, 6, 2, 13⟩),
    (0x316269A1#32, .bariFree ⟨5, 17, 6, 2, 13⟩),
    (0x356269A0#32, .grpc ⟨5, 17, 6, 2, 13, 0⟩),
    (0x396269A0#32, .grpf ⟨5, 17, 6, 2, 13, 0⟩),
    (0x3D6269B8#32, .lnks ⟨5, 17, 6, 2, 13, 24⟩)] : List (W32 × Instr)),
    decodeSlot 7 e.1 = .ok e.2 := by
  decide

/-- Headers of no-operation bundles (03 R67, Table 3-1): all fields zero; RT, VJ, AU 3, BS 7, BE; a MASK or RSV bit set is none. -/
theorem test_decode_nop : decodeNop 0x00000000#32 = some (.nop ⟨0, 0, 0, 0, 0, 0⟩) ∧
    decodeNop 0x00158F00#32 = some (.nop ⟨1, 0, 1, 3, 7, 1⟩) ∧ decodeNop 0x00000001#32 = none ∧ decodeNop 0x00200000#32 = none := by
  decide

/-- Words the spec's worked examples print: 03 R102's line, Tables 4-9, 5-10, 6-13, 7-8, 8-9, 11-14, 12-16, 13-8, 14-5, 16-9, 18-8,
21-2 and 19 R485's example. -/
theorem test_decode_examples : ∀ e ∈ ([
    (0, 0x00031050#32, .add ⟨0, 3, 4, 5, 0, 0⟩), (1, 0x44861840#32, .addi ⟨2, 6, 6, 64⟩), (3, 0x00010BC0#32, .vadd ⟨0, 1, 2, 60, 0, 0⟩),
    (0, 0x60050002#32, .movi ⟨0, 5, 2⟩), (0, 0x98050302#32, .loopr ⟨0, 5, 3, 0, 2⟩), (1, 0x46871C01#32, .addi ⟨10, 7, 7, 1⟩),
    (0, 0xC8000000#32, .fin ⟨0, 0, 0⟩), (2, 0x30031000#32, .xlat ⟨0, 3, 4, 0⟩), (2, 0x18061028#32, .ldgv ⟨0, 6, 1, 40⟩),
    (2, 0x44001246#32, .atadd ⟨0, 0, 1, 9, 0, 3, 0⟩), (3, 0x5C01F00C#32, .vmts ⟨0, 1, 60, 0, 0⟩), (3, 0x440B2801#32, .vred ⟨0, 11, 10, 0, 0, 1⟩),
    (4, 0x440C2811#32, .vred ⟨0, 12, 10, 1, 0, 1⟩), (3, 0x800B2FC1#32, .vmul ⟨0, 11, 11, 60, 0, 1⟩),
    (3, 0x8C0C2CB1#32, .vfnma ⟨0, 12, 11, 11, 0, 1⟩), (5, 0x08101206#32, .mmaz ⟨0, 1, 0, 1, 4, 1, 2⟩), (5, 0x2C128000#32, .mprg ⟨0, 1, 10⟩),
    (5, 0x2812C000#32, .acps ⟨0, 1, 11, 0⟩), (5, 0x28100001#32, .acps ⟨0, 1, 0, 1⟩), (5, 0x1810C000#32, .acrd ⟨0, 1, 3, 0, 0⟩),
    (6, 0x00061540#32, .cpy ⟨0, 3, 1, 1, 10, 0⟩), (6, 0x100A01C0#32, .cwait ⟨0, 5, 0, 0, 14, 0⟩), (0, 0xA4001400#32, .waitk ⟨0, 5, 0, 0⟩),
    (6, 0x2C0200C0#32, .tsub ⟨0, 1, 0, 0, 6, 0⟩), (6, 0x300600E0#32, .twait ⟨0, 3, 0, 0, 7⟩), (0, 0xA8165150#32, .waitm ⟨0, 22, 20, 21, 0, 0⟩),
    (2, 0x10182028#32, .ldg ⟨0, 24, 2, 40⟩), (6, 0x1C0C00C0#32, .tscale ⟨0, 6, 0, 0, 6⟩), (0, 0xB01E7C00#32, .pres ⟨0, 30, 31, 0⟩),
    (2, 0x38051000#32, .probe ⟨0, 5, 4, 0, 0⟩), (2, 0x08061000#32, .ldv ⟨0, 6, 4, 0⟩), (7, 0x0004014A#32, .send ⟨0, 2, 0, 5, 10⟩),
    (7, 0x04000154#32, .recv ⟨0, 0, 0, 5, 20⟩), (0, 0x94050003#32, .loop ⟨0, 5, 3⟩), (7, 0x340200C0#32, .grpc ⟨0, 1, 0, 0, 6, 0⟩),
    (7, 0x180414E5#32, .coll ⟨0, 2, 1, 1, 7, 5⟩), (7, 0x18061500#32, .coll ⟨0, 3, 1, 1, 8, 0⟩), (6, 0x3C000140#32, .qinit ⟨0, 0, 0, 0, 10⟩),
    (6, 0x40000162#32, .qgate ⟨0, 0, 0, 0, 11, 2⟩), (6, 0x48000182#32, .qswap ⟨0, 0, 0, 0, 12⟩), (6, 0x440001C1#32, .qdiag ⟨0, 0, 0, 0, 14, 1⟩),
    (6, 0x4C0201E2#32, .qmeas ⟨0, 1, 0, 0, 15, 2⟩), (6, 0x180C00C0#32, .tstep ⟨0, 6, 0, 0, 6⟩), (2, 0x0A200400#32, .ldv ⟨8, 32, 1, 0⟩),
    (3, 0x832A9290#32, .vmul ⟨12, 42, 36, 41, 0, 0⟩), (4, 0x03D452D0#32, .vadd ⟨15, 20, 20, 45, 0, 0⟩), (2, 0x0C150C00#32, .stv ⟨0, 21, 3, 0⟩),
    (0, 0xB80540C0#32, .crr ⟨0, 5, 0x103, 0⟩)] : List (Nat × W32 × Instr)),
    decodeSlot e.1 e.2.1 = .ok e.2.2 := by decide +kernel

/-- A major that 03 Table 3-5 leaves unassigned at every position, a function code of ADD and a scope that are reserved. -/
theorem test_decode_refuses :
    ([0, 1, 2, 3, 4, 5, 6, 7].all fun p => (decodeSlot p 0xFC000000#32).toOption.isNone) = true ∧
    (decodeSlot 0 0x0003105C#32).toOption = none ∧ (decodeSlot 2 0x4400124C#32).toOption = none := by decide

/-! ### Ill-formed instructions: a code of each checked field that 03 R84 or the instruction's entry reserves; a name out of range -/

theorem test_wf_refuses_slots1 : ([
    Instr.add ⟨0, 3, 4, 5, 7, 0⟩, .add ⟨0, 3, 4, 5, 0, 1⟩, .sub ⟨0, 3, 4, 5, 7, 0⟩, .sub ⟨0, 3, 4, 5, 0, 1⟩,
    .and ⟨0, 3, 4, 5, 7, 0⟩, .and ⟨0, 3, 4, 5, 0, 1⟩, .or ⟨0, 3, 4, 5, 7, 0⟩, .or ⟨0, 3, 4, 5, 0, 1⟩,
    .xor ⟨0, 3, 4, 5, 7, 0⟩, .xor ⟨0, 3, 4, 5, 0, 1⟩, .andn ⟨0, 3, 4, 5, 7, 0⟩, .andn ⟨0, 3, 4, 5, 0, 1⟩,
    .shl ⟨0, 3, 4, 5, 7, 0⟩, .shl ⟨0, 3, 4, 5, 0, 1⟩, .shr ⟨0, 3, 4, 5, 7, 0⟩, .shr ⟨0, 3, 4, 5, 0, 1⟩,
    .sar ⟨0, 3, 4, 5, 7, 0⟩, .sar ⟨0, 3, 4, 5, 0, 1⟩, .rot ⟨0, 3, 4, 5, 7, 0⟩, .rot ⟨0, 3, 4, 5, 0, 1⟩,
    .min ⟨0, 3, 4, 5, 7, 0⟩, .min ⟨0, 3, 4, 5, 0, 1⟩, .max ⟨0, 3, 4, 5, 7, 0⟩, .max ⟨0, 3, 4, 5, 0, 1⟩,
    .minu ⟨0, 3, 4, 5, 7, 0⟩, .minu ⟨0, 3, 4, 5, 0, 1⟩, .maxu ⟨0, 3, 4, 5, 7, 0⟩, .maxu ⟨0, 3, 4, 5, 0, 1⟩,
    .mul ⟨0, 3, 4, 5, 7, 0⟩, .mul ⟨0, 3, 4, 5, 0, 1⟩, .mulh ⟨0, 3, 4, 5, 7, 0⟩, .mulh ⟨0, 3, 4, 5, 0, 1⟩,
    .mulhu ⟨0, 3, 4, 5, 7, 0⟩, .mulhu ⟨0, 3, 4, 5, 0, 1⟩, .sel ⟨0, 3, 4, 5, 0, 1⟩, .cmp ⟨0, 2, 4, 5, 15, 0, 0⟩,
    .cmp ⟨0, 2, 4, 5, 0, 0, 1⟩, .cmpi ⟨0, 2, 4, 0, 15⟩, .plog ⟨0, 2, 63, 5, 0, 0⟩, .plog ⟨0, 2, 4, 63, 0, 0⟩,
    .plog ⟨0, 2, 4, 5, 15, 0⟩, .plog ⟨0, 2, 4, 5, 0, 1⟩, .bitop ⟨0, 3, 4, 63, 0, 0⟩, .bitop ⟨0, 3, 4, 0, 7, 0⟩,
    .bitop ⟨0, 3, 4, 0, 0, 1⟩, .bfx ⟨0, 3, 4, 5, 7, 0⟩, .bfx ⟨0, 3, 4, 5, 0, 1⟩, .div ⟨0, 3, 4, 5, 7, 0⟩,
    .div ⟨0, 3, 4, 5, 0, 1⟩, .br ⟨0, 0, 1⟩, .jmp ⟨0, 4, 1⟩, .call ⟨0, 0, 1⟩].all fun i => !i.wf) = true := by decide +kernel

theorem test_wf_refuses_slots2 : ([
    Instr.ret ⟨0, 4, 1⟩, .loop ⟨0, 3, 0⟩, .loopr ⟨0, 6, 0, 0, 0⟩, .loopr ⟨0, 6, 4, 31, 0⟩,
    .lbrk ⟨0, 0, 1⟩, .audef ⟨0, 63, 5, 5, 2, 0⟩, .audef ⟨0, 1, 63, 5, 2, 0⟩, .audef ⟨0, 1, 5, 5, 2, 1⟩,
    .waitk ⟨0, 63, 1, 0⟩, .waitk ⟨0, 1, 63, 0⟩, .waitk ⟨0, 1, 1, 1⟩, .waitm ⟨0, 3, 4, 5, 7, 0⟩,
    .waitm ⟨0, 3, 4, 5, 0, 1⟩, .pres ⟨0, 3, 4, 1⟩, .presSkip ⟨0, 3, 4, 1⟩, .presMig ⟨0, 3, 4, 5, 1⟩,
    .pkill ⟨0, 3, 4, 1⟩, .crr ⟨0, 0, 0, 1⟩, .crw ⟨0, 0, 16, 1⟩, .icinv ⟨0, 4, 5, 7, 0⟩,
    .icinv ⟨0, 4, 5, 0, 1⟩, .fin ⟨0, 4, 1⟩, .movx ⟨0, 3, 63, 0⟩, .movx ⟨0, 3, 0, 1⟩,
    .movxK ⟨0, 3, 1⟩, .movp ⟨0, 3, 1⟩, .movpW ⟨0, 4, 1⟩, .ktst ⟨0, 2, 63, 0⟩,
    .ktst ⟨0, 2, 1, 1⟩, .ktstAll ⟨0, 2, 63, 3, 0⟩, .ktstAll ⟨0, 2, 1, 63, 0⟩, .ktstAll ⟨0, 2, 1, 3, 1⟩,
    .ldv ⟨0, 63, 4, 0⟩, .stv ⟨0, 63, 4, 0⟩, .ldg ⟨0, 3, 1, 1⟩, .ldgv ⟨0, 63, 1, 40⟩,
    .ldgv ⟨0, 3, 1, 1⟩, .stgv ⟨0, 63, 1⟩, .ldcv ⟨0, 63, 1, 40⟩, .ldcv ⟨0, 3, 1, 1⟩,
    .stcv ⟨0, 63, 1, 0⟩, .stcv ⟨0, 3, 1, 3⟩, .gath ⟨0, 63, 4, 61, 0, 0⟩, .gath ⟨0, 3, 4, 63, 0, 0⟩,
    .gath ⟨0, 3, 4, 61, 0, 1⟩, .scat ⟨0, 63, 4, 61, 0, 0⟩, .scat ⟨0, 3, 4, 63, 0, 0⟩, .scat ⟨0, 3, 4, 61, 0, 1⟩,
    .xlat ⟨0, 63, 4, 0⟩, .xlat ⟨0, 3, 4, 1⟩, .hrel ⟨0, 63, 0⟩, .hrel ⟨0, 3, 1⟩].all fun i => !i.wf) = true := by decide +kernel

theorem test_wf_refuses_slots3 : ([
    Instr.probe ⟨0, 3, 4, 0, 1⟩, .drain ⟨0, 7, 0⟩, .drain ⟨0, 0, 1⟩, .atadd ⟨0, 3, 1, 5, 4, 7, 0⟩,
    .atadd ⟨0, 3, 1, 5, 4, 0, 1⟩, .atmin ⟨0, 3, 1, 5, 4, 7, 0⟩, .atmin ⟨0, 3, 1, 5, 4, 0, 1⟩, .atmax ⟨0, 3, 1, 5, 4, 7, 0⟩,
    .atmax ⟨0, 3, 1, 5, 4, 0, 1⟩, .atand ⟨0, 3, 1, 5, 4, 7, 0⟩, .atand ⟨0, 3, 1, 5, 4, 0, 1⟩, .ator ⟨0, 3, 1, 5, 4, 7, 0⟩,
    .ator ⟨0, 3, 1, 5, 4, 0, 1⟩, .atxor ⟨0, 3, 1, 5, 4, 7, 0⟩, .atxor ⟨0, 3, 1, 5, 4, 0, 1⟩, .atxch ⟨0, 3, 1, 5, 4, 7, 0⟩,
    .atxch ⟨0, 3, 1, 5, 4, 0, 1⟩, .atcas ⟨0, 3, 1, 5, 4, 7, 0⟩, .atcas ⟨0, 3, 1, 5, 4, 0, 1⟩, .atld ⟨0, 3, 1, 63, 0, 0, 0⟩,
    .atld ⟨0, 3, 1, 0, 3, 0, 0⟩, .atld ⟨0, 3, 1, 0, 0, 7, 0⟩, .atld ⟨0, 3, 1, 0, 0, 0, 1⟩, .atst ⟨0, 1, 5, 3, 0, 0⟩,
    .atst ⟨0, 1, 5, 4, 7, 0⟩, .atst ⟨0, 1, 5, 4, 0, 1⟩, .ltag ⟨0, 3, 4, 1⟩, .gaths ⟨0, 63, 4, 61, 0, 0⟩,
    .gaths ⟨0, 3, 4, 63, 0, 0⟩, .gaths ⟨0, 3, 4, 61, 0, 1⟩, .scats ⟨0, 63, 4, 61, 0, 0⟩, .scats ⟨0, 3, 4, 63, 0, 0⟩,
    .scats ⟨0, 3, 4, 61, 0, 1⟩, .clfl ⟨0, 4, 5, 0, 1⟩, .clinv ⟨0, 4, 5, 1⟩, .pclr ⟨0, 4, 1⟩,
    .vadd ⟨0, 63, 4, 5, 0, 0⟩, .vadd ⟨0, 3, 63, 5, 0, 0⟩, .vadd ⟨0, 3, 4, 63, 0, 0⟩, .vadd ⟨0, 3, 4, 5, 3, 0⟩,
    .vsub ⟨0, 63, 4, 5, 0, 0⟩, .vsub ⟨0, 3, 63, 5, 0, 0⟩, .vsub ⟨0, 3, 4, 63, 0, 0⟩, .vsub ⟨0, 3, 4, 5, 3, 0⟩,
    .vmin ⟨0, 63, 4, 5, 0, 0⟩, .vmin ⟨0, 3, 63, 5, 0, 0⟩, .vmin ⟨0, 3, 4, 63, 0, 0⟩, .vmin ⟨0, 3, 4, 5, 3, 0⟩,
    .vmax ⟨0, 63, 4, 5, 0, 0⟩, .vmax ⟨0, 3, 63, 5, 0, 0⟩, .vmax ⟨0, 3, 4, 63, 0, 0⟩, .vmax ⟨0, 3, 4, 5, 3, 0⟩].all fun i => !i.wf) = true := by decide +kernel

theorem test_wf_refuses_slots4 : ([
    Instr.vuna ⟨0, 63, 4, 0, 0, 0⟩, .vuna ⟨0, 3, 63, 0, 0, 0⟩, .vuna ⟨0, 3, 4, 63, 0, 0⟩, .vuna ⟨0, 3, 4, 0, 3, 0⟩,
    .vand ⟨0, 63, 4, 5, 0, 0⟩, .vand ⟨0, 3, 63, 5, 0, 0⟩, .vand ⟨0, 3, 4, 63, 0, 0⟩, .vor ⟨0, 63, 4, 5, 0, 0⟩,
    .vor ⟨0, 3, 63, 5, 0, 0⟩, .vor ⟨0, 3, 4, 63, 0, 0⟩, .vxor ⟨0, 63, 4, 5, 0, 0⟩, .vxor ⟨0, 3, 63, 5, 0, 0⟩,
    .vxor ⟨0, 3, 4, 63, 0, 0⟩, .vshl ⟨0, 63, 4, 0, 0⟩, .vshl ⟨0, 3, 63, 0, 0⟩, .vshr ⟨0, 63, 4, 0, 0⟩,
    .vshr ⟨0, 3, 63, 0, 0⟩, .vsar ⟨0, 63, 4, 0, 0⟩, .vsar ⟨0, 3, 63, 0, 0⟩, .viadd ⟨0, 63, 4, 5, 0, 0⟩,
    .viadd ⟨0, 3, 63, 5, 0, 0⟩, .viadd ⟨0, 3, 4, 63, 0, 0⟩, .viadd ⟨0, 3, 4, 5, 2, 0⟩, .visub ⟨0, 63, 4, 5, 0, 0⟩,
    .visub ⟨0, 3, 63, 5, 0, 0⟩, .visub ⟨0, 3, 4, 63, 0, 0⟩, .visub ⟨0, 3, 4, 5, 2, 0⟩, .vcmp ⟨0, 3, 63, 5, 0, 0⟩,
    .vcmp ⟨0, 3, 4, 63, 0, 0⟩, .vcmp ⟨0, 3, 4, 5, 2, 0⟩, .vsel ⟨0, 63, 4, 5, 0, 0⟩, .vsel ⟨0, 3, 63, 5, 0, 0⟩,
    .vsel ⟨0, 3, 4, 63, 0, 0⟩, .vmov ⟨0, 63, 4, 0, 0⟩, .vmov ⟨0, 3, 63, 0, 0⟩, .vcvt ⟨0, 63, 4, 0, 1, 0⟩,
    .vcvt ⟨0, 3, 63, 0, 1, 0⟩, .vcvt ⟨0, 3, 4, 15, 1, 0⟩, .vcvt ⟨0, 3, 4, 0, 15, 0⟩, .vcvt ⟨0, 3, 4, 0, 1, 3⟩,
    .vred ⟨0, 63, 4, 0, 0, 0⟩, .vred ⟨0, 3, 63, 0, 0, 0⟩, .vred ⟨0, 3, 4, 63, 0, 0⟩, .vscan ⟨0, 63, 4, 0, 0, 0⟩,
    .vscan ⟨0, 3, 63, 0, 0, 0⟩, .vscan ⟨0, 3, 4, 63, 0, 0⟩, .vscan ⟨0, 3, 4, 0, 2, 0⟩, .vperm ⟨0, 63, 4, 5, 0⟩,
    .vperm ⟨0, 3, 63, 5, 0⟩, .vperm ⟨0, 3, 4, 63, 0⟩, .vshuf ⟨0, 63, 4, 0, 0⟩, .vshuf ⟨0, 3, 63, 0, 0⟩].all fun i => !i.wf) = true := by decide +kernel

theorem test_wf_refuses_slots5 : ([
    Instr.vshuf ⟨0, 3, 4, 255, 0⟩, .vrot ⟨0, 63, 4, 0, 0⟩, .vrot ⟨0, 3, 63, 0, 0⟩, .vrot ⟨0, 3, 4, 255, 0⟩,
    .vmsk ⟨0, 63, 4, 5, 0⟩, .vmsk ⟨0, 3, 63, 5, 0⟩, .vmsk ⟨0, 3, 4, 63, 0⟩, .vmts ⟨0, 63, 4, 5, 0⟩,
    .vmts ⟨0, 3, 63, 5, 0⟩, .vmts ⟨0, 3, 4, 63, 0⟩, .vseg ⟨0, 63, 4, 5, 0, 0⟩, .vseg ⟨0, 3, 63, 5, 0, 0⟩,
    .vseg ⟨0, 3, 4, 63, 0, 0⟩, .vseg ⟨0, 3, 4, 5, 2, 0⟩, .vbsc ⟨0, 63, 4, 5, 0, 0⟩, .vbsc ⟨0, 3, 63, 5, 0, 0⟩,
    .vbsc ⟨0, 3, 4, 63, 0, 0⟩, .vbsc ⟨0, 3, 4, 5, 3, 0⟩, .vqnt ⟨0, 63, 4, 0, 3, 0⟩, .vqnt ⟨0, 3, 63, 0, 3, 0⟩,
    .vqnt ⟨0, 3, 4, 15, 3, 0⟩, .vqnt ⟨0, 3, 4, 0, 15, 0⟩, .vqnt ⟨0, 3, 4, 0, 3, 3⟩, .vdqnt ⟨0, 63, 4, 3, 0, 0⟩,
    .vdqnt ⟨0, 3, 63, 3, 0, 0⟩, .vdqnt ⟨0, 3, 4, 15, 0, 0⟩, .vdqnt ⟨0, 3, 4, 3, 15, 0⟩, .vdqnt ⟨0, 3, 4, 3, 0, 3⟩,
    .vclmp ⟨0, 63, 4, 5, 0, 0⟩, .vclmp ⟨0, 3, 63, 5, 0, 0⟩, .vclmp ⟨0, 3, 4, 63, 0, 0⟩, .vimnx ⟨0, 63, 4, 5, 0, 0⟩,
    .vimnx ⟨0, 3, 63, 5, 0, 0⟩, .vimnx ⟨0, 3, 4, 63, 0, 0⟩, .vext ⟨0, 63, 4, 0, 0⟩, .vext ⟨0, 3, 63, 0, 0⟩,
    .vins ⟨0, 63, 4, 0, 0⟩, .vins ⟨0, 3, 63, 0, 0⟩, .vmul ⟨0, 63, 4, 5, 0, 0⟩, .vmul ⟨0, 3, 63, 5, 0, 0⟩,
    .vmul ⟨0, 3, 4, 63, 0, 0⟩, .vmul ⟨0, 3, 4, 5, 3, 0⟩, .vfma ⟨0, 63, 4, 5, 0, 0⟩, .vfma ⟨0, 3, 63, 5, 0, 0⟩,
    .vfma ⟨0, 3, 4, 63, 0, 0⟩, .vfma ⟨0, 3, 4, 5, 3, 0⟩, .vfms ⟨0, 63, 4, 5, 0, 0⟩, .vfms ⟨0, 3, 63, 5, 0, 0⟩,
    .vfms ⟨0, 3, 4, 63, 0, 0⟩, .vfms ⟨0, 3, 4, 5, 3, 0⟩, .vfnma ⟨0, 63, 4, 5, 0, 0⟩, .vfnma ⟨0, 3, 63, 5, 0, 0⟩].all fun i => !i.wf) = true := by decide +kernel

theorem test_wf_refuses_slots6 : ([
    Instr.vfnma ⟨0, 3, 4, 63, 0, 0⟩, .vfnma ⟨0, 3, 4, 5, 3, 0⟩, .vimul ⟨0, 63, 4, 5, 0, 0⟩, .vimul ⟨0, 3, 63, 5, 0, 0⟩,
    .vimul ⟨0, 3, 4, 63, 0, 0⟩, .vimul ⟨0, 3, 4, 5, 2, 0⟩, .vrcp ⟨0, 63, 4, 0, 0⟩, .vrcp ⟨0, 3, 63, 0, 0⟩,
    .vrcp ⟨0, 3, 4, 3, 0⟩, .vrsq ⟨0, 63, 4, 0, 0⟩, .vrsq ⟨0, 3, 63, 0, 0⟩, .vrsq ⟨0, 3, 4, 3, 0⟩,
    .vsqrt ⟨0, 63, 4, 0, 0⟩, .vsqrt ⟨0, 3, 63, 0, 0⟩, .vsqrt ⟨0, 3, 4, 3, 0⟩, .vexp2 ⟨0, 63, 4, 0, 0⟩,
    .vexp2 ⟨0, 3, 63, 0, 0⟩, .vexp2 ⟨0, 3, 4, 3, 0⟩, .vlog2 ⟨0, 63, 4, 0, 0⟩, .vlog2 ⟨0, 3, 63, 0, 0⟩,
    .vlog2 ⟨0, 3, 4, 3, 0⟩, .vdot ⟨0, 63, 4, 5, 0, 0⟩, .vdot ⟨0, 3, 63, 5, 0, 0⟩, .vdot ⟨0, 3, 4, 63, 0, 0⟩,
    .vdot ⟨0, 3, 4, 5, 3, 0⟩, .acrd ⟨0, 5, 63, 0, 0⟩, .acwr ⟨0, 5, 63, 0, 0⟩, .acsc ⟨0, 5, 63, 0⟩,
    .acsc ⟨0, 5, 3, 255⟩, .acps ⟨0, 5, 3, 1⟩, .cpy ⟨0, 3, 0, 0, 31, 0⟩, .cpyc ⟨0, 3, 0, 0, 31, 0⟩,
    .cpyf ⟨0, 3, 0, 0, 31, 0⟩, .cpyk ⟨0, 3, 0, 0, 31, 0⟩, .tsub ⟨0, 3, 0, 0, 10, 31⟩, .send ⟨0, 3, 0, 0, 63⟩,
    .recv ⟨0, 3, 0, 0, 63⟩, .recvadd ⟨0, 3, 0, 0, 63⟩, .coll ⟨0, 3, 0, 0, 10, 31⟩, .cola ⟨0, 3, 0, 0, 10, 31⟩,
    .grpc ⟨0, 3, 0, 0, 10, 31⟩, .grpf ⟨0, 3, 0, 0, 10, 31⟩, .lnks ⟨0, 3, 0, 0, 10, 31⟩].all fun i => !i.wf) = true := by decide +kernel

theorem test_wf_refuses_steps : ([
    Instr.bundleIssue 4160, .bundleIssue 3072, .resultLand 4160, .resultLand 3072,
    .waitmReread 4160, .waitmReread 3072, .matrixGroupRead 4160, .matrixGroupRead 3072,
    .fetchMissFill 4160, .fetchMissFill 3072, .translationWalkDone 4160 0, .translationWalkDone 3072 0,
    .translationWalkDone 0 32, .deltaMerge 384 0 0, .deltaMerge 0 64 0, .deltaMergeTimeout 384 0 0,
    .deltaMergeTimeout 0 64 0, .recordLeavesMetadataCache 0 64 0, .installRetry 64 0, .tensorCrossingPost 64 0,
    .channelElementArrive 64 0, .channelElementArrive 0 64, .channelCreditArrive 64 0, .channelCreditArrive 0 64,
    .remoteOpenMatch 64 0 ⟨0, 0, 0, 0, 0, 0, 0, 0⟩, .remoteOpenMatch 0 64 ⟨0, 0, 0, 0, 0, 0, 0, 0⟩, .deadlockDetect 64 [], .deadlockDetect 0 [3072],
    .barrierPhaseComplete 64 0, .barrierPhaseComplete 0 65536, .groupJoinReceive 64 0 ⟨0, 0, 0, 0⟩, .memberFailure 64 0 1 0,
    .memberFailure 0 0 0 0, .quarantineEnd 64 0, .l1LoadMiss 384 0, .l1StoreMiss 384 0,
    .l1Upgrade 384 0, .l1Eviction 384 0, .correctableError 4, .taskDispatch 3072,
    .reuseLookup 64 0, .reusePlaceComplete 64 0, .taskRetire 64 0, .contextCreate 64,
    .contextRun 64, .contextPreempt 64, .contextDestroy 64, .contextDestroyComplete 64,
    .cctlInvalidCommand 64 0, .partitionSaveComplete 3072, .saveComplete 64, .coreGate 384,
    .corePowerUp 384, .pageInComplete 64 0, .pageInComplete 0 16384, .pageOutComplete 64 0,
    .pageOutComplete 0 16384, .residencyStayExpire 64 0, .residencyStayExpire 0 16384, .bounceMerge 64 0,
    .bounceMerge 0 16384, .linkEnable 25, .linkDisable 25, .signalDetect 25,
    .linkTrained 25 ⟨0, 0, 0⟩, .trainingTimeout 25, .retryExhausted 25, .retrainDone 25,
    .retrainFail 25, .signalLost 25, .flitReceive 25 ⟨0, 0, true, none⟩, .flitResend 25,
    .packetAgeDiscard 25 0 0, .timeStampExchange 25 0, .debugStop 3072 0, .debugStep 3072,
    .debugRun 3072 0, .windowWrite 3072 0 0, .pmcWrite 384 0 0, .pmcWrite 0 16 0,
    .pmselWrite 384 0 0, .pmselWrite 0 16 0, .hostWrite (2 ^ 50) [0], .hostWrite 0 [],
    .hostRead (2 ^ 50) 1, .hostRead 0 0, .hostAtomic .add (2 ^ 50) 0 0 0, .registerWrite (2 ^ 50) 0,
    .tenantProvision 256 0, .tenantRelease 256 0].all fun i => !i.wf) = true := by decide +kernel

/-! ### Hypotheses of the other statements -/

/-- An issuer in a loop of five passes, at its first. -/
def inLoop (k : Nat) (rot : Bool) : State := (lab k []).modTh k fun t =>
  { t with loops := [{ start := 0x10000, stop := 0x10100, trips := 5, index := 0, rot, n := 5 }] }

theorem witness_ControlTransfer_lbrk :
    (Runs (inLoop 0 false) 0 (.lbrk ⟨0, 8, 0⟩)) ∧ Runs (inLoop 0 true) 0 (.lbrk ⟨0, 8, 0⟩) :=
  ⟨commits_of (by decide +kernel), commits_of (by decide +kernel)⟩

theorem witness_ScratchpadStoreBytes :
    (∀ w ∈ State.reset.unjoined, w.line ≠ 56 / 64) ∧ 56 % 64 + (bytesOf 8 1).length ≤ 64 := by decide

/-- A line that an armed watch has counted (11 R334). -/
theorem witness_watched :
    let s : State := { lab 0 [] with watchCnt := [(watchKey 0 0x1000, 1)] }
    1 < 384 ∧ physClass (0x1000 * 64) = .hbm ∧ s.watched 0x1000 = true :=
  ⟨by decide, by decide, by simp [State.watched, getD, List.range, List.range.loop]⟩

/-- The hypotheses of IssuerClasses, as a check. -/
def plainClass (u : State) (k pos : Nat) (i : Instr) : Bool :=
  legal i && ((slotOf i).map fun o => o.ill (oneIC u k pos (encWord i))) == some false

theorem plain_of {u : State} {k pos : Nat} {i : Instr} (h : plainClass u k pos i = true) :
    legal i = true ∧ ∀ o, slotOf i = some o → o.ill (oneIC u k pos (encWord i)) = false := by
  simp only [plainClass, Bool.and_eq_true, beq_iff_eq] at h
  exact ⟨h.1, fun o ho => by simpa [ho] using h.2⟩

/-- An instruction of each kind that IssuerClasses names. -/
def classed : List Instr := [
      Instr.lds ⟨0, 3, 4, 0⟩, .sts ⟨0, 3, 4, 0⟩, .ldv ⟨0, 3, 4, 0⟩, .stv ⟨0, 3, 4, 0⟩, .ldgv ⟨0, 3, 1, 40⟩, .ldcv ⟨0, 3, 1, 40⟩,
      .stgv ⟨0, 3, 1⟩, .stcv ⟨0, 3, 1, 0⟩, .gath ⟨0, 3, 4, 61, 0, 0⟩, .scat ⟨0, 3, 4, 61, 0, 0⟩, .gaths ⟨0, 3, 4, 61, 0, 0⟩,
      .scats ⟨0, 3, 4, 61, 0, 0⟩, .probe ⟨0, 3, 4, 0, 0⟩, .send ⟨0, 3, 0, 0, 3⟩, .recv ⟨0, 3, 0, 0, 3⟩, .recvadd ⟨0, 3, 0, 0, 3⟩,
      .loopr ⟨0, 6, 4, 0, 0⟩, .lbrk ⟨0, 0, 0⟩, .fin ⟨0, 4, 0⟩, .waitm ⟨0, 3, 4, 5, 0, 0⟩, .pres ⟨0, 3, 4, 0⟩, .presSkip ⟨0, 3, 4, 0⟩,
      .pkill ⟨0, 3, 4, 0⟩, .presMig ⟨0, 3, 4, 5, 0⟩, .tsub ⟨0, 3, 0, 0, 10, 0⟩, .grpc ⟨0, 3, 0, 0, 10, 0⟩, .grpf ⟨0, 3, 0, 0, 10, 0⟩,
      .twait ⟨0, 3, 0, 0, 10⟩, .twaitAll ⟨0, 3, 0, 0, 10⟩, .tscale ⟨0, 3, 0, 0, 10⟩, .tcfg ⟨0, 3, 0, 0, 10⟩, .occr ⟨0, 3, 0, 0, 10⟩,
      .occrClr ⟨0, 3, 0, 0, 10⟩, .qinit ⟨0, 3, 0, 0, 10⟩, .qinitLoad ⟨0, 3, 0, 0, 10⟩, .bariInit ⟨0, 3, 0, 0, 10⟩,
      .bariFree ⟨0, 3, 0, 0, 10⟩, .rufl ⟨0, 3, 0, 0, 10, 0⟩, .chopn ⟨0, 3, 0, 0, 3⟩, .pclr ⟨0, 4, 0⟩]

theorem witness_IssuerClasses : ∀ k ∈ [0, 4096], ∀ i ∈ classed,
    legal i = true ∧ ∀ o, slotOf i = some o → o.ill (oneIC (lab k []) k (placeOf i) (encWord i)) = false := by
  have h : ([0, 4096].all fun k => classed.all fun i => plainClass (lab k []) k (placeOf i) i) = true := by decide +kernel
  exact fun k hk i hi => plain_of (List.all_eq_true.1 (List.all_eq_true.1 h k hk) i hi)

/-- The clauses of IssueRules that judge a slot before its guard: an illegal code, and the three classes. -/
theorem witness_IssueRules_static :
    (legal (.add ⟨0, 3, 4, 5, 6, 0⟩) = false ∧ encode (.add ⟨0, 3, 4, 5, 6, 0⟩) = some (0, encWord (.add ⟨0, 3, 4, 5, 6, 0⟩)) ∧
      (slotOf (.add ⟨0, 3, 4, 5, 6, 0⟩)).isSome = true) ∧
    ((slotOf (.fin ⟨0, 4, 0⟩)).map SlotOp.whr = some .partOnly ∧ isCs 4096 = true) ∧
    ((slotOf (.waitm ⟨0, 3, 4, 5, 0, 0⟩)).map SlotOp.whr = some .csOnly ∧ isCs 0 = false ∧
      plainClass (lab 0 []) 0 0 (.waitm ⟨0, 3, 4, 5, 0, 0⟩) = true) ∧
    ((slotOf (.pclr ⟨0, 4, 0⟩)).map SlotOp.whr = some .firmware ∧ (lab 0 []).firmware 0 = false ∧
      plainClass (lab 0 []) 0 2 (.pclr ⟨0, 4, 0⟩) = true) := by decide +kernel

/-- An issuer whose handle 1 is pending. -/
def pendLab : State := (lab 0 [(17, 2 ^ 56)]).modTh 0 fun t => { t with hs := [(1, { st := .pending, va := 0x40000 })] }

/-- The issue of a slot that is not refused: what IssueRules asks of a false guard, and of a held slot. -/
def issueB (s : State) (k : Nat) (i : Instr) : Bool :=
  let c := oneIC (s.begun k) k (placeOf i) (encWord i)
  s.cur == k && issuesB s k && decide (((s.begun k).th k).pc % 64 ≤ 56) && !(((s.begun k).th k).inDelay && ((s.begun k).th k).atEnd) &&
  match slotOf i with
  | none => false
  | some o => !o.srcV.contains 60 && (slotStatic c (some o)).isNone && o.brk.isNone

theorem witness_IssueRules_run :
    (issueB (lab 0 []) 0 (.add ⟨5, 3, 4, 5, 0, 0⟩) = true ∧
      (slotOf (.add ⟨5, 3, 4, 5, 0, 0⟩)).map (fun o => o.on (((lab 0 []).begun 0).th 0)) = some false) ∧
    (issueB pendLab 0 (.ldg ⟨0, 3, 1, 40⟩) = true ∧
      (slotOf (.ldg ⟨0, 3, 1, 40⟩)).map (fun o => o.on ((pendLab.begun 0).th 0)) = some true ∧
      (slotOf (.ldg ⟨0, 3, 1, 40⟩)).bind (fun o =>
        slotEarly (oneIC (pendLab.begun 0) 0 2 (encWord (.ldg ⟨0, 3, 1, 40⟩))) o) = none ∧
      ((slotOf (.ldg ⟨0, 3, 1, 40⟩)).bind fun o =>
        slotHold (oneIC (pendLab.begun 0) 0 2 (encWord (.ldg ⟨0, 3, 1, 40⟩))) (some o)) = some 5) := by decide +kernel

/-- What ExceptionEntry asks of a slot that faults, before its guard or its holds (`late` false) or after them. -/
def faultsB (late : Bool) (s : State) (k : Nat) (i : Instr) : Bool :=
  let c := oneIC (s.begun k) k (placeOf i) (encWord i)
  s.cur == k && issuesB s k && decide (((s.begun k).th k).pc % 64 ≤ 56) && !(((s.begun k).th k).inDelay && ((s.begun k).th k).atEnd) &&
  ((s.begun k).th k).matStop.isNone && encode i == some (placeOf i, encWord i) &&
  match slotOf i with
  | none => false
  | some o => !o.srcV.contains 60 && o.brk.isNone &&
    (if late then (slotPre c (some o)).isNone && (slotHold c (some o)).isNone && (slotPost c (some o)).isSome
     else (slotPre c (some o)).isSome)

theorem witness_ExceptionEntry :
    (∀ k ∈ [0, 4096], faultsB false (lab k []) k (.add ⟨0, 3, 4, 5, 6, 0⟩) = true) ∧
    (∀ k ∈ [0, 4096], faultsB false (lab k [(17, 2 ^ 56 + 1)]) k (.ldg ⟨0, 3, 1, 40⟩) = true) ∧
    faultsB true (lab 0 [(17, 3 * 2 ^ 56)]) 0 (.ldg ⟨0, 3, 1, 40⟩) = true := by decide +kernel

theorem witness_RegisterFrame :
    (∀ e ∈ ([(0, [], .mul ⟨0, 3, 4, 5, 0, 0⟩), (0, [(3, 2)], .loop ⟨0, 3, 4⟩), (0, [], .vfma ⟨0, 3, 4, 5, 0, 0⟩),
        (0, [], .acwr ⟨0, 0, 3, 0, 5⟩), (4096, [], .add ⟨0, 3, 4, 5, 0, 0⟩)] : List (Nat × List (Nat × Nat) × Instr)),
      Runs (lab e.1 e.2.1) e.1 e.2.2) ∧
    (∀ k ∈ [0, 4096], (((lab k []).begun k).th k).matStop = none ∧ (((lab k []).begun k).th k).held = none) ∧
    ∀ i ∈ [Instr.mul ⟨0, 3, 4, 5, 0, 0⟩, .loop ⟨0, 3, 4⟩, .vfma ⟨0, 3, 4, 5, 0, 0⟩, .acwr ⟨0, 0, 3, 0, 5⟩, .add ⟨0, 3, 4, 5, 0, 0⟩],
      registerOnly i = true :=
  ⟨all_run (by decide +kernel), by decide +kernel, by decide⟩

theorem witness_ResultLanding : (63 ≠ 0 ∧ 62 ≠ 63) ∧ (15 ≠ 0 ∧ 15 < 16) ∧ (7 ≠ 0) ∧ (63 < 64) ∧ (3 ≠ (false).toNat) := by decide

/-- A package whose issuer k is in turn, with the words given at the place of its program counter in the cached line. -/
def turnLab (k at_ : Nat) (words : List Nat) : State :=
  { (lab k []).modTh k (fun t => { t with pc := 0x10000 + at_ }) with
    icache := [(if k < 4096 then 0 else 384, 0x400, (List.replicate at_ 0 ++ words.flatMap (bytesOf 4) ++ List.replicate 64 0).take 64)] }

/-- The bundle of issuer k that step reads, in the package's own names. -/
def fetched (k : Nat) (s : State) : Option (Nat × Nat) :=
  let u := ({ s with cur := k } : State).begun k
  let pc := (u.th k).pc
  (u.codePa k pc).bind fun pa => (u.icLine (u.tcore k) (pa / 64)).map fun l => (wordAt l (pc % 64), wordAt l (pc % 64 + 4))

theorem witness_StepRunsDecodedInstruction_slot : ∀ e ∈ ([(0, 0, .add ⟨0, 3, 4, 5, 0, 0⟩), (0, 56, .add ⟨0, 3, 4, 5, 0, 0⟩),
        (4096, 0, .hrel ⟨0, 3, 0⟩), (0, 0, .vadd ⟨0, 3, 4, 5, 0, 0⟩), (0, 0, .mma ⟨0, 0, 0, 1, 3, 0, 0⟩), (0, 0, .tstep ⟨0, 3, 0, 0, 10⟩),
        (0, 0, .send ⟨0, 3, 0, 0, 3⟩)] : List (Nat × Nat × Instr)),
      let s := turnLab e.1 e.2.1 [2 ^ placeOf e.2.2, (encWord e.2.2).toNat]
      s.agenda = [] ∧ s.turn = [e.1] ∧ fetched e.1 s = some (2 ^ placeOf e.2.2, (encWord e.2.2).toNat) ∧
      decodeAt (placeOf e.2.2) (BitVec.ofNat 32 (encWord e.2.2).toNat) = some e.2.2 := by decide +kernel

theorem witness_StepRunsDecodedInstruction_nop :
    (fetched 0 (turnLab 0 60 [0x9000])).map Prod.fst = some 0x9000 ∧ decodeNop 0x9000#32 = some (.nop (getNop 0x9000)) := by
  decide +kernel

/-- An issuer with rule 1, in a rotating loop. -/
def nopLab : State := (inLoop 0 true).modTh 0 fun t => { t with rules := [(1, { first := 3, count := 1, stride := 64 })] }

theorem witness_StepRunsDecodedInstruction_nopRuns :
    issuesB nopLab 0 = true ∧ ((nopLab.begun 0).th 0).pc % 64 + 4 * (1 + 1) ≤ 64 ∧
    (((nopLab.begun 0).th 0).inDelay && ((nopLab.begun 0).th 0).atEnd) = false ∧
    (((nopLab.begun 0).th 0).rules.find? fun e => e.1 == 1).isSome = true ∧ ((nopLab.begun 0).th 0).rotLoop.isSome = true := by
  decide +kernel

/-- A line not cached, and an address without code. -/
def missLab : State := { lab 0 [] with icache := [] }
def farLab : State := (lab 0 []).modTh 0 fun t => { t with pc := 0x10000000000 }
def fillLab : State := (lab 0 []).modTh 0 fun t => { t with missed := some 0x400, waitm := some (5, true) }

theorem witness_StepRunsDecodedInstruction_stops :
    (issuesB missLab 0 = true ∧ missLab.agenda = [] ∧ missLab.turn = [0] ∧
     ((missLab.begun 0).codePa 0 ((missLab.begun 0).th 0).pc).map
       (fun pa => (missLab.begun 0).icLine ((missLab.begun 0).tcore 0) (pa / 64)) = some none) ∧
    (issuesB farLab 0 = true ∧ farLab.turn = [0] ∧ (farLab.begun 0).codePa 0 ((farLab.begun 0).th 0).pc = none ∧
     ((farLab.begun 0).th 0).matStop = none) ∧
    ((fillLab.th 0).missed = some 0x400 ∧ (fillLab.codePa 0 0x10000).map (fun pa => fillLab.violates (fillLab.firmware 0) pa) = some false ∧
     (fillLab.th 0).waitm = some (5, true)) ∧
    State.isEvent (.correctableError 3) = true ∧ State.reset.agenda = [] ∧ State.reset.turn = [] := by decide +kernel

theorem witness_EncodeDecodeRoundTrip :
    ((Instr.add ⟨15, 63, 63, 63, 5, 1⟩).wf = true ∧ (encode (.add ⟨15, 63, 63, 63, 5, 1⟩)).isSome = true) ∧
    ((Instr.mma ⟨15, 3, 15, 15, 31, 31, 3⟩).wf = true ∧ (encode (.mma ⟨15, 3, 15, 15, 31, 31, 3⟩)).isSome = true) ∧
    decodeSlot 5 (encWord (.mma ⟨15, 3, 15, 15, 31, 31, 3⟩)) = .ok (.mma ⟨15, 3, 15, 15, 31, 31, 3⟩) ∧
    (decodeNop 0x9000#32).isSome = true := by decide +kernel

theorem witness_StepKeepsMemory : (lab 0 []).memWf = true ∧ (match step (lab 0 []) with
    | .next _ => true
    | _ => false) = true ∧ State.reset.memWf = true := by decide +kernel

theorem witness_ScalarArithmetic_commits : ∀ e ∈ ([
    (0, [], .add ⟨0, 3, 4, 5, 0, 0⟩),
    (0, [], .add ⟨0, 3, 4, 5, 1, 0⟩),
    (0, [], .add ⟨0, 3, 4, 5, 2, 0⟩),
    (0, [], .add ⟨0, 3, 4, 5, 3, 0⟩),
    (0, [], .add ⟨0, 3, 4, 5, 4, 0⟩),
    (0, [], .add ⟨0, 3, 4, 5, 5, 0⟩),
    (0, [], .sub ⟨0, 3, 4, 5, 0, 0⟩),
    (0, [], .and ⟨0, 3, 4, 5, 0, 0⟩),
    (0, [], .or ⟨0, 3, 4, 5, 0, 0⟩),
    (0, [], .xor ⟨0, 3, 4, 5, 0, 0⟩),
    (0, [], .andn ⟨0, 3, 4, 5, 0, 0⟩),
    (0, [], .shl ⟨0, 3, 4, 5, 0, 0⟩),
    (0, [], .shr ⟨0, 3, 4, 5, 0, 0⟩),
    (0, [], .sar ⟨0, 3, 4, 5, 0, 0⟩),
    (0, [], .rot ⟨0, 3, 4, 5, 0, 0⟩),
    (0, [], .min ⟨0, 3, 4, 5, 0, 0⟩),
    (0, [], .max ⟨0, 3, 4, 5, 0, 0⟩),
    (0, [], .minu ⟨0, 3, 4, 5, 0, 0⟩),
    (0, [], .maxu ⟨0, 3, 4, 5, 0, 0⟩),
    (0, [], .mul ⟨0, 3, 4, 5, 0, 0⟩),
    (0, [], .mulh ⟨0, 3, 4, 5, 0, 0⟩),
    (0, [], .mulhu ⟨0, 3, 4, 5, 0, 0⟩),
    (0, [], .addi ⟨0, 3, 4, 0⟩),
    (0, [], .andi ⟨0, 3, 4, 0⟩),
    (0, [], .ori ⟨0, 3, 4, 0⟩),
    (0, [], .xori ⟨0, 3, 4, 0⟩),
    (0, [], .shli ⟨0, 3, 4, 0⟩),
    (0, [], .shri ⟨0, 3, 4, 0⟩),
    (0, [], .sari ⟨0, 3, 4, 0⟩)] : List (Nat × List (Nat × Nat) × Instr)),
    Runs (lab e.1 e.2.1) e.1 e.2.2 :=
  all_run (by decide +kernel)

theorem witness_ScalarMoves_commits : ∀ e ∈ ([
    (0, [], .movi ⟨0, 3, 0⟩),
    (0, [], .movhi ⟨0, 3, 0⟩),
    (0, [], .sel ⟨0, 3, 4, 5, 0, 0⟩),
    (0, [], .bitop ⟨0, 3, 4, 0, 0, 0⟩),
    (0, [], .bitop ⟨0, 3, 4, 0, 1, 0⟩),
    (0, [], .bitop ⟨0, 3, 4, 0, 2, 0⟩),
    (0, [], .bitop ⟨0, 3, 4, 0, 3, 0⟩),
    (0, [], .bitop ⟨0, 3, 4, 0, 4, 0⟩),
    (0, [], .bitop ⟨0, 3, 4, 0, 5, 0⟩),
    (0, [], .bitop ⟨0, 3, 4, 0, 6, 0⟩),
    (0, [], .bfx ⟨0, 3, 4, 5, 0, 0⟩),
    (0, [(4, 255), (5, 2052)], .bfx ⟨0, 3, 4, 5, 1, 0⟩),
    (0, [(4, 255), (5, 2052)], .bfx ⟨0, 3, 4, 5, 2, 0⟩),
    (0, [], .div ⟨0, 3, 4, 5, 0, 0⟩),
    (0, [(4, 7), (5, 2)], .div ⟨0, 3, 4, 5, 0, 0⟩),
    (0, [(4, 7), (5, 2)], .div ⟨0, 3, 4, 5, 1, 0⟩),
    (0, [(4, 7), (5, 2)], .div ⟨0, 3, 4, 5, 2, 0⟩),
    (0, [(4, 7), (5, 2)], .div ⟨0, 3, 4, 5, 3, 0⟩)] : List (Nat × List (Nat × Nat) × Instr)),
    Runs (lab e.1 e.2.1) e.1 e.2.2 :=
  all_run (by decide +kernel)

theorem witness_PredicateResults_commits1 : ∀ e ∈ ([
    (0, [], .cmp ⟨0, 2, 4, 5, 0, 0, 0⟩),
    (0, [], .cmp ⟨0, 2, 4, 5, 1, 1, 0⟩),
    (0, [], .cmp ⟨0, 2, 4, 5, 2, 0, 0⟩),
    (0, [], .cmp ⟨0, 2, 4, 5, 3, 1, 0⟩),
    (0, [], .cmp ⟨0, 2, 4, 5, 4, 0, 0⟩),
    (0, [], .cmp ⟨0, 2, 4, 5, 5, 1, 0⟩),
    (0, [], .cmp ⟨0, 2, 4, 5, 6, 0, 0⟩),
    (0, [], .cmp ⟨0, 2, 4, 5, 7, 1, 0⟩),
    (0, [], .cmpi ⟨0, 2, 4, 0, 0⟩),
    (0, [], .cmpi ⟨0, 2, 4, 0, 1⟩),
    (0, [], .cmpi ⟨0, 2, 4, 0, 2⟩),
    (0, [], .cmpi ⟨0, 2, 4, 0, 3⟩),
    (0, [], .cmpi ⟨0, 2, 4, 0, 4⟩),
    (0, [], .cmpi ⟨0, 2, 4, 0, 5⟩),
    (0, [], .cmpi ⟨0, 2, 4, 0, 6⟩),
    (0, [], .cmpi ⟨0, 2, 4, 0, 7⟩),
    (0, [], .plog ⟨0, 2, 4, 5, 0, 0⟩),
    (0, [], .plog ⟨0, 2, 4, 5, 1, 0⟩),
    (0, [], .plog ⟨0, 2, 4, 5, 2, 0⟩),
    (0, [], .plog ⟨0, 2, 4, 5, 3, 0⟩),
    (0, [], .plog ⟨0, 2, 4, 5, 4, 0⟩),
    (0, [], .plog ⟨0, 2, 4, 5, 5, 0⟩),
    (0, [], .plog ⟨0, 2, 4, 5, 6, 0⟩),
    (0, [], .plog ⟨0, 2, 4, 0, 7, 0⟩),
    (0, [], .plog ⟨0, 2, 4, 0, 8, 0⟩),
    (0, [], .ktst ⟨0, 2, 1, 0⟩),
    (0, [], .ktstAll ⟨0, 2, 1, 3, 0⟩),
    (0, [], .movp ⟨0, 3, 0⟩),
    (0, [], .movpW ⟨0, 4, 0⟩),
    (0, [], .movx ⟨0, 3, 0, 0⟩)] : List (Nat × List (Nat × Nat) × Instr)),
    Runs (lab e.1 e.2.1) e.1 e.2.2 :=
  all_run (by decide +kernel)

theorem witness_PredicateResults_commits2 : ∀ e ∈ ([
    (0, [], .movxK ⟨0, 3, 0⟩)] : List (Nat × List (Nat × Nat) × Instr)),
    Runs (lab e.1 e.2.1) e.1 e.2.2 :=
  all_run (by decide +kernel)

theorem witness_ScalarNeverStalls_commits1 : ∀ e ∈ ([
    (0, [], .add ⟨0, 3, 4, 5, 0, 0⟩),
    (0, [], .add ⟨0, 3, 4, 5, 1, 0⟩),
    (0, [], .add ⟨0, 3, 4, 5, 2, 0⟩),
    (0, [], .add ⟨0, 3, 4, 5, 3, 0⟩),
    (0, [], .add ⟨0, 3, 4, 5, 4, 0⟩),
    (0, [], .add ⟨0, 3, 4, 5, 5, 0⟩),
    (0, [], .sub ⟨0, 3, 4, 5, 0, 0⟩),
    (0, [], .and ⟨0, 3, 4, 5, 0, 0⟩),
    (0, [], .or ⟨0, 3, 4, 5, 0, 0⟩),
    (0, [], .xor ⟨0, 3, 4, 5, 0, 0⟩),
    (0, [], .andn ⟨0, 3, 4, 5, 0, 0⟩),
    (0, [], .shl ⟨0, 3, 4, 5, 0, 0⟩),
    (0, [], .shr ⟨0, 3, 4, 5, 0, 0⟩),
    (0, [], .sar ⟨0, 3, 4, 5, 0, 0⟩),
    (0, [], .rot ⟨0, 3, 4, 5, 0, 0⟩),
    (0, [], .min ⟨0, 3, 4, 5, 0, 0⟩),
    (0, [], .max ⟨0, 3, 4, 5, 0, 0⟩),
    (0, [], .minu ⟨0, 3, 4, 5, 0, 0⟩),
    (0, [], .maxu ⟨0, 3, 4, 5, 0, 0⟩),
    (0, [], .mul ⟨0, 3, 4, 5, 0, 0⟩),
    (0, [], .mulh ⟨0, 3, 4, 5, 0, 0⟩),
    (0, [], .mulhu ⟨0, 3, 4, 5, 0, 0⟩),
    (0, [], .sel ⟨0, 3, 4, 5, 0, 0⟩),
    (0, [], .bitop ⟨0, 3, 4, 0, 0, 0⟩),
    (0, [], .bitop ⟨0, 3, 4, 0, 1, 0⟩),
    (0, [], .bitop ⟨0, 3, 4, 0, 2, 0⟩),
    (0, [], .bitop ⟨0, 3, 4, 0, 3, 0⟩),
    (0, [], .bitop ⟨0, 3, 4, 0, 4, 0⟩),
    (0, [], .bitop ⟨0, 3, 4, 0, 5, 0⟩),
    (0, [], .bitop ⟨0, 3, 4, 0, 6, 0⟩)] : List (Nat × List (Nat × Nat) × Instr)),
    Runs (lab e.1 e.2.1) e.1 e.2.2 :=
  all_run (by decide +kernel)

theorem witness_ScalarNeverStalls_commits2 : ∀ e ∈ ([
    (0, [], .bfx ⟨0, 3, 4, 5, 0, 0⟩),
    (0, [(4, 255), (5, 2052)], .bfx ⟨0, 3, 4, 5, 1, 0⟩),
    (0, [(4, 255), (5, 2052)], .bfx ⟨0, 3, 4, 5, 2, 0⟩),
    (0, [], .div ⟨0, 3, 4, 5, 0, 0⟩),
    (0, [(4, 7), (5, 2)], .div ⟨0, 3, 4, 5, 0, 0⟩),
    (0, [(4, 7), (5, 2)], .div ⟨0, 3, 4, 5, 1, 0⟩),
    (0, [(4, 7), (5, 2)], .div ⟨0, 3, 4, 5, 2, 0⟩),
    (0, [(4, 7), (5, 2)], .div ⟨0, 3, 4, 5, 3, 0⟩),
    (0, [], .addi ⟨0, 3, 4, 0⟩),
    (0, [], .andi ⟨0, 3, 4, 0⟩),
    (0, [], .ori ⟨0, 3, 4, 0⟩),
    (0, [], .xori ⟨0, 3, 4, 0⟩),
    (0, [], .shli ⟨0, 3, 4, 0⟩),
    (0, [], .shri ⟨0, 3, 4, 0⟩),
    (0, [], .sari ⟨0, 3, 4, 0⟩),
    (0, [], .movi ⟨0, 3, 0⟩),
    (0, [], .movhi ⟨0, 3, 0⟩),
    (0, [], .cmp ⟨0, 2, 4, 5, 0, 0, 0⟩),
    (0, [], .cmp ⟨0, 2, 4, 5, 1, 1, 0⟩),
    (0, [], .cmp ⟨0, 2, 4, 5, 2, 0, 0⟩),
    (0, [], .cmp ⟨0, 2, 4, 5, 3, 1, 0⟩),
    (0, [], .cmp ⟨0, 2, 4, 5, 4, 0, 0⟩),
    (0, [], .cmp ⟨0, 2, 4, 5, 5, 1, 0⟩),
    (0, [], .cmp ⟨0, 2, 4, 5, 6, 0, 0⟩),
    (0, [], .cmp ⟨0, 2, 4, 5, 7, 1, 0⟩),
    (0, [], .cmpi ⟨0, 2, 4, 0, 0⟩),
    (0, [], .cmpi ⟨0, 2, 4, 0, 1⟩),
    (0, [], .cmpi ⟨0, 2, 4, 0, 2⟩),
    (0, [], .cmpi ⟨0, 2, 4, 0, 3⟩),
    (0, [], .cmpi ⟨0, 2, 4, 0, 4⟩)] : List (Nat × List (Nat × Nat) × Instr)),
    Runs (lab e.1 e.2.1) e.1 e.2.2 :=
  all_run (by decide +kernel)

theorem witness_ScalarNeverStalls_commits3 : ∀ e ∈ ([
    (0, [], .cmpi ⟨0, 2, 4, 0, 5⟩),
    (0, [], .cmpi ⟨0, 2, 4, 0, 6⟩),
    (0, [], .cmpi ⟨0, 2, 4, 0, 7⟩),
    (0, [], .plog ⟨0, 2, 4, 5, 0, 0⟩),
    (0, [], .plog ⟨0, 2, 4, 5, 1, 0⟩),
    (0, [], .plog ⟨0, 2, 4, 5, 2, 0⟩),
    (0, [], .plog ⟨0, 2, 4, 5, 3, 0⟩),
    (0, [], .plog ⟨0, 2, 4, 5, 4, 0⟩),
    (0, [], .plog ⟨0, 2, 4, 5, 5, 0⟩),
    (0, [], .plog ⟨0, 2, 4, 5, 6, 0⟩),
    (0, [], .plog ⟨0, 2, 4, 0, 7, 0⟩),
    (0, [], .plog ⟨0, 2, 4, 0, 8, 0⟩),
    (0, [], .ktst ⟨0, 2, 1, 0⟩),
    (0, [], .ktstAll ⟨0, 2, 1, 3, 0⟩),
    (0, [], .movp ⟨0, 3, 0⟩),
    (0, [], .movxK ⟨0, 3, 0⟩),
    (0, [], .movpW ⟨0, 4, 0⟩),
    (0, [], .movx ⟨0, 3, 0, 0⟩)] : List (Nat × List (Nat × Nat) × Instr)),
    Runs (lab e.1 e.2.1) e.1 e.2.2 :=
  all_run (by decide +kernel)

theorem witness_ControlTransfer_commits : ∀ e ∈ ([
    (0, [], .br ⟨0, 0, 0⟩),
    (0, [(4, 65536)], .jmp ⟨0, 4, 0⟩),
    (0, [(4, 65536)], .ret ⟨0, 4, 0⟩),
    (0, [], .call ⟨0, 0, 0⟩)] : List (Nat × List (Nat × Nat) × Instr)),
    Runs (lab e.1 e.2.1) e.1 e.2.2 :=
  all_run (by decide +kernel)

theorem witness_LoopsAndRules_commits : ∀ e ∈ ([
    (0, [(3, 2)], .loop ⟨0, 3, 4⟩),
    (0, [(3, 0)], .loop ⟨0, 3, 4⟩),
    (0, [(6, 2)], .loopr ⟨0, 6, 4, 0, 0⟩),
    (0, [(6, 0)], .loopr ⟨0, 6, 4, 0, 0⟩),
    (0, [(5, 64)], .audef ⟨0, 1, 5, 5, 2, 0⟩)] : List (Nat × List (Nat × Nat) × Instr)),
    Runs (lab e.1 e.2.1) e.1 e.2.2 :=
  all_run (by decide +kernel)

theorem witness_WaitAndFin_commits : ∀ e ∈ ([
    (0, [], .waitk ⟨0, 1, 1, 0⟩),
    (4096, [(4, 262144), (5, 0)], .waitm ⟨0, 3, 4, 5, 0, 0⟩),
    (0, [], .fin ⟨0, 4, 0⟩)] : List (Nat × List (Nat × Nat) × Instr)),
    Runs (lab e.1 e.2.1) e.1 e.2.2 :=
  all_run (by decide +kernel)

theorem witness_SystemResults_commits : ∀ e ∈ ([
    (0, [], .crr ⟨0, 0, 0, 0⟩),
    (0, [], .crw ⟨0, 0, 16, 0⟩),
    (0, [], .icinv ⟨0, 4, 5, 0, 0⟩),
    (4096, [(4, 0)], .pres ⟨0, 3, 4, 0⟩),
    (4096, [(4, 0)], .presSkip ⟨0, 3, 4, 0⟩),
    (4096, [(4, 0), (5, 1)], .presMig ⟨0, 3, 4, 5, 0⟩),
    (4096, [(4, 0)], .pkill ⟨0, 3, 4, 0⟩)] : List (Nat × List (Nat × Nat) × Instr)),
    Runs (lab e.1 e.2.1) e.1 e.2.2 :=
  all_run (by decide +kernel)

theorem witness_ScratchpadAccess_commits : ∀ e ∈ ([
    (0, [], .lds ⟨0, 3, 4, 0⟩),
    (0, [], .sts ⟨0, 3, 4, 0⟩),
    (0, [], .ldv ⟨0, 3, 4, 0⟩),
    (0, [], .stv ⟨0, 3, 4, 0⟩),
    (0, [(4, 64)], .gaths ⟨0, 3, 4, 61, 0, 0⟩),
    (0, [(4, 64)], .scats ⟨0, 3, 4, 61, 0, 0⟩),
    (0, [(4, 64)], .probe ⟨0, 3, 4, 0, 0⟩),
    (0, [(4, 64)], .probe ⟨0, 3, 4, 1, 0⟩)] : List (Nat × List (Nat × Nat) × Instr)),
    Runs (lab e.1 e.2.1) e.1 e.2.2 :=
  all_run (by decide +kernel)

theorem witness_GlobalAccess_commits : ∀ e ∈ ([
    (0, [(17, 72057594037927936)], .ldg ⟨0, 3, 1, 40⟩),
    (0, [(17, 72057594037927936)], .stg ⟨0, 3, 1⟩),
    (0, [(17, 72057594037927936)], .ldgv ⟨0, 3, 1, 40⟩),
    (0, [(17, 72057594037927936)], .stgv ⟨0, 3, 1⟩),
    (0, [(4, 72057594037927936)], .gath ⟨0, 3, 4, 61, 0, 0⟩),
    (0, [(4, 72057594037927936)], .scat ⟨0, 3, 4, 61, 0, 0⟩),
    (0, [(17, 144115188075855872)], .ldcv ⟨0, 3, 1, 40⟩),
    (0, [(17, 144115188075855872)], .stcv ⟨0, 3, 1, 0⟩)] : List (Nat × List (Nat × Nat) × Instr)),
    Runs (lab e.1 e.2.1) e.1 e.2.2 :=
  all_run (by decide +kernel)

theorem witness_AtomicsSent_commits : ∀ e ∈ ([
    (0, [(17, 72057594037927936)], .atadd ⟨0, 3, 1, 5, 4, 0, 0⟩),
    (0, [(17, 72057594037927936)], .atmin ⟨0, 3, 1, 5, 4, 0, 0⟩),
    (0, [(17, 72057594037927936)], .atmax ⟨0, 3, 1, 5, 4, 0, 0⟩),
    (0, [(17, 72057594037927936)], .atand ⟨0, 3, 1, 5, 4, 0, 0⟩),
    (0, [(17, 72057594037927936)], .ator ⟨0, 3, 1, 5, 4, 0, 0⟩),
    (0, [(17, 72057594037927936)], .atxor ⟨0, 3, 1, 5, 4, 0, 0⟩),
    (0, [(17, 72057594037927936)], .atxch ⟨0, 3, 1, 5, 4, 0, 0⟩),
    (0, [(17, 72057594037927936)], .atcas ⟨0, 3, 1, 5, 4, 0, 0⟩),
    (0, [(17, 72057594037927936)], .atld ⟨0, 3, 1, 0, 0, 0, 0⟩),
    (0, [(17, 72057594037927936)], .atst ⟨0, 1, 5, 4, 0, 0⟩)] : List (Nat × List (Nat × Nat) × Instr)),
    Runs (lab e.1 e.2.1) e.1 e.2.2 :=
  all_run (by decide +kernel)

theorem witness_TranslationAndOrder_commits : ∀ e ∈ ([
    (0, [(4, 262144)], .xlat ⟨0, 3, 4, 0⟩),
    (0, [], .hrel ⟨0, 3, 0⟩),
    (0, [(4, 72057594037927936)], .ltag ⟨0, 3, 4, 0⟩),
    (0, [(17, 72057594037927936)], .pref ⟨0, 0, 1, 1⟩),
    (0, [(17, 0)], .pref ⟨0, 0, 1, 1⟩),
    (0, [], .drain ⟨0, 0, 0⟩),
    (0, [(4, 72057594037927936), (5, 1)], .clfl ⟨0, 4, 5, 0, 0⟩),
    (0, [(4, 72057594037927936), (5, 1)], .clinv ⟨0, 4, 5, 0⟩),
    (4096, [(4, 0)], .pclr ⟨0, 4, 0⟩)] : List (Nat × List (Nat × Nat) × Instr)),
    Runs (lab e.1 e.2.1) e.1 e.2.2 :=
  all_run (by decide +kernel)

theorem witness_VectorLanes_commits1 : ∀ e ∈ ([
    (0, [], .vadd ⟨0, 3, 4, 5, 0, 0⟩),
    (0, [], .vsub ⟨0, 3, 4, 5, 0, 0⟩),
    (0, [], .vmin ⟨0, 3, 4, 5, 0, 0⟩),
    (0, [], .vmax ⟨0, 3, 4, 5, 0, 0⟩),
    (0, [], .vmul ⟨0, 3, 4, 5, 0, 0⟩),
    (0, [], .vfma ⟨0, 3, 4, 5, 0, 0⟩),
    (0, [], .vfms ⟨0, 3, 4, 5, 0, 0⟩),
    (0, [], .vfnma ⟨0, 3, 4, 5, 0, 0⟩),
    (0, [], .vuna ⟨0, 3, 4, 0, 0, 0⟩),
    (0, [], .vuna ⟨0, 3, 4, 1, 0, 0⟩),
    (0, [], .vuna ⟨0, 3, 4, 2, 0, 0⟩),
    (0, [], .vuna ⟨0, 3, 4, 3, 0, 0⟩),
    (0, [], .vuna ⟨0, 3, 4, 4, 0, 0⟩),
    (0, [], .vuna ⟨0, 3, 4, 5, 3, 0⟩),
    (0, [], .vuna ⟨0, 3, 4, 6, 3, 0⟩),
    (0, [], .vuna ⟨0, 3, 4, 7, 3, 0⟩),
    (0, [], .vclmp ⟨0, 3, 4, 5, 0, 0⟩),
    (0, [], .vclmp ⟨0, 3, 4, 5, 3, 0⟩),
    (0, [], .vand ⟨0, 3, 4, 5, 0, 0⟩),
    (0, [], .vor ⟨0, 3, 4, 5, 0, 0⟩),
    (0, [], .vxor ⟨0, 3, 4, 5, 0, 0⟩),
    (0, [], .viadd ⟨0, 3, 4, 5, 0, 0⟩),
    (0, [], .viadd ⟨0, 3, 4, 5, 1, 0⟩),
    (0, [], .viadd ⟨0, 3, 4, 5, 3, 0⟩),
    (0, [], .visub ⟨0, 3, 4, 5, 0, 0⟩),
    (0, [], .visub ⟨0, 3, 4, 5, 1, 0⟩),
    (0, [], .visub ⟨0, 3, 4, 5, 3, 0⟩),
    (0, [], .vimul ⟨0, 3, 4, 5, 0, 0⟩),
    (0, [], .vimul ⟨0, 3, 4, 5, 1, 0⟩),
    (0, [], .vimul ⟨0, 3, 4, 5, 3, 0⟩)] : List (Nat × List (Nat × Nat) × Instr)),
    Runs (lab e.1 e.2.1) e.1 e.2.2 :=
  all_run (by decide +kernel)

theorem witness_VectorLanes_commits2 : ∀ e ∈ ([
    (0, [], .vimnx ⟨0, 3, 4, 5, 0, 0⟩),
    (0, [], .vimnx ⟨0, 3, 4, 5, 1, 0⟩),
    (0, [], .vimnx ⟨0, 3, 4, 5, 2, 0⟩),
    (0, [], .vimnx ⟨0, 3, 4, 5, 3, 0⟩),
    (0, [], .vsel ⟨0, 3, 4, 5, 0, 0⟩),
    (0, [], .vshl ⟨0, 3, 4, 0, 0⟩),
    (0, [], .vshr ⟨0, 3, 4, 0, 0⟩),
    (0, [], .vsar ⟨0, 3, 4, 0, 0⟩),
    (0, [], .vmov ⟨0, 3, 4, 0, 0⟩),
    (0, [], .vrcp ⟨0, 3, 4, 0, 0⟩),
    (0, [], .vrsq ⟨0, 3, 4, 0, 0⟩),
    (0, [], .vsqrt ⟨0, 3, 4, 0, 0⟩),
    (0, [], .vexp2 ⟨0, 3, 4, 0, 0⟩),
    (0, [], .vlog2 ⟨0, 3, 4, 0, 0⟩)] : List (Nat × List (Nat × Nat) × Instr)),
    Runs (lab e.1 e.2.1) e.1 e.2.2 :=
  all_run (by decide +kernel)

theorem witness_VectorMasks_commits : ∀ e ∈ ([
    (0, [], .vcmp ⟨0, 3, 4, 5, 0, 0⟩),
    (0, [], .vmsk ⟨0, 3, 4, 5, 0⟩),
    (0, [], .vmsk ⟨0, 8, 4, 5, 0⟩),
    (0, [], .vmts ⟨0, 3, 4, 5, 0⟩),
    (0, [], .vmts ⟨0, 3, 4, 1, 0⟩),
    (0, [], .vmts ⟨0, 3, 4, 2, 0⟩),
    (0, [], .vmts ⟨0, 3, 4, 3, 0⟩),
    (0, [], .vmts ⟨0, 3, 4, 4, 0⟩)] : List (Nat × List (Nat × Nat) × Instr)),
    Runs (lab e.1 e.2.1) e.1 e.2.2 :=
  all_run (by decide +kernel)

theorem witness_VectorWhole_commits : ∀ e ∈ ([
    (0, [], .vcvt ⟨0, 3, 4, 0, 1, 0⟩),
    (0, [], .vcvt ⟨0, 3, 4, 0, 1, 2⟩),
    (0, [], .vqnt ⟨0, 3, 4, 0, 3, 0⟩),
    (0, [], .vqnt ⟨0, 3, 4, 0, 3, 2⟩),
    (0, [], .vdqnt ⟨0, 3, 4, 3, 0, 0⟩),
    (0, [], .vbsc ⟨0, 3, 4, 5, 0, 0⟩),
    (0, [], .vred ⟨0, 3, 4, 0, 0, 0⟩),
    (0, [], .vred ⟨0, 3, 4, 2, 3, 0⟩),
    (0, [], .vred ⟨0, 3, 4, 3, 3, 0⟩),
    (0, [], .vdot ⟨0, 3, 4, 5, 0, 0⟩),
    (0, [], .vscan ⟨0, 3, 4, 0, 0, 0⟩),
    (0, [], .vscan ⟨0, 3, 4, 2, 0, 0⟩),
    (0, [], .vseg ⟨0, 3, 4, 5, 0, 0⟩),
    (0, [], .vperm ⟨0, 3, 4, 5, 0⟩),
    (0, [], .vshuf ⟨0, 3, 4, 0, 0⟩),
    (0, [], .vshuf ⟨0, 3, 4, 64, 0⟩),
    (0, [], .vshuf ⟨0, 3, 4, 128, 0⟩),
    (0, [], .vshuf ⟨0, 3, 4, 192, 0⟩),
    (0, [], .vrot ⟨0, 3, 4, 0, 0⟩),
    (0, [], .vrot ⟨0, 3, 4, 64, 0⟩),
    (0, [], .vrot ⟨0, 3, 4, 128, 0⟩),
    (0, [], .vext ⟨0, 3, 4, 0, 0⟩),
    (0, [], .vext ⟨0, 3, 4, 63, 0⟩),
    (0, [], .vins ⟨0, 3, 4, 0, 0⟩)] : List (Nat × List (Nat × Nat) × Instr)),
    Runs (lab e.1 e.2.1) e.1 e.2.2 :=
  all_run (by decide +kernel)

theorem witness_MatrixIssue_commits : ∀ e ∈ ([
    (0, [(33, 16), (35, 16)], .mma ⟨0, 1, 0, 1, 3, 0, 0⟩),
    (0, [(33, 16), (35, 16)], .mmat ⟨0, 1, 0, 1, 3, 0, 0⟩),
    (0, [(33, 16), (35, 16)], .mmaz ⟨0, 1, 0, 1, 3, 0, 0⟩)] : List (Nat × List (Nat × Nat) × Instr)),
    Runs (lab e.1 e.2.1) e.1 e.2.2 :=
  all_run (by decide +kernel)

theorem witness_AccumulatorResults_commits : ∀ e ∈ ([
    (0, [], .acz ⟨0, 5⟩),
    (0, [], .acrd ⟨0, 5, 3, 0, 0⟩),
    (0, [], .acrd ⟨0, 5, 3, 0, 64⟩),
    (0, [], .acwr ⟨0, 5, 3, 0, 0⟩),
    (0, [], .acwr ⟨0, 5, 3, 0, 64⟩),
    (0, [], .acwr ⟨0, 5, 3, 0, 128⟩),
    (0, [], .acsc ⟨0, 5, 3, 0⟩),
    (0, [], .acsc ⟨0, 5, 3, 64⟩),
    (0, [], .acsc ⟨0, 5, 0, 128⟩),
    (0, [], .acmv ⟨0, 5, 3, 0⟩),
    (0, [], .acmv ⟨0, 5, 1, 1⟩),
    (0, [], .acmv ⟨0, 1, 1, 0⟩),
    (0, [], .acps ⟨0, 5, 3, 0⟩),
    (0, [], .acps ⟨0, 5, 0, 1⟩),
    (0, [], .mprg ⟨0, 5, 3⟩)] : List (Nat × List (Nat × Nat) × Instr)),
    Runs (lab e.1 e.2.1) e.1 e.2.2 :=
  all_run (by decide +kernel)

theorem witness_BankTransfers_commits : ∀ e ∈ ([
    (0, [(32, 72057594037927936), (33, 0)], .acld ⟨0, 1, 0, 3, 0, 0⟩),
    (0, [(32, 0), (33, 64)], .acld ⟨0, 1, 0, 3, 0, 0⟩),
    (0, [(32, 72057594037927936), (33, 0)], .acst ⟨0, 1, 0, 3, 0, 0⟩),
    (0, [(32, 0), (33, 64)], .acst ⟨0, 1, 0, 3, 0, 0⟩)] : List (Nat × List (Nat × Nat) × Instr)),
    Runs (lab e.1 e.2.1) e.1 e.2.2 :=
  all_run (by decide +kernel)

theorem witness_EngineCommandsAccepted_commits1 : ∀ e ∈ ([
    (0, [], .tstep ⟨0, 3, 0, 0, 10⟩),
    (4096, [(21, 512)], .tscale ⟨0, 3, 0, 0, 10⟩),
    (0, [(21, 72057594037927936)], .tread ⟨0, 3, 0, 0, 10⟩),
    (0, [(21, 72057594037927936)], .treadSync ⟨0, 3, 0, 0, 10⟩),
    (4096, [(21, 72057594037927936)], .tcfg ⟨0, 3, 0, 0, 10⟩),
    (0, [], .trst ⟨0, 3, 0, 0, 10⟩),
    (4096, [], .twait ⟨0, 3, 0, 0, 10⟩),
    (4096, [], .twaitAll ⟨0, 3, 0, 0, 10⟩),
    (0, [], .semsAdd ⟨0, 3, 0, 0, 10⟩),
    (0, [], .semsSet ⟨0, 3, 0, 0, 10⟩),
    (0, [], .semw ⟨0, 3, 0, 0, 10⟩),
    (4096, [(21, 72057594037927936)], .qinit ⟨0, 3, 0, 0, 10⟩),
    (4096, [(21, 72057594037927936)], .qinitLoad ⟨0, 3, 0, 0, 10⟩),
    (0, [(20, 4194304)], .qswap ⟨0, 3, 0, 0, 10⟩),
    (0, [(21, 72057594037927936)], .ruq ⟨0, 3, 0, 0, 10⟩),
    (4096, [(21, 72057594037927936)], .occr ⟨0, 3, 0, 0, 10⟩),
    (4096, [(21, 72057594037927936)], .occrClr ⟨0, 3, 0, 0, 10⟩),
    (0, [], .colw ⟨0, 3, 0, 0, 10⟩),
    (4096, [(21, 1)], .bariInit ⟨0, 3, 0, 0, 10⟩),
    (4096, [], .bariFree ⟨0, 3, 0, 0, 10⟩),
    (0, [(21, 72057594037927936)], .qgate ⟨0, 3, 0, 0, 10, 1⟩),
    (0, [(21, 72057594037927936)], .qdiag ⟨0, 3, 0, 0, 10, 1⟩),
    (0, [(21, 72057594037927936)], .qmeas ⟨0, 3, 0, 0, 10, 1⟩),
    (0, [(21, 72057594037927936)], .qmeasSamp ⟨0, 3, 0, 0, 10, 1⟩),
    (0, [(21, 1)], .barr ⟨0, 3, 0, 0, 10, 0⟩),
    (0, [], .barx ⟨0, 3, 0, 0, 10, 0⟩),
    (0, [], .barw ⟨0, 3, 0, 0, 10, 0⟩),
    (4096, [], .grpf ⟨0, 3, 0, 0, 10, 0⟩),
    (0, [(21, 72057594037927936)], .lnks ⟨0, 3, 0, 0, 10, 0⟩),
    (4096, [], .rufl ⟨0, 3, 0, 0, 10, 0⟩)] : List (Nat × List (Nat × Nat) × Instr)),
    Runs (lab e.1 e.2.1) e.1 e.2.2 :=
  all_run (by decide +kernel)

theorem witness_EngineCommandsAccepted_commits2 : ∀ e ∈ ([
    (0, [], .kjoin ⟨0, 3, 0, 0⟩),
    (0, [], .cwait ⟨0, 3, 0, 0, 10, 0⟩)] : List (Nat × List (Nat × Nat) × Instr)),
    Runs (lab e.1 e.2.1) e.1 e.2.2 :=
  all_run (by decide +kernel)

theorem witness_CopiesAccepted_commits : ∀ e ∈ ([
    (0, [(20, 72057594037927936), (21, 72057594037932032), (22, 0), (23, 0), (24, 72057594037936128)], .cpy ⟨0, 3, 0, 0, 10, 0⟩),
    (0, [(20, 72057594037927936), (21, 72057594037932032), (22, 13510798882111488), (23, 0), (24, 72057594037936128)], .cpyc ⟨0, 3, 0, 0, 10, 0⟩),
    (0, [(20, 72057594037927936), (21, 72057594037932032), (22, 0), (23, 0), (24, 72057594037936128)], .cpyf ⟨0, 3, 0, 0, 10, 0⟩),
    (0, [(20, 72057594037927936), (21, 0), (22, 0), (23, 0), (24, 72057594037936128)], .cpyk ⟨0, 3, 0, 0, 10, 0⟩),
    (0, [], .cstat ⟨0, 3, 0, 0, 10, 0, 0⟩),
    (0, [], .cstat ⟨0, 3, 0, 0, 10, 3, 0⟩)] : List (Nat × List (Nat × Nat) × Instr)),
    Runs (lab e.1 e.2.1) e.1 e.2.2 :=
  all_run (by decide +kernel)

theorem witness_NumberedCommands_commits : ∀ e ∈ ([
    (4096, [(21, 72057594037927936)], .tsub ⟨0, 3, 0, 0, 10, 0⟩),
    (0, [(21, 72057594037927936)], .coll ⟨0, 3, 0, 0, 10, 0⟩),
    (0, [(21, 72057594037927936)], .cola ⟨0, 3, 0, 0, 10, 0⟩),
    (4096, [(21, 72057594037927936)], .grpc ⟨0, 3, 0, 0, 10, 0⟩)] : List (Nat × List (Nat × Nat) × Instr)),
    Runs (lab e.1 e.2.1) e.1 e.2.2 :=
  all_run (by decide +kernel)

theorem witness_ChannelInstructions_commits : ∀ e ∈ ([
    (0, [], .send ⟨0, 3, 0, 0, 3⟩),
    (0, [], .recv ⟨0, 3, 0, 0, 3⟩),
    (0, [], .recvadd ⟨0, 3, 0, 0, 3⟩),
    (0, [], .chst ⟨0, 3, 0, 0, 3⟩),
    (4096, [(3, 72057594037927936), (21, 72057594037927936)], .chopn ⟨0, 3, 0, 0, 3⟩),
    (0, [], .chcl ⟨0, 3, 0, 0⟩)] : List (Nat × List (Nat × Nat) × Instr)),
    Runs (lab e.1 e.2.1) e.1 e.2.2 :=
  all_run (by decide +kernel)

/-! ### States and operands that meet the hypotheses of each clause of a statement -/

def wr (m : List Host.Cell) (l : List (Nat × Nat)) : List Host.Cell := l.foldl (fun m e => wrBytes m e.1 (bytesOf 8 e.2)) m

/-- Data in a page of 64 KiB that maps to itself. -/
def cap (va : Nat) : Cap := { va, pa := va, base := va / 65536 * 65536, size := 65536, tens := none, line := va / 65536 * 65536 }

def rq (id key : Nat) (k : ReqKind) : Req := { id, key, acc := id, ctx := 0, kind := k }

def bank (n : Nat) : Bank := Bank.of fun i j => 0x3f800000 + i * 64 + j + n

def loopS0 : State := lab 0 [(3, 2), (6, 2), (5, 64)]
def loopS2 : State := (lab 0 []).modTh 0 fun t => { t with loops := [{ start := 0x10000, stop := 0x10100, trips := 5, index := 2, n := 5 }] }
def loopS3 : State := (lab 0 []).modTh 0 fun t => { t with loops := [{ start := 0x10000, stop := 0x10100, trips := 5, index := 4, n := 5 }] }
def loopOld0 : Thr := { pc := 0x10100 }
def sysS0 : State := lab 0 [(5, 3)]
def sysS1 : State := lab 4096 [(4, 0), (5, 1)]
def sysS2 : State := lab 4096 [(4, 5), (5, 1)]
def sysS3 : State := (lab 4096 [(4, 0), (5, 1)]).modTh 0 fun t => { t with mode := .parked, task := labThr.task }
def sysS5 : State := { lab 4096 [(4, 0), (5, 1)] with saved := [(0, labThr)] }
def sysV0 : State := (lab 4096 []).modTh 4096 fun t => { t with flight := [{ due := t.scyc, land := .tmode 3 }] }
def x10_00 : State := lab 0 [(3, 5)]
def x10_02 : State := { lab 0 [] with sys := { debugOn := 63 }, ctxs := [(0, { labCtx with cdbg := 2 })] }

theorem witness_LoopsAndRules :
    (Runs loopS0 loopS0.cur (Instr.loop { g := 0#4, d := 8#6, i := 49007#16 : RI }) ∧
     (BitVec.toNat (((loopS0.begun loopS0.cur).th 0).s { g := 0#4, d := 8#6, i := 49007#16 : RI }.d.toNat) = 0)) ∧
    (Runs loopS0 loopS0.cur (Instr.loop { g := 0#4, d := 3#6, i := 4#16 : RI }) ∧
     (BitVec.toNat (((loopS0.begun loopS0.cur).th 0).s { g := 0#4, d := 3#6, i := 4#16 : RI }.d.toNat) ≠ 0)) ∧
    (Runs loopS0 loopS0.cur (Instr.loopr { g := 0#4, c := 38#6, e := 4#8, w := 0#5, s := 0#3 : Loopr }) ∧
     (BitVec.toNat (((loopS0.begun loopS0.cur).th 0).s { g := 0#4, c := 38#6, e := 4#8, w := 0#5, s := 0#3 : Loopr }.c.toNat) = 0)) ∧
    (Runs loopS0 loopS0.cur (Instr.loopr { g := 0#4, c := 6#6, e := 4#8, w := 0#5, s := 0#3 : Loopr }) ∧
     (BitVec.toNat (((loopS0.begun loopS0.cur).th 0).s { g := 0#4, c := 6#6, e := 4#8, w := 0#5, s := 0#3 : Loopr }.c.toNat) ≠ 0)) ∧
    (Runs loopS0 loopS0.cur (Instr.audef { g := 0#4, d := 3#6, a := 4#6, b := 5#6, f := 0#3, n := 0#1 : RRR })) ∧
    ((loopOld0.inDelay = false) ∧
     ((loopS2.th 0).loops = { start := 65536, stop := 65792, trips := 5, index := 2, n := 5 : LoopEnt } :: (loopS2.th 0).loops.tail) ∧
     ({ start := 65536, stop := 65792, trips := 5, index := 2, n := 5 : LoopEnt }.stop = loopOld0.pc) ∧
     ({ start := 65536, stop := 65792, trips := 5, index := 2, n := 5 : LoopEnt }.index + 1 < { start := 65536, stop := 65792, trips := 5, index := 2, n := 5 : LoopEnt }.trips)) ∧
    ((loopOld0.inDelay = false) ∧
     ((loopS3.th 0).loops = { start := 65536, stop := 65792, trips := 5, index := 4, n := 5 : LoopEnt } :: (loopS3.th 0).loops.tail) ∧
     ({ start := 65536, stop := 65792, trips := 5, index := 4, n := 5 : LoopEnt }.stop = loopOld0.pc) ∧
     ({ start := 65536, stop := 65792, trips := 5, index := 4, n := 5 : LoopEnt }.trips ≤ { start := 65536, stop := 65792, trips := 5, index := 4, n := 5 : LoopEnt }.index + 1) ∧
     (∀ f ∈ (loopS3.th 0).loops.tail.head?, f.stop ≠ loopOld0.pc)) :=
  by
  refine ⟨⟨?_, ?_⟩, ⟨?_, ?_⟩, ⟨?_, ?_⟩, ⟨?_, ?_⟩, ?_, ?_, ?_⟩ <;>
    first | decide +kernel | exact commits_of (by decide +kernel)

theorem witness_TrapAndBrk :
    (Runs x10_00 x10_00.cur (Instr.trap { g := 0#4, d := 3#6, i := 0#16 : RI }) ∧
     (((x10_00.begun x10_00.cur).th x10_00.cur).loops = []) ∧
     (isCs x10_00.cur = true → ((x10_00.begun x10_00.cur).th x10_00.cur).matStop = none)) ∧
    ((Fits (x10_02.begun x10_02.cur) x10_02.cur) ∧
     (Issues x10_02 x10_02.cur) ∧
     (legal (Instr.brk { g := 0#4, i := 0#16 : Brk }) = true) ∧
     (((x10_02.begun x10_02.cur).th x10_02.cur).p { g := 0#4, i := 0#16 : Brk }.g.toNat = true) ∧
     ((!isCs x10_02.cur && (x10_02.begun x10_02.cur).feature 3 && cdbgBrkArm ((x10_02.begun x10_02.cur).ctx ((x10_02.begun x10_02.cur).ctxOf x10_02.cur)).cdbg) = true)) ∧
    ((Fits (x10_00.begun x10_00.cur) x10_00.cur) ∧
     (Issues x10_00 x10_00.cur) ∧
     (legal (Instr.brk { g := 0#4, i := 0#16 : Brk }) = true) ∧
     (((x10_00.begun x10_00.cur).th x10_00.cur).p { g := 0#4, i := 0#16 : Brk }.g.toNat = true) ∧
     ((!isCs x10_00.cur && (x10_00.begun x10_00.cur).feature 3 && cdbgBrkArm ((x10_00.begun x10_00.cur).ctx ((x10_00.begun x10_00.cur).ctxOf x10_00.cur)).cdbg) = false)) :=
  ⟨⟨commits_of (by decide +kernel), by decide +kernel⟩,
   ⟨by unfold Fits; decide +kernel, issues_of (by decide +kernel), by decide +kernel⟩,
   ⟨by unfold Fits; decide +kernel, issues_of (by decide +kernel), by decide +kernel⟩⟩

theorem witness_SystemResults_1 :
    (Runs sysS0 sysS0.cur (Instr.crr { g := 0, s := 3, l := 16, n := 0 : Crf })) ∧
    (Runs sysS0 sysS0.cur (Instr.crw { g := 0, s := 3, l := 16, n := 0 : Crf }) ∧
     (isCs sysS0.cur = false)) ∧
    (Runs sysS1 sysS1.cur (Instr.crw { g := 0, s := 3, l := 51, n := 0 : Crf }) ∧
     (isCs sysS1.cur = true)) ∧
    ((isCs sysS1.cur = true) ∧
     ((sysV0.th sysS1.cur).flight = [{ due := (sysV0.th sysS1.cur).scyc, land := Land.tmode 3 : Flight }])) ∧
    (Runs sysS0 sysS0.cur (Instr.icinv { g := 0#4, a := 4#6, b := 5#6, f := 0#3, n := 0#1 : Icinv }) ∧
     ({ g := 0#4, a := 4#6, b := 5#6, f := 0#3, n := 0#1 : Icinv }.f.toNat ≤ 1)) ∧
    (Runs sysS0 sysS0.cur (Instr.icinv { g := 0#4, a := 3#6, b := 5#6, f := 5#3, n := 0#1 : Icinv }) ∧
     (2 ≤ { g := 0#4, a := 3#6, b := 5#6, f := 5#3, n := 0#1 : Icinv }.f.toNat)) ∧
    (Runs sysS1 sysS1.cur (Instr.pres { g := 0#4, d := 3#6, a := 4#6, n := 0#1 : RR1 })) :=
  by
  refine ⟨?_, ⟨?_, ?_⟩, ⟨?_, ?_⟩, ?_, ⟨?_, ?_⟩, ⟨?_, ?_⟩, ?_⟩ <;>
    first | decide +kernel | exact commits_of (by decide +kernel)

theorem witness_SystemResults_2 :
    (Runs sysS1 sysS1.cur (Instr.presMig { g := 0#4, d := 3#6, a := 4#6, b := 5#6, n := 0#1 : PresMig }) ∧
     ((if BitVec.toNat (((sysS1.begun sysS1.cur).th sysS1.cur).s { g := 0#4, d := 3#6, a := 4#6, b := 5#6, n := 0#1 : PresMig }.b.toNat) ∉ ((sysS1.begun sysS1.cur).ctx ((sysS1.begun sysS1.cur).ctxOf sysS1.cur)).allot then 2 else if ¬BitVec.toNat (((sysS1.begun sysS1.cur).th sysS1.cur).s { g := 0#4, d := 3#6, a := 4#6, b := 5#6, n := 0#1 : PresMig }.a.toNat) < 3072 ∨ (((sysS1.begun sysS1.cur).savedAt ((sysS1.begun sysS1.cur).ctxOf sysS1.cur) (BitVec.toNat (((sysS1.begun sysS1.cur).th sysS1.cur).s { g := 0#4, d := 3#6, a := 4#6, b := 5#6, n := 0#1 : PresMig }.a.toNat))).bind Thr.task).isSome = false then 1 else if (sysS1.begun sysS1.cur).idleTarget (BitVec.toNat (((sysS1.begun sysS1.cur).th sysS1.cur).s { g := 0#4, d := 3#6, a := 4#6, b := 5#6, n := 0#1 : PresMig }.b.toNat)) = false then 3 else 0) ≠ 0)) ∧
    (Runs sysS5 sysS5.cur (Instr.presMig { g := 0#4, d := 3#6, a := 4#6, b := 5#6, n := 0#1 : PresMig }) ∧
     ((if BitVec.toNat (((sysS5.begun sysS5.cur).th sysS5.cur).s { g := 0#4, d := 3#6, a := 4#6, b := 5#6, n := 0#1 : PresMig }.b.toNat) ∉ ((sysS5.begun sysS5.cur).ctx ((sysS5.begun sysS5.cur).ctxOf sysS5.cur)).allot then 2 else if ¬BitVec.toNat (((sysS5.begun sysS5.cur).th sysS5.cur).s { g := 0#4, d := 3#6, a := 4#6, b := 5#6, n := 0#1 : PresMig }.a.toNat) < 3072 ∨ (((sysS5.begun sysS5.cur).savedAt ((sysS5.begun sysS5.cur).ctxOf sysS5.cur) (BitVec.toNat (((sysS5.begun sysS5.cur).th sysS5.cur).s { g := 0#4, d := 3#6, a := 4#6, b := 5#6, n := 0#1 : PresMig }.a.toNat))).bind Thr.task).isSome = false then 1 else if (sysS5.begun sysS5.cur).idleTarget (BitVec.toNat (((sysS5.begun sysS5.cur).th sysS5.cur).s { g := 0#4, d := 3#6, a := 4#6, b := 5#6, n := 0#1 : PresMig }.b.toNat)) = false then 3 else 0) = 0) ∧
     (((sysS5.begun sysS5.cur).savedAt ((sysS5.begun sysS5.cur).ctxOf sysS5.cur) (BitVec.toNat (((sysS5.begun sysS5.cur).th sysS5.cur).s { g := 0#4, d := 3#6, a := 4#6, b := 5#6, n := 0#1 : PresMig }.a.toNat))).bind Thr.task = some { count := 1, kernel := 65536, pure := false, cycles := 0, phase := 0, slot := 0 : Machine.TaskRef })) ∧
    (Runs sysS2 sysS2.cur (Instr.pkill { g := 0#4, d := 3#6, a := 4#6, n := 0#1 : RR1 }) ∧
     (BitVec.toNat (((sysS2.begun sysS2.cur).th sysS2.cur).s { g := 0#4, d := 3#6, a := 4#6, n := 0#1 : RR1 }.a.toNat) ∉ ((sysS2.begun sysS2.cur).ctx ((sysS2.begun sysS2.cur).ctxOf sysS2.cur)).allot)) ∧
    (Runs sysS1 sysS1.cur (Instr.pkill { g := 0#4, d := 3#6, a := 4#6, n := 0#1 : RR1 }) ∧
     (BitVec.toNat (((sysS1.begun sysS1.cur).th sysS1.cur).s { g := 0#4, d := 3#6, a := 4#6, n := 0#1 : RR1 }.a.toNat) ∈ ((sysS1.begun sysS1.cur).ctx ((sysS1.begun sysS1.cur).ctxOf sysS1.cur)).allot) ∧
     (¬(((sysS1.begun sysS1.cur).th (BitVec.toNat (((sysS1.begun sysS1.cur).th sysS1.cur).s { g := 0#4, d := 3#6, a := 4#6, n := 0#1 : RR1 }.a.toNat))).task.isSome = true ∧ ((sysS1.begun sysS1.cur).th (BitVec.toNat (((sysS1.begun sysS1.cur).th sysS1.cur).s { g := 0#4, d := 3#6, a := 4#6, n := 0#1 : RR1 }.a.toNat))).mode ≠ Mode.finishing)) ∧
     ((sysS1.begun sysS1.cur).savedAt ((sysS1.begun sysS1.cur).ctxOf sysS1.cur) (BitVec.toNat (((sysS1.begun sysS1.cur).th sysS1.cur).s { g := 0#4, d := 3#6, a := 4#6, n := 0#1 : RR1 }.a.toNat)) = none)) ∧
    (Runs sysS3 sysS3.cur (Instr.pkill { g := 0#4, d := 3#6, a := 4#6, n := 0#1 : RR1 }) ∧
     (BitVec.toNat (((sysS3.begun sysS3.cur).th sysS3.cur).s { g := 0#4, d := 3#6, a := 4#6, n := 0#1 : RR1 }.a.toNat) ∈ ((sysS3.begun sysS3.cur).ctx ((sysS3.begun sysS3.cur).ctxOf sysS3.cur)).allot) ∧
     (((sysS3.begun sysS3.cur).th (BitVec.toNat (((sysS3.begun sysS3.cur).th sysS3.cur).s { g := 0#4, d := 3#6, a := 4#6, n := 0#1 : RR1 }.a.toNat))).task.isSome = true) ∧
     (((sysS3.begun sysS3.cur).th (BitVec.toNat (((sysS3.begun sysS3.cur).th sysS3.cur).s { g := 0#4, d := 3#6, a := 4#6, n := 0#1 : RR1 }.a.toNat))).mode ≠ Mode.finishing)) ∧
    (Runs sysS5 sysS5.cur (Instr.pkill { g := 0#4, d := 3#6, a := 4#6, n := 0#1 : RR1 }) ∧
     (BitVec.toNat (((sysS5.begun sysS5.cur).th sysS5.cur).s { g := 0#4, d := 3#6, a := 4#6, n := 0#1 : RR1 }.a.toNat) ∈ ((sysS5.begun sysS5.cur).ctx ((sysS5.begun sysS5.cur).ctxOf sysS5.cur)).allot) ∧
     (¬(((sysS5.begun sysS5.cur).th (BitVec.toNat (((sysS5.begun sysS5.cur).th sysS5.cur).s { g := 0#4, d := 3#6, a := 4#6, n := 0#1 : RR1 }.a.toNat))).task.isSome = true ∧ ((sysS5.begun sysS5.cur).th (BitVec.toNat (((sysS5.begun sysS5.cur).th sysS5.cur).s { g := 0#4, d := 3#6, a := 4#6, n := 0#1 : RR1 }.a.toNat))).mode ≠ Mode.finishing)) ∧
     (((sysS5.begun sysS5.cur).savedAt ((sysS5.begun sysS5.cur).ctxOf sysS5.cur) (BitVec.toNat (((sysS5.begun sysS5.cur).th sysS5.cur).s { g := 0#4, d := 3#6, a := 4#6, n := 0#1 : RR1 }.a.toNat))).isSome = true)) :=
  by
  refine ⟨⟨?_, ?_⟩, ⟨?_, ?_⟩, ⟨?_, ?_⟩, ⟨?_, ?_⟩, ⟨?_, ?_⟩, ⟨?_, ?_⟩⟩ <;>
    first | decide +kernel | exact commits_of (by decide +kernel)

def memS0 : State := lab 0 [(17, 2 ^ 56), (3, 5), (4, 2 ^ 56)]

theorem witness_GlobalAccess :
    (Runs memS0 memS0.cur (Instr.gath { g := 0#4, d := 3#6, a := 4#6, b := 5#6, f := 0#3, n := 0#1 : RRR }) ∧
     (((memS0.begun memS0.cur).th memS0.cur).m ({ g := 0#4, d := 3#6, a := 4#6, b := 5#6, f := 0#3, n := 0#1 : RRR }.f.toNat % 4) ≠ 0)) ∧
    (Runs memS0 memS0.cur (Instr.gath { g := 0#4, d := 6#6, a := 4#6, b := 5#6, f := 6#3, n := 0#1 : RRR }) ∧
     (((memS0.begun memS0.cur).th memS0.cur).m ({ g := 0#4, d := 6#6, a := 4#6, b := 5#6, f := 6#3, n := 0#1 : RRR }.f.toNat % 4) = 0)) :=
  ⟨⟨commits_of (by decide +kernel), by decide +kernel⟩,
   ⟨commits_of (by decide +kernel), by decide +kernel⟩⟩

theorem witness_AtomicsSent :
    (Runs memS0 memS0.cur (Instr.atadd { g := 0#4, d := 0#6, a := 1#4, b := 4#6, o := 0#2, c := 3#3, n := 0#1 : Atm }) ∧
     ({ g := 0#4, d := 0#6, a := 1#4, b := 4#6, o := 0#2, c := 3#3, n := 0#1 : Atm }.d = 0)) ∧
    (Runs memS0 memS0.cur (Instr.atadd { g := 0#4, d := 3#6, a := 1#4, b := 5#6, o := 0#2, c := 0#3, n := 0#1 : Atm }) ∧
     ({ g := 0#4, d := 3#6, a := 1#4, b := 5#6, o := 0#2, c := 0#3, n := 0#1 : Atm }.d ≠ 0)) :=
  ⟨⟨commits_of (by decide +kernel), by decide +kernel⟩,
   ⟨commits_of (by decide +kernel), by decide +kernel⟩⟩

theorem witness_TranslationAndOrder :
    (Runs memS0 memS0.cur (Instr.pref { g := 0#4, e := 0#1, a := 1#4, l := 1#12 : Pref }) ∧
     (ptrMbz (((memS0.begun memS0.cur).th memS0.cur).s (16 + { g := 0#4, e := 0#1, a := 1#4, l := 1#12 : Pref }.a.toNat)) = 0) ∧
     (((oneIC (memS0.begun memS0.cur) memS0.cur 2 (encWord (Instr.pref { g := 0#4, e := 0#1, a := 1#4, l := 1#12 : Pref }))).hnd (((memS0.begun memS0.cur).th memS0.cur).s (16 + { g := 0#4, e := 0#1, a := 1#4, l := 1#12 : Pref }.a.toNat))).st = HState.valid) ∧
     (ptrOfs (((memS0.begun memS0.cur).th memS0.cur).s (16 + { g := 0#4, e := 0#1, a := 1#4, l := 1#12 : Pref }.a.toNat)) < ((oneIC (memS0.begun memS0.cur) memS0.cur 2 (encWord (Instr.pref { g := 0#4, e := 0#1, a := 1#4, l := 1#12 : Pref }))).hnd (((memS0.begun memS0.cur).th memS0.cur).s (16 + { g := 0#4, e := 0#1, a := 1#4, l := 1#12 : Pref }.a.toNat))).size)) ∧
    (Runs memS0 memS0.cur (Instr.pref { g := 0#4, e := 0#1, a := 6#4, l := 1#12 : Pref }) ∧
     (¬(ptrMbz (((memS0.begun memS0.cur).th memS0.cur).s (16 + { g := 0#4, e := 0#1, a := 6#4, l := 1#12 : Pref }.a.toNat)) = 0 ∧ ((oneIC (memS0.begun memS0.cur) memS0.cur 2 (encWord (Instr.pref { g := 0#4, e := 0#1, a := 6#4, l := 1#12 : Pref }))).hnd (((memS0.begun memS0.cur).th memS0.cur).s (16 + { g := 0#4, e := 0#1, a := 6#4, l := 1#12 : Pref }.a.toNat))).st = HState.valid ∧ ptrOfs (((memS0.begun memS0.cur).th memS0.cur).s (16 + { g := 0#4, e := 0#1, a := 6#4, l := 1#12 : Pref }.a.toNat)) < ((oneIC (memS0.begun memS0.cur) memS0.cur 2 (encWord (Instr.pref { g := 0#4, e := 0#1, a := 6#4, l := 1#12 : Pref }))).hnd (((memS0.begun memS0.cur).th memS0.cur).s (16 + { g := 0#4, e := 0#1, a := 6#4, l := 1#12 : Pref }.a.toNat))).size))) :=
  ⟨⟨commits_of (by decide +kernel), by decide +kernel⟩,
   ⟨commits_of (by decide +kernel), by decide +kernel⟩⟩

def chanS0 : State := lab 0 [(3, 2 ^ 56)]

theorem witness_ChannelInstructions :
    (Runs chanS0 chanS0.cur (Instr.send { g := 0#4, k := 3#5, c := 0#5, h := 0#6, v := 3#6 : Chn }) ∧
     (((chanS0.begun chanS0.cur).getChan ((chanS0.begun chanS0.cur).ctxOf chanS0.cur) { g := 0#4, k := 3#5, c := 0#5, h := 0#6, v := 3#6 : Chn }.h.toNat).remR = false)) :=
  ⟨commits_of (by decide +kernel), by decide +kernel⟩

/-- A store, a load, an atomic that waits at issuer 0 of a core that may write the line. -/
def storing (pa n : Nat) (ver : Option Nat) : State :=
  { lab 0 [] with reqs := [rq 5 0 (.store pa ((List.range n).map fun i => BitVec.ofNat 8 (i + 1)) ver false none)], nextId := 10, l1 := [(0, pa / 64, .m)] }
def loading : State :=
  { (lab 4096 []).modTh 4096 (fun t => { t with flight := [{ due := 2000, land := .wait 5, entry := true }] }) with
    reqs := [rq 5 4096 (.load [(0, 0x40000, 4)] [] false 3 false 1 (BitVec.allOnes 64))], nextId := 10 }
def atomic (op : AtomicOp) : State :=
  { (lab 4096 []).modTh 4096 (fun t => { t with flight := [{ due := 2000, land := .wait 5, entry := true }] }) with
    reqs := [rq 5 4096 (.atomic op 0 0x40000 7 0x1122334455667788 (some 3) 0 5)], nextId := 10, l1 := [(0, 0x1000, .m)] }
def hostUp (s : State) : State := { s with links := [(24, { st := 3 })] }
def arriving (k : ReqKind) : State := { loading with reqs := [rq 5 4096 k] }
def pieces3 : List (Nat × Nat × Nat) := [(0, 0x40000, 4), (4, 0x40040, 12), (16, 0x40080, 48)]
def got2 : List (Nat × List Byte) := [(1, List.replicate 12 7), (0, [1, 2, 3, 4])]





def waiting4 (s : State) : State := { s with reqs := [rq 5 4000 (.store 0x40000 [1] none false none)] }
def loadK0 : ReqKind := .load [(0, 0x40000, 4)] [] false 3 false 1 (BitVec.allOnes 64)
def loadK3 : ReqKind := .ltag 0x40000 none 3
def loadK4 : ReqKind := .conv 0x40000 1 0 0x40000 0x10000 [] false 3
def loadK5 : ReqKind := .acld 5 2 0x40000 0 none
def loadS0 : State := loading
def loadS3 : State := arriving loadK3
def loadS4 : State := arriving loadK4
def loadS5 : State := arriving loadK5
def loadS6 : State := { loading with reqs := [rq 4 4096 (.store 0x40000 [1] none false none), rq 5 4096 loadK0] }
def storeS0 : State := storing 0x40000 8 none
def storeS2 : State := (storing 0x40000 4 none).setTag 0x40000 4
def atomicS0 : State := atomic .add
def cacheS0 : State := { lab 0 [] with reqs := [rq 5 8 (.store 0x40000 [1] none false none)] }
def cacheS1 : State := { lab 0 [] with reqs := [rq 5 8 (.load [(0, 0x40000, 8)] [] false 3 false 0 (BitVec.allOnes 64))] }
def cacheS2 : State := { lab 0 [] with reqs := [rq 5 8 (.store 0x40000 [1] none false none)], l1 := [(1, 0x1000, .s), (2, 0x1000, .o)], hostLines := [(0x1000, .s)] }
def cacheS3 : State := { lab 0 [] with watchCnt := [(watchKey 0 0x1000, 1)], tasks := [{ ctx := 0, count := 1, unit := 0, watching := true, armed := [0x1000] }] }
def hostS0 : State := lab 0 []
def hostS1 : State := (hostUp (lab 0 [])).setTag 0x2000000000000 4
def hostS3 : State := hostUp { lab 0 [] with sys := { idle := 2 } }
def hostS4 : State := hostUp { waiting4 (lab 0 []) with nextId := 10 }
def hostS5 : State := (lab 0 []).modTh 0 fun t => { t with flight := [{ due := 2000, land := .s 3 5 false, entry := true }, { due := 2000, land := .v 3 5 5 false, entry := true }] }

theorem witness_LoadDataArrives :
    ((loadS6.req? 5 = some (rq 5 4096 loadK0)) ∧
     (loadS6.mayPerform (rq 5 4096 loadK0) = false)) ∧
    ((loadS0.req? 5 = some (rq 5 4096 loadK0)) ∧
     (loadS0.mayPerform (rq 5 4096 loadK0) = true) ∧
     ((rq 5 4096 loadK0).id = 5) ∧
     ((rq 5 4096 loadK0).kind = ReqKind.load [(0, 262144, 4)] [] false 3 false 1 (BitVec.allOnes 64)) ∧
     ((rq 5 4096 loadK0).key < 8192) ∧
     (loadS0.violates (loadS0.firmware (loadS0.reqIssuer (rq 5 4096 loadK0))) 262144 = false) ∧
     (tagPsn (loadS0.tag 262144) = false)) ∧
    ((loadS0.req? 5 = some (rq 5 4096 loadK0)) ∧
     (loadS0.mayPerform (rq 5 4096 loadK0) = true) ∧
     ((rq 5 4096 loadK0).id = 5) ∧
     ((rq 5 4096 loadK0).kind = ReqKind.load [(0, 262144, 4)] [] false 3 false 1 (BitVec.allOnes 64)) ∧
     (([] : List Nat).length < [(0, 262144, 4)].length) ∧
     (∀ g ∈ ([] : List (Nat × List Byte)), g.1 < [(0, 262144, 4)].length) ∧
     (∀ p ∈ [(0, 262144, 4)], loadS0.violates (loadS0.firmware (loadS0.reqIssuer (rq 5 4096 loadK0))) p.2.1 = false ∧ tagPsn (loadS0.tag p.2.1) = false)) ∧
    ((loadS3.req? 5 = some (rq 5 4096 loadK3)) ∧
     (loadS3.mayPerform (rq 5 4096 loadK3) = true) ∧
     ((rq 5 4096 loadK3).id = 5) ∧
     ((rq 5 4096 loadK3).kind = ReqKind.ltag 262144 none 3) ∧
     ((rq 5 4096 loadK3).key < 8192) ∧
     (loadS3.violates (loadS3.firmware (loadS3.reqIssuer (rq 5 4096 loadK3))) 262144 = false)) ∧
    ((loadS4.req? 5 = some (rq 5 4096 loadK4)) ∧
     (loadS4.mayPerform (rq 5 4096 loadK4) = true) ∧
     ((rq 5 4096 loadK4).id = 5) ∧
     ((rq 5 4096 loadK4).kind = ReqKind.conv 262144 1 0 262144 65536 [] false 3) ∧
     ((rq 5 4096 loadK4).key < 8192) ∧
     (loadS4.violates (loadS4.firmware (loadS4.reqIssuer (rq 5 4096 loadK4))) 262144 = false) ∧
     (tagPsn (loadS4.tag 262144) = false) ∧
     (∀ (a : ℕ), loadS4.scaleLine (rq 5 4096 loadK4).ctx 0 262144 65536 262144 = some a → loadS4.violates (loadS4.firmware (loadS4.reqIssuer (rq 5 4096 loadK4))) a = false ∧ tagPsn (loadS4.tag a) = false)) ∧
    ((loadS5.req? 5 = some (rq 5 4096 loadK5)) ∧
     (loadS5.mayPerform (rq 5 4096 loadK5) = true) ∧
     ((rq 5 4096 loadK5).id = 5) ∧
     ((rq 5 4096 loadK5).kind = ReqKind.acld 5 2 262144 0 none) ∧
     (loadS5.violates (loadS5.firmware (loadS5.reqIssuer (rq 5 4096 loadK5))) 262144 = false) ∧
     (tagPsn (loadS5.tag 262144) = false)) :=
  by
  refine ⟨?_, ?_, ?_, ?_, ?_, ?_⟩ <;>
    decide +kernel

theorem witness_StorePerforms :
    ((∀ (i b n : Nat), (none : Option (Nat × Nat × Nat)) = some (i, b, n) → (none : Option Nat).getD (tagVer (storeS0.tag 262144)) = tagVer (storeS0.tag 262144) ∨ storeS0.deltaRoom (storeS0.reqCore (rq 5 0 (ReqKind.store 262144 [1, 2, 3, 4, 5, 6, 7, 8] none false none))) (rq 5 0 (ReqKind.store 262144 [1, 2, 3, 4, 5, 6, 7, 8] none false none)).ctx i) ∧
     (storeS0.req? 5 = some (rq 5 0 (ReqKind.store 262144 [1, 2, 3, 4, 5, 6, 7, 8] none false none))) ∧
     (storeS0.mayPerform (rq 5 0 (ReqKind.store 262144 [1, 2, 3, 4, 5, 6, 7, 8] none false none)) = true) ∧
     (storeS0.hostOrder (rq 5 0 (ReqKind.store 262144 [1, 2, 3, 4, 5, 6, 7, 8] none false none)) = true) ∧
     (storeS0.clear (rq 5 0 (ReqKind.store 262144 [1, 2, 3, 4, 5, 6, 7, 8] none false none)) = true) ∧
     ((rq 5 0 (ReqKind.store 262144 [1, 2, 3, 4, 5, 6, 7, 8] none false none)).kind = ReqKind.store 262144 [1, 2, 3, 4, 5, 6, 7, 8] none false none) ∧
     (262144 % 64 + [1, 2, 3, 4, 5, 6, 7, 8].length ≤ 64) ∧
     (physClass 262144 = PhysClass.hbm) ∧
     (storeS0.protectedKind 262144 = none) ∧
     (tagPsn (storeS0.tag 262144) = false) ∧
     ((rq 5 0 (ReqKind.store 262144 [1, 2, 3, 4, 5, 6, 7, 8] none false none)).key ≠ 4001)) ∧
    ((physClass 262144 = PhysClass.hbm) ∧
     (storeS2.protectedKind 262144 = none) ∧
     (tagPsn (storeS2.tag 262144) = true) ∧
     ([1, 2, 3, 4].length ≠ 64) ∧
     ((rq 5 0 (ReqKind.store 262144 [1, 2, 3, 4, 5, 6, 7, 8] none false none)).key ≠ 4001)) :=
  ⟨⟨(by intro _ _ _ h; cases h), by decide +kernel⟩,
   by decide +kernel⟩

theorem witness_AtomicPerforms :
    ((atomicS0.req? 5 = some { id := 5, key := 4096, acc := 5, ctx := 0, kind := ReqKind.atomic AtomicOp.add 0 262144 (7#64) (1234605616436508552#64) (some 3) 0 5 : Req }) ∧
     (atomicS0.mayPerform { id := 5, key := 4096, acc := 5, ctx := 0, kind := ReqKind.atomic AtomicOp.add 0 262144 (7#64) (1234605616436508552#64) (some 3) 0 5 : Req } = true) ∧
     (atomicS0.hostOrder { id := 5, key := 4096, acc := 5, ctx := 0, kind := ReqKind.atomic AtomicOp.add 0 262144 (7#64) (1234605616436508552#64) (some 3) 0 5 : Req } = true) ∧
     (atomicS0.clear { id := 5, key := 4096, acc := 5, ctx := 0, kind := ReqKind.atomic AtomicOp.add 0 262144 (7#64) (1234605616436508552#64) (some 3) 0 5 : Req } = true) ∧
     ({ id := 5, key := 4096, acc := 5, ctx := 0, kind := ReqKind.atomic AtomicOp.add 0 262144 (7#64) (1234605616436508552#64) (some 3) 0 5 : Req }.key < 1048576) ∧
     ({ id := 5, key := 4096, acc := 5, ctx := 0, kind := ReqKind.atomic AtomicOp.add 0 262144 (7#64) (1234605616436508552#64) (some 3) 0 5 : Req }.key ≠ 4000) ∧
     ({ id := 5, key := 4096, acc := 5, ctx := 0, kind := ReqKind.atomic AtomicOp.add 0 262144 (7#64) (1234605616436508552#64) (some 3) 0 5 : Req }.kind = ReqKind.atomic AtomicOp.add 0 262144 7 1234605616436508552 (some 3) 0 5) ∧
     (262144 % atWidth 0 = 0) ∧
     (physClass 262144 = PhysClass.hbm) ∧
     (atomicS0.protectedKind 262144 = none) ∧
     (tagPsn (atomicS0.tag 262144) = false)) :=
  by decide +kernel

theorem witness_CacheStates :
    ((physClass (4096 * 64) = PhysClass.hbm) ∧
     (cacheS1.wants 1 4096 false = some { id := 5, key := 8, acc := 5, ctx := 0, kind := ReqKind.load [(0, 262144, 8)] [] false 3 false 0 18446744073709551615#64 : Req }) ∧
     (cacheS1.l1State 1 4096 = Moesi.i)) ∧
    ((physClass (4096 * 64) = PhysClass.hbm) ∧
     (cacheS0.wants 1 4096 true = some { id := 5, key := 8, acc := 5, ctx := 0, kind := ReqKind.store 262144 [1#8] none false none : Req }) ∧
     (cacheS0.watched 4096 = false) ∧
     (cacheS0.l1State 1 4096 = Moesi.i)) ∧
    ((physClass (4096 * 64) = PhysClass.hbm) ∧
     (cacheS2.wants 1 4096 true = some { id := 5, key := 8, acc := 5, ctx := 0, kind := ReqKind.store 262144 [1#8] none false none : Req }) ∧
     (cacheS2.watched 4096 = false) ∧
     (cacheS2.l1State 1 4096 ≠ Moesi.i)) ∧
    ((cacheS3.watched 4096 = true) ∧
     (physClass (4096 * 64) = PhysClass.hbm)) :=
  ⟨by decide +kernel,
   by decide +kernel,
   by decide +kernel,
   ⟨by simp [State.watched, getD, List.range, List.range.loop, cacheS3], by decide +kernel⟩⟩

theorem witness_MemoryErrors :
    ((4096 * 64 < 618475290624 ∨ physClass (4096 * 64) = PhysClass.host)) ∧
    ((∃ e ∈ hostS0.thr, e.1 = 0)) ∧
    ((∃ e ∈ hostS0.thr, e.1 = 0)) ∧
    ((∃ e ∈ hostS0.thr, e.1 = 0)) ∧
    ((∃ e ∈ hostS5.thr, e.1 = 0) ∧
     ((hostS5.th 0).flight[0]? = some { due := 2000, land := Land.s 3 (5#64) false, entry := true : Flight }) ∧
     ({ due := 2000, land := Land.s 3 (5#64) false, entry := true : Flight }.entry = true)) :=
  by
  refine ⟨?_, ?_, ?_, ?_, ?_⟩ <;>
    decide +kernel

theorem witness_HostAccesses_1 :
    ((2 ^ 50 < 2 ^ 50 - 7 + (List.replicate 8 0).length)) ∧
    ((¬(hostS0.link 24).st = 3) ∧
     (262144 + [1, 2, 3].length ≤ 2 ^ 50)) ∧
    ((¬(hostS0.link 24).st = 3)) ∧
    ((¬(hostS0.link 24).st = 3)) ∧
    (((hostS3.link 24).st = 3) ∧
     (hostS3.sys.idle ≠ 0) ∧
     (262144 + [1, 2, 3].length ≤ 2 ^ 50)) ∧
    (((hostS3.link 24).st = 3) ∧
     (hostS3.sys.idle ≠ 0)) ∧
    (((hostS3.link 24).st = 3) ∧
     (hostS3.sys.idle ≠ 0)) ∧
    (((hostS1.link 24).st = 3) ∧
     (hostS1.sys.idle = 0) ∧
     (hostS1.entryDue = false) ∧
     (2 ^ 50 - 7 + [1, 2, 3].length ≤ 2 ^ 50) ∧
     (physClass (2 ^ 50 - 7) = PhysClass.host) ∧
     ((2 ^ 50 - 7) % 64 + [1, 2, 3].length ≤ 64) ∧
     ([1, 2, 3] ≠ []) ∧
     (tagPsn (hostS1.tag (2 ^ 50 - 7)) = false ∨ [1, 2, 3].length = 64)) :=
  by
  refine ⟨?_, ?_, ?_, ?_, ?_, ?_, ?_, ?_⟩ <;>
    decide +kernel

theorem witness_HostAccesses_2 :
    (((hostS1.link 24).st = 3) ∧
     (hostS1.sys.idle = 0) ∧
     (hostS1.entryDue = false) ∧
     (562949953421312 + [1, 2, 3].length ≤ 2 ^ 50) ∧
     (physClass 562949953421312 = PhysClass.host) ∧
     (562949953421312 % 64 + [1, 2, 3].length ≤ 64) ∧
     ([1, 2, 3] ≠ []) ∧
     (tagPsn (hostS1.tag 562949953421312) = true) ∧
     ([1, 2, 3].length ≠ 64)) ∧
    (((hostS4.link 24).st = 3) ∧
     (hostS4.sys.idle = 0) ∧
     (hostS4.entryDue = false) ∧
     (262144 + [1, 2, 3].length ≤ 2 ^ 50) ∧
     (physClass 262144 = PhysClass.hbm) ∧
     (262144 % 64 + [1, 2, 3].length ≤ 64) ∧
     ([1, 2, 3] ≠ []) ∧
     (hostS4.sys.recovery = false) ∧
     ((∃ q ∈ hostS4.reqs, q.key = 4000 ∧ q.id < hostS4.nextId) ∨ { gcyc := hostS4.gcyc, cur := hostS4.cur, turn := hostS4.turn, agenda := hostS4.agenda, fresh := hostS4.fresh, nextId := hostS4.nextId + 1, thr := hostS4.thr, mem := hostS4.mem, tags := hostS4.tags, frames := hostS4.frames, ftags := hostS4.ftags, unjoined := hostS4.unjoined, l1 := hostS4.l1, hostLines := hostS4.hostLines, dir := hostS4.dir, l2 := hostS4.l2, icache := hostS4.icache, xcache := hostS4.xcache, spCache := hostS4.spCache, corrected := hostS4.corrected, reqs := hostS4.reqs ++ [{ id := hostS4.nextId, key := 4000, acc := hostS4.nextId, ctx := 64, tracked := false, kind := ReqKind.store 262144 [1, 2, 3] none false none : Req }], debts := hostS4.debts, passed := hostS4.passed, signals := hostS4.signals, shoot := hostS4.shoot, shootDone := hostS4.shootDone, cmds := hostS4.cmds, recs := hostS4.recs, deltas := hostS4.deltas, cached := hostS4.cached, installs := hostS4.installs, posts := hostS4.posts, barUpds := hostS4.barUpds, barLine := hostS4.barLine, barSeen := hostS4.barSeen, chans := hostS4.chans, grps := hostS4.grps, colls := hostS4.colls, quar := hostS4.quar, qcmds := hostS4.qcmds, pages := hostS4.pages, bounce := hostS4.bounce, gated := hostS4.gated, tasks := hostS4.tasks, occ := hostS4.occ, reuse := hostS4.reuse, watchCnt := hostS4.watchCnt, tenants := hostS4.tenants, saved := hostS4.saved, ctxs := hostS4.ctxs, links := hostS4.links, fab := hostS4.fab, sys := hostS4.sys, pmc := hostS4.pmc, pmsel := hostS4.pmsel, pmcSkip := hostS4.pmcSkip, pmcPend := hostS4.pmcPend, copyParks := hostS4.copyParks : State }.clear { id := hostS4.nextId, key := 4000, acc := hostS4.nextId, ctx := 64, tracked := false, kind := ReqKind.store 262144 [1, 2, 3] none false none : Req } = false)) ∧
    (((hostS1.link 24).st = 3) ∧
     (hostS1.sys.idle = 0) ∧
     (hostS1.entryDue = false) ∧
     (262144 + [1, 2, 3].length ≤ 2 ^ 50) ∧
     (physClass 262144 = PhysClass.hbm) ∧
     (262144 % 64 + [1, 2, 3].length ≤ 64) ∧
     ([1, 2, 3] ≠ []) ∧
     (hostS1.sys.recovery = false) ∧
     (∀ q ∈ hostS1.reqs, q.key ≠ 4000) ∧
     ({ gcyc := hostS1.gcyc, cur := hostS1.cur, turn := hostS1.turn, agenda := hostS1.agenda, fresh := hostS1.fresh, nextId := hostS1.nextId + 1, thr := hostS1.thr, mem := hostS1.mem, tags := hostS1.tags, frames := hostS1.frames, ftags := hostS1.ftags, unjoined := hostS1.unjoined, l1 := hostS1.l1, hostLines := hostS1.hostLines, dir := hostS1.dir, l2 := hostS1.l2, icache := hostS1.icache, xcache := hostS1.xcache, spCache := hostS1.spCache, corrected := hostS1.corrected, reqs := hostS1.reqs ++ [{ id := hostS1.nextId, key := 4000, acc := hostS1.nextId, ctx := 64, tracked := false, kind := ReqKind.store 262144 [1, 2, 3] none false none : Req }], debts := hostS1.debts, passed := hostS1.passed, signals := hostS1.signals, shoot := hostS1.shoot, shootDone := hostS1.shootDone, cmds := hostS1.cmds, recs := hostS1.recs, deltas := hostS1.deltas, cached := hostS1.cached, installs := hostS1.installs, posts := hostS1.posts, barUpds := hostS1.barUpds, barLine := hostS1.barLine, barSeen := hostS1.barSeen, chans := hostS1.chans, grps := hostS1.grps, colls := hostS1.colls, quar := hostS1.quar, qcmds := hostS1.qcmds, pages := hostS1.pages, bounce := hostS1.bounce, gated := hostS1.gated, tasks := hostS1.tasks, occ := hostS1.occ, reuse := hostS1.reuse, watchCnt := hostS1.watchCnt, tenants := hostS1.tenants, saved := hostS1.saved, ctxs := hostS1.ctxs, links := hostS1.links, fab := hostS1.fab, sys := hostS1.sys, pmc := hostS1.pmc, pmsel := hostS1.pmsel, pmcSkip := hostS1.pmcSkip, pmcPend := hostS1.pmcPend, copyParks := hostS1.copyParks : State }.clear { id := hostS1.nextId, key := 4000, acc := hostS1.nextId, ctx := 64, tracked := false, kind := ReqKind.store 262144 [1, 2, 3] none false none : Req } = true) ∧
     (hostS1.violates (hostS1.firmware 4000) 262144 = false) ∧
     (hostS1.protectedKind 262144 = none) ∧
     (tagPsn (hostS1.tag 262144) = false)) ∧
    (((hostS1.link 24).st = 3) ∧
     (hostS1.sys.idle = 0) ∧
     (hostS1.entryDue = false) ∧
     (physClass 262144 = PhysClass.hbm ∨ physClass 262144 = PhysClass.host) ∧
     (hostS1.sys.recovery = false ∨ physClass 262144 = PhysClass.host)) ∧
    (((hostS1.link 24).st = 3) ∧
     (hostS1.sys.idle = 0) ∧
     (hostS1.entryDue = false) ∧
     (562949953421312 % atWidth (0#3).toNat ≠ 0 ∨ hostS1.sys.recovery = true ∨ physClass 562949953421312 ≠ PhysClass.hbm)) ∧
    (((hostS4.link 24).st = 3) ∧
     (hostS4.sys.idle = 0) ∧
     (hostS4.entryDue = false) ∧
     (hostS4.sys.recovery = false) ∧
     (physClass 262144 = PhysClass.hbm) ∧
     (262144 % atWidth (0#3).toNat = 0) ∧
     ((∃ q ∈ hostS4.reqs, q.key = 4000 ∧ q.id < hostS4.nextId) ∨ { gcyc := hostS4.gcyc, cur := hostS4.cur, turn := hostS4.turn, agenda := hostS4.agenda, fresh := hostS4.fresh, nextId := hostS4.nextId + 1, thr := hostS4.thr, mem := hostS4.mem, tags := hostS4.tags, frames := hostS4.frames, ftags := hostS4.ftags, unjoined := hostS4.unjoined, l1 := hostS4.l1, hostLines := hostS4.hostLines, dir := hostS4.dir, l2 := hostS4.l2, icache := hostS4.icache, xcache := hostS4.xcache, spCache := hostS4.spCache, corrected := hostS4.corrected, reqs := hostS4.reqs ++ [{ id := hostS4.nextId, key := 4000, acc := hostS4.nextId, ctx := 64, tracked := false, kind := ReqKind.atomic AtomicOp.add (0#3).toNat 262144 (0#64) (0#64) none 0 5 : Req }], debts := hostS4.debts, passed := hostS4.passed, signals := hostS4.signals, shoot := hostS4.shoot, shootDone := hostS4.shootDone, cmds := hostS4.cmds, recs := hostS4.recs, deltas := hostS4.deltas, cached := hostS4.cached, installs := hostS4.installs, posts := hostS4.posts, barUpds := hostS4.barUpds, barLine := hostS4.barLine, barSeen := hostS4.barSeen, chans := hostS4.chans, grps := hostS4.grps, colls := hostS4.colls, quar := hostS4.quar, qcmds := hostS4.qcmds, pages := hostS4.pages, bounce := hostS4.bounce, gated := hostS4.gated, tasks := hostS4.tasks, occ := hostS4.occ, reuse := hostS4.reuse, watchCnt := hostS4.watchCnt, tenants := hostS4.tenants, saved := hostS4.saved, ctxs := hostS4.ctxs, links := hostS4.links, fab := hostS4.fab, sys := hostS4.sys, pmc := hostS4.pmc, pmsel := hostS4.pmsel, pmcSkip := hostS4.pmcSkip, pmcPend := hostS4.pmcPend, copyParks := hostS4.copyParks : State }.clear { id := hostS4.nextId, key := 4000, acc := hostS4.nextId, ctx := 64, tracked := false, kind := ReqKind.atomic AtomicOp.add (0#3).toNat 262144 (0#64) (0#64) none 0 5 : Req } = false)) ∧
    (((hostS1.link 24).st = 3) ∧
     (hostS1.sys.idle = 0) ∧
     (hostS1.entryDue = false) ∧
     (hostS1.sys.recovery = false) ∧
     (physClass 262144 = PhysClass.hbm) ∧
     (262144 % atWidth (0#3).toNat = 0) ∧
     (∀ q ∈ hostS1.reqs, q.key ≠ 4000) ∧
     ({ gcyc := hostS1.gcyc, cur := hostS1.cur, turn := hostS1.turn, agenda := hostS1.agenda, fresh := hostS1.fresh, nextId := hostS1.nextId + 1, thr := hostS1.thr, mem := hostS1.mem, tags := hostS1.tags, frames := hostS1.frames, ftags := hostS1.ftags, unjoined := hostS1.unjoined, l1 := hostS1.l1, hostLines := hostS1.hostLines, dir := hostS1.dir, l2 := hostS1.l2, icache := hostS1.icache, xcache := hostS1.xcache, spCache := hostS1.spCache, corrected := hostS1.corrected, reqs := hostS1.reqs ++ [{ id := hostS1.nextId, key := 4000, acc := hostS1.nextId, ctx := 64, tracked := false, kind := ReqKind.atomic AtomicOp.add (0#3).toNat 262144 (0#64) (0#64) none 0 5 : Req }], debts := hostS1.debts, passed := hostS1.passed, signals := hostS1.signals, shoot := hostS1.shoot, shootDone := hostS1.shootDone, cmds := hostS1.cmds, recs := hostS1.recs, deltas := hostS1.deltas, cached := hostS1.cached, installs := hostS1.installs, posts := hostS1.posts, barUpds := hostS1.barUpds, barLine := hostS1.barLine, barSeen := hostS1.barSeen, chans := hostS1.chans, grps := hostS1.grps, colls := hostS1.colls, quar := hostS1.quar, qcmds := hostS1.qcmds, pages := hostS1.pages, bounce := hostS1.bounce, gated := hostS1.gated, tasks := hostS1.tasks, occ := hostS1.occ, reuse := hostS1.reuse, watchCnt := hostS1.watchCnt, tenants := hostS1.tenants, saved := hostS1.saved, ctxs := hostS1.ctxs, links := hostS1.links, fab := hostS1.fab, sys := hostS1.sys, pmc := hostS1.pmc, pmsel := hostS1.pmsel, pmcSkip := hostS1.pmcSkip, pmcPend := hostS1.pmcPend, copyParks := hostS1.copyParks : State }.clear { id := hostS1.nextId, key := 4000, acc := hostS1.nextId, ctx := 64, tracked := false, kind := ReqKind.atomic AtomicOp.add (0#3).toNat 262144 (0#64) (0#64) none 0 5 : Req } = true)) :=
  by
  refine ⟨?_, ?_, ?_, ?_, ?_, ?_, ?_⟩ <;>
    decide +kernel

def walking (va : Nat) : State := (lab 0 []).modTh 0 fun t => { t with hs := [(1, { st := .pending, va })] }
def entryStore (pa v : Nat) : State :=
  { lab 0 [] with reqs := [rq 5 0 (.store pa (bytesOf 8 v) none false none)], xcache := [(3, 0, 0x40000, 0xC0), (4, 0, 0x40000, 7)] }
def pager (p : SpPage) : State := { lab 0 [] with pages := [(0, { p with entry := 0x8001 })], gcyc := 5000 }
def walkS0 : State := walking 0x40000
def walkS1 : State := walking 0x80000000
def walkS2 : State := entryStore 0x3000 0x1d
def walkS3 : State := { (entryStore 0x3000 0x1d).modTh 0 (fun t => { t with hs := [] }) with xcache := [], shoot := [(5, 0xC0)] }
def walkS4 : State := { entryStore 0x4000 0x9001 with pages := [] }
def walkS5 : State := entryStore 0x4000 0x9001
def pagerS0 : State := pager { res := .pin 0 0, written := true }
def pagerS1 : State := pager { res := .pout 0 0, dirty := 1 }
def pagerS2 : State := pager { res := .res 0 0, reqs := [1], since := 100 }
def pagerS3 : State := { pager { res := .absent, written := true } with bounce := [{ die := 0, ctx := 0, addr := 64, bytes := [(0, 1)], tag := none, psn := false, cmd := 3, own := 0 }] }
def pagerS4 : State := { pager { res := .res 0 0 } with bounce := [{ die := 0, ctx := 0, addr := 64, bytes := [(0, 1)], tag := none, psn := false, cmd := 3, own := 0 }] }
def pagerS5 : State := { pager { res := .pin 0 0, written := true } with reqs := [rq 7 4001 (.store 0x8040 (bytesOf 8 1) none false none)] }
def pagerS6 : State := { pager { res := .pout 0 0, dirty := 1 } with reqs := [rq 7 4001 (.store 0x8040 (bytesOf 8 1) none false none)] }
def x50_00 : State := { (lab 4096 []) with pages := [] }
def x50_01 : State := lab 0 []

theorem witness_TranslationSteps :
    ((((walkS1.th 0).h 1).st = HState.pending) ∧
     (walkS1.shooting (walkS1.tcore 0) (walkS1.ctxOf 0) ((walkS1.th 0).h 1).va = false) ∧
     (walkS1.walk (walkS1.ctxOf 0) (!isCs 0) ((walkS1.th 0).h 1).va = none)) ∧
    ((((walkS0.th 0).h 1).st = HState.pending) ∧
     (walkS0.shooting (walkS0.tcore 0) (walkS0.ctxOf 0) ((walkS0.th 0).h 1).va = false) ∧
     (walkS0.walk (walkS0.ctxOf 0) (!isCs 0) ((walkS0.th 0).h 1).va = some { base := 0, size := 2097152, wr := true, cow := false, x := true, tens := none, lines := [64, 128, 192] : Leaf })) ∧
    ((∃ r ∈ walkS2.reqs, walkS2.changes r = some 192 ∧ walkS2.inOrder r = true ∧ (r.id, 3) ∉ walkS2.shootDone)) ∧
    ((walkS3.req? 5 = some { id := 5, key := 0, acc := 5, ctx := 0, kind := ReqKind.store 12288 [29#8, 0#8, 0#8, 0#8, 0#8, 0#8, 0#8, 0#8] none false none : Req }) ∧
     ((5, 192) ∈ walkS3.shoot) ∧
     (∀ e ∈ walkS3.shoot, e.1 = 5 → e.2 = 192) ∧
     (walkS3.inOrder { id := 5, key := 0, acc := 5, ctx := 0, kind := ReqKind.store 12288 [29#8, 0#8, 0#8, 0#8, 0#8, 0#8, 0#8, 0#8] none false none : Req } = true) ∧
     (walkS3.lineReached 192 5 { id := 5, key := 0, acc := 5, ctx := 0, kind := ReqKind.store 12288 [29#8, 0#8, 0#8, 0#8, 0#8, 0#8, 0#8, 0#8] none false none : Req }.key = false) ∧
     (walkS3.sptHeld { id := 5, key := 0, acc := 5, ctx := 0, kind := ReqKind.store 12288 [29#8, 0#8, 0#8, 0#8, 0#8, 0#8, 0#8, 0#8] none false none : Req } = [])) ∧
    ((walkS4.req? 5 = some { id := 5, key := 0, acc := 5, ctx := 0, kind := ReqKind.store 16384 [1#8, 144#8, 0#8, 0#8, 0#8, 0#8, 0#8, 0#8] none false none : Req }) ∧
     (walkS4.inOrder { id := 5, key := 0, acc := 5, ctx := 0, kind := ReqKind.store 16384 [1#8, 144#8, 0#8, 0#8, 0#8, 0#8, 0#8, 0#8] none false none : Req } = true) ∧
     (walkS4.sptChanged { id := 5, key := 0, acc := 5, ctx := 0, kind := ReqKind.store 16384 [1#8, 144#8, 0#8, 0#8, 0#8, 0#8, 0#8, 0#8] none false none : Req } ≠ []) ∧
     (walkS4.sptHeld { id := 5, key := 0, acc := 5, ctx := 0, kind := ReqKind.store 16384 [1#8, 144#8, 0#8, 0#8, 0#8, 0#8, 0#8, 0#8] none false none : Req } = []) ∧
     (walkS4.clear { id := 5, key := 0, acc := 5, ctx := 0, kind := ReqKind.store 16384 [1#8, 144#8, 0#8, 0#8, 0#8, 0#8, 0#8, 0#8] none false none : Req } = true)) ∧
    ((walkS5.req? 5 = some { id := 5, key := 0, acc := 5, ctx := 0, kind := ReqKind.store 16384 [1#8, 144#8, 0#8, 0#8, 0#8, 0#8, 0#8, 0#8] none false none : Req }) ∧
     (walkS5.inOrder { id := 5, key := 0, acc := 5, ctx := 0, kind := ReqKind.store 16384 [1#8, 144#8, 0#8, 0#8, 0#8, 0#8, 0#8, 0#8] none false none : Req } = true) ∧
     (walkS5.sptChanged { id := 5, key := 0, acc := 5, ctx := 0, kind := ReqKind.store 16384 [1#8, 144#8, 0#8, 0#8, 0#8, 0#8, 0#8, 0#8] none false none : Req } ≠ []) ∧
     (walkS5.sptHeld { id := 5, key := 0, acc := 5, ctx := 0, kind := ReqKind.store 16384 [1#8, 144#8, 0#8, 0#8, 0#8, 0#8, 0#8, 0#8] none false none : Req } ≠ [])) :=
  by
  refine ⟨?_, ?_, ?_, ?_, ?_, ?_⟩ <;>
    decide +kernel

theorem witness_PagerSteps :
    ((spEntryOf (pagerS5.spPage 0 0).entry = some (32768, false)) ∧
     (pagerS5.blockWaits 32768 = true) ∧
     ((pagerS5.spPage 0 0).res = Res.pin 0 0)) ∧
    ((spEntryOf (pagerS6.spPage 0 0).entry = some (32768, false)) ∧
     (pagerS6.blockWaits 32768 = true) ∧
     ((pagerS6.spPage 0 0).res = Res.pout 0 0)) ∧
    ((spEntryOf (pagerS0.spPage 0 0).entry = some (32768, false)) ∧
     ((pagerS0.spPage 0 0).res = Res.pin 0 0) ∧
     (pagerS0.blockWaits 32768 = false)) ∧
    ((spEntryOf (pagerS1.spPage 0 0).entry = some (32768, false)) ∧
     ((pagerS1.spPage 0 0).res = Res.pout 0 0) ∧
     ((pagerS1.spPage 0 0).reqs = []) ∧
     (pagerS1.blockWaits 32768 = false) ∧
     (∀ i < 32, (pagerS1.spPage 0 0).dirty.getLsbD i = true → have v := forN i pagerS1 fun i v => if (pagerS1.spPage 0 0).dirty.getLsbD i = true then v.agentWrite 0 (32768 + 64 * i) (rdBytes v.frames ((0 * 768 + 0) * 2048 + 64 * i) 64) (some (v.ftag ((0 * 768 + 0) * 2048 + 64 * i))) else v; have pa := 32768 + 64 * i; v.protectedKind pa = none ∧ v.violates false pa = false ∧ v.still 0 pa (rdBytes pagerS1.frames ((0 * 768 + 0) * 2048 + 64 * i) 64) = true)) ∧
    ((spEntryOf (pagerS2.spPage 0 0).entry = some (32768, false)) ∧
     ((pagerS2.spPage 0 0).res = Res.res 0 0) ∧
     ((pagerS2.spPage 0 0).reqs ≠ []) ∧
     ((pagerS2.spPage 0 0).since + 2048 ≤ pagerS2.gcyc) ∧
     (pagerS2.pinned 0 (pageKey 0 0) (pagerS2.spPage 0 0) = false) ∧
     (pagerS2.bounced 0 0 = false)) ∧
    ((spEntryOf (pagerS4.spPage 0 0).entry = some (32768, false)) ∧
     ((pagerS4.spPage 0 0).res = Res.res 0 0) ∧
     (∃ b ∈ pagerS4.bounce, b.ctx = 0 ∧ b.addr / 2048 = 0)) ∧
    ((spEntryOf (pagerS3.spPage 0 0).entry = some (32768, false)) ∧
     ((pagerS3.spPage 0 0).res = Res.absent) ∧
     (∃ b ∈ pagerS3.bounce, b.ctx = 0 ∧ b.addr / 2048 = 0)) :=
  by
  refine ⟨?_, ?_, ?_, ?_, ?_, ?_, ?_⟩ <;>
    decide +kernel

theorem witness_CorePower :
    ((7 ∉ x50_00.gated) ∧
     (∀ i < 8, (x50_00.th (7 * 8 + i)).task = none) ∧
     (x50_00.corePages 7 = [])) ∧
    ((0 ∉ x50_01.gated) ∧
     (∃ i < 8, (x50_01.th (0 * 8 + i)).task.isSome = true)) :=
  ⟨by decide +kernel,
   by decide +kernel⟩

def quiet (f : Sys → Sys) : State := { ({} : State) with sys := f { idleFor := 65536, hltol := 0xFFFF }, gcyc := 100000, links := [(24, { st := 3 })] }
def quietS0 : State := quiet id
def quietS1 : State := quiet fun x => { x with idle := 3 }
def quietS2 : State := quiet fun x => { x with idle := 2, idleTo := some 100000 }
def quietS4 : State := quiet fun x => { x with idle := 2, idleTo := some 200000 }
def quietS5 : State := { quiet id with links := [] }

theorem witness_IdleAndThrottle :
    ((quietS0.quiet = true) ∧
     (2 ^ 16 ≤ quietS0.sys.idleFor) ∧
     (quietS0.sys.idleTo = none) ∧
     (quietS0.sys.idle < 4) ∧
     (tolerated quietS0.sys.hltol (quietS0.sys.idle + 1) = true)) ∧
    ((quietS1.sys.idle ≠ 0) ∧
     (quietS1.sys.idleTo = none)) ∧
    ((quietS4.sys.idleTo = some 200000) ∧
     (quietS4.gcyc < 200000)) ∧
    ((quietS2.sys.idleTo = some 100000) ∧
     (100000 ≤ quietS2.gcyc) ∧
     (quietS2.sys.asked = [])) ∧
    (((quietS5.link 24).st ≠ 3 ∨ quietS5.sys.recovery = true)) ∧
    (((quietS2.link 24).st = 3) ∧
     (quietS2.sys.recovery = false) ∧
     (quietS2.entryDue = false)) ∧
    ((quietS0.sys.sampled + 18000 ≤ quietS0.gcyc)) :=
  by
  refine ⟨?_, ?_, ?_, ?_, ?_, ?_, ?_⟩ <;>
    decide +kernel




def cmdS (c : Cmd) (f : State → State := id) : State := f { lab 0 [] with cmds := [{ c with key := 0, baddr := 0x10000 }], nextId := 20, gcyc := 100 }
def cpyW (w0 w1 w2 w3 : Nat) : List W64 := [w0, w1, w2, w3].map (BitVec.ofNat 64)
def kept (t a : Nat) : Reuse := { die := 0, tenant := t, key := 4, writes := [], reads := [(a, 64)], lines := [], stamp := 0 }
def startS0 : State := cmdS { id := 9, pos := 6, major := 13, w := [3, 5] }
def startS1 : State := cmdS { id := 9, pos := 6, major := 4, w := [3] }
def startS5 : State := cmdS { id := 9, pos := 6, major := 21, w := [0, 0] } fun s => { s with reuse := [kept 0 0, kept 1 0] }
def startS7 : State := cmdS { id := 9, pos := 6, major := 0, w := cpyW 0 0 (7 * 2 ^ 52) 0, caps := [cap 0x40000, cap 0x41000] }
def startS8 : State := cmdS { id := 9, pos := 6, major := 2, w := cpyW 0 0 (7 * 2 ^ 52) (8 + 2 ^ 37 * 2000), caps := [cap 0x40000, cap 0x41000] }
def startS9 : State := cmdS { id := 9, pos := 6, major := 8, w := [0, 0], caps := [{ cap 0x40000 with pa := 0x10000000000 }] }
def startS10 : State := cmdS { id := 9, pos := 6, major := 20, w := [0, 0], caps := [cap 0x41000] }
def startS11 : State := cmdS { id := 9, pos := 6, major := 22, w := [0, 0], caps := [cap 0x41000] }
def startS12 : State := cmdS { id := 9, pos := 6, major := 22, fn := 1, w := [0, 0], caps := [cap 0x41000] }
def startS13 : State := cmdS { id := 9, pos := 7, major := 15, fn := 24, w := [0, 0], caps := [cap 0x41000] }
def startS14 : State := cmdS { id := 9, pos := 6, major := 1, w := cpyW 0 0 (7 * 2 ^ 52) (1 * 2 ^ 26 + 2 ^ 20), caps := [cap 0x40000, cap 0x41000] }
def startS15 : State := cmdS { id := 9, pos := 6, major := 0, waits := [3], w := cpyW 0 0 (7 * 2 ^ 52) 0, caps := [cap 0x40000, cap 0x41000] } fun s => { s with cmds := s.cmds ++ [{ id := 3 }] }
def copyS0 : State := cmdS { id := 9, pos := 6, major := 0, st := .timed, w := cpyW 0 0 (7 * 2 ^ 52) 0, caps := [cap 0x40000, cap 0x41000] }
def copyS1 : State := cmdS { id := 9, pos := 6, major := 0, st := .timed, w := cpyW 0 0 (7 * 2 ^ 52) (8 + 2 ^ 37 * 2000), caps := [cap 0x40000, cap 0x41000] }
def copyS2 : State := cmdS { id := 9, pos := 6, major := 0, st := .parked, w := cpyW 0 0 (7 * 2 ^ 52) 0, caps := [cap 0x40000, cap 0x41000] }
def copyS3 : State := cmdS { id := 9, pos := 6, major := 0, st := .running, row := 1, cid := 1, w := cpyW 0 0 (7 * 2 ^ 52) 0, caps := [cap 0x40000, cap 0x41000] }

theorem witness_EngineCommandsStart_1 :
    ((startS15.cmd? 9 = some { id := 9, w := [0#64, 0#64, 31525197391593472#64, 0#64], caps := [{ va := 262144, pa := 262144, base := 262144, size := 65536, tens := none, line := 262144 : Cap }, { va := 266240, pa := 266240, base := 262144, size := 65536, tens := none, line := 262144 : Cap }], waits := [3], baddr := 65536 : Cmd } ∧ startS15.starts { id := 9, w := [0#64, 0#64, 31525197391593472#64, 0#64], caps := [{ va := 262144, pa := 262144, base := 262144, size := 65536, tens := none, line := 262144 : Cap }, { va := 266240, pa := 266240, base := 262144, size := 65536, tens := none, line := 262144 : Cap }], waits := [3], baddr := 65536 : Cmd } = false)) ∧
    ((startS9.cmd? 9 = some { id := 9, major := 8, w := [0#64, 0#64], caps := [{ va := 262144, pa := 1099511627776, base := 262144, size := 65536, tens := none, line := 262144 : Cap }], baddr := 65536 : Cmd } ∧ startS9.starts { id := 9, major := 8, w := [0#64, 0#64], caps := [{ va := 262144, pa := 1099511627776, base := 262144, size := 65536, tens := none, line := 262144 : Cap }], baddr := 65536 : Cmd } = true ∧ startS9.startViolates { id := 9, major := 8, w := [0#64, 0#64], caps := [{ va := 262144, pa := 1099511627776, base := 262144, size := 65536, tens := none, line := 262144 : Cap }], baddr := 65536 : Cmd } = some 1099511627776)) ∧
    ((startS0.cmd? 9 = some { id := 9, major := 13, w := [3#64, 5#64], baddr := 65536 : Cmd }) ∧
     (startS0.starts { id := 9, major := 13, w := [3#64, 5#64], baddr := 65536 : Cmd } = true) ∧
     (startS0.startViolates { id := 9, major := 13, w := [3#64, 5#64], baddr := 65536 : Cmd } = none) ∧
     ({ id := 9, major := 13, w := [3#64, 5#64], baddr := 65536 : Cmd }.pos = 6) ∧
     ({ id := 9, major := 13, w := [3#64, 5#64], baddr := 65536 : Cmd }.major = 13) ∧
     (startS0.clean 9 = true) ∧
     (let u := startS0.runCmd { id := 9, major := 13, w := [3#64, 5#64], baddr := 65536 : Cmd }; let n := BitVec.toNat ({ id := 9, major := 13, w := [3#64, 5#64], baddr := 65536 : Cmd }.w.getD 0 0); startS0.violates false (startS0.semPa { id := 9, major := 13, w := [3#64, 5#64], baddr := 65536 : Cmd }.ctx n) = false ∧ u.calm (startS0.semPa { id := 9, major := 13, w := [3#64, 5#64], baddr := 65536 : Cmd }.ctx n / 64) 0 = true)) ∧
    ((startS1.cmd? 9 = some { id := 9, major := 4, w := [3#64], baddr := 65536 : Cmd }) ∧
     (startS1.starts { id := 9, major := 4, w := [3#64], baddr := 65536 : Cmd } = true) ∧
     (startS1.startViolates { id := 9, major := 4, w := [3#64], baddr := 65536 : Cmd } = none) ∧
     ({ id := 9, major := 4, w := [3#64], baddr := 65536 : Cmd }.pos = 6 ∧ ({ id := 9, major := 4, w := [3#64], baddr := 65536 : Cmd }.major = 4 ∨ { id := 9, major := 4, w := [3#64], baddr := 65536 : Cmd }.major = 12 ∨ { id := 9, major := 4, w := [3#64], baddr := 65536 : Cmd }.major = 14) ∨ { id := 9, major := 4, w := [3#64], baddr := 65536 : Cmd }.pos = 7 ∧ { id := 9, major := 4, w := [3#64], baddr := 65536 : Cmd }.major = 7)) ∧
    (({ id := 9, major := 20, w := [0#64, 0#64], caps := [{ va := 266240, pa := 266240, base := 262144, size := 65536, tens := none, line := 262144 : Cap }], baddr := 65536 : Cmd }.pos = 6) ∧
     ({ id := 9, major := 20, w := [0#64, 0#64], caps := [{ va := 266240, pa := 266240, base := 262144, size := 65536, tens := none, line := 262144 : Cap }], baddr := 65536 : Cmd }.major = 20) ∧
     (startS10.clean 9 = true) ∧
     (let u := startS10.runCmd { id := 9, major := 20, w := [0#64, 0#64], caps := [{ va := 266240, pa := 266240, base := 262144, size := 65536, tens := none, line := 262144 : Cap }], baddr := 65536 : Cmd }; let cap := fun i => { id := 9, major := 20, w := [0#64, 0#64], caps := [{ va := 266240, pa := 266240, base := 262144, size := 65536, tens := none, line := 262144 : Cap }], baddr := 65536 : Cmd }.caps.getD i { va := 0, pa := 0, base := 0, size := 0, tens := none : Cap }; let tid := (startS10.ctx { id := 9, major := 20, w := [0#64, 0#64], caps := [{ va := 266240, pa := 266240, base := 262144, size := 65536, tens := none, line := 262144 : Cap }], baddr := 65536 : Cmd }.ctx).tenant; let x := (Option.map Tenant.stats (startS10.tenant? tid)).getD { : ReuseStats }; let held := (List.filter (fun e => e.tenant == tid) startS10.reuse).length; startS10.cmd? 9 = some { id := 9, major := 20, w := [0#64, 0#64], caps := [{ va := 266240, pa := 266240, base := 262144, size := 65536, tens := none, line := 262144 : Cap }], baddr := 65536 : Cmd } ∧ startS10.starts { id := 9, major := 20, w := [0#64, 0#64], caps := [{ va := 266240, pa := 266240, base := 262144, size := 65536, tens := none, line := 262144 : Cap }], baddr := 65536 : Cmd } = true ∧ startS10.startViolates { id := 9, major := 20, w := [0#64, 0#64], caps := [{ va := 266240, pa := 266240, base := 262144, size := 65536, tens := none, line := 262144 : Cap }], baddr := 65536 : Cmd } = none ∧ u.open_ { id := 9, major := 20, w := [0#64, 0#64], caps := [{ va := 266240, pa := 266240, base := 262144, size := 65536, tens := none, line := 262144 : Cap }], baddr := 65536 : Cmd } (cap 0) (List.flatMap (bytesOf 8) [x.lookup, x.hit, x.insert, x.cancel, x.refuse, x.evict, held % 2 ^ 32 + 4 * startS10.quota tid * 2 ^ 32, x.dup]).length ∧ 0 < (List.flatMap (bytesOf 8) [x.lookup, x.hit, x.insert, x.cancel, x.refuse, x.evict, held % 2 ^ 32 + 4 * startS10.quota tid * 2 ^ 32, x.dup]).length)) ∧
    ((startS5.cmd? 9 = some { id := 9, major := 21, w := [0#64, 0#64], baddr := 65536 : Cmd }) ∧
     (startS5.starts { id := 9, major := 21, w := [0#64, 0#64], baddr := 65536 : Cmd } = true) ∧
     (startS5.startViolates { id := 9, major := 21, w := [0#64, 0#64], baddr := 65536 : Cmd } = none) ∧
     ({ id := 9, major := 21, w := [0#64, 0#64], baddr := 65536 : Cmd }.pos = 6) ∧
     ({ id := 9, major := 21, w := [0#64, 0#64], baddr := 65536 : Cmd }.major = 21) ∧
     (startS5.clean 9 = true)) :=
  by
  refine ⟨?_, ?_, ?_, ?_, ?_, ?_⟩ <;>
    decide +kernel

theorem witness_EngineCommandsStart_2 :
    (({ id := 9, major := 22, w := [0#64, 0#64], caps := [{ va := 266240, pa := 266240, base := 262144, size := 65536, tens := none, line := 262144 : Cap }], baddr := 65536 : Cmd }.pos = 6) ∧
     ({ id := 9, major := 22, w := [0#64, 0#64], caps := [{ va := 266240, pa := 266240, base := 262144, size := 65536, tens := none, line := 262144 : Cap }], baddr := 65536 : Cmd }.major = 22) ∧
     ({ id := 9, major := 22, w := [0#64, 0#64], caps := [{ va := 266240, pa := 266240, base := 262144, size := 65536, tens := none, line := 262144 : Cap }], baddr := 65536 : Cmd }.fn = 0) ∧
     (startS11.cmd? 9 = some { id := 9, major := 22, w := [0#64, 0#64], caps := [{ va := 266240, pa := 266240, base := 262144, size := 65536, tens := none, line := 262144 : Cap }], baddr := 65536 : Cmd } ∧ startS11.starts { id := 9, major := 22, w := [0#64, 0#64], caps := [{ va := 266240, pa := 266240, base := 262144, size := 65536, tens := none, line := 262144 : Cap }], baddr := 65536 : Cmd } = true ∧ startS11.startViolates { id := 9, major := 22, w := [0#64, 0#64], caps := [{ va := 266240, pa := 266240, base := 262144, size := 65536, tens := none, line := 262144 : Cap }], baddr := 65536 : Cmd } = none)) ∧
    (({ id := 9, major := 22, fn := 1, w := [0#64, 0#64], caps := [{ va := 266240, pa := 266240, base := 262144, size := 65536, tens := none, line := 262144 : Cap }], baddr := 65536 : Cmd }.pos = 6) ∧
     ({ id := 9, major := 22, fn := 1, w := [0#64, 0#64], caps := [{ va := 266240, pa := 266240, base := 262144, size := 65536, tens := none, line := 262144 : Cap }], baddr := 65536 : Cmd }.major = 22) ∧
     ({ id := 9, major := 22, fn := 1, w := [0#64, 0#64], caps := [{ va := 266240, pa := 266240, base := 262144, size := 65536, tens := none, line := 262144 : Cap }], baddr := 65536 : Cmd }.fn ≠ 0) ∧
     (startS12.cmd? 9 = some { id := 9, major := 22, fn := 1, w := [0#64, 0#64], caps := [{ va := 266240, pa := 266240, base := 262144, size := 65536, tens := none, line := 262144 : Cap }], baddr := 65536 : Cmd } ∧ startS12.starts { id := 9, major := 22, fn := 1, w := [0#64, 0#64], caps := [{ va := 266240, pa := 266240, base := 262144, size := 65536, tens := none, line := 262144 : Cap }], baddr := 65536 : Cmd } = true ∧ startS12.startViolates { id := 9, major := 22, fn := 1, w := [0#64, 0#64], caps := [{ va := 266240, pa := 266240, base := 262144, size := 65536, tens := none, line := 262144 : Cap }], baddr := 65536 : Cmd } = none)) ∧
    (({ id := 9, pos := 7, major := 15, fn := 24, w := [0#64, 0#64], caps := [{ va := 266240, pa := 266240, base := 262144, size := 65536, tens := none, line := 262144 : Cap }], baddr := 65536 : Cmd }.pos = 7) ∧
     ({ id := 9, pos := 7, major := 15, fn := 24, w := [0#64, 0#64], caps := [{ va := 266240, pa := 266240, base := 262144, size := 65536, tens := none, line := 262144 : Cap }], baddr := 65536 : Cmd }.major = 15) ∧
     (startS13.clean 9 = true) ∧
     (let u := startS13.runCmd { id := 9, pos := 7, major := 15, fn := 24, w := [0#64, 0#64], caps := [{ va := 266240, pa := 266240, base := 262144, size := 65536, tens := none, line := 262144 : Cap }], baddr := 65536 : Cmd }; let cap := fun i => { id := 9, pos := 7, major := 15, fn := 24, w := [0#64, 0#64], caps := [{ va := 266240, pa := 266240, base := 262144, size := 65536, tens := none, line := 262144 : Cap }], baddr := 65536 : Cmd }.caps.getD i { va := 0, pa := 0, base := 0, size := 0, tens := none : Cap }; let l := startS13.link { id := 9, pos := 7, major := 15, fn := 24, w := [0#64, 0#64], caps := [{ va := 266240, pa := 266240, base := 262144, size := 65536, tens := none, line := 262144 : Cap }], baddr := 65536 : Cmd }.fn; let lw := if l.st = 3 ∨ l.st = 4 then if { id := 9, pos := 7, major := 15, fn := 24, w := [0#64, 0#64], caps := [{ va := 266240, pa := 266240, base := 262144, size := 65536, tens := none, line := 262144 : Cap }], baddr := 65536 : Cmd }.fn = 24 then 5 - l.narrow else 3 - l.narrow else 0; let fab := fun v => if { id := 9, pos := 7, major := 15, fn := 24, w := [0#64, 0#64], caps := [{ va := 266240, pa := 266240, base := 262144, size := 65536, tens := none, line := 262144 : Cap }], baddr := 65536 : Cmd }.fn = 24 then 0 else v; startS13.cmd? 9 = some { id := 9, pos := 7, major := 15, fn := 24, w := [0#64, 0#64], caps := [{ va := 266240, pa := 266240, base := 262144, size := 65536, tens := none, line := 262144 : Cap }], baddr := 65536 : Cmd } ∧ startS13.starts { id := 9, pos := 7, major := 15, fn := 24, w := [0#64, 0#64], caps := [{ va := 266240, pa := 266240, base := 262144, size := 65536, tens := none, line := 262144 : Cap }], baddr := 65536 : Cmd } = true ∧ startS13.startViolates { id := 9, pos := 7, major := 15, fn := 24, w := [0#64, 0#64], caps := [{ va := 266240, pa := 266240, base := 262144, size := 65536, tens := none, line := 262144 : Cap }], baddr := 65536 : Cmd } = none ∧ u.open_ { id := 9, pos := 7, major := 15, fn := 24, w := [0#64, 0#64], caps := [{ va := 266240, pa := 266240, base := 262144, size := 65536, tens := none, line := 262144 : Cap }], baddr := 65536 : Cmd } (cap 0) (List.flatMap (bytesOf 8) [fab (l.peer * 2 ^ 26 + l.peerPort * 2 ^ 21) + lw * 16 + l.st, l.flitTx, l.flitRx, l.crc * 2 ^ 32 + l.retry, l.retrain * 2 ^ 32 + l.degrade * 2 ^ 16 + l.exhaust, fab (wrapN l.peerOfs 64), startS13.gcyc, fab (l.dropAge * 2 ^ 32)]).length ∧ 0 < (List.flatMap (bytesOf 8) [fab (l.peer * 2 ^ 26 + l.peerPort * 2 ^ 21) + lw * 16 + l.st, l.flitTx, l.flitRx, l.crc * 2 ^ 32 + l.retry, l.retrain * 2 ^ 32 + l.degrade * 2 ^ 16 + l.exhaust, fab (wrapN l.peerOfs 64), startS13.gcyc, fab (l.dropAge * 2 ^ 32)]).length)) ∧
    ((startS8.cmd? 9 = some { id := 9, major := 2, w := [0#64, 0#64, 31525197391593472#64, 274877906944008#64], caps := [{ va := 262144, pa := 262144, base := 262144, size := 65536, tens := none, line := 262144 : Cap }, { va := 266240, pa := 266240, base := 262144, size := 65536, tens := none, line := 262144 : Cap }], baddr := 65536 : Cmd } ∧ startS8.starts { id := 9, major := 2, w := [0#64, 0#64, 31525197391593472#64, 274877906944008#64], caps := [{ va := 262144, pa := 262144, base := 262144, size := 65536, tens := none, line := 262144 : Cap }, { va := 266240, pa := 266240, base := 262144, size := 65536, tens := none, line := 262144 : Cap }], baddr := 65536 : Cmd } = true ∧ startS8.startViolates { id := 9, major := 2, w := [0#64, 0#64, 31525197391593472#64, 274877906944008#64], caps := [{ va := 262144, pa := 262144, base := 262144, size := 65536, tens := none, line := 262144 : Cap }, { va := 266240, pa := 266240, base := 262144, size := 65536, tens := none, line := 262144 : Cap }], baddr := 65536 : Cmd } = none ∧ { id := 9, major := 2, w := [0#64, 0#64, 31525197391593472#64, 274877906944008#64], caps := [{ va := 262144, pa := 262144, base := 262144, size := 65536, tens := none, line := 262144 : Cap }, { va := 266240, pa := 266240, base := 262144, size := 65536, tens := none, line := 262144 : Cap }], baddr := 65536 : Cmd }.pos = 6 ∧ { id := 9, major := 2, w := [0#64, 0#64, 31525197391593472#64, 274877906944008#64], caps := [{ va := 262144, pa := 262144, base := 262144, size := 65536, tens := none, line := 262144 : Cap }, { va := 266240, pa := 266240, base := 262144, size := 65536, tens := none, line := 262144 : Cap }], baddr := 65536 : Cmd }.major ≤ 3 ∧ copyDue startS8.gcyc ({ id := 9, major := 2, w := [0#64, 0#64, 31525197391593472#64, 274877906944008#64], caps := [{ va := 262144, pa := 262144, base := 262144, size := 65536, tens := none, line := 262144 : Cap }, { va := 266240, pa := 266240, base := 262144, size := 65536, tens := none, line := 262144 : Cap }], baddr := 65536 : Cmd }.w.getD 3 0) = false)) ∧
    ((let cap := fun i => { id := 9, w := [0#64, 0#64, 31525197391593472#64, 0#64], caps := [{ va := 262144, pa := 262144, base := 262144, size := 65536, tens := none, line := 262144 : Cap }, { va := 266240, pa := 266240, base := 262144, size := 65536, tens := none, line := 262144 : Cap }], baddr := 65536 : Cmd }.caps.getD i { va := 0, pa := 0, base := 0, size := 0, tens := none : Cap }; let n := cpRowb ({ id := 9, w := [0#64, 0#64, 31525197391593472#64, 0#64], caps := [{ va := 262144, pa := 262144, base := 262144, size := 65536, tens := none, line := 262144 : Cap }, { va := 266240, pa := 266240, base := 262144, size := 65536, tens := none, line := 262144 : Cap }], baddr := 65536 : Cmd }.w.getD 2 0); startS7.cmd? 9 = some { id := 9, w := [0#64, 0#64, 31525197391593472#64, 0#64], caps := [{ va := 262144, pa := 262144, base := 262144, size := 65536, tens := none, line := 262144 : Cap }, { va := 266240, pa := 266240, base := 262144, size := 65536, tens := none, line := 262144 : Cap }], baddr := 65536 : Cmd } ∧ startS7.starts { id := 9, w := [0#64, 0#64, 31525197391593472#64, 0#64], caps := [{ va := 262144, pa := 262144, base := 262144, size := 65536, tens := none, line := 262144 : Cap }, { va := 266240, pa := 266240, base := 262144, size := 65536, tens := none, line := 262144 : Cap }], baddr := 65536 : Cmd } = true ∧ startS7.startViolates { id := 9, w := [0#64, 0#64, 31525197391593472#64, 0#64], caps := [{ va := 262144, pa := 262144, base := 262144, size := 65536, tens := none, line := 262144 : Cap }, { va := 266240, pa := 266240, base := 262144, size := 65536, tens := none, line := 262144 : Cap }], baddr := 65536 : Cmd } = none ∧ { id := 9, w := [0#64, 0#64, 31525197391593472#64, 0#64], caps := [{ va := 262144, pa := 262144, base := 262144, size := 65536, tens := none, line := 262144 : Cap }, { va := 266240, pa := 266240, base := 262144, size := 65536, tens := none, line := 262144 : Cap }], baddr := 65536 : Cmd }.pos = 6 ∧ { id := 9, w := [0#64, 0#64, 31525197391593472#64, 0#64], caps := [{ va := 262144, pa := 262144, base := 262144, size := 65536, tens := none, line := 262144 : Cap }, { va := 266240, pa := 266240, base := 262144, size := 65536, tens := none, line := 262144 : Cap }], baddr := 65536 : Cmd }.major ≤ 1 ∧ copyDue startS7.gcyc ({ id := 9, w := [0#64, 0#64, 31525197391593472#64, 0#64], caps := [{ va := 262144, pa := 262144, base := 262144, size := 65536, tens := none, line := 262144 : Cap }, { va := 266240, pa := 266240, base := 262144, size := 65536, tens := none, line := 262144 : Cap }], baddr := 65536 : Cmd }.w.getD 3 0) = true ∧ cpRows ({ id := 9, w := [0#64, 0#64, 31525197391593472#64, 0#64], caps := [{ va := 262144, pa := 262144, base := 262144, size := 65536, tens := none, line := 262144 : Cap }, { va := 266240, pa := 266240, base := 262144, size := 65536, tens := none, line := 262144 : Cap }], baddr := 65536 : Cmd }.w.getD 2 0) = 1 ∧ { id := 9, w := [0#64, 0#64, 31525197391593472#64, 0#64], caps := [{ va := 262144, pa := 262144, base := 262144, size := 65536, tens := none, line := 262144 : Cap }, { va := 266240, pa := 266240, base := 262144, size := 65536, tens := none, line := 262144 : Cap }], baddr := 65536 : Cmd }.row = 0 ∧ cpSsp ({ id := 9, w := [0#64, 0#64, 31525197391593472#64, 0#64], caps := [{ va := 262144, pa := 262144, base := 262144, size := 65536, tens := none, line := 262144 : Cap }, { va := 266240, pa := 266240, base := 262144, size := 65536, tens := none, line := 262144 : Cap }], baddr := 65536 : Cmd }.w.getD 3 0) = false ∧ cpDsp ({ id := 9, w := [0#64, 0#64, 31525197391593472#64, 0#64], caps := [{ va := 262144, pa := 262144, base := 262144, size := 65536, tens := none, line := 262144 : Cap }, { va := 266240, pa := 266240, base := 262144, size := 65536, tens := none, line := 262144 : Cap }], baddr := 65536 : Cmd }.w.getD 3 0) = false ∧ 0 < n ∧ (cap 0).pa % 64 + n ≤ 64 ∧ physClass (cap 0).pa = PhysClass.hbm ∧ startS7.violates (startS7.firmware { id := 9, w := [0#64, 0#64, 31525197391593472#64, 0#64], caps := [{ va := 262144, pa := 262144, base := 262144, size := 65536, tens := none, line := 262144 : Cap }, { va := 266240, pa := 266240, base := 262144, size := 65536, tens := none, line := 262144 : Cap }], baddr := 65536 : Cmd }.key) (cap 1).pa = false ∧ startS7.owed (engKey 9) [((cap 0).pa, n)] = false ∧ tagPsn (startS7.tag (cap 0).pa) = false ∧ { id := 9, w := [0#64, 0#64, 31525197391593472#64, 0#64], caps := [{ va := 262144, pa := 262144, base := 262144, size := 65536, tens := none, line := 262144 : Cap }, { va := 266240, pa := 266240, base := 262144, size := 65536, tens := none, line := 262144 : Cap }], baddr := 65536 : Cmd }.buf = [] ∧ { id := 9, w := [0#64, 0#64, 31525197391593472#64, 0#64], caps := [{ va := 262144, pa := 262144, base := 262144, size := 65536, tens := none, line := 262144 : Cap }, { va := 266240, pa := 266240, base := 262144, size := 65536, tens := none, line := 262144 : Cap }], baddr := 65536 : Cmd }.major = 0 ∧ (cap 1).pa % 64 + (rdBytes startS7.mem (cap 0).pa n).length ≤ 64)) ∧
    ((let cap := fun i => { id := 9, major := 1, w := [0#64, 0#64, 31525197391593472#64, 68157440#64], caps := [{ va := 262144, pa := 262144, base := 262144, size := 65536, tens := none, line := 262144 : Cap }, { va := 266240, pa := 266240, base := 262144, size := 65536, tens := none, line := 262144 : Cap }], baddr := 65536 : Cmd }.caps.getD i { va := 0, pa := 0, base := 0, size := 0, tens := none : Cap }; let n := cpRowb ({ id := 9, major := 1, w := [0#64, 0#64, 31525197391593472#64, 68157440#64], caps := [{ va := 262144, pa := 262144, base := 262144, size := 65536, tens := none, line := 262144 : Cap }, { va := 266240, pa := 266240, base := 262144, size := 65536, tens := none, line := 262144 : Cap }], baddr := 65536 : Cmd }.w.getD 2 0); let f := cpSfmt ({ id := 9, major := 1, w := [0#64, 0#64, 31525197391593472#64, 68157440#64], caps := [{ va := 262144, pa := 262144, base := 262144, size := 65536, tens := none, line := 262144 : Cap }, { va := 266240, pa := 266240, base := 262144, size := 65536, tens := none, line := 262144 : Cap }], baddr := 65536 : Cmd }.w.getD 3 0); let g := cpDfmt ({ id := 9, major := 1, w := [0#64, 0#64, 31525197391593472#64, 68157440#64], caps := [{ va := 262144, pa := 262144, base := 262144, size := 65536, tens := none, line := 262144 : Cap }, { va := 266240, pa := 266240, base := 262144, size := 65536, tens := none, line := 262144 : Cap }], baddr := 65536 : Cmd }.w.getD 3 0); let md := if cpRm ({ id := 9, major := 1, w := [0#64, 0#64, 31525197391593472#64, 68157440#64], caps := [{ va := 262144, pa := 262144, base := 262144, size := 65536, tens := none, line := 262144 : Cap }, { va := 266240, pa := 266240, base := 262144, size := 65536, tens := none, line := 262144 : Cap }], baddr := 65536 : Cmd }.w.getD 3 0) = 1 then Rm.rtz else Rm.rne; startS14.cmd? 9 = some { id := 9, major := 1, w := [0#64, 0#64, 31525197391593472#64, 68157440#64], caps := [{ va := 262144, pa := 262144, base := 262144, size := 65536, tens := none, line := 262144 : Cap }, { va := 266240, pa := 266240, base := 262144, size := 65536, tens := none, line := 262144 : Cap }], baddr := 65536 : Cmd } ∧ startS14.starts { id := 9, major := 1, w := [0#64, 0#64, 31525197391593472#64, 68157440#64], caps := [{ va := 262144, pa := 262144, base := 262144, size := 65536, tens := none, line := 262144 : Cap }, { va := 266240, pa := 266240, base := 262144, size := 65536, tens := none, line := 262144 : Cap }], baddr := 65536 : Cmd } = true ∧ startS14.startViolates { id := 9, major := 1, w := [0#64, 0#64, 31525197391593472#64, 68157440#64], caps := [{ va := 262144, pa := 262144, base := 262144, size := 65536, tens := none, line := 262144 : Cap }, { va := 266240, pa := 266240, base := 262144, size := 65536, tens := none, line := 262144 : Cap }], baddr := 65536 : Cmd } = none ∧ { id := 9, major := 1, w := [0#64, 0#64, 31525197391593472#64, 68157440#64], caps := [{ va := 262144, pa := 262144, base := 262144, size := 65536, tens := none, line := 262144 : Cap }, { va := 266240, pa := 266240, base := 262144, size := 65536, tens := none, line := 262144 : Cap }], baddr := 65536 : Cmd }.pos = 6 ∧ { id := 9, major := 1, w := [0#64, 0#64, 31525197391593472#64, 68157440#64], caps := [{ va := 262144, pa := 262144, base := 262144, size := 65536, tens := none, line := 262144 : Cap }, { va := 266240, pa := 266240, base := 262144, size := 65536, tens := none, line := 262144 : Cap }], baddr := 65536 : Cmd }.major ≤ 1 ∧ copyDue startS14.gcyc ({ id := 9, major := 1, w := [0#64, 0#64, 31525197391593472#64, 68157440#64], caps := [{ va := 262144, pa := 262144, base := 262144, size := 65536, tens := none, line := 262144 : Cap }, { va := 266240, pa := 266240, base := 262144, size := 65536, tens := none, line := 262144 : Cap }], baddr := 65536 : Cmd }.w.getD 3 0) = true ∧ cpRows ({ id := 9, major := 1, w := [0#64, 0#64, 31525197391593472#64, 68157440#64], caps := [{ va := 262144, pa := 262144, base := 262144, size := 65536, tens := none, line := 262144 : Cap }, { va := 266240, pa := 266240, base := 262144, size := 65536, tens := none, line := 262144 : Cap }], baddr := 65536 : Cmd }.w.getD 2 0) = 1 ∧ { id := 9, major := 1, w := [0#64, 0#64, 31525197391593472#64, 68157440#64], caps := [{ va := 262144, pa := 262144, base := 262144, size := 65536, tens := none, line := 262144 : Cap }, { va := 266240, pa := 266240, base := 262144, size := 65536, tens := none, line := 262144 : Cap }], baddr := 65536 : Cmd }.row = 0 ∧ cpSsp ({ id := 9, major := 1, w := [0#64, 0#64, 31525197391593472#64, 68157440#64], caps := [{ va := 262144, pa := 262144, base := 262144, size := 65536, tens := none, line := 262144 : Cap }, { va := 266240, pa := 266240, base := 262144, size := 65536, tens := none, line := 262144 : Cap }], baddr := 65536 : Cmd }.w.getD 3 0) = false ∧ cpDsp ({ id := 9, major := 1, w := [0#64, 0#64, 31525197391593472#64, 68157440#64], caps := [{ va := 262144, pa := 262144, base := 262144, size := 65536, tens := none, line := 262144 : Cap }, { va := 266240, pa := 266240, base := 262144, size := 65536, tens := none, line := 262144 : Cap }], baddr := 65536 : Cmd }.w.getD 3 0) = false ∧ 0 < n ∧ (cap 0).pa % 64 + n ≤ 64 ∧ physClass (cap 0).pa = PhysClass.hbm ∧ startS14.violates (startS14.firmware { id := 9, major := 1, w := [0#64, 0#64, 31525197391593472#64, 68157440#64], caps := [{ va := 262144, pa := 262144, base := 262144, size := 65536, tens := none, line := 262144 : Cap }, { va := 266240, pa := 266240, base := 262144, size := 65536, tens := none, line := 262144 : Cap }], baddr := 65536 : Cmd }.key) (cap 1).pa = false ∧ startS14.owed (engKey 9) [((cap 0).pa, n)] = false ∧ tagPsn (startS14.tag (cap 0).pa) = false ∧ { id := 9, major := 1, w := [0#64, 0#64, 31525197391593472#64, 68157440#64], caps := [{ va := 262144, pa := 262144, base := 262144, size := 65536, tens := none, line := 262144 : Cap }, { va := 266240, pa := 266240, base := 262144, size := 65536, tens := none, line := 262144 : Cap }], baddr := 65536 : Cmd }.buf = [] ∧ { id := 9, major := 1, w := [0#64, 0#64, 31525197391593472#64, 68157440#64], caps := [{ va := 262144, pa := 262144, base := 262144, size := 65536, tens := none, line := 262144 : Cap }, { va := 266240, pa := 266240, base := 262144, size := 65536, tens := none, line := 262144 : Cap }], baddr := 65536 : Cmd }.major = 1 ∧ (cap 0).tens = none ∧ (cap 1).tens = none ∧ plainFmt f = true ∧ plainFmt g = true ∧ n % (fmtBits f / 8) = 0 ∧ (cap 1).pa % 64 + (List.flatMap (fun i => bytesOf (fmtBits g / 8) (convert (decCode f (rdN startS14.mem ((cap 0).pa + fmtBits f / 8 * i) (fmtBits f / 8))) g md 0).1) (List.range (n / (fmtBits f / 8)))).length ≤ 64)) :=
  by
  refine ⟨?_, ?_, ?_, ?_, ?_, ?_⟩ <;>
    decide +kernel

theorem witness_CopiesProceed :
    ((copyS0.cmd? 9 = some { id := 9, w := [0#64, 0#64, 31525197391593472#64, 0#64], caps := [{ va := 262144, pa := 262144, base := 262144, size := 65536, tens := none, line := 262144 : Cap }, { va := 266240, pa := 266240, base := 262144, size := 65536, tens := none, line := 262144 : Cap }], baddr := 65536, st := CmdSt.timed : Cmd } ∧ { id := 9, w := [0#64, 0#64, 31525197391593472#64, 0#64], caps := [{ va := 262144, pa := 262144, base := 262144, size := 65536, tens := none, line := 262144 : Cap }, { va := 266240, pa := 266240, base := 262144, size := 65536, tens := none, line := 262144 : Cap }], baddr := 65536, st := CmdSt.timed : Cmd }.isCopy = true ∧ { id := 9, w := [0#64, 0#64, 31525197391593472#64, 0#64], caps := [{ va := 262144, pa := 262144, base := 262144, size := 65536, tens := none, line := 262144 : Cap }, { va := 266240, pa := 266240, base := 262144, size := 65536, tens := none, line := 262144 : Cap }], baddr := 65536, st := CmdSt.timed : Cmd }.st = CmdSt.timed ∧ copyDue copyS0.gcyc ({ id := 9, w := [0#64, 0#64, 31525197391593472#64, 0#64], caps := [{ va := 262144, pa := 262144, base := 262144, size := 65536, tens := none, line := 262144 : Cap }, { va := 266240, pa := 266240, base := 262144, size := 65536, tens := none, line := 262144 : Cap }], baddr := 65536, st := CmdSt.timed : Cmd }.w.getD 3 0) = true)) ∧
    ((copyS1.cmd? 9 = some { id := 9, w := [0#64, 0#64, 31525197391593472#64, 274877906944008#64], caps := [{ va := 262144, pa := 262144, base := 262144, size := 65536, tens := none, line := 262144 : Cap }, { va := 266240, pa := 266240, base := 262144, size := 65536, tens := none, line := 262144 : Cap }], baddr := 65536, st := CmdSt.timed : Cmd } ∧ { id := 9, w := [0#64, 0#64, 31525197391593472#64, 274877906944008#64], caps := [{ va := 262144, pa := 262144, base := 262144, size := 65536, tens := none, line := 262144 : Cap }, { va := 266240, pa := 266240, base := 262144, size := 65536, tens := none, line := 262144 : Cap }], baddr := 65536, st := CmdSt.timed : Cmd }.isCopy = true ∧ { id := 9, w := [0#64, 0#64, 31525197391593472#64, 274877906944008#64], caps := [{ va := 262144, pa := 262144, base := 262144, size := 65536, tens := none, line := 262144 : Cap }, { va := 266240, pa := 266240, base := 262144, size := 65536, tens := none, line := 262144 : Cap }], baddr := 65536, st := CmdSt.timed : Cmd }.st = CmdSt.timed ∧ copyDue copyS1.gcyc ({ id := 9, w := [0#64, 0#64, 31525197391593472#64, 274877906944008#64], caps := [{ va := 262144, pa := 262144, base := 262144, size := 65536, tens := none, line := 262144 : Cap }, { va := 266240, pa := 266240, base := 262144, size := 65536, tens := none, line := 262144 : Cap }], baddr := 65536, st := CmdSt.timed : Cmd }.w.getD 3 0) = false)) ∧
    ((copyS2.cmd? 9 = some { id := 9, w := [0#64, 0#64, 31525197391593472#64, 0#64], caps := [{ va := 262144, pa := 262144, base := 262144, size := 65536, tens := none, line := 262144 : Cap }, { va := 266240, pa := 266240, base := 262144, size := 65536, tens := none, line := 262144 : Cap }], baddr := 65536, st := CmdSt.parked : Cmd } ∧ { id := 9, w := [0#64, 0#64, 31525197391593472#64, 0#64], caps := [{ va := 262144, pa := 262144, base := 262144, size := 65536, tens := none, line := 262144 : Cap }, { va := 266240, pa := 266240, base := 262144, size := 65536, tens := none, line := 262144 : Cap }], baddr := 65536, st := CmdSt.parked : Cmd }.isCopy = true ∧ { id := 9, w := [0#64, 0#64, 31525197391593472#64, 0#64], caps := [{ va := 262144, pa := 262144, base := 262144, size := 65536, tens := none, line := 262144 : Cap }, { va := 266240, pa := 266240, base := 262144, size := 65536, tens := none, line := 262144 : Cap }], baddr := 65536, st := CmdSt.parked : Cmd }.st = CmdSt.parked)) ∧
    ((∀ r ∈ copyS3.reqs, r.key ≠ engKey 9) ∧
     (copyS3.clean 9 = true) ∧
     (copyS3.cmd? 9 = some { id := 9, w := [0#64, 0#64, 31525197391593472#64, 0#64], caps := [{ va := 262144, pa := 262144, base := 262144, size := 65536, tens := none, line := 262144 : Cap }, { va := 266240, pa := 266240, base := 262144, size := 65536, tens := none, line := 262144 : Cap }], baddr := 65536, cid := 1, st := CmdSt.running, row := 1 : Cmd } ∧ { id := 9, w := [0#64, 0#64, 31525197391593472#64, 0#64], caps := [{ va := 262144, pa := 262144, base := 262144, size := 65536, tens := none, line := 262144 : Cap }, { va := 266240, pa := 266240, base := 262144, size := 65536, tens := none, line := 262144 : Cap }], baddr := 65536, cid := 1, st := CmdSt.running, row := 1 : Cmd }.isCopy = true ∧ { id := 9, w := [0#64, 0#64, 31525197391593472#64, 0#64], caps := [{ va := 262144, pa := 262144, base := 262144, size := 65536, tens := none, line := 262144 : Cap }, { va := 266240, pa := 266240, base := 262144, size := 65536, tens := none, line := 262144 : Cap }], baddr := 65536, cid := 1, st := CmdSt.running, row := 1 : Cmd }.st = CmdSt.running ∧ cpRows ({ id := 9, w := [0#64, 0#64, 31525197391593472#64, 0#64], caps := [{ va := 262144, pa := 262144, base := 262144, size := 65536, tens := none, line := 262144 : Cap }, { va := 266240, pa := 266240, base := 262144, size := 65536, tens := none, line := 262144 : Cap }], baddr := 65536, cid := 1, st := CmdSt.running, row := 1 : Cmd }.w.getD 2 0) ≤ { id := 9, w := [0#64, 0#64, 31525197391593472#64, 0#64], caps := [{ va := 262144, pa := 262144, base := 262144, size := 65536, tens := none, line := 262144 : Cap }, { va := 266240, pa := 266240, base := 262144, size := 65536, tens := none, line := 262144 : Cap }], baddr := 65536, cid := 1, st := CmdSt.running, row := 1 : Cmd }.row)) :=
  ⟨by decide +kernel,
   by decide +kernel,
   by decide +kernel,
   by decide +kernel⟩

def fp8Mem (ctrl cfg : Nat) : List (Nat × Nat) := [(0x6000, 0x231 + ctrl), (0x6008, cfg), (0x6020, 0x300), (0x6028, 0x300), (0x6030, 0x500000301), (0x6038, 0x302), (0x6110, 0x500000007), (0x6140, 3 * 2 ^ 32), (0x6040, 77), (0x6048, 7)]
def cfgWord : Nat := 2 ^ 48 * 60000 + 2 ^ 36 * 1 + 2 ^ 24 * 7 + 2 ^ 16 * 3 + 2 ^ 8 * 9
def binsEmpty : List Nat := List.replicate 64 0
def binsOne : List Nat := (List.replicate 64 0).set 5 3
def rec0 (f : State → State) : State := f { lab 0 [] with nextId := 20, gcyc := 100000 }
def delta (n since : Nat) : Delta := { core := 1, ctx := 0, idx := 0, hist := [(3, n), (60, 1)], zero := 4, nan := 2, ovr := 1, under := 1, live := [(0, 3)], ovtot := 7, csov := 9, since }
def tcmd (maj fn w1 : Nat) (l : List (Nat × Nat)) : State :=
  rec0 fun s => { s with mem := wr s.mem l, cmds := [{ id := 9, pos := 6, major := maj, fn, ctx := 0, key := 4096, w := [0, BitVec.ofNat 64 w1], caps := if maj = 8 || maj = 9 then [cap 0x41000] else [] }] }
def recS0 : State := rec0 fun s => { s with deltas := [delta 40000 99999] }
def recS1 : State := rec0 fun s => { s with deltas := [delta 4 99999] }
def recS2 : State := rec0 fun s => { s with deltas := [delta 4 34464] }
def recS3 : State := rec0 fun s => { s with installs := [{ ctx := 0, idx := 0, fmt := 2, scale := 0, cmd := 9, retry := 5 }], cmds := [{ id := 9, st := .running }] }
def recS4 : State := rec0 fun s => { s with installs := [{ ctx := 0, idx := 0, fmt := 2, scale := 0, cmd := 9, retry := 104000 }], cmds := [{ id := 9, st := .running }] }
def recS5 : State := rec0 fun s => { s with installs := [{ ctx := 0, idx := 0, fmt := 3, scale := 1, cmd := 9, retry := 100000 }], cmds := [{ id := 9, st := .running }], mem := wr s.mem [(0x6028, 0x500000201), (0x6030, 0x500000201), (0x6038, 0x500000201)] }
def recS6 : State := rec0 fun s => { s with posts := [(0, 0, 1, 3)] }
def recS7 : State := rec0 fun s => { s with posts := [(0, 0, 1, 3)], mem := wr s.mem [(0x6000, 0x4121)] }
def recS8 : State := rec0 fun s => { s with cached := [(1, 0, 0)], deltas := [delta 4 9] }
def recS9 : State := tcmd 6 0 0 [(0x6000, 0)]
def recS10 : State := tcmd 6 0 0 (fp8Mem 0x800 cfgWord)
def recS11 : State := tcmd 6 0 0 (fp8Mem 0x4800 (cfgWord + 2 ^ 40 * 3))
def recS13 : State := tcmd 6 0 0 (fp8Mem 0 cfgWord)
def recS14 : State := tcmd 7 0 0x301 (fp8Mem 0 cfgWord)
def recS15 : State := tcmd 7 0 0x300 (fp8Mem 0 cfgWord)
def recS16 : State := tcmd 7 0 0x101 (fp8Mem 0 cfgWord)
def recS18 : State := tcmd 8 0 0 (fp8Mem 0 cfgWord)
def recS19 : State := tcmd 10 0 0 (fp8Mem 0x4000 cfgWord)
def recS21 : State := tcmd 9 0 0 [(0x41000, 1)]
def recS22 : State := tcmd 9 0 0 [(0x6000, 0), (0x41000, 0x331 + 2 ^ 12 * 5 + 2 ^ 18)]
def recS23 : State := tcmd 9 0 0 [(0x6000, 0), (0x41000, 0x3F1)]
def recS24 : State := tcmd 9 0 0 [(0x41000, 7)]
def recS25 : State := tcmd 9 0 0 [(0x41000, 5)]
def recS26 : State := tcmd 9 0 0 (fp8Mem 0 cfgWord ++ [(0x41000, 2)])
def recS27 : State := (lab 0 []).modTh 0 fun t => { t with mats := [{ op := 0, bank := 2, acc := bank 2, a0 := 0, a1 := 0x10, b0 := 0, b1 := 0, recA := some 0, recB := none, recs := [0], issued := 0, baddr := 0x10000, cmd := 9 }] }

theorem witness_TensorRecordSteps_1 :
    (({ core := 1, ctx := 0, idx := 0, hist := [(3, 40000), (60, 1)], zero := 4, nan := 2, ovr := 1, under := 1, live := [(0, 3)], ovtot := 7, csov := 9, since := 99999 : Delta }.full = true) ∧
     (recS0.pendingInstall 0 0 = none) ∧
     (List.find? (fun d => d.core == 1 && d.of 0 0) recS0.deltas = some { core := 1, ctx := 0, idx := 0, hist := [(3, 40000), (60, 1)], zero := 4, nan := 2, ovr := 1, under := 1, live := [(0, 3)], ovtot := 7, csov := 9, since := 99999 : Delta })) ∧
    ((recS2.pendingInstall 0 0 = none) ∧
     (List.find? (fun d => d.core == 1 && d.of 0 0) recS2.deltas = some { core := 1, ctx := 0, idx := 0, hist := [(3, 4), (60, 1)], zero := 4, nan := 2, ovr := 1, under := 1, live := [(0, 3)], ovtot := 7, csov := 9, since := 34464 : Delta } ∧ { core := 1, ctx := 0, idx := 0, hist := [(3, 4), (60, 1)], zero := 4, nan := 2, ovr := 1, under := 1, live := [(0, 3)], ovtot := 7, csov := 9, since := 34464 : Delta }.since + 65536 ≤ recS2.gcyc)) ∧
    (({ core := 1, ctx := 0, idx := 0, hist := [(3, 4), (60, 1)], zero := 4, nan := 2, ovr := 1, under := 1, live := [(0, 3)], ovtot := 7, csov := 9, since := 99999 : Delta }.full = false) ∧
     (recS1.pendingInstall 0 0 = none) ∧
     (List.find? (fun d => d.core == 1 && d.of 0 0) recS1.deltas = some { core := 1, ctx := 0, idx := 0, hist := [(3, 4), (60, 1)], zero := 4, nan := 2, ovr := 1, under := 1, live := [(0, 3)], ovtot := 7, csov := 9, since := 99999 : Delta })) ∧
    ((List.find? (fun d => d.core == 1 && d.of 0 0) recS0.deltas = some { core := 1, ctx := 0, idx := 0, hist := [(3, 40000), (60, 1)], zero := 4, nan := 2, ovr := 1, under := 1, live := [(0, 3)], ovtot := 7, csov := 9, since := 99999 : Delta } ∧ recS0.gcyc < { core := 1, ctx := 0, idx := 0, hist := [(3, 40000), (60, 1)], zero := 4, nan := 2, ovr := 1, under := 1, live := [(0, 3)], ovtot := 7, csov := 9, since := 99999 : Delta }.since + 65536)) ∧
    ((recS4.pendingInstall 0 0 = some { ctx := 0, idx := 0, fmt := 2, scale := 0, cmd := 9, retry := 104000 : Install }) ∧
     (recS4.gcyc < { ctx := 0, idx := 0, fmt := 2, scale := 0, cmd := 9, retry := 104000 : Install }.retry)) ∧
    ((recS3.pendingInstall 0 0 = some { ctx := 0, idx := 0, fmt := 2, scale := 0, cmd := 9, retry := 5 : Install }) ∧
     ({ ctx := 0, idx := 0, fmt := 2, scale := 0, cmd := 9, retry := 5 : Install }.retry ≤ recS3.gcyc) ∧
     (recS3.clean { ctx := 0, idx := 0, fmt := 2, scale := 0, cmd := 9, retry := 5 : Install }.cmd = true)) ∧
    ((List.find? (fun p => p.1 == 0 && p.2.1 == 0) recS7.posts = some (0, 0, 1, 3)) ∧
     ((recS7.recFree 0 0 || recS7.recTrip 0 0) = true)) :=
  by
  refine ⟨?_, ?_, ?_, ?_, ?_, ?_, ?_⟩ <;>
    decide +kernel

theorem witness_TensorRecordSteps_2 :
    ((List.find? (fun p => p.1 == 0 && p.2.1 == 0) recS6.posts = some (0, 0, 1, 3)) ∧
     ((recS6.recFree 0 0 || recS6.recTrip 0 0) = false)) ∧
    ((recS27.recCaptured 0 0 0 = true)) ∧
    ((recS8.cached.contains (1, 0, 0) = true) ∧
     (recS8.recCaptured 1 0 0 = false)) ∧
    ((recS9.cmd? 9 = some { id := 9, key := 4096, major := 6, w := [0#64, 0#64] : Cmd }) ∧
     (recS9.starts { id := 9, key := 4096, major := 6, w := [0#64, 0#64] : Cmd } = true) ∧
     (recS9.startViolates { id := 9, key := 4096, major := 6, w := [0#64, 0#64] : Cmd } = none) ∧
     ({ id := 9, key := 4096, major := 6, w := [0#64, 0#64] : Cmd }.pos = 6) ∧
     (6 ≤ { id := 9, key := 4096, major := 6, w := [0#64, 0#64] : Cmd }.major) ∧
     ({ id := 9, key := 4096, major := 6, w := [0#64, 0#64] : Cmd }.major ≤ 10) ∧
     ({ id := 9, key := 4096, major := 6, w := [0#64, 0#64] : Cmd }.major ≠ 9) ∧
     (let c := { id := 9, key := 4096, major := 6, w := [0#64, 0#64] : Cmd }.ctx; let i := BitVec.toNat ({ id := 9, key := 4096, major := 6, w := [0#64, 0#64] : Cmd }.w.getD 0 0); let u := ((recS9.runCmd { id := 9, key := 4096, major := 6, w := [0#64, 0#64] : Cmd }).vshare c (recS9.recVa c i) 512).recFix c i; u.recState c i = 0)) ∧
    ((recS13.cmd? 9 = some { id := 9, key := 4096, major := 6, w := [0#64, 0#64] : Cmd }) ∧
     (recS13.starts { id := 9, key := 4096, major := 6, w := [0#64, 0#64] : Cmd } = true) ∧
     (recS13.startViolates { id := 9, key := 4096, major := 6, w := [0#64, 0#64] : Cmd } = none) ∧
     ({ id := 9, key := 4096, major := 6, w := [0#64, 0#64] : Cmd }.pos = 6) ∧
     (6 ≤ { id := 9, key := 4096, major := 6, w := [0#64, 0#64] : Cmd }.major) ∧
     ({ id := 9, key := 4096, major := 6, w := [0#64, 0#64] : Cmd }.major ≤ 10) ∧
     ({ id := 9, key := 4096, major := 6, w := [0#64, 0#64] : Cmd }.major = 6) ∧
     (let c := { id := 9, key := 4096, major := 6, w := [0#64, 0#64] : Cmd }.ctx; let i := BitVec.toNat ({ id := 9, key := 4096, major := 6, w := [0#64, 0#64] : Cmd }.w.getD 0 0); let u := ((recS13.runCmd { id := 9, key := 4096, major := 6, w := [0#64, 0#64] : Cmd }).vshare c (recS13.recVa c i) 512).recFix c i; let v := (u.recall c i).recMod c i 16 fun w => w / 2 ^ 32 * 2 ^ 32 + Min.min (w % 2 ^ 32 + 1) (2 ^ 32 - 1); let cfg := v.recWord c i 8; let h := v.hysteresis c i (evaluate (v.recPol c i) (v.recGeo c i) (v.recSlot c i (v.recWv c i)).1 (v.recHist c i) (cfg / 2 ^ 48 % 2 ^ 16) (cfg / 2 ^ 24 % 2 ^ 8) (cfg / 2 ^ 36 % 2 ^ 4) (cfg / 2 ^ 16 % 2 ^ 8) (cfg / 2 ^ 8 % 2 ^ 8)); u.recState c i ≠ 0 ∧ h.1 = none)) ∧
    ((recS10.cmd? 9 = some { id := 9, key := 4096, major := 6, w := [0#64, 0#64] : Cmd }) ∧
     (recS10.starts { id := 9, key := 4096, major := 6, w := [0#64, 0#64] : Cmd } = true) ∧
     (recS10.startViolates { id := 9, key := 4096, major := 6, w := [0#64, 0#64] : Cmd } = none) ∧
     ({ id := 9, key := 4096, major := 6, w := [0#64, 0#64] : Cmd }.pos = 6) ∧
     (6 ≤ { id := 9, key := 4096, major := 6, w := [0#64, 0#64] : Cmd }.major) ∧
     ({ id := 9, key := 4096, major := 6, w := [0#64, 0#64] : Cmd }.major ≤ 10) ∧
     ({ id := 9, key := 4096, major := 6, w := [0#64, 0#64] : Cmd }.major = 6) ∧
     (let c := { id := 9, key := 4096, major := 6, w := [0#64, 0#64] : Cmd }.ctx; let i := BitVec.toNat ({ id := 9, key := 4096, major := 6, w := [0#64, 0#64] : Cmd }.w.getD 0 0); let u := ((recS10.runCmd { id := 9, key := 4096, major := 6, w := [0#64, 0#64] : Cmd }).vshare c (recS10.recVa c i) 512).recFix c i; let v := (u.recall c i).recMod c i 16 fun w => w / 2 ^ 32 * 2 ^ 32 + Min.min (w % 2 ^ 32 + 1) (2 ^ 32 - 1); let cfg := v.recWord c i 8; let h := v.hysteresis c i (evaluate (v.recPol c i) (v.recGeo c i) (v.recSlot c i (v.recWv c i)).1 (v.recHist c i) (cfg / 2 ^ 48 % 2 ^ 16) (cfg / 2 ^ 24 % 2 ^ 8) (cfg / 2 ^ 36 % 2 ^ 4) (cfg / 2 ^ 16 % 2 ^ 8) (cfg / 2 ^ 8 % 2 ^ 8)); u.recState c i ≠ 0 ∧ h.1 = some (3, 3))) ∧
    ((recS16.cmd? 9 = some { id := 9, key := 4096, major := 7, w := [0#64, 257#64] : Cmd }) ∧
     (recS16.starts { id := 9, key := 4096, major := 7, w := [0#64, 257#64] : Cmd } = true) ∧
     (recS16.startViolates { id := 9, key := 4096, major := 7, w := [0#64, 257#64] : Cmd } = none) ∧
     ({ id := 9, key := 4096, major := 7, w := [0#64, 257#64] : Cmd }.pos = 6) ∧
     (6 ≤ { id := 9, key := 4096, major := 7, w := [0#64, 257#64] : Cmd }.major) ∧
     ({ id := 9, key := 4096, major := 7, w := [0#64, 257#64] : Cmd }.major ≤ 10) ∧
     ({ id := 9, key := 4096, major := 7, w := [0#64, 257#64] : Cmd }.major = 7) ∧
     (let c := { id := 9, key := 4096, major := 7, w := [0#64, 257#64] : Cmd }.ctx; let i := BitVec.toNat ({ id := 9, key := 4096, major := 7, w := [0#64, 257#64] : Cmd }.w.getD 0 0); let u := ((recS16.runCmd { id := 9, key := 4096, major := 7, w := [0#64, 257#64] : Cmd }).vshare c (recS16.recVa c i) 512).recFix c i; let w1 := BitVec.toNat ({ id := 9, key := 4096, major := 7, w := [0#64, 257#64] : Cmd }.w.getD 1 0); let n := (w1 / 2 ^ 8 % 2 ^ 4, sextI (w1 % 2 ^ 6) 6); u.recState c i ≠ 0 ∧ geoAllows (u.recGeo c i) (u.recSfmt c i) n.1 = false)) :=
  by
  refine ⟨?_, ?_, ?_, ?_, ?_, ?_, ?_⟩ <;>
    decide +kernel

theorem witness_TensorRecordSteps_3 :
    ((recS15.cmd? 9 = some { id := 9, key := 4096, major := 7, w := [0#64, 768#64] : Cmd }) ∧
     (recS15.starts { id := 9, key := 4096, major := 7, w := [0#64, 768#64] : Cmd } = true) ∧
     (recS15.startViolates { id := 9, key := 4096, major := 7, w := [0#64, 768#64] : Cmd } = none) ∧
     ({ id := 9, key := 4096, major := 7, w := [0#64, 768#64] : Cmd }.pos = 6) ∧
     (6 ≤ { id := 9, key := 4096, major := 7, w := [0#64, 768#64] : Cmd }.major) ∧
     ({ id := 9, key := 4096, major := 7, w := [0#64, 768#64] : Cmd }.major ≤ 10) ∧
     ({ id := 9, key := 4096, major := 7, w := [0#64, 768#64] : Cmd }.major = 7) ∧
     (let c := { id := 9, key := 4096, major := 7, w := [0#64, 768#64] : Cmd }.ctx; let i := BitVec.toNat ({ id := 9, key := 4096, major := 7, w := [0#64, 768#64] : Cmd }.w.getD 0 0); let u := ((recS15.runCmd { id := 9, key := 4096, major := 7, w := [0#64, 768#64] : Cmd }).vshare c (recS15.recVa c i) 512).recFix c i; let w1 := BitVec.toNat ({ id := 9, key := 4096, major := 7, w := [0#64, 768#64] : Cmd }.w.getD 1 0); let n := (w1 / 2 ^ 8 % 2 ^ 4, sextI (w1 % 2 ^ 6) 6); let v := u.lowReset c i; u.recState c i ≠ 0 ∧ geoAllows (u.recGeo c i) (u.recSfmt c i) n.1 = true ∧ (v.recGeo c i < 2 ∨ n = v.recSlot c i (v.recWv c i)))) ∧
    ((recS14.cmd? 9 = some { id := 9, key := 4096, major := 7, w := [0#64, 769#64] : Cmd }) ∧
     (recS14.starts { id := 9, key := 4096, major := 7, w := [0#64, 769#64] : Cmd } = true) ∧
     (recS14.startViolates { id := 9, key := 4096, major := 7, w := [0#64, 769#64] : Cmd } = none) ∧
     ({ id := 9, key := 4096, major := 7, w := [0#64, 769#64] : Cmd }.pos = 6) ∧
     (6 ≤ { id := 9, key := 4096, major := 7, w := [0#64, 769#64] : Cmd }.major) ∧
     ({ id := 9, key := 4096, major := 7, w := [0#64, 769#64] : Cmd }.major ≤ 10) ∧
     ({ id := 9, key := 4096, major := 7, w := [0#64, 769#64] : Cmd }.major = 7) ∧
     (let c := { id := 9, key := 4096, major := 7, w := [0#64, 769#64] : Cmd }.ctx; let i := BitVec.toNat ({ id := 9, key := 4096, major := 7, w := [0#64, 769#64] : Cmd }.w.getD 0 0); let u := ((recS14.runCmd { id := 9, key := 4096, major := 7, w := [0#64, 769#64] : Cmd }).vshare c (recS14.recVa c i) 512).recFix c i; let w1 := BitVec.toNat ({ id := 9, key := 4096, major := 7, w := [0#64, 769#64] : Cmd }.w.getD 1 0); let n := (w1 / 2 ^ 8 % 2 ^ 4, sextI (w1 % 2 ^ 6) 6); let v := u.lowReset c i; u.recState c i ≠ 0 ∧ geoAllows (u.recGeo c i) (u.recSfmt c i) n.1 = true ∧ 2 ≤ v.recGeo c i ∧ n ≠ v.recSlot c i (v.recWv c i))) ∧
    (({ id := 9, key := 4096, major := 8, w := [0#64, 0#64], caps := [{ va := 266240, pa := 266240, base := 262144, size := 65536, tens := none, line := 262144 : Cap }] : Cmd }.pos = 6) ∧
     (6 ≤ { id := 9, key := 4096, major := 8, w := [0#64, 0#64], caps := [{ va := 266240, pa := 266240, base := 262144, size := 65536, tens := none, line := 262144 : Cap }] : Cmd }.major) ∧
     ({ id := 9, key := 4096, major := 8, w := [0#64, 0#64], caps := [{ va := 266240, pa := 266240, base := 262144, size := 65536, tens := none, line := 262144 : Cap }] : Cmd }.major ≤ 10) ∧
     ({ id := 9, key := 4096, major := 8, w := [0#64, 0#64], caps := [{ va := 266240, pa := 266240, base := 262144, size := 65536, tens := none, line := 262144 : Cap }] : Cmd }.major = 8) ∧
     (let c := { id := 9, key := 4096, major := 8, w := [0#64, 0#64], caps := [{ va := 266240, pa := 266240, base := 262144, size := 65536, tens := none, line := 262144 : Cap }] : Cmd }.ctx; let i := BitVec.toNat ({ id := 9, key := 4096, major := 8, w := [0#64, 0#64], caps := [{ va := 266240, pa := 266240, base := 262144, size := 65536, tens := none, line := 262144 : Cap }] : Cmd }.w.getD 0 0); let u := ((recS18.runCmd { id := 9, key := 4096, major := 8, w := [0#64, 0#64], caps := [{ va := 266240, pa := 266240, base := 262144, size := 65536, tens := none, line := 262144 : Cap }] : Cmd }).vshare c (recS18.recVa c i) 512).recFix c i; recS18.cmd? 9 = some { id := 9, key := 4096, major := 8, w := [0#64, 0#64], caps := [{ va := 266240, pa := 266240, base := 262144, size := 65536, tens := none, line := 262144 : Cap }] : Cmd } ∧ recS18.starts { id := 9, key := 4096, major := 8, w := [0#64, 0#64], caps := [{ va := 266240, pa := 266240, base := 262144, size := 65536, tens := none, line := 262144 : Cap }] : Cmd } = true ∧ recS18.startViolates { id := 9, key := 4096, major := 8, w := [0#64, 0#64], caps := [{ va := 266240, pa := 266240, base := 262144, size := 65536, tens := none, line := 262144 : Cap }] : Cmd } = none ∧ u.recState c i ≠ 0)) ∧
    ((recS19.cmd? 9 = some { id := 9, key := 4096, major := 10, w := [0#64, 0#64] : Cmd }) ∧
     (recS19.starts { id := 9, key := 4096, major := 10, w := [0#64, 0#64] : Cmd } = true) ∧
     (recS19.startViolates { id := 9, key := 4096, major := 10, w := [0#64, 0#64] : Cmd } = none) ∧
     ({ id := 9, key := 4096, major := 10, w := [0#64, 0#64] : Cmd }.pos = 6) ∧
     (6 ≤ { id := 9, key := 4096, major := 10, w := [0#64, 0#64] : Cmd }.major) ∧
     ({ id := 9, key := 4096, major := 10, w := [0#64, 0#64] : Cmd }.major ≤ 10) ∧
     ({ id := 9, key := 4096, major := 10, w := [0#64, 0#64] : Cmd }.major = 10) ∧
     (let c := { id := 9, key := 4096, major := 10, w := [0#64, 0#64] : Cmd }.ctx; let i := BitVec.toNat ({ id := 9, key := 4096, major := 10, w := [0#64, 0#64] : Cmd }.w.getD 0 0); let u := ((recS19.runCmd { id := 9, key := 4096, major := 10, w := [0#64, 0#64] : Cmd }).vshare c (recS19.recVa c i) 512).recFix c i; u.recState c i ≠ 0 ∧ u.recCalm c i)) ∧
    (({ id := 9, key := 4096, major := 9, w := [0#64, 0#64], caps := [{ va := 266240, pa := 266240, base := 262144, size := 65536, tens := none, line := 262144 : Cap }] : Cmd }.pos = 6) ∧
     (6 ≤ { id := 9, key := 4096, major := 9, w := [0#64, 0#64], caps := [{ va := 266240, pa := 266240, base := 262144, size := 65536, tens := none, line := 262144 : Cap }] : Cmd }.major) ∧
     ({ id := 9, key := 4096, major := 9, w := [0#64, 0#64], caps := [{ va := 266240, pa := 266240, base := 262144, size := 65536, tens := none, line := 262144 : Cap }] : Cmd }.major ≤ 10) ∧
     ({ id := 9, key := 4096, major := 9, w := [0#64, 0#64], caps := [{ va := 266240, pa := 266240, base := 262144, size := 65536, tens := none, line := 262144 : Cap }] : Cmd }.major = 9) ∧
     (let c := { id := 9, key := 4096, major := 9, w := [0#64, 0#64], caps := [{ va := 266240, pa := 266240, base := 262144, size := 65536, tens := none, line := 262144 : Cap }] : Cmd }.ctx; let i := BitVec.toNat ({ id := 9, key := 4096, major := 9, w := [0#64, 0#64], caps := [{ va := 266240, pa := 266240, base := 262144, size := 65536, tens := none, line := 262144 : Cap }] : Cmd }.w.getD 0 0); let u := ((recS21.runCmd { id := 9, key := 4096, major := 9, w := [0#64, 0#64], caps := [{ va := 266240, pa := 266240, base := 262144, size := 65536, tens := none, line := 262144 : Cap }] : Cmd }).vshare c (recS21.recVa c i) 512).recFix c i; let cap := { id := 9, key := 4096, major := 9, w := [0#64, 0#64], caps := [{ va := 266240, pa := 266240, base := 262144, size := 65536, tens := none, line := 262144 : Cap }] : Cmd }.caps.getD 0 { va := 0, pa := 0, base := 0, size := 0, tens := none : Cap }; let e := u.engineRead { id := 9, key := 4096, major := 9, w := [0#64, 0#64], caps := [{ va := 266240, pa := 266240, base := 262144, size := 65536, tens := none, line := 262144 : Cap }] : Cmd } cap 64; let w := fun j => ofBytes (List.take 8 (List.drop (8 * j) e.1)); let op := w 0 % 16; let free := e.2.2.recState c i = 0; recS21.cmd? 9 = some { id := 9, key := 4096, major := 9, w := [0#64, 0#64], caps := [{ va := 266240, pa := 266240, base := 262144, size := 65536, tens := none, line := 262144 : Cap }] : Cmd } ∧ recS21.starts { id := 9, key := 4096, major := 9, w := [0#64, 0#64], caps := [{ va := 266240, pa := 266240, base := 262144, size := 65536, tens := none, line := 262144 : Cap }] : Cmd } = true ∧ recS21.startViolates { id := 9, key := 4096, major := 9, w := [0#64, 0#64], caps := [{ va := 266240, pa := 266240, base := 262144, size := 65536, tens := none, line := 262144 : Cap }] : Cmd } = none ∧ (op = 1 ∧ ¬free ∨ op < 6 ∧ op ≠ 1 ∧ free))) ∧
    (({ id := 9, key := 4096, major := 9, w := [0#64, 0#64], caps := [{ va := 266240, pa := 266240, base := 262144, size := 65536, tens := none, line := 262144 : Cap }] : Cmd }.pos = 6) ∧
     (6 ≤ { id := 9, key := 4096, major := 9, w := [0#64, 0#64], caps := [{ va := 266240, pa := 266240, base := 262144, size := 65536, tens := none, line := 262144 : Cap }] : Cmd }.major) ∧
     ({ id := 9, key := 4096, major := 9, w := [0#64, 0#64], caps := [{ va := 266240, pa := 266240, base := 262144, size := 65536, tens := none, line := 262144 : Cap }] : Cmd }.major ≤ 10) ∧
     ({ id := 9, key := 4096, major := 9, w := [0#64, 0#64], caps := [{ va := 266240, pa := 266240, base := 262144, size := 65536, tens := none, line := 262144 : Cap }] : Cmd }.major = 9) ∧
     (let c := { id := 9, key := 4096, major := 9, w := [0#64, 0#64], caps := [{ va := 266240, pa := 266240, base := 262144, size := 65536, tens := none, line := 262144 : Cap }] : Cmd }.ctx; let i := BitVec.toNat ({ id := 9, key := 4096, major := 9, w := [0#64, 0#64], caps := [{ va := 266240, pa := 266240, base := 262144, size := 65536, tens := none, line := 262144 : Cap }] : Cmd }.w.getD 0 0); let u := ((recS24.runCmd { id := 9, key := 4096, major := 9, w := [0#64, 0#64], caps := [{ va := 266240, pa := 266240, base := 262144, size := 65536, tens := none, line := 262144 : Cap }] : Cmd }).vshare c (recS24.recVa c i) 512).recFix c i; let cap := { id := 9, key := 4096, major := 9, w := [0#64, 0#64], caps := [{ va := 266240, pa := 266240, base := 262144, size := 65536, tens := none, line := 262144 : Cap }] : Cmd }.caps.getD 0 { va := 0, pa := 0, base := 0, size := 0, tens := none : Cap }; let e := u.engineRead { id := 9, key := 4096, major := 9, w := [0#64, 0#64], caps := [{ va := 266240, pa := 266240, base := 262144, size := 65536, tens := none, line := 262144 : Cap }] : Cmd } cap 64; let w := fun j => ofBytes (List.take 8 (List.drop (8 * j) e.1)); let op := w 0 % 16; let free := e.2.2.recState c i = 0; let rsv := 2 ^ 23 ≤ w 0 ∨ w 1 / 2 ^ 32 % 2 ^ 4 ≠ 0 ∨ w 1 % 2 ^ 8 ≠ 0 ∨ 2 ^ 32 ≤ w 2 ∨ 2 ^ 52 ≤ w 3 ∨ ∃ b ∈ List.drop 32 e.1, b ≠ 0; recS24.cmd? 9 = some { id := 9, key := 4096, major := 9, w := [0#64, 0#64], caps := [{ va := 266240, pa := 266240, base := 262144, size := 65536, tens := none, line := 262144 : Cap }] : Cmd } ∧ recS24.starts { id := 9, key := 4096, major := 9, w := [0#64, 0#64], caps := [{ va := 266240, pa := 266240, base := 262144, size := 65536, tens := none, line := 262144 : Cap }] : Cmd } = true ∧ recS24.startViolates { id := 9, key := 4096, major := 9, w := [0#64, 0#64], caps := [{ va := 266240, pa := 266240, base := 262144, size := 65536, tens := none, line := 262144 : Cap }] : Cmd } = none ∧ (op = 1 → free) ∧ (op < 6 → op ≠ 1 → ¬free) ∧ (6 ≤ op ∨ w 0 / 2 ^ 20 % 4 = 3 ∧ op ≤ 1 ∨ rsv))) ∧
    (({ id := 9, key := 4096, major := 9, w := [0#64, 0#64], caps := [{ va := 266240, pa := 266240, base := 262144, size := 65536, tens := none, line := 262144 : Cap }] : Cmd }.pos = 6) ∧
     (6 ≤ { id := 9, key := 4096, major := 9, w := [0#64, 0#64], caps := [{ va := 266240, pa := 266240, base := 262144, size := 65536, tens := none, line := 262144 : Cap }] : Cmd }.major) ∧
     ({ id := 9, key := 4096, major := 9, w := [0#64, 0#64], caps := [{ va := 266240, pa := 266240, base := 262144, size := 65536, tens := none, line := 262144 : Cap }] : Cmd }.major ≤ 10) ∧
     ({ id := 9, key := 4096, major := 9, w := [0#64, 0#64], caps := [{ va := 266240, pa := 266240, base := 262144, size := 65536, tens := none, line := 262144 : Cap }] : Cmd }.major = 9) ∧
     (let c := { id := 9, key := 4096, major := 9, w := [0#64, 0#64], caps := [{ va := 266240, pa := 266240, base := 262144, size := 65536, tens := none, line := 262144 : Cap }] : Cmd }.ctx; let i := BitVec.toNat ({ id := 9, key := 4096, major := 9, w := [0#64, 0#64], caps := [{ va := 266240, pa := 266240, base := 262144, size := 65536, tens := none, line := 262144 : Cap }] : Cmd }.w.getD 0 0); let u := ((recS23.runCmd { id := 9, key := 4096, major := 9, w := [0#64, 0#64], caps := [{ va := 266240, pa := 266240, base := 262144, size := 65536, tens := none, line := 262144 : Cap }] : Cmd }).vshare c (recS23.recVa c i) 512).recFix c i; let cap := { id := 9, key := 4096, major := 9, w := [0#64, 0#64], caps := [{ va := 266240, pa := 266240, base := 262144, size := 65536, tens := none, line := 262144 : Cap }] : Cmd }.caps.getD 0 { va := 0, pa := 0, base := 0, size := 0, tens := none : Cap }; let e := u.engineRead { id := 9, key := 4096, major := 9, w := [0#64, 0#64], caps := [{ va := 266240, pa := 266240, base := 262144, size := 65536, tens := none, line := 262144 : Cap }] : Cmd } cap 64; let w := fun j => ofBytes (List.take 8 (List.drop (8 * j) e.1)); let op := w 0 % 16; let free := e.2.2.recState c i = 0; let rsv := 2 ^ 23 ≤ w 0 ∨ w 1 / 2 ^ 32 % 2 ^ 4 ≠ 0 ∨ w 1 % 2 ^ 8 ≠ 0 ∨ 2 ^ 32 ≤ w 2 ∨ 2 ^ 52 ≤ w 3 ∨ ∃ b ∈ List.drop 32 e.1, b ≠ 0; let sfmt := w 0 / 2 ^ 4 % 2 ^ 4; let ifmt := w 0 / 2 ^ 8 % 2 ^ 4; recS23.cmd? 9 = some { id := 9, key := 4096, major := 9, w := [0#64, 0#64], caps := [{ va := 266240, pa := 266240, base := 262144, size := 65536, tens := none, line := 262144 : Cap }] : Cmd } ∧ recS23.starts { id := 9, key := 4096, major := 9, w := [0#64, 0#64], caps := [{ va := 266240, pa := 266240, base := 262144, size := 65536, tens := none, line := 262144 : Cap }] : Cmd } = true ∧ recS23.startViolates { id := 9, key := 4096, major := 9, w := [0#64, 0#64], caps := [{ va := 266240, pa := 266240, base := 262144, size := 65536, tens := none, line := 262144 : Cap }] : Cmd } = none ∧ (op = 1 → free) ∧ (op < 6 → op ≠ 1 → ¬free) ∧ op < 6 ∧ ¬(w 0 / 2 ^ 20 % 4 = 3 ∧ op ≤ 1) ∧ ¬rsv ∧ op = 1 ∧ (geoOf sfmt = 4 ∨ geoAllows (geoOf sfmt) sfmt ifmt = false))) :=
  by
  refine ⟨?_, ?_, ?_, ?_, ?_, ?_, ?_⟩ <;>
    decide +kernel

theorem witness_TensorRecordSteps_4 :
    (({ id := 9, key := 4096, major := 9, w := [0#64, 0#64], caps := [{ va := 266240, pa := 266240, base := 262144, size := 65536, tens := none, line := 262144 : Cap }] : Cmd }.pos = 6) ∧
     (6 ≤ { id := 9, key := 4096, major := 9, w := [0#64, 0#64], caps := [{ va := 266240, pa := 266240, base := 262144, size := 65536, tens := none, line := 262144 : Cap }] : Cmd }.major) ∧
     ({ id := 9, key := 4096, major := 9, w := [0#64, 0#64], caps := [{ va := 266240, pa := 266240, base := 262144, size := 65536, tens := none, line := 262144 : Cap }] : Cmd }.major ≤ 10) ∧
     ({ id := 9, key := 4096, major := 9, w := [0#64, 0#64], caps := [{ va := 266240, pa := 266240, base := 262144, size := 65536, tens := none, line := 262144 : Cap }] : Cmd }.major = 9) ∧
     (let c := { id := 9, key := 4096, major := 9, w := [0#64, 0#64], caps := [{ va := 266240, pa := 266240, base := 262144, size := 65536, tens := none, line := 262144 : Cap }] : Cmd }.ctx; let i := BitVec.toNat ({ id := 9, key := 4096, major := 9, w := [0#64, 0#64], caps := [{ va := 266240, pa := 266240, base := 262144, size := 65536, tens := none, line := 262144 : Cap }] : Cmd }.w.getD 0 0); let u := ((recS22.runCmd { id := 9, key := 4096, major := 9, w := [0#64, 0#64], caps := [{ va := 266240, pa := 266240, base := 262144, size := 65536, tens := none, line := 262144 : Cap }] : Cmd }).vshare c (recS22.recVa c i) 512).recFix c i; let cap := { id := 9, key := 4096, major := 9, w := [0#64, 0#64], caps := [{ va := 266240, pa := 266240, base := 262144, size := 65536, tens := none, line := 262144 : Cap }] : Cmd }.caps.getD 0 { va := 0, pa := 0, base := 0, size := 0, tens := none : Cap }; let e := u.engineRead { id := 9, key := 4096, major := 9, w := [0#64, 0#64], caps := [{ va := 266240, pa := 266240, base := 262144, size := 65536, tens := none, line := 262144 : Cap }] : Cmd } cap 64; let w := fun j => ofBytes (List.take 8 (List.drop (8 * j) e.1)); let op := w 0 % 16; let free := e.2.2.recState c i = 0; let rsv := 2 ^ 23 ≤ w 0 ∨ w 1 / 2 ^ 32 % 2 ^ 4 ≠ 0 ∨ w 1 % 2 ^ 8 ≠ 0 ∨ 2 ^ 32 ≤ w 2 ∨ 2 ^ 52 ≤ w 3 ∨ ∃ b ∈ List.drop 32 e.1, b ≠ 0; let sfmt := w 0 / 2 ^ 4 % 2 ^ 4; let ifmt := w 0 / 2 ^ 8 % 2 ^ 4; recS22.cmd? 9 = some { id := 9, key := 4096, major := 9, w := [0#64, 0#64], caps := [{ va := 266240, pa := 266240, base := 262144, size := 65536, tens := none, line := 262144 : Cap }] : Cmd } ∧ recS22.starts { id := 9, key := 4096, major := 9, w := [0#64, 0#64], caps := [{ va := 266240, pa := 266240, base := 262144, size := 65536, tens := none, line := 262144 : Cap }] : Cmd } = true ∧ recS22.startViolates { id := 9, key := 4096, major := 9, w := [0#64, 0#64], caps := [{ va := 266240, pa := 266240, base := 262144, size := 65536, tens := none, line := 262144 : Cap }] : Cmd } = none ∧ (op = 1 → free) ∧ (op < 6 → op ≠ 1 → ¬free) ∧ op < 6 ∧ ¬(w 0 / 2 ^ 20 % 4 = 3 ∧ op ≤ 1) ∧ ¬rsv ∧ op = 1 ∧ geoOf sfmt ≠ 4 ∧ geoAllows (geoOf sfmt) sfmt ifmt = true ∧ e.2.2.recCalm c i ∧ e.2.2.clean 9 = true)) ∧
    (({ id := 9, key := 4096, major := 9, w := [0#64, 0#64], caps := [{ va := 266240, pa := 266240, base := 262144, size := 65536, tens := none, line := 262144 : Cap }] : Cmd }.pos = 6) ∧
     (6 ≤ { id := 9, key := 4096, major := 9, w := [0#64, 0#64], caps := [{ va := 266240, pa := 266240, base := 262144, size := 65536, tens := none, line := 262144 : Cap }] : Cmd }.major) ∧
     ({ id := 9, key := 4096, major := 9, w := [0#64, 0#64], caps := [{ va := 266240, pa := 266240, base := 262144, size := 65536, tens := none, line := 262144 : Cap }] : Cmd }.major ≤ 10) ∧
     ({ id := 9, key := 4096, major := 9, w := [0#64, 0#64], caps := [{ va := 266240, pa := 266240, base := 262144, size := 65536, tens := none, line := 262144 : Cap }] : Cmd }.major = 9) ∧
     (let c := { id := 9, key := 4096, major := 9, w := [0#64, 0#64], caps := [{ va := 266240, pa := 266240, base := 262144, size := 65536, tens := none, line := 262144 : Cap }] : Cmd }.ctx; let i := BitVec.toNat ({ id := 9, key := 4096, major := 9, w := [0#64, 0#64], caps := [{ va := 266240, pa := 266240, base := 262144, size := 65536, tens := none, line := 262144 : Cap }] : Cmd }.w.getD 0 0); let u := ((recS26.runCmd { id := 9, key := 4096, major := 9, w := [0#64, 0#64], caps := [{ va := 266240, pa := 266240, base := 262144, size := 65536, tens := none, line := 262144 : Cap }] : Cmd }).vshare c (recS26.recVa c i) 512).recFix c i; let cap := { id := 9, key := 4096, major := 9, w := [0#64, 0#64], caps := [{ va := 266240, pa := 266240, base := 262144, size := 65536, tens := none, line := 262144 : Cap }] : Cmd }.caps.getD 0 { va := 0, pa := 0, base := 0, size := 0, tens := none : Cap }; let e := u.engineRead { id := 9, key := 4096, major := 9, w := [0#64, 0#64], caps := [{ va := 266240, pa := 266240, base := 262144, size := 65536, tens := none, line := 262144 : Cap }] : Cmd } cap 64; let w := fun j => ofBytes (List.take 8 (List.drop (8 * j) e.1)); let op := w 0 % 16; let free := e.2.2.recState c i = 0; let rsv := 2 ^ 23 ≤ w 0 ∨ w 1 / 2 ^ 32 % 2 ^ 4 ≠ 0 ∨ w 1 % 2 ^ 8 ≠ 0 ∨ 2 ^ 32 ≤ w 2 ∨ 2 ^ 52 ≤ w 3 ∨ ∃ b ∈ List.drop 32 e.1, b ≠ 0; recS26.cmd? 9 = some { id := 9, key := 4096, major := 9, w := [0#64, 0#64], caps := [{ va := 266240, pa := 266240, base := 262144, size := 65536, tens := none, line := 262144 : Cap }] : Cmd } ∧ recS26.starts { id := 9, key := 4096, major := 9, w := [0#64, 0#64], caps := [{ va := 266240, pa := 266240, base := 262144, size := 65536, tens := none, line := 262144 : Cap }] : Cmd } = true ∧ recS26.startViolates { id := 9, key := 4096, major := 9, w := [0#64, 0#64], caps := [{ va := 266240, pa := 266240, base := 262144, size := 65536, tens := none, line := 262144 : Cap }] : Cmd } = none ∧ (op = 1 → free) ∧ (op < 6 → op ≠ 1 → ¬free) ∧ op < 6 ∧ ¬(w 0 / 2 ^ 20 % 4 = 3 ∧ op ≤ 1) ∧ ¬rsv ∧ op = 2 ∧ ∃ v < 4, 2 ^ 32 ≤ (e.2.2.recall c i).recVer c i v)) ∧
    (({ id := 9, key := 4096, major := 9, w := [0#64, 0#64], caps := [{ va := 266240, pa := 266240, base := 262144, size := 65536, tens := none, line := 262144 : Cap }] : Cmd }.pos = 6) ∧
     (6 ≤ { id := 9, key := 4096, major := 9, w := [0#64, 0#64], caps := [{ va := 266240, pa := 266240, base := 262144, size := 65536, tens := none, line := 262144 : Cap }] : Cmd }.major) ∧
     ({ id := 9, key := 4096, major := 9, w := [0#64, 0#64], caps := [{ va := 266240, pa := 266240, base := 262144, size := 65536, tens := none, line := 262144 : Cap }] : Cmd }.major ≤ 10) ∧
     ({ id := 9, key := 4096, major := 9, w := [0#64, 0#64], caps := [{ va := 266240, pa := 266240, base := 262144, size := 65536, tens := none, line := 262144 : Cap }] : Cmd }.major = 9) ∧
     (let c := { id := 9, key := 4096, major := 9, w := [0#64, 0#64], caps := [{ va := 266240, pa := 266240, base := 262144, size := 65536, tens := none, line := 262144 : Cap }] : Cmd }.ctx; let i := BitVec.toNat ({ id := 9, key := 4096, major := 9, w := [0#64, 0#64], caps := [{ va := 266240, pa := 266240, base := 262144, size := 65536, tens := none, line := 262144 : Cap }] : Cmd }.w.getD 0 0); let u := ((recS25.runCmd { id := 9, key := 4096, major := 9, w := [0#64, 0#64], caps := [{ va := 266240, pa := 266240, base := 262144, size := 65536, tens := none, line := 262144 : Cap }] : Cmd }).vshare c (recS25.recVa c i) 512).recFix c i; let cap := { id := 9, key := 4096, major := 9, w := [0#64, 0#64], caps := [{ va := 266240, pa := 266240, base := 262144, size := 65536, tens := none, line := 262144 : Cap }] : Cmd }.caps.getD 0 { va := 0, pa := 0, base := 0, size := 0, tens := none : Cap }; let e := u.engineRead { id := 9, key := 4096, major := 9, w := [0#64, 0#64], caps := [{ va := 266240, pa := 266240, base := 262144, size := 65536, tens := none, line := 262144 : Cap }] : Cmd } cap 64; let w := fun j => ofBytes (List.take 8 (List.drop (8 * j) e.1)); let op := w 0 % 16; let free := e.2.2.recState c i = 0; let rsv := 2 ^ 23 ≤ w 0 ∨ w 1 / 2 ^ 32 % 2 ^ 4 ≠ 0 ∨ w 1 % 2 ^ 8 ≠ 0 ∨ 2 ^ 32 ≤ w 2 ∨ 2 ^ 52 ≤ w 3 ∨ ∃ b ∈ List.drop 32 e.1, b ≠ 0; recS25.cmd? 9 = some { id := 9, key := 4096, major := 9, w := [0#64, 0#64], caps := [{ va := 266240, pa := 266240, base := 262144, size := 65536, tens := none, line := 262144 : Cap }] : Cmd } ∧ recS25.starts { id := 9, key := 4096, major := 9, w := [0#64, 0#64], caps := [{ va := 266240, pa := 266240, base := 262144, size := 65536, tens := none, line := 262144 : Cap }] : Cmd } = true ∧ recS25.startViolates { id := 9, key := 4096, major := 9, w := [0#64, 0#64], caps := [{ va := 266240, pa := 266240, base := 262144, size := 65536, tens := none, line := 262144 : Cap }] : Cmd } = none ∧ (op = 1 → free) ∧ (op < 6 → op ≠ 1 → ¬free) ∧ op < 6 ∧ ¬(w 0 / 2 ^ 20 % 4 = 3 ∧ op ≤ 1) ∧ ¬rsv ∧ op = 5)) ∧
    ((0 = 0 ∨ 3 ∉ [3, 4, 5, 6] ∨ binsEmpty.sum = 0)) ∧
    ((3 ∈ [3, 4, 5, 6]) ∧
     (binsOne.length = 64) ∧
     (binsOne.getD 5 0 ≠ 0) ∧
     (∀ b < 64, 5 < b → binsOne.getD b 0 = 0) ∧
     (0 < (List.take (5 + 1) binsOne).sum ∧ 60000 * binsOne.sum ≤ 65536 * (List.take (5 + 1) binsOne).sum) ∧
     (∀ b < 5, ¬(0 < (List.take (b + 1) binsOne).sum ∧ 60000 * binsOne.sum ≤ 65536 * (List.take (b + 1) binsOne).sum))) ∧
    (((3, 0) = recS10.recSlot 0 0 (recS10.recWv 0 0))) ∧
    (((3, 1) ≠ recS0.recSlot 0 0 (recS0.recWv 0 0)) ∧
     (let cur := recS0.recSlot 0 0 (recS0.recWv 0 0); let rank := fun f => if f = 4 then 1 else if f = 6 then 2 else 0; let above := fun x y => rank y.1 < rank x.1 ∨ rank x.1 = rank y.1 ∧ y.2 < x.2; above (3, 1) cur)) :=
  by
  refine ⟨?_, ?_, ?_, ?_, ?_, ?_, ?_⟩ <;>
    decide +kernel

theorem witness_TensorRecordSteps_5 :
    (((3, 0) ≠ recS0.recSlot 0 0 (recS0.recWv 0 0)) ∧
     (recS0.recWord 0 0 8 / 2 ^ 40 % 2 ^ 8 < recS0.recWord 0 0 0 / 2 ^ 40 % 2 ^ 8 + 1) ∧
     (let cur := recS0.recSlot 0 0 (recS0.recWv 0 0); let ctrl := recS0.recWord 0 0 0; let held := (ctrl / 2 ^ 54 % 2 ^ 4, sextI (ctrl / 2 ^ 48 % 2 ^ 6) 6); let cnt := ctrl / 2 ^ 40 % 2 ^ 8; let rank := fun f => if f = 4 then 1 else if f = 6 then 2 else 0; let above := fun x y => rank y.1 < rank x.1 ∨ rank x.1 = rank y.1 ∧ y.2 < x.2; (cnt = 0 ∨ above (3, 0) held → (3, 0) = (3, 0)) ∧ (cnt ≠ 0 → ¬above (3, 0) held → (3, 0) = held) ∧ ¬above (3, 0) cur)) ∧
    (((3, -5) ≠ recS11.recSlot 0 0 (recS11.recWv 0 0)) ∧
     (recS11.recWord 0 0 0 / 2 ^ 40 % 2 ^ 8 + 1 ≤ recS11.recWord 0 0 8 / 2 ^ 40 % 2 ^ 8) ∧
     (let cur := recS11.recSlot 0 0 (recS11.recWv 0 0); let ctrl := recS11.recWord 0 0 0; let held := (ctrl / 2 ^ 54 % 2 ^ 4, sextI (ctrl / 2 ^ 48 % 2 ^ 6) 6); let cnt := ctrl / 2 ^ 40 % 2 ^ 8; let rank := fun f => if f = 4 then 1 else if f = 6 then 2 else 0; let above := fun x y => rank y.1 < rank x.1 ∨ rank x.1 = rank y.1 ∧ y.2 < x.2; (cnt = 0 ∨ above (3, -5) held → (3, -5) = (3, -5)) ∧ (cnt ≠ 0 → ¬above (3, -5) held → (3, -5) = held) ∧ ¬above (3, -5) cur)) ∧
    ((1 ≠ recS10.recWv 0 0 ∧ recS10.recSlot 0 0 1 = (3, 0)) ∧
     (∀ v < 1, ¬(v ≠ recS10.recWv 0 0 ∧ recS10.recSlot 0 0 v = (3, 0)))) ∧
    ((∀ v < 4, ¬(v ≠ recS0.recWv 0 0 ∧ recS0.recSlot 0 0 v = (3, 0))) ∧
     (let wv := recS0.recWv 0 0; let room := fun v => recS0.recVer 0 0 v < 2 ^ 32 ∧ recS0.carriesVer 0 0 v = false; room ((wv + 1) % 4) ∧ ∀ d < 1, 0 < d → ¬room ((wv + d) % 4))) ∧
    ((∀ v < 4, ¬(v ≠ recS5.recWv 0 0 ∧ recS5.recSlot 0 0 v = (3, 0))) ∧
     (let wv := recS5.recWv 0 0; let room := fun v => recS5.recVer 0 0 v < 2 ^ 32 ∧ recS5.carriesVer 0 0 v = false; ∀ d < 4, 0 < d → ¬room ((wv + d) % 4))) :=
  by
  refine ⟨?_, ?_, ?_, ?_, ?_⟩ <;>
    decide +kernel

def taskMem := wr labMem [(0x40000, 0x48000), (0x40008, 0), (0x48000, 5 + 2 ^ 32), (0x48008, 64), (0x48010, 0), (0x48018, 2 ^ 48 + 7), (0x48040, 0x41000), (0x48048, 64), (0x480C0, 0x42000), (0x480C8, 128)]
def taskS (f : State → State) : State := f { lab 0 [] with nextId := 20, gcyc := 100000, mem := taskMem, thr := [] }
def fresh : Machine.Task := { ctx := 0, count := 4, cmd := 9, seq := 9 }
def older : Machine.Task := { ctx := 0, count := 3, cmd := 8, seq := 8, st := .running, writes := [(0x41000, 8)] }
def tsub : Cmd := { id := 9, key := 4096, ctx := 0, pos := 6, major := 11, st := .running, caps := [cap 0x40000] }
def waiting : Machine.Task := { ctx := 0, count := 4, st := .queued, part := 0, kernel := 0x48000, consts := [5, 6], seq := 3 }
def pure_ : Machine.Task := { ctx := 0, count := 4, st := .lookup, part := 0, kernel := 0x48000, pure := true, reads := [(0x41000, 64)], writes := [(0x42000, 64)], lens := [64, 0, 0, 0, 0, 0, 0, 0, 64, 0, 0, 0, 0, 0, 0, 0], digest := List.replicate 32 1, consts := List.replicate 8 0, seq := 3, cmd := 9 }
def heldTask : TaskRef := { count := 4, kernel := 0x10000, pure := false, cycles := 0, phase := 0, slot := 3 }
def taskL0 : State := taskS fun s => { s with tasks := [older, fresh], cmds := [tsub] }
def taskL1 : State := taskS fun s => { s with tasks := [older, fresh], cmds := [tsub], mem := wr s.mem [(0x40008, 5)] }
def taskL2 : State := taskS fun s => { s with tasks := [waiting, { waiting with count := 5, seq := 4 }] }
def taskL3 : State := taskS fun s => { s with tasks := [pure_] }
def taskL4 : State := taskS fun s => { s with tasks := [pure_], reuse := [{ die := 0, tenant := 0, key := (s.taskKey pure_).getD 0, writes := [64], reads := [(0x41000, 64)], lines := [0x1200], stamp := 0 }] }
def taskL5 : State := taskS fun s => { s with tasks := [older, { pure_ with st := .placing }] }
def taskL8 : State := taskS fun s => { s with tasks := [older, { pure_ with st := .finishing, released := true, part := 1, after := 30 }] }
def taskL10 : State := taskS fun s => { s with tasks := [{ pure_ with reads := [(0x81000000, 64)] }] }
def taskL11 : State := { (taskS fun s => s.modTh 0 fun t => { t with resumed := [heldTask] }) with saved := [(3, labThr)] }
def taskL13 : State := taskS fun s => { s with tasks := [{ pure_ with writes := [(0x81000000, 64)] }], reuse := [{ die := 0, tenant := 0, key := (s.taskKey pure_).getD 0, writes := [64], reads := [(0x41000, 64)], lines := [0x1200], stamp := 0 }] }
def taskL14 : State := taskS fun s => { s with tasks := [older, fresh], cmds := [{ tsub with caps := [{ cap 0x40000 with pa := 0x8FFFFFFFC0 }] }] }
def taskX1 : Machine.Task := fresh
def taskX2 : Machine.Task := waiting
def taskX3 : Machine.Task := pure_
def taskX4 : Machine.Task := { pure_ with st := .placing }
def taskX7 : Machine.Task := { pure_ with st := .finishing, released := true, part := 1, after := 30 }
def taskX9 : Machine.Task := { pure_ with reads := [(0x81000000, 64)] }
def taskX10 : Machine.Task := { pure_ with writes := [(0x81000000, 64)] }

/-- The key of a lookup, unevaluated. -/
def taskK : Nat := (taskL3.taskKey taskX3).getD 0

theorem some_of (o : Option Nat) (h : o.isSome = true) : o = some (o.getD 0) := by cases o <;> simp_all

theorem taskK3 : taskL3.taskKey taskX3 = some taskK := some_of _ (by decide +kernel)
theorem taskK13 : taskL13.taskKey taskX10 = some taskK := Eq.trans (by unfold State.taskKey; rfl) taskK3
theorem taskK4 : taskL4.taskKey taskX3 = some taskK := Eq.trans (by unfold State.taskKey; rfl) taskK3

/-- The page a lookup finds. -/
def reuseOf (k : Nat) : Reuse := { die := 0, tenant := 0, key := k, writes := [64], reads := [(0x41000, 64)], lines := [0x1200], stamp := 0 }

theorem find_reuse (k : Nat) :
    List.find? (fun e : Reuse => e.die == 0 && e.tenant == 0 && e.key == k) [reuseOf k] = some (reuseOf k) := by simp [reuseOf]

theorem witness_TaskSteps :
    ((taskX1 ∈ taskL14.tasks) ∧
     (taskX1.st = Machine.TaskSt.submitted) ∧
     (Option.map Cmd.st (taskL14.cmd? taskX1.cmd) = some CmdSt.running) ∧
     ((List.filter (fun u => u.st != Machine.TaskSt.submitted) taskL14.tasks).length < 16384) ∧
     (let e := taskL14.engineRead { id := 9, key := 4096, major := 11, caps := [{ va := 262144, pa := 618475290560, base := 262144, size := 65536, tens := none, line := 262144 : Cap }], st := CmdSt.running : Cmd } ({ id := 9, key := 4096, major := 11, caps := [{ va := 262144, pa := 618475290560, base := 262144, size := 65536, tens := none, line := 262144 : Cap }], st := CmdSt.running : Cmd }.caps.getD 0 { va := 0, pa := 0, base := 0, size := 0, tens := none : Cap }) 256; let r := e.2.2.vshare taskX1.ctx (wordOf e.1 0 % 2 ^ 52 / 64 * 64) 320; (∀ y ∈ taskL14.tasks, y.st = Machine.TaskSt.submitted → y ≠ taskX1 → taskX1.seq < y.seq) ∧ taskL14.cmd? taskX1.cmd = some { id := 9, key := 4096, major := 11, caps := [{ va := 262144, pa := 618475290560, base := 262144, size := 65536, tens := none, line := 262144 : Cap }], st := CmdSt.running : Cmd } ∧ taskL14.capsOwed { id := 9, key := 4096, major := 11, caps := [{ va := 262144, pa := 618475290560, base := 262144, size := 65536, tens := none, line := 262144 : Cap }], st := CmdSt.running : Cmd } = false ∧ ∃ k ∈ r.cmds, k.id = { id := 9, key := 4096, major := 11, caps := [{ va := 262144, pa := 618475290560, base := 262144, size := 65536, tens := none, line := 262144 : Cap }], st := CmdSt.running : Cmd }.id ∧ k.viol = true)) ∧
    ((taskX1 ∈ taskL0.tasks) ∧
     (taskX1.st = Machine.TaskSt.submitted) ∧
     (Option.map Cmd.st (taskL0.cmd? taskX1.cmd) = some CmdSt.running) ∧
     ((List.filter (fun u => u.st != Machine.TaskSt.submitted) taskL0.tasks).length < 16384) ∧
     (let e := taskL0.engineRead { id := 9, key := 4096, major := 11, caps := [{ va := 262144, pa := 262144, base := 262144, size := 65536, tens := none, line := 262144 : Cap }], st := CmdSt.running : Cmd } ({ id := 9, key := 4096, major := 11, caps := [{ va := 262144, pa := 262144, base := 262144, size := 65536, tens := none, line := 262144 : Cap }], st := CmdSt.running : Cmd }.caps.getD 0 { va := 0, pa := 0, base := 0, size := 0, tens := none : Cap }) 256; let r := e.2.2.vshare taskX1.ctx (wordOf e.1 0 % 2 ^ 52 / 64 * 64) 320; let sub := r.submission taskX1 e.1; (∀ y ∈ taskL0.tasks, y.st = Machine.TaskSt.submitted → y ≠ taskX1 → taskX1.seq < y.seq) ∧ taskL0.cmd? taskX1.cmd = some { id := 9, key := 4096, major := 11, caps := [{ va := 262144, pa := 262144, base := 262144, size := 65536, tens := none, line := 262144 : Cap }], st := CmdSt.running : Cmd } ∧ taskL0.capsOwed { id := 9, key := 4096, major := 11, caps := [{ va := 262144, pa := 262144, base := 262144, size := 65536, tens := none, line := 262144 : Cap }], st := CmdSt.running : Cmd } = false ∧ sub.codes = [] ∧ r.clean taskX1.cmd = true)) ∧
    ((taskX1 ∈ taskL1.tasks) ∧
     (taskX1.st = Machine.TaskSt.submitted) ∧
     (Option.map Cmd.st (taskL1.cmd? taskX1.cmd) = some CmdSt.running) ∧
     ((List.filter (fun u => u.st != Machine.TaskSt.submitted) taskL1.tasks).length < 16384) ∧
     (let e := taskL1.engineRead { id := 9, key := 4096, major := 11, caps := [{ va := 262144, pa := 262144, base := 262144, size := 65536, tens := none, line := 262144 : Cap }], st := CmdSt.running : Cmd } ({ id := 9, key := 4096, major := 11, caps := [{ va := 262144, pa := 262144, base := 262144, size := 65536, tens := none, line := 262144 : Cap }], st := CmdSt.running : Cmd }.caps.getD 0 { va := 0, pa := 0, base := 0, size := 0, tens := none : Cap }) 256; let r := e.2.2.vshare taskX1.ctx (wordOf e.1 0 % 2 ^ 52 / 64 * 64) 320; let sub := r.submission taskX1 e.1; (∀ y ∈ taskL1.tasks, y.st = Machine.TaskSt.submitted → y ≠ taskX1 → taskX1.seq < y.seq) ∧ taskL1.cmd? taskX1.cmd = some { id := 9, key := 4096, major := 11, caps := [{ va := 262144, pa := 262144, base := 262144, size := 65536, tens := none, line := 262144 : Cap }], st := CmdSt.running : Cmd } ∧ taskL1.capsOwed { id := 9, key := 4096, major := 11, caps := [{ va := 262144, pa := 262144, base := 262144, size := 65536, tens := none, line := 262144 : Cap }], st := CmdSt.running : Cmd } = false ∧ sub.codes = 2 :: (((taskL1.engineRead { id := 9, key := 4096, major := 11, caps := [{ va := 262144, pa := 262144, base := 262144, size := 65536, tens := none, line := 262144 : Cap }], st := CmdSt.running : Cmd } ({ id := 9, key := 4096, major := 11, caps := [{ va := 262144, pa := 262144, base := 262144, size := 65536, tens := none, line := 262144 : Cap }], st := CmdSt.running : Cmd }.caps.getD 0 { va := 0, pa := 0, base := 0, size := 0, tens := none : Cap }) 256).2.2.vshare taskX1.ctx (wordOf (taskL1.engineRead { id := 9, key := 4096, major := 11, caps := [{ va := 262144, pa := 262144, base := 262144, size := 65536, tens := none, line := 262144 : Cap }], st := CmdSt.running : Cmd } ({ id := 9, key := 4096, major := 11, caps := [{ va := 262144, pa := 262144, base := 262144, size := 65536, tens := none, line := 262144 : Cap }], st := CmdSt.running : Cmd }.caps.getD 0 { va := 0, pa := 0, base := 0, size := 0, tens := none : Cap }) 256).1 0 % 2 ^ 52 / 64 * 64) 320).submission taskX1 (taskL1.engineRead { id := 9, key := 4096, major := 11, caps := [{ va := 262144, pa := 262144, base := 262144, size := 65536, tens := none, line := 262144 : Cap }], st := CmdSt.running : Cmd } ({ id := 9, key := 4096, major := 11, caps := [{ va := 262144, pa := 262144, base := 262144, size := 65536, tens := none, line := 262144 : Cap }], st := CmdSt.running : Cmd }.caps.getD 0 { va := 0, pa := 0, base := 0, size := 0, tens := none : Cap }) 256).1).codes.tail ∧ ∀ k ∈ r.cmds, k.id = { id := 9, key := 4096, major := 11, caps := [{ va := 262144, pa := 262144, base := 262144, size := 65536, tens := none, line := 262144 : Cap }], st := CmdSt.running : Cmd }.id → k.viol = false)) ∧
    ((taskL2.owner 0 = some 0) ∧
     ((taskL2.th 0).mode = Mode.idle) ∧
     (taskL2.queues 0 = true) ∧
     (taskL2.gated.contains (coreOf 0) = false) ∧
     ((taskL2.th 0).dbg.stopped = false) ∧
     ((taskL2.th 0).dbg.step = false) ∧
     ((taskL2.th 0).resumed = []) ∧
     (taskL2.nextQueued 0 0 = some taskX2) ∧
     (taskX2.consts.length ≤ 8)) ∧
    ((taskL11.owner 0 = some 0) ∧
     ((taskL11.th 0).mode = Mode.idle) ∧
     (taskL11.queues 0 = true) ∧
     (taskL11.gated.contains (coreOf 0) = false) ∧
     ((taskL11.th 0).dbg.stopped = false) ∧
     ((taskL11.th 0).dbg.step = false) ∧
     ((taskL11.th 0).resumed = [heldTask]) ∧
     (taskL11.savedAt 0 heldTask.slot = some labThr)) ∧
    ((taskL10.taskKey taskX9 = none) ∧
     (List.find? (fun t => t.ctx == 0 && t.count == 4 && t.st == Machine.TaskSt.lookup) taskL10.tasks = some taskX9)) ∧
    ((taskL3.taskKey taskX3 = some taskK) ∧
     (List.find? (fun t => t.ctx == 0 && t.count == 4 && t.st == Machine.TaskSt.lookup) taskL3.tasks = some taskX3 ∧ List.find? (fun e => e.die == taskX3.unit && e.tenant == (taskL3.ctx 0).tenant && e.key == taskK) taskL3.reuse = none)) ∧
    ((taskL13.taskKey taskX10 = some taskK) ∧
     (let v := taskL13.rangesShare 0 taskX10.reads; List.find? (fun t => t.ctx == 0 && t.count == 4 && t.st == Machine.TaskSt.lookup) taskL13.tasks = some taskX10 ∧ List.find? (fun e => e.die == taskX10.unit && e.tenant == (taskL13.ctx 0).tenant && e.key == taskK) taskL13.reuse = some (reuseOf taskK) ∧ ∃ r ∈ taskX10.writes, ∃ i < (r.1 % 64 + r.2 + 63) / 64, v.writable 0 (r.1 / 64 * 64 + 64 * i) = false)) ∧
    ((taskL4.taskKey taskX3 = some taskK) ∧
     (let v := taskL4.rangesShare 0 taskX3.reads; List.find? (fun t => t.ctx == 0 && t.count == 4 && t.st == Machine.TaskSt.lookup) taskL4.tasks = some taskX3 ∧ List.find? (fun e => e.die == taskX3.unit && e.tenant == (taskL4.ctx 0).tenant && e.key == taskK) taskL4.reuse = some (reuseOf taskK) ∧ ∀ r ∈ taskX3.writes, ∀ i < (r.1 % 64 + r.2 + 63) / 64, v.writable 0 (r.1 / 64 * 64 + 64 * i) = true)) ∧
    ((∀ r ∈ taskL5.reqs, r.key ≠ engKey taskX4.cmd) ∧
     (List.find? (fun t => t.ctx == 0 && t.count == 4 && t.st == Machine.TaskSt.placing) taskL5.tasks = some taskX4)) ∧
    ((∀ i ∈ taskX7.produced, taskL8.ended i = true) ∧
     (List.find? (fun t => t.ctx == 0 && t.count == 4 && t.st == Machine.TaskSt.finishing && t.released) taskL8.tasks = some taskX7 ∧ ∀ r ∈ taskL8.reqs, r.key = goneKey 0 taskX7.part → r.id < taskX7.after → r.kind.writes = false)) :=
  ⟨by decide +kernel,
   by decide +kernel,
   by decide +kernel,
   by decide +kernel,
   by decide +kernel,
   by decide +kernel,
   ⟨taskK3, by decide +kernel, rfl⟩,
   ⟨taskK13, by decide +kernel, (by show List.find? _ [reuseOf taskK] = _; exact find_reuse taskK), by decide +kernel⟩,
   ⟨taskK4, by decide +kernel, (by show List.find? _ [reuseOf taskK] = _; exact find_reuse taskK), by decide +kernel⟩,
   by decide +kernel,
   by decide +kernel⟩

def chOf (x : Chan → Chan) : Chan := x { ctx := 0, ch := 0, st := .opened, desc := [0x1000, 0, 0, 0x48000, 0], qbuf := 0x48000, usable := 1, stand := [] }
def chS (x : Chan → Chan) (f : State → State := id) : State := f { lab 0 [] with chans := [chOf x], nextId := 20, gcyc := 2 ^ 21, cmds := [{ id := 9, st := .running }] }
def farEnd : FarOpen := { fab := 5, tenant := 0, ch := 0, peerTen := 0, peerCh := 0, fmt := 0, count := 1, depth := 1 }
def opening (d : Nat) : State := chS (fun x => { x with st := .opening, opening := some 9, desc := [0x1000, 0, 2 ^ 26 + 5 * 4096, 0x48000, d] }) fun s => { s with fab := { s.fab with delivered := [(5, .chopn farEnd)] } }
def wasShut : ChanWas := { st := .closed, desc := [1], qbuf := 0, sent := 1, recv := 1, usable := 0, back := 0, marked := false }
def chanSteps0 : State := chS fun x => { x with transit := [(some [1, 2, 3, 4], 9, false), (none, 3, false)] }
def chanSteps2 : State := chS fun x => { x with back := 2 }
def chanSteps3 : State := opening 0
def chanSteps5 : State := chS (fun x => { x with desc := [0x1000, 2 ^ 26 + 5 * 4096, 0, 0x48000, 0] }) fun s => { s with fab := { s.fab with delivered := [(5, .element 0 0 [1, 2, 3, 4])] } }
def chanSteps6 : State := chS (fun x => { x with desc := [0x1000, 0, 2 ^ 26 + 5 * 4096, 0x48000, 0] }) fun s => { s with fab := { s.fab with delivered := [(5, .credit 0 0)] } }
def chanSteps7 : State := chS id fun s => { s with chans := [{ chOf id with ch := 0, desc := [0x1000, 0, 1, 0, 0], usable := 0 }, { chOf id with ch := 3, desc := [0x1000, 1, 0, 0, 0], usable := 0 }], thr := [(0, { labThr with chanHeld := some (0, 0) }), (1, { labThr with chanHeld := some (3, 0) })] }
def chanU0 : State := ((chanSteps5.nextFor (chanSteps5.getChan 0 0)).map Prod.snd).getD {}
def chanU1 : State := ((chanSteps6.nextFor (chanSteps6.getChan 0 0)).map Prod.snd).getD {}

theorem witness_ChannelSteps :
    (((chanSteps0.getChan 0 0).transit = (some [1#8, 2#8, 3#8, 4#8], 9, false) :: (chanSteps0.getChan 0 0).transit.tail)) ∧
    ((0 < (chanSteps2.getChan 0 0).back)) ∧
    ((∀ (g : FarOpen), (5, PktBody.element 0 0 [1, 2, 3, 4]).2 ≠ PktBody.chopn g) ∧
     (∀ (a b : ℕ), (5, PktBody.element 0 0 [1, 2, 3, 4]).2 ≠ PktBody.credit a b) ∧
     (chanSteps5.nextFor (chanSteps5.getChan 0 0) = some ((5, PktBody.element 0 0 [1, 2, 3, 4]), chanU0)) ∧
     ((chanSteps5.getChan 0 0).transit = [])) ∧
    ((∃ a b, (5, PktBody.credit 0 0).2 = PktBody.credit a b) ∧
     (chanSteps6.nextFor (chanSteps6.getChan 0 0) = some ((5, PktBody.credit 0 0), chanU1)) ∧
     ((chanSteps6.getChan 0 0).back = 0) ∧
     ((chanSteps6.getChan 0 0).live = true) ∧
     ((chanSteps6.getChan 0 0).remR = true)) ∧
    ((chanSteps5.nextFor (chanSteps5.getChan 0 0) = some ((5, PktBody.element 0 0 [1, 2, 3, 4]), chanU0)) ∧
     ((5, PktBody.element 0 0 [1, 2, 3, 4]).2 = PktBody.element 0 0 [1, 2, 3, 4]) ∧
     ((chanSteps5.getChan 0 0).live = true) ∧
     ((chanSteps5.getChan 0 0).remS = true)) ∧
    ((∀ (g : FarOpen), (farEnd.fab, PktBody.chopn g) ∈ chanSteps3.fab.delivered → g.peerTen = farEnd.peerTen → g.peerCh = 0 → g = farEnd) ∧
     ((chanSteps3.getChan 0 0).st = ChanSt.opening) ∧
     ((chanSteps3.getChan 0 0).opening = some 9) ∧
     (chanSteps3.cmd? 9 = some { id := 9, st := CmdSt.running : Cmd }) ∧
     (farEnd.fab = (chanSteps3.getChan 0 0).pkg) ∧
     (farEnd.ch = (chanSteps3.getChan 0 0).peerCh) ∧
     (farEnd.peerCh = 0) ∧
     (farEnd.peerTen = (chanSteps3.ctx 0).tenant) ∧
     ((farEnd.fab, PktBody.chopn farEnd) ∈ chanSteps3.fab.delivered)) ∧
    ((([0, 1].all fun p => (chanSteps7.th p).told) = false) ∧
     ([0, 1].Nodup) ∧
     (∀ p ∈ [0, 1], p < 3072 ∧ ∃ w ∈ chanSteps7.chans, chanSteps7.stuckOn 0 p = some w ∧ (if w.snd = p then w.rcv else w.snd) ∈ [0, 1])) :=
  by
  refine ⟨?_, ?_, ⟨by simp, by simp, ?_⟩, ⟨by simp, ?_⟩, ?_, ⟨by
     intro g h; rw [show chanSteps3.fab.delivered = [(5, .chopn farEnd)] from by decide +kernel] at h; simp at h; simp [h], by decide +kernel⟩, ?_⟩ <;>
    decide +kernel

def grpMem (n st : Nat) := wr labMem [(0xE000, grpHead n 0 false false 1 st), (0xE010, 5000), (0x40000, 0x400000003F800000), (0x40008, 0x4080000040400000)]
def grpS (st : Nat) (f : State → State := id) : State := f { lab 0 [] with nextId := 30, gcyc := 100000, mem := grpMem 2 st, grps := [{ ctx := 0, idx := 0, members := [0, 5], digest := 77, grpc := some 9 }], cmds := [{ id := 9, ctx := 0, st := .running, pos := 7, major := 13, w := [0, 0], caps := [cap 0x42000] }] }
def collCmd : Cmd := { id := 9, ctx := 0, st := .running, pos := 7, major := 6, cid := 1, w := [0, 0], caps := [cap 0x42000, cap 0x40000, cap 0x41000] }
def collOf (op w0 : Nat) (f : Coll → Coll := id) : Coll := f { cmd := 9, ctx := 0, grp := 0, seq := 1, op, desc := [w0, 0x40000, 0x41000, 4, 0, 0, 0, 0], algrun := 1, src := some none, dst := some none }
def cpk (k : CollKind) : CollPacket := { tenant := 0, grp := 0, gen := 1, member := 1, seq := 1, detour := false, kind := k }
def collS (x : Coll) (ps : List CollPacket) : State := grpS 2 fun s => { s with colls := [x], cmds := [collCmd], grps := [{ ctx := 0, idx := 0, members := [0, 5], colls := 1, packets := ps }] }
def agreeCmd : Cmd := { id := 9, ctx := 0, st := .running, pos := 7, major := 8, fn := 2, cid := 3, w := [0, 0], caps := [cap 0x42000], aux := [1] }
def barS (arr exp ph seen : Nat) (u : List BarUpd) : State := { lab 0 [] with gcyc := 100, mem := wr labMem [(0xD000, barHead ph 4 0), (0xD008, arr), (0xD010, exp)], barLine := [(0, 0xD000 / 64)], barSeen := [(0, seen)], barUpds := u, cmds := [{ id := 9, ctx := 0, st := .running, pos := 7, major := 9, w := [0, 1] }, { id := 8, ctx := 0, st := .running, pos := 7, major := 11, w := [0, 1] }] }
def joinOf (g n d m : Nat) : GroupJoin := { member := m, gen := g, n, digest := d }
def joinS (n : Nat) (j : GroupJoin) : State := grpS 1 fun s => { s with mem := grpMem n 1, fab := { s.fab with delivered := [(5, .join 0 0 j)] } }


def part1 : CollKind := .part 0 0 0 [(0x3f800000, false), (0x3f800000, false), (0x3f800000, false), (0x3f800000, false)]
def part0 : CollKind := .part 0 0 0 [(0x3f800000, false), (0x40000000, false), (0x3f800001, false), (0xbf800000, false)]
def collGo : Coll := collOf 0 0 fun x => { x with started := [0] }
def collForms : State := collS collGo [cpk (.start collGo.digest), cpk part1, { cpk part0 with member := 0 }]
theorem form_of {o : Option (List Landing × Bool)} (h : o.map Prod.snd = some false) : o = some (o.elim [] Prod.fst, false) := by
  cases o <;> simp_all [Prod.ext_iff]
def collVals : List Landing := (collForms.collForm collGo 0 0).elim [] Prod.fst

def barWait : Cmd := { id := 12, key := 4096, ctx := 0, pos := 7, major := 11, st := .running, w := [0, 1] }
def barCmd (m : Cmd) (ph : Nat) (act : Bool) (f : State → State := id) : State :=
  f { lab 0 [] with gcyc := 100, nextId := 30, mem := wr labMem [(0xD000, if act then barHead ph 4 0 else 0), (0xD018, 6)], barLine := if act then [(0, 0xD000 / 64)] else [], barSeen := [(0, 101)], cmds := [{ m with id := 9, key := 4096, ctx := 0, pos := 7 }, barWait] }
def grpTable (l : List (Nat × Nat)) : List Host.Cell := wr (grpMem 2 0) ([(0x41000, 2 + 2 ^ 20 * 3), (0x41040, 0), (0x41048, 5)] ++ l)
def grpCmd (m : Cmd) (mem : List Host.Cell) : State := { grpS 0 with mem, cmds := [{ m with id := 9, key := 4096, ctx := 0, pos := 7, st := .accepted }], grps := [] }
def grpcOf (a p : Nat) (w : Nat := 0) : Cmd := { id := 9, major := 13, w := [BitVec.ofNat 64 w, 0], caps := [cap p], aux := [a] }
def grpfOf (w : Nat) : Cmd := { id := 9, major := 14, w := [BitVec.ofNat 64 w, 0] }

def collX0 : Coll := collOf 0 0
def collX1 : Coll := collOf 0 0x300
def collX3 : Coll := collOf 0 0 fun x => { x with done := [0] }
def collX5 : Coll := collGo
def collM0 : Cmd := collCmd
def collM1 : Cmd := agreeCmd
def collL0 : State := collS collX0 []
def collL1 : State := collS collX0 [cpk (.start collX0.digest)]
def collL2 : State := collS collX1 [cpk (.start collX1.digest)]
def collL4 : State := collS collX3 [cpk (.start collX3.digest)]
def collL5 : State := grpS 2 fun s => { s with fab := { s.fab with delivered := [(5, .coll (cpk (.part 0 0 0 [])))] } }
def collL6 : State := grpS 2 fun s => { s with cmds := [agreeCmd], grps := [{ ctx := 0, idx := 0, members := [0, 5], packets := [{ cpk (.agree 2 5) with seq := 3 }, { cpk (.agree 2 7) with seq := 3, member := 0 }] }] }
def collL7 : State := collS collX0 [cpk (.start collX1.digest)]
def collL8 : State := grpS 2 fun s => { s with fab := { s.fab with delivered := [(5, .coll { cpk (.part 0 0 0 []) with tenant := 5 })] } }
def collL9 : State := collForms
def grpL0 : State := barS 1 0 3 101 [{ id := 5, ctx := 0, bar := 0, arr := 2, expB := 0, cmd := some 9 }]
def grpL2 : State := barS 5 0 (2 ^ 32 - 1) 0 []
def grpL5 : State := grpS 4
def grpL6 : State := { grpS 4 with gcyc := 4999 }
def grpL7 : State := grpS 2 fun s => { s with fab := { s.fab with unrch := [5] } }
def grpL8 : State := joinS 2 (joinOf 1 2 77 1)
def grpL9 : State := joinS 3 (joinOf 1 3 77 1)
def grpL10 : State := joinS 2 (joinOf 2 2 77 1)
def grpL12 : State := grpS 2 fun s => { s with fab := { s.fab with delivered := [(5, .leave 0 0 1 1)] } }
def grpL13 : State := barCmd { id := 9, major := 9, w := [0, 7] } 1 true
def grpL14 : State := barCmd { id := 9, major := 9, w := [9, 7] } 1 true
def grpL15 : State := barCmd { id := 9, major := 10, w := [0, 77] } 1 true
def grpL16 : State := barCmd { id := 9, major := 11, w := [0, 1] } 0 true
def grpL18 : State := barCmd { id := 9, major := 11, w := [0, 1] } 1 false
def grpL19 : State := barCmd { id := 9, major := 12, w := [0, 5] } 1 true
def grpL20 : State := barCmd { id := 9, major := 12, w := [0, 5] } 1 false
def grpL21 : State := barCmd { id := 9, major := 12, fn := 1, w := [0, 0] } 1 true
def grpL22 : State := barCmd { id := 9, major := 12, fn := 1, w := [0, 0] } 1 false
def grpL23 : State := barCmd { id := 9, major := 12, w := [0, 5] } 1 false fun s => s.modCtx 0 fun x => { x with desc := x.desc.map fun e => if e.1 = 0x78 then (0x78, 0x81000000) else e }
def grpL25 : State := { barS 4 0 2 0 [{ id := 5, ctx := 0, bar := 0, arr := 2, expB := 0, cmd := some 9 }] with barLine := [] }
def grpL27 : State := barCmd { id := 9, major := 12, w := [0, 5] } 1 false fun s => { s with mem := wr s.mem [(0x3000, 7)] }
def grpL28 : State := grpCmd (grpcOf 1 0x41000) (grpTable [])
def grpL29 : State := grpCmd (grpcOf 0 0x41000) (grpTable [])
def grpL30 : State := grpCmd (grpcOf 1 0x41008) (grpTable [])
def grpL31 : State := grpCmd (grpcOf 1 0x41000 9) (grpTable [])
def grpL32 : State := grpCmd (grpcOf 1 0x41000) (grpTable [(0x41048, 0)])
def grpL33 : State := grpCmd (grpcOf 1 0x41000) (grpTable [(0xE000, 2 ^ 17 + 3 * 2 ^ 12)])
def grpL35 : State := grpCmd (grpfOf 0) (grpMem 2 0)
def grpL36 : State := grpCmd (grpfOf 0) (grpMem 2 2)
def grpL37 : State := grpCmd (grpfOf 9) (grpMem 2 4)
def joinL0 : GroupJoin := joinOf 1 2 77 1
def joinL1 : GroupJoin := joinOf 1 3 77 1
def joinL2 : GroupJoin := joinOf 2 2 77 1

theorem witness_CollectiveSteps_1 :
    (((5, PktBody.coll (cpk (CollKind.part 0 0 0 []))) ∈ collL5.fab.delivered) ∧
     ((collL5.ctx 0).st ≠ CtxSt.free) ∧
     ((collL5.ctx 0).tenant = (cpk (CollKind.part 0 0 0 [])).tenant) ∧
     ((cpk (CollKind.part 0 0 0 [])).grp = 0) ∧
     (collL5.grpOk 0 0 = true) ∧
     (collL5.grpState 0 0 = 1 ∨ collL5.grpState 0 0 = 2) ∧
     ((cpk (CollKind.part 0 0 0 [])).gen = collL5.grpGen 0 0) ∧
     (kindObject (cpk (CollKind.part 0 0 0 [])).kind = none) ∧
     (kindAgrees (cpk (CollKind.part 0 0 0 [])).kind = false) ∧
     ((cpk (CollKind.part 0 0 0 [])).seq ∉ (collL5.grp 0 0).ended)) ∧
    ((List.find? (fun y => y.cmd == 9) collL0.colls = some collX0) ∧
     (collL0.cmd? 9 = some collM0) ∧
     (collL0.collAgreed collX0 ≠ (true, true))) ∧
    ((List.find? (fun y => y.cmd == 9) collL2.colls = some collX1) ∧
     (collL2.cmd? 9 = some collM0) ∧
     (collL2.collAgreed collX1 = (true, true)) ∧
     (collX1.wfmt ≠ 0) ∧
     (collX1.scale = none) ∧
     (collL2.capsOwed collM0 = false)) ∧
    ((List.find? (fun y => y.cmd == 9) collL1.colls = some collX0) ∧
     (collL1.cmd? 9 = some collM0) ∧
     (collL1.collAgreed collX0 = (true, true)) ∧
     (collX0.wfmt = 0 ∨ collX0.scale.isSome = true) ∧
     (0 ∉ collX0.done) ∧
     (collL1.capsOwed collM0 = false) ∧
     (0 < collX0.chunks (collL1.grpN collX0.ctx collX0.grp))) ∧
    ((collL9.collForm collX5 0 0 = some (collVals, false)) ∧
     (List.find? (fun y => y.cmd == 9) collL9.colls = some collX5) ∧
     (collL9.cmd? 9 = some collM0) ∧
     (collL9.collAgreed collX5 = (true, true)) ∧
     (collX5.wfmt = 0) ∧
     (collX5.op = 0 ∨ collX5.op = 6) ∧
     (0 ∉ collX5.done) ∧
     (0 ∈ collX5.started) ∧
     (collL9.capsOwed collM0 = false) ∧
     (collX5.dst = some none) ∧
     (let w := fmtBits collX5.fmt / 8; let a := collX5.dstVa + 4096 * 0 * w; let bs := List.flatMap (fun v => bytesOf w (convert v.1 collX5.fmt Rm.rne 0).1) collVals; 0 < collX5.chunks (collL9.grpN collX5.ctx collX5.grp) ∧ collX5.owner (collL9.grpN collX5.ctx collX5.grp) 0 = collL9.grpRank collX5.ctx collX5.grp ∧ a % 64 + bs.length ≤ 64 ∧ bs ≠ [] ∧ collM0.pagePa a % 64 = a % 64 ∧ collL9.open_ collM0 { va := a, pa := collM0.pagePa a, base := 0, size := 0, tens := none : Cap } bs.length)) ∧
    ((List.find? (fun y => y.cmd == 9) collL7.colls = some collX0) ∧
     (collL7.cmd? 9 = some collM0) ∧
     (collM0.isCola = false) ∧
     ((collL7.collAgreed collX0).2 = false)) :=
  by
  refine ⟨?_, ?_, ?_, ?_, ⟨form_of (?_), ?_⟩, ?_⟩ <;>
    decide +kernel

theorem witness_CollectiveSteps_2 :
    ((List.find? (fun y => y.cmd == 9) collL0.colls = some collX0) ∧
     (collL0.cmd? 9 = some collM0) ∧
     (collM0.isCola = false) ∧
     ((collL0.collAgreed collX0).2 = true) ∧
     (∃ k < collX0.chunks (collL0.grpN collX0.ctx collX0.grp), k ∉ collX0.done)) ∧
    ((List.find? (fun y => y.cmd == 9) collL4.colls = some collX3) ∧
     (collL4.cmd? 9 = some collM0) ∧
     (collM0.isCola = false) ∧
     (collX3.ctx = collM0.ctx) ∧
     ((collL4.collAgreed collX3).2 = true) ∧
     (collL4.clean collM0.id = true) ∧
     (let at_ := have __src := cap0 collM0; { va := (cap0 collM0).va + 40, pa := (cap0 collM0).pa + 40, base := __src.base, size := __src.size, tens := __src.tens, line := __src.line : Cap }; (∀ k < collX3.chunks (collL4.grpN collX3.ctx collX3.grp), k ∈ collX3.done) ∧ collL4.open_ collM0 at_ 16)) ∧
    (((5, PktBody.coll (let __src := cpk (CollKind.part 0 0 0 []); { tenant := 5, grp := __src.grp, gen := __src.gen, member := __src.member, seq := __src.seq, detour := __src.detour, kind := __src.kind : CollPacket })) ∈ collL8.fab.delivered ∧ ∀ e ∈ collL8.ctxs, e.2.st = CtxSt.free ∨ e.2.tenant ≠ (let __src := cpk (CollKind.part 0 0 0 []); { tenant := 5, grp := __src.grp, gen := __src.gen, member := __src.member, seq := __src.seq, detour := __src.detour, kind := __src.kind : CollPacket }).tenant)) ∧
    ((collL6.cmd? 9 = some collM1) ∧
     (collM1.isCola = true) ∧
     (collL6.clean 9 = true) ∧
     (collM1.st = CmdSt.running) ∧
     (collM1.aux ≠ []) ∧
     (collL6.open_ collM1 (cap0 collM1) 8) ∧
     ([5].length + 1 = collL6.grpN collM1.ctx (grpNum collM1) ∧ (∀ r < collL6.grpN collM1.ctx (grpNum collM1), ∃ p ∈ collL6.packetsOf collM1.ctx (grpNum collM1) collM1.cid kindAgrees, p.member = r) ∧ ∀ p ∈ collL6.packetsOf collM1.ctx (grpNum collM1) collM1.cid kindAgrees, p.kind = CollKind.agree collM1.fn ([7, 5].getD p.member 0))) ∧
    ((2 = 2 ∨ 2 = 3) ∧
     (0 < [d32 1073741824].length) ∧
     (∃ j < 1, 1 = 2 ^ j) ∧
     (1 < [d32 1065353216, d32 1073741824].length) ∧
     ([d32 1065353216, d32 1073741824].length ≤ 2 * 1)) :=
  by
  refine ⟨?_, ?_, ?_, ?_, ?_⟩ <;>
    decide +kernel

theorem witness_GroupAndBarrierSteps_1 :
    ((grpL14.cmd? 9 = some { id := 9, key := 4096, pos := 7, major := 9, w := [9#64, 7#64] : Cmd }) ∧
     ({ id := 9, key := 4096, pos := 7, major := 9, w := [9#64, 7#64] : Cmd }.ctx = 0) ∧
     (grpL14.starts { id := 9, key := 4096, pos := 7, major := 9, w := [9#64, 7#64] : Cmd } = true) ∧
     (grpL14.startViolates { id := 9, key := 4096, pos := 7, major := 9, w := [9#64, 7#64] : Cmd } = none) ∧
     ({ id := 9, key := 4096, pos := 7, major := 9, w := [9#64, 7#64] : Cmd }.pos = 7) ∧
     (BitVec.toNat ({ id := 9, key := 4096, pos := 7, major := 9, w := [9#64, 7#64] : Cmd }.w.getD 0 0) = 9) ∧
     (9 ≤ { id := 9, key := 4096, pos := 7, major := 9, w := [9#64, 7#64] : Cmd }.major) ∧
     ({ id := 9, key := 4096, pos := 7, major := 9, w := [9#64, 7#64] : Cmd }.major ≤ 12) ∧
     (grpL14.cword 0 128 ≤ 9)) ∧
    ((grpL13.cmd? 9 = some { id := 9, key := 4096, pos := 7, major := 9, w := [0#64, 7#64] : Cmd }) ∧
     ({ id := 9, key := 4096, pos := 7, major := 9, w := [0#64, 7#64] : Cmd }.ctx = 0) ∧
     (grpL13.starts { id := 9, key := 4096, pos := 7, major := 9, w := [0#64, 7#64] : Cmd } = true) ∧
     (grpL13.startViolates { id := 9, key := 4096, pos := 7, major := 9, w := [0#64, 7#64] : Cmd } = none) ∧
     ({ id := 9, key := 4096, pos := 7, major := 9, w := [0#64, 7#64] : Cmd }.pos = 7) ∧
     (BitVec.toNat ({ id := 9, key := 4096, pos := 7, major := 9, w := [0#64, 7#64] : Cmd }.w.getD 0 0) = 0) ∧
     (0 < grpL13.cword 0 128) ∧
     ({ id := 9, key := 4096, pos := 7, major := 9, w := [0#64, 7#64] : Cmd }.major = 9)) ∧
    ((grpL15.cmd? 9 = some { id := 9, key := 4096, pos := 7, major := 10, w := [0#64, 77#64] : Cmd }) ∧
     ({ id := 9, key := 4096, pos := 7, major := 10, w := [0#64, 77#64] : Cmd }.ctx = 0) ∧
     (grpL15.starts { id := 9, key := 4096, pos := 7, major := 10, w := [0#64, 77#64] : Cmd } = true) ∧
     (grpL15.startViolates { id := 9, key := 4096, pos := 7, major := 10, w := [0#64, 77#64] : Cmd } = none) ∧
     ({ id := 9, key := 4096, pos := 7, major := 10, w := [0#64, 77#64] : Cmd }.pos = 7) ∧
     (BitVec.toNat ({ id := 9, key := 4096, pos := 7, major := 10, w := [0#64, 77#64] : Cmd }.w.getD 0 0) = 0) ∧
     (0 < grpL15.cword 0 128) ∧
     ({ id := 9, key := 4096, pos := 7, major := 10, w := [0#64, 77#64] : Cmd }.major = 10)) ∧
    ((grpL18.cmd? 9 = some { id := 9, key := 4096, pos := 7, major := 11, w := [0#64, 1#64] : Cmd }) ∧
     ({ id := 9, key := 4096, pos := 7, major := 11, w := [0#64, 1#64] : Cmd }.ctx = 0) ∧
     (grpL18.starts { id := 9, key := 4096, pos := 7, major := 11, w := [0#64, 1#64] : Cmd } = true) ∧
     (grpL18.startViolates { id := 9, key := 4096, pos := 7, major := 11, w := [0#64, 1#64] : Cmd } = none) ∧
     ({ id := 9, key := 4096, pos := 7, major := 11, w := [0#64, 1#64] : Cmd }.pos = 7) ∧
     (BitVec.toNat ({ id := 9, key := 4096, pos := 7, major := 11, w := [0#64, 1#64] : Cmd }.w.getD 0 0) = 0) ∧
     (0 < grpL18.cword 0 128) ∧
     (getD 0 grpL18.barSeen (barKey 0 0) = grpL18.gcyc + 1) ∧
     ({ id := 9, key := 4096, pos := 7, major := 11, w := [0#64, 1#64] : Cmd }.major = 11) ∧
     (grpL18.barActive 0 0 = false)) ∧
    ((grpL16.cmd? 9 = some { id := 9, key := 4096, pos := 7, major := 11, w := [0#64, 1#64] : Cmd }) ∧
     ({ id := 9, key := 4096, pos := 7, major := 11, w := [0#64, 1#64] : Cmd }.ctx = 0) ∧
     (grpL16.starts { id := 9, key := 4096, pos := 7, major := 11, w := [0#64, 1#64] : Cmd } = true) ∧
     (grpL16.startViolates { id := 9, key := 4096, pos := 7, major := 11, w := [0#64, 1#64] : Cmd } = none) ∧
     ({ id := 9, key := 4096, pos := 7, major := 11, w := [0#64, 1#64] : Cmd }.pos = 7) ∧
     (BitVec.toNat ({ id := 9, key := 4096, pos := 7, major := 11, w := [0#64, 1#64] : Cmd }.w.getD 0 0) = 0) ∧
     (0 < grpL16.cword 0 128) ∧
     (getD 0 grpL16.barSeen (barKey 0 0) = grpL16.gcyc + 1) ∧
     ({ id := 9, key := 4096, pos := 7, major := 11, w := [0#64, 1#64] : Cmd }.major = 11) ∧
     (grpL16.barActive 0 0 = true)) ∧
    ((grpL19.cmd? 9 = some { id := 9, key := 4096, pos := 7, major := 12, w := [0#64, 5#64] : Cmd }) ∧
     ({ id := 9, key := 4096, pos := 7, major := 12, w := [0#64, 5#64] : Cmd }.ctx = 0) ∧
     (grpL19.starts { id := 9, key := 4096, pos := 7, major := 12, w := [0#64, 5#64] : Cmd } = true) ∧
     (grpL19.startViolates { id := 9, key := 4096, pos := 7, major := 12, w := [0#64, 5#64] : Cmd } = none) ∧
     ({ id := 9, key := 4096, pos := 7, major := 12, w := [0#64, 5#64] : Cmd }.pos = 7) ∧
     (BitVec.toNat ({ id := 9, key := 4096, pos := 7, major := 12, w := [0#64, 5#64] : Cmd }.w.getD 0 0) = 0) ∧
     (0 < grpL19.cword 0 128) ∧
     (getD 0 grpL19.barSeen (barKey 0 0) = grpL19.gcyc + 1) ∧
     ({ id := 9, key := 4096, pos := 7, major := 12, w := [0#64, 5#64] : Cmd }.major = 12) ∧
     ({ id := 9, key := 4096, pos := 7, major := 12, w := [0#64, 5#64] : Cmd }.fn = 0) ∧
     (grpL19.barActive 0 0 = true)) ∧
    ((grpL22.cmd? 9 = some { id := 9, key := 4096, pos := 7, major := 12, fn := 1, w := [0#64, 0#64] : Cmd }) ∧
     ({ id := 9, key := 4096, pos := 7, major := 12, fn := 1, w := [0#64, 0#64] : Cmd }.ctx = 0) ∧
     (grpL22.starts { id := 9, key := 4096, pos := 7, major := 12, fn := 1, w := [0#64, 0#64] : Cmd } = true) ∧
     (grpL22.startViolates { id := 9, key := 4096, pos := 7, major := 12, fn := 1, w := [0#64, 0#64] : Cmd } = none) ∧
     ({ id := 9, key := 4096, pos := 7, major := 12, fn := 1, w := [0#64, 0#64] : Cmd }.pos = 7) ∧
     (BitVec.toNat ({ id := 9, key := 4096, pos := 7, major := 12, fn := 1, w := [0#64, 0#64] : Cmd }.w.getD 0 0) = 0) ∧
     (0 < grpL22.cword 0 128) ∧
     (getD 0 grpL22.barSeen (barKey 0 0) = grpL22.gcyc + 1) ∧
     ({ id := 9, key := 4096, pos := 7, major := 12, fn := 1, w := [0#64, 0#64] : Cmd }.major = 12) ∧
     ({ id := 9, key := 4096, pos := 7, major := 12, fn := 1, w := [0#64, 0#64] : Cmd }.fn ≠ 0) ∧
     (grpL22.barActive 0 0 = false)) ∧
    ((grpL23.cmd? 9 = some { id := 9, key := 4096, pos := 7, major := 12, w := [0#64, 5#64] : Cmd }) ∧
     ({ id := 9, key := 4096, pos := 7, major := 12, w := [0#64, 5#64] : Cmd }.ctx = 0) ∧
     (grpL23.starts { id := 9, key := 4096, pos := 7, major := 12, w := [0#64, 5#64] : Cmd } = true) ∧
     (grpL23.startViolates { id := 9, key := 4096, pos := 7, major := 12, w := [0#64, 5#64] : Cmd } = none) ∧
     ({ id := 9, key := 4096, pos := 7, major := 12, w := [0#64, 5#64] : Cmd }.pos = 7) ∧
     (BitVec.toNat ({ id := 9, key := 4096, pos := 7, major := 12, w := [0#64, 5#64] : Cmd }.w.getD 0 0) = 0) ∧
     (0 < grpL23.cword 0 128) ∧
     (getD 0 grpL23.barSeen (barKey 0 0) = grpL23.gcyc + 1) ∧
     ({ id := 9, key := 4096, pos := 7, major := 12, w := [0#64, 5#64] : Cmd }.major = 12) ∧
     ({ id := 9, key := 4096, pos := 7, major := 12, w := [0#64, 5#64] : Cmd }.fn = 0) ∧
     (grpL23.barActive 0 0 = false) ∧
     (grpL23.walk 0 false (grpL23.cword 0 120 + 64 * 0) = none)) :=
  by
  refine ⟨?_, ?_, ?_, ?_, ?_, ?_, ?_, ?_⟩ <;>
    decide +kernel

theorem witness_GroupAndBarrierSteps_2 :
    ((grpL27.cmd? 9 = some { id := 9, key := 4096, pos := 7, major := 12, w := [0#64, 5#64] : Cmd }) ∧
     ({ id := 9, key := 4096, pos := 7, major := 12, w := [0#64, 5#64] : Cmd }.ctx = 0) ∧
     (grpL27.starts { id := 9, key := 4096, pos := 7, major := 12, w := [0#64, 5#64] : Cmd } = true) ∧
     (grpL27.startViolates { id := 9, key := 4096, pos := 7, major := 12, w := [0#64, 5#64] : Cmd } = none) ∧
     ({ id := 9, key := 4096, pos := 7, major := 12, w := [0#64, 5#64] : Cmd }.pos = 7) ∧
     (BitVec.toNat ({ id := 9, key := 4096, pos := 7, major := 12, w := [0#64, 5#64] : Cmd }.w.getD 0 0) = 0) ∧
     (0 < grpL27.cword 0 128) ∧
     (getD 0 grpL27.barSeen (barKey 0 0) = grpL27.gcyc + 1) ∧
     ({ id := 9, key := 4096, pos := 7, major := 12, w := [0#64, 5#64] : Cmd }.major = 12) ∧
     ({ id := 9, key := 4096, pos := 7, major := 12, w := [0#64, 5#64] : Cmd }.fn = 0) ∧
     (grpL27.barActive 0 0 = false) ∧
     (grpL27.walk 0 false (grpL27.cword 0 120 + 64 * 0) = some { base := 0, size := 2097152, wr := false, cow := false, x := false, tens := none, lines := [64, 128, 192] : Leaf } ∧ ({ base := 0, size := 2097152, wr := false, cow := false, x := false, tens := none, lines := [64, 128, 192] : Leaf }.wr = false ∨ { base := 0, size := 2097152, wr := false, cow := false, x := false, tens := none, lines := [64, 128, 192] : Leaf }.cow = true ∨ { base := 0, size := 2097152, wr := false, cow := false, x := false, tens := none, lines := [64, 128, 192] : Leaf }.tens.isSome = true))) ∧
    ((grpL20.cmd? 9 = some { id := 9, key := 4096, pos := 7, major := 12, w := [0#64, 5#64] : Cmd }) ∧
     ({ id := 9, key := 4096, pos := 7, major := 12, w := [0#64, 5#64] : Cmd }.ctx = 0) ∧
     (grpL20.starts { id := 9, key := 4096, pos := 7, major := 12, w := [0#64, 5#64] : Cmd } = true) ∧
     (grpL20.startViolates { id := 9, key := 4096, pos := 7, major := 12, w := [0#64, 5#64] : Cmd } = none) ∧
     ({ id := 9, key := 4096, pos := 7, major := 12, w := [0#64, 5#64] : Cmd }.pos = 7) ∧
     (BitVec.toNat ({ id := 9, key := 4096, pos := 7, major := 12, w := [0#64, 5#64] : Cmd }.w.getD 0 0) = 0) ∧
     (0 < grpL20.cword 0 128) ∧
     (getD 0 grpL20.barSeen (barKey 0 0) = grpL20.gcyc + 1) ∧
     ({ id := 9, key := 4096, pos := 7, major := 12, w := [0#64, 5#64] : Cmd }.major = 12) ∧
     ({ id := 9, key := 4096, pos := 7, major := 12, w := [0#64, 5#64] : Cmd }.fn = 0) ∧
     (grpL20.barActive 0 0 = false) ∧
     ({ base := 0, size := 2097152, wr := true, cow := false, x := true, tens := none, lines := [64, 128, 192] : Leaf }.wr = true) ∧
     ({ base := 0, size := 2097152, wr := true, cow := false, x := true, tens := none, lines := [64, 128, 192] : Leaf }.cow = false) ∧
     ({ base := 0, size := 2097152, wr := true, cow := false, x := true, tens := none, lines := [64, 128, 192] : Leaf }.tens = none) ∧
     (grpL20.clean 9 = true) ∧
     (let u := grpL20.runCmd { id := 9, key := 4096, pos := 7, major := 12, w := [0#64, 5#64] : Cmd }; let pa := { base := 0, size := 2097152, wr := true, cow := false, x := true, tens := none, lines := [64, 128, 192] : Leaf }.base + (grpL20.cword 0 120 + 64 * 0) % { base := 0, size := 2097152, wr := true, cow := false, x := true, tens := none, lines := [64, 128, 192] : Leaf }.size; grpL20.walk 0 false (grpL20.cword 0 120 + 64 * 0) = some { base := 0, size := 2097152, wr := true, cow := false, x := true, tens := none, lines := [64, 128, 192] : Leaf } ∧ physClass pa = PhysClass.hbm ∧ pa % 64 = 0 ∧ u.calm (pa / 64) 0 = true)) ∧
    ((grpL21.cmd? 9 = some { id := 9, key := 4096, pos := 7, major := 12, fn := 1, w := [0#64, 0#64] : Cmd }) ∧
     ({ id := 9, key := 4096, pos := 7, major := 12, fn := 1, w := [0#64, 0#64] : Cmd }.ctx = 0) ∧
     (grpL21.starts { id := 9, key := 4096, pos := 7, major := 12, fn := 1, w := [0#64, 0#64] : Cmd } = true) ∧
     (grpL21.startViolates { id := 9, key := 4096, pos := 7, major := 12, fn := 1, w := [0#64, 0#64] : Cmd } = none) ∧
     ({ id := 9, key := 4096, pos := 7, major := 12, fn := 1, w := [0#64, 0#64] : Cmd }.pos = 7) ∧
     (BitVec.toNat ({ id := 9, key := 4096, pos := 7, major := 12, fn := 1, w := [0#64, 0#64] : Cmd }.w.getD 0 0) = 0) ∧
     (0 < grpL21.cword 0 128) ∧
     (getD 0 grpL21.barSeen (barKey 0 0) = grpL21.gcyc + 1) ∧
     ({ id := 9, key := 4096, pos := 7, major := 12, fn := 1, w := [0#64, 0#64] : Cmd }.major = 12) ∧
     ({ id := 9, key := 4096, pos := 7, major := 12, fn := 1, w := [0#64, 0#64] : Cmd }.fn ≠ 0) ∧
     (grpL21.barActive 0 0 = true) ∧
     (grpL21.clean 9 = true) ∧
     (let whole := ∀ (pa : ℕ), grpL21.barPa 0 0 = some pa → grpL21.violates false pa = false ∧ grpL21.calm (pa / 64) 0 = true; whole)) ∧
    ((List.find? (fun v => v.id == 5) grpL0.barUpds = some { id := 5, ctx := 0, bar := 0, arr := 2, expB := 0, cmd := some 9 : BarUpd }) ∧
     ({ id := 5, ctx := 0, bar := 0, arr := 2, expB := 0, cmd := some 9 : BarUpd }.ctx = 0) ∧
     ({ id := 5, ctx := 0, bar := 0, arr := 2, expB := 0, cmd := some 9 : BarUpd }.bar = 0) ∧
     ({ id := 5, ctx := 0, bar := 0, arr := 2, expB := 0, cmd := some 9 : BarUpd }.cmd = some 9) ∧
     (grpL0.clean 9 = true)) ∧
    ((List.find? (fun v => v.id == 5) grpL25.barUpds = some { id := 5, ctx := 0, bar := 0, arr := 2, expB := 0, cmd := some 9 : BarUpd }) ∧
     ({ id := 5, ctx := 0, bar := 0, arr := 2, expB := 0, cmd := some 9 : BarUpd }.ctx = 0) ∧
     ({ id := 5, ctx := 0, bar := 0, arr := 2, expB := 0, cmd := some 9 : BarUpd }.bar = 0) ∧
     (grpL25.barActive 0 0 = false) ∧
     ((grpL25.barPa 0 0).isSome = true) ∧
     (let whole := ∀ (pa : ℕ), grpL25.barPa 0 0 = some pa → grpL25.violates false pa = false ∧ grpL25.calm (pa / 64) 0 = true; whole ∧ grpL25.passes 0 (grpL25.cword 0 120 + 64 * 0) ((grpL25.barPa 0 0).getD 0 / 64) = false)) ∧
    ((List.find? (fun v => v.id == 5) grpL0.barUpds = some { id := 5, ctx := 0, bar := 0, arr := 2, expB := 0, cmd := some 9 : BarUpd }) ∧
     ({ id := 5, ctx := 0, bar := 0, arr := 2, expB := 0, cmd := some 9 : BarUpd }.ctx = 0) ∧
     ({ id := 5, ctx := 0, bar := 0, arr := 2, expB := 0, cmd := some 9 : BarUpd }.bar = 0) ∧
     (grpL0.barActive 0 0 = true) ∧
     (getD 0 grpL0.barSeen (barKey 0 0) = grpL0.gcyc + 1) ∧
     (let whole := ∀ (pa : ℕ), grpL0.barPa 0 0 = some pa → grpL0.violates false pa = false ∧ grpL0.calm (pa / 64) 0 = true; whole)) ∧
    ((getD 0 grpL2.barSeen (barKey 0 0) ≠ grpL2.gcyc + 1) ∧
     (let whole := ∀ (pa : ℕ), grpL2.barPa 0 0 = some pa → grpL2.violates false pa = false ∧ grpL2.calm (pa / 64) 0 = true; let w := grpL2.barWord 0 0 0; let target := w / 2 ^ 16 % 2 ^ 16; let full := grpL2.barActive 0 0 = true ∧ target ≤ grpL2.barWord 0 0 1 ∧ grpL2.barWord 0 0 2 = 0; full ∧ whole)) ∧
    ((getD 0 grpL0.barSeen (barKey 0 9) ≠ grpL0.gcyc + 1) ∧
     (let w := grpL0.barWord 0 9 0; let target := w / 2 ^ 16 % 2 ^ 16; let full := grpL0.barActive 0 9 = true ∧ target ≤ grpL0.barWord 0 9 1 ∧ grpL0.barWord 0 9 2 = 0; ¬full)) :=
  by
  refine ⟨?_, ?_, ?_, ?_, ?_, ?_, ?_, ?_⟩ <;>
    decide +kernel

theorem witness_GroupAndBarrierSteps_3 :
    ((grpL37.cmd? 9 = some { id := 9, key := 4096, pos := 7, major := 14, w := [9#64, 0#64] : Cmd }) ∧
     ({ id := 9, key := 4096, pos := 7, major := 14, w := [9#64, 0#64] : Cmd }.ctx = 0) ∧
     (grpL37.starts { id := 9, key := 4096, pos := 7, major := 14, w := [9#64, 0#64] : Cmd } = true) ∧
     (grpL37.startViolates { id := 9, key := 4096, pos := 7, major := 14, w := [9#64, 0#64] : Cmd } = none) ∧
     ({ id := 9, key := 4096, pos := 7, major := 14, w := [9#64, 0#64] : Cmd }.pos = 7) ∧
     (grpNum { id := 9, key := 4096, pos := 7, major := 14, w := [9#64, 0#64] : Cmd } = 9) ∧
     ({ id := 9, key := 4096, pos := 7, major := 14, w := [9#64, 0#64] : Cmd }.major = 14) ∧
     (grpL37.grpOk 0 9 = false)) ∧
    ((grpL35.cmd? 9 = some { id := 9, key := 4096, pos := 7, major := 14, w := [0#64, 0#64] : Cmd }) ∧
     ({ id := 9, key := 4096, pos := 7, major := 14, w := [0#64, 0#64] : Cmd }.ctx = 0) ∧
     (grpL35.starts { id := 9, key := 4096, pos := 7, major := 14, w := [0#64, 0#64] : Cmd } = true) ∧
     (grpL35.startViolates { id := 9, key := 4096, pos := 7, major := 14, w := [0#64, 0#64] : Cmd } = none) ∧
     ({ id := 9, key := 4096, pos := 7, major := 14, w := [0#64, 0#64] : Cmd }.pos = 7) ∧
     (grpNum { id := 9, key := 4096, pos := 7, major := 14, w := [0#64, 0#64] : Cmd } = 0) ∧
     ({ id := 9, key := 4096, pos := 7, major := 14, w := [0#64, 0#64] : Cmd }.major = 14) ∧
     (grpL35.grpOk 0 0 = true) ∧
     (grpL35.grpState 0 0 = 0 ∨ grpL35.grpState 0 0 = 4)) ∧
    ((grpL36.cmd? 9 = some { id := 9, key := 4096, pos := 7, major := 14, w := [0#64, 0#64] : Cmd }) ∧
     ({ id := 9, key := 4096, pos := 7, major := 14, w := [0#64, 0#64] : Cmd }.ctx = 0) ∧
     (grpL36.starts { id := 9, key := 4096, pos := 7, major := 14, w := [0#64, 0#64] : Cmd } = true) ∧
     (grpL36.startViolates { id := 9, key := 4096, pos := 7, major := 14, w := [0#64, 0#64] : Cmd } = none) ∧
     ({ id := 9, key := 4096, pos := 7, major := 14, w := [0#64, 0#64] : Cmd }.pos = 7) ∧
     (grpNum { id := 9, key := 4096, pos := 7, major := 14, w := [0#64, 0#64] : Cmd } = 0) ∧
     ({ id := 9, key := 4096, pos := 7, major := 14, w := [0#64, 0#64] : Cmd }.major = 14) ∧
     (grpL36.grpOk 0 0 = true) ∧
     (grpL36.grpState 0 0 ≠ 0) ∧
     (grpL36.grpState 0 0 ≠ 4)) ∧
    (({ id := 9, key := 4096, pos := 7, major := 13, w := [0#64, 0#64], caps := [{ va := 266248, pa := 266248, base := 262144, size := 65536, tens := none, line := 262144 : Cap }], aux := [1] : Cmd }.ctx = 0) ∧
     ({ id := 9, key := 4096, pos := 7, major := 13, w := [0#64, 0#64], caps := [{ va := 266248, pa := 266248, base := 262144, size := 65536, tens := none, line := 262144 : Cap }], aux := [1] : Cmd }.pos = 7) ∧
     ({ id := 9, key := 4096, pos := 7, major := 13, w := [0#64, 0#64], caps := [{ va := 266248, pa := 266248, base := 262144, size := 65536, tens := none, line := 262144 : Cap }], aux := [1] : Cmd }.major = 13) ∧
     (let cap := cap0 { id := 9, key := 4096, pos := 7, major := 13, w := [0#64, 0#64], caps := [{ va := 266248, pa := 266248, base := 262144, size := 65536, tens := none, line := 262144 : Cap }], aux := [1] : Cmd }; grpL30.cmd? 9 = some { id := 9, key := 4096, pos := 7, major := 13, w := [0#64, 0#64], caps := [{ va := 266248, pa := 266248, base := 262144, size := 65536, tens := none, line := 262144 : Cap }], aux := [1] : Cmd } ∧ grpL30.starts { id := 9, key := 4096, pos := 7, major := 13, w := [0#64, 0#64], caps := [{ va := 266248, pa := 266248, base := 262144, size := 65536, tens := none, line := 262144 : Cap }], aux := [1] : Cmd } = true ∧ grpL30.startViolates { id := 9, key := 4096, pos := 7, major := 13, w := [0#64, 0#64], caps := [{ va := 266248, pa := 266248, base := 262144, size := 65536, tens := none, line := 262144 : Cap }], aux := [1] : Cmd } = none ∧ grpNum { id := 9, key := 4096, pos := 7, major := 13, w := [0#64, 0#64], caps := [{ va := 266248, pa := 266248, base := 262144, size := 65536, tens := none, line := 262144 : Cap }], aux := [1] : Cmd } = 0 ∧ cap.pa % 64 ≠ 0)) ∧
    (({ id := 9, key := 4096, pos := 7, major := 13, w := [0#64, 0#64], caps := [{ va := 266240, pa := 266240, base := 262144, size := 65536, tens := none, line := 262144 : Cap }], aux := [0] : Cmd }.ctx = 0) ∧
     ({ id := 9, key := 4096, pos := 7, major := 13, w := [0#64, 0#64], caps := [{ va := 266240, pa := 266240, base := 262144, size := 65536, tens := none, line := 262144 : Cap }], aux := [0] : Cmd }.pos = 7) ∧
     ({ id := 9, key := 4096, pos := 7, major := 13, w := [0#64, 0#64], caps := [{ va := 266240, pa := 266240, base := 262144, size := 65536, tens := none, line := 262144 : Cap }], aux := [0] : Cmd }.major = 13) ∧
     (let u := grpL29.runCmd { id := 9, key := 4096, pos := 7, major := 13, w := [0#64, 0#64], caps := [{ va := 266240, pa := 266240, base := 262144, size := 65536, tens := none, line := 262144 : Cap }], aux := [0] : Cmd }; let cap := cap0 { id := 9, key := 4096, pos := 7, major := 13, w := [0#64, 0#64], caps := [{ va := 266240, pa := 266240, base := 262144, size := 65536, tens := none, line := 262144 : Cap }], aux := [0] : Cmd }; let e := u.engineRead { id := 9, key := 4096, pos := 7, major := 13, w := [0#64, 0#64], caps := [{ va := 266240, pa := 266240, base := 262144, size := 65536, tens := none, line := 262144 : Cap }], aux := [0] : Cmd } cap 64; let w := fun i => ofBytes (List.take 8 (List.drop (8 * i) e.1)); let nn := w 0 % 2 ^ 14; let room := (cap.base + cap.size - cap.pa - 64) / 8; let f := e.2.2.engineRead { id := 9, key := 4096, pos := 7, major := 13, w := [0#64, 0#64], caps := [{ va := 266240, pa := 266240, base := 262144, size := 65536, tens := none, line := 262144 : Cap }], aux := [0] : Cmd } { va := cap.va + 64, pa := cap.pa + 64, base := cap.base, size := cap.size, tens := cap.tens, line := cap.line : Cap } (8 * Min.min nn room); let v := f.2.2; let busy := v.grpOk 0 0 = true ∧ (v.grpState 0 0 ≠ 0 ∨ { id := 9, key := 4096, pos := 7, major := 13, w := [0#64, 0#64], caps := [{ va := 266240, pa := 266240, base := 262144, size := 65536, tens := none, line := 262144 : Cap }], aux := [0] : Cmd }.aux.getD 0 0 = 0); grpL29.cmd? 9 = some { id := 9, key := 4096, pos := 7, major := 13, w := [0#64, 0#64], caps := [{ va := 266240, pa := 266240, base := 262144, size := 65536, tens := none, line := 262144 : Cap }], aux := [0] : Cmd } ∧ grpL29.starts { id := 9, key := 4096, pos := 7, major := 13, w := [0#64, 0#64], caps := [{ va := 266240, pa := 266240, base := 262144, size := 65536, tens := none, line := 262144 : Cap }], aux := [0] : Cmd } = true ∧ grpL29.startViolates { id := 9, key := 4096, pos := 7, major := 13, w := [0#64, 0#64], caps := [{ va := 266240, pa := 266240, base := 262144, size := 65536, tens := none, line := 262144 : Cap }], aux := [0] : Cmd } = none ∧ grpNum { id := 9, key := 4096, pos := 7, major := 13, w := [0#64, 0#64], caps := [{ va := 266240, pa := 266240, base := 262144, size := 65536, tens := none, line := 262144 : Cap }], aux := [0] : Cmd } = 0 ∧ cap.pa % 64 = 0 ∧ grpL29.violates (grpL29.firmware { id := 9, key := 4096, pos := 7, major := 13, w := [0#64, 0#64], caps := [{ va := 266240, pa := 266240, base := 262144, size := 65536, tens := none, line := 262144 : Cap }], aux := [0] : Cmd }.key) cap.pa = false ∧ busy)) ∧
    (({ id := 9, key := 4096, pos := 7, major := 13, w := [0#64, 0#64], caps := [{ va := 266240, pa := 266240, base := 262144, size := 65536, tens := none, line := 262144 : Cap }], aux := [1] : Cmd }.ctx = 0) ∧
     ({ id := 9, key := 4096, pos := 7, major := 13, w := [0#64, 0#64], caps := [{ va := 266240, pa := 266240, base := 262144, size := 65536, tens := none, line := 262144 : Cap }], aux := [1] : Cmd }.pos = 7) ∧
     ({ id := 9, key := 4096, pos := 7, major := 13, w := [0#64, 0#64], caps := [{ va := 266240, pa := 266240, base := 262144, size := 65536, tens := none, line := 262144 : Cap }], aux := [1] : Cmd }.major = 13) ∧
     (let u := grpL32.runCmd { id := 9, key := 4096, pos := 7, major := 13, w := [0#64, 0#64], caps := [{ va := 266240, pa := 266240, base := 262144, size := 65536, tens := none, line := 262144 : Cap }], aux := [1] : Cmd }; let cap := cap0 { id := 9, key := 4096, pos := 7, major := 13, w := [0#64, 0#64], caps := [{ va := 266240, pa := 266240, base := 262144, size := 65536, tens := none, line := 262144 : Cap }], aux := [1] : Cmd }; let e := u.engineRead { id := 9, key := 4096, pos := 7, major := 13, w := [0#64, 0#64], caps := [{ va := 266240, pa := 266240, base := 262144, size := 65536, tens := none, line := 262144 : Cap }], aux := [1] : Cmd } cap 64; let w := fun i => ofBytes (List.take 8 (List.drop (8 * i) e.1)); let nn := w 0 % 2 ^ 14; let room := (cap.base + cap.size - cap.pa - 64) / 8; let f := e.2.2.engineRead { id := 9, key := 4096, pos := 7, major := 13, w := [0#64, 0#64], caps := [{ va := 266240, pa := 266240, base := 262144, size := 65536, tens := none, line := 262144 : Cap }], aux := [1] : Cmd } { va := cap.va + 64, pa := cap.pa + 64, base := cap.base, size := cap.size, tens := cap.tens, line := cap.line : Cap } (8 * Min.min nn room); let v := f.2.2; let ids := List.map (fun i => ofBytes (List.take 8 (List.drop (8 * i) f.1))) (List.range (Min.min nn room)); let busy := v.grpOk 0 0 = true ∧ (v.grpState 0 0 ≠ 0 ∨ { id := 9, key := 4096, pos := 7, major := 13, w := [0#64, 0#64], caps := [{ va := 266240, pa := 266240, base := 262144, size := 65536, tens := none, line := 262144 : Cap }], aux := [1] : Cmd }.aux.getD 0 0 = 0); let bad := nn < 2 ∨ 8192 < nn ∨ w 0 / 2 ^ 14 % 4 ≠ 0 ∨ w 0 / 2 ^ 17 % 8 ≠ 0 ∨ 2 ^ 24 ≤ w 0 ∨ (∃ i < 8, 0 < i ∧ w i ≠ 0) ∨ (∃ x ∈ ids, 2 ^ 14 ≤ x) ∨ ¬ids.Nodup ∨ nn ≤ room ∧ v.fab.fabid ∉ ids; grpL32.cmd? 9 = some { id := 9, key := 4096, pos := 7, major := 13, w := [0#64, 0#64], caps := [{ va := 266240, pa := 266240, base := 262144, size := 65536, tens := none, line := 262144 : Cap }], aux := [1] : Cmd } ∧ grpL32.starts { id := 9, key := 4096, pos := 7, major := 13, w := [0#64, 0#64], caps := [{ va := 266240, pa := 266240, base := 262144, size := 65536, tens := none, line := 262144 : Cap }], aux := [1] : Cmd } = true ∧ grpL32.startViolates { id := 9, key := 4096, pos := 7, major := 13, w := [0#64, 0#64], caps := [{ va := 266240, pa := 266240, base := 262144, size := 65536, tens := none, line := 262144 : Cap }], aux := [1] : Cmd } = none ∧ grpNum { id := 9, key := 4096, pos := 7, major := 13, w := [0#64, 0#64], caps := [{ va := 266240, pa := 266240, base := 262144, size := 65536, tens := none, line := 262144 : Cap }], aux := [1] : Cmd } = 0 ∧ cap.pa % 64 = 0 ∧ grpL32.violates (grpL32.firmware { id := 9, key := 4096, pos := 7, major := 13, w := [0#64, 0#64], caps := [{ va := 266240, pa := 266240, base := 262144, size := 65536, tens := none, line := 262144 : Cap }], aux := [1] : Cmd }.key) cap.pa = false ∧ ¬busy ∧ bad)) ∧
    (({ id := 9, key := 4096, pos := 7, major := 13, w := [0#64, 0#64], caps := [{ va := 266240, pa := 266240, base := 262144, size := 65536, tens := none, line := 262144 : Cap }], aux := [1] : Cmd }.ctx = 0) ∧
     ({ id := 9, key := 4096, pos := 7, major := 13, w := [0#64, 0#64], caps := [{ va := 266240, pa := 266240, base := 262144, size := 65536, tens := none, line := 262144 : Cap }], aux := [1] : Cmd }.pos = 7) ∧
     ({ id := 9, key := 4096, pos := 7, major := 13, w := [0#64, 0#64], caps := [{ va := 266240, pa := 266240, base := 262144, size := 65536, tens := none, line := 262144 : Cap }], aux := [1] : Cmd }.major = 13) ∧
     (let u := grpL33.runCmd { id := 9, key := 4096, pos := 7, major := 13, w := [0#64, 0#64], caps := [{ va := 266240, pa := 266240, base := 262144, size := 65536, tens := none, line := 262144 : Cap }], aux := [1] : Cmd }; let cap := cap0 { id := 9, key := 4096, pos := 7, major := 13, w := [0#64, 0#64], caps := [{ va := 266240, pa := 266240, base := 262144, size := 65536, tens := none, line := 262144 : Cap }], aux := [1] : Cmd }; let e := u.engineRead { id := 9, key := 4096, pos := 7, major := 13, w := [0#64, 0#64], caps := [{ va := 266240, pa := 266240, base := 262144, size := 65536, tens := none, line := 262144 : Cap }], aux := [1] : Cmd } cap 64; let w := fun i => ofBytes (List.take 8 (List.drop (8 * i) e.1)); let nn := w 0 % 2 ^ 14; let room := (cap.base + cap.size - cap.pa - 64) / 8; let f := e.2.2.engineRead { id := 9, key := 4096, pos := 7, major := 13, w := [0#64, 0#64], caps := [{ va := 266240, pa := 266240, base := 262144, size := 65536, tens := none, line := 262144 : Cap }], aux := [1] : Cmd } { va := cap.va + 64, pa := cap.pa + 64, base := cap.base, size := cap.size, tens := cap.tens, line := cap.line : Cap } (8 * Min.min nn room); let v := f.2.2; let ids := List.map (fun i => ofBytes (List.take 8 (List.drop (8 * i) f.1))) (List.range (Min.min nn room)); let gen := w 0 / 2 ^ 20 % 2 ^ 4; let busy := v.grpOk 0 0 = true ∧ (v.grpState 0 0 ≠ 0 ∨ { id := 9, key := 4096, pos := 7, major := 13, w := [0#64, 0#64], caps := [{ va := 266240, pa := 266240, base := 262144, size := 65536, tens := none, line := 262144 : Cap }], aux := [1] : Cmd }.aux.getD 0 0 = 0); let bad := nn < 2 ∨ 8192 < nn ∨ w 0 / 2 ^ 14 % 4 ≠ 0 ∨ w 0 / 2 ^ 17 % 8 ≠ 0 ∨ 2 ^ 24 ≤ w 0 ∨ (∃ i < 8, 0 < i ∧ w i ≠ 0) ∨ (∃ x ∈ ids, 2 ^ 14 ≤ x) ∨ ¬ids.Nodup ∨ nn ≤ room ∧ v.fab.fabid ∉ ids; let old := v.grpOk 0 0 = true ∧ v.grpUsed 0 0 = true ∧ v.grpGen 0 0 = gen; grpL33.cmd? 9 = some { id := 9, key := 4096, pos := 7, major := 13, w := [0#64, 0#64], caps := [{ va := 266240, pa := 266240, base := 262144, size := 65536, tens := none, line := 262144 : Cap }], aux := [1] : Cmd } ∧ grpL33.starts { id := 9, key := 4096, pos := 7, major := 13, w := [0#64, 0#64], caps := [{ va := 266240, pa := 266240, base := 262144, size := 65536, tens := none, line := 262144 : Cap }], aux := [1] : Cmd } = true ∧ grpL33.startViolates { id := 9, key := 4096, pos := 7, major := 13, w := [0#64, 0#64], caps := [{ va := 266240, pa := 266240, base := 262144, size := 65536, tens := none, line := 262144 : Cap }], aux := [1] : Cmd } = none ∧ grpNum { id := 9, key := 4096, pos := 7, major := 13, w := [0#64, 0#64], caps := [{ va := 266240, pa := 266240, base := 262144, size := 65536, tens := none, line := 262144 : Cap }], aux := [1] : Cmd } = 0 ∧ cap.pa % 64 = 0 ∧ grpL33.violates (grpL33.firmware { id := 9, key := 4096, pos := 7, major := 13, w := [0#64, 0#64], caps := [{ va := 266240, pa := 266240, base := 262144, size := 65536, tens := none, line := 262144 : Cap }], aux := [1] : Cmd }.key) cap.pa = false ∧ ¬busy ∧ ¬bad ∧ old)) ∧
    (({ id := 9, key := 4096, pos := 7, major := 13, w := [9#64, 0#64], caps := [{ va := 266240, pa := 266240, base := 262144, size := 65536, tens := none, line := 262144 : Cap }], aux := [1] : Cmd }.ctx = 0) ∧
     ({ id := 9, key := 4096, pos := 7, major := 13, w := [9#64, 0#64], caps := [{ va := 266240, pa := 266240, base := 262144, size := 65536, tens := none, line := 262144 : Cap }], aux := [1] : Cmd }.pos = 7) ∧
     ({ id := 9, key := 4096, pos := 7, major := 13, w := [9#64, 0#64], caps := [{ va := 266240, pa := 266240, base := 262144, size := 65536, tens := none, line := 262144 : Cap }], aux := [1] : Cmd }.major = 13) ∧
     (let u := grpL31.runCmd { id := 9, key := 4096, pos := 7, major := 13, w := [9#64, 0#64], caps := [{ va := 266240, pa := 266240, base := 262144, size := 65536, tens := none, line := 262144 : Cap }], aux := [1] : Cmd }; let cap := cap0 { id := 9, key := 4096, pos := 7, major := 13, w := [9#64, 0#64], caps := [{ va := 266240, pa := 266240, base := 262144, size := 65536, tens := none, line := 262144 : Cap }], aux := [1] : Cmd }; let e := u.engineRead { id := 9, key := 4096, pos := 7, major := 13, w := [9#64, 0#64], caps := [{ va := 266240, pa := 266240, base := 262144, size := 65536, tens := none, line := 262144 : Cap }], aux := [1] : Cmd } cap 64; let w := fun i => ofBytes (List.take 8 (List.drop (8 * i) e.1)); let nn := w 0 % 2 ^ 14; let room := (cap.base + cap.size - cap.pa - 64) / 8; let f := e.2.2.engineRead { id := 9, key := 4096, pos := 7, major := 13, w := [9#64, 0#64], caps := [{ va := 266240, pa := 266240, base := 262144, size := 65536, tens := none, line := 262144 : Cap }], aux := [1] : Cmd } { va := cap.va + 64, pa := cap.pa + 64, base := cap.base, size := cap.size, tens := cap.tens, line := cap.line : Cap } (8 * Min.min nn room); let v := f.2.2; let ids := List.map (fun i => ofBytes (List.take 8 (List.drop (8 * i) f.1))) (List.range (Min.min nn room)); let gen := w 0 / 2 ^ 20 % 2 ^ 4; let busy := v.grpOk 0 9 = true ∧ (v.grpState 0 9 ≠ 0 ∨ { id := 9, key := 4096, pos := 7, major := 13, w := [9#64, 0#64], caps := [{ va := 266240, pa := 266240, base := 262144, size := 65536, tens := none, line := 262144 : Cap }], aux := [1] : Cmd }.aux.getD 0 0 = 0); let bad := nn < 2 ∨ 8192 < nn ∨ w 0 / 2 ^ 14 % 4 ≠ 0 ∨ w 0 / 2 ^ 17 % 8 ≠ 0 ∨ 2 ^ 24 ≤ w 0 ∨ (∃ i < 8, 0 < i ∧ w i ≠ 0) ∨ (∃ x ∈ ids, 2 ^ 14 ≤ x) ∨ ¬ids.Nodup ∨ nn ≤ room ∧ v.fab.fabid ∉ ids; let old := v.grpOk 0 9 = true ∧ v.grpUsed 0 9 = true ∧ v.grpGen 0 9 = gen; grpL31.cmd? 9 = some { id := 9, key := 4096, pos := 7, major := 13, w := [9#64, 0#64], caps := [{ va := 266240, pa := 266240, base := 262144, size := 65536, tens := none, line := 262144 : Cap }], aux := [1] : Cmd } ∧ grpL31.starts { id := 9, key := 4096, pos := 7, major := 13, w := [9#64, 0#64], caps := [{ va := 266240, pa := 266240, base := 262144, size := 65536, tens := none, line := 262144 : Cap }], aux := [1] : Cmd } = true ∧ grpL31.startViolates { id := 9, key := 4096, pos := 7, major := 13, w := [9#64, 0#64], caps := [{ va := 266240, pa := 266240, base := 262144, size := 65536, tens := none, line := 262144 : Cap }], aux := [1] : Cmd } = none ∧ grpNum { id := 9, key := 4096, pos := 7, major := 13, w := [9#64, 0#64], caps := [{ va := 266240, pa := 266240, base := 262144, size := 65536, tens := none, line := 262144 : Cap }], aux := [1] : Cmd } = 9 ∧ cap.pa % 64 = 0 ∧ grpL31.violates (grpL31.firmware { id := 9, key := 4096, pos := 7, major := 13, w := [9#64, 0#64], caps := [{ va := 266240, pa := 266240, base := 262144, size := 65536, tens := none, line := 262144 : Cap }], aux := [1] : Cmd }.key) cap.pa = false ∧ ¬busy ∧ ¬bad ∧ ¬old ∧ (v.grpOk 0 9 = false ∨ room < nn))) :=
  by
  refine ⟨?_, ?_, ?_, ?_, ?_, ?_, ?_, ?_⟩ <;>
    decide +kernel

theorem witness_GroupAndBarrierSteps_4 :
    (({ id := 9, key := 4096, pos := 7, major := 13, w := [0#64, 0#64], caps := [{ va := 266240, pa := 266240, base := 262144, size := 65536, tens := none, line := 262144 : Cap }], aux := [1] : Cmd }.ctx = 0) ∧
     ({ id := 9, key := 4096, pos := 7, major := 13, w := [0#64, 0#64], caps := [{ va := 266240, pa := 266240, base := 262144, size := 65536, tens := none, line := 262144 : Cap }], aux := [1] : Cmd }.pos = 7) ∧
     ({ id := 9, key := 4096, pos := 7, major := 13, w := [0#64, 0#64], caps := [{ va := 266240, pa := 266240, base := 262144, size := 65536, tens := none, line := 262144 : Cap }], aux := [1] : Cmd }.major = 13) ∧
     (let u := grpL28.runCmd { id := 9, key := 4096, pos := 7, major := 13, w := [0#64, 0#64], caps := [{ va := 266240, pa := 266240, base := 262144, size := 65536, tens := none, line := 262144 : Cap }], aux := [1] : Cmd }; let cap := cap0 { id := 9, key := 4096, pos := 7, major := 13, w := [0#64, 0#64], caps := [{ va := 266240, pa := 266240, base := 262144, size := 65536, tens := none, line := 262144 : Cap }], aux := [1] : Cmd }; let e := u.engineRead { id := 9, key := 4096, pos := 7, major := 13, w := [0#64, 0#64], caps := [{ va := 266240, pa := 266240, base := 262144, size := 65536, tens := none, line := 262144 : Cap }], aux := [1] : Cmd } cap 64; let w := fun i => ofBytes (List.take 8 (List.drop (8 * i) e.1)); let nn := w 0 % 2 ^ 14; let room := (cap.base + cap.size - cap.pa - 64) / 8; let f := e.2.2.engineRead { id := 9, key := 4096, pos := 7, major := 13, w := [0#64, 0#64], caps := [{ va := 266240, pa := 266240, base := 262144, size := 65536, tens := none, line := 262144 : Cap }], aux := [1] : Cmd } { va := cap.va + 64, pa := cap.pa + 64, base := cap.base, size := cap.size, tens := cap.tens, line := cap.line : Cap } (8 * Min.min nn room); let v := f.2.2; let ids := List.map (fun i => ofBytes (List.take 8 (List.drop (8 * i) f.1))) (List.range (Min.min nn room)); let gen := w 0 / 2 ^ 20 % 2 ^ 4; let busy := v.grpOk 0 0 = true ∧ (v.grpState 0 0 ≠ 0 ∨ { id := 9, key := 4096, pos := 7, major := 13, w := [0#64, 0#64], caps := [{ va := 266240, pa := 266240, base := 262144, size := 65536, tens := none, line := 262144 : Cap }], aux := [1] : Cmd }.aux.getD 0 0 = 0); let bad := nn < 2 ∨ 8192 < nn ∨ w 0 / 2 ^ 14 % 4 ≠ 0 ∨ w 0 / 2 ^ 17 % 8 ≠ 0 ∨ 2 ^ 24 ≤ w 0 ∨ (∃ i < 8, 0 < i ∧ w i ≠ 0) ∨ (∃ x ∈ ids, 2 ^ 14 ≤ x) ∨ ¬ids.Nodup ∨ nn ≤ room ∧ v.fab.fabid ∉ ids; let old := v.grpOk 0 0 = true ∧ v.grpUsed 0 0 = true ∧ v.grpGen 0 0 = gen; grpL28.cmd? 9 = some { id := 9, key := 4096, pos := 7, major := 13, w := [0#64, 0#64], caps := [{ va := 266240, pa := 266240, base := 262144, size := 65536, tens := none, line := 262144 : Cap }], aux := [1] : Cmd } ∧ grpL28.starts { id := 9, key := 4096, pos := 7, major := 13, w := [0#64, 0#64], caps := [{ va := 266240, pa := 266240, base := 262144, size := 65536, tens := none, line := 262144 : Cap }], aux := [1] : Cmd } = true ∧ grpL28.startViolates { id := 9, key := 4096, pos := 7, major := 13, w := [0#64, 0#64], caps := [{ va := 266240, pa := 266240, base := 262144, size := 65536, tens := none, line := 262144 : Cap }], aux := [1] : Cmd } = none ∧ grpNum { id := 9, key := 4096, pos := 7, major := 13, w := [0#64, 0#64], caps := [{ va := 266240, pa := 266240, base := 262144, size := 65536, tens := none, line := 262144 : Cap }], aux := [1] : Cmd } = 0 ∧ cap.pa % 64 = 0 ∧ grpL28.violates (grpL28.firmware { id := 9, key := 4096, pos := 7, major := 13, w := [0#64, 0#64], caps := [{ va := 266240, pa := 266240, base := 262144, size := 65536, tens := none, line := 262144 : Cap }], aux := [1] : Cmd }.key) cap.pa = false ∧ ¬busy ∧ ¬bad ∧ ¬old ∧ v.grpOk 0 0 = true ∧ nn ≤ room)) ∧
    ((grpL9.grpOk 0 0 = true) ∧
     (grpL9.grpState 0 0 = 1) ∧
     ((grpL9.ctx 0).st ≠ CtxSt.free) ∧
     (let same := joinL1.gen = grpL9.grpGen 0 0 ∧ joinL1.n = grpL9.grpN 0 0 ∧ joinL1.digest = (grpL9.grp 0 0).digest; (5, PktBody.join (grpL9.ctx 0).tenant 0 joinL1) ∈ grpL9.fab.delivered ∧ same ∧ ∃ r ∈ grpL9.grpOthers 0 0, r ≠ joinL1.member ∧ r ∉ (grpL9.grp 0 0).joined)) ∧
    ((grpL8.grpOk 0 0 = true) ∧
     (grpL8.grpState 0 0 = 1) ∧
     ((grpL8.ctx 0).st ≠ CtxSt.free) ∧
     ((grpL8.grp 0 0).grpc = some 9) ∧
     (let same := joinL0.gen = grpL8.grpGen 0 0 ∧ joinL0.n = grpL8.grpN 0 0 ∧ joinL0.digest = (grpL8.grp 0 0).digest; (5, PktBody.join (grpL8.ctx 0).tenant 0 joinL0) ∈ grpL8.fab.delivered ∧ same ∧ ∀ r ∈ grpL8.grpOthers 0 0, r = joinL0.member ∨ r ∈ (grpL8.grp 0 0).joined)) ∧
    ((grpL10.grpOk 0 0 = true) ∧
     (grpL10.grpState 0 0 = 1) ∧
     ((grpL10.ctx 0).st ≠ CtxSt.free) ∧
     (let same := joinL2.gen = grpL10.grpGen 0 0 ∧ joinL2.n = grpL10.grpN 0 0 ∧ joinL2.digest = (grpL10.grp 0 0).digest; (5, PktBody.join (grpL10.ctx 0).tenant 0 joinL2) ∈ grpL10.fab.delivered ∧ ¬same)) ∧
    ((grpL7.grpOk 0 0 = true) ∧
     (grpL7.grpState 0 0 = 1 ∨ grpL7.grpState 0 0 = 2) ∧
     (1 < grpL7.grpN 0 0) ∧
     (1 ≠ grpL7.grpRank 0 0) ∧
     ((grpL7.ctx 0).st ≠ CtxSt.free) ∧
     ((grpL7.grp 0 0).members.getD 1 16384 ∈ grpL7.fab.unrch)) ∧
    ((∀ (x g : ℕ), (x, PktBody.leave (grpL12.ctx 0).tenant 0 g 1) ∈ grpL12.fab.delivered → g = 1) ∧
     ((5, PktBody.leave (grpL12.ctx 0).tenant 0 1 1) ∈ grpL12.fab.delivered) ∧
     ((grpL12.ctx 0).st ≠ CtxSt.free) ∧
     (grpL12.grpOk 0 0 = true) ∧
     (grpL12.grpState 0 0 = 2) ∧
     (1 = grpL12.grpGen 0 0) ∧
     ((grpL12.grp 0 0).failing = none)) ∧
    ((grpL6.grpOk 0 0 = true) ∧
     (grpL6.grpState 0 0 = 4) ∧
     (grpL6.gcyc < grpL6.grpW 0 0 2)) ∧
    ((grpL5.grpOk 0 0 = true) ∧
     (grpL5.grpState 0 0 = 4) ∧
     (grpL5.grpW 0 0 2 ≤ grpL5.gcyc) ∧
     (grpL5.vpa 0 (grpL5.grpVa 0 0) = some 57344) ∧
     (grpL5.violates false 57344 = false) ∧
     (grpL5.calm (57344 / 64) 0 = true)) :=
  by
  refine ⟨?_, ?_, ?_, ?_, ?_, ⟨by
     intro x g h; rw [show grpL12.fab.delivered = [(5, .leave 0 0 1 1)] from by decide +kernel] at h; simp at h; simp [h], by decide +kernel⟩, ?_, ?_⟩ <;>
    decide +kernel

def ctxS (f : Ctx → Ctx) (g : State → State := id) : State := g { lab 0 [] with ctxs := [(0, f labCtx)], nextId := 30, gcyc := 100 }
def emptied (s : State) : State := { s with thr := s.thr.map fun e => (e.1, { e.2 with task := none, mode := .idle }) }
def faulty : Machine.Rec := { id := 5, src := 0, ctx := 0, fw := true, kind := 1, srcCode := 0, idField := 0, parks := some 0, cmd := some 9 }
def queueS (tail head : Nat) (r : Machine.Rec) : State := ctxS id fun s => { s with recs := [r], cmds := [{ id := 9, st := .errWait }], sys := { s.sys with fwqbase := 0x48000, fwqcnt := 4 }, mem := wr s.mem [(0x48000, tail), (0x48008, head), (0x48010, 3)] }
def descS (l : List (Nat × Nat)) : State :=
  { lab 0 [] with ctxs := [(0, labCtx), (3, { cdesc := 0x48000 })], tenants := [{ slot := 0, reg := 0x10000, secret := [] }]
                  mem := wr labMem ((0x10000, 0x2001) :: (labCtx.desc ++ l).map fun e => (0x48000 + e.1, e.2)) }
def queueC (f : Ctx → Ctx) (m : List (Nat × Nat)) : State := ctxS f fun s => { s with recs := [{ faulty with fw := false }], cmds := [{ id := 9, st := .errWait }], mem := wr s.mem m }
def topQ : Ctx := { labCtx with desc := labCtx.desc.map fun e => if e.1 = 0x30 then (0x30, 0x1FF000) else e }
def others4 : List (Nat × Ctx) := (List.range 4).map fun i => (i + 1, { labCtx with allot := [], slot := some i })
def ctxL0 : State := ctxS id
def ctxL1 : State := ctxS fun x => { x with busy := true }
def ctxL2 : State := ctxS fun x => { x with st := .resident, slot := none }
def ctxL3 : State := emptied (ctxS fun x => { x with st := .saving })
def ctxL4 : State := emptied (ctxS fun x => { x with st := .resident, slot := none, busy := true, destroying := true })
def ctxL5 : State := (ctxS id).modTh 0 fun t => { t with mode := .saving, savedMode := .running }
def ctxL6 : State := queueS 5 4 faulty
def ctxL7 : State := queueS 8 4 faulty
def ctxL8 : State := queueS 8 4 { faulty with counted := true }
def ctxL9 : State := descS [(8, 0x10000), (0x18, 0x10000), (0x60, 0x20000), (0x68, 0x3000), (0x100, 0x30)]
def ctxL10 : State := descS [(8, 0x10000), (0x18, 0x10000), (0x60, 0x20000), (0x68, 0x3000), (0x100, 0x31)]
def ctxL12 : State := queueC id [(0x9000, 5), (0x9008, 4)]
def ctxL13 : State := queueC (fun _ => topQ) [(0x1FF000, 31), (0x1FF008, 4)]
def ctxL14 : State := queueC (fun x => { x with desc := x.desc.map fun e => if e.1 = 0x30 then (0x30, 0x81000000) else e }) []
def ctxL15 : State := { lab 0 [] with ctxs := (0, { labCtx with st := .resident, slot := none }) :: others4 }

/-- Context 3 with the descriptor it names read (12 R341). -/
def created (s : State) : State := s.modCtx 3 fun y => { y with desc := (s.readDesc (fld (s.ctx 3).cdesc 49 10 * 1024)).filter fun e => e.2 != 0 }

theorem witness_ContextSteps :
    ((ctxL1.awake) ∧
     ((ctxL1.ctx 0).busy = true ∨ ctxL1.sys.recovery = true)) ∧
    ((ctxL0.awake) ∧
     ((ctxL0.ctx 0).busy = false) ∧
     (ctxL0.sys.recovery = false) ∧
     ((ctxL0.ctx 0).st ≠ CtxSt.free)) ∧
    ((ctxL0.awake) ∧
     ((ctxL0.ctx 3).busy = false) ∧
     (ctxL0.sys.recovery = false) ∧
     ((ctxL0.ctx 3).st = CtxSt.free) ∧
     (let x := ctxL0.ctx 3; let d := fld x.cdesc 49 10 * 1024; let s1 := ctxL0.modCtx 3 fun y => { st := y.st, cdesc := y.cdesc, die := y.die, rdie := y.rdie, err := y.err, busy := y.busy, destroying := y.destroying, desc := List.filter (fun e => e.2 != 0) (ctxL0.readDesc d), allot := y.allot, slot := y.slot, lastSlot := y.lastSlot, semPages := y.semPages, poolPages := y.poolPages, poolBase := y.poolBase, poolSize := y.poolSize, tmode := y.tmode, subcnt := y.subcnt, retlo := y.retlo, cdbg := y.cdbg, trbase := y.trbase : Ctx }; s1.descValid 3 d = false ∨ s1.boundPages 3 (s1.cword 3 168) 16384 = none)) ∧
    ((ctxL10.awake) ∧
     ((ctxL10.ctx 3).busy = false) ∧
     (ctxL10.sys.recovery = false) ∧
     ((ctxL10.ctx 3).st = CtxSt.free) ∧
     (let x := ctxL10.ctx 3; let d := fld x.cdesc 49 10 * 1024; let s1 := ctxL10.modCtx 3 fun y => { st := y.st, cdesc := y.cdesc, die := y.die, rdie := y.rdie, err := y.err, busy := y.busy, destroying := y.destroying, desc := List.filter (fun e => e.2 != 0) (ctxL10.readDesc d), allot := y.allot, slot := y.slot, lastSlot := y.lastSlot, semPages := y.semPages, poolPages := y.poolPages, poolBase := y.poolBase, poolSize := y.poolSize, tmode := y.tmode, subcnt := y.subcnt, retlo := y.retlo, cdbg := y.cdbg, trbase := y.trbase : Ctx }; s1.descValid 3 d = true ∧ s1.boundPages 3 (s1.cword 3 168) 16384 = some [17, 18, 19, 20] ∧ (if s1.cword 3 104 = 0 then some [] else s1.boundPages 3 (s1.cword 3 96) (s1.cword 3 104)) = some [32, 33, 34] ∧ ∃ e ∈ ctxL10.ctxs, e.1 ≠ 3 ∧ e.2.st ≠ CtxSt.free ∧ ∃ q ∈ e.2.allot, q ∈ ctxL10.readAllot d)) ∧
    ((ctxL9.awake) ∧
     ((ctxL9.ctx 3).busy = false) ∧
     (ctxL9.sys.recovery = false) ∧
     ((ctxL9.ctx 3).st = CtxSt.free) ∧
     (let x := ctxL9.ctx 3; let d := fld x.cdesc 49 10 * 1024; let s1 := ctxL9.modCtx 3 fun y => { st := y.st, cdesc := y.cdesc, die := y.die, rdie := y.rdie, err := y.err, busy := y.busy, destroying := y.destroying, desc := List.filter (fun e => e.2 != 0) (ctxL9.readDesc d), allot := y.allot, slot := y.slot, lastSlot := y.lastSlot, semPages := y.semPages, poolPages := y.poolPages, poolBase := y.poolBase, poolSize := y.poolSize, tmode := y.tmode, subcnt := y.subcnt, retlo := y.retlo, cdbg := y.cdbg, trbase := y.trbase : Ctx }; s1.descValid 3 d = true ∧ s1.boundPages 3 (s1.cword 3 168) 16384 = some [17, 18, 19, 20] ∧ (if s1.cword 3 104 = 0 then some [] else s1.boundPages 3 (s1.cword 3 96) (s1.cword 3 104)) = some [32, 33, 34] ∧ ∀ e ∈ ctxL9.ctxs, e.1 ≠ 3 → e.2.st ≠ CtxSt.free → ∀ q ∈ e.2.allot, q ∉ ctxL9.readAllot d)) ∧
    ((ctxL2.awake) ∧
     ((ctxL2.ctx 0).busy = false) ∧
     (ctxL2.sys.recovery = false) ∧
     ((ctxL2.ctx 0).st = CtxSt.resident ∨ (ctxL2.ctx 0).st = CtxSt.halted) ∧
     (∀ e ∈ ctxL2.ctxs, e.1 ≠ 0 → ¬(e.2.rdie = (ctxL2.ctx 0).die ∧ e.2.slot = some 0))) ∧
    ((ctxL15.awake) ∧
     ((ctxL15.ctx 0).busy = false) ∧
     (ctxL15.sys.recovery = false) ∧
     ((ctxL15.ctx 0).st = CtxSt.resident ∨ (ctxL15.ctx 0).st = CtxSt.halted) ∧
     (∀ k < 4, ∃ e ∈ ctxL15.ctxs, e.1 ≠ 0 ∧ e.2.rdie = (ctxL15.ctx 0).die ∧ e.2.slot = some k)) ∧
    ((ctxL0.awake) ∧
     ((ctxL0.ctx 0).busy = false) ∧
     (ctxL0.sys.recovery = false) ∧
     ((ctxL0.ctx 0).st ≠ CtxSt.resident) ∧
     ((ctxL0.ctx 0).st ≠ CtxSt.halted)) ∧
    ((ctxL0.awake) ∧
     ((ctxL0.ctx 0).busy = false) ∧
     (ctxL0.sys.recovery = false) ∧
     ((ctxL0.ctx 0).st = CtxSt.running ∨ (ctxL0.ctx 0).st = CtxSt.halted)) ∧
    ((ctxL0.awake) ∧
     ((ctxL0.ctx 3).busy = false) ∧
     (ctxL0.sys.recovery = false) ∧
     ((ctxL0.ctx 3).st ≠ CtxSt.running) ∧
     ((ctxL0.ctx 3).st ≠ CtxSt.halted)) ∧
    ((ctxL2.awake) ∧
     ((ctxL2.ctx 0).busy = false) ∧
     (ctxL2.sys.recovery = false) ∧
     ((ctxL2.ctx 0).st = CtxSt.resident)) ∧
    ((ctxL0.awake) ∧
     ((ctxL0.ctx 0).busy = false) ∧
     (ctxL0.sys.recovery = false)) ∧
    (((ctxL4.ctx 0).destroying = true) ∧
     (ctxL4.drained 0 = true)) ∧
    (((ctxL0.ctx 0).destroying = false ∨ ctxL0.drained 0 = false)) ∧
    (((ctxL3.ctx 0).st = CtxSt.saving) ∧
     (∀ q ∈ (ctxL3.ctx 0).allot, (ctxL3.th q).task = none)) ∧
    ((ctxL5.ctxOf 0 = 0) ∧
     ((ctxL5.th 0).mode = Mode.saving) ∧
     (∀ f ∈ (ctxL5.th 0).flight, f.waiting = false) ∧
     ((ctxL5.th 0).xfers = []) ∧
     ((ctxL5.th 0).task = some { count := 1, kernel := 65536, pure := false, cycles := 0, phase := 0, slot := 0 : Machine.TaskRef })) ∧
    ((ctxL14.fqCnt { id := 5, src := 0, ctx := 0, kind := 1, srcCode := 0, idField := 0, parks := some 0, cmd := some 9 : Machine.Rec } ≠ 0) ∧
     ({ id := 5, src := 0, ctx := 0, kind := 1, srcCode := 0, idField := 0, parks := some 0, cmd := some 9 : Machine.Rec }.fw = false) ∧
     (let base := ctxL14.fqBase { id := 5, src := 0, ctx := 0, kind := 1, srcCode := 0, idField := 0, parks := some 0, cmd := some 9 : Machine.Rec }; List.find? (fun q => q.id == 5) ctxL14.recs = some { id := 5, src := 0, ctx := 0, kind := 1, srcCode := 0, idField := 0, parks := some 0, cmd := some 9 : Machine.Rec } ∧ (∀ q ∈ ctxL14.recs, q.src = { id := 5, src := 0, ctx := 0, kind := 1, srcCode := 0, idField := 0, parks := some 0, cmd := some 9 : Machine.Rec }.src → q.fw = { id := 5, src := 0, ctx := 0, kind := 1, srcCode := 0, idField := 0, parks := some 0, cmd := some 9 : Machine.Rec }.fw → { id := 5, src := 0, ctx := 0, kind := 1, srcCode := 0, idField := 0, parks := some 0, cmd := some 9 : Machine.Rec }.id ≤ q.id) ∧ Option.all (fun m => m.pos != 6 || Decidable.decide (m.major < 15) || Decidable.decide (19 < m.major)) ({ id := 5, src := 0, ctx := 0, kind := 1, srcCode := 0, idField := 0, parks := some 0, cmd := some 9 : Machine.Rec }.cmd.bind ctxL14.cmd?) = true ∧ ctxL14.vpa { id := 5, src := 0, ctx := 0, kind := 1, srcCode := 0, idField := 0, parks := some 0, cmd := some 9 : Machine.Rec }.ctx base = none)) ∧
    ((ctxL13.fqCnt { id := 5, src := 0, ctx := 0, kind := 1, srcCode := 0, idField := 0, parks := some 0, cmd := some 9 : Machine.Rec } ≠ 0) ∧
     ({ id := 5, src := 0, ctx := 0, kind := 1, srcCode := 0, idField := 0, parks := some 0, cmd := some 9 : Machine.Rec }.fw = false) ∧
     (let base := ctxL13.fqBase { id := 5, src := 0, ctx := 0, kind := 1, srcCode := 0, idField := 0, parks := some 0, cmd := some 9 : Machine.Rec }; let tail := ctxL13.fqRead { id := 5, src := 0, ctx := 0, kind := 1, srcCode := 0, idField := 0, parks := some 0, cmd := some 9 : Machine.Rec } base; let va := base + 128 + 128 * (tail % ctxL13.fqCnt { id := 5, src := 0, ctx := 0, kind := 1, srcCode := 0, idField := 0, parks := some 0, cmd := some 9 : Machine.Rec }); List.find? (fun q => q.id == 5) ctxL13.recs = some { id := 5, src := 0, ctx := 0, kind := 1, srcCode := 0, idField := 0, parks := some 0, cmd := some 9 : Machine.Rec } ∧ (∀ q ∈ ctxL13.recs, q.src = { id := 5, src := 0, ctx := 0, kind := 1, srcCode := 0, idField := 0, parks := some 0, cmd := some 9 : Machine.Rec }.src → q.fw = { id := 5, src := 0, ctx := 0, kind := 1, srcCode := 0, idField := 0, parks := some 0, cmd := some 9 : Machine.Rec }.fw → { id := 5, src := 0, ctx := 0, kind := 1, srcCode := 0, idField := 0, parks := some 0, cmd := some 9 : Machine.Rec }.id ≤ q.id) ∧ Option.all (fun m => m.pos != 6 || Decidable.decide (m.major < 15) || Decidable.decide (19 < m.major)) ({ id := 5, src := 0, ctx := 0, kind := 1, srcCode := 0, idField := 0, parks := some 0, cmd := some 9 : Machine.Rec }.cmd.bind ctxL13.cmd?) = true ∧ (ctxL13.vpa { id := 5, src := 0, ctx := 0, kind := 1, srcCode := 0, idField := 0, parks := some 0, cmd := some 9 : Machine.Rec }.ctx base).isSome = true ∧ tail < ctxL13.fqRead { id := 5, src := 0, ctx := 0, kind := 1, srcCode := 0, idField := 0, parks := some 0, cmd := some 9 : Machine.Rec } (base + 8) + ctxL13.fqCnt { id := 5, src := 0, ctx := 0, kind := 1, srcCode := 0, idField := 0, parks := some 0, cmd := some 9 : Machine.Rec } ∧ ctxL13.vpa { id := 5, src := 0, ctx := 0, kind := 1, srcCode := 0, idField := 0, parks := some 0, cmd := some 9 : Machine.Rec }.ctx va = none)) ∧
    ((ctxL12.fqCnt { id := 5, src := 0, ctx := 0, kind := 1, srcCode := 0, idField := 0, parks := some 0, cmd := some 9 : Machine.Rec } ≠ 0) ∧
     ({ id := 5, src := 0, ctx := 0, kind := 1, srcCode := 0, idField := 0, parks := some 0, cmd := some 9 : Machine.Rec }.fw = false) ∧
     (let base := ctxL12.fqBase { id := 5, src := 0, ctx := 0, kind := 1, srcCode := 0, idField := 0, parks := some 0, cmd := some 9 : Machine.Rec }; let tail := ctxL12.fqRead { id := 5, src := 0, ctx := 0, kind := 1, srcCode := 0, idField := 0, parks := some 0, cmd := some 9 : Machine.Rec } base; let va := base + 128 + 128 * (tail % ctxL12.fqCnt { id := 5, src := 0, ctx := 0, kind := 1, srcCode := 0, idField := 0, parks := some 0, cmd := some 9 : Machine.Rec }); List.find? (fun q => q.id == 5) ctxL12.recs = some { id := 5, src := 0, ctx := 0, kind := 1, srcCode := 0, idField := 0, parks := some 0, cmd := some 9 : Machine.Rec } ∧ (∀ q ∈ ctxL12.recs, q.src = { id := 5, src := 0, ctx := 0, kind := 1, srcCode := 0, idField := 0, parks := some 0, cmd := some 9 : Machine.Rec }.src → q.fw = { id := 5, src := 0, ctx := 0, kind := 1, srcCode := 0, idField := 0, parks := some 0, cmd := some 9 : Machine.Rec }.fw → { id := 5, src := 0, ctx := 0, kind := 1, srcCode := 0, idField := 0, parks := some 0, cmd := some 9 : Machine.Rec }.id ≤ q.id) ∧ Option.all (fun m => m.pos != 6 || Decidable.decide (m.major < 15) || Decidable.decide (19 < m.major)) ({ id := 5, src := 0, ctx := 0, kind := 1, srcCode := 0, idField := 0, parks := some 0, cmd := some 9 : Machine.Rec }.cmd.bind ctxL12.cmd?) = true ∧ (ctxL12.vpa { id := 5, src := 0, ctx := 0, kind := 1, srcCode := 0, idField := 0, parks := some 0, cmd := some 9 : Machine.Rec }.ctx base).isSome = true ∧ tail < ctxL12.fqRead { id := 5, src := 0, ctx := 0, kind := 1, srcCode := 0, idField := 0, parks := some 0, cmd := some 9 : Machine.Rec } (base + 8) + ctxL12.fqCnt { id := 5, src := 0, ctx := 0, kind := 1, srcCode := 0, idField := 0, parks := some 0, cmd := some 9 : Machine.Rec } ∧ (ctxL12.vpa { id := 5, src := 0, ctx := 0, kind := 1, srcCode := 0, idField := 0, parks := some 0, cmd := some 9 : Machine.Rec }.ctx va).isSome = true)) ∧
    ((ctxL6.fqCnt { id := 5, src := 0, ctx := 0, fw := true, kind := 1, srcCode := 0, idField := 0, parks := some 0, cmd := some 9 : Machine.Rec } ≠ 0) ∧
     ({ id := 5, src := 0, ctx := 0, fw := true, kind := 1, srcCode := 0, idField := 0, parks := some 0, cmd := some 9 : Machine.Rec }.fw = true) ∧
     (let base := ctxL6.fqBase { id := 5, src := 0, ctx := 0, fw := true, kind := 1, srcCode := 0, idField := 0, parks := some 0, cmd := some 9 : Machine.Rec }; let tail := ctxL6.fqRead { id := 5, src := 0, ctx := 0, fw := true, kind := 1, srcCode := 0, idField := 0, parks := some 0, cmd := some 9 : Machine.Rec } base; let va := base + 128 + 128 * (tail % ctxL6.fqCnt { id := 5, src := 0, ctx := 0, fw := true, kind := 1, srcCode := 0, idField := 0, parks := some 0, cmd := some 9 : Machine.Rec }); List.find? (fun q => q.id == 5) ctxL6.recs = some { id := 5, src := 0, ctx := 0, fw := true, kind := 1, srcCode := 0, idField := 0, parks := some 0, cmd := some 9 : Machine.Rec } ∧ (∀ q ∈ ctxL6.recs, q.src = { id := 5, src := 0, ctx := 0, fw := true, kind := 1, srcCode := 0, idField := 0, parks := some 0, cmd := some 9 : Machine.Rec }.src → q.fw = { id := 5, src := 0, ctx := 0, fw := true, kind := 1, srcCode := 0, idField := 0, parks := some 0, cmd := some 9 : Machine.Rec }.fw → { id := 5, src := 0, ctx := 0, fw := true, kind := 1, srcCode := 0, idField := 0, parks := some 0, cmd := some 9 : Machine.Rec }.id ≤ q.id) ∧ Option.all (fun m => m.pos != 6 || Decidable.decide (m.major < 15) || Decidable.decide (19 < m.major)) ({ id := 5, src := 0, ctx := 0, fw := true, kind := 1, srcCode := 0, idField := 0, parks := some 0, cmd := some 9 : Machine.Rec }.cmd.bind ctxL6.cmd?) = true ∧ (∀ a ∈ [base, va, va + 64], ctxL6.violates false a = false ∧ ctxL6.calm (a / 64) 0 = true) ∧ tail < ctxL6.fqRead { id := 5, src := 0, ctx := 0, fw := true, kind := 1, srcCode := 0, idField := 0, parks := some 0, cmd := some 9 : Machine.Rec } (base + 8) + ctxL6.fqCnt { id := 5, src := 0, ctx := 0, fw := true, kind := 1, srcCode := 0, idField := 0, parks := some 0, cmd := some 9 : Machine.Rec })) ∧
    ((ctxL7.fqCnt { id := 5, src := 0, ctx := 0, fw := true, kind := 1, srcCode := 0, idField := 0, parks := some 0, cmd := some 9 : Machine.Rec } ≠ 0) ∧
     ({ id := 5, src := 0, ctx := 0, fw := true, kind := 1, srcCode := 0, idField := 0, parks := some 0, cmd := some 9 : Machine.Rec }.fw = true) ∧
     ({ id := 5, src := 0, ctx := 0, fw := true, kind := 1, srcCode := 0, idField := 0, parks := some 0, cmd := some 9 : Machine.Rec }.counted = false) ∧
     (let base := ctxL7.fqBase { id := 5, src := 0, ctx := 0, fw := true, kind := 1, srcCode := 0, idField := 0, parks := some 0, cmd := some 9 : Machine.Rec }; let tail := ctxL7.fqRead { id := 5, src := 0, ctx := 0, fw := true, kind := 1, srcCode := 0, idField := 0, parks := some 0, cmd := some 9 : Machine.Rec } base; let va := base + 128 + 128 * (tail % ctxL7.fqCnt { id := 5, src := 0, ctx := 0, fw := true, kind := 1, srcCode := 0, idField := 0, parks := some 0, cmd := some 9 : Machine.Rec }); List.find? (fun q => q.id == 5) ctxL7.recs = some { id := 5, src := 0, ctx := 0, fw := true, kind := 1, srcCode := 0, idField := 0, parks := some 0, cmd := some 9 : Machine.Rec } ∧ (∀ q ∈ ctxL7.recs, q.src = { id := 5, src := 0, ctx := 0, fw := true, kind := 1, srcCode := 0, idField := 0, parks := some 0, cmd := some 9 : Machine.Rec }.src → q.fw = { id := 5, src := 0, ctx := 0, fw := true, kind := 1, srcCode := 0, idField := 0, parks := some 0, cmd := some 9 : Machine.Rec }.fw → { id := 5, src := 0, ctx := 0, fw := true, kind := 1, srcCode := 0, idField := 0, parks := some 0, cmd := some 9 : Machine.Rec }.id ≤ q.id) ∧ Option.all (fun m => m.pos != 6 || Decidable.decide (m.major < 15) || Decidable.decide (19 < m.major)) ({ id := 5, src := 0, ctx := 0, fw := true, kind := 1, srcCode := 0, idField := 0, parks := some 0, cmd := some 9 : Machine.Rec }.cmd.bind ctxL7.cmd?) = true ∧ (∀ a ∈ [base, va, va + 64], ctxL7.violates false a = false ∧ ctxL7.calm (a / 64) 0 = true) ∧ ctxL7.rd64 (base + 8) + ctxL7.fqCnt { id := 5, src := 0, ctx := 0, fw := true, kind := 1, srcCode := 0, idField := 0, parks := some 0, cmd := some 9 : Machine.Rec } ≤ tail)) ∧
    (({ id := 5, src := 0, ctx := 0, fw := true, kind := 1, srcCode := 0, idField := 0, parks := some 0, cmd := some 9, counted := true : Machine.Rec }.fw = true) ∧
     ({ id := 5, src := 0, ctx := 0, fw := true, kind := 1, srcCode := 0, idField := 0, parks := some 0, cmd := some 9, counted := true : Machine.Rec }.counted = true) ∧
     (let base := ctxL8.fqBase { id := 5, src := 0, ctx := 0, fw := true, kind := 1, srcCode := 0, idField := 0, parks := some 0, cmd := some 9, counted := true : Machine.Rec }; let tail := ctxL8.fqRead { id := 5, src := 0, ctx := 0, fw := true, kind := 1, srcCode := 0, idField := 0, parks := some 0, cmd := some 9, counted := true : Machine.Rec } base; let va := base + 128 + 128 * (tail % ctxL8.fqCnt { id := 5, src := 0, ctx := 0, fw := true, kind := 1, srcCode := 0, idField := 0, parks := some 0, cmd := some 9, counted := true : Machine.Rec }); List.find? (fun q => q.id == 5) ctxL8.recs = some { id := 5, src := 0, ctx := 0, fw := true, kind := 1, srcCode := 0, idField := 0, parks := some 0, cmd := some 9, counted := true : Machine.Rec } ∧ (∀ q ∈ ctxL8.recs, q.src = { id := 5, src := 0, ctx := 0, fw := true, kind := 1, srcCode := 0, idField := 0, parks := some 0, cmd := some 9, counted := true : Machine.Rec }.src → q.fw = { id := 5, src := 0, ctx := 0, fw := true, kind := 1, srcCode := 0, idField := 0, parks := some 0, cmd := some 9, counted := true : Machine.Rec }.fw → { id := 5, src := 0, ctx := 0, fw := true, kind := 1, srcCode := 0, idField := 0, parks := some 0, cmd := some 9, counted := true : Machine.Rec }.id ≤ q.id) ∧ ctxL8.fqCnt { id := 5, src := 0, ctx := 0, fw := true, kind := 1, srcCode := 0, idField := 0, parks := some 0, cmd := some 9, counted := true : Machine.Rec } ≠ 0 ∧ Option.all (fun m => m.pos != 6 || Decidable.decide (m.major < 15) || Decidable.decide (19 < m.major)) ({ id := 5, src := 0, ctx := 0, fw := true, kind := 1, srcCode := 0, idField := 0, parks := some 0, cmd := some 9, counted := true : Machine.Rec }.cmd.bind ctxL8.cmd?) = true ∧ (∀ a ∈ [base, va, va + 64], ctxL8.violates false a = false ∧ ctxL8.calm (a / 64) 0 = true) ∧ ctxL8.rd64 (base + 8) + ctxL8.fqCnt { id := 5, src := 0, ctx := 0, fw := true, kind := 1, srcCode := 0, idField := 0, parks := some 0, cmd := some 9, counted := true : Machine.Rec } ≤ tail)) :=
  by
  refine ⟨?_, ?_, ?_, ?_, ?_, ?_, ?_, ?_, ?_, ?_, ?_, ?_, ?_, ?_, ?_, ?_, ?_, ?_, ?_, ?_, ?_, ?_⟩ <;>
    decide +kernel

def linkOf (p : Nat) (l : Link) : State := { lab 0 [] with links := [(p, l)], gcyc := 2 ^ 25, fab := { fabid := 7 } }
def pkt : WirePacket := { src := 5, dst := 7, seq := 3, body := .notice 9, age := 0 }
def linkS0 : State := linkOf 0 {}
def linkS1 : State := linkOf 0 { st := 0 }
def linkS2 : State := linkOf 0 { st := 2, since := 2 ^ 24 + 1 }
def linkS3 : State := linkOf 0 { st := 2, since := 2 ^ 24 }
def linkS4 : State := linkOf 3 { st := 3, replay := [(1, none, 7)], rxNext := 5 }
def linkS5 : State := linkOf 3 { st := 3, replay := [(1, some 4, 8)], rxNext := 5 }
def linkS6 : State := linkOf 0 { st := 4 }
def linkS7 : State := linkOf 0 { st := 4, narrow := 2 }
def linkS8 : State := linkOf 0 { st := 2, fwAt := 2 ^ 25 + 1 }
def linkS9 : State := { linkOf 3 { st := 3 } with sys := { idle := 1 } }
def flits0 : Flit := ⟨6, 1, true, none⟩
def flits1 : Flit := ⟨5, 1, true, some pkt⟩
def flits2 : Flit := ⟨5, 1, false, some pkt⟩

theorem witness_LinkSteps_1 :
    ((linkS1.awake) ∧
     ((linkS1.link 0).st = 0)) ∧
    ((linkS0.awake) ∧
     ((linkS0.link 0).st ≠ 0)) ∧
    (((linkS8.link 0).fwAt = linkS8.gcyc + 1)) ∧
    (((linkS0.link 0).fwAt ≠ linkS0.gcyc + 1) ∧
     ((linkS0.link 0).st = 1)) ∧
    (((linkS2.link 0).fwAt ≠ linkS2.gcyc + 1) ∧
     ((linkS2.link 0).st = 2) ∧
     (linkS2.gcyc < (linkS2.link 0).since + 2 ^ 24)) ∧
    (((linkS3.link 0).fwAt ≠ linkS3.gcyc + 1) ∧
     ((linkS3.link 0).st = 2) ∧
     ((linkS3.link 0).since + 2 ^ 24 ≤ linkS3.gcyc)) ∧
    (((linkS5.link 3).fwAt ≠ linkS5.gcyc + 1) ∧
     ((linkS5.link 3).st = 3) ∧
     (∃ e ∈ (linkS5.link 3).replay, 8 ≤ e.2.2)) ∧
    (((linkS4.link 3).fwAt ≠ linkS4.gcyc + 1) ∧
     ((linkS4.link 3).st = 3) ∧
     ((linkS4.link 3).replay ≠ []) ∧
     (∀ e ∈ (linkS4.link 3).replay, e.2.2 < 8)) :=
  by
  refine ⟨?_, ?_, ?_, ?_, ?_, ?_, ?_, ?_⟩ <;>
    decide +kernel

theorem witness_LinkSteps_2 :
    (((linkS6.link 0).fwAt ≠ linkS6.gcyc + 1) ∧
     ((linkS6.link 0).st = 4) ∧
     ((linkS6.link 0).narrow < 2)) ∧
    (((linkS7.link 0).fwAt ≠ linkS7.gcyc + 1) ∧
     ((linkS7.link 0).st = 4) ∧
     (2 ≤ (linkS7.link 0).narrow)) ∧
    (((linkS2.link 0).fwAt ≠ linkS2.gcyc + 1) ∧
     ((linkS2.link 0).st = 2 ∨ (linkS2.link 0).st = 3 ∨ (linkS2.link 0).st = 4)) ∧
    (((linkS4.link 3).fwAt ≠ linkS4.gcyc + 1) ∧
     ((linkS4.link 3).st = 3)) ∧
    (((linkS9.link 3).fwAt ≠ linkS9.gcyc + 1) ∧
     ((linkS9.link 3).st = 3) ∧
     (linkS9.sys.idle ≠ 0)) ∧
    (((linkS4.link 3).fwAt ≠ linkS4.gcyc + 1) ∧
     ((linkS4.link 3).st = 3) ∧
     (linkS4.awake) ∧
     (flits2.crcOk = false)) ∧
    (((linkS4.link 3).fwAt ≠ linkS4.gcyc + 1) ∧
     ((linkS4.link 3).st = 3) ∧
     (linkS4.awake) ∧
     (flits0.crcOk = true) ∧
     (flits0.seq % 4096 ≠ (linkS4.link 3).rxNext)) ∧
    (((linkS4.link 3).fwAt ≠ linkS4.gcyc + 1) ∧
     ((linkS4.link 3).st = 3) ∧
     (linkS4.awake) ∧
     (flits1.crcOk = true) ∧
     (flits1.seq % 4096 = (linkS4.link 3).rxNext)) :=
  by
  refine ⟨?_, ?_, ?_, ?_, ?_, ?_, ?_, ?_⟩ <;>
    decide +kernel

def fabS (f : Fabric → Fabric) (g : State → State := id) : State := g { lab 0 [] with nextId := 20, links := [(0, { st := 3, peer := 5 }), (1, { st := 3, peer := 6 })], gcyc := 2 ^ 25, fab := f { fabid := 7, routes := [(5, 0x8008000000000001#64), (5, 1)], rxSeq := [(5, 3)], nextSeq := [(5, 8)] } }
def got : WirePacket := { src := 5, dst := 7, seq := 3, body := .notice 9, age := 0 }
def out_ : Packet := { id := 4, dst := 5, seq := 7, body := .notice 9, first := some (2 ^ 25 - 2 ^ 17), last := 2 ^ 25 - 2 ^ 16 }
def fabL0 : State := fabS fun f => { f with early := [got] }
def fabL1 : State := fabS fun f => { f with early := [{ got with seq := 4 }] }
def fabL2 : State := fabS fun f => { f with early := [{ got with body := .resync }], resync := [5] }
def fabL3 : State := fabS fun f => { f with through := [{ pkt := { got with dst := 5, age := 2 ^ 20 }, since := 2 ^ 25 - 1, entry := 1#64 }] }
def fabL4 : State := fabS (fun f => { f with sent := [{ out_ with cmd := some 9, port := some 0 }] }) fun s => { s with cmds := [{ id := 9, st := .running }] }
def fabL5 : State := fabS fun f => { f with sent := [{ out_ with first := some (2 ^ 25 - 2 ^ 21) }] }
def fabL6 : State := fabS fun f => { f with noRoute := [(5, 2 ^ 25 - 2 ^ 18)] }
def fabL7 : State := fabS fun f => { f with noRoute := [(5, 2 ^ 25 - 2 ^ 18 + 1)] }
def fabL8 : State := fabS fun f => { f with delivered := [(6, .notice 5)] }
def fabL9 : State := fabS fun f => { f with unrch := [5] }
def fabL10 : State := fabS fun f => { f with sent := [{ out_ with first := none }] }

theorem witness_PacketSteps_1 :
    ((List.find? (fun k => k.src == 5 && k.seq == 3) fabL0.fab.early = some { src := 5, dst := 7, seq := 3, age := 0, body := PktBody.notice 9 : WirePacket }) ∧
     (5 ∉ fabL0.fab.resync) ∧
     (3 = getD 0 fabL0.fab.rxSeq 5) ∧
     ({ src := 5, dst := 7, seq := 3, age := 0, body := PktBody.notice 9 : WirePacket }.body ≠ PktBody.resync)) ∧
    ((List.find? (fun k => k.src == 5 && k.seq == 4) fabL1.fab.early = some { src := 5, dst := 7, seq := 4, age := 0, body := PktBody.notice 9 : WirePacket }) ∧
     (5 ∉ fabL1.fab.resync) ∧
     (4 ≠ getD 0 fabL1.fab.rxSeq 5)) ∧
    ((List.find? (fun e => e.pkt.src == 5 && e.pkt.seq == 3 && Decidable.decide (2 ^ 20 < e.pkt.age + (fabL3.gcyc - e.since))) fabL3.fab.through = some { pkt := { src := 5, dst := 5, seq := 3, age := 1048576, body := PktBody.notice 9 : WirePacket }, since := 33554431, entry := 1#64 : Waiting }) ∧
     (fabL3.leavesBy { pkt := { src := 5, dst := 5, seq := 3, age := 1048576, body := PktBody.notice 9 : WirePacket }, since := 33554431, entry := 1#64 : Waiting }.entry = 0)) ∧
    ((List.find? (fun k => k.id == 4) fabL4.fab.sent = some { id := 4, dst := 5, seq := 7, body := PktBody.notice 9, first := some 33423360, last := 33488896, port := some 0, cmd := some 9 : Packet }) ∧
     ({ id := 4, dst := 5, seq := 7, body := PktBody.notice 9, first := some 33423360, last := 33488896, port := some 0, cmd := some 9 : Packet }.again = true ∨ { id := 4, dst := 5, seq := 7, body := PktBody.notice 9, first := some 33423360, last := 33488896, port := some 0, cmd := some 9 : Packet }.last + 2 ^ 16 ≤ fabL4.gcyc) ∧
     (∀ (f : ℕ), { id := 4, dst := 5, seq := 7, body := PktBody.notice 9, first := some 33423360, last := 33488896, port := some 0, cmd := some 9 : Packet }.first = some f → fabL4.gcyc < f + 2 ^ 21) ∧
     ({ id := 4, dst := 5, seq := 7, body := PktBody.notice 9, first := some 33423360, last := 33488896, port := some 0, cmd := some 9 : Packet }.dst ∉ fabL4.fab.resync) ∧
     (fabL4.route { id := 4, dst := 5, seq := 7, body := PktBody.notice 9, first := some 33423360, last := 33488896, port := some 0, cmd := some 9 : Packet }.dst = some (0, false))) ∧
    ((List.find? (fun k => k.id == 4) fabL4.fab.sent = some { id := 4, dst := 5, seq := 7, body := PktBody.notice 9, first := some 33423360, last := 33488896, port := some 0, cmd := some 9 : Packet }) ∧
     ({ id := 4, dst := 5, seq := 7, body := PktBody.notice 9, first := some 33423360, last := 33488896, port := some 0, cmd := some 9 : Packet }.first.isSome = true)) ∧
    ((List.find? (fun k => k.id == 4) fabL10.fab.sent = some { id := 4, dst := 5, seq := 7, body := PktBody.notice 9, last := 33488896 : Packet }) ∧
     ({ id := 4, dst := 5, seq := 7, body := PktBody.notice 9, last := 33488896 : Packet }.first = none)) ∧
    ((List.find? (fun k => k.id == 4) fabL5.fab.sent = some { id := 4, dst := 5, seq := 7, body := PktBody.notice 9, first := some 31457280, last := 33488896 : Packet }) ∧
     ({ id := 4, dst := 5, seq := 7, body := PktBody.notice 9, first := some 31457280, last := 33488896 : Packet }.first = some 31457280) ∧
     (31457280 + 2 ^ 21 ≤ fabL5.gcyc)) :=
  by
  refine ⟨?_, ?_, ?_, ?_, ?_, ?_, ?_⟩ <;>
    decide +kernel

theorem witness_PacketSteps_2 :
    ((List.find? (fun e => e.1 == 5) fabL6.fab.noRoute = some (5, 33292288)) ∧
     (33292288 + 2 ^ 18 ≤ fabL6.gcyc) ∧
     (5 ≠ fabL6.fab.fabid)) ∧
    ((List.find? (fun e => e.1 == 5) fabL7.fab.noRoute = some (5, 33292289)) ∧
     (fabL7.gcyc < 33292289 + 2 ^ 18 ∨ 5 = fabL7.fab.fabid)) ∧
    (((6, PktBody.notice 5) ∈ fabL8.fab.delivered)) ∧
    ((fabL9.awake) ∧
     (5 ∈ fabL9.fab.unrch)) ∧
    ((fabL0.awake) ∧
     (5 ∉ fabL0.fab.unrch)) ∧
    ((List.find? (fun k => k.src == 5 && k.body == PktBody.resync) fabL2.fab.early = some { src := 5, dst := 7, seq := 3, age := 0, body := PktBody.resync : WirePacket })) :=
  by
  refine ⟨?_, ?_, ?_, ?_, ?_, ?_⟩ <;>
    decide +kernel

def dbgS (f : Thr → Thr) (y : Sys) : State := { (lab 0 []).modTh 0 f with sys := y }
def trS (f : Thr → Thr) (tail head : Nat) : State :=
  let s := dbgS f { debugOn := 63 }
  { (s.modCtx 0 fun x => { x with trbase := 0x48002#64, cdbg := 4 }) with mem := wr s.mem [(0x48000, tail), (0x48008, head)] }
def dbgL0 : State := dbgS id { debugOn := 63 }
def dbgL1 : State := dbgS (fun t => { t with dbg := { stopped := true, cause := 2 } }) { debugOn := 63 }
def dbgL3 : State := dbgS id {}
def dbgL4 : State := dbgS id { debugOn := 63, dlPending := some 0x1000, dlData := [(0, 5)] }
def dbgL5 : State := dbgS id { debugOn := 63, tokenBusy := true }
def dbgL6 : State := dbgS id { debugOn := 63, dlPending := some 0x180, dlData := [(0, 5)] }
def dbgL7 : State := trS (fun t => { t with drth := 2, held := some 4, heldFrom := 3, stallArmed := true }) 5 3
def dbgL8 : State := trS (fun t => { t with drth := 0x100010, held := some 4, heldFrom := 3 }) 7 3
def dbgL9 : State := dbgS (fun t => { t with dbg := { edge := 1 }, held := some 4, heldFrom := 3 }) { debugOn := 63 }
def dbgL10 : State := dbgS (fun t => { t with dbg := { edge := 1, stopped := true, cause := 2 } }) { debugOn := 63 }
def dbgL11 : State := dbgS (fun t => { t with dbg := { edge := 2, stopped := true, cause := 2 } }) { debugOn := 63 }
def dbgL13 : State := { dbgS id { debugOn := 63, dlPending := some 0x1000, dlData := [(0, 5)] } with reqs := [rq 7 4001 (.store 0x40000 (bytesOf 8 1) none false none)] }
def dbgL14 : State := { dbgS id { debugOn := 63, dlPending := some (0x3000 / 64), dlData := [(0, 5)] } with xcache := [(3, 0, 0x40000, 0xC0)] }

theorem witness_DebugSteps_1 :
    ((dbgL3.awake) ∧
     (dbgL3.feature 0 = false ∨ (dbgL3.th 0).dbg.step = true ∨ dbgL3.sys.recovery = true)) ∧
    ((dbgL0.awake) ∧
     (dbgL0.feature 0 = true) ∧
     ((dbgL0.th 0).dbg.step = false) ∧
     (dbgL0.sys.recovery = false)) ∧
    ((dbgL9.awake) ∧
     (dbgL9.feature 0 = true) ∧
     ((dbgL9.th 0).dbg.step = false) ∧
     (dbgL9.sys.recovery = false) ∧
     ((dbgL9.th 0).dbg.edge = 1) ∧
     ((dbgL9.th 0).dbg.stopped = false) ∧
     ((dbgL9.th 0).dbg.step = false)) ∧
    ((dbgL10.awake) ∧
     (dbgL10.feature 0 = true) ∧
     ((dbgL10.th 0).dbg.step = false) ∧
     (dbgL10.sys.recovery = false) ∧
     ((dbgL10.th 0).dbg.edge = 1) ∧
     ((dbgL10.th 0).dbg.stopped = true)) ∧
    ((dbgL11.awake) ∧
     (dbgL11.feature 0 = true) ∧
     ((dbgL11.th 0).dbg.step = false) ∧
     (dbgL11.sys.recovery = false) ∧
     ((dbgL11.th 0).dbg.edge = 2) ∧
     ((dbgL11.th 0).dbg.stopped = true) ∧
     ((dbgL11.th 0).task.isSome = true)) ∧
    ((dbgL1.awake) ∧
     (dbgL1.feature 0 = true) ∧
     ((dbgL1.th 0).dbg.step = false) ∧
     (dbgL1.sys.recovery = false) ∧
     ((dbgL1.th 0).dbg.stopped = true) ∧
     ((dbgL1.th 0).dbg.edge = 0) ∧
     ((dbgL1.th 0).mode = Mode.running)) ∧
    ((dbgL1.awake) ∧
     (dbgL1.feature 2 = true) ∧
     (dbgL1.windowOpen 0 = true)) ∧
    ((dbgL1.awake) ∧
     (dbgL1.feature 2 = true) ∧
     (dbgL1.windowOpen 0 = true)) :=
  by
  refine ⟨?_, ?_, ?_, ?_, ?_, ?_, ?_, ?_⟩ <;>
    decide +kernel

theorem witness_DebugSteps_2 :
    ((dbgL0.awake) ∧
     (dbgL0.feature 2 = false ∨ dbgL0.windowOpen 0 = false)) ∧
    ((dbgL0.awake) ∧
     (dbgL0.feature 3 = true) ∧
     (dbgL0.sys.dlPending = none)) ∧
    ((dbgL13.sys.dlPending = some 4096) ∧
     (dbgL13.partWaits 4096 = true)) ∧
    ((dbgL4.sys.dlPending = some 4096) ∧
     (dbgL4.partWaits 4096 = false) ∧
     (dbgL4.violates true (4096 * 64) = false) ∧
     (physClass (4096 * 64) ≠ PhysClass.control) ∧
     (dbgL4.protectedKind (4096 * 64) = none) ∧
     (dbgL4.still 0 (4096 * 64) (List.map (fun i => getD 0 dbgL4.sys.dlData i) (List.range 64)) = true)) ∧
    ((dbgL14.sys.dlPending = some 192) ∧
     (dbgL14.partWaits 192 = false) ∧
     (dbgL14.violates true (192 * 64) = false) ∧
     (physClass (192 * 64) ≠ PhysClass.control) ∧
     (dbgL14.protectedKind (192 * 64) = none) ∧
     (dbgL14.still 0 (192 * 64) (List.map (fun i => getD 0 dbgL14.sys.dlData i) (List.range 64)) = false)) ∧
    ((dbgL6.sys.dlPending = some 384) ∧
     (dbgL6.partWaits 384 = false) ∧
     (dbgL6.violates true (384 * 64) = true ∨ physClass (384 * 64) = PhysClass.control ∨ (dbgL6.protectedKind (384 * 64)).isSome = true)) ∧
    ((dbgL0.awake) ∧
     (dbgL0.sys.tokenBusy = false)) ∧
    ((dbgL0.awake) ∧
     (9223372036854775813#64 ≠ 1)) :=
  by
  refine ⟨?_, ?_, ?_, ?_, ?_, ?_, ?_, ?_⟩ <;>
    decide +kernel

theorem witness_DebugSteps_3 :
    ((dbgL5.sys.tokenBusy = true)) ∧
    ((∀ a ∈ [fld (dbgL0.ctx 0).trbase 49 12 * 4096, fld (dbgL0.ctx 0).trbase 49 12 * 4096 + 64 + 32 * (dbgL0.rd64 (fld (dbgL0.ctx 0).trbase 49 12 * 4096) % 2 ^ (BitVec.toNat (dbgL0.ctx 0).trbase % 32))], physClass a = PhysClass.hbm ∧ dbgL0.protectedKind a = none ∧ dbgL0.calm (a / 64) 0 = true) ∧
     (dbgL0.rd64 (fld (dbgL0.ctx 0).trbase 49 12 * 4096) < dbgL0.rd64 (fld (dbgL0.ctx 0).trbase 49 12 * 4096 + 8) + 2 ^ (BitVec.toNat (dbgL0.ctx 0).trbase % 32)) ∧
     ((dbgL0.agentWrite 0 (fld (dbgL0.ctx 0).trbase 49 12 * 4096 + 64 + 32 * (dbgL0.rd64 (fld (dbgL0.ctx 0).trbase 49 12 * 4096) % 2 ^ (BitVec.toNat (dbgL0.ctx 0).trbase % 32))) (List.flatMap (bytesOf 8) [(dbgL0.rd64 (fld (dbgL0.ctx 0).trbase 49 12 * 4096) + 1) % 2 ^ 32 * 2 ^ 32 + 513, 65536, dbgL0.gcyc, 7])).protectedKind (fld (dbgL0.ctx 0).trbase 49 12 * 4096) = none)) ∧
    ((∀ a ∈ [fld (dbgL8.ctx 0).trbase 49 12 * 4096, fld (dbgL8.ctx 0).trbase 49 12 * 4096 + 64 + 32 * (dbgL8.rd64 (fld (dbgL8.ctx 0).trbase 49 12 * 4096) % 2 ^ (BitVec.toNat (dbgL8.ctx 0).trbase % 32))], physClass a = PhysClass.hbm ∧ dbgL8.protectedKind a = none ∧ dbgL8.calm (a / 64) 0 = true) ∧
     (dbgL8.rd64 (fld (dbgL8.ctx 0).trbase 49 12 * 4096 + 8) + 2 ^ (BitVec.toNat (dbgL8.ctx 0).trbase % 32) ≤ dbgL8.rd64 (fld (dbgL8.ctx 0).trbase 49 12 * 4096))) ∧
    ((dbgL0.tracing (dbgL0.ctxOf 0) = false)) ∧
    ((dbgL7.tracing (dbgL7.ctxOf 0) = true)) ∧
    (((dbgL7.th 0).held = some 4)) ∧
    ((dbgL0.awake) ∧
     (dbgL0.feature 5 = true)) :=
  by
  refine ⟨?_, ?_, ?_, ?_, ?_, ?_, ?_⟩ <;>
    decide +kernel

def matOf (op a0 a1 b0 b1 : Nat) : MatRun := { op, bank := 2, acc := bank 2, a0 := BitVec.ofNat 64 a0, a1 := BitVec.ofNat 64 a1, b0 := BitVec.ofNat 64 b0, b1 := BitVec.ofNat 64 b1, recA := none, recB := none, issued := 800, baddr := 0x10000, cmd := 9 }
def matS (m : MatRun) (f : Thr → Thr := id) : State := { (lab 0 []).modTh 0 (fun t => f { t with banks := [(2, bank 5)], mats := [m], prog := [(2, 77)], scyc := 1000 }) with cmds := [{ id := 9, st := .running }] }
def xferOf : Xfer := { cmd := 9, load := true, bank := 1, tr := false, rows := (List.range 64).map (fun i => 0x40000 + 256 * i), rowBytes := 256, fmt := 0, sp := false, got := (List.range 256).map (fun i => (i, List.replicate 16 0x3F800000)) }
def matM0 : MatRun := matOf 0 0 0x10 0x400 0x10
def matM2 : MatRun := { matOf 0 0 0x110 0x400 0x10 with recA := some 0 }
def matL0 : State := matS (matOf 0 0 0x10 0x400 0x10)
def matL1 : State := { matS (matOf 0 0 0x10 0x400 0x10) with ftags := [(0, 4)] }
def matL4 : State := matS (matOf 0 0 0x10 0x400 0x10) fun t => { t with matStop := some (0, 1, 9) }
def matY0 : MatRun := (((matL1.readGroup 0 matM0).th 0).mats.head?).getD matM0
def xferY0 : Xfer := xferOf
def xferY1 : Xfer := { xferOf with load := false, reqs := [3] }
def xferY2 : Xfer := { xferOf with sp := true, rows := (List.range 64).map fun i => 16 * i, rowBytes := 16, fmt := 5 }
def xferY3 : Xfer := { xferOf with load := false, sp := true, rows := (List.range 64).map fun i => 16 * i, rowBytes := 16 }
def xferL0 : State := matS (matOf 0 0 0x10 0x400 0x10)
def xferL1 : State := matS (matOf 0 0 0x10 0x400 0x10) fun t => { t with xfers := [xferOf] }
def xferL2 : State := matS (matOf 0 0 0x10 0x400 0x10) fun t => { t with xfers := [{ xferOf with load := false, reqs := [3] }] }
def xferL3 : State := matS (matOf 0 0 0x10 0x400 0x10) fun t => { t with xfers := [{ xferOf with sp := true, rows := (List.range 64).map fun i => 16 * i, rowBytes := 16, fmt := 5 }] }
def xferL4 : State := matS (matOf 0 0 0x10 0x400 0x10) fun t => { t with xfers := [{ xferOf with load := false, sp := true, rows := (List.range 64).map fun i => 16 * i, rowBytes := 16 }] }

theorem witness_MatrixGroupReads :
    ((let c := matL0.ctxOf 0; let cl := 0 / 32; let da := { w0 := matM0.a0, w1 := matM0.a1 : OpDesc }; let db := { w0 := matM0.b0, w1 := matM0.b1 : OpDesc }; let g := matM0.next; matL0.groupPoison c cl da g = none ∧ matL0.groupPoison c cl db g = none ∧ matL0.groupFormat c cl da matM0.recA g = false ∧ matL0.groupFormat c cl db matM0.recB g = false)) ∧
    ((0 ≠ matM0.bank) ∧
     (let c := matL0.ctxOf 0; let cl := 0 / 32; let da := { w0 := matM0.a0, w1 := matM0.a1 : OpDesc }; let db := { w0 := matM0.b0, w1 := matM0.b1 : OpDesc }; let g := matM0.next; matL0.groupPoison c cl da g = none ∧ matL0.groupPoison c cl db g = none ∧ matL0.groupFormat c cl da matM0.recA g = false ∧ matL0.groupFormat c cl db matM0.recB g = false)) ∧
    ((let c := matL0.ctxOf 0; let cl := 0 / 32; let da := { w0 := matM0.a0, w1 := matM0.a1 : OpDesc }; let db := { w0 := matM0.b0, w1 := matM0.b1 : OpDesc }; let g := matM0.next; matL0.groupPoison c cl da g = none ∧ matL0.groupPoison c cl db g = none ∧ matL0.groupFormat c cl da matM0.recA g = false ∧ matL0.groupFormat c cl db matM0.recB g = false)) ∧
    ((matY0 ∈ ((matL1.readGroup 0 matM0).th 0).mats) ∧
     (matY0.cmd = matM0.cmd) ∧
     (let pois := fun w v => matL1.groupPoison (matL1.ctxOf 0) (0 / 32) { w0 := w, w1 := v : OpDesc } matM0.next; (pois matM0.a0 matM0.a1).isSome = true ∨ (pois matM0.b0 matM0.b1).isSome = true)) ∧
    ((let pois := fun w v => matL0.groupPoison (matL0.ctxOf 0) (0 / 32) { w0 := w, w1 := v : OpDesc } matM2.next; let bad := fun w v r => matL0.groupFormat (matL0.ctxOf 0) (0 / 32) { w0 := w, w1 := v : OpDesc } r matM2.next; pois matM2.a0 matM2.a1 = none ∧ pois matM2.b0 matM2.b1 = none ∧ (bad matM2.a0 matM2.a1 matM2.recA = true ∨ bad matM2.b0 matM2.b1 matM2.recB = true))) ∧
    (((matL4.th 0).matStop = some (0, 1, 9)) ∧
     (List.find? (fun y => y.cmd == 9) (matL4.th 0).mats = some matM0)) :=
  by
  refine ⟨?_, ?_, ?_, ?_, ?_, ?_⟩ <;>
    decide +kernel

theorem witness_MatrixSteps :
    (((xferL0.th 0).mode = Mode.running) ∧
     ((xferL0.th 0).dbg.stopped = false) ∧
     ((xferL0.th 0).frozen = false) ∧
     ((xferL0.th 0).matDue = some matM0) ∧
     ((xferL0.th 0).matStop = none) ∧
     (xferL0.matMissing 0 = [])) ∧
    (((xferL0.th 0).mode = Mode.running) ∧
     ((xferL0.th 0).dbg.stopped = false) ∧
     ((xferL0.th 0).frozen = false) ∧
     ((xferL0.th 0).mats = [matM0]) ∧
     (matM0.issued + 144 ≤ (xferL0.th 0).scyc) ∧
     (xferL0.clean matM0.cmd = true)) ∧
    (((xferL1.th 0).xfers = [xferY0]) ∧
     (xferY0.cmd = 9) ∧
     (xferL1.clean 9 = true) ∧
     (xferY0.load = true) ∧
     (xferY0.sp = false) ∧
     (xferY0.got.length = 64 * (xferY0.rowBytes / 64))) ∧
    (((xferL2.th 0).xfers = [xferY1]) ∧
     (xferY1.cmd = 9) ∧
     (xferL2.clean 9 = true) ∧
     (xferY1.load = false) ∧
     (xferY1.sp = false) ∧
     (∀ r ∈ xferL2.reqs, r.id ∉ xferY1.reqs)) ∧
    (((xferL3.th 0).xfers = [xferY2]) ∧
     (xferY2.cmd = 9) ∧
     (xferL3.clean 9 = true) ∧
     (xferY2.load = true) ∧
     (xferY2.sp = true) ∧
     (xferL3.spMissing (xferL3.ctxOf 0) (0 / 32) (List.map (fun a => (a, xferY2.rowBytes)) xferY2.rows) = [])) ∧
    (((xferL4.th 0).xfers = [xferY3]) ∧
     (xferY3.cmd = 9) ∧
     (xferY3.load = false) ∧
     (xferY3.sp = true) ∧
     (xferL4.spMissing (xferL4.ctxOf 0) (0 / 32) (List.map (fun a => (a, xferY3.rowBytes)) xferY3.rows) = [])) :=
  by
  refine ⟨?_, ?_, ?_, ?_, ?_, ?_⟩ <;>
    decide +kernel

def regS (y : Sys) : State := { lab 0 [] with sys := y, tenants := [{ slot := 3, reg := 0x10000, quota := 5, secret := [1, 2] }, { slot := 5, reg := 0x10007, secret := [1, 2] }] }
def regL0 : State := regS {}
def regL1 : State := regS { recovery := true }
def regL2 : State := regS { idle := 1 }
def tenX0 : Tenant := { slot := 3, reg := 0x10000, quota := 5, secret := [1, 2] }
def tenX1 : Tenant := { slot := 5, reg := 0x10007, secret := [1, 2] }

theorem witness_RegisterWrites :
    ((regL1.sys.idle = 0) ∧
     (regL1.sys.recovery = true)) ∧
    ((regL2.sys.idle ≠ 0)) ∧
    ((physClass 262144 ≠ PhysClass.control)) ∧
    ((regL0.sys.idle = 0) ∧
     (regL0.sys.recovery = false)) ∧
    ((regL0.sys.idle = 0) ∧
     (regL0.sys.recovery = false)) ∧
    ((regL0.sys.idle = 0) ∧
     (regL0.sys.recovery = false)) ∧
    ((regL0.sys.idle = 0) ∧
     (regL0.sys.recovery = false) ∧
     ((65543#64).getLsbD 16 = true)) ∧
    ((regL0.sys.idle = 0) ∧
     (regL0.sys.recovery = false) ∧
     ((0#64).getLsbD 16 = false) ∧
     (regL0.tenantSlot 3 = some tenX0) ∧
     (BitVec.getLsbD tenX0.reg 16 = true) ∧
     (∃ e ∈ regL0.ctxs, e.2.st ≠ CtxSt.free ∧ e.2.tenant = BitVec.toNat tenX0.reg % 2 ^ 16)) ∧
    ((regL0.sys.idle = 0) ∧
     (regL0.sys.recovery = false) ∧
     ((0#64).getLsbD 16 = false) ∧
     (regL0.tenantSlot 5 = some tenX1) ∧
     (∀ e ∈ regL0.ctxs, e.2.st = CtxSt.free ∨ e.2.tenant ≠ BitVec.toNat tenX1.reg % 2 ^ 16)) :=
  by
  refine ⟨?_, ?_, ?_, ?_, ?_, ?_, ?_, ?_, ?_⟩ <;>
    decide +kernel

def objOf : SvObj := { st := 1, fmt := 10, nq := 5, base := 0x20000, map := [0, 1, 2, 3, 4], qseq := 2 ^ 32 - 1 }
def svCmd (major fn w0 : Nat) : Cmd := { id := 9, key := 0, ctx := 0, pos := 6, major, fn, w := [BitVec.ofNat 64 w0, BitVec.ofNat 64 (2 ^ 56)], st := .running, caps := [cap 0x40000] }
def svS (m : Cmd) (o : Option SvObj) (d : List Nat) : State :=
  let s := { lab 0 [] with cmds := [m], nextId := 20 }
  let s1 := match o with
    | some o => s.svPut 0 0 o
    | none => s
  (List.range 8).foldl (fun s i => s.vwrN 0 (0x40000 + 8 * i) 8 (d.getD i 0)) s1
def hGate : List Nat := [0x3F3504F3, 0x3F3504F3, 0x3F3504F3, 0xBF3504F3]
def withAmps (s : State) : State := { s with mem := (List.range 32).foldl (fun m i => wrBytes m (0x20000 + 8 * i) (bytesOf 8 (0x3F000000 + i * 0x10000 + 2 ^ 32 * (0xBE800000 + i * 0x4000)))) s.mem }
def svAmps : List Amp := (List.range 32).map fun i => (0x3F000000 + i * 0x10000 + 2 ^ 32 * (0xBE800000 + i * 0x4000), i == 5)
def svUs : List (List (Ex × Ex)) := List.singleton <| (List.range 4).map fun i => (.fin (i % 2 == 1) (i + 1) (-3), .fin false (3 * i) (-4))
def svM0 : Cmd := svCmd 18 2 (2 ^ 16 * 1 + 2 ^ 22 * 3)
def svM1 : Cmd := svCmd 18 2 (2 ^ 16 * 1 + 2 ^ 22 * 5)
def svM2 : Cmd := svCmd 18 2 1
def svM3 : Cmd := svCmd 18 2 2
def svM4 : Cmd := svCmd 16 1 0
def svM5 : Cmd := svCmd 15 0 0
def svM6 : Cmd := svCmd 16 1 (2 ^ 16 * 1)
def svM7 : Cmd := svCmd 17 1 (2 ^ 16 * 2)
def svM8 : Cmd := svCmd 19 1 (2 ^ 16 * 3)
def svM9 : Cmd := svCmd 16 1 (2 ^ 16 * 7)
def svM10 : Cmd := svCmd 16 3 (2 ^ 16 * 1 + 2 ^ 22 * 3 + 2 ^ 28 * 2)
def svM11 : Cmd := svCmd 19 17 (2 ^ 16 * 3)
def svM12 : Cmd := svCmd 15 16 0
def svL0 : State := svS (svCmd 18 2 (2 ^ 16 * 1 + 2 ^ 22 * 3)) (some objOf) []
def svL1 : State := svS (svCmd 18 2 (2 ^ 16 * 1 + 2 ^ 22 * 5)) (some objOf) []
def svL2 : State := svS (svCmd 18 2 1) none []
def svL3 : State := svS (svCmd 18 2 2) none []
def svL4 : State := svS (svCmd 16 1 0) (some { objOf with st := 2 }) []
def svL5 : State := svS (svCmd 15 0 0) none [2 ^ 31]
def svL6 : State := svS (svCmd 15 0 0) (some objOf) [2 ^ 31]
def svL7 : State := svS (svCmd 15 0 0) none [10 + 16 * 5, 0x20008]
def svL8 : State := { svS (svCmd 16 1 0) (some objOf) [] with qcmds := [(8, 0, 0)] }
def svL9 : State := withAmps (svS svM6 (some objOf) hGate)
def svL10 : State := withAmps (svS svM7 (some objOf) [0x3F800000, 0x3F3504F33F3504F3])
def svL11 : State := withAmps (svS svM8 (some objOf) [])
def svL12 : State := withAmps (svS svM9 (some objOf) hGate)
def svL13 : State := withAmps (svS svM10 (some { objOf with dieb := 3 }) hGate)
def svL14 : State := withAmps (svS svM11 (some objOf) [42, 65537])
def svL15 : State := withAmps (svS svM6 (some { objOf with base := 0x80000000 }) hGate)
def svL16 : State := (withAmps (svS svM6 (some objOf) hGate)).setTag 0x20000 4
def svL17 : State := svS (svCmd 15 0 0) none [10 + 16 * 5, 0x20000]
def svL18 : State := svS (svCmd 15 0 0) none [10 + 16 * 5, 0x80000000]
def svL19 : State := svS svM12 none [10 + 16 * 5, 0x20000]

theorem witness_StateVectorSteps_1 :
    ((svL8.cmd? 9 = some svM4) ∧
     (svM4.pos = 6) ∧
     (15 ≤ svM4.major) ∧
     (svM4.major ≤ 19) ∧
     (svM4.st = CmdSt.running) ∧
     (∀ q ∈ svL8.qcmds, q.1 ≠ 9) ∧
     (svL8.clean 9 = true) ∧
     (svL8.capsOwed svM4 = false) ∧
     (let n := svNum (svM4.w.getD 0 0); ∃ x ∈ svL8.qcmds, x.2.1 = svM4.ctx ∧ x.2.2 = n)) ∧
    ((svL3.cmd? 9 = some svM3) ∧
     (svM3.pos = 6) ∧
     (15 ≤ svM3.major) ∧
     (svM3.major ≤ 19) ∧
     (svM3.st = CmdSt.running) ∧
     (∀ q ∈ svL3.qcmds, q.1 ≠ 9) ∧
     (svL3.clean 9 = true) ∧
     (svL3.capsOwed svM3 = false) ∧
     (let n := svNum (svM3.w.getD 0 0); (∀ x ∈ svL3.qcmds, x.2.1 ≠ svM3.ctx ∨ x.2.2 ≠ n) ∧ svL3.cword svM3.ctx 160 ≤ n)) ∧
    ((svL4.cmd? 9 = some svM4) ∧
     (svM4.pos = 6) ∧
     (15 ≤ svM4.major) ∧
     (svM4.major ≤ 19) ∧
     (svM4.st = CmdSt.running) ∧
     (∀ q ∈ svL4.qcmds, q.1 ≠ 9) ∧
     (svL4.clean 9 = true) ∧
     (svL4.capsOwed svM4 = false) ∧
     (svM4.major ≠ 15) ∧
     (let n := svNum (svM4.w.getD 0 0); let o := svL4.svGet svM4.ctx n; (∀ x ∈ svL4.qcmds, x.2.1 ≠ svM4.ctx ∨ x.2.2 ≠ n) ∧ n < svL4.cword svM4.ctx 160 ∧ o.st = 2)) ∧
    ((svL2.cmd? 9 = some svM2) ∧
     (svM2.pos = 6) ∧
     (15 ≤ svM2.major) ∧
     (svM2.major ≤ 19) ∧
     (svM2.st = CmdSt.running) ∧
     (∀ q ∈ svL2.qcmds, q.1 ≠ 9) ∧
     (svL2.clean 9 = true) ∧
     (svL2.capsOwed svM2 = false) ∧
     (svM2.major ≠ 15) ∧
     (let n := svNum (svM2.w.getD 0 0); let o := svL2.svGet svM2.ctx n; (∀ x ∈ svL2.qcmds, x.2.1 ≠ svM2.ctx ∨ x.2.2 ≠ n) ∧ n < svL2.cword svM2.ctx 160 ∧ o.st ≠ 1 ∧ o.st ≠ 2)) ∧
    ((svL1.cmd? 9 = some svM1) ∧
     (svM1.pos = 6) ∧
     (15 ≤ svM1.major) ∧
     (svM1.major ≤ 19) ∧
     (svM1.st = CmdSt.running) ∧
     (∀ q ∈ svL1.qcmds, q.1 ≠ 9) ∧
     (svL1.clean 9 = true) ∧
     (svL1.capsOwed svM1 = false) ∧
     (svM1.major = 18) ∧
     (svN svM1.fn = 2) ∧
     (let n := svNum (svM1.w.getD 0 0); let o := svL1.svGet svM1.ctx n; let q := fun i => svQubit (svM1.w.getD 0 0) i; (∀ x ∈ svL1.qcmds, x.2.1 ≠ svM1.ctx ∨ x.2.2 ≠ n) ∧ n < svL1.cword svM1.ctx 160 ∧ o.st = 1 ∧ (o.nq ≤ q 0 ∨ o.nq ≤ q 1))) ∧
    ((svL5.cmd? 9 = some svM5) ∧
     (svM5.pos = 6) ∧
     (15 ≤ svM5.major) ∧
     (svM5.major ≤ 19) ∧
     (svM5.st = CmdSt.running) ∧
     (∀ q ∈ svL5.qcmds, q.1 ≠ 9) ∧
     (svL5.clean 9 = true) ∧
     (svL5.capsOwed svM5 = false) ∧
     (svM5.major = 15) ∧
     (let n := svNum (svM5.w.getD 0 0); let o := svL5.svGet svM5.ctx n; let cap := svM5.caps.getD 0 { va := 0, pa := 0, base := 0, size := 0, tens := none : Cap }; let e := svL5.engineRead svM5 cap 64; let w := fun i => wordOf e.1 (8 * i); (∀ x ∈ svL5.qcmds, x.2.1 ≠ svM5.ctx ∨ x.2.2 ≠ n) ∧ n < svL5.cword svM5.ctx 160 ∧ (w 0).testBit 31 = true ∧ o.st = 0)) ∧
    ((svL7.cmd? 9 = some svM5) ∧
     (svM5.pos = 6) ∧
     (15 ≤ svM5.major) ∧
     (svM5.major ≤ 19) ∧
     (svM5.st = CmdSt.running) ∧
     (∀ q ∈ svL7.qcmds, q.1 ≠ 9) ∧
     (svL7.clean 9 = true) ∧
     (svL7.capsOwed svM5 = false) ∧
     (svM5.major = 15) ∧
     (let n := svNum (svM5.w.getD 0 0); let cap := svM5.caps.getD 0 { va := 0, pa := 0, base := 0, size := 0, tens := none : Cap }; let e := svL7.engineRead svM5 cap 64; let w := fun i => wordOf e.1 (8 * i); (∀ x ∈ svL7.qcmds, x.2.1 ≠ svM5.ctx ∨ x.2.2 ≠ n) ∧ n < svL7.cword svM5.ctx 160 ∧ (w 0).testBit 31 = false ∧ (w 0 % 16 ≠ 10 ∧ w 0 % 16 ≠ 11 ∨ w 0 / 1024 % 4 = 3 ∨ w 1 % 4096 ≠ 0 ∨ w 2 ≠ 0))) :=
  by
  refine ⟨?_, ?_, ?_, ?_, ?_, ?_, ?_⟩ <;>
    decide +kernel

theorem witness_StateVectorSteps_2 :
    ((svL6.cmd? 9 = some svM5) ∧
     (svM5.pos = 6) ∧
     (15 ≤ svM5.major) ∧
     (svM5.major ≤ 19) ∧
     (svM5.st = CmdSt.running) ∧
     (∀ q ∈ svL6.qcmds, q.1 ≠ 9) ∧
     (svL6.clean 9 = true) ∧
     (svL6.capsOwed svM5 = false) ∧
     (svM5.major = 15) ∧
     (let n := svNum (svM5.w.getD 0 0); let o := svL6.svGet svM5.ctx n; let cap := svM5.caps.getD 0 { va := 0, pa := 0, base := 0, size := 0, tens := none : Cap }; let e := svL6.engineRead svM5 cap 64; let w := fun i => wordOf e.1 (8 * i); (∀ x ∈ svL6.qcmds, x.2.1 ≠ svM5.ctx ∨ x.2.2 ≠ n) ∧ n < svL6.cword svM5.ctx 160 ∧ (w 0).testBit 31 = true ∧ o.st ≠ 0 ∧ e.2.2.clean 9 = true)) ∧
    ((svL18.cmd? 9 = some svM5) ∧
     (svM5.pos = 6) ∧
     (15 ≤ svM5.major) ∧
     (svM5.major ≤ 19) ∧
     (svM5.st = CmdSt.running) ∧
     (∀ q ∈ svL18.qcmds, q.1 ≠ 9) ∧
     (svL18.clean 9 = true) ∧
     (svL18.capsOwed svM5 = false) ∧
     (svM5.major = 15) ∧
     (let n := svNum (svM5.w.getD 0 0); let cap := svM5.caps.getD 0 { va := 0, pa := 0, base := 0, size := 0, tens := none : Cap }; let e := svL18.engineRead svM5 cap 64; let w := fun i => wordOf e.1 (8 * i); (∀ x ∈ svL18.qcmds, x.2.1 ≠ svM5.ctx ∨ x.2.2 ≠ n) ∧ n < svL18.cword svM5.ctx 160 ∧ (w 0).testBit 31 = false ∧ e.2.2.svCreate svM5.ctx (List.map w (List.range 8)) = some { st := 1, fmt := 10, nq := 5, base := 2147483648, map := [0, 1, 2, 3, 4] : SvObj } ∧ e.2.2.svPages svM5 { st := 1, fmt := 10, nq := 5, base := 2147483648, map := [0, 1, 2, 3, 4] : SvObj }.base { st := 1, fmt := 10, nq := 5, base := 2147483648, map := [0, 1, 2, 3, 4] : SvObj }.bytes true = none)) ∧
    ((svL19.cmd? 9 = some svM12) ∧
     (svM12.pos = 6) ∧
     (15 ≤ svM12.major) ∧
     (svM12.major ≤ 19) ∧
     (svM12.st = CmdSt.running) ∧
     (∀ q ∈ svL19.qcmds, q.1 ≠ 9) ∧
     (svL19.clean 9 = true) ∧
     (svL19.capsOwed svM12 = false) ∧
     (svM12.major = 15) ∧
     (svM12.fn = 16) ∧
     (let n := svNum (svM12.w.getD 0 0); let cap := svM12.caps.getD 0 { va := 0, pa := 0, base := 0, size := 0, tens := none : Cap }; let e := svL19.engineRead svM12 cap 64; let w := fun i => wordOf e.1 (8 * i); (∀ x ∈ svL19.qcmds, x.2.1 ≠ svM12.ctx ∨ x.2.2 ≠ n) ∧ n < svL19.cword svM12.ctx 160 ∧ (w 0).testBit 31 = false ∧ e.2.2.svCreate svM12.ctx (List.map w (List.range 8)) = some { st := 1, fmt := 10, nq := 5, base := 131072, map := [0, 1, 2, 3, 4] : SvObj } ∧ e.2.2.svPages svM12 { st := 1, fmt := 10, nq := 5, base := 131072, map := [0, 1, 2, 3, 4] : SvObj }.base { st := 1, fmt := 10, nq := 5, base := 131072, map := [0, 1, 2, 3, 4] : SvObj }.bytes true = some [{ va := 131072, pa := 131072, base := 0, size := 2097152, tens := none : Cap }])) ∧
    ((svL17.cmd? 9 = some svM5) ∧
     (svM5.pos = 6) ∧
     (15 ≤ svM5.major) ∧
     (svM5.major ≤ 19) ∧
     (svM5.st = CmdSt.running) ∧
     (∀ q ∈ svL17.qcmds, q.1 ≠ 9) ∧
     (svL17.clean 9 = true) ∧
     (svL17.capsOwed svM5 = false) ∧
     (svM5.major = 15) ∧
     (svM5.fn = 0) ∧
     (let n := svNum (svM5.w.getD 0 0); let cap := svM5.caps.getD 0 { va := 0, pa := 0, base := 0, size := 0, tens := none : Cap }; let e := svL17.engineRead svM5 cap 64; let w := fun i => wordOf e.1 (8 * i); (∀ x ∈ svL17.qcmds, x.2.1 ≠ svM5.ctx ∨ x.2.2 ≠ n) ∧ n < svL17.cword svM5.ctx 160 ∧ (w 0).testBit 31 = false ∧ e.2.2.svCreate svM5.ctx (List.map w (List.range 8)) = some { st := 1, fmt := 10, nq := 5, base := 131072, map := [0, 1, 2, 3, 4] : SvObj } ∧ e.2.2.svPages svM5 { st := 1, fmt := 10, nq := 5, base := 131072, map := [0, 1, 2, 3, 4] : SvObj }.base { st := 1, fmt := 10, nq := 5, base := 131072, map := [0, 1, 2, 3, 4] : SvObj }.bytes true = some [{ va := 131072, pa := 131072, base := 0, size := 2097152, tens := none : Cap }])) ∧
    ((svL0.cmd? 9 = some svM0) ∧
     (svM0.pos = 6) ∧
     (15 ≤ svM0.major) ∧
     (svM0.major ≤ 19) ∧
     (svM0.st = CmdSt.running) ∧
     (∀ q ∈ svL0.qcmds, q.1 ≠ 9) ∧
     (svL0.clean 9 = true) ∧
     (svL0.capsOwed svM0 = false) ∧
     (svM0.major = 18) ∧
     (svN svM0.fn = 2) ∧
     (let n := svNum (svM0.w.getD 0 0); let o := svL0.svGet svM0.ctx n; let q := fun i => svQubit (svM0.w.getD 0 0) i; (∀ x ∈ svL0.qcmds, x.2.1 ≠ svM0.ctx ∨ x.2.2 ≠ n) ∧ n < svL0.cword svM0.ctx 160 ∧ o.st = 1 ∧ o.chipb = 0 ∧ q 0 < o.nq ∧ q 1 < o.nq ∧ o.map.Nodup)) ∧
    ((svL14.cmd? 9 = some svM11) ∧
     (svM11.pos = 6) ∧
     (15 ≤ svM11.major) ∧
     (svM11.major ≤ 19) ∧
     (svM11.st = CmdSt.running) ∧
     (∀ q ∈ svL14.qcmds, q.1 ≠ 9) ∧
     (svL14.clean 9 = true) ∧
     (svL14.capsOwed svM11 = false) ∧
     (svM11.major = 16 ∨ svM11.major = 17 ∨ svM11.major = 19) ∧
     (svM11.met = []) ∧
     (let n := svNum (svM11.w.getD 0 0); let o := svL14.svGet svM11.ctx n; let cap := svM11.caps.getD 0 { va := 0, pa := 0, base := 0, size := 0, tens := none : Cap }; let k := svN svM11.fn; let d := if svM11.major = 16 then o.e * 4 ^ k else if svM11.major = 17 then o.e * 2 ^ k else 0; let sa := svL14.engineRead svM11 cap 16; let smp := svM11.major = 19 ∧ svM11.fn / 16 = 1; let m0 := if smp then { id := svM11.id, key := svM11.key, ctx := svM11.ctx, pos := svM11.pos, major := svM11.major, fn := svM11.fn, w := List.take 2 svM11.w ++ [BitVec.ofNat 64 (wordOf sa.1 0), BitVec.ofNat 64 (wordOf sa.1 8)], caps := svM11.caps, waits := svM11.waits, before := svM11.before, since := svM11.since, baddr := svM11.baddr, runner := svM11.runner, cid := svM11.cid, st := svM11.st, due := svM11.due, row := svM11.row, kind := svM11.kind, hash := svM11.hash, viol := svM11.viol, buf := svM11.buf, aux := svM11.aux, held := svM11.held, met := svM11.met : Cmd } else svM11; let cnt := BitVec.toNat (m0.w.getD 3 0) % 2 ^ 32; let bad := d ≠ 0 ∧ ((cap.pa - cap.base) % d ≠ 0 ∨ cap.size < cap.pa - cap.base + d) ∨ smp ∧ (65536 < cnt ∨ cap.size < cap.pa - cap.base + 64 + 8 * 2 ^ k + cnt); (∀ x ∈ svL14.qcmds, x.2.1 ≠ svM11.ctx ∨ x.2.2 ≠ n) ∧ n < svL14.cword svM11.ctx 160 ∧ o.st = 1 ∧ o.chipb = 0 ∧ bad)) ∧
    ((svL12.cmd? 9 = some svM9) ∧
     (svM9.pos = 6) ∧
     (15 ≤ svM9.major) ∧
     (svM9.major ≤ 19) ∧
     (svM9.st = CmdSt.running) ∧
     (∀ q ∈ svL12.qcmds, q.1 ≠ 9) ∧
     (svL12.clean 9 = true) ∧
     (svL12.capsOwed svM9 = false) ∧
     (svM9.major = 16 ∨ svM9.major = 17 ∨ svM9.major = 19) ∧
     (svM9.met = []) ∧
     (let n := svNum (svM9.w.getD 0 0); let o := svL12.svGet svM9.ctx n; let q := fun i => svQubit (svM9.w.getD 0 0) i; let cap := svM9.caps.getD 0 { va := 0, pa := 0, base := 0, size := 0, tens := none : Cap }; let k := svN svM9.fn; let qs := List.map q (List.range k); let d := if svM9.major = 16 then o.e * 4 ^ k else if svM9.major = 17 then o.e * 2 ^ k else 0; let sa := svL12.engineRead svM9 cap 16; let smp := svM9.major = 19 ∧ svM9.fn / 16 = 1; let m0 := if smp then { id := svM9.id, key := svM9.key, ctx := svM9.ctx, pos := svM9.pos, major := svM9.major, fn := svM9.fn, w := List.take 2 svM9.w ++ [BitVec.ofNat 64 (wordOf sa.1 0), BitVec.ofNat 64 (wordOf sa.1 8)], caps := svM9.caps, waits := svM9.waits, before := svM9.before, since := svM9.since, baddr := svM9.baddr, runner := svM9.runner, cid := svM9.cid, st := svM9.st, due := svM9.due, row := svM9.row, kind := svM9.kind, hash := svM9.hash, viol := svM9.viol, buf := svM9.buf, aux := svM9.aux, held := svM9.held, met := svM9.met : Cmd } else svM9; let cnt := BitVec.toNat (m0.w.getD 3 0) % 2 ^ 32; let bad := d ≠ 0 ∧ ((cap.pa - cap.base) % d ≠ 0 ∨ cap.size < cap.pa - cap.base + d) ∨ smp ∧ (65536 < cnt ∨ cap.size < cap.pa - cap.base + 64 + 8 * 2 ^ k + cnt); (∀ x ∈ svL12.qcmds, x.2.1 ≠ svM9.ctx ∨ x.2.2 ≠ n) ∧ n < svL12.cword svM9.ctx 160 ∧ o.st = 1 ∧ o.chipb = 0 ∧ ¬bad ∧ ∃ x ∈ qs, o.nq ≤ x)) :=
  by
  refine ⟨?_, ?_, ?_, ?_, ?_, ?_, ?_⟩ <;>
    decide +kernel

theorem witness_StateVectorSteps_3 :
    ((svL13.cmd? 9 = some svM10) ∧
     (svM10.pos = 6) ∧
     (15 ≤ svM10.major) ∧
     (svM10.major ≤ 19) ∧
     (svM10.st = CmdSt.running) ∧
     (∀ q ∈ svL13.qcmds, q.1 ≠ 9) ∧
     (svL13.clean 9 = true) ∧
     (svL13.capsOwed svM10 = false) ∧
     (svM10.major = 16 ∨ svM10.major = 17 ∨ svM10.major = 19) ∧
     (svM10.met = []) ∧
     (svM10.major = 16) ∧
     (let n := svNum (svM10.w.getD 0 0); let o := svL13.svGet svM10.ctx n; let q := fun i => svQubit (svM10.w.getD 0 0) i; let cap := svM10.caps.getD 0 { va := 0, pa := 0, base := 0, size := 0, tens := none : Cap }; let k := svN svM10.fn; let qs := List.map q (List.range k); let d := if svM10.major = 16 then o.e * 4 ^ k else if svM10.major = 17 then o.e * 2 ^ k else 0; let sa := svL13.engineRead svM10 cap 16; let smp := svM10.major = 19 ∧ svM10.fn / 16 = 1; let m0 := if smp then { id := svM10.id, key := svM10.key, ctx := svM10.ctx, pos := svM10.pos, major := svM10.major, fn := svM10.fn, w := List.take 2 svM10.w ++ [BitVec.ofNat 64 (wordOf sa.1 0), BitVec.ofNat 64 (wordOf sa.1 8)], caps := svM10.caps, waits := svM10.waits, before := svM10.before, since := svM10.since, baddr := svM10.baddr, runner := svM10.runner, cid := svM10.cid, st := svM10.st, due := svM10.due, row := svM10.row, kind := svM10.kind, hash := svM10.hash, viol := svM10.viol, buf := svM10.buf, aux := svM10.aux, held := svM10.held, met := svM10.met : Cmd } else svM10; let cnt := BitVec.toNat (m0.w.getD 3 0) % 2 ^ 32; let bad := d ≠ 0 ∧ ((cap.pa - cap.base) % d ≠ 0 ∨ cap.size < cap.pa - cap.base + d) ∨ smp ∧ (65536 < cnt ∨ cap.size < cap.pa - cap.base + 64 + 8 * 2 ^ k + cnt); (∀ x ∈ svL13.qcmds, x.2.1 ≠ svM10.ctx ∨ x.2.2 ≠ n) ∧ n < svL13.cword svM10.ctx 160 ∧ o.st = 1 ∧ o.chipb = 0 ∧ ¬bad ∧ (∀ x ∈ qs, x < o.nq) ∧ o.loc < k)) ∧
    ((svL15.cmd? 9 = some svM6) ∧
     (svM6.pos = 6) ∧
     (15 ≤ svM6.major) ∧
     (svM6.major ≤ 19) ∧
     (svM6.st = CmdSt.running) ∧
     (∀ q ∈ svL15.qcmds, q.1 ≠ 9) ∧
     (svL15.clean 9 = true) ∧
     (svL15.capsOwed svM6 = false) ∧
     (svM6.major = 16 ∨ svM6.major = 17 ∨ svM6.major = 19) ∧
     (svM6.met = []) ∧
     (let n := svNum (svM6.w.getD 0 0); let o := svL15.svGet svM6.ctx n; let q := fun i => svQubit (svM6.w.getD 0 0) i; let cap := svM6.caps.getD 0 { va := 0, pa := 0, base := 0, size := 0, tens := none : Cap }; let k := svN svM6.fn; let qs := List.map q (List.range k); let d := if svM6.major = 16 then o.e * 4 ^ k else if svM6.major = 17 then o.e * 2 ^ k else 0; let sa := svL15.engineRead svM6 cap 16; let smp := svM6.major = 19 ∧ svM6.fn / 16 = 1; let s0 := if smp then sa.2.2 else svL15; let m0 := if smp then { id := svM6.id, key := svM6.key, ctx := svM6.ctx, pos := svM6.pos, major := svM6.major, fn := svM6.fn, w := List.take 2 svM6.w ++ [BitVec.ofNat 64 (wordOf sa.1 0), BitVec.ofNat 64 (wordOf sa.1 8)], caps := svM6.caps, waits := svM6.waits, before := svM6.before, since := svM6.since, baddr := svM6.baddr, runner := svM6.runner, cid := svM6.cid, st := svM6.st, due := svM6.due, row := svM6.row, kind := svM6.kind, hash := svM6.hash, viol := svM6.viol, buf := svM6.buf, aux := svM6.aux, held := svM6.held, met := svM6.met : Cmd } else svM6; let cnt := BitVec.toNat (m0.w.getD 3 0) % 2 ^ 32; let bad := d ≠ 0 ∧ ((cap.pa - cap.base) % d ≠ 0 ∨ cap.size < cap.pa - cap.base + d) ∨ smp ∧ (65536 < cnt ∨ cap.size < cap.pa - cap.base + 64 + 8 * 2 ^ k + cnt); (∀ x ∈ svL15.qcmds, x.2.1 ≠ svM6.ctx ∨ x.2.2 ≠ n) ∧ n < svL15.cword svM6.ctx 160 ∧ o.st = 1 ∧ o.chipb = 0 ∧ ¬bad ∧ (∀ x ∈ qs, x < o.nq) ∧ (svM6.major = 16 → k ≤ o.loc) ∧ s0.svPages m0 o.base o.bytes (svM6.major != 19) = none)) ∧
    ((svL16.cmd? 9 = some svM6) ∧
     (svM6.pos = 6) ∧
     (15 ≤ svM6.major) ∧
     (svM6.major ≤ 19) ∧
     (svM6.st = CmdSt.running) ∧
     (∀ q ∈ svL16.qcmds, q.1 ≠ 9) ∧
     (svL16.clean 9 = true) ∧
     (svL16.capsOwed svM6 = false) ∧
     (svM6.major = 16 ∨ svM6.major = 17 ∨ svM6.major = 19) ∧
     (svM6.met = []) ∧
     (let n := svNum (svM6.w.getD 0 0); let o := svL16.svGet svM6.ctx n; let q := fun i => svQubit (svM6.w.getD 0 0) i; let cap := svM6.caps.getD 0 { va := 0, pa := 0, base := 0, size := 0, tens := none : Cap }; let k := svN svM6.fn; let qs := List.map q (List.range k); let d := if svM6.major = 16 then o.e * 4 ^ k else if svM6.major = 17 then o.e * 2 ^ k else 0; let sa := svL16.engineRead svM6 cap 16; let smp := svM6.major = 19 ∧ svM6.fn / 16 = 1; let s0 := if smp then sa.2.2 else svL16; let m0 := if smp then { id := svM6.id, key := svM6.key, ctx := svM6.ctx, pos := svM6.pos, major := svM6.major, fn := svM6.fn, w := List.take 2 svM6.w ++ [BitVec.ofNat 64 (wordOf sa.1 0), BitVec.ofNat 64 (wordOf sa.1 8)], caps := svM6.caps, waits := svM6.waits, before := svM6.before, since := svM6.since, baddr := svM6.baddr, runner := svM6.runner, cid := svM6.cid, st := svM6.st, due := svM6.due, row := svM6.row, kind := svM6.kind, hash := svM6.hash, viol := svM6.viol, buf := svM6.buf, aux := svM6.aux, held := svM6.held, met := svM6.met : Cmd } else svM6; let cnt := BitVec.toNat (m0.w.getD 3 0) % 2 ^ 32; let bad := d ≠ 0 ∧ ((cap.pa - cap.base) % d ≠ 0 ∨ cap.size < cap.pa - cap.base + d) ∨ smp ∧ (65536 < cnt ∨ cap.size < cap.pa - cap.base + 64 + 8 * 2 ^ k + cnt); let g := s0.engineRead m0 cap d; let m1 := { id := m0.id, key := m0.key, ctx := m0.ctx, pos := m0.pos, major := m0.major, fn := m0.fn, w := m0.w, caps := [cap, { va := 131072, pa := 131072, base := 0, size := 2097152, tens := none : Cap }], waits := m0.waits, before := m0.before, since := m0.since, baddr := m0.baddr, runner := m0.runner, cid := m0.cid, st := m0.st, due := m0.due, row := m0.row, kind := m0.kind, hash := g.1, viol := m0.viol, buf := m0.buf, aux := 0 :: 0 :: o.map, held := m0.held, met := m0.met : Cmd }; let r := (have __src := g.2.2.modCmd 9 fun x => m1; { gcyc := __src.gcyc, cur := __src.cur, turn := __src.turn, agenda := __src.agenda, fresh := __src.fresh, nextId := __src.nextId, thr := __src.thr, mem := __src.mem, tags := __src.tags, frames := __src.frames, ftags := __src.ftags, unjoined := __src.unjoined, l1 := __src.l1, hostLines := __src.hostLines, dir := __src.dir, l2 := __src.l2, icache := __src.icache, xcache := __src.xcache, spCache := __src.spCache, corrected := __src.corrected, reqs := __src.reqs, debts := __src.debts, passed := __src.passed, signals := __src.signals, shoot := __src.shoot, shootDone := __src.shootDone, cmds := __src.cmds, recs := __src.recs, deltas := __src.deltas, cached := __src.cached, installs := __src.installs, posts := __src.posts, barUpds := __src.barUpds, barLine := __src.barLine, barSeen := __src.barSeen, chans := __src.chans, grps := __src.grps, colls := __src.colls, quar := __src.quar, qcmds := g.2.2.qcmds ++ [(9, svM6.ctx, n)], pages := __src.pages, bounce := __src.bounce, gated := __src.gated, tasks := __src.tasks, occ := __src.occ, reuse := __src.reuse, watchCnt := __src.watchCnt, tenants := __src.tenants, saved := __src.saved, ctxs := __src.ctxs, links := __src.links, fab := __src.fab, sys := __src.sys, pmc := __src.pmc, pmsel := __src.pmsel, pmcSkip := __src.pmcSkip, pmcPend := __src.pmcPend, copyParks := __src.copyParks : State }).svRead m1 o fun x => true; (∀ x ∈ svL16.qcmds, x.2.1 ≠ svM6.ctx ∨ x.2.2 ≠ n) ∧ n < svL16.cword svM6.ctx 160 ∧ o.st = 1 ∧ o.chipb = 0 ∧ ¬bad ∧ (∀ x ∈ qs, x < o.nq) ∧ (svM6.major = 16 → k ≤ o.loc) ∧ s0.svPages m0 o.base o.bytes (svM6.major != 19) = some [{ va := 131072, pa := 131072, base := 0, size := 2097152, tens := none : Cap }] ∧ (svM6.major = 16 → ∀ x ∈ qs, o.map.getD x 0 < o.loc) ∧ r.2.1 ≠ [])) ∧
    ((svL9.cmd? 9 = some svM6) ∧
     (svM6.pos = 6) ∧
     (15 ≤ svM6.major) ∧
     (svM6.major ≤ 19) ∧
     (svM6.st = CmdSt.running) ∧
     (∀ q ∈ svL9.qcmds, q.1 ≠ 9) ∧
     (svL9.clean 9 = true) ∧
     (svL9.capsOwed svM6 = false) ∧
     (svM6.major = 16 ∨ svM6.major = 17 ∨ svM6.major = 19) ∧
     (svM6.met = []) ∧
     (svM6.major = 16) ∧
     (let n := svNum (svM6.w.getD 0 0); let o := svL9.svGet svM6.ctx n; let q := fun i => svQubit (svM6.w.getD 0 0) i; let cap := svM6.caps.getD 0 { va := 0, pa := 0, base := 0, size := 0, tens := none : Cap }; let k := svN svM6.fn; let qs := List.map q (List.range k); let d := if svM6.major = 16 then o.e * 4 ^ k else if svM6.major = 17 then o.e * 2 ^ k else 0; let sa := svL9.engineRead svM6 cap 16; let smp := svM6.major = 19 ∧ svM6.fn / 16 = 1; let s0 := if smp then sa.2.2 else svL9; let m0 := if smp then { id := svM6.id, key := svM6.key, ctx := svM6.ctx, pos := svM6.pos, major := svM6.major, fn := svM6.fn, w := List.take 2 svM6.w ++ [BitVec.ofNat 64 (wordOf sa.1 0), BitVec.ofNat 64 (wordOf sa.1 8)], caps := svM6.caps, waits := svM6.waits, before := svM6.before, since := svM6.since, baddr := svM6.baddr, runner := svM6.runner, cid := svM6.cid, st := svM6.st, due := svM6.due, row := svM6.row, kind := svM6.kind, hash := svM6.hash, viol := svM6.viol, buf := svM6.buf, aux := svM6.aux, held := svM6.held, met := svM6.met : Cmd } else svM6; let cnt := BitVec.toNat (m0.w.getD 3 0) % 2 ^ 32; let bad := d ≠ 0 ∧ ((cap.pa - cap.base) % d ≠ 0 ∨ cap.size < cap.pa - cap.base + d) ∨ smp ∧ (65536 < cnt ∨ cap.size < cap.pa - cap.base + 64 + 8 * 2 ^ k + cnt); let g := s0.engineRead m0 cap d; let m1 := { id := m0.id, key := m0.key, ctx := m0.ctx, pos := m0.pos, major := m0.major, fn := m0.fn, w := m0.w, caps := [cap, { va := 131072, pa := 131072, base := 0, size := 2097152, tens := none : Cap }], waits := m0.waits, before := m0.before, since := m0.since, baddr := m0.baddr, runner := m0.runner, cid := m0.cid, st := m0.st, due := m0.due, row := m0.row, kind := m0.kind, hash := g.1, viol := m0.viol, buf := m0.buf, aux := 0 :: 0 :: o.map, held := m0.held, met := m0.met : Cmd }; let r := (have __src := g.2.2.modCmd 9 fun x => m1; { gcyc := __src.gcyc, cur := __src.cur, turn := __src.turn, agenda := __src.agenda, fresh := __src.fresh, nextId := __src.nextId, thr := __src.thr, mem := __src.mem, tags := __src.tags, frames := __src.frames, ftags := __src.ftags, unjoined := __src.unjoined, l1 := __src.l1, hostLines := __src.hostLines, dir := __src.dir, l2 := __src.l2, icache := __src.icache, xcache := __src.xcache, spCache := __src.spCache, corrected := __src.corrected, reqs := __src.reqs, debts := __src.debts, passed := __src.passed, signals := __src.signals, shoot := __src.shoot, shootDone := __src.shootDone, cmds := __src.cmds, recs := __src.recs, deltas := __src.deltas, cached := __src.cached, installs := __src.installs, posts := __src.posts, barUpds := __src.barUpds, barLine := __src.barLine, barSeen := __src.barSeen, chans := __src.chans, grps := __src.grps, colls := __src.colls, quar := __src.quar, qcmds := g.2.2.qcmds ++ [(9, svM6.ctx, n)], pages := __src.pages, bounce := __src.bounce, gated := __src.gated, tasks := __src.tasks, occ := __src.occ, reuse := __src.reuse, watchCnt := __src.watchCnt, tenants := __src.tenants, saved := __src.saved, ctxs := __src.ctxs, links := __src.links, fab := __src.fab, sys := __src.sys, pmc := __src.pmc, pmsel := __src.pmsel, pmcSkip := __src.pmcSkip, pmcPend := __src.pmcPend, copyParks := __src.copyParks : State }).svRead m1 o fun x => true; (∀ x ∈ svL9.qcmds, x.2.1 ≠ svM6.ctx ∨ x.2.2 ≠ n) ∧ n < svL9.cword svM6.ctx 160 ∧ o.st = 1 ∧ o.chipb = 0 ∧ ¬bad ∧ (∀ x ∈ qs, x < o.nq) ∧ (svM6.major = 16 → k ≤ o.loc) ∧ s0.svPages m0 o.base o.bytes (svM6.major != 19) = some [{ va := 131072, pa := 131072, base := 0, size := 2097152, tens := none : Cap }] ∧ (svM6.major = 16 → ∀ x ∈ qs, o.map.getD x 0 < o.loc) ∧ r.2.1 = [])) ∧
    ((svL10.cmd? 9 = some svM7) ∧
     (svM7.pos = 6) ∧
     (15 ≤ svM7.major) ∧
     (svM7.major ≤ 19) ∧
     (svM7.st = CmdSt.running) ∧
     (∀ q ∈ svL10.qcmds, q.1 ≠ 9) ∧
     (svL10.clean 9 = true) ∧
     (svL10.capsOwed svM7 = false) ∧
     (svM7.major = 16 ∨ svM7.major = 17 ∨ svM7.major = 19) ∧
     (svM7.met = []) ∧
     (svM7.major = 17) ∧
     (let n := svNum (svM7.w.getD 0 0); let o := svL10.svGet svM7.ctx n; let q := fun i => svQubit (svM7.w.getD 0 0) i; let cap := svM7.caps.getD 0 { va := 0, pa := 0, base := 0, size := 0, tens := none : Cap }; let k := svN svM7.fn; let qs := List.map q (List.range k); let d := if svM7.major = 16 then o.e * 4 ^ k else if svM7.major = 17 then o.e * 2 ^ k else 0; let sa := svL10.engineRead svM7 cap 16; let smp := svM7.major = 19 ∧ svM7.fn / 16 = 1; let s0 := if smp then sa.2.2 else svL10; let m0 := if smp then { id := svM7.id, key := svM7.key, ctx := svM7.ctx, pos := svM7.pos, major := svM7.major, fn := svM7.fn, w := List.take 2 svM7.w ++ [BitVec.ofNat 64 (wordOf sa.1 0), BitVec.ofNat 64 (wordOf sa.1 8)], caps := svM7.caps, waits := svM7.waits, before := svM7.before, since := svM7.since, baddr := svM7.baddr, runner := svM7.runner, cid := svM7.cid, st := svM7.st, due := svM7.due, row := svM7.row, kind := svM7.kind, hash := svM7.hash, viol := svM7.viol, buf := svM7.buf, aux := svM7.aux, held := svM7.held, met := svM7.met : Cmd } else svM7; let cnt := BitVec.toNat (m0.w.getD 3 0) % 2 ^ 32; let bad := d ≠ 0 ∧ ((cap.pa - cap.base) % d ≠ 0 ∨ cap.size < cap.pa - cap.base + d) ∨ smp ∧ (65536 < cnt ∨ cap.size < cap.pa - cap.base + 64 + 8 * 2 ^ k + cnt); let g := s0.engineRead m0 cap d; let m1 := { id := m0.id, key := m0.key, ctx := m0.ctx, pos := m0.pos, major := m0.major, fn := m0.fn, w := m0.w, caps := [cap, { va := 131072, pa := 131072, base := 0, size := 2097152, tens := none : Cap }], waits := m0.waits, before := m0.before, since := m0.since, baddr := m0.baddr, runner := m0.runner, cid := m0.cid, st := m0.st, due := m0.due, row := m0.row, kind := m0.kind, hash := g.1, viol := m0.viol, buf := m0.buf, aux := 0 :: 0 :: o.map, held := m0.held, met := m0.met : Cmd }; let r := (have __src := g.2.2.modCmd 9 fun x => m1; { gcyc := __src.gcyc, cur := __src.cur, turn := __src.turn, agenda := __src.agenda, fresh := __src.fresh, nextId := __src.nextId, thr := __src.thr, mem := __src.mem, tags := __src.tags, frames := __src.frames, ftags := __src.ftags, unjoined := __src.unjoined, l1 := __src.l1, hostLines := __src.hostLines, dir := __src.dir, l2 := __src.l2, icache := __src.icache, xcache := __src.xcache, spCache := __src.spCache, corrected := __src.corrected, reqs := __src.reqs, debts := __src.debts, passed := __src.passed, signals := __src.signals, shoot := __src.shoot, shootDone := __src.shootDone, cmds := __src.cmds, recs := __src.recs, deltas := __src.deltas, cached := __src.cached, installs := __src.installs, posts := __src.posts, barUpds := __src.barUpds, barLine := __src.barLine, barSeen := __src.barSeen, chans := __src.chans, grps := __src.grps, colls := __src.colls, quar := __src.quar, qcmds := g.2.2.qcmds ++ [(9, svM7.ctx, n)], pages := __src.pages, bounce := __src.bounce, gated := __src.gated, tasks := __src.tasks, occ := __src.occ, reuse := __src.reuse, watchCnt := __src.watchCnt, tenants := __src.tenants, saved := __src.saved, ctxs := __src.ctxs, links := __src.links, fab := __src.fab, sys := __src.sys, pmc := __src.pmc, pmsel := __src.pmsel, pmcSkip := __src.pmcSkip, pmcPend := __src.pmcPend, copyParks := __src.copyParks : State }).svRead m1 o fun x => true; (∀ x ∈ svL10.qcmds, x.2.1 ≠ svM7.ctx ∨ x.2.2 ≠ n) ∧ n < svL10.cword svM7.ctx 160 ∧ o.st = 1 ∧ o.chipb = 0 ∧ ¬bad ∧ (∀ x ∈ qs, x < o.nq) ∧ (svM7.major = 16 → k ≤ o.loc) ∧ s0.svPages m0 o.base o.bytes (svM7.major != 19) = some [{ va := 131072, pa := 131072, base := 0, size := 2097152, tens := none : Cap }] ∧ (svM7.major = 16 → ∀ x ∈ qs, o.map.getD x 0 < o.loc) ∧ r.2.1 = [])) ∧
    ((svL11.cmd? 9 = some svM8) ∧
     (svM8.pos = 6) ∧
     (15 ≤ svM8.major) ∧
     (svM8.major ≤ 19) ∧
     (svM8.st = CmdSt.running) ∧
     (∀ q ∈ svL11.qcmds, q.1 ≠ 9) ∧
     (svL11.clean 9 = true) ∧
     (svL11.capsOwed svM8 = false) ∧
     (svM8.major = 16 ∨ svM8.major = 17 ∨ svM8.major = 19) ∧
     (svM8.met = []) ∧
     (svM8.major = 19) ∧
     (let n := svNum (svM8.w.getD 0 0); let o := svL11.svGet svM8.ctx n; let q := fun i => svQubit (svM8.w.getD 0 0) i; let cap := svM8.caps.getD 0 { va := 0, pa := 0, base := 0, size := 0, tens := none : Cap }; let k := svN svM8.fn; let qs := List.map q (List.range k); let d := if svM8.major = 16 then o.e * 4 ^ k else if svM8.major = 17 then o.e * 2 ^ k else 0; let sa := svL11.engineRead svM8 cap 16; let smp := svM8.major = 19 ∧ svM8.fn / 16 = 1; let s0 := if smp then sa.2.2 else svL11; let m0 := if smp then { id := svM8.id, key := svM8.key, ctx := svM8.ctx, pos := svM8.pos, major := svM8.major, fn := svM8.fn, w := List.take 2 svM8.w ++ [BitVec.ofNat 64 (wordOf sa.1 0), BitVec.ofNat 64 (wordOf sa.1 8)], caps := svM8.caps, waits := svM8.waits, before := svM8.before, since := svM8.since, baddr := svM8.baddr, runner := svM8.runner, cid := svM8.cid, st := svM8.st, due := svM8.due, row := svM8.row, kind := svM8.kind, hash := svM8.hash, viol := svM8.viol, buf := svM8.buf, aux := svM8.aux, held := svM8.held, met := svM8.met : Cmd } else svM8; let cnt := BitVec.toNat (m0.w.getD 3 0) % 2 ^ 32; let bad := d ≠ 0 ∧ ((cap.pa - cap.base) % d ≠ 0 ∨ cap.size < cap.pa - cap.base + d) ∨ smp ∧ (65536 < cnt ∨ cap.size < cap.pa - cap.base + 64 + 8 * 2 ^ k + cnt); let g := s0.engineRead m0 cap d; let m1 := { id := m0.id, key := m0.key, ctx := m0.ctx, pos := m0.pos, major := m0.major, fn := m0.fn, w := m0.w, caps := [cap, { va := 131072, pa := 131072, base := 0, size := 2097152, tens := none : Cap }], waits := m0.waits, before := m0.before, since := m0.since, baddr := m0.baddr, runner := m0.runner, cid := m0.cid, st := m0.st, due := m0.due, row := m0.row, kind := m0.kind, hash := g.1, viol := m0.viol, buf := m0.buf, aux := 0 :: 0 :: o.map, held := m0.held, met := m0.met : Cmd }; let r := (have __src := g.2.2.modCmd 9 fun x => m1; { gcyc := __src.gcyc, cur := __src.cur, turn := __src.turn, agenda := __src.agenda, fresh := __src.fresh, nextId := __src.nextId, thr := __src.thr, mem := __src.mem, tags := __src.tags, frames := __src.frames, ftags := __src.ftags, unjoined := __src.unjoined, l1 := __src.l1, hostLines := __src.hostLines, dir := __src.dir, l2 := __src.l2, icache := __src.icache, xcache := __src.xcache, spCache := __src.spCache, corrected := __src.corrected, reqs := __src.reqs, debts := __src.debts, passed := __src.passed, signals := __src.signals, shoot := __src.shoot, shootDone := __src.shootDone, cmds := __src.cmds, recs := __src.recs, deltas := __src.deltas, cached := __src.cached, installs := __src.installs, posts := __src.posts, barUpds := __src.barUpds, barLine := __src.barLine, barSeen := __src.barSeen, chans := __src.chans, grps := __src.grps, colls := __src.colls, quar := __src.quar, qcmds := g.2.2.qcmds ++ [(9, svM8.ctx, n)], pages := __src.pages, bounce := __src.bounce, gated := __src.gated, tasks := __src.tasks, occ := __src.occ, reuse := __src.reuse, watchCnt := __src.watchCnt, tenants := __src.tenants, saved := __src.saved, ctxs := __src.ctxs, links := __src.links, fab := __src.fab, sys := __src.sys, pmc := __src.pmc, pmsel := __src.pmsel, pmcSkip := __src.pmcSkip, pmcPend := __src.pmcPend, copyParks := __src.copyParks : State }).svRead m1 o fun x => true; (∀ x ∈ svL11.qcmds, x.2.1 ≠ svM8.ctx ∨ x.2.2 ≠ n) ∧ n < svL11.cword svM8.ctx 160 ∧ o.st = 1 ∧ o.chipb = 0 ∧ ¬bad ∧ (∀ x ∈ qs, x < o.nq) ∧ (svM8.major = 16 → k ≤ o.loc) ∧ s0.svPages m0 o.base o.bytes (svM8.major != 19) = some [{ va := 131072, pa := 131072, base := 0, size := 2097152, tens := none : Cap }] ∧ (svM8.major = 16 → ∀ x ∈ qs, o.map.getD x 0 < o.loc) ∧ r.2.1 = [])) ∧
    ((0 < objOf.count) ∧
     (objOf.fmt = 10)) :=
  by
  refine ⟨?_, ?_, ?_, ?_, ?_, ?_, ?_⟩ <;>
    decide +kernel

theorem witness_StateVectorSteps_4 :
    ((0 < (let __src := objOf; { st := __src.st, fmt := 11, nq := __src.nq, dieb := __src.dieb, chipb := __src.chipb, group := __src.group, base := __src.base, exch := __src.exch, qseq := __src.qseq, map := __src.map : SvObj }).count ∧ (let __src := objOf; { st := __src.st, fmt := 11, nq := __src.nq, dieb := __src.dieb, chipb := __src.chipb, group := __src.group, base := __src.base, exch := __src.exch, qseq := __src.qseq, map := __src.map : SvObj }).fmt = 11)) ∧
    (([0].Nodup) ∧
     (0 < [0].length)) ∧
    (([0].Nodup) ∧
     (1 ∉ [0])) ∧
    ((0 < svAmps.length)) ∧
    ((Ex.nan.isNan = true ∨ Ex.nan.isInf = true ∨ Ex.nan.isZero = true)) ∧
    (((Ex.fin false 1 0).isNan = false) ∧
     ((Ex.fin false 1 0).isInf = false) ∧
     ((Ex.fin false 1 0).isZero = false) ∧
     (1 < [Ex.fin false 1 (-2), Ex.fin false 3 (-2)].length) ∧
     (let z := mix (BitVec.ofNat 64 (77 + (0 + 1) * mixG)); let below := fun k => ((Ex.fin false (BitVec.toNat z / 2 ^ 11) (-53)).mul (Ex.fin false 1 0)).ltv (exSum (List.take (k + 1) [Ex.fin false 1 (-2), Ex.fin false 3 (-2)])); below 1 = true ∧ ∀ j < 1, below j = false)) :=
  by
  refine ⟨?_, ?_, ?_, ?_, ?_, ?_⟩ <;>
    decide +kernel

/-- A bundle of one slot that names S5 as its broadcast port, at the place of partition 0. -/
def portLab (i : Instr) : State := turnLab 0 0 [(Header.port (placeOf i) 5).word.toNat, (encWord i).toNat]

/-- One instruction with code 60 for each statement that speaks of the broadcast port. -/
def ported : List Instr := [
  .vadd ⟨0, 0, 60, 2, 0, 0⟩, .vmul ⟨0, 7, 60, 2, 0, 0⟩, .vfma ⟨0, 6, 4, 60, 0, 0⟩, .vrcp ⟨0, 5, 60, 0, 0⟩, .vcvt ⟨0, 3, 60, 1, 0, 0⟩,
  .vcmp ⟨0, 2, 60, 3, 0, 0⟩, .vmts ⟨0, 1, 60, 0, 0⟩,
  .vred ⟨0, 2, 60, 3, 0, 0⟩, .vperm ⟨0, 2, 5, 60, 0⟩, .vrot ⟨0, 8, 60, 7, 0⟩,
  .acwr ⟨0, 60, 3, 1, 0⟩, .acsc ⟨0, 1, 60, 0⟩]

theorem witness_BroadcastPort : ∀ i ∈ ported,
    Fetched (portLab i) ((portLab i).begun 0) 0 (placeOf i) (Header.port (placeOf i) 5) i ∧ (Header.port (placeOf i) 5).be = true := by
  have h : (ported.all fun i => fetchedB (portLab i) 0 (placeOf i) 5 i && (Header.port (placeOf i) 5).be) = true := by decide +kernel
  intro i hi
  have h' := List.all_eq_true.1 h i hi
  simp only [Bool.and_eq_true] at h'
  exact ⟨fetched_of h'.1, h'.2⟩

/-- A frame line that is poisoned. -/
def badFrame : State := { lab 0 [] with ftags := [(0, 4)] }

/-- An issuer whose scratchpad address is 256. -/
def spLab : State := lab 0 [(4, 256), (3, 7)]

theorem witness_ScratchpadStoreBytes_all :
    ((lab 0 []).spFrame 0 0 56 = some 56 ∧ (∀ w ∈ (lab 0 []).unjoined, w.line < 0 ∨ 0 < w.line) ∧
      ∀ i, i < 8 → tagPsn ((lab 0 []).ftag (56 + i)) = false) ∧
    (Runs spLab 0 (.sts ⟨0, 3, 4, 0⟩) ∧
      (spLab.begun 0).spFrame 0 0 (((spLab.begun 0).th 0).s 4 + BitVec.ofInt 64 0).toNat = some 256) ∧
    (Runs spLab 0 (.stv ⟨0, 3, 4, 0⟩) ∧ (∀ w ∈ (spLab.begun 0).unjoined, w.line < 4 ∨ 7 < w.line) ∧
      ∀ i, i < 256 → tagPsn ((spLab.begun 0).ftag (256 + i)) = false) ∧
    (tagPsn (badFrame.ftag 8) = true ∧ (bytesOf 8 1).length ≠ 64) ∧
    (tagPsn (badFrame.ftag 0) = true ∧ (List.replicate 64 (1 : Byte)).length = 64 ∧ 0 % 64 = 0 ∧ ∀ w ∈ badFrame.unjoined, w.line ≠ 0) ∧
    ((∀ x ∈ [(0, 1)] ++ (4, 2) :: [((8 : Nat), (3 : Nat))], x.1 % 4 = 0) ∧ ∀ x ∈ [((8 : Nat), (3 : Nat))], x.1 ≠ 4) :=
  ⟨by decide +kernel, ⟨commits_of (by decide +kernel), by decide +kernel⟩, ⟨commits_of (by decide +kernel), by decide +kernel⟩,
   by decide +kernel, by decide +kernel, by decide⟩

/-- A bundle of two slots, and one whose first slot waits for a translation. -/
def pairLab : State := turnLab 0 0 [5, 0x00031050, (encWord (.sts ⟨0, 3, 4, 0⟩)).toNat]
def heldLab : State := (turnLab 0 0 [4, (encWord (.ldg ⟨0, 3, 1, 40⟩)).toNat]).modTh 0 fun t =>
  { t with sr := [(17, 2 ^ 56)], hs := [(1, { st := .pending, va := 0x40000 })] }

/-- What the clause on a whole bundle asks of the next bundle of partition 0; `hold` asks for a slot that waits. -/
def wholeB (s : State) (hold : Bool) : Bool :=
  let u := s.begun 0
  let pc := (u.th 0).pc
  issuesB s 0 && match u.codePa 0 pc with
  | none => false
  | some pa => match u.icLine (u.tcore 0) (pa / 64) with
    | none => false
    | some line =>
      let h := headerAt line (pc % 64)
      let sl := slotsAt line (pc % 64) h
      let mk := slotIC u 0 h sl
      !bundleBad (u.th 0) false h (decide (64 < pc % 64 + 4 * h.words)) sl && !((u.th 0).inDelay && (u.th 0).atEnd) &&
        (brkOf mk sl).isNone && (faultsOf mk slotPre sl).isEmpty &&
        if hold then sl.any fun x => (slotHold (mk x) x.op).isSome
        else (sl.all fun x => (slotHold (mk x) x.op).isNone) && (faultsOf mk slotPost sl).isEmpty

theorem witness_StepRunsDecodedInstruction_whole : wholeB pairLab false = true ∧ wholeB heldLab true = true := by
  decide +kernel

/-- A package in RECOVERY. -/
def recoveryLab : State := { lab 0 [] with sys := { recovery := true } }

theorem witness_StepRunsDecodedInstruction_agenda :
    State.reset.happens (.correctableError 3) = true ∧ recoveryLab.happens (.contextRun 3) = false ∧
    State.reset.happens (.add ⟨0, 3, 4, 5, 0, 0⟩) = false := by decide +kernel

theorem witness_ResetFusesAttestation :
    ((lab 0 []).sys.idle = 0 ∧ (lab 0 []).entryDue = false ∧ (lab 0 []).sys.recovery = false) ∧
    (recoveryLab.sys.idle = 0 ∧ recoveryLab.entryDue = false ∧ recoveryLab.sys.recovery = true) ∧ quietS1.sys.idle ≠ 0 := by
  decide +kernel

/-! ### One step each; expected values from the spec's rules and examples -/

/-- The results that issuer k has in flight after one step of instruction i on a small state. -/
def landsAfter (s : State) (k : Nat) (i : Instr) : List (Nat × Land) :=
  match exec i s with
  | .next t => (t.th k).flight.map fun f => (f.due - (s.th k).scyc, f.land)
  | _ => []

/-- 03 R102's line: at +1, S3 = 14 and S6 = 0x1040; at +2, every lane of V1 holds 3.5. -/
theorem test_bundle_example :
    (match step { (turnLab 0 0 [0x0F0B, 0x00031050, 0x44861840, 0x00010BC0]).modTh 0 fun t =>
        { t with pr := 5#16, sr := [(4, 5), (5, 9), (6, 0x1000), (7, 0x3F800000)]
                 vr := [(2, vOfLanes 32 (List.replicate 64 0x40200000))] } with cur := 0 } with
      | .next t => (t.th 0).pc == 0x10010 && ((t.th 0).flight.map fun f => (f.due, f.land)) ==
          [(1, Land.s 3 14 false), (1, .s 6 0x1040 false),
           (2, .v 1 (vOfLanes 32 (List.replicate 64 0x40600000)) (BitVec.allOnes 64) false)]
      | _ => false) = true := by decide +kernel

/-- 04 R105: ADD.w wraps at 32 bits and extends the sign; ADD.s6 shifts S(B) left by 6. -/
theorem test_add_word : landsAfter (lab 0 [(4, 0x7FFFFFFF), (5, 1)]) 0 (.add ⟨0, 3, 4, 5, 1, 0⟩) = [(1, .s 3 0xFFFFFFFF80000000 false)] := by
  decide +kernel

theorem test_sub_borrow : landsAfter (lab 0 [(4, 0), (5, 1)]) 0 (.sub ⟨0, 4, 4, 5, 0, 0⟩) = [(1, .s 4 0xFFFFFFFFFFFFFFFF false)] := by
  decide +kernel

/-- 04 R105: the high half of a signed product, at +3. -/
theorem test_mulh_sign : landsAfter (lab 0 [(4, 2 ^ 64 - 1), (5, 2 ^ 64 - 1)]) 0 (.mulh ⟨0, 3, 4, 5, 0, 0⟩) = [(3, .s 3 0 false)] ∧
    landsAfter (lab 0 [(4, 2 ^ 64 - 1), (5, 2)]) 0 (.mulh ⟨0, 3, 4, 5, 0, 0⟩) = [(3, .s 3 0xFFFFFFFFFFFFFFFF false)] := by decide +kernel

/-- 04 R110: a division by zero gives all ones, its remainder the dividend; −2^63 / −1 is −2^63. -/
theorem test_div_corners :
    landsAfter (lab 0 [(4, 7)]) 0 (.div ⟨0, 3, 4, 5, 0, 0⟩) = [(18, .s 3 0xFFFFFFFFFFFFFFFF false)] ∧
    landsAfter (lab 0 [(4, 7)]) 0 (.div ⟨0, 3, 4, 5, 2, 0⟩) = [(18, .s 3 7 false)] ∧
    landsAfter (lab 0 [(4, 2 ^ 63), (5, 2 ^ 64 - 1)]) 0 (.div ⟨0, 3, 4, 5, 0, 0⟩) = [(18, .s 3 0x8000000000000000 false)] := by
  decide +kernel

/-- 04 R106: MOVHI shifts in 16 bits below. -/
theorem test_movhi : landsAfter (lab 0 [(3, 0x30)]) 0 (.movhi ⟨0, 3, 0x80⟩) = [(1, .s 3 0x300080 false)] := by decide +kernel

/-- 04's rotating-loop example: LOOPR of two iterations and three stages makes 4 trips. -/
theorem test_loopr_trips :
    (match exec (.loopr ⟨0, 5, 3, 0, 2⟩) (lab 0 [(5, 2)]) with
      | .next t => (t.th 0).loops.map fun e => (e.trips, e.start, e.stop)
      | _ => []) = [(4, 0x10008, 0x1000C)] := by decide +kernel

/-- 05's example: the page of the address XLAT is given, at +12. -/
theorem test_xlat : landsAfter (lab 0 [(4, 0x41840)]) 0 (.xlat ⟨0, 3, 4, 0⟩) = [(12, .xlat 3 0x41000)] := by decide +kernel

/-- 13's example: a page that is not resident but mapped reads MAP alone, at +8. -/
theorem test_probe : landsAfter { lab 0 [] with pages := [] } 0 (.probe ⟨0, 5, 4, 0, 0⟩) = [(8, .s 5 0x40000000 false)] := by decide +kernel

/-- 12 Tables 12-7 and 12-9: a misaligned LDG at position 2 parks its partition at its own address, with code 9 at position 2. -/
theorem test_misaligned_entry :
    (match exec (.ldg ⟨0, 3, 1, 40⟩) (lab 0 [(17, 2 ^ 56 + 1)]) with
      | .next t => (t.recs.map fun r => (r.kind, r.slots, r.baddr), (t.th 0).mode == .parked, (t.th 0).pc)
      | _ => ([], false, 0)) = ([(1, 9 * 2 ^ 12, 0x10000)], true, 0x10000) := by decide +kernel

/-- The lanes of a vector result in flight. -/
def lanesAfter (s : State) (i : Instr) : List (Nat × List Nat) :=
  (landsAfter s 0 i).map fun e => match e.2 with
    | .v _ y _ _ => (e.1, [vLane y 32 0, vLane y 32 39])
    | .m _ y _ => (e.1, [y.toNat])
    | _ => (e.1, [])

/-- 06's example: M1 holds the first 40 lanes, V10 their values, V11 and V12 the mean and the mean square. -/
def rowLab (v11 v12 : Nat) : State := (lab 0 [(7, 40)]).modTh 0 fun t =>
  { t with mr := [(1, 0xFFFFFFFFFF)]
           vr := [(10, vOfLanes 32 ((List.range 64).map fun i => if i < 40 then [0, 0x3F800000, 0x40000000, 0x40400000].getD (i % 4) 0 else 0x7FC00000)),
             (11, vOfLanes 32 (List.replicate 64 v11)), (12, vOfLanes 32 (List.replicate 64 v12))] }

theorem test_vred : lanesAfter (rowLab 0 0) (.vred ⟨0, 11, 10, 0, 0, 1⟩) = [(8, [0x42700000, 0x42700000])] ∧
    lanesAfter (rowLab 0 0) (.vred ⟨0, 12, 10, 1, 0, 1⟩) = [(8, [0x430C0000, 0x430C0000])] := by decide +kernel

theorem test_vfnma : lanesAfter (rowLab 0x3FC00000 0x40600000) (.vfnma ⟨0, 12, 11, 11, 0, 1⟩) = [(5, [0x3FA00000, 0x3FA00000])] := by
  decide +kernel

/-- 02's table of conversions of FP32 values to E4M3 under s = −4. -/
theorem test_convert_e4m3 : ∀ e ∈ ([(0x3DCCCCCD, 0x3D, .finite), (0xC0400000, 0xE4, .finite), (0x41F00000, 0x7E, .over_),
      (0x38D1B717, 0x01, .finite), (0x3851B717, 0x00, .under), (0x7FC00000, 0x7F, .nan)] : List (Nat × Nat × Cls)),
    convert (d32 e.1) 3 .rne (-4) = (e.2.1, e.2.2) := by decide +kernel

/-- 02's example of a matrix element: group sums 0x4B800001 and 0xC0000000, and c = 0x4B800000. -/
theorem test_group_sums :
    groupSum [(d32 0x45800000).mul (d32 0x45800000), (d32 0x3F800000).mul (d32 0x3F800000), (d32 0x3F800000).mul (d32 0x3F000000)] =
      0x4B800001 ∧
    groupSum [(d32 0xBF800000).mul (d32 0x40000000)] = 0xC0000000 ∧
    r32 ((d32 0x4B800001).add (d32 0xC0000000)) = 0x4B800000 := by decide +kernel

/-- 14's example: a SEND with two credits leaves one. -/
theorem test_send_credit :
    (match exec (.send ⟨0, 2, 0, 0, 10⟩) { lab 0 [] with chans := [{ labChan with usable := 2 }] } with
      | .next t => (t.getChan 0 0).usable
      | _ => 0) = 1 := by decide +kernel

/-- 11's example: the forty-first TSUB of a context returns 41, at +4. -/
theorem test_tsub_count : landsAfter { lab 4096 [(21, 2 ^ 56)] with ctxs := [(0, { labCtx with subcnt := 40 })] } 4096
    (.tsub ⟨0, 1, 0, 0, 10, 0⟩) = [(4, .s 20 41 false)] := by decide +kernel

/-- A step from reset with the word of ADD S3, S4, S5 placed runs it. -/
theorem test_reset_word : (match step (State.reset.withFetchWord 32 0x00031050) with
      | .next t => (t.th 0).flight.map Flight.land
      | _ => []) = [.s 3 0 false] := by decide +kernel

end Sys2Proof.Tests
end

section
/-! PROOFS. The verdict on a slot before its guard is a matter of the class of its issuers (03 R84, R85); which class a form is in
is read off its operation. -/

namespace Sys2Proof.Machine

open Sys2Proof

/-! ### The verdict of a class -/

/-- The fault of a slot whose instruction only issuers of class w may issue: an illegal instruction where a command stream issues
what belongs to partitions, a privilege fault otherwise. -/
def Where.refusal (w : Where) (c : IC) : Option SF :=
  match w with
  | .any => none
  | .partOnly => if isCs c.k then some ⟨2, c.word.toNat, 0⟩ else none
  | .csOnly => if isCs c.k then none else some ⟨3, c.word.toNat, 0⟩
  | .firmware => if c.s.firmware c.k then none else some ⟨3, c.word.toNat, 0⟩

/-- Where neither its codes nor its operands are illegal, the class of an operation alone judges its slot. -/
theorem slotStatic_eq_refusal {c : IC} {o : SlotOp} (hlegal : o.legal = true) (hill : o.ill c = false) :
    slotStatic c (some o) = o.whr.refusal c := by
  cases hw : o.whr with
  | any => simp [slotStatic, slotIllegal, Where.refusal, hlegal, hill, hw]
  | partOnly => simp [slotStatic, slotIllegal, Where.refusal, hlegal, hill, hw]
  | csOnly => cases hk : isCs c.k <;> simp [slotStatic, slotIllegal, Where.refusal, hlegal, hill, hw, hk]
  | firmware => cases hf : c.s.firmware c.k <;> simp [slotStatic, slotIllegal, Where.refusal, hlegal, hill, hw, hf]

/-- Instruction i has a slot operation of class w, which holds for legal exactly the codes `legal` does. -/
def HasClass (w : Where) (i : Instr) : Prop := ∃ o, slotOf i = some o ∧ o.whr = w ∧ o.legal = legal i

theorem HasClass.slotStatic_eq {w : Where} {i : Instr} {c : IC} (h : HasClass w i) (hlegal : legal i = true)
    (hill : ∀ o, slotOf i = some o → o.ill c = false) : slotStatic c (slotOf i) = w.refusal c := by
  obtain ⟨o, ho, rfl, hl⟩ := h
  rw [ho, slotStatic_eq_refusal (hl.trans hlegal) (hill o ho)]

/-! ### The forms only a partition issues (03 R84) -/

theorem scratchpadAccess_partOnly (x : RRI) : ∀ i ∈ [Instr.lds x, .sts x, .ldv x, .stv x], HasClass .partOnly i := by
  simp only [List.forall_mem_cons]
  exact ⟨⟨opLds x, rfl, rfl, rfl⟩, ⟨opSts x, rfl, rfl, rfl⟩, ⟨opLdv x, rfl, rfl, rfl⟩, ⟨opStv x, rfl, rfl, rfl⟩, List.forall_mem_nil _⟩

theorem vectorLoad_partOnly (x : Gld) : ∀ i ∈ [Instr.ldgv x, .ldcv x], HasClass .partOnly i := by
  simp only [List.forall_mem_cons]
  exact ⟨⟨opLdgv x, rfl, rfl, rfl⟩, ⟨opLdcv x, rfl, rfl, rfl⟩, List.forall_mem_nil _⟩

theorem gatherScatter_partOnly (x : RRR) : ∀ i ∈ [Instr.gath x, .scat x, .gaths x, .scats x], HasClass .partOnly i := by
  simp only [List.forall_mem_cons]
  exact ⟨⟨opGath x, rfl, rfl, rfl⟩, ⟨opScat x, rfl, rfl, rfl⟩, ⟨opGaths x, rfl, rfl, rfl⟩, ⟨opScats x, rfl, rfl, rfl⟩, List.forall_mem_nil _⟩

theorem channelData_partOnly (x : Chn) : ∀ i ∈ [Instr.send x, .recv x, .recvadd x], HasClass .partOnly i := by
  simp only [List.forall_mem_cons]
  exact ⟨⟨opSend x, rfl, rfl, rfl⟩, ⟨opRecv x, rfl, rfl, rfl⟩, ⟨opRecvadd x, rfl, rfl, rfl⟩, List.forall_mem_nil _⟩

/-! ### The forms only a command stream issues (03 R85) -/

theorem partitionControl_csOnly (x : RR1) : ∀ i ∈ [Instr.pres x, .presSkip x, .pkill x], HasClass .csOnly i := by
  simp only [List.forall_mem_cons]
  exact ⟨⟨opPres x, rfl, rfl, rfl⟩, ⟨opPresSkip x, rfl, rfl, rfl⟩, ⟨opPkill x, rfl, rfl, rfl⟩, List.forall_mem_nil _⟩

theorem submitAndGroup_csOnly (x : EngF) : ∀ i ∈ [Instr.tsub x, .grpc x, .grpf x], HasClass .csOnly i := by
  simp only [List.forall_mem_cons]
  exact ⟨⟨opTsub x, rfl, rfl, rfl⟩, ⟨opGrpc x, rfl, rfl, rfl⟩, ⟨opGrpf x, rfl, rfl, rfl⟩, List.forall_mem_nil _⟩

theorem engineControl_csOnly (x : Eng) : ∀ i ∈ [Instr.twait x, .twaitAll x, .tscale x, .tcfg x, .occr x, .occrClr x, .qinit x,
    .qinitLoad x, .bariInit x, .bariFree x], HasClass .csOnly i := by
  simp only [List.forall_mem_cons]
  exact ⟨⟨opTwait x, rfl, rfl, rfl⟩, ⟨opTwaitAll x, rfl, rfl, rfl⟩, ⟨opTscale x, rfl, rfl, rfl⟩, ⟨opTcfg x, rfl, rfl, rfl⟩,
    ⟨opOccr x, rfl, rfl, rfl⟩, ⟨opOccrClr x, rfl, rfl, rfl⟩, ⟨opQinit x, rfl, rfl, rfl⟩,
    ⟨opQinitLoad x, rfl, rfl, rfl⟩, ⟨opBariInit x, rfl, rfl, rfl⟩, ⟨opBariFree x, rfl, rfl, rfl⟩,
    List.forall_mem_nil _⟩

/-! ### The statement -/

/-- Settles O38: each form named has the class of its clause, and the class gives the verdict. -/
theorem issuerClasses : Obligations.IssuerClasses := by
  intro u k pos i hlegal c det hill
  have verdict {w : Where} (h : HasClass w i) : slotStatic c (slotOf i) = w.refusal c := h.slotStatic_eq hlegal hill
  refine ⟨fun hpart => verdict (w := .partOnly) ?_, fun hcs => verdict (w := .csOnly) ?_, fun x hx => verdict (w := .firmware) ?_⟩
  · rcases hpart with ⟨x, h⟩ | ⟨x, h⟩ | ⟨x, rfl⟩ | ⟨x, rfl⟩ | ⟨x, h⟩ | ⟨x, rfl⟩ | ⟨x, h⟩ | ⟨x, rfl⟩ | ⟨x, rfl⟩ | ⟨x, rfl⟩
    · exact scratchpadAccess_partOnly x i h
    · exact vectorLoad_partOnly x i h
    · exact ⟨opStgv x, rfl, rfl, rfl⟩
    · exact ⟨opStcv x, rfl, rfl, rfl⟩
    · exact gatherScatter_partOnly x i h
    · exact ⟨opProbe x, rfl, rfl, rfl⟩
    · exact channelData_partOnly x i h
    · exact ⟨opLoopr x, rfl, rfl, rfl⟩
    · exact ⟨opLbrk x, rfl, rfl, rfl⟩
    · exact ⟨opFin x, rfl, rfl, rfl⟩
  · rcases hcs with ⟨x, rfl⟩ | ⟨x, h⟩ | ⟨x, rfl⟩ | ⟨x, h⟩ | ⟨x, h⟩ | ⟨x, rfl⟩ | ⟨x, rfl⟩
    · exact ⟨opWaitm x, rfl, rfl, rfl⟩
    · exact partitionControl_csOnly x i h
    · exact ⟨opPresMig x, rfl, rfl, rfl⟩
    · exact submitAndGroup_csOnly x i h
    · exact engineControl_csOnly x i h
    · exact ⟨opRufl x, rfl, rfl, rfl⟩
    · exact ⟨opChopn x, rfl, rfl, rfl⟩
  · subst hx
    exact ⟨opPclr x, rfl, rfl, rfl⟩

end Sys2Proof.Machine
end

section
/-! PROOFS. Scalar and predicate instructions whose only effect is one result in flight: the verdict on an illegal variant, the next
state when the bundle commits, and the values of 04 Tables 4-1, 4-2, 4-5 and 4-6. -/

namespace Sys2Proof.Machine

open Sys2Proof

/-! ### Illegal variants (03 R81, R86) -/

theorem slotStatic_of_not_legal {c : IC} {i : Instr} {o : SlotOp} (ho : slotOf i = some o) (hl : o.legal = false) :
    slotStatic c (slotOf i) = some ⟨2, c.word.toNat, 0⟩ := by
  simp [ho, slotStatic, slotIllegal, hl]

theorem fnMax_eq_false {x : RRR} {m : Nat} (h : m < x.f.toNat) : fnMax x m = false := by
  simp [fnMax, h]

/-! ### One result in flight -/

/-- Instruction i is, as an event, the plain one-slot bundle of operation o at G0. -/
def RunsAtG0 (i : Instr) (o : SlotOp) : Prop := slotOf i = some o ∧ ∀ s, exec i s = issueOne 0 (encWord i) o s

/-- At commit, operation o puts result l in flight, to land at +n, and does nothing else. -/
structure SlotOp.Delivers (o : SlotOp) (n : Nat) (l : IC → Land) : Prop where
  eff : o.eff = fun c s => s.fly c.k n (l c)
  impure : o.impure = fun _ => none
  draws : o.draws = fun _ => 0
  stop : o.stop = fun _ => none

theorem SlotOp.Delivers.exec_eq {s u : State} {k n : Nat} {i : Instr} {o : SlotOp} {l : IC → Land} (h : o.Delivers n l)
    (hr : RunsAtG0 i o) (hc : Commits s u k 0 i) :
    exec i s = committed u k fun v => v.fly k n (l (oneIC u k 0 (encWord i))) := by
  obtain ⟨ho, hexec⟩ := hr
  rw [hexec, issueOne_of_commits hc ho, h.eff, h.impure, h.draws, h.stop]
  rfl

/-- The word of an immediate (04 R104). -/
theorem w64_toInt {n : Nat} (x : BitVec n) : w64 x.toInt = x.signExtend 64 := by
  apply BitVec.eq_of_toNat_eq
  rw [BitVec.signExtend, BitVec.toNat_ofInt, w64, wrapN, BitVec.toNat_ofNat]
  exact Nat.mod_eq_of_lt (by omega)

theorem rrrOp_delivers (x : RRR) (lg : Bool) (lat : Nat) (f : W64 → W64 → W64) :
    (rrrOp x lg lat f).Delivers lat fun c => .s x.d.toNat (f (c.sv x.a.toNat) (c.sv x.b.toNat)) false :=
  ⟨rfl, rfl, rfl, rfl⟩

theorem rriOp_delivers (x : RRI) (f : W64 → W64 → W64) :
    (rriOp x f).Delivers 1 fun c => .s x.d.toNat (f (c.sv x.a.toNat) (x.i.signExtend 64)) false :=
  ⟨by rw [← w64_toInt]; rfl, rfl, rfl, rfl⟩

theorem shiOp_delivers (x : ShI) (f : W64 → Nat → W64) :
    (shiOp x f).Delivers 1 fun c => .s x.d.toNat (f (c.sv x.a.toNat) x.i.toNat) false :=
  ⟨rfl, rfl, rfl, rfl⟩

theorem opCmp_delivers (x : Cmp) : (opCmp x).Delivers 1 fun c => .p x.p.toNat
    (condS x.c.toNat (c.sv x.a.toNat) (c.sv x.b.toNat) && (x.f == 0 || c.t.p x.p.toNat)) := ⟨rfl, rfl, rfl, rfl⟩

theorem opCmpi_delivers (x : Cmpi) : (opCmpi x).Delivers 1 fun c => .p x.p.toNat
    (condS x.c.toNat (c.sv x.a.toNat) (x.i.signExtend 64)) := ⟨rfl, rfl, rfl, rfl⟩

theorem opPlog_delivers (x : Plog) : (opPlog x).Delivers 1 fun c => .p x.p.toNat
    (plogOp x.c.toNat (c.t.p x.a.toNat) (c.t.p x.b.toNat)) := ⟨rfl, rfl, rfl, rfl⟩

theorem opKtst_delivers (x : Ktst) : (opKtst x).Delivers 1 fun c => .p x.p.toNat (c.s.fired c.k x.a.toNat) := ⟨rfl, rfl, rfl, rfl⟩

theorem opKtstAll_delivers (x : KtstAll) : (opKtstAll x).Delivers 1 fun c => .p x.p.toNat
    ((tickets x.a.toNat (x.b.toNat + 1)).all (c.s.fired c.k)) := ⟨rfl, rfl, rfl, rfl⟩

theorem opMovp_delivers (x : DN) : (opMovp x).Delivers 1 fun c => .s x.d.toNat (BitVec.ofNat 64 (boolBits 16 c.t.p)) false :=
  ⟨rfl, rfl, rfl, rfl⟩

theorem opMovpW_delivers (x : AN) : (opMovpW x).Delivers 1 fun c => .preds ((c.sv x.a.toNat).setWidth 16) := ⟨rfl, rfl, rfl, rfl⟩

theorem opMovx_delivers (x : RR1) : (opMovx x).Delivers 1 fun c => .s x.d.toNat (BitVec.ofNat 64 (c.t.loopIdx x.a.toNat)) false :=
  ⟨rfl, rfl, rfl, rfl⟩

theorem opMovxK_delivers (x : DN) : (opMovxK x).Delivers 1 fun c => .s x.d.toNat
    (BitVec.ofNat 64 (boolBits 32 (c.s.fired c.k))) false := ⟨rfl, rfl, rfl, rfl⟩

/-! ### The arithmetic in the order of the numbers (04 Table 4-1) -/

theorem signedMin_eq (a b : W64) : (if b.slt a then b else a) = if a.toInt ≤ b.toInt then a else b := by
  simp only [BitVec.slt_iff_toInt_lt, ← not_le, ite_not]

theorem unsignedMin_eq (a b : W64) : (if b.ult a then b else a) = if a.toNat ≤ b.toNat then a else b := by
  simp only [BitVec.ult_iff_lt, BitVec.lt_def, ← not_le, ite_not]

/-- Where both are equal, either is the greater. -/
theorem signedMax_eq (a b : W64) : (if a.slt b then b else a) = if a.toInt ≤ b.toInt then b else a := by
  rcases lt_trichotomy a.toInt b.toInt with h | h | h
  · simp [BitVec.slt_iff_toInt_lt, h, h.le]
  · simp [BitVec.toInt_inj.mp h]
  · simp [BitVec.slt_iff_toInt_lt, h.not_gt, h.not_ge]

theorem unsignedMax_eq (a b : W64) : (if a.ult b then b else a) = if a.toNat ≤ b.toNat then b else a := by
  rcases lt_trichotomy a.toNat b.toNat with h | h | h
  · simp [BitVec.ult_iff_lt, BitVec.lt_def, h, h.le]
  · simp [BitVec.eq_of_toNat_eq h]
  · simp [BitVec.ult_iff_lt, BitVec.lt_def, h.not_gt, h.not_ge]

/-! ### Conditions, tickets and the words of Boolean maps (04 Table 4-5, R113, R114) -/

theorem bne_eq_decide_ne (a b : W64) : (a != b) = decide (a ≠ b) := by
  simp [bne, beq_eq_decide]

/-- A negated order is the converse order (04 Table 4-5, codes 3 and 5). -/
theorem not_slt_eq (a b : W64) : (!a.slt b) = decide (b.toInt ≤ a.toInt) := by
  rw [BitVec.slt, ← decide_not, decide_eq_decide, not_lt]

theorem not_ult_eq (a b : W64) : (!a.ult b) = decide (b.toNat ≤ a.toNat) := by
  rw [BitVec.ult, ← decide_not, decide_eq_decide, not_lt]

/-- A comparison with its .and form, chosen by FN (04 R111). -/
theorem and_or_eq_ite : ∀ (f : BitVec 1) (c q : Bool), (c && (f == 0 || q)) = if f = 0 then c else q && c := by decide

theorem b2n_eq_toNat (b : Bool) : b2n b = b.toNat := by cases b <;> rfl

theorem boolBits_succ (n : Nat) (f : Nat → Bool) : boolBits (n + 1) f = 2 ^ n * b2n (f n) + boolBits n f := by
  simp [boolBits, List.range_succ, Nat.mul_comm, Nat.add_comm]

theorem boolBits_lt (n : Nat) (f : Nat → Bool) : boolBits n f < 2 ^ n := by
  induction n with
  | zero => simp [boolBits]
  | succ n ih =>
    have hbit : 2 ^ n * b2n (f n) ≤ 2 ^ n := by cases f n <;> simp [b2n]
    rw [boolBits_succ]
    omega

theorem testBit_boolBits (n : Nat) (f : Nat → Bool) (i : Nat) : (boolBits n f).testBit i = (decide (i < n) && f i) := by
  induction n with
  | zero => simp [boolBits]
  | succ n ih =>
    rw [boolBits_succ, Nat.testBit_two_pow_mul_add _ (boolBits_lt n f), ih, b2n_eq_toNat, Nat.testBit_bool_toNat]
    rcases lt_trichotomy i n with h | rfl | h
    · simp [h, h.trans n.lt_succ_self]
    · simp
    · simp [h.not_gt, Nat.sub_eq_zero_iff_le, h.not_ge, Nat.not_lt.mpr h]

theorem getLsbD_boolBits {n i : Nat} (f : Nat → Bool) (hi : i < 64) :
    (BitVec.ofNat 64 (boolBits n f)).getLsbD i = (decide (i < n) && f i) := by
  rw [BitVec.getLsbD_ofNat, testBit_boolBits, decide_eq_true hi, Bool.true_and]

theorem all_tickets_iff (a n : Nat) (f : Nat → Bool) :
    (tickets a (n + 1)).all f = true ↔ ∀ i, i ≤ n → f ((a + i) % 32) = true := by
  simp [tickets]

/-! ### The statements -/

/-- Settles O1: each form is one of three, whose result is in flight at commit.  The value is the statement's by definition, but for
MIN, MAX and their unsigned forms, which the model takes by a strict order. -/
theorem scalarArithmetic : Obligations.ScalarArithmetic := by
  intro s u k
  refine ⟨fun x => ?_, fun x => ?_, fun x => ?_, fun x => ?_⟩
  · have illegal {i : Instr} {m : Nat} {o : SlotOp} (ho : slotOf i = some o) (hl : o.legal = fnMax x m) (hm : m < x.f.toNat) :
        slotStatic (oneIC u k 0 (encWord i)) (slotOf i) = some ⟨2, (encWord i).toNat, 0⟩ :=
      slotStatic_of_not_legal ho (hl.trans (fnMax_eq_false hm))
    simp only [List.forall_mem_cons]
    exact ⟨illegal rfl rfl, illegal rfl rfl, illegal rfl rfl, illegal rfl rfl, illegal rfl rfl, illegal rfl rfl, illegal rfl rfl,
      illegal rfl rfl, illegal rfl rfl, illegal rfl rfl, illegal rfl rfl, illegal rfl rfl, illegal rfl rfl, illegal rfl rfl,
      illegal rfl rfl, illegal rfl rfl, illegal rfl rfl, List.forall_mem_nil _⟩
  · intro a b a' b' n n' w
    have result {i : Instr} {lg : Bool} {lat : Nat} {f : W64 → W64 → W64} {y : W64} (hr : RunsAtG0 i (rrrOp x lg lat f))
        (hy : f a b = y) (hc : Commits s u k 0 i) : exec i s = committed u k fun v => v.fly k lat (.s x.d.toNat y false) :=
      hy ▸ (rrrOp_delivers x lg lat f).exec_eq hr hc
    simp only [List.forall_mem_cons]
    exact ⟨result ⟨rfl, fun _ => rfl⟩ rfl,
      result ⟨rfl, fun _ => rfl⟩ rfl, result ⟨rfl, fun _ => rfl⟩ rfl, result ⟨rfl, fun _ => rfl⟩ rfl, result ⟨rfl, fun _ => rfl⟩ rfl,
      result ⟨rfl, fun _ => rfl⟩ rfl, result ⟨rfl, fun _ => rfl⟩ rfl, result ⟨rfl, fun _ => rfl⟩ rfl,
      result ⟨rfl, fun _ => rfl⟩ rfl, result ⟨rfl, fun _ => rfl⟩ rfl,
      result ⟨rfl, fun _ => rfl⟩ (signedMin_eq a b), result ⟨rfl, fun _ => rfl⟩ (signedMax_eq a b),
      result ⟨rfl, fun _ => rfl⟩ (unsignedMin_eq a b), result ⟨rfl, fun _ => rfl⟩ (unsignedMax_eq a b),
      result ⟨rfl, fun _ => rfl⟩ rfl, result ⟨rfl, fun _ => rfl⟩ rfl, result ⟨rfl, fun _ => rfl⟩ rfl, List.forall_mem_nil _⟩
  · intro a b
    have result {i : Instr} {f : W64 → W64 → W64} (hr : RunsAtG0 i (rriOp x f)) (hc : Commits s u k 0 i) :
        exec i s = committed u k fun v => v.fly k 1 (.s x.d.toNat (f a b) false) := (rriOp_delivers x f).exec_eq hr hc
    simp only [List.forall_mem_cons]
    exact ⟨result ⟨rfl, fun _ => rfl⟩, result ⟨rfl, fun _ => rfl⟩, result ⟨rfl, fun _ => rfl⟩, result ⟨rfl, fun _ => rfl⟩,
      List.forall_mem_nil _⟩
  · intro a
    have result {i : Instr} {f : W64 → Nat → W64} (hr : RunsAtG0 i (shiOp x f)) (hc : Commits s u k 0 i) :
        exec i s = committed u k fun v => v.fly k 1 (.s x.d.toNat (f a x.i.toNat) false) := (shiOp_delivers x f).exec_eq hr hc
    simp only [List.forall_mem_cons]
    exact ⟨result ⟨rfl, fun _ => rfl⟩, result ⟨rfl, fun _ => rfl⟩, result ⟨rfl, fun _ => rfl⟩, List.forall_mem_nil _⟩

/-- Settles O3: each form is one result in flight at commit.  The condition codes are compared case by case, and the words of
predicates and tickets are read bit by bit. -/
theorem predicateResults : Obligations.PredicateResults := by
  intro s u k r p cond writes
  have cond_eq (c : Nat) (a b : W64) : condS c a b = cond c a b := by
    match c with
    | 0 => exact beq_eq_decide a b
    | 1 => exact bne_eq_decide_ne a b
    | 2 => rfl
    | 3 => exact not_slt_eq a b
    | 4 => rfl
    | 5 => exact not_ult_eq a b
    | 6 => exact bne_eq_decide_ne (a &&& b) 0
    | _ + 7 => exact beq_eq_decide (a &&& b) 0
  have result {i : Instr} {o : SlotOp} {n : Nat} {f : IC → Bool} {b : Bool} (h : o.Delivers 1 fun c => .p n (f c))
      (hr : RunsAtG0 i o) (hb : f (oneIC u k 0 (encWord i)) = b) : writes i n b :=
    fun hc => hb ▸ h.exec_eq hr hc
  refine ⟨fun x => ?_, fun x => ?_, fun x y => ?_, fun t b => rfl, fun x => ?_, fun x => ?_, fun x => ?_, fun x hc => ?_,
    fun x hc => ?_, fun x hc => ?_, fun x hc => ?_⟩
  · intro c
    refine result (opCmp_delivers x) ⟨rfl, fun _ => rfl⟩ ?_
    rw [cond_eq]
    exact and_or_eq_ite x.f c (p x.p.toNat)
  · exact result (opCmpi_delivers x) ⟨rfl, fun _ => rfl⟩ (cond_eq _ _ _)
  · simp only [List.forall_mem_cons]
    exact ⟨fun h => slotStatic_of_not_legal (o := opCmp x) rfl (by simp [opCmp, legal, Nat.not_le.mpr h]),
      fun h => slotStatic_of_not_legal (o := opCmpi y) rfl (by simp [opCmpi, legal, Nat.not_le.mpr h]), List.forall_mem_nil _⟩
  · intro a b
    refine result (opPlog_delivers x) ⟨rfl, fun _ => rfl⟩ ?_
    show plogOp x.c.toNat a b = _
    match x.c.toNat with
    | 0 | 1 | 2 | 3 | 4 | 5 | 7 => rfl
    | 6 => exact Bool.not_not (a == b)
    | _ + 8 => rfl
  · exact result (opKtst_delivers x) ⟨rfl, fun _ => rfl⟩ rfl
  · exact ⟨_, result (opKtstAll_delivers x) ⟨rfl, fun _ => rfl⟩ rfl, all_tickets_iff _ _ _⟩
  · exact ⟨_, (opMovp_delivers x).exec_eq ⟨rfl, fun _ => rfl⟩ hc, fun i hi => getLsbD_boolBits p hi⟩
  · exact (opMovpW_delivers x).exec_eq ⟨rfl, fun _ => rfl⟩ hc
  · exact (opMovx_delivers x).exec_eq ⟨rfl, fun _ => rfl⟩ hc
  · exact ⟨_, (opMovxK_delivers x).exec_eq ⟨rfl, fun _ => rfl⟩ hc, fun i hi => getLsbD_boolBits (u.fired k) hi⟩

end Sys2Proof.Machine
end

section
/-! PROOFS. Encoding and decoding are inverse (03 R70, R79–R83): each format is a layout of fields over fixed bits, each class of positions
decodes the words of its instructions, and a word that decodes is the word of its fields. -/

namespace Sys2Proof.Machine

open Sys2Proof

/-! ### Fixed bits as fields -/

/-- A run of w mask bits at bit lo picks out one field. -/
theorem and_run (n lo w : Nat) : n &&& (2 ^ w - 1) * 2 ^ lo = n / 2 ^ lo % 2 ^ w * 2 ^ lo := by
  apply Nat.eq_of_testBit_eq
  intro i
  simp only [Nat.testBit_and, Nat.testBit_mul_two_pow, Nat.testBit_mod_two_pow, Nat.testBit_div_two_pow, Nat.testBit_two_pow_sub_one]
  by_cases h : lo ≤ i
  · simp [h, Bool.and_comm]
  · simp [h]

/-- Two runs pick out two fields. -/
theorem and_two_runs (n lo w hi v : Nat) (h : lo + w ≤ hi) : n &&& ((2 ^ w - 1) * 2 ^ lo + (2 ^ v - 1) * 2 ^ hi) =
    n / 2 ^ lo % 2 ^ w * 2 ^ lo + n / 2 ^ hi % 2 ^ v * 2 ^ hi := by
  have low (x : Nat) (hx : x < 2 ^ w) (y : Nat) : x * 2 ^ lo + y * 2 ^ hi = x * 2 ^ lo ||| y * 2 ^ hi := by
    have hlt : x * 2 ^ lo < 2 ^ hi := calc
      x * 2 ^ lo < 2 ^ w * 2 ^ lo := Nat.mul_lt_mul_of_pos_right hx (Nat.two_pow_pos _)
      _ = 2 ^ (lo + w) := by rw [← Nat.pow_add, Nat.add_comm]
      _ ≤ 2 ^ hi := Nat.pow_le_pow_right (by decide) h
    rw [Nat.add_comm, Nat.or_comm, Nat.mul_comm y]
    exact Nat.two_pow_add_eq_or_of_lt hlt y
  rw [low _ (Nat.sub_lt (Nat.two_pow_pos _) (by decide)), low _ (Nat.mod_lt _ (Nat.two_pow_pos _)), Nat.and_or_distrib_left, and_run, and_run]

/-- The fixed bits of the formats (03 Table 3-5), as fields. -/
theorem and_fixed (n : Nat) :
    n &&& 0x2 = n / 2 % 2 * 2 ∧ n &&& 0xC = n / 4 % 4 * 4 ∧ n &&& 0xE = n / 2 % 8 * 2 ∧ n &&& 0x10 = n / 16 % 2 * 16 ∧
    n &&& 0x18 = n / 8 % 4 * 8 ∧ n &&& 0x1E = n / 2 % 16 * 2 ∧ n &&& 0x1F = n / 1 % 32 * 1 ∧ n &&& 0x3E = n / 2 % 32 * 2 ∧
    n &&& 0x3F = n / 1 % 64 * 1 ∧ n &&& 0x300 = n / 256 % 4 * 256 ∧ n &&& 0x380 = n / 128 % 8 * 128 ∧
    n &&& 0x3C0 = n / 64 % 16 * 64 ∧ n &&& 0x3F0 = n / 16 % 64 * 16 ∧ n &&& 0x3FC = n / 4 % 256 * 4 ∧
    n &&& 0x3FE = n / 2 % 512 * 2 ∧ n &&& 0x3FF = n / 1 % 1024 * 1 ∧ n &&& 0xFFC = n / 4 % 1024 * 4 ∧
    n &&& 0xFFE = n / 2 % 2048 * 2 ∧ n &&& 0xFFF = n / 1 % 4096 * 1 ∧ n &&& 0x3F00 = n / 256 % 64 * 256 ∧
    n &&& 0x3FFE = n / 2 % 8192 * 2 ∧ n &&& 0x3FFF = n / 1 % 16384 * 1 ∧ n &&& 0xF000 = n / 4096 % 16 * 4096 ∧
    n &&& 0xFFFE = n / 2 % 32768 * 2 ∧ n &&& 0xF3FFE = n / 2 % 8192 * 2 + n / 65536 % 16 * 65536 ∧
    n &&& 0xFFFFF = n / 1 % 1048576 * 1 ∧ n &&& 0x3E0000 = n / 131072 % 32 * 131072 ∧
    n &&& 0x3F0000 = n / 65536 % 64 * 65536 ∧ n &&& 0x3F000C = n / 4 % 4 * 4 + n / 65536 % 64 * 65536 ∧
    n &&& 0x3F000E = n / 2 % 8 * 2 + n / 65536 % 64 * 65536 ∧ n &&& 0x3F03FE = n / 2 % 512 * 2 + n / 65536 % 64 * 65536 ∧
    n &&& 0x3FFFF0 = n / 16 % 262144 * 16 :=
  ⟨and_run n 1 1, and_run n 2 2, and_run n 1 3, and_run n 4 1, and_run n 3 2, and_run n 1 4, and_run n 0 5, and_run n 1 5,
   and_run n 0 6, and_run n 8 2, and_run n 7 3, and_run n 6 4, and_run n 4 6, and_run n 2 8, and_run n 1 9, and_run n 0 10,
   and_run n 2 10, and_run n 1 11, and_run n 0 12, and_run n 8 6, and_run n 1 13, and_run n 0 14, and_run n 12 4,
   and_run n 1 15, and_two_runs n 1 13 16 4 (by decide), and_run n 0 20, and_run n 17 5, and_run n 16 6,
   and_two_runs n 2 2 16 6 (by decide), and_two_runs n 1 3 16 6 (by decide), and_two_runs n 1 9 16 6 (by decide),
   and_run n 4 18⟩

/-! ### Formats -/

/-- A word over the fixed bits m is m and its operand fields: the major opcode, the fixed bits and the fields of such a word read
back, and a word with those bits is the word of its fields. -/
abbrev Lawful {F : Type} (get : Nat → F) (put : Nat → F → W32) (fixed : Nat) : Prop :=
  ∀ m, m / 67108864 < 64 → m % 67108864 = m &&& fixed →
    (∀ x, (put m x).toNat / 67108864 = m / 67108864 ∧ (put m x).toNat &&& fixed = m &&& fixed ∧ get (put m x).toNat = x) ∧
    ∀ n, n / 67108864 = m / 67108864 → n &&& fixed = m &&& fixed → put m (get n) = BitVec.ofNat 32 n

theorem lawful_of_fields {F : Type} {get : Nat → F} {put : Nat → F → W32} {fixed : Nat}
    (read : ∀ k v x, k < 64 → let w := (put (k * 67108864 + (v &&& fixed)) x).toNat
      w / 67108864 = k ∧ w &&& fixed = v &&& fixed ∧ get w = x)
    (word : ∀ n, put (n / 67108864 * 67108864 + (n &&& fixed)) (get n) = BitVec.ofNat 32 n) : Lawful get put fixed := by
  intro m hm hf
  have hsplit : m = m / 67108864 * 67108864 + (m &&& fixed) := by rw [← hf]; omega
  refine ⟨fun x => ?_, fun n hn hfix => ?_⟩
  · have := read (m / 67108864) m x hm
    rwa [← hsplit] at this
  · rw [hsplit, ← hn, ← hfix]
    exact word n

/-- The formats of scalar arithmetic (03 Table 3-5). -/
theorem arithmeticFormats_lawful :
    Lawful getRRR putRRR 0 ∧ Lawful getRRI putRRI 0 ∧ Lawful getShI putShI 0x3C0 ∧ Lawful getRI putRI 0 := by
  refine ⟨?_, ?_, ?_, ?_⟩
  all_goals
    refine lawful_of_fields ?_ fun n => congrArg (BitVec.ofNat 32) ?_ <;> simp only [and_fixed, Nat.and_zero]
    · rintro k v ⟨⟩ hk
      simp only [fieldAt, ← BitVec.toNat_inj, BitVec.toNat_ofNat, true_and,
        getRRR, getRRI, getShI, getRI, putRRR, putRRI, putShI, putRI, RRR.mk.injEq, RRI.mk.injEq, ShI.mk.injEq,
        RI.mk.injEq]
      and_intros <;> omega
    · simp only [fieldAt, BitVec.toNat_ofNat, Nat.mod_def, Nat.div_div_eq_div_mul, getRRR, getRRI, getShI, getRI]
      omega

/-- The formats of conditions and ticket tests (03 Table 3-5). -/
theorem predicateFormats_lawful :
    Lawful getCmp putCmp 0 ∧ Lawful getCmpi putCmpi 0 ∧ Lawful getPlog putPlog 0x2 ∧ Lawful getKtst putKtst 0xFFE ∧
    Lawful getKtstAll putKtstAll 0x3E := by
  refine ⟨?_, ?_, ?_, ?_, ?_⟩
  all_goals
    refine lawful_of_fields ?_ fun n => congrArg (BitVec.ofNat 32) ?_ <;> simp only [and_fixed, Nat.and_zero]
    · rintro k v ⟨⟩ hk
      simp only [fieldAt, ← BitVec.toNat_inj, BitVec.toNat_ofNat, true_and,
        getCmp, getCmpi, getPlog, getKtst, getKtstAll, putCmp, putCmpi, putPlog, putKtst, putKtstAll, Cmp.mk.injEq,
        Cmpi.mk.injEq, Plog.mk.injEq, Ktst.mk.injEq, KtstAll.mk.injEq]
      and_intros <;> omega
    · simp only [fieldAt, BitVec.toNat_ofNat, Nat.mod_def, Nat.div_div_eq_div_mul, getCmp, getCmpi, getPlog, getKtst, getKtstAll]
      omega

/-- The formats of transfers, loops and waits (03 Table 3-5). -/
theorem controlFormats_lawful :
    Lawful getBrf putBrf 0 ∧ Lawful getAN putAN 0x3F03FE ∧ Lawful getLoopr putLoopr 0 ∧ Lawful getABN putABN 0x3F000E ∧
    Lawful getBrk putBrk 0x3F0000 ∧ Lawful getDN putDN 0xFFFE := by
  refine ⟨?_, ?_, ?_, ?_, ?_, ?_⟩
  all_goals
    refine lawful_of_fields ?_ fun n => congrArg (BitVec.ofNat 32) ?_ <;> simp only [and_fixed, Nat.and_zero]
    · rintro k v ⟨⟩ hk
      simp only [fieldAt, ← BitVec.toNat_inj, BitVec.toNat_ofNat, true_and,
        getBrf, getAN, getLoopr, getABN, getBrk, getDN, putBrf, putAN, putLoopr, putABN, putBrk, putDN, Brf.mk.injEq,
        AN.mk.injEq, Loopr.mk.injEq, ABN.mk.injEq, Brk.mk.injEq, DN.mk.injEq]
      and_intros <;> omega
    · simp only [fieldAt, BitVec.toNat_ofNat, Nat.mod_def, Nat.div_div_eq_div_mul, getBrf, getAN, getLoopr, getABN, getBrk, getDN]
      omega

/-- The formats of control registers and resuming (03 Table 3-5). -/
theorem systemFormats_lawful :
    Lawful getRR1 putRR1 0x3FE ∧ Lawful getPresMig putPresMig 0xE ∧ Lawful getCrf putCrf 0x3E ∧
    Lawful getIcinv putIcinv 0x3F0000 := by
  refine ⟨?_, ?_, ?_, ?_⟩
  all_goals
    refine lawful_of_fields ?_ fun n => congrArg (BitVec.ofNat 32) ?_ <;> simp only [and_fixed, Nat.and_zero]
    · rintro k v ⟨⟩ hk
      simp only [fieldAt, ← BitVec.toNat_inj, BitVec.toNat_ofNat, true_and,
        getRR1, getPresMig, getCrf, getIcinv, putRR1, putPresMig, putCrf, putIcinv, RR1.mk.injEq, PresMig.mk.injEq,
        Crf.mk.injEq, Icinv.mk.injEq]
      and_intros <;> omega
    · simp only [fieldAt, BitVec.toNat_ofNat, Nat.mod_def, Nat.div_div_eq_div_mul, getRR1, getPresMig, getCrf, getIcinv]
      omega

/-- The formats of global accesses and translation (03 Table 3-5). -/
theorem accessFormats_lawful :
    Lawful getGld putGld 0 ∧ Lawful getGst putGst 0xFFF ∧ Lawful getStcv putStcv 0xFFC ∧ Lawful getProbe putProbe 0x3FC ∧
    Lawful getPref putPref 0x3E0000 := by
  refine ⟨?_, ?_, ?_, ?_, ?_⟩
  all_goals
    refine lawful_of_fields ?_ fun n => congrArg (BitVec.ofNat 32) ?_ <;> simp only [and_fixed, Nat.and_zero]
    · rintro k v ⟨⟩ hk
      simp only [fieldAt, ← BitVec.toNat_inj, BitVec.toNat_ofNat, true_and,
        getGld, getGst, getStcv, getProbe, getPref, putGld, putGst, putStcv, putProbe, putPref, Gld.mk.injEq,
        Gst.mk.injEq, Stcv.mk.injEq, Probe.mk.injEq, Pref.mk.injEq]
      and_intros <;> omega
    · simp only [fieldAt, BitVec.toNat_ofNat, Nat.mod_def, Nat.div_div_eq_div_mul, getGld, getGst, getStcv, getProbe, getPref]
      omega

/-- The formats of atomics, order and cache maintenance (03 Table 3-5). -/
theorem orderFormats_lawful :
    Lawful getDrain putDrain 0x3FFFF0 ∧ Lawful getAtm putAtm 0 ∧ Lawful getAtst putAtst 0x3F0000 ∧
    Lawful getClfl putClfl 0x3F000C := by
  refine ⟨?_, ?_, ?_, ?_⟩
  all_goals
    refine lawful_of_fields ?_ fun n => congrArg (BitVec.ofNat 32) ?_ <;> simp only [and_fixed, Nat.and_zero]
    · rintro k v ⟨⟩ hk
      simp only [fieldAt, ← BitVec.toNat_inj, BitVec.toNat_ofNat, true_and,
        getDrain, getAtm, getAtst, getClfl, putDrain, putAtm, putAtst, putClfl, Drain.mk.injEq, Atm.mk.injEq,
        Atst.mk.injEq, Clfl.mk.injEq]
      and_intros <;> omega
    · simp only [fieldAt, BitVec.toNat_ofNat, Nat.mod_def, Nat.div_div_eq_div_mul, getDrain, getAtm, getAtst, getClfl]
      omega

/-- The formats of vector instructions (03 Table 3-5). -/
theorem vectorFormats_lawful :
    Lawful getVRR putVRR 0 ∧ Lawful getVShI putVShI 0x380 ∧ Lawful getVRA putVRA 0x3F0 ∧ Lawful getVCv putVCv 0 := by
  refine ⟨?_, ?_, ?_, ?_⟩
  all_goals
    refine lawful_of_fields ?_ fun n => congrArg (BitVec.ofNat 32) ?_ <;> simp only [and_fixed, Nat.and_zero]
    · rintro k v ⟨⟩ hk
      simp only [fieldAt, ← BitVec.toNat_inj, BitVec.toNat_ofNat, true_and,
        getVRR, getVShI, getVRA, getVCv, putVRR, putVShI, putVRA, putVCv, VRR.mk.injEq, VShI.mk.injEq, VRA.mk.injEq,
        VCv.mk.injEq]
      and_intros <;> omega
    · simp only [fieldAt, BitVec.toNat_ofNat, Nat.mod_def, Nat.div_div_eq_div_mul, getVRR, getVShI, getVRA, getVCv]
      omega

/-- The formats of vector masks and lane movement (03 Table 3-5). -/
theorem vectorMoveFormats_lawful :
    Lawful getVRB putVRB 0xC ∧ Lawful getVRI putVRI 0 ∧ Lawful getVEx putVEx 0x300 := by
  refine ⟨?_, ?_, ?_⟩
  all_goals
    refine lawful_of_fields ?_ fun n => congrArg (BitVec.ofNat 32) ?_ <;> simp only [and_fixed, Nat.and_zero]
    · rintro k v ⟨⟩ hk
      simp only [fieldAt, ← BitVec.toNat_inj, BitVec.toNat_ofNat, true_and,
        getVRB, getVRI, getVEx, putVRB, putVRI, putVEx, VRB.mk.injEq, VRI.mk.injEq, VEx.mk.injEq]
      and_intros <;> omega
    · simp only [fieldAt, BitVec.toNat_ofNat, Nat.mod_def, Nat.div_div_eq_div_mul, getVRB, getVRI, getVEx]
      omega

/-- The formats of the matrix unit (03 Table 3-5). -/
theorem matrixFormats_lawful :
    Lawful getTmm putTmm 0 ∧ Lawful getTab putTab 0xF000 := by
  refine ⟨?_, ?_⟩
  all_goals
    refine lawful_of_fields ?_ fun n => congrArg (BitVec.ofNat 32) ?_ <;> simp only [and_fixed, Nat.and_zero]
    · rintro k v ⟨⟩ hk
      simp only [fieldAt, ← BitVec.toNat_inj, BitVec.toNat_ofNat, true_and,
        getTmm, getTab, putTmm, putTab, Tmm.mk.injEq, Tab.mk.injEq]
      and_intros <;> omega
    · simp only [fieldAt, BitVec.toNat_ofNat, Nat.mod_def, Nat.div_div_eq_div_mul, getTmm, getTab]
      omega

/-- The formats of the banks (03 Table 3-5). -/
theorem bankFormats_lawful :
    Lawful getAcz putAcz 0xFFFFF ∧ Lawful getTac putTac 0 ∧ Lawful getAcsc putAcsc 0x3F00 ∧ Lawful getAcmv putAcmv 0xF3FFE ∧
    Lawful getAcps putAcps 0x3FFE ∧ Lawful getMprg putMprg 0x3FFF := by
  refine ⟨?_, ?_, ?_, ?_, ?_, ?_⟩
  all_goals
    refine lawful_of_fields ?_ fun n => congrArg (BitVec.ofNat 32) ?_ <;> simp only [and_fixed, Nat.and_zero]
    · rintro k v ⟨⟩ hk
      simp only [fieldAt, ← BitVec.toNat_inj, BitVec.toNat_ofNat, true_and,
        getAcz, getTac, getAcsc, getAcmv, getAcps, getMprg, putAcz, putTac, putAcsc, putAcmv, putAcps, putMprg,
        Acz.mk.injEq, Tac.mk.injEq, Acsc.mk.injEq, Acmv.mk.injEq, Acps.mk.injEq, Mprg.mk.injEq]
      and_intros <;> omega
    · simp only [fieldAt, BitVec.toNat_ofNat, Nat.mod_def, Nat.div_div_eq_div_mul, getAcz, getTac, getAcsc, getAcmv, getAcps, getMprg]
      omega

/-- The formats of engine commands (03 Table 3-5). -/
theorem engineFormats_lawful :
    Lawful getEngH putEngH 0x18 ∧ Lawful getCstat putCstat 0 ∧ Lawful getEng putEng 0x1F ∧ Lawful getEngF putEngF 0 ∧
    Lawful getEngI putEngI 0x10 := by
  refine ⟨?_, ?_, ?_, ?_, ?_⟩
  all_goals
    refine lawful_of_fields ?_ fun n => congrArg (BitVec.ofNat 32) ?_ <;> simp only [and_fixed, Nat.and_zero]
    · rintro k v ⟨⟩ hk
      simp only [fieldAt, ← BitVec.toNat_inj, BitVec.toNat_ofNat, true_and,
        getEngH, getCstat, getEng, getEngF, getEngI, putEngH, putCstat, putEng, putEngF, putEngI, EngH.mk.injEq,
        Cstat.mk.injEq, Eng.mk.injEq, EngF.mk.injEq, EngI.mk.injEq]
      and_intros <;> omega
    · simp only [fieldAt, BitVec.toNat_ofNat, Nat.mod_def, Nat.div_div_eq_div_mul, getEngH, getCstat, getEng, getEngF, getEngI]
      omega

/-- The formats of joins, channels and barriers (03 Table 3-5). -/
theorem channelFormats_lawful :
    Lawful getRufl putRufl 0x1E ∧ Lawful getKjoin putKjoin 0x3FF ∧ Lawful getChn putChn 0 ∧ Lawful getChcl putChcl 0x3F ∧
    Lawful getEngR putEngR 0x1E := by
  refine ⟨?_, ?_, ?_, ?_, ?_⟩
  all_goals
    refine lawful_of_fields ?_ fun n => congrArg (BitVec.ofNat 32) ?_ <;> simp only [and_fixed, Nat.and_zero]
    · rintro k v ⟨⟩ hk
      simp only [fieldAt, ← BitVec.toNat_inj, BitVec.toNat_ofNat, true_and,
        getRufl, getKjoin, getChn, getChcl, getEngR, putRufl, putKjoin, putChn, putChcl, putEngR, Rufl.mk.injEq,
        Kjoin.mk.injEq, Chn.mk.injEq, Chcl.mk.injEq, EngR.mk.injEq]
      and_intros <;> omega
    · simp only [fieldAt, BitVec.toNat_ofNat, Nat.mod_def, Nat.div_div_eq_div_mul, getRufl, getKjoin, getChn, getChcl, getEngR]
      omega


/-! ### Decoding -/

/-- Instruction i has legal codes, and its word at position pos is n. -/
def WordOf (pos n : Nat) (i : Instr) : Prop := encode i = some (pos, BitVec.ofNat 32 n) ∧ legal i = true

theorem wordOf_of_checked {pos n : Nat} {name : String} {i j : Instr} {w : W32} (h : checked name j = .ok i)
    (he : encode j = some (pos, w)) (hw : w = BitVec.ofNat 32 n) : WordOf pos n i := by
  unfold checked at h
  split at h
  case isTrue hl => cases h; exact ⟨hw ▸ he, hl⟩
  case isFalse => cases h

section
variable {i : Instr} {n : Nat}

theorem wordOf_of_decodeG (h : decodeG n = .ok i) : WordOf 0 n i := by
  unfold decodeG at h
  split at h
  all_goals repeat' split at h
  any_goals contradiction
  all_goals exact wordOf_of_checked h rfl (by
    simp [*, arithmeticFormats_lawful, predicateFormats_lawful, controlFormats_lawful, systemFormats_lawful])

theorem wordOf_of_decodeM (h : decodeM n = .ok i) : WordOf 2 n i := by
  unfold decodeM at h
  split at h
  all_goals repeat' split at h
  any_goals contradiction
  all_goals exact wordOf_of_checked h rfl (by
    simp [*, arithmeticFormats_lawful, controlFormats_lawful, systemFormats_lawful, accessFormats_lawful, orderFormats_lawful])

theorem wordOf_of_decodeE (h : decodeE n = .ok i) : WordOf 3 n i := by
  unfold decodeE at h
  split at h
  all_goals repeat' split at h
  any_goals contradiction
  all_goals exact wordOf_of_checked h rfl (by simp [*, vectorFormats_lawful, vectorMoveFormats_lawful])

theorem wordOf_of_decodeT (h : decodeT n = .ok i) : WordOf 5 n i := by
  unfold decodeT at h
  split at h
  all_goals repeat' split at h
  any_goals contradiction
  all_goals exact wordOf_of_checked h rfl (by simp [*, matrixFormats_lawful, bankFormats_lawful])

theorem wordOf_of_decodeD (h : decodeD n = .ok i) : WordOf 6 n i := by
  unfold decodeD at h
  split at h
  all_goals repeat' split at h
  any_goals contradiction
  all_goals exact wordOf_of_checked h rfl (by simp [*, engineFormats_lawful, channelFormats_lawful])

theorem wordOf_of_decodeC (h : decodeC n = .ok i) : WordOf 7 n i := by
  unfold decodeC at h
  split at h
  all_goals repeat' split at h
  any_goals contradiction
  all_goals exact wordOf_of_checked h rfl (by simp [*, engineFormats_lawful, channelFormats_lawful])

end

/-! ### Encoding -/

/-- Two words of fixed bits that disagree where both masks see them do not hold in one word. -/
theorem and_ne_of_and_eq {n a b v u : Nat} (h : n &&& a = v) (hne : v &&& b ≠ u &&& a) : n &&& b ≠ u := by
  rintro rfl
  exact hne (by rw [← h, Nat.and_right_comm])

section
variable {i : Instr} {w : W32}

/-- The forms of one major opcode that differ in their fixed bits are told apart by them (03 R81). -/
theorem decodeG_of_encode (h : encode i = some (0, w)) (hl : legal i = true) : decodeG w.toNat = .ok i := by
  cases i
  case presMig x =>
    obtain ⟨hmajor, hfixed, hget⟩ := (systemFormats_lawful.2.1 2952790020 (by decide) (by decide)).1 x
    cases h
    rw [decodeG, hmajor]
    simp [hfixed, hget, hl, checked, and_ne_of_and_eq hfixed]
  case movxK x =>
    obtain ⟨hmajor, hfixed, hget⟩ := (controlFormats_lawful.2.2.2.2.2 3422552066 (by decide) (by decide)).1 x
    cases h
    rw [decodeG, hmajor]
    simp [hfixed, hget, hl, checked, and_ne_of_and_eq hfixed]
  case movpW x =>
    obtain ⟨hmajor, hfixed, hget⟩ := (controlFormats_lawful.2.1 3489660930 (by decide) (by decide)).1 x
    cases h
    rw [decodeG, hmajor]
    simp [hfixed, hget, hl, checked, and_ne_of_and_eq hfixed]
  case ktstAll x =>
    obtain ⟨hmajor, hfixed, hget⟩ := (predicateFormats_lawful.2.2.2.2 3556769794 (by decide) (by decide)).1 x
    cases h
    rw [decodeG, hmajor]
    simp [hfixed, hget, hl, checked, and_ne_of_and_eq hfixed]
  any_goals cases h
  all_goals simp only [decodeG, checked, hl, arithmeticFormats_lawful, predicateFormats_lawful, controlFormats_lawful,
    systemFormats_lawful, Nat.reduceDiv, Nat.reduceMod, Nat.reduceLT, Nat.reduceAnd, Nat.and_zero, ↓reduceIte, Nat.reduceEqDiff]

theorem decodeM_of_encode (h : encode i = some (2, w)) (hl : legal i = true) : decodeM w.toNat = .ok i := by
  cases i
  any_goals cases h
  all_goals simp [decodeM, checked, hl, arithmeticFormats_lawful, controlFormats_lawful, systemFormats_lawful, accessFormats_lawful, orderFormats_lawful]

theorem decodeE_of_encode (h : encode i = some (3, w)) (hl : legal i = true) : decodeE w.toNat = .ok i := by
  cases i
  any_goals cases h
  all_goals simp [decodeE, checked, hl, vectorFormats_lawful, vectorMoveFormats_lawful]

theorem decodeT_of_encode (h : encode i = some (5, w)) (hl : legal i = true) : decodeT w.toNat = .ok i := by
  cases i
  any_goals cases h
  all_goals simp [decodeT, checked, hl, matrixFormats_lawful, bankFormats_lawful]

theorem decodeD_of_encode (h : encode i = some (6, w)) (hl : legal i = true) : decodeD w.toNat = .ok i := by
  cases i
  any_goals cases h
  all_goals simp [decodeD, checked, hl, engineFormats_lawful, channelFormats_lawful]

theorem decodeC_of_encode (h : encode i = some (7, w)) (hl : legal i = true) : decodeC w.toNat = .ok i := by
  cases i
  any_goals cases h
  all_goals simp [decodeC, checked, hl, engineFormats_lawful, channelFormats_lawful]

end

/-! ### The words of instructions -/

section
variable {i : Instr} {pos : Nat} {w : W32}

/-- What has a word is a slot's instruction or the no-operation header, and its codes alone make it well formed. -/
theorem wordForm_of_encode (h : encode i = some (pos, w)) :
    i.wf = legal i ∧ (pos ∈ [0, 2, 3, 5, 6, 7] ∧ (slotOf i).isSome = true ∨ pos = 8 ∧ ∃ x, i = .nop x ∧ w = putNop 0 x) := by
  cases i
  any_goals cases h
  case nop x => exact ⟨Bool.and_true _, .inr ⟨rfl, x, rfl, rfl⟩⟩
  all_goals exact ⟨Bool.and_true _, .inl ⟨by decide, rfl⟩⟩

theorem decodeSlot_of_encode (h : encode i = some (pos, w)) (hl : legal i = true) (hp : pos ∈ [0, 2, 3, 5, 6, 7]) :
    decodeSlot pos w = .ok i := by
  simp only [List.mem_cons, List.not_mem_nil, or_false] at hp
  rcases hp with rfl | rfl | rfl | rfl | rfl | rfl
  · exact decodeG_of_encode h hl
  · exact decodeM_of_encode h hl
  · exact decodeE_of_encode h hl
  · exact decodeT_of_encode h hl
  · exact decodeD_of_encode h hl
  · exact decodeC_of_encode h hl

/-- The position an instruction encodes to: positions 1 and 4 take the words of 0 and 3 (03 Table 3-5). -/
def homePos (pos : Nat) : Nat := if pos = 1 then 0 else if pos = 4 then 3 else pos

theorem homePos_ne_eight {pos : Nat} (h : pos < 8) : homePos pos ≠ 8 := by
  unfold homePos
  split_ifs <;> omega

theorem wordOf_of_decodeSlot (h : decodeSlot pos w = .ok i) : pos < 8 ∧ WordOf (homePos pos) w.toNat i := by
  unfold decodeSlot at h
  dsimp only at h
  split at h
  · exact ⟨by decide, wordOf_of_decodeG h⟩
  · split at h
    · exact ⟨by decide, wordOf_of_decodeG h⟩
    · contradiction
  · exact ⟨by decide, wordOf_of_decodeM h⟩
  · exact ⟨by decide, wordOf_of_decodeE h⟩
  · split at h
    · exact ⟨by decide, wordOf_of_decodeE h⟩
    · contradiction
  · exact ⟨by decide, wordOf_of_decodeT h⟩
  · exact ⟨by decide, wordOf_of_decodeD h⟩
  · exact ⟨by decide, wordOf_of_decodeC h⟩
  · contradiction

/-- The header of no slots and no reserved bits is the no-operation header's form over the word 0 (03 R69). -/
theorem nopFormat_lawful : (∀ x, (putNop 0 x).toNat &&& 0xFFE000FF = 0 ∧ getNop (putNop 0 x).toNat = x) ∧
    ∀ n, n < 2 ^ 32 → n &&& 0xFFE000FF = 0 → putNop 0 (getNop n) = BitVec.ofNat 32 n := by
  have fixed (n : Nat) : n &&& 0xFFE000FF = n / 1 % 256 * 1 + n / 2097152 % 2048 * 2097152 := and_two_runs n 0 8 21 11 (by decide)
  simp only [fixed]
  refine ⟨?_, fun n hn hfix => congrArg (BitVec.ofNat 32) ?_⟩
  · rintro ⟨⟩
    simp only [getNop, putNop, fieldAt, ← BitVec.toNat_inj, BitVec.toNat_ofNat, Nop.mk.injEq]
    and_intros <;> omega
  · have hlow : n / 1 % 256 = 0 := by omega
    have hhigh : n / 2097152 = 0 := by omega
    simp only [getNop, fieldAt, BitVec.toNat_ofNat, Nat.mod_def, Nat.div_div_eq_div_mul] at *
    omega

theorem encode_of_decodeNop (h : decodeNop w = some i) : encode i = some (8, w) := by
  unfold decodeNop at h
  split at h
  case isTrue hfix =>
    cases h
    refine congrArg (fun v => some (8, v)) ((nopFormat_lawful.2 w.toNat w.isLt hfix).trans ?_)
    rw [BitVec.ofNat_toNat, BitVec.setWidth_eq]
  case isFalse => cases h

end

/-- Settles O58: an instruction is read back from its word by the formats' laws, and a decoder answers with the fields of its word. -/
theorem encodeDecodeRoundTrip : Obligations.EncodeDecodeRoundTrip := by
  refine ⟨fun i pos w hwf h => ?_, fun i pos w h => ?_, fun i w => encode_of_decodeNop⟩
  · obtain ⟨hlegal, ⟨hpos, -⟩ | ⟨rfl, x, rfl, rfl⟩⟩ := wordForm_of_encode h
    · have hne : pos ≠ 8 := fun h8 => absurd (h8 ▸ hpos) (by decide)
      rw [decodeAt, if_neg hne, decodeSlot_of_encode h (hlegal ▸ hwf) hpos]
    · rw [decodeAt, if_pos rfl, decodeNop, if_pos (nopFormat_lawful.1 x).1, (nopFormat_lawful.1 x).2]
  · obtain ⟨hpos, henc, hlegal⟩ := wordOf_of_decodeSlot h
    rw [BitVec.ofNat_toNat, BitVec.setWidth_eq] at henc
    obtain ⟨hwf, ⟨-, hsome⟩ | ⟨h8, -⟩⟩ := wordForm_of_encode henc
    · refine ⟨by rw [encWord, henc], hwf.trans hlegal, hsome, fun h1 h4 => ?_⟩
      rwa [homePos, if_neg h1, if_neg h4] at henc
    · exact absurd h8 (homePos_ne_eight hpos)

end Sys2Proof.Machine
end

section
/-! PROOFS. Words of the tables (03 R67–R84), and what stands right after reset (20 R491). -/

namespace Sys2Proof.Machine

open Sys2Proof

/-- Settles O57: each word is decoded by computation. -/
theorem decodesTableWords : Obligations.DecodesTableWords := by
  refine ⟨?_, ?_, ?_, ?_, ?_, ?_, ?_, ?_, ?_, ?_, ?_, ?_, ?_, ?_⟩ <;> decide

theorem vLane_zero (w i : Nat) : vLane 0 w i = 0 := by
  simp [vLane, laneN]

/-- Settles O60: nothing is mapped right after reset, so each reading gives the value of an absent entry. -/
theorem resetValues : Obligations.ResetValues := by
  have issuer (k : Nat) : State.reset.th k = {} := rfl
  have context (c : Nat) : State.reset.ctx c = {} := rfl
  refine ⟨State.reset_memWf, rfl, fun a h => rfl, fun a => rfl, fun a => rfl, fun k => ?_, fun c => ?_, ?_⟩
  · rw [issuer]
    exact ⟨rfl, rfl, rfl, fun _ _ j => vLane_zero 32 j, fun _ => rfl, fun _ => rfl, fun _ => rfl, rfl, rfl, rfl, rfl, rfl, rfl, rfl, rfl, rfl,
      fun _ => rfl, rfl, rfl⟩
  · rw [context]
    exact ⟨rfl, rfl, rfl, rfl, rfl, rfl, rfl⟩
  · exact ⟨rfl, rfl, rfl, rfl, rfl, rfl, rfl, rfl, rfl, rfl, rfl, rfl, rfl, rfl, rfl, rfl, rfl, rfl⟩

end Sys2Proof.Machine
end

section
/-! PROOFS. The bits of the helper functions on numbers, and what MOVI, MOVHI, SEL, BITOP, BFX and DIV deliver (04 R106–R110). -/

namespace Sys2Proof.Machine

open Sys2Proof

/-! ### Bits of numbers and words (00 Table 0-5) -/

theorem testBit_laneN (x w i j : Nat) : (laneN x w i).testBit j = (decide (j < w) && x.testBit (w * i + j)) := by
  rw [laneN, Nat.testBit_mod_two_pow, Nat.testBit_shiftRight]

theorem laneN_lt (x w i : Nat) : laneN x w i < 2 ^ w := Nat.mod_lt _ (Nat.two_pow_pos w)

theorem laneN_packLE (w : Nat) (l : List Nat) (i : Nat) : laneN (packLE w l) w i = l.getD i 0 % 2 ^ w := by
  induction l generalizing i with
  | nil => simp [packLE, laneN]
  | cons x r ih =>
    cases i with
    | zero => simp [packLE, laneN]
    | succ i =>
      have shift : (x % 2 ^ w + 2 ^ w * packLE w r) >>> w = packLE w r := by
        rw [Nat.shiftRight_eq_div_pow, Nat.add_mul_div_left _ _ (Nat.two_pow_pos w),
          Nat.div_eq_of_lt (Nat.mod_lt _ (Nat.two_pow_pos w)), Nat.zero_add]
      have step : laneN (packLE w (x :: r)) w (i + 1) = laneN (packLE w r) w i := by
        rw [laneN, laneN, packLE, Nat.mul_succ, Nat.add_comm (w * i), Nat.shiftRight_add, shift]
      rw [step, ih, List.getD_cons_succ]

/-- Reading a number in two's complement is the library's `toInt`. -/
theorem sextI_eq_toInt (x w : Nat) : sextI x (w + 1) = (BitVec.ofNat (w + 1) x).toInt := by
  have half : 2 * 2 ^ w = 2 ^ (w + 1) := by ring
  simp only [sextI, BitVec.toInt, BitVec.toNat_ofNat, Nat.add_sub_cancel]
  split <;> split <;> omega

/-- Sign extension repeats bit n. -/
theorem getLsbD_w64_sextI {x n i : Nat} (hi : i < 64) : (w64 (sextI x (n + 1))).getLsbD i = x.testBit (min i n) := by
  rw [sextI_eq_toInt, w64_toInt, BitVec.getLsbD_signExtend, decide_eq_true hi, Bool.true_and]
  split
  · next h => rw [BitVec.getLsbD_ofNat, decide_eq_true h, Bool.true_and, Nat.min_eq_left (Nat.lt_succ_iff.mp h)]
  · next h =>
    rw [BitVec.msb_eq_getLsbD_last, BitVec.getLsbD_ofNat, Nat.add_sub_cancel, Nat.min_eq_right (by omega)]
    simp

theorem popN_le (n x : Nat) : popN n x ≤ n := (List.length_filter_le _ _).trans_eq List.length_range

theorem clzN_spec {w x : Nat} (hx : x < 2 ^ w) : clzN w x ≤ w ∧ (∀ i, i < clzN w x → x.testBit (w - 1 - i) = false) ∧
    (clzN w x < w → x.testBit (w - 1 - clzN w x) = true) := by
  rcases Nat.eq_zero_or_pos x with rfl | h0
  · simp [clzN]
  · have hn : x ≠ 0 := h0.ne'
    have hlog : Nat.log2 x < w := (Nat.log2_lt hn).mpr hx
    have hc : clzN w x = w - 1 - Nat.log2 x := by simp [clzN, hn, log2N]
    rw [hc]
    refine ⟨by omega, fun i hi => ?_, fun _ => ?_⟩
    · exact Nat.testBit_lt_two_pow ((Nat.log2_lt hn).mp (by omega))
    · rw [show w - 1 - (w - 1 - Nat.log2 x) = Nat.log2 x by omega]
      exact Nat.testBit_log2 hn

theorem ctzN_spec (w x : Nat) : ctzN w x ≤ w ∧ (∀ i, i < ctzN w x → x.testBit i = false) ∧
    (ctzN w x < w → x.testBit (ctzN w x) = true) := by
  unfold ctzN
  cases h : (List.range w).find? fun i => x.testBit i with
  | none =>
    refine ⟨le_rfl, fun i hi => ?_, fun h => absurd h (lt_irrefl w)⟩
    simpa using List.find?_eq_none.mp h i (List.mem_range.mpr hi)
  | some n =>
    obtain ⟨hbit, hmem, hless⟩ := List.find?_range_eq_some.mp h
    exact ⟨(List.mem_range.mp hmem).le, fun i hi => by simpa using hless i hi, fun _ => hbit⟩

/-! ### BITOP and BFX (04 Table 4-3, R109) -/

theorem getLsbD_brev64 (a : W64) {i : Nat} (hi : i < 64) : (brev64 a).getLsbD i = a.getLsbD (63 - i) := by
  rw [brev64, getLsbD_boolBits _ hi, decide_eq_true hi, Bool.true_and]

theorem getLsbD_bswap64 (a : W64) {i j : Nat} (hi : i < 8) (hj : j < 8) :
    (bswap64 a).getLsbD (8 * i + j) = a.getLsbD (8 * (7 - i) + j) := by
  have lane := testBit_laneN (packLE 8 ((List.range 8).map fun i => laneN a.toNat 8 (7 - i))) 8 i j
  have byte : ((List.range 8).map fun i => laneN a.toNat 8 (7 - i)).getD i 0 = laneN a.toNat 8 (7 - i) := by simp [hi]
  rw [laneN_packLE, byte, Nat.mod_eq_of_lt (laneN_lt _ _ _), testBit_laneN, decide_eq_true hj, Bool.true_and, Bool.true_and] at lane
  rw [bswap64, BitVec.getLsbD_ofNat, ← lane, decide_eq_true (by omega), Bool.true_and]
  rfl

theorem fld_eq (b : W64) (hi lo : Nat) : fld b hi lo = b.toNat / 2 ^ lo % 2 ^ (hi + 1 - lo) := by
  rw [fld, bitsN, Nat.shiftRight_eq_div_pow]

theorem getLsbD_bfxExtract (a : W64) (lo w : Nat) {i : Nat} (hi : i < 64) :
    (BitVec.ofNat 64 ((a.toNat >>> lo) % 2 ^ w)).getLsbD i = (decide (i < w) && a.getLsbD (lo + i)) := by
  rw [BitVec.getLsbD_ofNat, Nat.testBit_mod_two_pow, Nat.testBit_shiftRight, decide_eq_true hi, Bool.true_and]
  rfl

/-- The bits of the field that BFX.ins replaces. -/
theorem getLsbD_fieldMask (lo w : Nat) {i : Nat} (hi : i < 64) :
    (BitVec.ofNat 64 ((2 ^ w - 1) * 2 ^ lo)).getLsbD i = decide (lo ≤ i ∧ i < lo + w) := by
  rw [BitVec.getLsbD_ofNat, ← Nat.shiftLeft_eq, Nat.testBit_shiftLeft, Nat.testBit_two_pow_sub_one, decide_eq_true hi,
    Bool.true_and, ← Bool.decide_and, decide_eq_decide]
  omega

theorem getLsbD_insert (a d : W64) (lo w : Nat) {i : Nat} (hi : i < 64) :
    ((a <<< lo) &&& BitVec.ofNat 64 ((2 ^ w - 1) * 2 ^ lo) ||| (d &&& ~~~BitVec.ofNat 64 ((2 ^ w - 1) * 2 ^ lo))).getLsbD i =
      if lo ≤ i ∧ i < lo + w then a.getLsbD (i - lo) else d.getLsbD i := by
  rw [BitVec.getLsbD_or, BitVec.getLsbD_and, BitVec.getLsbD_and, BitVec.getLsbD_not, getLsbD_fieldMask lo w hi,
    BitVec.getLsbD_shiftLeft]
  by_cases h : lo ≤ i ∧ i < lo + w
  · simp [h, hi, Nat.not_lt.mpr h.1]
  · simp [h, hi]

/-! ### The operations -/

theorem opMovi_delivers (x : RI) : (opMovi x).Delivers 1 fun _ => .s x.d.toNat (x.i.signExtend 64) false := ⟨rfl, rfl, rfl, rfl⟩

theorem opMovhi_delivers (x : RI) : (opMovhi x).Delivers 1 fun c => .s x.d.toNat ((c.sv x.d.toNat <<< 16) ||| x.i.setWidth 64) false :=
  ⟨rfl, rfl, rfl, rfl⟩

theorem opSel_delivers (x : RRR) : (opSel x).Delivers 1 fun c =>
    .s x.d.toNat (if c.t.p x.f.toNat then c.sv x.a.toNat else c.sv x.b.toNat) false := ⟨rfl, rfl, rfl, rfl⟩

theorem opBfx_delivers (x : RRR) : (opBfx x).Delivers 1 fun c =>
    .s x.d.toNat (bfxF x.f.toNat (c.sv x.d.toNat) (c.sv x.a.toNat) (c.sv x.b.toNat)) false := ⟨rfl, rfl, rfl, rfl⟩

/-- The quotients and remainders of 04 Table 4-4, the unsigned ones as words. -/
theorem divF_eq (n : Nat) (a b : W64) : divF n a b = match n with
    | 0 => if b = 0 then BitVec.allOnes 64 else BitVec.ofInt 64 (a.toInt.tdiv b.toInt)
    | 1 => if b = 0 then BitVec.allOnes 64 else a / b
    | 2 => if b = 0 then a else BitVec.ofInt 64 (a.toInt.tmod b.toInt)
    | _ => if b = 0 then a else a % b := by
  have quotient : BitVec.ofNat 64 (a.toNat / b.toNat) = a / b := by
    rw [← BitVec.toNat_udiv, BitVec.ofNat_toNat, BitVec.setWidth_eq]
  have remainder : BitVec.ofNat 64 (a.toNat % b.toNat) = a % b := by
    rw [← BitVec.toNat_umod, BitVec.ofNat_toNat, BitVec.setWidth_eq]
  match n with
  | 0 | 2 => rfl
  | 1 => rw [← quotient]; rfl
  | n + 3 => rw [← remainder]; rfl

/-- Settles O2: each form puts one result in flight at commit, whose bits are read by the facts about its function. -/
theorem scalarMoves : Obligations.ScalarMoves := by
  intro s u k r
  refine ⟨fun x hc => ?_, fun x hc => ?_, fun x hc => ?_, fun x => ?_, fun x => ?_, fun x => ?_⟩
  · exact (opMovi_delivers x).exec_eq ⟨rfl, fun _ => rfl⟩ hc
  · exact (opMovhi_delivers x).exec_eq ⟨rfl, fun _ => rfl⟩ hc
  · exact (opSel_delivers x).exec_eq ⟨rfl, fun _ => rfl⟩ hc
  · intro a n hc
    refine ⟨bitopF x.f.toNat a (r x.b.toNat), (rrrOp_delivers x _ _ _).exec_eq (i := .bitop x) ⟨rfl, fun _ => rfl⟩ hc, ?_⟩
    have small {m : Nat} (h : m ≤ 64) : (BitVec.ofNat 64 m).toNat = m := by rw [BitVec.toNat_ofNat]; omega
    have hclz := clzN_spec a.isLt
    have hctz := ctzN_spec 64 a.toNat
    refine ⟨fun h => ?_, fun h => ?_, fun h => ?_, fun h i hi => ?_, fun h i j hi hj => ?_, fun h i hi => ?_, fun h i hi => ?_⟩ <;>
      rw [h]
    · exact small (popN_le 64 a.toNat)
    · show (BitVec.ofNat 64 (clzN 64 a.toNat)).toNat ≤ 64 ∧ _
      rw [show (bitopF (1 : BitVec 3).toNat a (r x.b.toNat)).toNat = clzN 64 a.toNat from small hclz.1, small hclz.1]
      exact hclz
    · show (BitVec.ofNat 64 (ctzN 64 a.toNat)).toNat ≤ 64 ∧ _
      rw [show (bitopF (2 : BitVec 3).toNat a (r x.b.toNat)).toNat = ctzN 64 a.toNat from small hctz.1, small hctz.1]
      exact hctz
    · exact getLsbD_brev64 a hi
    · exact getLsbD_bswap64 a hi hj
    · exact getLsbD_w64_sextI hi
    · show (BitVec.ofNat 64 (a.toNat % 2 ^ (n + 1))).getLsbD i = _
      rw [BitVec.getLsbD_ofNat, Nat.testBit_mod_two_pow, decide_eq_true hi, Bool.true_and, Bool.and_comm]
      simp only [Nat.lt_succ_iff]
      rfl
  · intro a d b lo w hc
    refine ⟨_, (opBfx_delivers x).exec_eq (i := .bfx x) ⟨rfl, fun _ => rfl⟩ hc, ?_⟩
    show (_ → ∀ i, i < 64 → (bfxF x.f.toNat d a (r x.b.toNat)).getLsbD i = _) ∧
      (_ → ∀ i, i < 64 → (bfxF x.f.toNat d a (r x.b.toNat)).getLsbD i = _) ∧
      (_ → ∀ i, i < 64 → (bfxF x.f.toNat d a (r x.b.toNat)).getLsbD i = _)
    have hlo : fld (r x.b.toNat) 5 0 = lo := by rw [fld_eq]; simp [lo, b]
    have hw : min (fld (r x.b.toNat) 14 8) (64 - lo) = w := by rw [fld_eq]; rfl
    simp only [bfxF, hlo, hw]
    refine ⟨fun h i hi => ?_, fun h i hi => ?_, fun h i hi => ?_⟩ <;> rw [h]
    · exact getLsbD_bfxExtract a lo w hi
    · show BitVec.getLsbD (if w = 0 then 0 else w64 (sextI (a.toNat >>> lo) w)) i = _
      rcases hz : w with _ | m
      · simp
      · rw [if_neg (Nat.succ_ne_zero m), getLsbD_w64_sextI hi, Nat.testBit_shiftRight]
        simp [BitVec.testBit_toNat]
    · exact getLsbD_insert a d lo w hi
  · intro a b hc
    refine (issueOne_of_commits hc (o := opDiv x) rfl).trans ?_
    exact congrArg (fun y => committed u k fun v =>
      (v.fly k 18 (.s x.d.toNat y false)).modTh k fun t => { t with divFree := (u.th k).scyc + 18 }) (divF_eq x.f.toNat a b)

end Sys2Proof.Machine
end

section
/-! PROOFS. When the scalar and predicate instructions commit: what only its codes, its guard, its scalar sources and a schedule can stop (03 R86, 04 R105–R114, R127). -/

namespace Sys2Proof.Machine

open Sys2Proof

/-! ### Operations that only their codes, their guard, their scalar sources and a schedule can stop (03 R86) -/

/-- An operation of every issuer, with scalar sources alone, no check, hold or scratchpad access of its own, and no transfer. -/
structure SlotOp.Plain (o : SlotOp) : Prop where
  whr : o.whr = .any
  srcV : o.srcV = []
  srcB : o.srcB = []
  ill : o.ill = fun _ => false
  chk : o.chk = fun _ => none
  hold : o.hold = fun _ => none
  post : o.post = fun _ => none
  spRuns : o.spRuns = fun _ => []
  brk : o.brk = none
  impure : o.impure = fun _ => none
  xfer : o.xfer = fun _ => false
  endBad : o.endBad = fun _ => false

/-- Every other field of a plain operation has its default. -/
theorem SlotOp.Plain.of_eq {o : SlotOp} (h : o =
    { g := o.g, gn := o.gn, legal := o.legal, dsts := o.dsts, banks := o.banks
      srcS := o.srcS, sched := o.sched, onHold := o.onHold, draws := o.draws, barb := o.barb, stop := o.stop, eff := o.eff }) : o.Plain :=
  ⟨congrArg SlotOp.whr h, congrArg SlotOp.srcV h, congrArg SlotOp.srcB h, congrArg SlotOp.ill h, congrArg SlotOp.chk h,
    congrArg SlotOp.hold h, congrArg SlotOp.post h, congrArg SlotOp.spRuns h, congrArg SlotOp.brk h, congrArg SlotOp.impure h,
    congrArg SlotOp.xfer h, congrArg SlotOp.endBad h⟩

theorem spMissing_nil (s : State) (c cl : Nat) : s.spMissing c cl [] = [] := rfl

theorem purityFault_of_pure {c : IC} {o : SlotOp} (h : o.impure c = none) : purityFault c o = none := by
  unfold purityFault
  split
  · rw [h, Option.map_none, ite_self]
  · rfl

theorem SlotOp.Plain.clear {u : State} {k pos : Nat} {h : Header} {w : W32} {o : SlotOp} (hp : o.Plain) (hlegal : o.legal = true)
    (hon : o.on (u.th k) = true) (hsrc : ∀ n ∈ o.srcS, (u.th k).sBad n = false) (hsched : o.sched (oneIC u k pos w h) = false) :
    Clear u k pos h w o where
  static := by rw [slotStatic_eq_refusal hlegal (by rw [hp.ill]), hp.whr]; rfl
  guard := hon
  early := by
    have sound : o.poisoned (oneIC u k pos w h) = false := by
      simpa [SlotOp.poisoned, hp.srcV, hp.srcB, oneIC, IC.t] using hsrc
    simp [slotEarly, hsched, hp.xfer, hp.endBad, sound, hp.chk]
  ports := Or.inr (by rw [hp.srcV]; rfl)
  noBrk := hp.brk
  free := by simp [slotHold, hp.hold, hp.spRuns, spMissing_nil]
  late := by simp [slotPost, hp.post, purityFault_of_pure (congrFun hp.impure _)]

theorem commits_of_plain {s u : State} {k : Nat} {i : Instr} {o : SlotOp} (hcur : s.cur = k) (hi : Issues s k) (hb : s.begun k = u)
    (hf : Fits u k) (ho : slotOf i = some o) (hp : o.Plain) (hlegal : o.legal = true) (hon : o.on (u.th k) = true)
    (hsrc : ∀ n ∈ o.srcS, (u.th k).sBad n = false) (hsched : o.sched (oneIC u k 0 (encWord i)) = false) : Commits s u k 0 i :=
  ⟨hcur, hi, hb, hf, Or.inl (Or.inl rfl), o, ho, hp.clear hlegal hon hsrc hsched⟩

/-! ### The guard (03 R78) -/

theorem on_of_guard {o : SlotOp} {t : Thr} {g : Nat} {n : BitVec 1} (hg : o.g = g) (hn : o.gn = (n == 1)) (h : t.p g = (n == 0)) :
    o.on t = true := by
  have exclusive : ∀ n : BitVec 1, ((n == 0) != (n == 1)) = true := by decide
  rw [SlotOp.on, hg, hn, h, exclusive n]

/-! ### The statement -/

/-- Settles O4: every form is plain, and only DIV stands in a schedule. -/
theorem scalarNeverStalls : Obligations.ScalarNeverStalls := by
  intro s u k hcur hi hb hf on ok
  have pair {a b : BitVec 6} (ha : ok a) (hb : ok b) : ∀ n ∈ [a.toNat, b.toNat], (u.th k).sBad n = false := by
    simpa using ⟨ha, hb⟩
  have one {a : BitVec 6} (ha : ok a) : ∀ n ∈ [a.toNat], (u.th k).sBad n = false := by simpa using ha
  have none : ∀ n ∈ ([] : List Nat), (u.th k).sBad n = false := by simp
  have issue {i : Instr} {o : SlotOp} (ho : slotOf i = some o) (hp : o.Plain) (hlegal : o.legal = true) (hon : o.on (u.th k) = true)
      (hsrc : ∀ n ∈ o.srcS, (u.th k).sBad n = false) (hsched : o.sched (oneIC u k 0 (encWord i)) = false) : Commits s u k 0 i :=
    commits_of_plain hcur hi hb hf ho hp hlegal hon hsrc hsched
  refine ⟨fun x hg ha hb => ?_, fun x hg ha hb hd hl => ?_, fun x hg ha hb hfree hl => ?_, fun x hg ha => ?_, fun x hg ha => ?_,
    fun x hg => ⟨?_, fun hd => ?_⟩, fun x hg ha hb hl => ?_, fun x hg ha hl => ?_, fun x hg hl => ?_, fun x hg hl => ?_,
    fun x hg hl => ?_, fun x hg => ⟨fun hl => ?_, fun hl => ?_⟩, fun x hg ha hl => ?_, fun x hg hl => ?_⟩
  · have form {i : Instr} {lat : Nat} {f : W64 → W64 → W64} (ho : slotOf i = some (rrrOp x (legal i) lat f)) (hl : legal i = true) :
        Commits s u k 0 i := issue ho (.of_eq rfl) hl (on_of_guard rfl rfl hg) (pair ha hb) rfl
    simp only [List.forall_mem_cons]
    exact ⟨form rfl, form rfl, form rfl, form rfl, form rfl, form rfl, form rfl, form rfl, form rfl, form rfl, form rfl, form rfl,
      form rfl, form rfl, form rfl, form rfl, form rfl,
      fun hl => issue (o := opSel x) rfl (.of_eq rfl) hl (on_of_guard rfl rfl hg) (pair ha hb) rfl,
      form rfl, List.forall_mem_nil _⟩
  · refine issue (o := opBfx x) rfl (.of_eq rfl) hl (on_of_guard rfl rfl hg) ?_ rfl
    by_cases hins : x.f = 2
    · rw [show (opBfx x).srcS = [x.a.toNat, x.b.toNat, x.d.toNat] from if_pos hins]
      simpa using And.intro ha (And.intro hb (hd hins))
    · rw [show (opBfx x).srcS = [x.a.toNat, x.b.toNat] from if_neg hins]
      exact pair ha hb
  · exact issue (o := opDiv x) rfl (.of_eq rfl) hl (on_of_guard rfl rfl hg) (pair ha hb) (decide_eq_false (Nat.not_lt.mpr hfree))
  · have form {i : Instr} {f : W64 → W64 → W64} (ho : slotOf i = some (rriOp x f)) : Commits s u k 0 i :=
      issue ho (.of_eq rfl) rfl (on_of_guard rfl rfl hg) (one ha) rfl
    simp only [List.forall_mem_cons]
    exact ⟨form rfl, form rfl, form rfl, form rfl, List.forall_mem_nil _⟩
  · have form {i : Instr} {f : W64 → Nat → W64} (ho : slotOf i = some (shiOp x f)) : Commits s u k 0 i :=
      issue ho (.of_eq rfl) rfl (on_of_guard rfl rfl hg) (one ha) rfl
    simp only [List.forall_mem_cons]
    exact ⟨form rfl, form rfl, form rfl, List.forall_mem_nil _⟩
  · exact issue (o := opMovi x) rfl (.of_eq rfl) rfl (on_of_guard rfl rfl hg) none rfl
  · exact issue (o := opMovhi x) rfl (.of_eq rfl) rfl (on_of_guard rfl rfl hg) (one hd) rfl
  · exact issue (o := opCmp x) rfl (.of_eq rfl) hl (on_of_guard rfl rfl hg) (pair ha hb) rfl
  · exact issue (o := opCmpi x) rfl (.of_eq rfl) hl (on_of_guard rfl rfl hg) (one ha) rfl
  · exact issue (o := opPlog x) rfl (.of_eq rfl) hl (on_of_guard rfl rfl hg) none rfl
  · exact issue (o := opKtst x) rfl (.of_eq rfl) hl (on_of_guard rfl rfl hg) none rfl
  · exact issue (o := opKtstAll x) rfl (.of_eq rfl) hl (on_of_guard rfl rfl hg) none rfl
  · exact issue (o := opMovp x) rfl (.of_eq rfl) hl (on_of_guard rfl rfl hg) none rfl
  · exact issue (o := opMovxK x) rfl (.of_eq rfl) hl (on_of_guard rfl rfl hg) none rfl
  · exact issue (o := opMovpW x) rfl (.of_eq rfl) hl (on_of_guard rfl rfl hg) (one ha) rfl
  · exact issue (o := opMovx x) rfl (.of_eq rfl) hl (on_of_guard rfl rfl hg) none rfl

end Sys2Proof.Machine
end

section
/-! PROOFS. What a write of the part leaves as it was, and the start of a commit. -/

namespace Sys2Proof.Machine

open Sys2Proof

/-! ### What no write of the part's own changes (10 R291)

A write at a home ends copies, wakes watchers and cancels watches, and one that must wait stands as a request of the part's own; all
else is as it was.  That is one equation between the states without those parts, so it goes along a run of writes by transitivity. -/

/-- An issuer but for the mark of its WAITM. -/
def Thr.unwatched (t : Thr) : Thr := { t with waitm := none }

/-- A task but for the cancelling of its watch. -/
def Task.uncancelled (t : Task) : Task := { t with cancelled := false }

/-- The state without what a write or read of the part's may change. -/
def State.kept (s : State) : State :=
  { s with mem := [], tags := [], l1 := [], hostLines := [], dir := [], l2 := [], fresh := 0, links := [], pages := [], spCache := []
           nextId := 0, reqs := s.reqs.filter fun r => r.key != partKey, tasks := s.tasks.map Task.uncancelled
           thr := s.thr.map fun e => (e.1, e.2.unwatched) }

theorem getD_map {α β : Type} (f : α → β) (d : α) (m : Map α) (k : Nat) :
    getD (f d) (m.map fun e => (e.1, f e.2)) k = f (getD d m k) := by
  induction m with
  | nil => rfl
  | cons e r ih =>
    simp only [List.map_cons, getD]
    split
    · rfl
    · exact ih

theorem State.th_kept (s : State) (k : Nat) : s.kept.th k = (s.th k).unwatched := getD_map Thr.unwatched {} s.thr k

theorem State.th_of_kept {s t : State} (h : t.kept = s.kept) (k : Nat) : (t.th k).unwatched = (s.th k).unwatched := by
  rw [← State.th_kept, ← State.th_kept, h]

theorem State.kept_foldl {α : Type} {f : State → α → State} (h : ∀ s a, (f s a).kept = s.kept) (l : List α) (s : State) :
    (l.foldl f s).kept = s.kept := foldl_keeps (fun t => t.kept = s.kept) (fun t a ht => (h t a).trans ht) l rfl

theorem State.kept_forN {f : Nat → State → State} (h : ∀ i s, (f i s).kept = s.kept) (n : Nat) (s : State) :
    (forN n s f).kept = s.kept := State.kept_foldl (fun s i => h i s) _ s

theorem State.kept_ite {b : Prop} [Decidable b] {s t u : State} (ht : t.kept = s.kept) (hu : u.kept = s.kept) :
    (if b then t else u).kept = s.kept := by
  split <;> assumption

/-- That state but for its issuers. -/
def State.around (s : State) : State := { s.kept with thr := [] }

theorem State.around_of_kept {s t : State} (h : t.kept = s.kept) : t.around = s.around := congrArg (fun u : State => { u with thr := [] }) h

@[simp] theorem State.around_setTh (s : State) (k : Nat) (t : Thr) : (s.setTh k t).around = s.around := rfl
@[simp] theorem State.around_modTh (s : State) (k : Nat) (f : Thr → Thr) : (s.modTh k f).around = s.around := rfl
@[simp] theorem State.around_fly (s : State) (k n : Nat) (l : Land) : (s.fly k n l).around = s.around := rfl

/-! ### One line -/

theorem State.kept_setTag (s : State) (pa : Nat) (t : BitVec 4) : (s.setTag pa t).kept = s.kept := rfl

theorem State.kept_wake (s : State) (line : Nat) : (s.wake line).kept = s.kept := by
  have unwatched (e : Nat × Thr) : (fun e : Nat × Thr => (e.1, e.2.unwatched)) (match e.2.waitm with
      | some (l, _) => if l = line then (e.1, { e.2 with waitm := some (l, true) }) else e
      | none => e) = (e.1, e.2.unwatched) := by
    split
    · split <;> rfl
    · rfl
  simp only [State.kept, State.wake, List.map_map]
  congr 1
  exact List.map_congr_left fun e _ => unwatched e

theorem State.kept_watchHit (s : State) (line : Nat) (own : Option (Nat × Nat)) : (s.watchHit line own).kept = s.kept := by
  simp only [State.kept, State.watchHit]
  congr 1
  split
  · rfl
  · rw [List.map_map]
    refine List.map_congr_left fun t _ => ?_
    simp only [Function.comp]
    split <;> rfl

theorem State.kept_lineWrite (s : State) (pa : Nat) (bs : List Byte) (own : Option (Nat × Nat)) :
    (s.lineWrite pa bs own).kept = s.kept := (State.kept_watchHit ..).trans (State.kept_wake ..)

theorem State.kept_hostFlit (s : State) (line : Nat) : (s.hostFlit line).kept = s.kept := State.kept_ite rfl rfl

theorem State.kept_homeWrite (s : State) (pa : Nat) (bs : List Byte) (own : Option (Nat × Nat)) :
    (s.homeWrite pa bs own).kept = s.kept := (State.kept_hostFlit ..).trans (State.kept_lineWrite ..)

theorem State.kept_othersRead (s : State) (line k : Nat) : (s.othersRead line k).kept = s.kept := State.kept_hostFlit ..

theorem State.kept_afreshLine (s t : State) (line : Nat) : (s.afreshLine line t).kept = t.kept := by
  unfold State.afreshLine
  exact State.kept_foldl (f := State.pageAfresh) (fun _ _ => rfl) _ t

/-! ### The part's own writes -/

theorem State.kept_partDone (s : State) (pa : Nat) (bs : List Byte) (tag : Option (BitVec 4)) : (s.partDone pa bs tag).kept = s.kept := by
  cases tag
  · exact State.kept_ite (State.kept_homeWrite ..) (State.kept_homeWrite ..)
  · exact State.kept_homeWrite ..

theorem State.kept_partLater (s : State) (pa : Nat) (bs : List Byte) (tag : Option (BitVec 4)) :
    (s.partLater pa bs tag).kept = s.kept := by
  simp [State.kept, State.partLater]

theorem State.kept_partWrite (s : State) (pa : Nat) (bs : List Byte) (tag : Option (BitVec 4)) : (s.partWrite pa bs tag).kept = s.kept :=
  State.kept_ite ((State.kept_afreshLine ..).trans (State.kept_partDone ..)) (State.kept_partLater ..)

theorem State.kept_vputN (s : State) (c va n v : Nat) : (s.vputN c va n v).kept = s.kept := by
  unfold State.vputN
  split
  · rfl
  · exact State.kept_ite rfl (State.kept_partWrite ..)

theorem State.kept_vputRun (s : State) (c va : Nat) (bs : List Byte) : (s.vputRun c va bs).kept = s.kept := by
  refine State.kept_forN (fun i s => ?_) _ s
  dsimp only
  split
  · rfl
  · exact State.kept_ite rfl (State.kept_partWrite ..)

theorem State.kept_logFw (s : State) (kind addr agent : Nat) : (s.logFw kind addr agent).kept = s.kept :=
  State.kept_ite rfl (State.kept_ite ((State.kept_partWrite ..).trans (State.kept_partWrite ..)) (State.kept_partWrite ..))

theorem State.kept_log (s : State) (c kind addr agent : Nat) : (s.log c kind addr agent).kept = s.kept :=
  State.kept_ite (State.kept_logFw ..)
    (State.kept_ite ((State.kept_vputN ..).trans (State.kept_vputRun ..)) (State.kept_vputN ..))

theorem State.kept_structBad (s : State) (c va : Nat) : (s.structBad c va).kept = s.kept := by
  unfold State.structBad
  split
  · rfl
  · exact State.kept_ite (State.kept_log ..) rfl

theorem State.kept_vwrN (s : State) (c va n v : Nat) : (s.vwrN c va n v).kept = s.kept :=
  (State.kept_vputN ..).trans (State.kept_structBad ..)

theorem State.kept_vwrRun (s : State) (c va : Nat) (bs : List Byte) : (s.vwrRun c va bs).kept = s.kept :=
  (State.kept_vputRun ..).trans (State.kept_forN (fun _ _ => State.kept_structBad ..) _ s)

theorem State.kept_partPut (s : State) (c pa : Nat) (bs : List Byte) : (s.partPut c pa bs).kept = s.kept :=
  State.kept_ite (State.kept_log ..) (State.kept_partWrite ..)

theorem State.kept_agentWrite (s : State) (c pa : Nat) (bs : List Byte) (tag : Option (BitVec 4)) :
    (s.agentWrite c pa bs tag).kept = s.kept := by
  unfold State.agentWrite
  split
  · exact State.kept_log ..
  · exact State.kept_ite (State.kept_log ..) (State.kept_partWrite ..)

theorem State.kept_vshare (s : State) (c va n core : Nat) : (s.vshare c va n core).kept = s.kept := by
  refine State.kept_forN (fun i s => ?_) _ s
  dsimp only
  split
  · rfl
  · exact State.kept_ite (State.kept_log ..) (State.kept_othersRead ..)

theorem State.kept_traceLog (s : State) (c w0 baddr w3 : Nat) : (s.traceLog c w0 baddr w3).kept = s.kept :=
  State.kept_ite rfl
    (State.kept_ite ((State.kept_agentWrite ..).trans (State.kept_agentWrite ..)) (State.kept_agentWrite ..))

/-! ### A hold that ends, and the start of a commit (19 R481, 03 R71) -/

/-- An issuer no longer held. -/
def Thr.unheld (t : Thr) : Thr :=
  if t.held.isSome then { t with held := none, holdFrom := none, needs := [], chanHeld := none } else t

@[simp] theorem State.around_stallEnd (s : State) (k : Nat) : (s.stallEnd k).around = s.around := by
  unfold State.stallEnd
  dsimp only
  split
  · rfl
  · rw [State.around_modTh]
    exact State.around_of_kept (State.kept_ite (State.kept_traceLog ..) rfl)

/-- The end of a hold may write the trace ring; of its issuer it changes only the hold. -/
theorem State.th_stallEnd (s : State) (k j : Nat) :
    ((s.stallEnd k).th j).unwatched = if j = k then (s.th k).unheld.unwatched else (s.th j).unwatched := by
  unfold State.stallEnd
  dsimp only
  split
  · next h => split <;> simp_all [Thr.unheld]
  · next cause h =>
    have traced : (if (s.th k).stallArmed && s.tracing (s.ctxOf k) then s.traceLog (s.ctxOf k) (k % 4096 * 2 ^ 20 + 2) (s.th k).pc
        ((s.gcyc - (s.th k).heldFrom) * 2 ^ 32 + cause) else s).kept = s.kept := State.kept_ite (State.kept_traceLog ..) rfl
    rw [State.th_modTh]
    split
    · rw [Thr.unheld, h]
      exact congrArg (fun t : Thr => { t with held := none, holdFrom := none, needs := [], chanHeld := none })
        (State.th_of_kept traced k)
    · exact State.th_of_kept traced j

/-- An issuer where its commit of n bytes with d draws begins. -/
def Thr.advanced (t : Thr) (n d : Nat) : Thr :=
  { t.unheld with pc := (t.pc + n) % 2 ^ 52, told := false, srstate := if d = 0 then t.srstate else srAfter t.srstate d }

theorem Thr.unheld_pc (t : Thr) : t.unheld.pc = t.pc := by unfold Thr.unheld; split <;> rfl
theorem Thr.unheld_srstate (t : Thr) : t.unheld.srstate = t.srstate := by unfold Thr.unheld; split <;> rfl

@[simp] theorem State.around_advance (s : State) (k n d : Nat) : (s.advance k n d).around = s.around := State.around_stallEnd s k

theorem State.th_advance (s : State) (k n d j : Nat) :
    ((s.advance k n d).th j).unwatched = if j = k then ((s.th k).advanced n d).unwatched else (s.th j).unwatched := by
  have stall := s.th_stallEnd k j
  unfold State.advance
  rw [State.th_modTh]
  by_cases h : j = k
  · subst h
    rw [if_pos rfl] at stall
    have sr : ((s.stallEnd j).th j).srstate = (s.th j).srstate := (congrArg Thr.srstate stall).trans (s.th j).unheld_srstate
    rw [if_pos rfl, if_pos rfl, sr]
    exact congrArg (fun t : Thr =>
      { t with pc := ((s.th j).pc + n) % 2 ^ 52, told := false
               srstate := if d = 0 then (s.th j).srstate else srAfter (s.th j).srstate d }) stall
  · simpa only [if_neg h] using stall

theorem Thr.unheld_eq (t : Thr) :
    t.unheld = { t with held := none, holdFrom := t.unheld.holdFrom, needs := t.unheld.needs, chanHeld := t.unheld.chanHeld } := by
  unfold Thr.unheld
  split
  · rfl
  · next h => rw [← Option.not_isSome_iff_eq_none.mp h]

/-- Where a commit begins, its issuer's state is as it was but for the hold, the program counter and SRSTATE. -/
theorem State.th_advance_same (s : State) (k n d : Nat) : ∃ hold needs chan watch, (s.advance k n d).th k =
    { s.th k with held := none, holdFrom := hold, needs := needs, chanHeld := chan, waitm := watch, told := false
                  pc := ((s.th k).pc + n) % 2 ^ 52
                  srstate := if d = 0 then (s.th k).srstate else srAfter (s.th k).srstate d } := by
  have eq : ((s.advance k n d).th k).unwatched = ((s.th k).advanced n d).unwatched := by simpa using s.th_advance k n d k
  rw [Thr.advanced, Thr.unheld_eq] at eq
  exact ⟨_, _, _, ((s.advance k n d).th k).waitm, congrArg (fun x : Thr => { x with waitm := ((s.advance k n d).th k).waitm }) eq⟩

section
variable (s : State) (k n d : Nat)
@[simp] theorem State.advance_pend : ((s.advance k n d).th k).pend = (s.th k).pend := by
  obtain ⟨_, _, _, _, e⟩ := s.th_advance_same k n d; rw [e]
@[simp] theorem State.advance_empty : ((s.advance k n d).th k).empty = (s.th k).empty := by
  obtain ⟨_, _, _, _, e⟩ := s.th_advance_same k n d; rw [e]
@[simp] theorem State.advance_loops : ((s.advance k n d).th k).loops = (s.th k).loops := by
  obtain ⟨_, _, _, _, e⟩ := s.th_advance_same k n d; rw [e]
@[simp] theorem State.advance_rotn : ((s.advance k n d).th k).rotn = (s.th k).rotn := by
  obtain ⟨_, _, _, _, e⟩ := s.th_advance_same k n d; rw [e]
@[simp] theorem State.advance_rules : ((s.advance k n d).th k).rules = (s.th k).rules := by
  obtain ⟨_, _, _, _, e⟩ := s.th_advance_same k n d; rw [e]
@[simp] theorem State.advance_scyc : ((s.advance k n d).th k).scyc = (s.th k).scyc := by
  obtain ⟨_, _, _, _, e⟩ := s.th_advance_same k n d; rw [e]
@[simp] theorem State.advance_elap : ((s.advance k n d).th k).elap = (s.th k).elap := by
  obtain ⟨_, _, _, _, e⟩ := s.th_advance_same k n d; rw [e]
@[simp] theorem State.advance_divFree : ((s.advance k n d).th k).divFree = (s.th k).divFree := by
  obtain ⟨_, _, _, _, e⟩ := s.th_advance_same k n d; rw [e]
@[simp] theorem State.advance_flight : ((s.advance k n d).th k).flight = (s.th k).flight := by
  obtain ⟨_, _, _, _, e⟩ := s.th_advance_same k n d; rw [e]
@[simp] theorem State.advance_mats : ((s.advance k n d).th k).mats = (s.th k).mats := by
  obtain ⟨_, _, _, _, e⟩ := s.th_advance_same k n d; rw [e]
@[simp] theorem State.advance_matFree : ((s.advance k n d).th k).matFree = (s.th k).matFree := by
  obtain ⟨_, _, _, _, e⟩ := s.th_advance_same k n d; rw [e]
@[simp] theorem State.advance_matStop : ((s.advance k n d).th k).matStop = (s.th k).matStop := by
  obtain ⟨_, _, _, _, e⟩ := s.th_advance_same k n d; rw [e]
@[simp] theorem State.advance_mode : ((s.advance k n d).th k).mode = (s.th k).mode := by
  obtain ⟨_, _, _, _, e⟩ := s.th_advance_same k n d; rw [e]
@[simp] theorem State.advance_task : ((s.advance k n d).th k).task = (s.th k).task := by
  obtain ⟨_, _, _, _, e⟩ := s.th_advance_same k n d; rw [e]
@[simp] theorem State.advance_dbg : ((s.advance k n d).th k).dbg = (s.th k).dbg := by
  obtain ⟨_, _, _, _, e⟩ := s.th_advance_same k n d; rw [e]
@[simp] theorem State.advance_pc : ((s.advance k n d).th k).pc = ((s.th k).pc + n) % 2 ^ 52 := by
  obtain ⟨_, _, _, _, e⟩ := s.th_advance_same k n d; rw [e]
end

end Sys2Proof.Machine
end

section
/-! PROOFS. Control transfer and loops (04 R115–R123). -/

namespace Sys2Proof.Machine

open Sys2Proof

/-! ### Addresses, and outcomes that agree where the commit begins -/

/-- A wrapped integer is the library's word of it. -/
theorem w64_eq_ofInt (x : Int) : w64 x = BitVec.ofInt 64 x := by
  apply BitVec.eq_of_toNat_eq
  rw [w64, wrapN, BitVec.toNat_ofNat, BitVec.toNat_ofInt]
  exact Nat.mod_eq_of_lt (by omega)

theorem brfTarget_eq (o : BitVec 21) (c : IC) : brfTarget o c = (BitVec.ofInt 64 ((c.t.pc : Int) + 4 * o.toInt)).toNat := by
  rw [brfTarget, w64_eq_ofInt]

/-- A commit applies the effect to one state only. -/
theorem committed_congr {u : State} {k : Nat} {f g : State → State} {imp : Bool} {d : Nat} {trap : Option (Nat × Nat)}
    (h : f (u.advance k 8 d) = g (u.advance k 8 d)) : committed u k f imp d trap = committed u k g imp d trap := by
  rw [committed, committed, h]

/-! ### What a slot that commits has passed (03 R86) -/

theorem Clear.chk_none {u : State} {k pos : Nat} {h : Header} {w : W32} {o : SlotOp} (hc : Clear u k pos h w o) :
    o.chk (oneIC u k pos w h) = none := by
  have early := hc.early
  unfold slotEarly at early
  split at early
  · cases early
  · split at early
    · cases early
    · exact early

theorem Clear.hold_none {u : State} {k pos : Nat} {h : Header} {w : W32} {o : SlotOp} (hc : Clear u k pos h w o) :
    o.hold (oneIC u k pos w h) = none := by
  have on : o.on (oneIC u k pos w h).t = true := hc.guard
  have free := hc.free
  simp only [slotHold, on, Bool.not_true, if_neg Bool.false_ne_true] at free
  split at free
  · cases free
  · assumption

theorem Clear.ill_false {u : State} {k pos : Nat} {h : Header} {w : W32} {o : SlotOp} (hc : Clear u k pos h w o) :
    o.ill (oneIC u k pos w h) = false := by
  have static := hc.static
  unfold slotStatic at static
  split at static
  · cases static
  · next hill => simp_all [slotIllegal]

theorem Commits.clear_of {s u : State} {k pos : Nat} {i : Instr} {o : SlotOp} (hc : Commits s u k pos i) (ho : slotOf i = some o) :
    Clear u k pos (Header.one pos) (encWord i) o := by
  obtain ⟨o', ho', clear⟩ := hc.clear
  rw [ho] at ho'
  cases ho'
  exact clear

/-! ### Control transfer (04 R115–R118) -/

/-- A plain bundle is two words long (03 R68). -/
theorem four_words : 4 * (Header.one 0).words = 8 := by decide

/-- LBRK commits only in a loop (04 R118). -/
theorem loops_of_lbrk {s u : State} {k : Nat} {x : Brf} (hc : Commits s u k 0 (.lbrk x)) : ∃ e r, (u.th k).loops = e :: r := by
  have chk := (hc.clear_of (o := opLbrk x) rfl).chk_none
  cases hl : (u.th k).loops with
  | nil => simp [opLbrk, IC.t, oneIC, hl] at chk
  | cons e r => exact ⟨e, r, rfl⟩

theorem popLoop_eq {v : State} {k : Nat} {e : LoopEnt} {r : List LoopEnt} (h : (v.th k).loops = e :: r) :
    let w := v.modTh k fun t => { t with loops := r, rotn := if e.rot then 0 else t.rotn }
    v.popLoop k = if e.rot then w.fly k 1 (.stages 0) else w := by
  rw [State.popLoop, h]

/-- Settles O5: each transfer is its operation's effect, its target the same word; the loop LBRK leaves is there by its own check. -/
theorem controlTransfer : Obligations.ControlTransfer := by
  intro s u k t goes rel
  have target (o : BitVec 21) (i : Instr) : brfTarget o (oneIC u k 0 (encWord i)) = rel o := brfTarget_eq o _
  refine ⟨fun x hc => ?_, fun x hc => ?_, fun x hc => ?_, fun x hc => ?_, fun x hc => ?_⟩
  · rw [← target x.o (.br x)]
    exact issueOne_of_commits hc (o := opBr x) rfl
  · exact issueOne_of_commits hc (o := opJmp x) rfl
  · exact issueOne_of_commits hc (o := opRet x) rfl
  · rw [← target x.o (.call x), ← four_words]
    exact issueOne_of_commits hc (o := opCall x) rfl
  · obtain ⟨e, r, hl⟩ := loops_of_lbrk hc
    refine ⟨e, r, hl, (issueOne_of_commits hc (o := opLbrk x) rfl).trans (committed_congr ?_)⟩
    rw [← target x.o (.lbrk x)]
    exact congrArg (fun v => State.transfer v (oneIC u k 0 (encWord (.lbrk x))) (brfTarget x.o (oneIC u k 0 (encWord (.lbrk x)))))
      (popLoop_eq ((State.advance_loops u k 8 0).trans hl))

/-! ### Loops (04 R119–R121) -/

theorem enterLoop_zero (v : State) (c : IC) (stop : Nat) (rot : Bool) (w stg : Nat) :
    v.enterLoop c 0 stop rot w stg =
      v.modTh c.k fun t => { t with empty := true, pend := some (c.t.scyc + 2, c.s.bundleAfter c.k stop) } := if_pos rfl

theorem enterLoop_of_ne {v : State} {c : IC} {n : Nat} (hn : n ≠ 0) (stop : Nat) (rot : Bool) (w stg : Nat) :
    let e : LoopEnt := { start := (c.t.pc + 4 * c.h.words) % 2 ^ 52, stop, trips := n + stg, index := 0, rot, n, w, stg }
    let v1 := v.modTh c.k fun t => { t with loops := e :: t.loops, rotn := if rot then 0 else t.rotn }
    v.enterLoop c n stop rot w stg = if rot then v1.fly c.k 1 (.stages 1) else v1 := if_neg hn

theorem putK_putK {α : Type} (m : Map α) (k : Nat) (v w : α) : putK (putK m k v) k w = putK m k w := by
  induction m with
  | nil => simp [putK]
  | cons e r ih =>
    obtain ⟨j, x⟩ := e
    simp only [putK]
    split
    · simp [putK]
    · split
      · simp [putK]
      · next h h' => simp [putK, h, h', ih]

@[simp] theorem State.setTh_setTh (s : State) (k : Nat) (a b : Thr) : (s.setTh k a).setTh k b = s.setTh k b :=
  congrArg (fun m => { s with thr := m }) (putK_putK s.thr k a b)

/-- An issuer just set, set again as it stands. -/
theorem State.setTh_self {s : State} {k : Nat} {a b : Thr} (h : b = a) : (s.setTh k a).setTh k b = s.setTh k a := by
  rw [State.setTh_setTh, h]

/-- The end check of a loop with passes left (04 R121). -/
theorem endCheck_again {v : State} {k stop next fuel : Nat} {e : LoopEnt} {r : List LoopEnt} (hl : (v.th k).loops = e :: r)
    (hs : e.stop = stop) (hi : e.index + 1 < e.trips) : endCheck k stop next (fuel + 1) v =
      v.setTh k { v.th k with loops := { e with index := e.index + 1 } :: r, pc := e.start } := by
  simp [endCheck, hl, hs, hi]

/-- The end check where no loop ends here. -/
theorem endCheck_leave {v : State} {k stop next fuel : Nat} (h : ∀ f ∈ (v.th k).loops.head?, f.stop ≠ stop) :
    endCheck k stop next (fuel + 1) v = v.setTh k { v.th k with pc := next } := by
  cases hl : (v.th k).loops with
  | nil => simp only [endCheck, hl]
  | cons f r => simp only [endCheck, hl, if_pos (h f (by rw [hl]; rfl))]

/-- The end check of a loop in its last pass, where no outer loop ends there too. -/
theorem endCheck_exit {v : State} {k stop next fuel : Nat} {e : LoopEnt} {r : List LoopEnt} (hl : (v.th k).loops = e :: r)
    (hs : e.stop = stop) (hi : e.trips ≤ e.index + 1) (hr : ∀ f ∈ r.head?, f.stop ≠ stop) :
    let t : Thr := { v.th k with loops := r, rotn := if e.rot then 0 else (v.th k).rotn, pc := next }
    endCheck k stop next (fuel + 2) v =
      if e.rot then (v.setTh k t).fly k 1 (.stages 0) else v.setTh k t := by
  intro t
  have done (u : State) (x : Thr) (hx : x.loops = r) (hp : x.pc = next) :
      endCheck k stop next (fuel + 1) (u.setTh k x) = u.setTh k x := by
    rw [endCheck_leave (by simpa [hx] using hr), State.th_setTh_same, State.setTh_setTh, ← hp]
  have step : endCheck k stop next (fuel + 2) v =
      endCheck k stop next (fuel + 1) (if e.rot then (v.setTh k t).fly k 1 (.stages 0) else v.setTh k t) := by
    simp [endCheck.eq_def k stop next (fuel + 2), hl, hs, Nat.not_lt.mpr hi, t]
  rw [step]
  split
  · exact done (v.setTh k t) _ (by simp [t]) (by simp [t])
  · exact done v t rfl rfl

/-- Settles O6: a loop instruction is `enterLoop`, by its count zero or not, and the end check is one round of `endCheck`. -/
theorem loopsAndRules : Obligations.LoopsAndRules := by
  refine ⟨fun s u k => ?_, fun v k old e r hd hl hs => ?_⟩
  · intro t after skips
    refine ⟨fun x hc => ?_, fun x hc => ?_, fun x hc => ?_⟩
    · intro n stop
      have run := issueOne_of_commits hc (o := opLoop x) rfl
      refine ⟨fun hn => run.trans (committed_congr ?_), fun hn => run.trans (committed_congr ?_)⟩
      · show State.enterLoop _ _ n _ _ _ _ = _
        rw [hn]
        exact enterLoop_zero ..
      · refine (enterLoop_of_ne hn ..).trans ?_
        rw [show (oneIC u k 0 (encWord (.loop x))).h = Header.one 0 from rfl, four_words]
        rfl
    · intro n stop
      have run := issueOne_of_commits hc (o := opLoopr x) rfl
      refine ⟨fun hn => run.trans (committed_congr ?_), fun hn => run.trans (committed_congr ?_)⟩
      · show State.enterLoop _ _ n _ _ _ _ = _
        rw [hn]
        exact enterLoop_zero ..
      · refine (enterLoop_of_ne hn ..).trans ?_
        rw [show (oneIC u k 0 (encWord (.loopr x))).h = Header.one 0 from rfl, four_words]
        rfl
    · exact issueOne_of_commits hc (o := opAudef x) rfl
  · have check : v.loopEnd k old = endCheck k old.pc (v.th k).pc 7 v := by simp [State.loopEnd, hd, hl, hs]
    refine ⟨fun hi => ?_, fun hi hr => ?_⟩
    · rw [check, endCheck_again hl hs hi]
      rfl
    · rw [check, endCheck_exit hl hs hi hr]
      rfl

end Sys2Proof.Machine
end

section
/-! PROOFS. A slot and the rest of its cycle: what steps of one issuer (03 R71, R94). -/

namespace Sys2Proof.Machine

open Sys2Proof

/-! ### A slot's own doing and the rest of its cycle: the sequencer of one issuer, and counters -/

/-- An issuer without its sequencer, its results in flight, its task's flags and its debug state. -/
def Thr.steady (t : Thr) : Thr :=
  { t with loops := [], rotn := 0, pc := 0, pend := none, empty := false, flight := [], task := none, elap := 0, divFree := 0, dbg := {} }

/-- The package without its issuers, and without what a cycle counts and what it tells of a task. -/
def State.aside (s : State) : State := { s with thr := [], occ := [], pmcPend := [], tasks := [] }

/-- From s to s' only issuer k steps on: at most m results are put in flight. -/
structure StepsOnly (k m : Nat) (s s' : State) : Prop where
  aside : s'.aside = s.aside
  others : ∀ j, j ≠ k → s'.th j = s.th j
  own : (s'.th k).steady = (s.th k).steady
  flight : ∃ l, (s'.th k).flight = (s.th k).flight ++ l ∧ l.length ≤ m

theorem StepsOnly.refl (k : Nat) (s : State) : StepsOnly k 0 s s := ⟨rfl, fun _ _ => rfl, rfl, [], by simp, le_rfl⟩

theorem StepsOnly.trans {k m n : Nat} {s t u : State} (h : StepsOnly k m s t) (h' : StepsOnly k n t u) : StepsOnly k (m + n) s u := by
  obtain ⟨l, hl, hm⟩ := h.flight
  obtain ⟨l', hl', hn⟩ := h'.flight
  refine ⟨h'.aside.trans h.aside, fun j hj => (h'.others j hj).trans (h.others j hj), h'.own.trans h.own, l ++ l', ?_, ?_⟩
  · rw [hl', hl, List.append_assoc]
  · rw [List.length_append]
    exact Nat.add_le_add hm hn

theorem StepsOnly.mono {k m n : Nat} {s t : State} (h : StepsOnly k m s t) (hmn : m ≤ n) : StepsOnly k n s t := by
  obtain ⟨l, hl, hm⟩ := h.flight
  exact ⟨h.aside, h.others, h.own, l, hl, hm.trans hmn⟩

/-- A change of the sequencer puts nothing in flight. -/
theorem StepsOnly.modTh {k : Nat} {s : State} {f : Thr → Thr} (hs : (f (s.th k)).steady = (s.th k).steady)
    (hf : (f (s.th k)).flight = (s.th k).flight) : StepsOnly k 0 s (s.modTh k f) :=
  ⟨rfl, fun j hj => s.th_modTh_ne f hj, by rw [s.th_modTh_same, hs], [], by rw [s.th_modTh_same, hf, List.append_nil], le_rfl⟩

theorem StepsOnly.setTh {k : Nat} {s : State} {t : Thr} (hs : t.steady = (s.th k).steady) (hf : t.flight = (s.th k).flight) :
    StepsOnly k 0 s (s.setTh k t) := StepsOnly.modTh (f := fun _ => t) hs hf

theorem StepsOnly.fly (k : Nat) (s : State) (n : Nat) (l : Land) : StepsOnly k 1 s (s.fly k n l) :=
  ⟨rfl, fun j hj => s.th_modTh_ne _ hj, by rw [State.fly, s.th_modTh_same]; rfl,
    [_], by rw [State.fly, s.th_modTh_same], le_rfl⟩

/-- A change of counters and of tasks alone. -/
theorem StepsOnly.of_thr {k : Nat} {s s' : State} (ha : s'.aside = s.aside) (ht : s'.thr = s.thr) : StepsOnly k 0 s s' := by
  have same (j : Nat) : s'.th j = s.th j := by rw [State.th, State.th, ht]
  exact ⟨ha, fun j _ => same j, by rw [same], [], by rw [same, List.append_nil], le_rfl⟩

/-! ### The rest of a cycle that nothing stops (03 R71, R94) -/

theorem endCheck_stepsOnly (k stop next : Nat) (fuel : Nat) (s : State) : StepsOnly k fuel s (endCheck k stop next fuel s) := by
  induction fuel generalizing s with
  | zero => exact .refl k s
  | succ fuel ih =>
    have leave : StepsOnly k (fuel + 1) s (s.setTh k { s.th k with pc := next }) := (StepsOnly.setTh (by rfl) (by rfl)).mono (Nat.zero_le _)
    rw [endCheck]
    dsimp only
    split
    · exact leave
    · split
      · exact leave
      · split
        · exact (StepsOnly.setTh (by rfl) (by rfl)).mono (Nat.zero_le _)
        · have popped (b : Bool) (u : State) : StepsOnly k 1 u (if b then u.fly k 1 (.stages 0) else u) := by
            split
            · exact .fly ..
            · exact (StepsOnly.refl k u).mono (Nat.zero_le _)
          exact StepsOnly.mono (((StepsOnly.setTh (by rfl) (by rfl)).trans (popped ..)).trans (ih _)) (by omega)

theorem State.loopEnd_stepsOnly (s : State) (k : Nat) (old : Thr) : StepsOnly k 7 s (s.loopEnd k old) := by
  have stay : StepsOnly k 7 s s := (StepsOnly.refl k s).mono (Nat.zero_le _)
  unfold State.loopEnd
  split
  · exact stay
  · split
    · split
      · exact endCheck_stepsOnly ..
      · exact stay
    · exact stay

theorem State.taint_stepsOnly (s : State) (k : Nat) (imp : Bool) : StepsOnly k 0 s (s.taint k imp) := by
  unfold State.taint
  split
  · exact .refl k s
  · split
    · exact StepsOnly.trans (.modTh (f := fun t => { t with task := t.task.map fun j => { j with impure := true } }) rfl rfl)
        (.of_thr (by rfl) (by rfl))
    · exact .refl k s

theorem State.pmcEvent_stepsOnly (s : State) (k core part ev n : Nat) : StepsOnly k 0 s (s.pmcEvent core part ev n) := by
  unfold State.pmcEvent
  split
  · exact .refl k s
  · refine foldl_keeps (StepsOnly k 0 s) (fun t a ht => ?_) _ (.refl k s)
    dsimp only
    split
    · exact ht.trans (.of_thr (by rfl) (by rfl))
    · exact ht

theorem State.tally_stepsOnly (s : State) (k n : Nat) : StepsOnly k 0 s (s.tally k n) := by
  unfold State.tally
  split
  · exact .refl k s
  · exact ((s.pmcEvent_stepsOnly ..).trans (State.pmcEvent_stepsOnly ..)).trans (.of_thr (by rfl) (by rfl))

theorem State.afterCommit_stepsOnly {s : State} {k : Nat} (baddr : Nat) (h : (s.th k).matStop = none) :
    StepsOnly k 0 s (s.afterCommit k baddr none) := by
  rw [State.afterCommit, h]
  dsimp only
  split
  · exact .modTh rfl rfl
  · exact .refl k s

/-- The cycle's count is the one thing the rest changes of its issuer's steady state. -/
structure RestOf (k : Nat) (s s' : State) : Prop where
  aside : s'.aside = s.aside
  others : ∀ j, j ≠ k → s'.th j = s.th j
  own : (s'.th k).steady = { (s.th k).steady with scyc := ((s.th k).scyc + 1) % 2 ^ 64 }
  flight : ∃ l, (s'.th k).flight = (s.th k).flight ++ l ∧ l.length ≤ 7

theorem State.rest_of_noStop {s : State} {k : Nat} (old : Thr) (imp : Bool) (h : (s.th k).matStop = none) :
    RestOf k s (s.rest k old imp none) := by
  have before : StepsOnly k 7 s ((s.loopEnd k old).taint k imp) := (s.loopEnd_stepsOnly k old).trans (State.taint_stepsOnly ..)
  generalize hw : (s.loopEnd k old).taint k imp = w at before
  have counted : (w.count k).th k = { w.th k with scyc := ((w.th k).scyc + 1) % 2 ^ 64, elap := (w.th k).elap + 1 } :=
    w.th_modTh_same k _
  have tally := (w.count k).tally_stepsOnly k 1
  have stop : (((w.count k).tally k 1).th k).matStop = none :=
    (congrArg Thr.matStop tally.own :).trans ((congrArg Thr.matStop counted :).trans ((congrArg Thr.matStop before.own :).trans h))
  have after := tally.trans (State.afterCommit_stepsOnly old.pc stop)
  have rest : s.rest k old imp none = ((w.count k).tally k 1).afterCommit k old.pc none := by rw [← hw]; rfl
  obtain ⟨l, hl, hlen⟩ := before.flight
  obtain ⟨l', hl', hlen'⟩ := after.flight
  rw [rest]
  refine ⟨after.aside.trans before.aside, fun j hj => (after.others j hj).trans ((w.th_modTh_ne _ hj).trans (before.others j hj)), ?_, l ++ l', ?_, ?_⟩
  · have scyc : (w.th k).scyc = (s.th k).scyc := (congrArg Thr.scyc before.own :)
    rw [after.own, counted, scyc]
    exact congrArg (fun t : Thr => { t with scyc := ((s.th k).scyc + 1) % 2 ^ 64 }) before.own
  · rw [hl', counted, ← List.append_assoc, ← hl]
  · rw [List.length_append]
    exact Nat.add_le_add hlen hlen'

end Sys2Proof.Machine
end

section
/-! PROOFS. WAITM whose commit writes the trace ring (04 R125, 19 R481). -/

namespace Sys2Proof.Machine

open Sys2Proof

/-! ### WAITM behind a traced stall (04 R125, 19 R481)

The commit of WAITM first ends the hold before it, which may write the trace ring.  A ring that lies over the page table gives its
command stream another table, and the walk for the word's line then reads an entry it may not read, which is logged in memory. -/

/-- The command stream of context 0, held, with its stall trace armed: the ring's page is the table's third level, and the entry due
falls on the pages 8 to 11 of it.  GCYC, its third word, reads there as a table in the control space. -/
def ringOverTable : State :=
  { mem := wrBytes (wrBytes (wrBytes (wrBytes (wrBytes [] 0x1000 (bytesOf 8 0x2001)) 0x2000 (bytesOf 8 0x3001)) 0x3018 (bytesOf 8 31))
      0x3050 (bytesOf 8 31)) 0x40000 (bytesOf 8 1)
    gcyc := 2 ^ 40 + 1, cur := 4096, turn := [4096], sys := { debugOn := 16 }
    ctxs := [(0, { st := .running, slot := some 0, desc := [(8, 0x1000), (0x40, 0x60B000), (0x48, 64)], cdbg := 4, trbase := 0x3000 })]
    thr := [(4096, { mode := .running, sr := [(4, 0x1440000)], held := some 1, stallArmed := true })] }

/-- WAITM of S4, against S5 = 0. -/
def waitmOfS4 : RRR := ⟨0, 3, 4, 5, 0, 0⟩

theorem ringOverTable_commits : Commits ringOverTable (ringOverTable.begun 4096) 4096 0 (.waitm waitmOfS4) where
  cur := rfl
  issues := ⟨rfl, rfl, rfl, rfl, rfl, rfl⟩
  begun := rfl
  fits := ⟨by decide +kernel, by decide +kernel⟩
  place := .inl (.inl rfl)
  clear := ⟨opWaitm waitmOfS4, rfl, by decide +kernel, by decide +kernel, by decide +kernel, .inr rfl, rfl, by decide +kernel,
    by decide +kernel⟩

/-- The first byte of the error log's first entry. -/
def firstLogged (o : Host.Outcome State Fault Refusal) : Byte := match o with
  | .next t => rdByte t.mem 0xB040
  | _ => 0

/-- A commit that nothing stops is its effect and the rest of its cycle. -/
theorem committed_noStop {u : State} {k d : Nat} {f : State → State} {imp : Bool}
    (h : ((f (u.advance k 8 d)).th k).matStop = none) : ∃ t, committed u k f imp d = .next t ∧ RestOf k (f (u.advance k 8 d)) t :=
  ⟨_, rfl, State.rest_of_noStop (u.th k) imp h⟩

theorem State.matStop_fly (s : State) (k n : Nat) (l : Land) : ((s.fly k n l).th k).matStop = (s.th k).matStop := by
  rw [State.fly, State.th_modTh_same]

/-- Refutes O7: the commit of `ringOverTable` writes an entry of the error log, so its effect does not leave memory as it was. -/
theorem not_waitAndFin : ¬ Obligations.WaitAndFin := by
  intro h
  obtain ⟨_, hw, _⟩ := h ringOverTable (ringOverTable.begun 4096) 4096
  obtain ⟨pa, hpa, hwait⟩ := hw waitmOfS4 ringOverTable_commits
  have place : ((ringOverTable.begun 4096).vpa 0 0x1440000) = some 0x40000 := by decide +kernel
  obtain rfl : pa = 0x40000 := Option.some.inj (hpa.symm.trans place)
  obtain ⟨⟨f, frame, run⟩, _⟩ := hwait (by decide +kernel) (by decide +kernel)
  obtain ⟨mem, _, thr⟩ := frame ((ringOverTable.begun 4096).advance 4096 8 0)
  have logged : firstLogged (exec (.waitm waitmOfS4) ringOverTable) = 4 := by decide +kernel
  have quiet : rdByte ((ringOverTable.begun 4096).advance 4096 8 0).mem 0xB040 = 0 := by decide +kernel
  have stop : ((((ringOverTable.begun 4096).advance 4096 8 0)).th 4096).matStop = none := by decide +kernel
  have own := (congrArg (fun m => (getD ({} : Thr) m 4096).matStop) thr).trans stop
  obtain ⟨t, ht, hmem⟩ := committed_noStop (u := ringOverTable.begun 4096) (k := 4096) (imp := false) (d := 0)
    (f := fun v => (f v).fly 4096 1 _) ((State.matStop_fly ..).trans own)
  rw [run, ht] at logged
  have same := (congrArg State.mem hmem.aside :).trans mem
  have unlogged : rdByte t.mem 0xB040 = 0 := (congrArg (rdByte · 0xB040) same).trans quiet
  exact absurd (unlogged.symm.trans logged) (by decide)

end Sys2Proof.Machine
end

section
/-! PROOFS. TRAP and BRK: taking an exception (04 R129, R130, 12 R347, R349). -/

namespace Sys2Proof.Machine

open Sys2Proof

/-! ### Counters leave the issuers as they are -/

theorem State.pmcEvent_thr (s : State) (core part ev n : Nat) : (s.pmcEvent core part ev n).thr = s.thr := by
  unfold State.pmcEvent
  split
  · rfl
  · refine foldl_keeps (fun t => State.thr t = s.thr) (fun t a ht => ?_) _ rfl
    dsimp only
    split <;> exact ht

theorem State.tally_thr (s : State) (k n : Nat) : (s.tally k n).thr = s.thr := by
  unfold State.tally
  split
  · rfl
  · exact (State.pmcEvent_thr ..).trans (State.pmcEvent_thr ..)

theorem State.th_eq_of_thr {s t : State} (h : t.thr = s.thr) (k : Nat) : t.th k = s.th k := by rw [State.th, State.th, h]

@[simp] theorem State.th_credit (s : State) (p : Nat) (busy : Bool) (k : Nat) : (s.credit p busy).th k = s.th k := rfl

theorem State.pmcEvent_aside (s : State) (core part ev n : Nat) : (s.pmcEvent core part ev n).aside = s.aside :=
  (s.pmcEvent_stepsOnly 0 core part ev n).aside

/-! ### Taking an exception (12 R347, R349) -/

/-- A partition that parks. -/
def Thr.parked (t : Thr) (p kind : Nat) (reissue fetch matFormat : Bool) : Thr :=
  { t with
    mode := .parked, dbg := if t.dbg.step then t.dbg.stepped else t.dbg, park := { kind, reissue, fetch, matFormat }
    held := none, holdFrom := none, needs := [], chanHeld := none, matStop := none
    task := t.task.map fun k => { k with slot := p, bad := if kind = 2 then k.bad else true } }

/-- A partition that takes an exception parks; its image goes to its save slot, and one record is formed. -/
structure Parks (s : State) (p kind baddr slots det0 det1 : Nat) (reissue fetch matFormat : Bool) (t : State) : Prop where
  own : (t.th p).unwatched = ((s.th p).parked p kind reissue fetch matFormat).unwatched
  record : ∃ id fw rerouted, t.recs = s.recs ++ [
    { id, src := p, ctx := s.ctxOf p, fw, rerouted, kind, srcCode := 0, idField := p, baddr, slots, scyc := (s.th p).scyc
      gcyc := s.gcyc, det0, det1, loops := loopIdxs (s.th p), parks := some p }]

theorem State.takePark_parks (s : State) (p kind baddr slots det0 det1 : Nat) (reissue fetch matFormat : Bool) :
    Parks s p kind baddr slots det0 det1 reissue fetch matFormat (s.takePark p kind baddr slots det0 det1 reissue fetch matFormat) := by
  unfold State.takePark
  extract_lets t c s1 s2 s3
  have th : s1.th p = t.parked p kind reissue fetch matFormat := by
    refine (State.th_modTh_same _ p _).trans ?_
    rw [State.th_eq_of_thr (State.pmcEvent_thr ..)]
    rfl
  have written : s3.kept = s2.kept := State.kept_vwrRun ..
  have counted : (s.pmcEvent (coreOf p) p 12 1).aside = s.aside := State.pmcEvent_aside ..
  refine ⟨?_, s3.nextId, false || (s3.ctx c).st == .free, (s3.ctx c).st == .free, ?_⟩
  · rw [State.th_post, State.th_of_kept written]
    exact congrArg Thr.unwatched th
  · have recs : s3.recs = s.recs := (congrArg State.recs written :).trans (congrArg State.recs counted :)
    have gcyc : s3.gcyc = s.gcyc := (congrArg State.gcyc written :).trans (congrArg State.gcyc counted :)
    rw [← recs, ← gcyc]
    rfl

/-- A command stream that takes an exception is saved, its context halts, and one record goes to firmware. -/
structure Halts (s : State) (c kind baddr slots det0 det1 : Nat) (t : State) : Prop where
  own : (t.th (csKey c)).unwatched = ({ s.th (csKey c) with mode := .idle, held := none } : Thr).unwatched
  context : (t.ctx c).st = .halted ∧ (t.ctx c).slot = none
  record : ∃ id rerouted, t.recs = s.recs ++ [
    { id, src := csKey c, ctx := c, fw := true, rerouted, kind, srcCode := 1, idField := s.csid c, baddr, slots
      scyc := (s.th (csKey c)).scyc, gcyc := s.gcyc, det0, det1, loops := loopIdxs (s.th (csKey c)) }]

theorem State.takeHalt_halts (s : State) (c kind baddr slots det0 det1 : Nat) :
    Halts s c kind baddr slots det0 det1 (s.takeHalt c kind baddr slots det0 det1) := by
  unfold State.takeHalt State.saveCs
  extract_lets t s1
  have written : (s1.vwrRun c (s1.cword c 0x58) (s1.csImage c [])).kept = s1.kept := State.kept_vwrRun ..
  generalize s1.vwrRun c (s1.cword c 0x58) (s1.csImage c []) = v at written
  have halted : (((v.modTh (csKey c) fun t => { t with mode := .idle, held := none, waitm := none }).modCtx c
      fun x => { x with slot := none, lastSlot := x.slot.getD x.lastSlot }).modCtx c fun x => { x with st := .halted }).ctx c =
      { v.ctx c with slot := none, lastSlot := (v.ctx c).slot.getD (v.ctx c).lastSlot, st := .halted } := by
    rw [State.ctx_modCtx, if_pos rfl, State.ctx_modCtx, if_pos rfl]
    rfl
  refine ⟨?_, ⟨by rw [halted], by rw [halted]⟩, s.nextId, (s.ctx c).st == .free, ?_⟩
  · have idle : (v.modTh (csKey c) fun t => { t with mode := .idle, held := none, waitm := none }).th (csKey c) =
        { v.th (csKey c) with mode := .idle, held := none, waitm := none } := State.th_modTh_same ..
    exact (congrArg Thr.unwatched idle).trans
      (congrArg (fun t : Thr => { t with mode := .idle, held := none }) (State.th_of_kept written (csKey c)))
  · exact (congrArg State.recs written :)

/-! ### The rest of the cycle of a TRAP (04 R129) -/

theorem State.loopEnd_of_flat {s : State} {k : Nat} (old : Thr) (h : (s.th k).loops = []) : s.loopEnd k old = s := by
  simp [State.loopEnd, h]

theorem State.taint_false (s : State) (k : Nat) : s.taint k false = s := by
  unfold State.taint
  split
  · rfl
  · simp

/-- A package counted: the commit's cycle is over but for what stops its issuer. -/
def State.counted (s : State) (k : Nat) : State := (s.count k).tally k 1

theorem State.rest_of_flat {s : State} {k : Nat} (old : Thr) (trap : Option (Nat × Nat)) (h : (s.th k).loops = []) :
    s.rest k old false trap = (s.counted k).afterCommit k old.pc trap := by
  rw [State.rest, s.loopEnd_of_flat old h, s.taint_false k]
  rfl

theorem State.th_counted (s : State) (k : Nat) :
    (s.counted k).th k = { s.th k with scyc := ((s.th k).scyc + 1) % 2 ^ 64, elap := (s.th k).elap + 1 } :=
  (State.th_eq_of_thr (State.tally_thr ..) k).trans (State.th_modTh_same ..)

theorem State.aside_counted (s : State) (k : Nat) : (s.counted k).aside = s.aside := ((s.count k).tally_stepsOnly k 1).aside

theorem csKey_of_isCs {k : Nat} (h : isCs k = true) : csKey (k - csBase) = k := by
  obtain ⟨hk, _⟩ : csBase ≤ k ∧ k < 8192 := by simpa [isCs] using h
  exact Nat.add_sub_cancel' hk

/-- What a TRAP's stop leaves, of the package w at the end of its cycle. -/
structure Trapped (w : State) (k baddr code v : Nat) (t : State) : Prop where
  record : ∃ r l, t.recs = w.recs ++ r :: l ∧ (l = [] ↔ (w.th k).matStop = none) ∧ (∀ q ∈ l, q.kind = 3) ∧ r.kind = 2 ∧ r.det0 = code ∧
    r.det1 = v ∧ r.baddr = baddr
  partition : isCs k = false → (t.th k).mode = .parked ∧ (t.th k).pc = (w.th k).pc ∧ (t.th k).scyc = (w.th k).scyc ∧
    (t.th k).park.reissue = false
  stream : isCs k = true → (t.ctx (k - 4096)).st = .halted ∧ (t.th k).mode = .idle

theorem State.afterCommit_trapped {w : State} {k : Nat} (baddr code v : Nat) (h : isCs k = true → (w.th k).matStop = none) :
    Trapped w k baddr code v (w.afterCommit k baddr (some (code, v))) := by
  unfold State.afterCommit
  cases hm : (w.th k).matStop with
  | none =>
    cases hk : isCs k with
    | false =>
      have parks := w.takePark_parks k 2 baddr 0 code v false false false
      obtain ⟨id, fw, rr, hr⟩ := parks.record
      simp only [State.take, hk]
      refine ⟨⟨_, [], hr, by simp [hm], by simp, rfl, rfl, rfl, rfl⟩, fun _ => ⟨(congrArg Thr.mode parks.own :), (congrArg Thr.pc parks.own :),
        (congrArg Thr.scyc parks.own :), (congrArg (fun t => t.park.reissue) parks.own :)⟩, fun h => by simp [hk] at h⟩
    | true =>
      have halts := w.takeHalt_halts (k - csBase) 2 baddr 0 code v
      obtain ⟨id, rr, hr⟩ := halts.record
      have own := halts.own
      rw [csKey_of_isCs hk] at own
      simp only [State.take, hk]
      exact ⟨⟨_, [], hr, by simp [hm], by simp, rfl, rfl, rfl, rfl⟩, fun h => by simp [hk] at h,
        fun _ => ⟨halts.context.1, (congrArg Thr.mode own :)⟩⟩
  | some stop =>
    obtain ⟨g, cause, cmd⟩ := stop
    have hk : isCs k = false := by
      cases hk : isCs k
      · rfl
      · simp [h hk] at hm
    have parks := (w.trapRecord k baddr (some (code, v))).takePark_parks k 3 ((w.th k).stoppedMat cmd baddr).2 0
      (((w.th k).stoppedMat cmd baddr).1 + 16 * g + 256 * cause) baddr false false (cause == 1)
    obtain ⟨id, fw, rr, hr⟩ := parks.record
    refine ⟨⟨_, _, hr.trans (List.append_assoc ..), by simp [hm], by simp, rfl, rfl, rfl, rfl⟩, fun _ => ⟨(congrArg Thr.mode parks.own :),
      (congrArg Thr.pc parks.own :), (congrArg Thr.scyc parks.own :), (congrArg (fun t => t.park.reissue) parks.own :)⟩,
      fun h => by simp [hk] at h⟩

/-! ### BRK (04 R130, 19 R477) -/

/-- The issue of a one-slot bundle of BRK. -/
theorem issueBegun_brk {u : State} {k : Nat} {x : Brk} (hf : Fits u k) (w : W32) (hon : (opBrk x).on (u.th k) = true) :
    u.issueBegun k (Header.one 0) none [{ pos := 0, word := w, op := some (opBrk x) }] =
      if !isCs k && u.feature 3 && cdbgBrkArm (u.ctx (u.ctxOf k)).cdbg then
        ((u.stallEnd k).modTh k fun t => { t with dbg := { t.dbg with stopped := true, cause := 2, brkid := x.i.toNat, step := false } }).credit k false
      else u.bundleFault k (u.th k).pc [(0, ⟨23, x.i.toNat, 0⟩)] := by
  have found : brkOf (slotIC u k (Header.one 0) [{ pos := 0, word := w, op := some (opBrk x) }])
      [{ pos := 0, word := w, op := some (opBrk x) }] = some x.i.toNat := by
    have on : (opBrk x).on (slotIC u k (Header.one 0) [{ pos := 0, word := w, op := some (opBrk x) }]
        { pos := 0, word := w, op := some (opBrk x) }).t = true := hon
    simp only [brkOf, firstSome, on, Bool.and_true]
    rfl
  have legal : faultsOf (slotIC u k (Header.one 0) [{ pos := 0, word := w, op := some (opBrk x) }])
      (fun c op => if slotIllegal c op then some ⟨2, c.word.toNat, 0⟩ else none) [{ pos := 0, word := w, op := some (opBrk x) }] = [] := by
    simp [faultsOf, slotIllegal, opBrk]
  unfold State.issueBegun
  simp only [bundleBad_one hf (.inl (.inl rfl)) (o := opBrk x) rfl, hf.2, found, legal]
  cases !isCs k && u.feature 3 && cdbgBrkArm (u.ctx (u.ctxOf k)).cdbg <;> rfl

/-- Settles O8: a TRAP's bundle is its cycle and one stop; a BRK is judged before its slot. -/
theorem trapAndBrk : Obligations.TrapAndBrk := by
  refine ⟨fun s u k x hc hl hm => ?_, fun s u k x hcur hi hb hf hlegal hp => ?_⟩
  · have loops : ((u.advance k 8 0).th k).loops = [] := (State.advance_loops ..).trans hl
    have run : exec (.trap x) s = .next (((u.advance k 8 0).counted k).afterCommit k (u.th k).pc
        (some (x.i.toNat, ((u.th k).s x.d.toNat).toNat))) := by
      have code : (x.i.toNat * 2 ^ 64 + ((u.th k).s x.d.toNat).toNat) / 2 ^ 64 = x.i.toNat := by omega
      have value : (x.i.toNat * 2 ^ 64 + ((u.th k).s x.d.toNat).toNat) % 2 ^ 64 = ((u.th k).s x.d.toNat).toNat := by omega
      have run := issueOne_of_commits hc (o := opTrap x) rfl
      refine run.trans (congrArg Host.Outcome.next ((State.rest_of_flat (u.th k) _ loops).trans ?_))
      show State.afterCommit _ k _ (some (_, _)) = _
      rw [show (oneIC u k 0 (encWord (.trap x))).sv x.d.toNat = (u.th k).s x.d.toNat from rfl, code, value]
    have th := (u.advance k 8 0).th_counted k
    have aside := (u.advance k 8 0).aside_counted k
    have mat : (((u.advance k 8 0).counted k).th k).matStop = (u.th k).matStop := by rw [th]; exact State.advance_matStop ..
    obtain ⟨⟨r, l, hr, hlast, hkind, record⟩, hpart, hcs⟩ := State.afterCommit_trapped (w := (u.advance k 8 0).counted k) (u.th k).pc x.i.toNat
      ((u.th k).s x.d.toNat).toNat (fun h => mat.trans (hm h))
    have recs : ((u.advance k 8 0).counted k).recs = u.recs :=
      (congrArg State.recs aside :).trans (congrArg State.recs (State.around_advance u k 8 0) :)
    rw [recs] at hr
    rw [mat] at hlast
    obtain ⟨h2, h0, h1, hb⟩ := record
    refine ⟨_, r, l, run, hr, hlast, hkind, h2, h0, h1, hb, fun hk => ?_, hcs⟩
    obtain ⟨mode, pc, scyc, re⟩ := hpart hk
    refine ⟨mode, pc.trans ?_, scyc.trans ?_, re⟩
    · rw [th]; exact State.advance_pc ..
    · rw [th]; simp
  · intro armed
    have issue : exec (.brk x) s = .next (u.issueBegun k (Header.one 0) none [{ pos := 0, word := encWord (.brk x), op := some (opBrk x) }]) := by
      subst hcur
      exact congrArg Host.Outcome.next ((cycle_of_issues hi _).trans (by rw [hb]))
    rw [issue, issueBegun_brk hf (encWord (.brk x)) (by simpa [SlotOp.on, opBrk] using hp)]
    refine ⟨fun ha => ⟨_, rfl, ?_⟩, fun ha => ?_⟩
    · rw [if_pos ha]
      have stall : ((u.stallEnd k).th k).unwatched = (u.th k).unheld.unwatched := by simpa using u.th_stallEnd k k
      have own : ((((u.stallEnd k).modTh k fun t =>
          { t with dbg := { t.dbg with stopped := true, cause := 2, brkid := x.i.toNat, step := false } }).credit k false).th k) =
          { (u.stallEnd k).th k with
            dbg := { ((u.stallEnd k).th k).dbg with stopped := true, cause := 2, brkid := x.i.toNat, step := false } } :=
        (State.th_credit ..).trans (State.th_modTh_same ..)
      rw [own]
      exact ⟨rfl, rfl, rfl, (congrArg Thr.pc stall :).trans (Thr.unheld_pc _), (congrArg Thr.scyc stall :).trans (congrArg Thr.scyc (Thr.unheld_eq _) :)⟩
    · rw [if_neg (by simpa [armed] using ha)]

end Sys2Proof.Machine
end

section
/-! PROOFS. Control registers, ICINV, and the status of PRES and PKILL (04 R126, R131, R132). -/

namespace Sys2Proof.Machine

open Sys2Proof

/-! ### Control registers (03 Tables 3-15 to 3-25, 11 Table 11-6) -/

theorem toNat_rrbOf (t : Thr) : (rrbOf t).toNat % 2 ^ 32 = t.rotn % 2 ^ 32 ∧ (rrbOf t).toNat / 2 ^ 32 = (match t.rotLoop with
    | some e => if e.w = 0 then 0 else t.rotn % e.w
    | none => 0) % 2 ^ 32 := by
  unfold rrbOf
  cases t.rotLoop with
  | none => simp only [BitVec.toNat_ofNat]; omega
  | some e =>
    simp only [BitVec.toNat_ofNat]
    generalize (if e.w = 0 then 0 else t.rotn % e.w) = q
    omega

/-- The counters of a partition's core, where it may read them, and their selectors (19 R484). -/
theorem crPart_counter {c : IC} {sel : Nat} (h : 0x100 ≤ sel) : crPart c sel =
    if 0x100 ≤ sel ∧ sel < 0x110 then
      some (if c.s.feature 5 && (List.range 8).all (fun i => (c.s.ctx c.cx).allot.contains (coreOf c.k * 8 + i)) then
        getD 0 c.s.pmc (coreOf c.k * 16 + (sel - 0x100)) else 0)
    else if 0x110 ≤ sel ∧ sel < 0x120 then
      some (if c.s.feature 5 then getD 0 c.s.pmsel (coreOf c.k * 16 + (sel - 0x110)) else 0)
    else none := by
  unfold crPart
  iterate 12 rw [if_neg (by omega)]

theorem crPart_pmc (c : IC) {n : Nat} (hn : n < 16) : crPart c (0x100 + n) = some (if c.s.feature 5 = true ∧ ∀ i, i < 8 →
    c.k / 8 * 8 + i ∈ (c.s.ctx c.cx).allot then getD 0 c.s.pmc (c.k / 8 * 16 + n) else 0) := by
  rw [crPart_counter (by omega), if_pos (by omega), Nat.add_sub_cancel_left]
  simp [coreOf]

theorem crPart_pmsel (c : IC) {n : Nat} (hn : n < 16) : crPart c (0x110 + n) = some (if c.s.feature 5 = true then
    getD 0 c.s.pmsel (c.k / 8 * 16 + n) else 0) := by
  rw [crPart_counter (by omega), if_neg (by omega), if_pos (by omega), Nat.add_sub_cancel_left]
  rfl

/-- A TMODE that is due lands in its command stream's context (11 Table 11-6). -/
theorem tmode_landThr {s : State} {k : Nat} {w : W64} (h : (s.th k).flight = [{ due := (s.th k).scyc, land := .tmode w }]) :
    ((s.landThr k).ctx (k - 4096)).tmode = w.toNat % 4 := by
  have ready : (s.th k).frozen = false := by simp [Thr.frozen, h, Flight.waiting]
  have landed : s.landThr k = ((s.setTh k (s.th k).landDue).landTmode k (.tmode w)).fireDue k := by
    simp [State.landThr, ready, h]
  have word : fld w 1 0 = w.toNat % 4 := by simp [fld, bitsN]
  rw [landed, ← word]
  have set := State.ctx_modCtx (s.setTh k (s.th k).landDue) (k - csBase) (fun x => { x with tmode := fld w 1 0 }) (k - csBase)
  rw [if_pos rfl] at set
  exact congrArg Ctx.tmode set

theorem crImpure_isSome (sel : Nat) : (crImpure sel).isSome = decide (sel = 0x003 ∨ sel = 0x004 ∨ sel = 0x010) := by
  unfold crImpure
  split <;> simp_all

theorem toNat_mod_word (y : W64) : y.toNat = y.toNat % 2 ^ 64 := (Nat.mod_eq_of_lt y.isLt).symm

/-! ### PRES, PRES.skip, PRES.mig and PKILL (04 R131, Table 4-10) -/

theorem presStatus_eq (u : State) (c p : Nat) (skip : Bool) : u.presStatus c p skip =
    if p ∉ (u.ctx c).allot then 2
    else if (u.th p).mode ≠ .parked ∨ (u.th p).park.resume.isSome = true then 1
    else if skip = true ∧ (u.th p).park.fetch = true then 4 else 0 := by
  simp [State.presStatus]

/-- The task that PRES.mig moves: the one saved in the slot of partition a (12 R360). -/
def State.migrant (u : State) (c a : Nat) : Option TaskRef := if a < 3072 then (u.savedAt c a).bind Thr.task else none

/-- The status of PRES.mig (04 Table 4-10). -/
def State.presMigStatus (u : State) (c a b : Nat) : Nat :=
  if !(u.ctx c).allot.contains b then 2 else if (u.migrant c a).isNone then 1 else if !u.idleTarget b then 3 else 0

/-- What PRES.mig judged in u does to v. -/
def State.presMigrate (v u : State) (c a b : Nat) : State :=
  match u.presMigStatus c a b, u.migrant c a with
  | 0, some j => ((v.unqueue c a).rebind c (u.queuedOn c a) b).modTh b fun t => { t with resumed := [{ j with slot := a }] }
  | _, _ => v

theorem presMigStatus_eq (u : State) (c a b : Nat) : u.presMigStatus c a b =
    if b ∉ (u.ctx c).allot then 2
    else if ¬a < 3072 ∨ ((u.savedAt c a).bind Thr.task).isSome = false then 1
    else if u.idleTarget b = false then 3 else 0 := by
  by_cases ha : a < 3072 <;> simp [State.presMigStatus, State.migrant, ha]

theorem presMigrate_of_status {u : State} {c a b : Nat} (v : State) (h : u.presMigStatus c a b ≠ 0) : v.presMigrate u c a b = v := by
  unfold State.presMigrate
  split
  · next h0 _ => exact absurd h0 h
  · rfl

theorem presMigrate_resumed {u : State} {c a b : Nat} {j : TaskRef} (v : State) (h : u.presMigStatus c a b = 0)
    (hj : (u.savedAt c a).bind Thr.task = some j) : ((v.presMigrate u c a b).th b).resumed = [{ j with slot := a }] := by
  have small : a < 3072 := by
    by_contra ha
    rw [presMigStatus_eq, if_pos (Or.inl ha)] at h
    split at h <;> cases h
  have moved : u.migrant c a = some j := (if_pos small).trans hj
  unfold State.presMigrate
  rw [h, moved]
  exact congrArg Thr.resumed (State.th_modTh_same ..)

/-- Whether PKILL finds a task at work on a partition (12 R354). -/
def State.atWork (u : State) (p : Nat) : Bool := (u.th p).mode != .finishing && (u.th p).task.isSome

/-- The status of PKILL (04 Table 4-10). -/
def State.pkillStatus (u : State) (c p : Nat) : Nat :=
  if !(u.ctx c).allot.contains p then 2
  else if ((u.th p).task.isNone || (u.th p).mode == .finishing) && (u.savedAt c p).isNone then 1 else 0

theorem pkillStatus_eq (u : State) (c p : Nat) : u.pkillStatus c p =
    if p ∉ (u.ctx c).allot then 2 else if u.atWork p = false ∧ (u.savedAt c p).isNone = true then 1 else 0 := by
  have idle : ((u.th p).task.isNone || (u.th p).mode == .finishing) = !u.atWork p := by
    simp [State.atWork, bne, Bool.or_comm, Option.not_isSome]
  simp [State.pkillStatus, idle]

/-- What PKILL judged in u does to v. -/
def State.pkill (v u : State) (c p : Nat) : State :=
  if u.pkillStatus c p != 0 then v else if u.atWork p then v.killRunning p else v.killSaved c p

/-- Settles O9: a register read is the word of its table, and each status is the model's chain of conditions. -/
theorem systemResults : Obligations.SystemResults := by
  intro s u k r c ic
  refine ⟨fun x hc => ?_, fun x hc hk => ?_, fun x hc hk => ?_, fun v w hk hf => tmode_landThr hf, fun x hc => ?_, fun x => ?_,
    fun x hc => ?_, fun x hc => ?_⟩
  · have legal := (hc.clear_of (o := opCrr x) rfl).ill_false
    obtain ⟨y, hy⟩ : ∃ y, crRead (ic (.crr x)) x.l.toNat = some y := by
      cases h : crRead (ic (.crr x)) x.l.toNat with
      | none => simp [opCrr, ic, h] at legal
      | some y => exact ⟨y, rfl⟩
    refine ⟨y, hy, ?_, ?_⟩
    · have value : (crRead (ic (.crr x)) x.l.toNat).getD 0 = y := by rw [hy]; rfl
      rw [← value, ← crImpure_isSome]
      exact issueOne_of_commits hc (o := opCrr x) rfl
    · intro t q
      refine ⟨fun hk => ?_, fun hk => ?_⟩
      · have reads {sel : Nat} {v : W64} (hl : x.l.toNat = sel) (hv : crPart (ic (.crr x)) sel = some v) : y = v := by
          rw [crRead, show (ic (.crr x)).k = k from rfl, hk, hl] at hy
          exact Option.some.inj (hy.symm.trans hv)
        have number {sel n : Nat} (hv : crPart (ic (.crr x)) sel = some (BitVec.ofNat 64 n)) (hl : x.l.toNat = sel) :
            y.toNat = n % 2 ^ 64 := by rw [reads hl hv, BitVec.toNat_ofNat]
        have word {sel : Nat} {v : W64} (hv : crPart (ic (.crr x)) sel = some v) (hl : x.l.toNat = sel) : y.toNat = v.toNat % 2 ^ 64 := by
          rw [reads hl hv, ← toNat_mod_word]
        refine ⟨?_, fun hl => ?_, fun n hn hl => reads hl (crPart_pmc _ hn), fun n hn hl => reads hl (crPart_pmsel _ hn)⟩
        · simp only [List.forall_mem_cons]
          exact ⟨number rfl, number rfl, number rfl, number rfl, number rfl, word rfl, word rfl, word rfl, word rfl, word rfl, word rfl,
            List.forall_mem_nil _⟩
        · rw [reads hl (v := rrbOf t) rfl]
          exact toNat_rrbOf t
      · have number {sel n : Nat} (hv : crCs (ic (.crr x)) sel = some (BitVec.ofNat 64 n)) (hl : x.l.toNat = sel) :
            y.toNat = n % 2 ^ 64 := by
          rw [crRead, show (ic (.crr x)).k = k from rfl, hk, hl] at hy
          rw [Option.some.inj (hy.symm.trans hv), BitVec.toNat_ofNat]
        simp only [List.forall_mem_cons]
        exact ⟨number rfl, number rfl, number rfl, number rfl, number rfl, number rfl, number rfl, number rfl, List.forall_mem_nil _⟩
  · have legal := (hc.clear_of (o := opCrw x) rfl).ill_false
    have named : (ctlOf x.l.toNat).isNone = false := by simpa [opCrw, oneIC, hk] using legal
    obtain ⟨n, hn⟩ := Option.ne_none_iff_exists'.mp (Option.isNone_eq_false_iff.mp named |> Option.isSome_iff_ne_none.mp)
    have eff : (opCrw x).eff (ic (.crw x)) = fun v => v.fly k 1 (.ctl n (r x.s.toNat)) := by
      funext v
      simp [opCrw, ic, oneIC, hk, hn]
      rfl
    have impure : ((opCrw x).impure (ic (.crw x))).isSome = decide (x.l.toNat = 0x010) := by
      simp only [opCrw]
      split <;> simp_all
    refine ⟨n, hn, ?_⟩
    rw [← eff, ← impure]
    exact issueOne_of_commits hc (o := opCrw x) rfl
  · have legal := (hc.clear_of (o := opCrw x) rfl).ill_false
    have sel : x.l.toNat = 0x033 := by simpa [opCrw, oneIC, hk] using legal
    have eff : (opCrw x).eff (ic (.crw x)) = fun v => v.fly k 1 (.tmode (r x.s.toNat)) := by
      funext v
      simp [opCrw, ic, oneIC, hk]
      rfl
    have impure : ((opCrw x).impure (ic (.crw x))).isSome = false := by simp [opCrw, sel]
    refine ⟨sel, ?_⟩
    rw [← eff, ← impure]
    exact issueOne_of_commits hc (o := opCrw x) rfl
  · intro va n own
    have run := issueOne_of_commits hc (o := opIcinv x) rfl
    exact ⟨fun hf => run.trans (committed_congr (if_pos hf)), fun hf => run.trans (committed_congr (if_neg (by omega)))⟩
  · have form {i : Instr} {lgl skip : Bool} (ho : slotOf i = some (presOp x lgl skip)) (hr : ∀ s, exec i s = issueOne 0 (encWord i) (presOp x lgl skip) s)
        (hc : Commits s u k 0 i) : exec i s = committed u k fun v =>
          (if u.presStatus c (r x.a.toNat).toNat skip = 0 then
            v.modTh (r x.a.toNat).toNat fun t => { t with park := { t.park with resume := some (k, u.nextId, skip) } } else v).fly k 1
          (.s x.d.toNat (BitVec.ofNat 64 (u.presStatus c (r x.a.toNat).toNat skip)) false) :=
      (hr s).trans (issueOne_of_commits hc ho)
    refine List.forall_mem_cons.mpr ⟨fun hc => ?_, List.forall_mem_cons.mpr ⟨fun hc => ?_, List.forall_mem_nil _⟩⟩
    · intro p st
      rw [show st = u.presStatus c p false from (presStatus_eq u c p false).symm]
      exact form (lgl := legal (.pres x)) rfl (fun _ => rfl) hc
    · intro p st
      rw [show st = u.presStatus c p true from (presStatus_eq u c p true).symm]
      exact form (lgl := legal (.presSkip x)) rfl (fun _ => rfl) hc
  · intro a b st
    have run := issueOne_of_commits hc (o := opPresMig x) rfl
    have eff : (opPresMig x).eff (ic (.presMig x)) = fun v => (v.presMigrate u c a b).fly k 1 (.s x.d.toNat (BitVec.ofNat 64 st) false) := by
      funext v
      rw [show st = u.presMigStatus c a b from (presMigStatus_eq u c a b).symm]
      rfl
    refine ⟨fun hst => run.trans (committed_congr ?_), fun j hst hj => ?_⟩
    · rw [eff]
      exact congrArg (fun v => State.fly v k 1 _) (presMigrate_of_status _ ((presMigStatus_eq u c a b).trans_ne hst))
    · refine ⟨(u.advance k 8 0).presMigrate u c a b, run.trans (committed_congr ?_), ?_⟩
      · rw [eff, hst]
        rfl
      · exact presMigrate_resumed _ ((presMigStatus_eq u c a b).trans hst) hj
  · intro p
    have run := issueOne_of_commits hc (o := opPkill x) rfl
    have eff (v : State) : (opPkill x).eff (ic (.pkill x)) v =
        (v.pkill u c p).fly k 1 (.s x.d.toNat (BitVec.ofNat 64 (u.pkillStatus c p)) false) := rfl
    refine ⟨fun hp => run.trans (committed_congr ?_), ?_⟩
    · have status : u.pkillStatus c p = 2 := by simp [State.pkillStatus, hp]
      rw [eff, State.pkill, status]
      rfl
    · intro runs
      have work : u.atWork p = true ↔ runs := by simp [State.atWork, runs, and_comm]
      have idle (h : ¬runs) : u.atWork p = false := Bool.eq_false_iff.mpr (mt work.mp h)
      refine ⟨fun hp hr hs => run.trans (committed_congr ?_), fun hp hr => run.trans (committed_congr ?_),
        fun hp hr hs => run.trans (committed_congr ?_)⟩
      · have status : u.pkillStatus c p = 1 := by simp [pkillStatus_eq, hp, idle hr, hs]
        rw [eff, State.pkill, status]
        rfl
      · have status : u.pkillStatus c p = 0 := by simp [pkillStatus_eq, hp, work.mpr hr]
        rw [eff, State.pkill, status, work.mpr hr]
        rfl
      · have status : u.pkillStatus c p = 0 := by
          simp [pkillStatus_eq, hp, Option.isNone_eq_false_iff.mpr hs]
        rw [eff, State.pkill, status, idle hr]
        rfl

end Sys2Proof.Machine
end

section
/-! PROOFS. Lanes, elements and predicates, and what a landing result changes (03 R92). -/

namespace Sys2Proof.Machine

open Sys2Proof

/-! ### Lanes of vector registers and elements of banks (06 R167, 07 R196) -/

theorem packLE_lt (w : Nat) (l : List Nat) : packLE w l < 2 ^ (w * l.length) := by
  induction l with
  | nil => simp [packLE]
  | cons x r ih =>
    have hx : x % 2 ^ w < 2 ^ w := Nat.mod_lt _ (Nat.two_pow_pos w)
    have hr : packLE w r + 1 ≤ 2 ^ (w * r.length) := ih
    rw [packLE, List.length_cons, Nat.mul_succ, Nat.pow_add, Nat.mul_comm (2 ^ (w * r.length))]
    calc x % 2 ^ w + 2 ^ w * packLE w r < 2 ^ w + 2 ^ w * packLE w r := by omega
      _ = 2 ^ w * (packLE w r + 1) := by ring
      _ ≤ 2 ^ w * 2 ^ (w * r.length) := Nat.mul_le_mul_left _ hr

/-- A lane of a register built lane by lane. -/
theorem vLane_vOfLanes {w : Nat} {l : List Nat} (hl : w * l.length ≤ 2048) (i : Nat) :
    vLane (vOfLanes w l) w i = l.getD i 0 % 2 ^ w := by
  have small : packLE w l < 2 ^ 2048 := (packLE_lt w l).trans_le (Nat.pow_le_pow_right (by decide) hl)
  rw [vLane, vOfLanes, BitVec.toNat_ofNat, Nat.mod_eq_of_lt small, laneN_packLE]

theorem vLane_lt (v : VReg) (w i : Nat) : vLane v w i < 2 ^ w := laneN_lt ..

theorem vLane_map {w n : Nat} (f : Nat → Nat) (hn : w * n ≤ 2048) {i : Nat} (hi : i < n) :
    vLane (vOfLanes w ((List.range n).map f)) w i = f i % 2 ^ w := by
  rw [vLane_vOfLanes (by simpa using hn)]
  simp [hi]

theorem vLane_mergeChunks (old new_ : VReg) (m : W64) {i : Nat} (hi : i < 64) :
    vLane (mergeChunks old new_ m) 32 i = if m.getLsbD i then vLane new_ 32 i else vLane old 32 i := by
  rw [mergeChunks, vLane_map _ (by decide) hi]
  split <;> exact Nat.mod_eq_of_lt (vLane_lt ..)

theorem getD_map_range {α : Type} (d : α) (f : Nat → α) {n i : Nat} (hi : i < n) :
    getD d ((List.range n).map fun i => (i, f i)) i = f i := by
  rw [getD_eq_find, List.find?_map]
  have found : (List.range n).find? ((fun e : Nat × α => decide (e.1 = i)) ∘ fun i => (i, f i)) = some i := by
    rw [List.find?_range_eq_some]
    exact ⟨by simp, List.mem_range.mpr hi, fun j hj => by simp [hj.ne]⟩
  rw [found]
  rfl

theorem Bank.el_of (f : Nat → Nat → Nat) {i j : Nat} (hi : i < 64) (hj : j < 64) : (Bank.of f).el i j = f i j % 2 ^ 32 := by
  rw [Bank.el, Bank.of, getD_map_range 0 _ hi, vLane_map _ (by decide) hj]

theorem Bank.el_lt (b : Bank) (i j : Nat) : b.el i j < 2 ^ 32 := vLane_lt ..

theorem Bank.el_setRow (b : Bank) (n : Nat) (y : VReg) (i j : Nat) :
    (b.setRow n y).el i j = if i = n then vLane y 32 j else b.el i j := by
  rw [Bank.el, Bank.setRow, getD_putK]
  split <;> rfl

/-! ### Predicates (03 R75, 04 R114) -/

theorem getLsbD_twoPow16 (n j : Nat) : (BitVec.ofNat 16 (2 ^ n)).getLsbD j = (decide (j < 16) && decide (n = j)) := by
  rw [BitVec.getLsbD_ofNat, Nat.testBit_two_pow]

theorem Thr.p_setP_ne (t : Thr) {n j : Nat} (b : Bool) (h : j ≠ n) : (t.setP n b).p j = t.p j := by
  by_cases h0 : n = 0
  · simp [Thr.setP, h0]
  · by_cases hj : j = 0
    · simp [Thr.p, hj]
    · have off : (BitVec.ofNat 16 (2 ^ n)).getLsbD j = false := by
        rw [getLsbD_twoPow16, decide_eq_false (Ne.symm h), Bool.and_false]
      simp only [Thr.p, if_neg hj, Thr.setP, if_neg h0]
      generalize BitVec.ofNat 16 (2 ^ n) = q at off
      cases b
      · by_cases hw : j < 16
        · rw [if_neg Bool.false_ne_true, BitVec.getLsbD_and, BitVec.getLsbD_not, off, decide_eq_true hw, Bool.not_false, Bool.and_true,
            Bool.and_true]
        · simp [BitVec.getLsbD_of_ge _ _ (Nat.not_lt.mp hw)]
      · simp [off]

/-! ### Address-update rules (04 R123) -/

theorem find?_putK_same {α : Type} (m : Map α) (k : Nat) (v : α) : ((putK m k v).find? fun e => e.1 == k) = some (k, v) := by
  induction m with
  | nil => simp [putK]
  | cons e r ih =>
    simp only [putK]
    split
    · simp
    · split
      · simp
      · next h => simp [List.find?_cons, Ne.symm h, ih]

theorem find?_putK_ne {α : Type} (m : Map α) {k j : Nat} (v : α) (h : j ≠ k) :
    ((putK m k v).find? fun e => e.1 == j) = m.find? fun e => e.1 == j := by
  induction m with
  | nil => simp [putK, h.symm]
  | cons e r ih =>
    obtain ⟨i, x⟩ := e
    simp only [putK]
    split
    · simp [List.find?_cons, h.symm]
    · split
      · next hi => simp [List.find?_cons, ← hi, h.symm]
      · simp [List.find?_cons, ih]

/-! ### BARB (04 R122) -/

/-- A rotation is one of 16. -/
theorem rotation_lt (v d : W64) : (if d.toNat % 16 = 0 then v.toNat % 16 else v.toNat % 16 % (d.toNat % 16)) < 16 := by
  split
  · omega
  · exact (Nat.mod_le _ _).trans_lt (by omega)

/-! ### The statement -/

/-- Settles O42, one landing after the other: each sets one map of the issuer, read by the law of that map. -/
theorem resultLanding : Obligations.ResultLanding := by
  intro t n v x psn
  refine ⟨?_, ?_, ?_, ?_, ?_, ?_, ?_, ?_, ?_, ?_, ?_, ?_, ?_, ?_, ?_, ?_, ?_, ?_⟩
  · intro a
    refine ⟨rfl, fun hn => ⟨?_, ?_⟩, fun j hj => ⟨?_, ?_⟩, ?_⟩
    · exact (Thr.s_setS ..).trans (if_pos ⟨rfl, hn⟩)
    · exact (Thr.sBad_setS ..).trans (if_pos ⟨rfl, hn⟩)
    · exact (Thr.s_setS ..).trans (if_neg fun h => hj h.1)
    · exact (Thr.sBad_setS ..).trans (if_neg fun h => hj h.1)
    · show { t.setS n v psn with sr := t.sr, sPsn := t.sPsn } = t
      unfold Thr.setS
      split <;> rfl
  · intro a
    refine ⟨rfl, fun hn hw => ?_, fun j hj => Thr.p_setP_ne t psn hj, ?_⟩
    · exact (Thr.p_setP t n psn n hw).trans (if_pos ⟨rfl, hn⟩)
    · show { t.setP n psn with pr := t.pr } = t
      unfold Thr.setP
      split <;> rfl
  · intro a
    refine ⟨rfl, fun hn i hi => ?_, fun j hj => (Thr.m_setM ..).trans (if_neg fun h => hj h.1), ?_⟩
    · rw [show a.m n = _ from (Thr.m_setM ..).trans (if_pos ⟨rfl, hn⟩), BitVec.getLsbD_or, BitVec.getLsbD_and, BitVec.getLsbD_and,
        BitVec.getLsbD_not, decide_eq_true hi]
      cases x.getLsbD i <;> simp
    · show { t.setM n v x with mr := t.mr } = t
      unfold Thr.setM
      split <;> rfl
  · intro y a
    have regs (j : Nat) : a.vPhys j = if j = n then (if x = BitVec.allOnes 64 then y else mergeChunks (t.vPhys n) y x) else t.vPhys j := by
      refine (getD_putD ..).trans ?_
      simp only [beq_iff_eq]
      rfl
    have psns (j : Nat) : a.vBadP j = if j = n then (if x = BitVec.allOnes 64 then psn else (t.vBadP n || psn)) else t.vBadP j := by
      refine (getD_putD ..).trans ?_
      simp only [beq_iff_eq]
      rfl
    refine ⟨fun i hi => ?_, (psns n).trans (if_pos rfl), fun j hj => ⟨(regs j).trans (if_neg hj), (psns j).trans (if_neg hj)⟩, rfl⟩
    rw [regs, if_pos rfl]
    split
    · next full => rw [full, BitVec.getLsbD_allOnes, decide_eq_true hi, if_pos rfl]
    · exact vLane_mergeChunks _ _ _ hi
  · intro a
    refine ⟨rfl, fun j hj hw => ?_, rfl⟩
    simp [a, landOne, Thr.p, hj, hw]
  · intro a
    have low : ∀ j < 8, (0xFF#16).getLsbD j = true := by decide
    have high : ∀ j < 8, (0xFF#16).getLsbD (8 + j) = false := by decide
    refine ⟨fun j hj => ?_, fun j hj => ?_, rfl⟩
    · by_cases h0 : j = 0
      · simp [h0]
      · show (if j = 0 then true else ((t.pr &&& 0xFF#16) ||| ((v.setWidth 8).setWidth 16 <<< 8)).getLsbD j) = t.p j
        rw [Thr.p, if_neg h0, if_neg h0, BitVec.getLsbD_or, BitVec.getLsbD_and, low j hj, BitVec.getLsbD_shiftLeft, decide_eq_true hj]
        simp
    · rw [show a.p (8 + j) = ((t.pr &&& 0xFF#16) ||| ((v.setWidth 8).setWidth 16 <<< 8)).getLsbD (8 + j) from if_neg (by omega),
        BitVec.getLsbD_or, BitVec.getLsbD_and, high j hj, BitVec.getLsbD_shiftLeft]
      simp [hj, show 8 + j < 16 by omega, show j < 16 by omega]
  · intro b y hn a c
    have row (j : Nat) : a.bank j = if j = b then (t.bank b).setRow n y else t.bank j := Thr.bank_setBank ..
    have col (j : Nat) : c.bank j = if j = b then Bank.of (fun r i => if i = n then vLane y 32 r else (t.bank b).el r i) else t.bank j :=
      Thr.bank_setBank ..
    refine ⟨fun i j hi hj => ⟨?_, ?_⟩, fun j hj => ⟨(row j).trans (if_neg hj), (col j).trans (if_neg hj)⟩, rfl, rfl⟩
    · rw [row, if_pos rfl, Bank.el_setRow]
    · rw [col, if_pos rfl, Bank.el_of _ hi hj]
      split
      · exact Nat.mod_eq_of_lt (vLane_lt ..)
      · exact Nat.mod_eq_of_lt (Bank.el_lt ..)
  · intro b q
    cases q with
    | none => exact ⟨(Thr.bank_setBank ..).trans (if_pos rfl), rfl, fun j hj => ⟨(Thr.bank_setBank ..).trans (if_neg hj), rfl⟩, rfl⟩
    | some w =>
      exact ⟨(Thr.bank_setBank ..).trans (if_pos rfl), (Thr.bBad_setBPsn ..).trans (if_pos rfl),
        fun j hj => ⟨(Thr.bank_setBank ..).trans (if_neg hj), (Thr.bBad_setBPsn ..).trans (if_neg hj)⟩, rfl⟩
  · exact ⟨(Thr.bBad_setBPsn ..).trans (if_pos rfl), fun j hj => (Thr.bBad_setBPsn ..).trans (if_neg hj), rfl⟩
  · intro va
    simp only [List.forall_mem_cons]
    exact ⟨⟨(Thr.h_setH ..).trans (if_pos rfl), fun j hj => (Thr.h_setH ..).trans (if_neg hj), rfl⟩,
      ⟨(Thr.h_setH ..).trans (if_pos rfl), fun j hj => (Thr.h_setH ..).trans (if_neg hj), rfl⟩, List.forall_mem_nil _⟩
  · intro r
    exact ⟨find?_putK_same .., fun j hj => find?_putK_ne _ _ hj, rfl⟩
  · refine ⟨?_, rfl⟩
    show (BitVec.ofNat 64 (max 24 (fld v 11 0))).toNat = _
    rw [fld_eq, BitVec.toNat_ofNat]
    omega
  · intro a d
    have barb : a.barb.toNat = v.toNat / 2 ^ 8 % 2 ^ 16 * 256 + if d = 0 then v.toNat % 16 else v.toNat % 16 % d := by
      show (BitVec.ofNat 64 (fld v 23 8 * 256 + if fld t.bard 3 0 = 0 then fld v 3 0 else fld v 3 0 % fld t.bard 3 0)).toNat = _
      simp only [fld_eq, BitVec.toNat_ofNat, pow_zero, Nat.div_one, Nat.reduceAdd, Nat.reduceSub, Nat.reducePow]
      exact Nat.mod_eq_of_lt (by have := rotation_lt v t.bard; omega)
    have small : (if d = 0 then v.toNat % 16 else v.toNat % 16 % d) < 16 := rotation_lt v t.bard
    refine ⟨?_, ?_, rfl⟩ <;> rw [barb] <;> omega
  · refine ⟨?_, ?_, rfl⟩
    · show ((t.barb &&& ~~~15#64) ||| BitVec.ofNat 64 (n % 16)).toNat % 2 ^ 4 = _
      rw [BitVec.toNat_or, Nat.or_mod_two_pow, BitVec.toNat_and, Nat.and_mod_two_pow]
      simp
    · show ((t.barb &&& ~~~15#64) ||| BitVec.ofNat 64 (n % 16)).toNat / 2 ^ 4 = _
      rw [BitVec.toNat_or, BitVec.toNat_and, ← Nat.shiftRight_eq_div_pow, Nat.shiftRight_or_distrib, Nat.shiftRight_and_distrib]
      have keep : (~~~15#64).toNat >>> 4 = 2 ^ 60 - 1 := by decide
      have gone : (BitVec.ofNat 64 (n % 16)).toNat >>> 4 = 0 := by
        rw [BitVec.toNat_ofNat, Nat.shiftRight_eq_div_pow]
        omega
      rw [keep, gone, Nat.and_two_pow_sub_one_eq_mod, Nat.or_zero, Nat.shiftRight_eq_div_pow]
      omega
  · refine ⟨?_, rfl⟩
    show (BitVec.ofNat 64 (fld v 3 0)).toNat = _
    rw [fld_eq, BitVec.toNat_ofNat]
    omega
  · exact ⟨rfl, rfl⟩
  · rfl
  · rfl

end Sys2Proof.Machine
end

section
/-! PROOFS. Atomics, translation, order and maintenance send their requests (05 R137–R139, R154–R161) -/

namespace Sys2Proof.Machine

open Sys2Proof

/-- A returning request's landing delay: ALAND (03 R93). -/
theorem aland_eq (t : Thr) : fld t.aland 11 0 = t.aland.toNat % 2 ^ 12 := by
  rw [fld_eq, Nat.pow_zero, Nat.div_one]

/-- What an atomic's commit sends (05 R154). -/
def atomicKind (op : AtomicOp) (x : Atm) (c : IC) (ret : Option Nat) : ReqKind :=
  .atomic op (ptrAt (gldPtr x.a c)) (c.pa (gldPtr x.a c)) (c.sv x.b.toNat) (if op = .cas then c.sv x.d.toNat else 0) ret x.o.toNat x.c.toNat

theorem exec_atomic {s u : State} {k : Nat} {i : Instr} {op : AtomicOp} {x : Atm} {lg : Bool} (hc : Commits s u k 2 i)
    (ho : slotOf i = some (atomicOp op x.g x.a x.n x.d x.b x.o x.c lg))
    (he : ∀ s, exec i s = issueOne 2 (encWord i) (atomicOp op x.g x.a x.n x.d x.b x.o x.c lg) s) :
    let c := oneIC u k 2 (encWord i)
    let p := gldPtr x.a c
    (x.d = 0 → exec i s = committed u k (fun v => v.addReq k v.nextId (c.hnd p).va true (atomicKind op x c none)) true) ∧
    (x.d ≠ 0 → exec i s = committed u k (fun v => (v.addReq k v.nextId (c.hnd p).va true
      (atomicKind op x c (some x.d.toNat))).flyReq k ((u.th k).aland.toNat % 2 ^ 12) v.nextId) true) := by
  intro c p
  rw [he, issueOne_of_commits hc ho, ← aland_eq]
  refine ⟨fun hd => ?_, fun hd => ?_⟩
  · exact committed_congr (if_pos hd)
  · exact committed_congr (if_neg hd)

/-- Settles O13: the nine read-modify-write forms are one operation, ATST another. -/
theorem atomicsSent : Obligations.AtomicsSent := by
  intro s u k
  refine ⟨fun x => ?_, fun x hc => ?_⟩
  · intro e he hc
    simp only [List.mem_cons, List.not_mem_nil, or_false] at he
    rcases he with rfl | rfl | rfl | rfl | rfl | rfl | rfl | rfl | rfl
    all_goals exact exec_atomic (x := x) hc rfl fun _ => rfl
  · exact issueOne_of_commits hc (o := opAtst x) rfl

/-! ### A write at a home, and the pages it judges afresh -/

theorem State.mem_homeWrite (s : State) (pa : Nat) (bs : List Byte) (own : Option (Nat × Nat)) :
    (s.homeWrite pa bs own).mem = wrBytes s.mem pa bs := by
  unfold State.homeWrite
  rw [State.hostFlit_mem]
  rfl

theorem State.mem_afreshLine (s t : State) (line : Nat) : (s.afreshLine line t).mem = t.mem := by
  unfold State.afreshLine
  exact foldl_keeps (f := State.pageAfresh) (fun u => u.mem = t.mem) (fun u key (h : u.mem = t.mem) => h) _ rfl

theorem State.tags_afreshLine (s t : State) (line : Nat) : (s.afreshLine line t).tags = t.tags := by
  unfold State.afreshLine
  exact foldl_keeps (f := State.pageAfresh) (fun u => u.tags = t.tags) (fun u key (h : u.tags = t.tags) => h) _ rfl

theorem State.tag_afreshLine (s t : State) (line pa : Nat) : (s.afreshLine line t).tag pa = t.tag pa := by
  rw [State.tag, State.tags_afreshLine, State.tag]

/-! ### PCLR (05 R161) -/

/-- The request a PCLR makes where it must wait. -/
def pclrReq (k c : Nat) (v : State) (line : Nat) : Req := { id := v.nextId, key := k, acc := v.nextId, ctx := c, kind := .pclr line }

/-- What the agent of a request of an issuer's own is. -/
theorem State.reqAgent_of_issuer (s : State) {r : Req} (h : r.key < 3072 ∨ (4096 ≤ r.key ∧ r.key < 8192)) :
    s.reqAgent r = s.agentOf r.key := by
  have hk : ¬(r.key = hostKey ∨ r.key = partKey) := by unfold hostKey partKey; omega
  have he : r.key < engKey 0 := by unfold engKey; omega
  unfold State.reqAgent
  rw [if_neg hk, if_pos he]

/-- A line that PCLR clears is zeros with a clear tag; every other byte stays. -/
theorem State.performPclr_clears {v : State} {a : Nat} {r : Req} (ha : a % 64 = 0) (hv : v.violates true a = false)
    (hp : v.protectedKind a = none) : let w := v.performPclr r (a / 64)
    (∀ i, i < 64 → rdByte w.mem (a + i) = 0) ∧ w.tag a = 0 ∧ ∀ b, b < a ∨ a + 64 ≤ b → rdByte w.mem b = rdByte v.mem b := by
  have line : 64 * (a / 64) = a := by omega
  have cleared : v.performPclr r (a / 64) = (v.homeWrite a (List.replicate 64 0)).setTag a 0 := by
    simp [State.performPclr, line, hv, hp]
  have mem : (v.performPclr r (a / 64)).mem = wrBytes v.mem a (List.replicate 64 0) := by
    rw [cleared]; exact State.mem_homeWrite ..
  refine ⟨fun i hi => ?_, ?_, fun b hb => ?_⟩
  · rw [mem, rdByte_wrBytes_in (by simpa using hi), List.getD_eq_getElem?_getD, List.getElem?_replicate]
    split <;> rfl
  · rw [cleared]; simp [State.tag_setTag]
  · rw [mem, rdByte_wrBytes_out (by simpa using hb)]

/-- A line it may not clear is only logged. -/
theorem State.performPclr_refused {v : State} {a kd : Nat} {r : Req} (ha : a % 64 = 0)
    (hk : (if v.violates true a then some 4 else v.protectedKind a) = some kd) :
    v.performPclr r (a / 64) = v.log r.ctx kd a (v.reqAgent r) := by
  have line : 64 * (a / 64) = a := by omega
  unfold State.performPclr
  simp only [line]
  split at hk
  · next h => cases hk; simp [h]
  · next h => simp [h, hk]

/-- Settles O14. -/
theorem translationAndOrder : Obligations.TranslationAndOrder := by
  intro s u k t c hd
  refine ⟨fun x hc => ?_, fun x hc => ?_, fun x hc => ⟨((opLtag x).impure (oneIC u k 2 (encWord (.ltag x)))).isSome, ?_⟩, fun x hc => ?_, fun x hc => ?_, fun x hc => ?_, fun x hc => ?_,
    fun x hc => ?_⟩
  · exact issueOne_of_commits hc (o := opXlat x) rfl
  · exact issueOne_of_commits hc (o := opHrel x) rfl
  · rw [← aland_eq]
    exact issueOne_of_commits hc (o := opLtag x) rfl
  · intro p h good
    have run := issueOne_of_commits hc (o := opPref x) rfl
    have judged : (ptrMbz p == 0 && h.st == .valid && decide (ptrOfs p < h.size)) = decide good := by
      simp only [beq_eq_decide, ← Bool.decide_and, and_assoc]
      rfl
    exact ⟨fun hg => run.trans (committed_congr (if_pos (judged.trans (decide_eq_true hg)))),
      fun hg => run.trans (committed_congr (if_neg (fun hj => hg (of_decide_eq_true (judged.symm.trans hj)))))⟩
  · exact issueOne_of_commits hc (o := opDrain x) rfl
  · exact issueOne_of_commits hc (o := opClfl x) rfl
  · exact issueOne_of_commits hc (o := opClinv x) rfl
  · intro a may free
    have early : (opPclr x).chk (oneIC u k 2 (encWord (.pclr x))) = none := (hc.clear_of (o := opPclr x) rfl).chk_none
    have ha : a % 64 = 0 := by
      by_contra h
      have : (opPclr x).chk (oneIC u k 2 (encWord (.pclr x))) = some ⟨8, a, 0⟩ := if_pos (Or.inl h)
      rw [this] at early
      cases early
    refine ⟨ha, _, issueOne_of_commits hc (o := opPclr x) rfl, fun v => ?_⟩
    have now (hm : may v) (hf : free v) : (opPclr x).eff (oneIC u k 2 (encWord (.pclr x))) v =
        v.afreshLine (a / 64) (v.performPclr (pclrReq k c v (a / 64)) (a / 64)) :=
      if_pos (by simpa only [Bool.and_eq_true, Bool.or_eq_true] using ⟨hm, hf⟩)
    refine ⟨fun h => ?_, fun hm hf hv hp => ?_, fun kd hk hm hf hkd => ?_⟩
    · exact if_neg fun hj => h <| by
        rw [Bool.and_eq_true, Bool.or_eq_true] at hj
        exact hj
    · rw [now hm hf]
      simp only [State.mem_afreshLine, State.tag_afreshLine]
      exact State.performPclr_clears ha hv hp
    · rw [now hm hf, State.performPclr_refused ha hkd, State.reqAgent_of_issuer v hk]
      rfl

end Sys2Proof.Machine
end

section
/-! PROOFS. Global loads and stores send their requests (05 R146–R153) -/

namespace Sys2Proof.Machine

open Sys2Proof

/-! ### What a write of the part's own may queue: requests of its own (10 R291, 13 R371) -/

/-- From s to t requests of the part's own are queued behind the others. -/
def QueuesPart (s t : State) : Prop := ∃ l, t.reqs = s.reqs ++ l ∧ ∀ q ∈ l, q.key = partKey

theorem QueuesPart.of_eq {s t : State} (h : t.reqs = s.reqs) : QueuesPart s t := ⟨[], by simp [h], by simp⟩

theorem QueuesPart.trans {s t u : State} (h : QueuesPart s t) (h' : QueuesPart t u) : QueuesPart s u := by
  obtain ⟨l, hl, hk⟩ := h
  obtain ⟨l', hl', hk'⟩ := h'
  refine ⟨l ++ l', by simp [hl', hl], fun q hq => ?_⟩
  rcases List.mem_append.mp hq with h | h
  exacts [hk q h, hk' q h]

theorem QueuesPart.ite {b : Prop} [Decidable b] {s t u : State} (ht : QueuesPart s t) (hu : QueuesPart s u) :
    QueuesPart s (if b then t else u) := by
  split <;> assumption

theorem QueuesPart.foldl {α : Type} {f : State → α → State} (h : ∀ s a, QueuesPart s (f s a)) (l : List α) (s : State) :
    QueuesPart s (l.foldl f s) :=
  foldl_keeps (fun t => QueuesPart s t) (fun t a ht => ht.trans (h t a)) l (.of_eq rfl)

theorem QueuesPart.forN {f : Nat → State → State} (h : ∀ i s, QueuesPart s (f i s)) (n : Nat) (s : State) :
    QueuesPart s (forN n s f) := QueuesPart.foldl (fun s i => h i s) _ s

theorem State.reqs_afreshLine (s t : State) (line : Nat) : (s.afreshLine line t).reqs = t.reqs := by
  unfold State.afreshLine
  exact foldl_keeps (f := State.pageAfresh) (fun u => u.reqs = t.reqs) (fun u key (h : u.reqs = t.reqs) => h) _ rfl

section
variable (s : State)

theorem QueuesPart.partWrite (pa : Nat) (bs : List Byte) (tag : Option (BitVec 4)) : QueuesPart s (s.partWrite pa bs tag) := by
  have done : (s.partDone pa bs tag).reqs = s.reqs := by
    unfold State.partDone
    split
    · exact State.homeWrite_reqs ..
    · split <;> exact State.homeWrite_reqs ..
  exact .ite (.of_eq ((State.reqs_afreshLine ..).trans done)) ⟨_, rfl, by simp⟩

theorem QueuesPart.vputN (c va n v : Nat) : QueuesPart s (s.vputN c va n v) := by
  unfold State.vputN
  split
  exacts [.of_eq rfl, .ite (.of_eq rfl) (.partWrite ..)]

theorem QueuesPart.vputRun (c va : Nat) (bs : List Byte) : QueuesPart s (s.vputRun c va bs) := by
  refine .forN (fun i s => ?_) _ s
  dsimp only
  split
  exacts [.of_eq rfl, .ite (.of_eq rfl) (.partWrite ..)]

theorem QueuesPart.logFw (kind addr agent : Nat) : QueuesPart s (s.logFw kind addr agent) :=
  .ite (.of_eq rfl) (.ite ((QueuesPart.partWrite ..).trans (.partWrite ..)) (.partWrite ..))

theorem QueuesPart.log (c kind addr agent : Nat) : QueuesPart s (s.log c kind addr agent) :=
  .ite (.logFw ..) (.ite ((QueuesPart.vputRun ..).trans (.vputN ..)) (.vputN ..))

theorem QueuesPart.structBad (c va : Nat) : QueuesPart s (s.structBad c va) := by
  unfold State.structBad
  split
  exacts [.of_eq rfl, .ite (.log ..) (.of_eq rfl)]

theorem QueuesPart.vwrN (c va n v : Nat) : QueuesPart s (s.vwrN c va n v) := (QueuesPart.structBad ..).trans (.vputN ..)

theorem QueuesPart.recPut (c i off v : Nat) : QueuesPart s (s.recPut c i off v) := .vwrN ..

theorem QueuesPart.mergeDelta (d : Delta) : QueuesPart s (s.mergeDelta d) := by
  have hist (j : Nat) (u : State) : QueuesPart u (if getD 0 d.hist (2 * j) = 0 ∧ getD 0 d.hist (2 * j + 1) = 0 then u
      else u.recPut d.ctx d.idx (0x100 + 8 * j) (addHalves (u.recWord d.ctx d.idx (0x100 + 8 * j)) (getD 0 d.hist (2 * j))
        (getD 0 d.hist (2 * j + 1)))) := .ite (.of_eq rfl) (.recPut ..)
  unfold State.mergeDelta
  refine ((((QueuesPart.forN hist 32 s).trans (.recPut ..)).trans (.recPut ..)).trans (.recPut ..)).trans (.forN (fun v u => ?_) _ _)
  exact .ite (.of_eq rfl) (.ite ((QueuesPart.recPut ..).trans (.recPut ..)) (.recPut ..))

theorem QueuesPart.modDelta (core c i : Nat) (f : Delta → Delta) : QueuesPart s (s.modDelta core c i f) := by
  have merged (d : Delta) : QueuesPart s ((s.setDelta d).merge d) := QueuesPart.mergeDelta (s.setDelta d) d
  unfold State.modDelta
  exact .ite (merged _) (.ite (merged _) (.of_eq rfl))

theorem QueuesPart.report (core c i : Nat) (xs : List Ex) (cl : List Cls) (precise : Bool) :
    QueuesPart s (s.report core c i xs cl precise) := by
  unfold State.report
  exact .ite (QueuesPart.modDelta ..) (.modDelta ..)
end

/-! ### Gathers (05 R148) -/

theorem gathGlob_eq_nil {x : RRR} {c : IC} : gathGlob x c = [] ↔ c.t.m (x.f.toNat % 4) = 0 := by
  have bits (m : W64) : (∀ i, i < 64 → m.getLsbD i = false) ↔ m = 0 :=
    ⟨fun h => BitVec.eq_of_getLsbD_eq fun i hi => by simpa using h i hi, fun h => by simp [h]⟩
  rw [← bits]
  simp [gathGlob, gathLanes, List.filter_eq_nil_iff]

/-! ### Converting stores (05 R152) -/

/-- A converting store has a code for each of its values. -/
theorem encodeLine_codes_length (ver : Nat) (xs : List Ex) (md : Nat → Rm) (h : xs.length % 32 = 0) :
    (encodeLine ver xs md).1.length = xs.length := by
  have block (vs : List Ex) (md : Nat → Rm) : (mxBlock vs md).2.length = vs.length := by
    unfold mxBlock
    split <;> simp
  unfold encodeLine
  dsimp only
  split
  · have len : ∀ b ∈ List.range (xs.length / 32), (((xs.drop (32 * b)).take 32).length) = 32 := by
      intro b hb
      have := List.mem_range.mp hb
      simp only [List.length_take, List.length_drop]
      omega
    simp only [List.length_flatMap, List.map_map]
    rw [List.map_congr_left (g := fun _ => 32) fun b hb => by simpa [block] using len b hb]
    simp
    omega
  · simp

/-- Its bytes fill whole lines, and at least one. -/
theorem stcvBytes_length (ver : Nat) (codes : List Nat) (h : 2 ≤ codes.length) :
    (stcvBytes ver codes).length % 64 = 0 ∧ 64 ≤ (stcvBytes ver codes).length := by
  have bits : 4 ≤ fmtBits (verFmt ver) := by
    unfold fmtBits
    repeat' split
    all_goals omega
  have some_byte : 1 ≤ codes.length * fmtBits (verFmt ver) / 8 := by
    have := Nat.mul_le_mul h bits
    omega
  simp only [stcvBytes, List.length_append, bytesOf_length, List.length_replicate]
  omega

/-- A run of requests of one issuer. -/
theorem reqs_addReqs (k acc vpage : Nat) (kind : Nat → ReqKind) (n : Nat) (s : State) :
    ∃ l, (forN n s fun j s => s.addReq k acc vpage true (kind j)).reqs = s.reqs ++ l ∧ l.map Req.kind = (List.range n).map kind ∧
      ∀ q ∈ l, q.key = k := by
  unfold forN
  induction n with
  | zero => exact ⟨[], by simp, rfl, by simp⟩
  | succ n ih =>
    obtain ⟨l, hl, hkind, hkey⟩ := ih
    simp only [List.range_succ, List.foldl_append, List.foldl_cons, List.foldl_nil, List.map_append, ← hkind]
    refine ⟨l ++ [_], by rw [State.addReq, hl, List.append_assoc], by simp, fun q hq => ?_⟩
    rcases List.mem_append.mp hq with h | h
    · exact hkey q h
    · rw [List.mem_singleton.mp h]

/-- The bytes a converting store writes. -/
def stcvStored (x : Stcv) (c : IC) (r : Nat) : List Byte := stcvBytes (stcvData x c r).1 (stcvData x c r).2.2.1

theorem stcvStored_length (x : Stcv) (c : IC) (r : Nat) : (stcvStored x c r).length % 64 = 0 ∧ 64 ≤ (stcvStored x c r).length := by
  have elems : (stcvData x c r).2.1.length % 32 = 0 ∧ 2 ≤ (stcvData x c r).2.1.length := by
    unfold stcvData
    dsimp only
    split <;> simp
  refine stcvBytes_length _ _ ?_
  rw [show (stcvData x c r).2.2.1.length = (stcvData x c r).2.1.length from encodeLine_codes_length _ _ _ elems.1]
  exact elems.2

/-- The store of its line j, and that of its scale bytes. -/
def stcvLine (x : Stcv) (c : IC) (r : Nat) (j : Nat) : ReqKind :=
  .store (c.pa (gldPtr x.a c) + 64 * j) (((stcvStored x c r).drop (64 * j)).take 64) (some (c.s.recWv c.cx r)) false
    (c.hnd (gldPtr x.a c)).bound
def stcvScale (x : Stcv) (c : IC) (r : Nat) : ReqKind :=
  let h := c.hnd (gldPtr x.a c)
  .store (h.base + dataRegion h.size + 4 * (ptrOfs (gldPtr x.a c) / 64)) (bytesOf 4 (packLE 8 (stcvData x c r).2.2.2.1)) (some 0) false h.bound

/-- The state with its requests sent. -/
def stcvSent (x : Stcv) (c : IC) (r : Nat) (v : State) : State :=
  let va := (c.hnd (gldPtr x.a c)).va
  let s1 := forN ((stcvStored x c r).length / 64) v fun j s => s.addReq c.k v.nextId va true (stcvLine x c r j)
  if (stcvData x c r).2.2.2.1.isEmpty then s1 else s1.addReq c.k v.nextId va true (stcvScale x c r)

theorem opStcv_eff {x : Stcv} {c : IC} {r : Nat} (hr : (c.hnd (gldPtr x.a c)).tens = some r) (v : State) :
    (opStcv x).eff c v = (stcvSent x c r v).report (coreOf c.k) c.cx r (stcvData x c r).2.1 (stcvData x c r).2.2.2.2 false := by
  show (match (c.hnd (gldPtr x.a c)).tens with | none => _ | some i => _) = _
  rw [hr]
  rfl

/-- They are the stores of its lines, the first of them at its pointer, and at most one of the scale bytes. -/
theorem stcvSent_reqs (x : Stcv) (c : IC) (r : Nat) (v : State) : ∃ l, (stcvSent x c r v).reqs = v.reqs ++ l ∧
    (∀ q ∈ l, q.key = c.k ∧ ((∃ j, q.kind = stcvLine x c r j) ∨ q.kind = stcvScale x c r)) ∧ ∃ q ∈ l, q.kind = stcvLine x c r 0 := by
  obtain ⟨l, hl, hkind, hkey⟩ :=
    reqs_addReqs c.k v.nextId (c.hnd (gldPtr x.a c)).va (stcvLine x c r) ((stcvStored x c r).length / 64) v
  have line : ∀ q ∈ l, ∃ j, q.kind = stcvLine x c r j := by
    intro q hq
    obtain ⟨j, -, hj⟩ := List.mem_map.mp (hkind ▸ List.mem_map_of_mem hq : q.kind ∈ (List.range _).map (stcvLine x c r))
    exact ⟨j, hj.symm⟩
  have first : ∃ q ∈ l, q.kind = stcvLine x c r 0 := by
    have := (stcvStored_length x c r).2
    have : stcvLine x c r 0 ∈ l.map Req.kind := by
      rw [hkind]
      exact List.mem_map_of_mem (List.mem_range.mpr (by omega))
    simpa using this
  unfold stcvSent
  dsimp only
  split
  · exact ⟨l, hl, fun q hq => ⟨hkey q hq, .inl (line q hq)⟩, first⟩
  · refine ⟨l ++ [_], (congrArg (· ++ _) hl).trans (List.append_assoc ..), fun q hq => ?_, ?_⟩
    · rcases List.mem_append.mp hq with h | h
      · exact ⟨hkey q h, .inl (line q h)⟩
      · rw [List.mem_singleton.mp h]
        exact ⟨rfl, .inr rfl⟩
    · obtain ⟨q, hq, hk⟩ := first
      exact ⟨q, List.mem_append_left _ hq, hk⟩

theorem opStcv_draws {x : Stcv} {c : IC} {r : Nat} (hr : (c.hnd (gldPtr x.a c)).tens = some r) :
    (opStcv x).draws c = if x.r = 2 then lineElems (c.s.recGeo c.cx r) else 0 := by
  simp only [opStcv, hr]

/-- A converting store that rounds stochastically is a purity violation (11 R327). -/
theorem opStcv_impure (x : Stcv) (c : IC) : ((opStcv x).impure c).isSome =
    ((c.outside true [((c.hnd (gldPtr x.a c)).vaAt (ptrOfs (gldPtr x.a c)), convW x.a c)]).isSome || x.r == 2) := by
  simp only [opStcv, Option.isSome_or]
  congr 1
  by_cases h2 : x.r = 2#2 <;> simp [h2]

theorem opLdcv_eff {x : Gld} {c : IC} {r : Nat} (hr : (c.hnd (gldPtr x.a c)).tens = some r) (v : State) :
    (opLdcv x).eff c v = v.sendLoad c x.l.toNat (c.hnd (gldPtr x.a c)).va (.conv (c.pa (gldPtr x.a c)) (convW x.a c / 64) r
      (c.hnd (gldPtr x.a c)).base (c.hnd (gldPtr x.a c)).size [] false (c.t.vName x.d.toNat)) := by
  simp only [opLdcv, hr]

/-- What a converting store sends: stores of whole lines of the record's page, and of the scale bytes; besides, only requests of
the part's own are queued. -/
theorem opStcv_sends {x : Stcv} {c : IC} {r : Nat} (hr : (c.hnd (gldPtr x.a c)).tens = some r) (v : State) :
    let p := gldPtr x.a c
    let h := c.hnd p
    ∃ l, ((opStcv x).eff c v).reqs = v.reqs ++ l ∧
      (∀ q ∈ l, q.key ≠ partKey → ∃ pa bs ver, q.kind = .store pa bs (some ver) false (some (r, h.base, h.size)) ∧ q.key = c.k ∧
        h.base ≤ pa) ∧
      ∃ q ∈ l, ∃ bs, q.kind = .store (h.base + ptrOfs p) bs (some (c.s.recWv c.cx r)) false (some (r, h.base, h.size)) ∧
        bs = (stcvStored x c r).take 64 := by
  intro p h
  have bound : (c.hnd (gldPtr x.a c)).bound = some (r, h.base, h.size) := by simp only [Handle.bound, h, p, hr, Option.map_some]
  obtain ⟨l, hl, hsent, q, hq, hfirst⟩ := stcvSent_reqs x c r v
  obtain ⟨l', hl', hpart⟩ := QueuesPart.report (stcvSent x c r v) (coreOf c.k) c.cx r (stcvData x c r).2.1 (stcvData x c r).2.2.2.2 false
  refine ⟨l ++ l', ?_, fun q hq hp => ?_, q, List.mem_append_left _ hq, _, ?_, rfl⟩
  · rw [opStcv_eff hr, hl', hl, List.append_assoc]
  · have hq := (List.mem_append.mp hq).resolve_right fun h => hp (hpart q h)
    obtain ⟨hkey, ⟨j, hk⟩ | hk⟩ := hsent q hq
    · refine ⟨_, _, _, by rw [hk, stcvLine, bound], hkey, ?_⟩
      exact (Nat.le_add_right h.base (ptrOfs p)).trans (Nat.le_add_right (c.pa p) _)
    · exact ⟨_, _, _, by rw [hk, stcvScale, bound], hkey, (Nat.le_add_right ..).trans (Nat.le_add_right ..)⟩
  · rw [hfirst, stcvLine, bound]
    rfl

/-- The page of a converting access that commits is bound to a record (05 R150). -/
theorem convOp_bound {c : IC} {g a : BitVec 4} {wr : Bool} {bad : IC → Nat → Bool} (hhold : (convOp g a wr bad).hold c = none)
    (hpost : (convOp g a wr bad).post c = none) : ∃ r, (c.hnd (gldPtr a c)).tens = some r := by
  have ready : (c.hnd (gldPtr a c)).st ≠ .pending := fun h => by
    have : ptrHold c (gldPtr a c) = some 5 := if_pos h
    exact absurd (this.symm.trans hhold) nofun
  have conv : convFault c a (bad c) = none := (Option.or_eq_none_iff.mp hpost).2
  refine Option.ne_none_iff_exists'.mp fun h => ?_
  simp [convFault, h, ready] at conv

/-- A slot that commits passes its checks after the holds. -/
theorem Clear.post_none {u : State} {k pos : Nat} {h : Header} {w : W32} {o : SlotOp} (hc : Clear u k pos h w o) :
    o.post (oneIC u k pos w h) = none := by
  have late := hc.late
  have on : o.on (oneIC u k pos w h).t = true := hc.guard
  simp only [slotPost, on, if_true] at late
  split at late
  · cases late
  · assumption

theorem State.advance_aland (s : State) (k n d : Nat) : ((s.advance k n d).th k).aland = (s.th k).aland := by
  obtain ⟨_, _, _, _, e⟩ := s.th_advance_same k n d
  rw [e]

/-- Settles O12. -/
theorem globalAccess : Obligations.GlobalAccess := by
  intro s u k t ic ptr w imp
  refine ⟨fun x hc => ?_, fun x hc => ?_, fun x hc => ?_, fun x hc => ?_, fun x hc => ?_, fun x hc => ?_, fun x hc => ?_, fun x hc => ?_⟩
  · exact issueOne_of_commits hc (o := opLdg x) rfl
  · exact issueOne_of_commits hc (o := opStg x) rfl
  · exact issueOne_of_commits hc (o := opLdgv x) rfl
  · exact issueOne_of_commits hc (o := opStgv x) rfl
  · intro p h m ps imp
    have run := issueOne_of_commits hc (o := opGath x) rfl
    have lanes : ps.isEmpty = true ↔ m = 0 := (List.isEmpty_iff.trans List.map_eq_nil_iff).trans gathGlob_eq_nil
    have aland : fld t.aland 11 0 = ((u.advance k 8 0).th k).aland.toNat % 2 ^ 12 := by rw [State.advance_aland]; exact aland_eq t
    refine ⟨fun hm => run.trans (committed_congr ((if_neg (mt lanes.mp hm)).trans ?_)),
      fun hm => run.trans (committed_congr ((if_pos (lanes.mpr hm)).trans ?_))⟩
    · rw [← aland_eq]
      rfl
    · exact congrArg (fun n => (u.advance k 8 0).modTh k fun t => { t with flight := t.flight ++
        [{ due := t.scyc + n, land := .v ((u.th k).vName x.d.toNat) 0 m false, entry := true }] }) aland
  · exact issueOne_of_commits hc (o := opScat x) rfl
  · intro p h
    have clear := hc.clear_of (o := opLdcv x) rfl
    obtain ⟨r, hr⟩ := convOp_bound (g := x.g) (wr := false) clear.hold_none clear.post_none
    exact ⟨r, hr, (issueOne_of_commits hc (o := opLdcv x) rfl).trans (committed_congr (opLdcv_eff hr _))⟩
  · intro p h
    have clear := hc.clear_of (o := opStcv x) rfl
    obtain ⟨r, hr⟩ := convOp_bound (g := x.g) (wr := true) clear.hold_none (Option.or_eq_none_iff.mp clear.post_none).1
    refine ⟨r, _, _, hr, rfl, (issueOne_of_commits hc (o := opStcv x) rfl).trans ?_, opStcv_sends hr⟩
    rw [opStcv_draws hr, opStcv_impure]
    rfl

end Sys2Proof.Machine
end

section
/-! PROOFS. Scratchpad access at issue (05 R142–R145), and what reads leave as it was -/

namespace Sys2Proof.Machine

open Sys2Proof

/-! ### Values placed at the offsets of lanes (05 R143) -/

/-- The sum of lanes of w bits at their places. -/
def placedSum (w : Nat) (l : List (Nat × Nat)) : Nat :=
  match l with
  | [] => 0
  | e :: r => e.2 * 2 ^ (w * e.1) + placedSum w r

theorem dvd_placedSum {w n : Nat} {l : List (Nat × Nat)} (h : ∀ e ∈ l, n ≤ e.1) : 2 ^ (w * n) ∣ placedSum w l := by
  induction l with
  | nil => exact Nat.dvd_zero _
  | cons e r ih =>
    have here : 2 ^ (w * n) ∣ 2 ^ (w * e.1) := Nat.pow_dvd_pow 2 (Nat.mul_le_mul_left w (h e (by simp)))
    exact Nat.dvd_add (Nat.dvd_mul_left_of_dvd here _) (ih fun f hf => h f (by simp [hf]))

/-- Lanes in ascending order stand side by side. -/
theorem laneN_placedSum {w : Nat} {l : List (Nat × Nat)} (hl : l.Pairwise fun a b => a.1 < b.1) (hv : ∀ e ∈ l, e.2 < 2 ^ w)
    {e : Nat × Nat} (he : e ∈ l) : laneN (placedSum w l) w e.1 = e.2 := by
  induction l with
  | nil => cases he
  | cons f r ih =>
    obtain ⟨hf, hr⟩ := List.pairwise_cons.mp hl
    obtain ⟨q, hq⟩ := dvd_placedSum (w := w) (n := f.1 + 1) fun e he => hf e he
    have low : f.2 * 2 ^ (w * f.1) < 2 ^ (w * (f.1 + 1)) := by
      rw [Nat.mul_succ, Nat.pow_add, Nat.mul_comm (2 ^ (w * f.1))]
      exact Nat.mul_lt_mul_of_pos_right (hv f (by simp)) (Nat.two_pow_pos _)
    simp only [laneN, placedSum, Nat.shiftRight_eq_div_pow]
    rcases List.mem_cons.mp he with rfl | he
    · rw [hq, Nat.mul_succ, Nat.pow_add, Nat.mul_comm e.2, Nat.mul_assoc, ← Nat.mul_add, Nat.mul_div_cancel_left _ (Nat.two_pow_pos _),
        Nat.add_mul_mod_self_left, Nat.mod_eq_of_lt (hv e (by simp))]
    · have skip : (f.2 * 2 ^ (w * f.1) + placedSum w r) / 2 ^ (w * e.1) = placedSum w r / 2 ^ (w * e.1) := by
        have le : w * (f.1 + 1) ≤ w * e.1 := Nat.mul_le_mul_left w (hf e he)
        rw [hq, ← Nat.add_sub_cancel' le, Nat.pow_add, ← Nat.div_div_eq_div_mul, ← Nat.div_div_eq_div_mul,
          Nat.add_mul_div_left _ _ (Nat.two_pow_pos _), Nat.div_eq_of_lt low, Nat.mul_div_cancel_left _ (Nat.two_pow_pos _), Nat.zero_add]
      rw [skip, ← Nat.shiftRight_eq_div_pow]
      exact ih hr (fun e he => hv e (by simp [he])) he

theorem vLane_ofNat {x w i : Nat} (h : w * i + w ≤ 2048) : vLane (BitVec.ofNat 2048 x) w i = laneN x w i := by
  apply Nat.eq_of_testBit_eq
  intro j
  simp only [vLane, testBit_laneN, BitVec.toNat_ofNat, Nat.testBit_mod_two_pow]
  by_cases hj : j < w
  · simp [hj, show w * i + j < 2048 by omega]
  · simp [hj]

theorem ofBytes_lt (l : List Byte) : ofBytes l < 2 ^ (8 * l.length) := by
  induction l with
  | nil => simp [ofBytes]
  | cons b r ih =>
    rw [ofBytes, List.length_cons, Nat.mul_succ, Nat.pow_add]
    have := b.isLt
    omega

/-- A value of 32-bit words at ascending lanes has each word in its lane. -/
theorem vLane_placed {l : List (Nat × List Byte)} (hl : l.Pairwise fun a b => a.1 < b.1) (hb : ∀ e ∈ l, e.1 < 64 ∧ e.2.length = 4)
    {e : Nat × List Byte} (he : e ∈ l) : vLane (placed (l.map fun g => (4 * g.1, g.2))) 32 e.1 = ofBytes e.2 := by
  have sum (a : Nat) (l : List (Nat × List Byte)) : (l.map fun g => (4 * g.1, g.2)).foldl
      (fun acc g => acc + ofBytes g.2 * 2 ^ (8 * g.1)) a = a + placedSum 32 (l.map fun g => (g.1, ofBytes g.2)) := by
    induction l generalizing a with
    | nil => rfl
    | cons f r ih =>
      simp only [List.map_cons, List.foldl_cons, ih, placedSum]
      rw [show 8 * (4 * f.1) = 32 * f.1 by omega, Nat.add_assoc]
  have word : ∀ f ∈ l.map fun g => (g.1, ofBytes g.2), f.2 < 2 ^ 32 := by
    intro f hf
    obtain ⟨g, hg, rfl⟩ := List.mem_map.mp hf
    have := ofBytes_lt g.2
    rwa [(hb g hg).2] at this
  rw [placed, sum, Nat.zero_add, vLane_ofNat (by have := (hb e he).1; omega)]
  exact laneN_placedSum (List.pairwise_map.mpr hl) word (List.mem_map_of_mem (f := fun g => (g.1, ofBytes g.2)) he)

/-! ### What reads and the pager leave as it was (10 R289–R292, 13 R377–R382)

A read moves copies of lines, records sharers and may cross a link; the pager moves pages' records.  All else stays, which is one equation
between the states without those parts. -/

/-- The state without its copies of lines, its links, and the pager's records. -/
def State.beyondCaches (s : State) : State :=
  { s with l1 := [], hostLines := [], dir := [], l2 := [], fresh := 0, links := [], pages := [], spCache := [] }

theorem State.mem_of_beyondCaches {s t : State} (h : t.beyondCaches = s.beyondCaches) : t.mem = s.mem := (congrArg State.mem h :)
theorem State.frames_of_beyondCaches {s t : State} (h : t.beyondCaches = s.beyondCaches) : t.frames = s.frames := (congrArg State.frames h :)
theorem State.thr_of_beyondCaches {s t : State} (h : t.beyondCaches = s.beyondCaches) : t.thr = s.thr := (congrArg State.thr h :)

theorem State.th_of_beyondCaches {s t : State} (h : t.beyondCaches = s.beyondCaches) (k : Nat) : t.th k = s.th k := by
  rw [State.th, State.th, State.thr_of_beyondCaches h]

section
variable (s : State)

theorem State.beyondCaches_ite {b : Prop} [Decidable b] {t u : State} (ht : t.beyondCaches = s.beyondCaches)
    (hu : u.beyondCaches = s.beyondCaches) : (if b then t else u).beyondCaches = s.beyondCaches := by
  split <;> assumption

theorem State.beyondCaches_foldl {α : Type} {f : State → α → State} (h : ∀ s a, (f s a).beyondCaches = s.beyondCaches) (l : List α) :
    (l.foldl f s).beyondCaches = s.beyondCaches := foldl_keeps (fun t => t.beyondCaches = s.beyondCaches) (fun t a ht => (h t a).trans ht) l rfl

theorem State.beyondCaches_othersRead (line k : Nat) : (s.othersRead line k).beyondCaches = s.beyondCaches := by
  unfold State.othersRead State.hostFlit
  exact State.beyondCaches_ite s rfl rfl

theorem State.beyondCaches_dirShare (line k : Nat) : (s.dirShare line k).beyondCaches = s.beyondCaches := by
  have room : (s.dirRoom line).beyondCaches = s.beyondCaches := by
    unfold State.dirRoom
    exact State.beyondCaches_ite s rfl (State.beyondCaches_ite s rfl rfl)
  exact room

theorem State.beyondCaches_spCacheFill (core c n : Nat) : (s.spCacheFill core c n).beyondCaches = s.beyondCaches := by
  have shared (line : Nat) : ((s.othersRead line core).dirShare line core).beyondCaches = s.beyondCaches :=
    (State.beyondCaches_dirShare ..).trans (State.beyondCaches_othersRead ..)
  unfold State.spCacheFill
  extract_lets mine line s1 v
  have filled : s1.beyondCaches = s.beyondCaches := shared line
  clear_value s1
  exact State.beyondCaches_ite s rfl (State.beyondCaches_ite s filled filled)

theorem State.beyondCaches_spTouch (core c : Nat) (runs : List (Nat × Nat)) : (s.spTouch core c runs).beyondCaches = s.beyondCaches := by
  have touched (t : State) (k : Nat) : ((t.spCacheFill core c (k % 16384)).touchPage c (k % 16384 * 2048) false).beyondCaches = t.beyondCaches :=
    State.beyondCaches_spCacheFill t core c (k % 16384)
  exact State.beyondCaches_foldl s touched _
end

/-- A read of the linear view that meets no poisoned line logs nothing (05 R162). -/
theorem State.beyondCaches_logSp {s : State} {c : IC} {runs : List (Nat × Nat)}
    (h : c.s.spBadLines true c.cx (clusterOf c.k) runs = []) : (s.logSp c runs).beyondCaches = s.beyondCaches := by
  unfold State.logSp
  rw [h]
  exact State.beyondCaches_spTouch s (coreOf c.k) c.cx runs

/-- The poisoned lines of some runs are those of one of them. -/
theorem State.spBadLines_eq_nil {s : State} {lin : Bool} {c cl : Nat} {runs : List (Nat × Nat)}
    (h : ∀ r ∈ runs, s.spPoison lin c cl r.1 r.2 = false) : s.spBadLines lin c cl runs = [] := by
  rw [State.spBadLines, List.filter_eq_nil_iff]
  intro a ha
  obtain ⟨r, hr, ha⟩ := List.mem_flatMap.mp (List.mem_dedup.mp ha)
  obtain ⟨i, hi, rfl⟩ := List.mem_map.mp ha
  exact List.any_eq_false.mp (h r hr) i hi

@[simp] theorem spRead_length (s : State) (lin : Bool) (c cl a n : Nat) : (s.spRead lin c cl a n).length = n := by
  simp [State.spRead]

theorem gathLanes_sorted (x : RRR) (c : IC) : (gathLanes x c).Pairwise fun a b => a.1 < b.1 :=
  List.pairwise_map.mpr (List.pairwise_lt_range.filter _)

/-- What GATHS delivers: lane i the word at its address (05 R143). -/
def gathsWords (x : RRR) (c : IC) : List (Nat × Nat × List Byte × Bool) :=
  (gathSp x c).map fun l => (l.1, l.2.toNat, spLoad c l.2.toNat 4)

theorem vLane_gaths {x : RRR} {c : IC} {l : Nat × W64} (hl : l ∈ gathSp x c) :
    vLane (placed ((gathsWords x c).map fun g => (4 * g.1, g.2.2.1))) 32 l.1 = ofBytes (c.s.spRead true c.cx (clusterOf c.k) l.2.toNat 4) := by
  have pairs : ((gathsWords x c).map fun g => (4 * g.1, g.2.2.1)) =
      (((gathSp x c).map fun l => (l.1, (spLoad c l.2.toNat 4).1)).map fun g => (4 * g.1, g.2)) := by
    simp [gathsWords, Function.comp_def]
  rw [pairs]
  refine vLane_placed (e := (l.1, (spLoad c l.2.toNat 4).1)) ?_ (fun e he => ?_) (List.mem_map_of_mem hl)
  · exact List.pairwise_map.mpr (List.pairwise_map.mpr (gathLanes_sorted x c))
  · obtain ⟨m, hm, rfl⟩ := List.mem_map.mp he
    obtain ⟨n, hn, rfl⟩ := List.mem_map.mp hm
    obtain ⟨i, hi, rfl⟩ := List.mem_map.mp hn
    exact ⟨List.mem_range.mp (List.mem_filter.mp hi).1, spRead_length ..⟩

/-- Settles O10. -/
theorem scratchpadAccess : Obligations.ScratchpadAccess := by
  intro s u k t c ic cl at_ lanes
  have address (x : RRI) (w pos : Nat) (word : W32) : (spAddr x w (oneIC u k pos word)).toNat = at_ x w := by
    rw [spAddr, w64_eq_ofInt]
    rfl
  have laneAddresses (x : RRR) (word : W32) : gathSp x (oneIC u k 2 word) = lanes x := by
    simp only [gathSp, gathLanes, List.map_map, lanes]
    exact List.map_congr_left fun i _ => by simp only [Function.comp, w64_eq_ofInt]; rfl
  refine ⟨fun x hc => ?_, fun x hc => ?_, fun x hc => ?_, fun x hc => ?_, fun x hc => ?_, fun x hc => ?_, fun x hc => ?_⟩
  · intro a r
    simp only [r, a, ← address x 8 2 (encWord (.lds x))]
    exact issueOne_of_commits hc (o := opLds x) rfl
  · simp only [← address x 8 2 (encWord (.sts x))]
    exact issueOne_of_commits hc (o := opSts x) rfl
  · intro a r
    simp only [r, a, ← address x 256 2 (encWord (.ldv x))]
    exact issueOne_of_commits hc (o := opLdv x) rfl
  · simp only [← address x 256 2 (encWord (.stv x))]
    exact issueOne_of_commits hc (o := opStv x) rfl
  · refine ⟨(u.advance k 8 0).logSp (ic (.gaths x)) ((gathsWords x (ic (.gaths x))).map fun l => (l.2.1, 4)),
      placed ((gathsWords x (ic (.gaths x))).map fun g => (4 * g.1, g.2.2.1)), (gathsWords x (ic (.gaths x))).any fun l => l.2.2.2,
      (issueOne_of_commits hc (o := opGaths x) rfl).trans (committed_congr rfl), fun hbad => ?_, fun l hl => ?_⟩
    rotate_left
    · have := vLane_gaths (x := x) (c := ic (.gaths x)) (l := l) (by rw [laneAddresses]; exact hl)
      exact this.trans (congrArg (fun b : List Byte => ofBytes b) (by rfl))
    have clean : u.spBadLines true c cl ((gathsWords x (ic (.gaths x))).map fun l => (l.2.1, 4)) = [] := by
      refine State.spBadLines_eq_nil fun r hr => ?_
      obtain ⟨g, hg, rfl⟩ := List.mem_map.mp hr
      have := List.any_eq_false.mp hbad g hg
      obtain ⟨l, -, rfl⟩ := List.mem_map.mp hg
      exact Bool.not_eq_true _ ▸ this
    have same := State.beyondCaches_logSp (s := u.advance k 8 0) (c := ic (.gaths x)) clean
    refine ⟨?_, (State.frames_of_beyondCaches same).trans rfl, (State.mem_of_beyondCaches same).trans rfl⟩
    rw [State.th_of_beyondCaches same, State.advance_flight]
  · simp only [← laneAddresses x (encWord (.scats x))]
    exact issueOne_of_commits hc (o := opScats x) rfl
  · intro a
    simp only [← Option.isNone_iff_eq_none]
    exact issueOne_of_commits hc (o := opProbe x) rfl

end Sys2Proof.Machine
end

section
/-! PROOFS. Lane-wise vector instructions (06 R166–R178, R193) -/

namespace Sys2Proof.Machine

open Sys2Proof

/-! ### Lanes of vector values (00 R9, 06 R166) -/

theorem unpackLE_eq (w n x : Nat) : unpackLE w n x = (List.range n).map (laneN x w) := by
  induction n generalizing x with
  | zero => rfl
  | succ n ih =>
    rw [unpackLE, ih, List.range_succ_eq_map, List.map_cons, List.map_map]
    refine congrArg₂ List.cons (by simp [laneN]) (List.map_congr_left fun i _ => ?_)
    simp only [laneN, Function.comp, ← Nat.shiftRight_add, Nat.mul_succ, Nat.add_comm]

theorem lanesOf_eq (w : Nat) (v : VReg) : lanesOf w v = (List.range (2048 / w)).map (vLane v w) := unpackLE_eq ..

theorem vLane_vmap1 {w j : Nat} (f : Nat → Nat) (a : VReg) (hj : j < 2048 / w) : vLane (vmap1 w f a) w j = f (vLane a w j) % 2 ^ w := by
  rw [vmap1, lanesOf_eq, List.map_map, vLane_map _ (Nat.mul_div_le ..) hj]
  rfl

theorem vLane_vmap2 {w j : Nat} (f : Nat → Nat → Nat) (a b : VReg) (hj : j < 2048 / w) :
    vLane (vmap2 w f a b) w j = f (vLane a w j) (vLane b w j) % 2 ^ w := by
  have zip : List.zipWith f (lanesOf w a) (lanesOf w b) = (List.range (2048 / w)).map fun i => f (vLane a w i) (vLane b w i) := by
    rw [lanesOf_eq, lanesOf_eq, List.zipWith_map, List.zipWith_self]
  rw [vmap2, zip, vLane_map _ (Nat.mul_div_le ..) hj]

/-- A lane of a bitwise function is the function of the lanes. -/
theorem vLane_and (a b : VReg) (w j : Nat) : vLane (a &&& b) w j = (vLane a w j &&& vLane b w j) % 2 ^ w := by
  apply Nat.eq_of_testBit_eq
  intro i
  simp only [vLane, testBit_laneN, BitVec.toNat_and, Nat.testBit_and, Nat.testBit_mod_two_pow]
  by_cases hi : i < w <;> simp [hi]

theorem vLane_or (a b : VReg) (w j : Nat) : vLane (a ||| b) w j = (vLane a w j ||| vLane b w j) % 2 ^ w := by
  apply Nat.eq_of_testBit_eq
  intro i
  simp only [vLane, testBit_laneN, BitVec.toNat_or, Nat.testBit_or, Nat.testBit_mod_two_pow]
  by_cases hi : i < w <;> simp [hi]

theorem vLane_xor (a b : VReg) (w j : Nat) : vLane (a ^^^ b) w j = (vLane a w j ^^^ vLane b w j) % 2 ^ w := by
  apply Nat.eq_of_testBit_eq
  intro i
  simp only [vLane, testBit_laneN, BitVec.toNat_xor, Nat.testBit_xor, Nat.testBit_mod_two_pow]
  by_cases hi : i < w <;> simp [hi]

/-- Every lane of the broadcast port (03 R73). -/
theorem vLane_bcast (v : W64) {w j : Nat} (hj : j < 2048 / w) : vLane (bcast w v) w j = v.toNat % 2 ^ w := by
  rw [bcast, vLane_vOfLanes (by simpa using Nat.mul_div_le ..)]
  simp [List.getElem?_replicate, hj]

/-! ### Vector forms: one result in flight (06 R166–R168) -/

/-- What the commit of a slot gives, in a plain bundle and in one with a broadcast port. -/
theorem runs_of_slot {s u : State} {k pos : Nat} {h : Header} {i : Instr} {o : SlotOp} (ho : slotOf i = some o)
    (he : ∀ s, exec i s = issueOne pos (encWord i) o s) {gives : Host.Outcome State Fault Refusal → Prop}
    (hg : let c := oneIC u k pos (encWord i) h
      gives (committed u k (o.eff c) (o.impure c).isSome (o.draws c) ((o.stop c).map fun v => (v / 2 ^ 64, v % 2 ^ 64)))) :
    runs s u k pos h i gives := by
  refine ⟨fun hh hc => ?_, fun hx => ?_⟩
  · subst hh
    rwa [he, issueOne_of_commits hc ho]
  · rwa [show exec (.bundleIssue k) s = execBundleIssue k s from rfl, bundleIssue_of_fetched hx ho]

theorem SlotOp.Delivers.runs {s u : State} {k pos n : Nat} {h : Header} {i : Instr} {o : SlotOp} {l : IC → Land} (hd : o.Delivers n l)
    (ho : slotOf i = some o) (he : ∀ s, exec i s = issueOne pos (encWord i) o s) {gives : Host.Outcome State Fault Refusal → Prop}
    (hg : gives (committed u k fun v => v.fly k n (l (oneIC u k pos (encWord i) h)))) : runs s u k pos h i gives := by
  refine runs_of_slot ho he ?_
  rw [hd.eff, hd.impure, hd.draws, hd.stop]
  exact hg

/-- A vector result of operation o: its register, its mask and its value. -/
abbrev SlotOp.DeliversV (o : SlotOp) (n : Nat) (d : BitVec 6) (m : IC → W64) (f : IC → VReg) : Prop :=
  o.Delivers n fun c => .v (c.t.vName d.toNat) (f c) (m c) false

theorem vrrOp_delivers (x : VRR) (lg : Bool) (w lat : Nat) (f : VReg → VReg → VReg) :
    (vrrOp x lg w lat f).DeliversV lat x.d (fun c => c.t.m x.m.toNat) fun c => f (c.v w x.a) (c.v w x.b) := ⟨rfl, rfl, rfl, rfl⟩

theorem vrrdOp_delivers (x : VRR) (lg : Bool) (w lat : Nat) (f : VReg → VReg → VReg → VReg) :
    (vrrdOp x lg w lat f).DeliversV lat x.d (fun c => c.t.m x.m.toNat) fun c => f (c.v w x.a) (c.v w x.b) (c.v w x.d) :=
  ⟨rfl, rfl, rfl, rfl⟩

theorem v1Op_delivers (g : BitVec 4) (d a : BitVec 6) (m : BitVec 2) (lg : Bool) (w lat : Nat) (f : VReg → VReg) :
    (v1Op g d a m lg w lat f).DeliversV lat d (fun c => c.t.m m.toNat) fun c => f (c.v w a) := ⟨rfl, rfl, rfl, rfl⟩

/-- The saturating sums and differences of 06 Table 6-4, on 32-bit lanes. -/
theorem satOp_add {t a b : Nat} (ha : a < 2 ^ 32) (hb : b < 2 ^ 32) : satOp t (fun a b => a + b) a b % 2 ^ 32 =
    (if t = 0 then wrapN (max (-2 ^ 31) (min (2 ^ 31 - 1) (sextI a 32 + sextI b 32))) 32
    else if t = 1 then min (a + b) (2 ^ 32 - 1) else a + b) % 2 ^ 32 := by
  unfold satOp clip
  split
  · rfl
  · split <;> simp only [wrapN] <;> omega

theorem satOp_sub {t a b : Nat} (ha : a < 2 ^ 32) (hb : b < 2 ^ 32) : satOp t (fun a b => a - b) a b % 2 ^ 32 =
    (if t = 0 then wrapN (max (-2 ^ 31) (min (2 ^ 31 - 1) (sextI a 32 - sextI b 32))) 32
    else if t = 1 then a - b else wrapN ((a : Int) - b) 32) % 2 ^ 32 := by
  unfold satOp clip
  split
  · rfl
  · split <;> simp only [wrapN] <;> omega

theorem imulOp_mod (t a b : Nat) : imulOp t a b % 2 ^ 32 =
    (if t = 0 then wrapN (sextI a 32 * sextI b 32 / 2 ^ 32) 32 else if t = 1 then a * b / 2 ^ 32 else a * b) % 2 ^ 32 := by
  unfold imulOp
  repeat' split
  · rfl
  · rfl
  · exact Nat.mod_mod _ _

/-- A lane of a fused multiply-add: it reads three lanes (06 Table 6-1). -/
theorem vLane_fma {w j : Nat} (f : Nat → Nat → Nat → Nat) (a b d : VReg) (hj : j < 2048 / w) :
    vLane (vOfLanes w (List.zipWith (fun (p : Nat × Nat) e => f p.1 p.2 e) ((lanesOf w a).zip (lanesOf w b)) (lanesOf w d))) w j =
      f (vLane a w j) (vLane b w j) (vLane d w j) % 2 ^ w := by
  have zip : List.zipWith (fun (p : Nat × Nat) e => f p.1 p.2 e) ((lanesOf w a).zip (lanesOf w b)) (lanesOf w d) =
      (List.range (2048 / w)).map fun i => f (vLane a w i) (vLane b w i) (vLane d w i) := by
    rw [lanesOf_eq, lanesOf_eq, lanesOf_eq, List.zip_map', List.zipWith_map, List.zipWith_self]
  rw [zip, vLane_map _ (Nat.mul_div_le ..) hj]

theorem opVclmp_delivers (x : VRR) : (opVclmp x).DeliversV 2 x.d (fun c => c.t.m x.m.toNat) fun c =>
    if x.t = 3 then vmap2 32 clampI (c.v 32 x.a) (c.v 32 x.b)
    else vmap2 (tyWidth x.t.toNat) (laneF2 x.t.toNat clampF) (c.v (tyWidth x.t.toNat) x.a) (c.v (tyWidth x.t.toNat) x.b) := by
  unfold opVclmp
  by_cases h : x.t = 3
  · simp only [if_pos h]
    exact vrrOp_delivers ..
  · simp only [if_neg h]
    exact vrrOp_delivers ..

theorem opVsel_delivers (x : VRR) : (opVsel x).DeliversV 2 x.d (fun c => c.t.m 0) fun c =>
    mergeChunks (c.v (tyWidth x.t.toNat) x.b) (c.v (tyWidth x.t.toNat) x.a) (c.t.m x.m.toNat) := ⟨rfl, rfl, rfl, rfl⟩

/-- Settles O15: each form is one result in flight, and its lanes are read one at a time. -/
theorem vectorLanes : Obligations.VectorLanes := by
  intro s u k h t src out
  have lane {i : Instr} {o : SlotOp} {lat : Nat} {d : BitVec 6} {m : BitVec 2} {w : Nat} {g : IC → VReg} {f : Nat → Nat}
      (hd : o.DeliversV lat d (fun c => c.t.m m.toNat) g) (ho : slotOf i = some o) (he : ∀ s, exec i s = issueOne 3 (encWord i) o s)
      (hl : ∀ j, j < 2048 / w → vLane (g (oneIC u k 3 (encWord i) h)) w j = f j % 2 ^ w) : out i lat d m w f :=
    hd.runs ho he ⟨_, rfl, hl⟩
  refine ⟨fun _ w j _ hj => vLane_bcast _ hj, fun x => ?_, fun x => ?_, fun x => ?_⟩
  · intro ty w a b d F rnd fma a' b'
    have fused (f : Ex → Ex → Ex) {j : Nat} (hj : j < 2048 / w) := vLane_fma (fun p q e => F.round (f ((F.decode p).mul (F.decode q)) (F.decode e)))
      (src w x.a) (src w x.b) (src w x.d) hj
    refine ⟨lane (vrrOp_delivers ..) rfl (fun _ => rfl) fun j hj => vLane_vmap2 _ _ _ hj,
      lane (vrrOp_delivers ..) rfl (fun _ => rfl) fun j hj => vLane_vmap2 _ _ _ hj,
      lane (vrrOp_delivers ..) rfl (fun _ => rfl) fun j hj => vLane_vmap2 _ _ _ hj,
      lane (vrrOp_delivers ..) rfl (fun _ => rfl) fun j hj => vLane_vmap2 _ _ _ hj,
      lane (vrrOp_delivers ..) rfl (fun _ => rfl) fun j hj => vLane_vmap2 _ _ _ hj,
      lane (vrrdOp_delivers ..) rfl (fun _ => rfl) fun j hj => fused Ex.add hj,
      lane (vrrdOp_delivers ..) rfl (fun _ => rfl) fun j hj => fused (fun p q => p.add q.negate) hj,
      lane (vrrdOp_delivers ..) rfl (fun _ => rfl) fun j hj => fused (fun p q => p.negate.add q) hj,
      lane (v1Op_delivers ..) rfl (fun _ => rfl) fun j hj => vLane_vmap1 _ _ hj,
      lane (opVclmp_delivers x) rfl (fun _ => rfl) fun j hj => ?_,
      lane (vrrOp_delivers ..) rfl (fun _ => rfl) fun j hj => vLane_and ..,
      lane (vrrOp_delivers ..) rfl (fun _ => rfl) fun j hj => vLane_or ..,
      lane (vrrOp_delivers ..) rfl (fun _ => rfl) fun j hj => vLane_xor ..,
      lane (vrrOp_delivers ..) rfl (fun _ => rfl) fun j hj => (vLane_vmap2 _ _ _ hj).trans (satOp_add (vLane_lt ..) (vLane_lt ..)),
      lane (vrrOp_delivers ..) rfl (fun _ => rfl) fun j hj => (vLane_vmap2 _ _ _ hj).trans (satOp_sub (vLane_lt ..) (vLane_lt ..)),
      lane (vrrOp_delivers ..) rfl (fun _ => rfl) fun j hj => (vLane_vmap2 _ _ _ hj).trans (imulOp_mod ..),
      lane (vrrOp_delivers ..) rfl (fun _ => rfl) fun j hj => (vLane_vmap2 _ _ _ hj).trans ?_,
      (opVsel_delivers x).runs rfl (fun _ => rfl) ⟨_, rfl, fun j hj => vLane_mergeChunks _ _ _ hj⟩⟩
    · by_cases h3 : x.t = 3
      · have ty3 : ty = 3 := congrArg BitVec.toNat h3
        have w32 : w = 32 := by simp only [w, ty3]; rfl
        rw [w32] at hj ⊢
        rw [if_pos h3, if_pos ty3, vLane_vmap2 _ _ _ hj]
        simp only [a, b, w32]
        rfl
      · have ty3 : ty ≠ 3 := fun e => h3 (BitVec.eq_of_toNat_eq e)
        rw [if_neg h3, if_neg ty3]
        exact vLane_vmap2 _ _ _ hj
    · simp only [imnxOp, decide_eq_true_eq]
      rfl
  · intro a
    refine ⟨lane (v1Op_delivers ..) rfl (fun _ => rfl) fun j hj => (vLane_vmap1 _ _ hj).trans ?_,
      lane (v1Op_delivers ..) rfl (fun _ => rfl) fun j hj => (vLane_vmap1 _ _ hj).trans ?_,
      lane (v1Op_delivers ..) rfl (fun _ => rfl) fun j hj => vLane_vmap1 _ _ hj⟩
    · rw [Nat.shiftLeft_eq]
      rfl
    · rw [Nat.shiftRight_eq_div_pow]
      rfl
  · intro w a ap
    exact ⟨lane (v1Op_delivers ..) rfl (fun _ => rfl) fun j _ => (Nat.mod_eq_of_lt (vLane_lt ..)).symm,
      lane (v1Op_delivers ..) rfl (fun _ => rfl) fun j hj => vLane_vmap1 _ _ hj,
      lane (v1Op_delivers ..) rfl (fun _ => rfl) fun j hj => vLane_vmap1 _ _ hj,
      lane (v1Op_delivers ..) rfl (fun _ => rfl) fun j hj => vLane_vmap1 _ _ hj,
      lane (v1Op_delivers ..) rfl (fun _ => rfl) fun j hj => vLane_vmap1 _ _ hj,
      lane (v1Op_delivers ..) rfl (fun _ => rfl) fun j hj => vLane_vmap1 _ _ hj⟩

end Sys2Proof.Machine
end

section
/-! PROOFS. Vector comparisons and masks (06 R179–R182) -/

namespace Sys2Proof.Machine

open Sys2Proof

/-! ### Masks of tests (06 R179–R182) -/

theorem getLsbD_maskOf (f : Nat → Bool) {i : Nat} (hi : i < 64) : (maskOf f).getLsbD i = f i := by
  rw [maskOf, getLsbD_boolBits f hi, decide_eq_true hi, Bool.true_and]

/-- A result in an M register, under a mask. -/
abbrev SlotOp.DeliversM (o : SlotOp) (n d : Nat) (m : IC → W64) (f : IC → W64) : Prop := o.Delivers n fun c => .m d (f c) (m c)

theorem opVcmp_delivers (x : VRR) : (opVcmp x).DeliversM 2 (x.d.toNat % 8) (fun c => c.t.m x.m.toNat) fun c =>
    maskOf fun i => cmpLane x.t.toNat (x.d.toNat / 8) (vLane (c.v 32 x.a) 32 i) (vLane (c.v 32 x.b) 32 i) := ⟨rfl, rfl, rfl, rfl⟩

theorem opVmsk_delivers (x : VRB) : (opVmsk x).DeliversM 2 (x.d.toNat % 8) (fun c => c.t.m x.m.toNat) fun c =>
    vmskOp (x.d.toNat / 8) (c.t.m x.a.toNat) (c.t.m x.b.toNat) := ⟨rfl, rfl, rfl, rfl⟩

theorem opVmts_delivers_mask {x : VRB} (h : x.b.toNat ≤ 3) : (opVmts x).DeliversM 3 (x.d.toNat % 8) (fun c => c.t.m x.m.toNat)
    fun c => mtsMask x.b.toNat (c.v 32 x.a) := by
  rw [opVmts, if_pos h]
  exact ⟨rfl, rfl, rfl, rfl⟩

theorem opVmts_delivers_vector {x : VRB} (h : 4 ≤ x.b.toNat) : (opVmts x).DeliversV 3 x.d (fun c => c.t.m x.m.toNat)
    fun c => mtsVec x.b.toNat (c.t.m x.a.toNat) := by
  rw [opVmts, if_neg (by omega)]
  exact ⟨rfl, rfl, rfl, rfl⟩

theorem testBit_vLane (v : VReg) {i j : Nat} (hj : j < 32) : (vLane v 32 i).testBit j = v.getLsbD (32 * i + j) := by
  rw [vLane, testBit_laneN, decide_eq_true hj, Bool.true_and]
  rfl

/-- Settles O16. -/
theorem vectorMasks : Obligations.VectorMasks := by
  intro s u k h t src
  refine ⟨fun x => ?_, fun x => ?_, fun x => ?_⟩
  · exact (opVcmp_delivers x).runs rfl (fun _ => rfl) ⟨_, rfl, fun i hi => getLsbD_maskOf _ hi⟩
  · exact (opVmsk_delivers x).runs rfl (fun _ => rfl) rfl
  · by_cases hb : x.b.toNat ≤ 3
    · refine (opVmts_delivers_mask hb).runs rfl (fun _ => rfl) ?_
      refine ⟨fun _ => ⟨_, rfl, fun h0 i hi => ?_, fun h1 i hi => ?_, fun h2 i hi => ?_, fun h3 => ?_⟩, fun h4 => absurd hb (by omega)⟩
      · rw [h0]
        exact getLsbD_maskOf _ hi
      · rw [h1]
        exact (getLsbD_maskOf _ hi).trans (testBit_vLane _ (by decide))
      · rw [h2]
        exact (getLsbD_maskOf _ hi).trans (by rw [bne, beq_eq_decide, ← decide_not]; rfl)
      · rw [h3]
        rfl
    · refine (opVmts_delivers_vector (by omega)).runs rfl (fun _ => rfl) ?_
      refine ⟨fun h => absurd h hb, fun _ => ⟨_, rfl, fun h4 i hi => ?_, fun h5 i hi => ?_⟩⟩
      · rw [h4]
        exact (vLane_map _ (by decide) hi).trans (Nat.mod_eq_of_lt (by split <;> decide))
      · rw [h5]
        have small : popN 64 (t.m x.a.toNat).toNat < 2 ^ 32 := (popN_le 64 _).trans_lt (by decide)
        refine (vLane_vOfLanes (by simp) i).trans ?_
        rw [List.getD_eq_getElem?_getD, List.getElem?_replicate, if_pos hi]
        exact Nat.mod_eq_of_lt small

end Sys2Proof.Machine
end

section
/-! PROOFS. Conversions, reductions, scans and lane movement (06 R183–R192) -/

namespace Sys2Proof.Machine

open Sys2Proof

/-! ### Conversions (06 R183–R185) -/

theorem srAfter_zero (st : W64) : srAfter st 0 = st := by simp [srAfter]

/-- What a conversion gives: its whole result; stochastic rounding takes n draws and is a purity violation. -/
theorem vcvOp_runs {s u : State} {k : Nat} {h : Header} {i : Instr} {x : VCv} {lg : Bool} {n : Nat} {f : W64 → VReg → VReg}
    (ho : slotOf i = some (vcvOp x lg n f)) (he : ∀ s, exec i s = issueOne 3 (encWord i) (vcvOp x lg n f) s)
    {gives : Host.Outcome State Fault Refusal → Prop}
    (hg : gives (committed u k (fun v => v.fly k 3 (.v ((u.th k).vName x.d.toNat)
      (f (u.th k).srstate (vSource (u.th k) h (if x.s.toNat = 1 ∨ x.s.toNat = 2 then 16 else 32) x.a.toNat)) (BitVec.allOnes 64) false))
      (x.r == 2) (if x.r == 2 then n else 0))) : runs s u k 3 h i gives := by
  refine runs_of_slot ho he ?_
  have impure : ((vcvOp x lg n f).impure (oneIC u k 3 (encWord i) h)).isSome = (x.r == 2) := by
    show (if x.r = 2 then some 0 else none).isSome = _
    by_cases h2 : x.r = 2#2 <;> simp [h2]
  have sr : (oneIC u k 3 (encWord i) h).sr = (u.th k).srstate := srAfter_zero _
  have eff : (vcvOp x lg n f).eff (oneIC u k 3 (encWord i) h) = fun v => v.fly k 3 (.v ((u.th k).vName x.d.toNat)
      (f (u.th k).srstate (vSource (u.th k) h (if x.s.toNat = 1 ∨ x.s.toNat = 2 then 16 else 32) x.a.toNat)) (BitVec.allOnes 64) false) := by
    rw [← sr, ← Thr.m_zero (u.th k)]
    rfl
  have draws : (vcvOp x lg n f).draws (oneIC u k 3 (encWord i) h) = if x.r == 2 then n else 0 := if_congr beq_iff_eq.symm rfl rfl
  dsimp only
  rw [impure, draws, eff]
  exact hg

/-! ### Whole registers (06 R186–R192) -/

/-- A register built of equal chunks, or of blocks of them. -/
theorem replicate_eq_map {α : Type} (n : Nat) (a : α) : List.replicate n a = (List.range n).map fun _ => a := by
  rw [List.map_const', List.length_range]

theorem flatMap_blocks {α : Type} {n q : Nat} (hn : 0 < n) (g : Nat → α) :
    ((List.range q).flatMap fun b => List.replicate n (g b)) = (List.range (q * n)).map fun i => g (i / n) := by
  induction q with
  | zero => simp
  | succ q ih =>
    rw [List.range_succ, List.flatMap_append, ih, Nat.succ_mul, List.range_add, List.map_append, List.map_map]
    refine congrArg₂ List.append rfl ?_
    rw [List.flatMap_cons, List.flatMap_nil, List.append_nil, replicate_eq_map]
    refine List.map_congr_left fun i hi => ?_
    rw [Function.comp, Nat.mul_comm, Nat.mul_add_div hn, Nat.div_eq_of_lt (List.mem_range.mp hi), Nat.add_zero]

/-- The mask of one chunk. -/
theorem maskOf_one (n : Nat) (hn : n < 64) : maskOf (fun i => i == n) = BitVec.ofNat 64 (2 ^ n) := by
  apply BitVec.eq_of_getLsbD_eq
  intro i hi
  rw [getLsbD_maskOf _ hi, BitVec.getLsbD_ofNat, decide_eq_true hi, Bool.true_and, Nat.testBit_two_pow, beq_eq_decide]
  exact decide_eq_decide.mpr eq_comm

/-- Settles O17. -/
theorem vectorWhole : Obligations.VectorWhole := by
  intro s u k h t src out conv lanes
  have whole {i : Instr} {o : SlotOp} {lat : Nat} {d : BitVec 6} {m : IC → W64} {g : IC → VReg} {mask : W64} {y : VReg}
      (hd : o.DeliversV lat d m g) (ho : slotOf i = some o) (he : ∀ s, exec i s = issueOne 3 (encWord i) o s)
      (hm : m (oneIC u k 3 (encWord i) h) = mask) (hy : g (oneIC u k 3 (encWord i) h) = y) : out i lat d mask y := by
    refine hd.runs ho he ?_
    rw [← hm, ← hy]
    rfl
  refine ⟨fun x => ?_, fun x => ?_, fun x => ?_, fun x => ?_, fun x => ?_⟩
  · intro w v
    refine ⟨vcvOp_runs (x := x) (lg := legal (.vcvt x)) (n := 64)
        (f := fun st v => lanes fun i => cvtChunk x.s.toNat x.e.toNat x.r.toNat st i (vLane v 32 i)) rfl (fun _ => rfl) rfl,
      vcvOp_runs (x := x) (lg := legal (.vqnt x)) (n := 2048 / if x.s = 1 then 16 else 32)
        (f := fun st v => quantize x.e.toNat x.r.toNat st ((lanesOf (if x.s = 1 then 16 else 32) v).map (tyFmt x.s.toNat).decode))
        rfl (fun _ => rfl) ?_,
      vcvOp_runs (x := x) (lg := legal (.vdqnt x)) (n := 0)
        (f := fun st v => vOfLanes (if x.e = 1 then 16 else 32) ((List.range (2048 / if x.e = 1 then 16 else 32)).map fun j =>
          ((tyFmt x.e.toNat).conv (packedEl x.s.toNat v j) (if x.s = 5 then .rne else rmOf x.r.toNat st j)).1)) rfl (fun _ => rfl) ?_⟩
    · by_cases h1 : x.s = 1
      · simp only [if_pos h1]
        rfl
      · simp only [if_neg h1]
        rfl
    · refine ⟨_, by rw [ite_self], fun j hj => ?_⟩
      exact vLane_map _ (Nat.mul_div_le ..) hj
  · intro ty w F m on n
    refine ⟨?_, ?_, ?_, ?_, ?_⟩
    · refine whole (o := opVbsc x) ⟨rfl, rfl, rfl, rfl⟩ rfl (fun _ => rfl) rfl (congrArg (vOfLanes 32) ?_)
      have blocks : 0 < n ∧ 64 / n * n = 64 := by simp only [n]; split <;> decide
      exact (flatMap_blocks blocks.1 _).trans (by rw [show 64 / (if ty = 1 then 16 else 32) * _ = 64 from blocks.2]; rfl)
    · refine whole (o := opVred x) ⟨rfl, rfl, rfl, rfl⟩ rfl (fun _ => rfl) rfl ?_
      exact congrArg (vOfLanes 32) (replicate_eq_map ..)
    · refine whole (o := opVdot x) ⟨rfl, rfl, rfl, rfl⟩ rfl (fun _ => rfl) rfl (congrArg (vOfLanes 32) ?_)
      rw [lanesOf_eq, List.map_map]
      rfl
    · exact whole (o := opVscan x) ⟨rfl, rfl, rfl, rfl⟩ rfl (fun _ => rfl) rfl rfl
    · exact whole (o := opVseg x) ⟨rfl, rfl, rfl, rfl⟩ rfl (fun _ => rfl) rfl rfl
  · exact whole (o := opVperm x) ⟨rfl, rfl, rfl, rfl⟩ rfl (fun _ => rfl) rfl rfl
  · intro q a
    exact ⟨whole (o := opVshuf x) ⟨rfl, rfl, rfl, rfl⟩ rfl (fun _ => rfl) rfl rfl,
      whole (o := opVrot x) ⟨rfl, rfl, rfl, rfl⟩ rfl (fun _ => rfl) rfl rfl⟩
  · refine ⟨whole (o := opVext x) ⟨rfl, rfl, rfl, rfl⟩ rfl (fun _ => rfl) rfl rfl, whole (o := opVins x) ⟨rfl, rfl, rfl, rfl⟩ rfl (fun _ => rfl) ?_ ?_⟩
    · exact congrArg ((u.th k).m x.m.toNat &&& ·) (maskOf_one _ x.i.isLt)
    · exact congrArg (vOfLanes 32) (replicate_eq_map ..)

end Sys2Proof.Machine
end

section
/-! PROOFS. The issue of multiply-accumulates, and the accumulator instructions (07 R197–R211) -/

namespace Sys2Proof.Machine

open Sys2Proof

/-! ### The issue of a multiply-accumulate (07 R197–R204) -/

/-- The second word of a descriptor stands in the odd register of its pair (03 R80). -/
theorem desc_eq (c : IC) (p : BitVec 4) : c.desc p = ⟨c.t.s (32 + 2 * p.toNat), c.t.s (33 + 2 * p.toNat)⟩ := by
  rw [show 33 + 2 * p.toNat = pairReg p + 1 from Nat.add_right_comm 32 1 _]
  rfl

/-- What a multiply-accumulate puts at issue: its ticket, its run at the matrix unit, and the reading of its first group. -/
theorem tmmOp_eff (x : Tmm) (op : Nat) (c : IC) (a d : OpDesc) (ha : c.desc x.p = a) (hd : c.desc x.q = d) (s : State) :
    (tmmOp x op).eff c s =
      let b := x.b.toNat
      let acc := if op = 2 then Bank.fill 0x80000000 else c.t.bank b
      let run : MatRun := { op, bank := b, acc, a0 := a.w0, a1 := a.w1, b0 := d.w0, b1 := d.w1, recA := opRec c a, recB := opRec c d
                            recs := (opRec c a).toList ++ (opRec c d).toList, issued := c.t.scyc, baddr := c.t.pc, cmd := s.nextId }
      ((s.newCmd { id := 0, key := c.k, ctx := c.cx, pos := 5, major := op, baddr := c.t.pc, st := .running, cid := b }
          x.k.toNat).modTh c.k fun q =>
        let q1 := if op = 2 then (q.setBank b acc).setBPsn b false else q
        ({ q1 with mats := q1.mats ++ [run], matFree := c.t.scyc + 128
                   bankFree := putK q1.bankFree b (c.t.scyc + 144) }).setProg b
          (progWord 0 op 1 run.groups 0)).readGroup c.k run := by
  subst ha hd
  rfl

/-- Settles O18. -/
theorem matrixIssue : Obligations.MatrixIssue := by
  intro s u k x e he hc t b da db rc acc run
  have hp : (oneIC u k 5 (encWord e.1)).desc x.p = da := desc_eq _ _
  have hq : (oneIC u k 5 (encWord e.1)).desc x.q = db := desc_eq _ _
  simp only [List.mem_cons, List.not_mem_nil, or_false] at he
  rcases he with rfl | rfl | rfl
  · exact (issueOne_of_commits hc (o := opMma x) rfl).trans (committed_congr (tmmOp_eff x 0 _ da db hp hq _))
  · exact (issueOne_of_commits hc (o := opMmat x) rfl).trans (committed_congr (tmmOp_eff x 1 _ da db hp hq _))
  · exact (issueOne_of_commits hc (o := opMmaz x) rfl).trans (committed_congr (tmmOp_eff x 2 _ da db hp hq _))

/-! ### Accumulator instructions (07 R210, R211, R215) -/

theorem tacIdx_eq (x : Tac) (c : IC) :
    tacIdx x c = ((if 128 ≤ x.i.toNat then (c.t.s x.y.toNat).toNat % 64 else 0) + x.i.toNat) % 64 := by
  rw [tacIdx, fld_eq]
  have : (c.sv x.y.toNat).toNat / 2 ^ 0 % 2 ^ (5 + 1 - 0) = (c.t.s x.y.toNat).toNat % 64 := by simp; rfl
  rw [this]
  simp only [ge_iff_le, Nat.add_mod_mod]

theorem vLane_chunks (f : Nat → Nat) {i : Nat} (hi : i < 64) : vLane (chunks f) 32 i = f i % 2 ^ 32 := vLane_map _ (by decide) hi

theorem opAcwr_delivers (x : Tac) : (opAcwr x).Delivers 2 fun c =>
    if x.i.getLsbD 6 then .bankCol x.b.toNat (tacIdx x c) (c.v 32 x.x) else .bankRow x.b.toNat (tacIdx x c) (c.v 32 x.x) :=
  ⟨rfl, rfl, rfl, rfl⟩

theorem opAcsc_delivers (x : Acsc) : (opAcsc x).Delivers 2 fun c => .bank x.b.toNat
    (Bank.of fun i j => r32 ((d32 ((c.t.bank x.b.toNat).el i j)).mul (scaleOf x (c.v 32 x.x) i j))) none := ⟨rfl, rfl, rfl, rfl⟩

/-- Settles O20. -/
theorem accumulatorResults : Obligations.AccumulatorResults := by
  intro s u k h t src idx
  refine ⟨fun x hc => ?_, fun x hc => ?_, fun x => ?_, fun x => ?_, fun x hc => ⟨fun hb hi => ?_, fun hn => ?_⟩,
    fun x hc => ⟨fun hi => ?_, fun hi => ?_⟩, fun x hc => ?_⟩
  · exact issueOne_of_commits hc (o := opAcz x) rfl
  · refine ⟨_, issueOne_of_commits hc (o := opAcrd x) rfl, fun i hi => ?_⟩
    have hm : tacIdx x (oneIC u k 5 (encWord (.acrd x))) = idx x := tacIdx_eq x _
    refine (vLane_chunks _ hi).trans ?_
    rw [hm]
    split <;> exact Nat.mod_eq_of_lt (Bank.el_lt ..)
  · refine (opAcwr_delivers x).runs rfl (fun _ => rfl) ?_
    have hm : tacIdx x (oneIC u k 5 (encWord (.acwr x)) h) = idx x := tacIdx_eq x _
    rw [hm]
    rfl
  · exact (opAcsc_delivers x).runs rfl (fun _ => rfl) ⟨_, rfl, fun i j hi hj => Bank.el_of _ hi hj⟩
  · refine (issueOne_of_commits hc (o := opAcmv x) rfl).trans (committed_congr ?_)
    exact if_pos ⟨hb, hi⟩
  · refine (issueOne_of_commits hc (o := opAcmv x) rfl).trans (committed_congr ?_)
    exact if_neg hn
  · refine (issueOne_of_commits hc (o := opAcps x) rfl).trans (committed_congr ?_)
    exact if_pos hi
  · refine (issueOne_of_commits hc (o := opAcps x) rfl).trans (committed_congr ?_)
    refine (if_neg (by rw [hi]; decide)).trans ?_
    have hb : BitVec.ofNat 64 (b2n (t.bBad x.b.toNat)) = if t.bBad x.b.toNat then 1 else 0 := by
      cases t.bBad x.b.toNat <;> rfl
    exact congrArg (fun y => State.fly _ k 2 (.s x.x.toNat y false)) hb
  · exact issueOne_of_commits hc (o := opMprg x) rfl

end Sys2Proof.Machine
end

section
/-! PROOFS. A tensor-record command taken at its issuer of another die (08 R217–R223) -/

namespace Sys2Proof.Machine

open Sys2Proof

/-! ### A tensor-record command runs at its record's die (08 R219, 09 R255)

TSTEP, TSCALE, TREAD, TCFG and TRST run at the die of their record's home, not at the die of their issuer. -/

/-- Partition 0, of die 0, in a context whose one tensor record lies in a page of die 1. -/
def recordOfDie1 : State :=
  { mem := wrBytes (wrBytes (wrBytes [] 0x1000 (bytesOf 8 0x2001)) 0x2000 (bytesOf 8 0x3001)) 0x3000 (bytesOf 8 0x240000001F)
    ctxs := [(0, { st := .running, slot := some 0, allot := [0], desc := [(8, 0x1000), (0x28, 1)] })]
    thr := [(0, { mode := .running })] }

/-- TSTEP of record 0: W0 and W1 are S0 and S1. -/
def tstepOfRecord0 : Eng := ⟨0, 0, 0, 0, 0⟩

theorem recordOfDie1_commits : Commits recordOfDie1 (recordOfDie1.begun 0) 0 6 (.tstep tstepOfRecord0) where
  cur := rfl
  issues := ⟨rfl, rfl, rfl, rfl, rfl, rfl⟩
  begun := rfl
  fits := ⟨by decide +kernel, by decide +kernel⟩
  place := .inl (.inr (.inr (.inl rfl)))
  clear := ⟨opTstep tstepOfRecord0, rfl, by decide +kernel, by decide +kernel, by decide +kernel, .inr rfl, rfl, by decide +kernel,
    by decide +kernel⟩

/-- The dies at which the commands of a package run. -/
def runners (o : Host.Outcome State Fault Refusal) : List Nat := match o with
  | .next t => t.cmds.map Cmd.runner
  | _ => []

/-- Refutes O23: the TSTEP of `recordOfDie1` is accepted for die 1, the home of its record, and not for die 0, its issuer's. -/
theorem not_engineCommandsAccepted : ¬ Obligations.EngineCommandsAccepted := by
  intro h
  obtain ⟨eng, _⟩ := h recordOfDie1 (recordOfDie1.begun 0) 0
  have run := eng tstepOfRecord0 _ (List.mem_cons_self ..) recordOfDie1_commits
  exact absurd (congrArg runners run) (by decide +kernel)

end Sys2Proof.Machine
end

section
/-! PROOFS. Commits whose stall or whose walk takes a request number (13 R371, 19 R481) -/

namespace Sys2Proof.Machine

open Sys2Proof

/-! ### A stall that ends within a commit may take a request number (13 R371, 19 R481)

The commit of a bundle first ends the hold before it.  Where that stall is traced and the ring's first line waits for a shootdown, the
ring's write is queued as a request of the part's own, under the next number: what the slot then starts has the number after it. -/

/-- Partition 0, held, with its stall trace armed: a translation rests on the line of the ring's tail.  Handle 0 is valid, and channel 0
is open to it. -/
def tracedHold : State :=
  { sys := { debugOn := 16 }
    ctxs := [(0, { st := .running, slot := some 0, allot := [0], cdbg := 4, trbase := 0x3000 })]
    xcache := [(0, 0, 0x3000, 0xC0)]
    chans := [{ ctx := 0, ch := 0, st := .opened }]
    thr := [(0, { mode := .running, held := some 1, stallArmed := true, hs := [(0, { st := .valid, size := 4096, wr := true })] })] }

/-- The numbers of the commands of a package, and those of partition 0's transfers. -/
def numbers (o : Host.Outcome State Fault Refusal) : List Nat × List Nat := match o with
  | .next t => (t.cmds.map Cmd.id, (t.th 0).xfers.map Xfer.cmd)
  | _ => ([], [])

theorem State.cmds_takePark (s : State) (p kind baddr slots det0 det1 : Nat) (reissue fetch matFormat : Bool) :
    (s.takePark p kind baddr slots det0 det1 reissue fetch matFormat).cmds = s.cmds := by
  unfold State.takePark
  extract_lets t c s1 s2 s3
  have written : s3.kept = s2.kept := State.kept_vwrRun ..
  have counted : (s.pmcEvent (coreOf p) p 12 1).aside = s.aside := State.pmcEvent_aside ..
  exact (congrArg State.cmds written :).trans (congrArg State.cmds counted :)

/-- What ends the cycle after a slot keeps the commands and its issuer's transfers. -/
theorem State.numbers_rest (s : State) (k : Nat) (old : Thr) (imp : Bool) :
    (s.rest k old imp none).cmds = s.cmds ∧ ((s.rest k old imp none).th k).xfers = (s.th k).xfers := by
  have before : StepsOnly k 7 s ((s.loopEnd k old).taint k imp) := (s.loopEnd_stepsOnly k old).trans (State.taint_stepsOnly ..)
  generalize hw : (s.loopEnd k old).taint k imp = w at before
  have counted : (w.count k).th k = { w.th k with scyc := ((w.th k).scyc + 1) % 2 ^ 64, elap := (w.th k).elap + 1 } :=
    w.th_modTh_same k _
  have tally := (w.count k).tally_stepsOnly k 1
  have cmds : ((w.count k).tally k 1).cmds = s.cmds := (congrArg State.cmds tally.aside :).trans (congrArg State.cmds before.aside :)
  have xfers : (((w.count k).tally k 1).th k).xfers = (s.th k).xfers :=
    (congrArg Thr.xfers tally.own :).trans ((congrArg Thr.xfers counted :).trans (congrArg Thr.xfers before.own :))
  rw [State.rest, hw]
  generalize (w.count k).tally k 1 = v at cmds xfers
  rw [← cmds, ← xfers]
  cases hm : (v.th k).matStop with
  | none =>
    have after := State.afterCommit_stepsOnly old.pc hm
    exact ⟨(congrArg State.cmds after.aside :), (congrArg Thr.xfers after.own :)⟩
  | some m =>
    rw [State.afterCommit, hm]
    have parks := v.takePark_parks k 3 ((v.th k).stoppedMat m.2.2 old.pc).2 0
      (((v.th k).stoppedMat m.2.2 old.pc).1 + 16 * m.1 + 256 * m.2.1) old.pc false false (m.2.1 == 1)
    exact ⟨State.cmds_takePark .., (congrArg Thr.xfers parks.own :)⟩

/-- The numbers a commit leaves are those its effect leaves. -/
theorem numbers_committed (u : State) (f : State → State) (imp : Bool) (d : Nat) :
    numbers (committed u 0 f imp d) =
      ((f (u.advance 0 8 d)).cmds.map Cmd.id, ((f (u.advance 0 8 d)).th 0).xfers.map Xfer.cmd) := by
  obtain ⟨cmds, xfers⟩ := (f (u.advance 0 8 d)).numbers_rest 0 (u.th 0) imp
  rw [← cmds, ← xfers]
  rfl

theorem mem_of_append_singleton {l l' : List Nat} {a : Nat} (h : l ++ [a] = l') : a ∈ l' := by
  rw [← h]
  exact List.mem_append_right _ (List.mem_singleton_self a)

theorem tracedHold_issues : Issues tracedHold 0 := ⟨rfl, rfl, rfl, rfl, rfl, rfl⟩

/-- ACLD, COLA and CHCL with every field zero. -/
def acldOfZeros : Tab := ⟨0, 0, 0, 0, 0, 0⟩
def colaOfZeros : EngF := ⟨0, 0, 0, 0, 0, 0⟩
def chclOfZeros : Chcl := ⟨0, 0, 0, 0⟩

theorem tracedHold_commits_acld : Commits tracedHold (tracedHold.begun 0) 0 5 (.acld acldOfZeros) where
  cur := rfl
  issues := tracedHold_issues
  begun := rfl
  fits := ⟨by decide +kernel, by decide +kernel⟩
  place := .inr ⟨rfl, .inr rfl⟩
  clear := ⟨opAcld acldOfZeros, rfl, by decide +kernel, by decide +kernel, by decide +kernel, .inr rfl, rfl, by decide +kernel,
    by decide +kernel⟩

theorem tracedHold_commits_cola : Commits tracedHold (tracedHold.begun 0) 0 7 (.cola colaOfZeros) where
  cur := rfl
  issues := tracedHold_issues
  begun := rfl
  fits := ⟨by decide +kernel, by decide +kernel⟩
  place := .inl (.inr (.inr (.inr rfl)))
  clear := ⟨opCola colaOfZeros, rfl, by decide +kernel, by decide +kernel, by decide +kernel, .inr rfl, rfl, by decide +kernel,
    by decide +kernel⟩

theorem tracedHold_commits_chcl : Commits tracedHold (tracedHold.begun 0) 0 7 (.chcl chclOfZeros) where
  cur := rfl
  issues := tracedHold_issues
  begun := rfl
  fits := ⟨by decide +kernel, by decide +kernel⟩
  place := .inl (.inr (.inr (.inr rfl)))
  clear := ⟨opChcl chclOfZeros, rfl, by decide +kernel, by decide +kernel, by decide +kernel, .inr rfl, rfl, by decide +kernel,
    by decide +kernel⟩

theorem numbers_tracedHold : (tracedHold.begun 0).nextId = 1 ∧ (numbers (exec (.acld acldOfZeros) tracedHold)).2 = [2] ∧
    (numbers (exec (.cola colaOfZeros) tracedHold)).1 = [2] ∧ (numbers (exec (.chcl chclOfZeros) tracedHold)).1 = [2] := by
  decide +kernel

/-- Refutes O21: the ACLD of `tracedHold` has the number after the one that was next when its cycle had begun. -/
theorem not_bankTransfers : ¬ Obligations.BankTransfers := by
  intro h
  obtain ⟨acld, -⟩ := h tracedHold (tracedHold.begun 0) 0 acldOfZeros
  obtain ⟨w, imp, y, run, xfers, -, -, number, -⟩ := acld tracedHold_commits_acld
  obtain ⟨next, real, -, -⟩ := numbers_tracedHold
  rw [run, numbers_committed, xfers, List.map_append, List.map_singleton, number, next] at real
  exact absurd (mem_of_append_singleton real) (by decide)

/-- Refutes O25: so has its COLA. -/
theorem not_numberedCommands : ¬ Obligations.NumberedCommands := by
  intro h
  obtain ⟨-, -, cola, -⟩ := h tracedHold (tracedHold.begun 0) 0 colaOfZeros
  obtain ⟨w, m, run, mem, number, -⟩ := cola tracedHold_commits_cola
  obtain ⟨next, -, real, -⟩ := numbers_tracedHold
  rw [run, numbers_committed] at real
  have here : m.id ∈ w.cmds.map Cmd.id := List.mem_map_of_mem mem
  rw [number, next, show w.cmds.map Cmd.id = [2] from real] at here
  exact absurd here (by decide)

/-- Refutes O26: so has its CHCL. -/
theorem not_channelInstructions : ¬ Obligations.ChannelInstructions := by
  intro h
  obtain ⟨-, chcl⟩ := h tracedHold (tracedHold.begun 0) 0
  obtain ⟨w, m, run, cmds, -, number, -⟩ := chcl chclOfZeros tracedHold_commits_chcl
  obtain ⟨next, -, -, real⟩ := numbers_tracedHold
  rw [run, numbers_committed, cmds, List.map_append, List.map_singleton, number, next] at real
  exact absurd (mem_of_append_singleton real) (by decide)

/-! ### A translation that is logged may take a request number (10 R286, 13 R370)

An accepted command's pointers translate through the core's translation cache.  Where a table the walk reads lies in no memory, that is
logged, and a log entry whose line waits for a shootdown is queued as a request of the part's own. -/

/-- Partition 0, with a handle whose page's last table lies in reserved space: translations rest on the line of its context's error log. -/
def loggedWalk : State :=
  { mem := wrBytes (wrBytes (wrBytes (wrBytes [] 0x1000 (bytesOf 8 0x2001)) 0x2000 (bytesOf 8 0x3001)) 0x3000 (bytesOf 8 31))
      0x3008 (bytesOf 8 (2 ^ 40 + 1))
    ctxs := [(0, { st := .running, slot := some 0, allot := [0], desc := [(8, 0x1000), (0x40, 0xB000), (0x48, 64)] })]
    xcache := [(0, 0, 0xB000, 0x2C0)]
    thr := [(0, { mode := .running, hs := [(0, { st := .valid, va := 0x200000, size := 4096, wr := true })] })] }

/-- CPY of one byte within the page of handle 0. -/
def cpyOfZeros : EngH := ⟨0, 0, 0, 0, 0, 0⟩

theorem loggedWalk_commits : Commits loggedWalk (loggedWalk.begun 0) 0 6 (.cpy cpyOfZeros) where
  cur := rfl
  issues := ⟨rfl, rfl, rfl, rfl, rfl, rfl⟩
  begun := rfl
  fits := ⟨by decide +kernel, by decide +kernel⟩
  place := .inl (.inr (.inr (.inl rfl)))
  clear := ⟨opCpy cpyOfZeros, rfl, by decide +kernel, by decide +kernel, by decide +kernel, .inr rfl, rfl, by decide +kernel,
    by decide +kernel⟩

/-- Refutes O24: the CPY of `loggedWalk` has a number after the one that was next when its effect began. -/
theorem not_copiesAccepted : ¬ Obligations.CopiesAccepted := by
  intro h
  obtain ⟨copies, -⟩ := h loggedWalk (loggedWalk.begun 0) 0
  obtain ⟨imp, f, run, eff⟩ := copies cpyOfZeros _ (List.mem_cons_self ..) loggedWalk_commits
  obtain ⟨m, cmds, number, -⟩ := eff ((loggedWalk.begun 0).advance 0 8 0)
  have real : (numbers (exec (.cpy cpyOfZeros) loggedWalk)).1 = [3] := by decide +kernel
  have next : ((loggedWalk.begun 0).advance 0 8 0).nextId = 1 := by decide +kernel
  rw [run, numbers_committed, cmds, List.map_append, List.map_singleton, number, next] at real
  exact absurd (mem_of_append_singleton real) (by decide)

end Sys2Proof.Machine
end

section
/-! PROOFS. The reading of a group of rows (07 R203, R206) -/

namespace Sys2Proof.Machine

open Sys2Proof

/-! ### A group read (07 R203, R206) -/

theorem addGroup_el (op : Nat) (c : Bank) (a b : Nat → List Ex) {i j : Nat} (hi : i < 64) (hj : j < 64) :
    (addGroup op c ((List.range 64).map a) ((List.range 64).map b)).el i j =
      r32 ((d32 (c.el i j)).add (d32 (groupSum (List.zipWith Ex.mul (a (if op = 1 then j else i)) (b (if op = 1 then i else j)))))) % 2 ^ 32 := by
  have get (f : Nat → List Ex) {n : Nat} (hn : n < 64) : ((List.range 64).map f).getD n [] = f n := by
    simp [List.getD_eq_getElem?_getD, hn]
  rw [addGroup, Bank.el_of _ hi hj]
  dsimp only
  rw [get a (by split <;> assumption), get b (by split <;> assumption), List.zip, List.map_zipWith]

/-- The package once the pages of a group have been touched. -/
def State.groupTouched (s : State) (k : Nat) (m : MatRun) : State :=
  s.spTouch (coreOf k) (s.ctxOf k) ((OpDesc.mk m.a0 m.a1).groupRuns m.next ++ (OpDesc.mk m.b0 m.b1).groupRuns m.next)

theorem State.beyondCaches_groupTouched (s : State) (k : Nat) (m : MatRun) : (s.groupTouched k m).beyondCaches = s.beyondCaches :=
  State.beyondCaches_spTouch ..

/-- The first poisoned line of a group, and whether a line of it has a refused format. -/
def State.groupBad (s : State) (k : Nat) (m : MatRun) : Option Nat :=
  match s.groupPoison (s.ctxOf k) (clusterOf k) ⟨m.a0, m.a1⟩ m.next with
  | some a => some a
  | none => s.groupPoison (s.ctxOf k) (clusterOf k) ⟨m.b0, m.b1⟩ m.next

def State.groupRefused (s : State) (k : Nat) (m : MatRun) : Bool :=
  s.groupFormat (s.ctxOf k) (clusterOf k) ⟨m.a0, m.a1⟩ m.recA m.next || s.groupFormat (s.ctxOf k) (clusterOf k) ⟨m.b0, m.b1⟩ m.recB m.next

/-- The bank after a group: the sums of the runs of both operands added. -/
def State.groupBank (s : State) (k : Nat) (m : MatRun) : Bank :=
  addGroup m.op m.acc ((List.range 64).map fun r => s.runVals (s.ctxOf k) (clusterOf k) ⟨m.a0, m.a1⟩ m.recA r m.next)
    ((List.range 64).map fun r => s.runVals (s.ctxOf k) (clusterOf k) ⟨m.b0, m.b1⟩ m.recB r m.next)

/-- The issuer of a group with a poisoned line, of one with a line of a refused format, and of one that is read. -/
def Thr.groupPoisoned (t : Thr) (m : MatRun) : Thr :=
  { ((t.setMat { m with abandoned := true }).setBPsn m.bank true).setProg m.bank (progWord 2 m.op 3 m.groups m.next) with
    matStop := some (m.next, 2, m.cmd) }

def Thr.groupRefused (t : Thr) (m : MatRun) : Thr :=
  { t.setProg m.bank (progWord 1 m.op 2 m.groups m.next) with matStop := some (m.next, 1, m.cmd) }

def Thr.groupRead (t : Thr) (m : MatRun) (b : Bank) : Thr :=
  ((t.setBank m.bank b).setMat { m with next := m.next + 1, acc := b }).setProg m.bank (progWord (t.cause m.bank) m.op 1 m.groups (m.next + 1))

theorem State.readGroup_eq (s : State) (k : Nat) (m : MatRun) :
    s.readGroup k m = match s.groupBad k m with
      | some a => (((s.groupTouched k m).log (s.ctxOf k) 7 a (agentField k 0 true)).modTh k fun t =>
          ((t.setMat { m with abandoned := true }).setBPsn m.bank true).setProg m.bank
            (progWord 2 m.op 3 m.groups m.next)).modTh k fun t => { t with matStop := some (m.next, 2, m.cmd) }
      | none =>
        if s.groupRefused k m then (s.groupTouched k m).modTh k fun t => t.groupRefused m
        else { ((s.groupTouched k m).modTh k fun t => t.groupRead m (s.groupBank k m)) with fresh := (s.groupTouched k m).fresh + 1 } := rfl

theorem State.readGroup_of_poison {s : State} {k : Nat} {m : MatRun} {a : Nat} (h : s.groupBad k m = some a) :
    ∃ v : State, v.kept = (s.groupTouched k m).kept ∧ (s.readGroup k m).th k = (v.th k).groupPoisoned m := by
  refine ⟨_, State.kept_log (s.groupTouched k m) (s.ctxOf k) 7 a (agentField k 0 true), ?_⟩
  rw [State.readGroup_eq, h]
  dsimp only
  rw [State.th_modTh_same, State.th_modTh_same]
  rfl

theorem State.readGroup_of_refused {s : State} {k : Nat} {m : MatRun} (h : s.groupBad k m = none) (hf : s.groupRefused k m = true) :
    s.readGroup k m = (s.groupTouched k m).modTh k fun t => t.groupRefused m := by
  rw [State.readGroup_eq, h, hf]
  rfl

theorem State.readGroup_of_sound {s : State} {k : Nat} {m : MatRun} (h : s.groupBad k m = none) (hf : s.groupRefused k m = false) :
    s.readGroup k m =
      { ((s.groupTouched k m).modTh k fun t => t.groupRead m (s.groupBank k m)) with fresh := (s.groupTouched k m).fresh + 1 } := by
  rw [State.readGroup_eq, h, hf]
  rfl

theorem State.groupBad_isSome (s : State) (k : Nat) (m : MatRun) :
    (s.groupBad k m).isSome = true ↔ (s.groupPoison (s.ctxOf k) (clusterOf k) ⟨m.a0, m.a1⟩ m.next).isSome = true ∨
      (s.groupPoison (s.ctxOf k) (clusterOf k) ⟨m.b0, m.b1⟩ m.next).isSome = true := by
  unfold State.groupBad
  cases s.groupPoison (s.ctxOf k) (clusterOf k) ⟨m.a0, m.a1⟩ m.next <;> simp

theorem State.groupBad_eq_none {s : State} {k : Nat} {m : MatRun}
    (ha : s.groupPoison (s.ctxOf k) (clusterOf k) ⟨m.a0, m.a1⟩ m.next = none)
    (hb : s.groupPoison (s.ctxOf k) (clusterOf k) ⟨m.b0, m.b1⟩ m.next = none) : s.groupBad k m = none := by
  rw [State.groupBad, ha, hb]

theorem Thr.abandoned_setMat {t : Thr} {m : MatRun} (h : m.abandoned = true) : ∀ y ∈ (t.setMat m).mats, y.cmd = m.cmd → y.abandoned = true := by
  intro y hy hc
  obtain ⟨x, -, rfl⟩ := List.mem_map.mp hy
  by_cases same : (x.cmd == m.cmd) = true
  · rwa [if_pos same]
  · rw [if_neg same] at hc
    exact absurd (beq_iff_eq.mpr hc) same

/-- A group whose lines are sound is added to its bank. -/
theorem State.readGroup_sound {s : State} {k : Nat} {m : MatRun} (hp : s.groupBad k m = none) (hf : s.groupRefused k m = false) :
    let t := s.readGroup k m
    (t.th k).bank m.bank = s.groupBank k m ∧ (∀ n, n ≠ m.bank → (t.th k).bank n = (s.th k).bank n) ∧ t.mem = s.mem ∧ t.frames = s.frames ∧
      ∀ j, j ≠ k → t.th j = s.th j := by
  dsimp only
  rw [State.readGroup_of_sound hp hf]
  have same := s.beyondCaches_groupTouched k m
  generalize s.groupTouched k m = v at same
  have own := State.th_modTh_same v k fun t => t.groupRead m (s.groupBank k m)
  have banks (n : Nat) : (((v.modTh k fun t => t.groupRead m (s.groupBank k m)).th k).bank n) = if n = m.bank then s.groupBank k m else (s.th k).bank n := by
    rw [own, ← State.th_of_beyondCaches same]
    exact Thr.bank_setBank (v.th k) m.bank (s.groupBank k m) n
  exact ⟨(banks m.bank).trans (if_pos rfl), fun n hn => (banks n).trans (if_neg hn), (congrArg State.mem same :),
    (congrArg State.frames same :), fun j hj => (State.th_modTh_ne v (fun t => t.groupRead m (s.groupBank k m)) hj).trans (State.th_of_beyondCaches same j)⟩

/-- A group with a poisoned line is not read: its multiply-accumulate stops. -/
theorem State.readGroup_poisoned {s : State} {k : Nat} {m : MatRun} {a : Nat} (hp : s.groupBad k m = some a) :
    let t := s.readGroup k m
    (t.th k).matStop = some (m.next, 2, m.cmd) ∧ (t.th k).bBad m.bank = true ∧ (∀ n, (t.th k).bank n = (s.th k).bank n) ∧
      (∀ y ∈ (t.th k).mats, y.cmd = m.cmd → y.abandoned = true) ∧ (t.th k).flight = (s.th k).flight := by
  obtain ⟨v, logged, own⟩ := State.readGroup_of_poison hp
  have logged := State.th_of_kept logged k
  rw [State.th_of_beyondCaches (s.beyondCaches_groupTouched k m)] at logged
  dsimp only
  rw [own]
  exact ⟨rfl, (Thr.bBad_setBPsn _ m.bank true m.bank).trans (if_pos rfl), fun n => (congrArg (fun t => Thr.bank t n) logged :),
    Thr.abandoned_setMat rfl, (congrArg Thr.flight logged :)⟩

/-- A group with a line of a refused format leaves its bank as it was, and stops. -/
theorem State.readGroup_refused {s : State} {k : Nat} {m : MatRun} (hp : s.groupBad k m = none) (hf : s.groupRefused k m = true) :
    let t := s.readGroup k m
    (t.th k).matStop = some (m.next, 1, m.cmd) ∧ (∀ n, (t.th k).bank n = (s.th k).bank n ∧ (t.th k).bBad n = (s.th k).bBad n) ∧
      (t.th k).mats = (s.th k).mats ∧ (t.th k).flight = (s.th k).flight ∧ t.mem = s.mem := by
  dsimp only
  rw [State.readGroup_of_refused hp hf, State.th_modTh_same]
  have same := s.beyondCaches_groupTouched k m
  generalize s.groupTouched k m = v at same
  rw [← State.th_of_beyondCaches same]
  exact ⟨rfl, fun n => ⟨rfl, rfl⟩, rfl, rfl, (congrArg State.mem same :)⟩

theorem State.afterCommit_of_matStop {s : State} {k baddr g cause cmd : Nat} {m : MatRun} (h : (s.th k).matStop = some (g, cause, cmd))
    (hm : ((s.th k).mats.find? fun y => y.cmd == cmd) = some m) :
    s.afterCommit k baddr none = s.takePark k 3 m.baddr 0 (m.bank + 16 * g + 256 * cause) baddr false false (cause == 1) := by
  have stopped : (s.th k).stoppedMat cmd baddr = (m.bank, m.baddr) := by rw [Thr.stoppedMat, hm]
  rw [State.afterCommit, h]
  dsimp only
  rw [stopped]
  rfl

/-- Settles O19. -/
theorem matrixGroupReads : Obligations.MatrixGroupReads := by
  refine ⟨?_, ?_, ?_⟩
  · intro s k m c cl da db g pa pb fa fb t a b
    obtain ⟨bank, rest⟩ := State.readGroup_sound (State.groupBad_eq_none pa pb) (by rw [State.groupRefused]; exact Bool.or_eq_false_iff.mpr ⟨fa, fb⟩)
    refine ⟨fun i j hi hj => ?_, rest⟩
    rw [bank]
    exact addGroup_el m.op m.acc _ _ hi hj
  · intro s k m pois bad t
    refine ⟨fun hp => ?_, fun pa pb hf => ?_⟩
    · obtain ⟨a, ha⟩ := Option.isSome_iff_exists.mp ((s.groupBad_isSome k m).mpr hp)
      exact State.readGroup_poisoned ha
    · exact State.readGroup_refused (State.groupBad_eq_none pa pb) (Bool.or_eq_true_iff.mpr hf)
  · intro s k baddr g cause cmd m hs hm t
    have parks := s.takePark_parks k 3 m.baddr 0 (m.bank + 16 * g + 256 * cause) baddr false false (cause == 1)
    rw [← State.afterCommit_of_matStop hs hm] at parks
    obtain ⟨id, fw, rerouted, record⟩ := parks.record
    exact ⟨_, record, rfl, rfl, rfl, rfl, rfl, (congrArg Thr.mode parks.own :), (congrArg (fun t => t.park.reissue) parks.own :),
      (congrArg (fun t => t.park.matFormat) parks.own :), (congrArg Thr.pc parks.own :)⟩

end Sys2Proof.Machine
end

section
/-! PROOFS. Steps of the matrix unit and the accumulator port (07 R203, R204, R213, R214) -/

namespace Sys2Proof.Machine

open Sys2Proof

/-! ### A ticket that fires (08 R220) -/

theorem engKey_ne_partKey (id : Nat) : engKey id ≠ partKey := by
  rw [engKey, partKey]
  omega

/-- The clean end of a command depends on the commands, and on the requests that are not the part's own. -/
theorem State.clean_congr {s t : State} (hc : t.cmds = s.cmds)
    (hr : (t.reqs.filter fun r => r.key != partKey) = s.reqs.filter fun r => r.key != partKey) (id : Nat) : t.clean id = s.clean id := by
  have skip (l : List Req) : (l.all fun r => r.key != engKey id) = (l.filter fun r => r.key != partKey).all fun r => r.key != engKey id := by
    rw [List.all_filter]
    congr 1
    funext r
    by_cases h : r.key = partKey
    · rw [h, bne_iff_ne.mpr (engKey_ne_partKey id).symm, Bool.or_true]
    · rw [bne_iff_ne.mpr h]
      rfl
  rw [State.clean, State.clean, hc, skip t.reqs, skip s.reqs, hr]

theorem State.cmd?_modCmd_same (s : State) (id : Nat) (f : Cmd → Cmd) (h : ∀ m, m.id = id → (f m).id = id) :
    (s.modCmd id f).cmd? id = (s.cmd? id).map f := by
  unfold State.modCmd State.cmd?
  dsimp only
  induction s.cmds with
  | nil => rfl
  | cons m r ih =>
    rw [List.map_cons, List.find?_cons, List.find?_cons]
    by_cases hm : m.id = id
    · rw [if_pos (beq_iff_eq.mpr hm), beq_iff_eq.mpr hm, beq_iff_eq.mpr (h m hm)]
      rfl
    · rw [if_neg (by simpa using hm), beq_eq_false_iff_ne.mpr hm]
      exact ih

/-- The ticket of a command that ends cleanly fires. -/
theorem State.ended_fire {s : State} {id : Nat} (h : s.clean id = true) : (s.fire id).ended id = true := by
  obtain ⟨sound, quiet⟩ := Bool.and_eq_true_iff.mp h
  have noViol : (s.cmds.find? fun c => c.id == id && c.viol) = none := by
    refine List.find?_eq_none.mpr fun m hm hv => ?_
    have := List.all_eq_true.mp sound m hm
    simp_all
  have noWrite : (s.reqs.any fun r => r.key == engKey id) = false := by
    refine List.any_eq_false.mpr fun r hr hk => ?_
    have := List.all_eq_true.mp quiet r hr
    simp_all
  rw [State.fire, noViol, noWrite]
  dsimp only
  rw [State.ended, State.cmd?_modCmd_same s id (fun c => { c with st := if false = true then .ending else .done }) fun _ h => h]
  cases s.cmd? id <;> rfl

/-! ### Steps of the matrix unit and the accumulator port (07 R203, R204, R213, R214) -/

theorem State.th_endXfer (s : State) (k n : Nat) : (s.endXfer k n).th k = { s.th k with xfers := (s.th k).xfers.filter fun y => y.cmd != n } := by
  rw [State.endXfer, State.th, State.fire_thr]
  exact State.th_modTh_same s k _

theorem State.mem_endXfer (s : State) (k n : Nat) : (s.endXfer k n).mem = s.mem := by rw [State.endXfer, State.fire_mem, State.modTh_mem]

theorem State.ended_endXfer {s : State} {n : Nat} (k : Nat) (h : s.clean n = true) : (s.endXfer k n).ended n = true :=
  State.ended_fire (s := s.modTh k _) h

theorem cmd_ne_of_mem_filter {l : List Xfer} {n : Nat} : ∀ z ∈ l.filter (fun y => y.cmd != n), z.cmd ≠ n :=
  fun z hz => by simpa using (List.mem_filter.mp hz).2

section
variable {s : State} {k n : Nat}

theorem Thr.alive_of_running {t : Thr} (hm : t.mode = .running) (hd : t.dbg.stopped = false) (hf : t.frozen = false) : t.alive = true := by
  rw [Thr.alive, hm, hd, hf]
  rfl

/-- A complete multiply-accumulate leaves the matrix unit, and its ticket fires. -/
theorem State.matrixDone_of_due {m : MatRun} {ms : List MatRun} (hm : (s.th k).mats = m :: ms) (hd : m.issued + 144 ≤ (s.th k).scyc)
    (hc : s.clean m.cmd = true) :
    (s.matrixDone k).ended m.cmd = true ∧ (∀ y ∈ ((s.matrixDone k).th k).mats, y.cmd ≠ m.cmd) ∧ (s.matrixDone k).mem = s.mem ∧
      ((s.matrixDone k).th k).banks = (s.th k).banks := by
  unfold State.matrixDone
  extract_lets t
  have found : (t.mats.find? fun m => decide (m.issued + 144 ≤ t.scyc)) = some m := by
    rw [show t.mats = m :: ms from hm, List.find?_cons, decide_eq_true hd]
  rw [found]
  dsimp only
  refine ⟨State.ended_fire (s := s.modTh k _) hc, ?_, by rw [State.fire_mem, State.modTh_mem], ?_⟩
  all_goals rw [State.th, State.fire_thr, ← State.th, State.th_modTh_same]
  · have left : ∀ y ∈ (s.th k).mats.filter (fun x => x.cmd != m.cmd), y.cmd ≠ m.cmd := fun y hy => by simpa using (List.mem_filter.mp hy).2
    split
    · exact left
    · exact left
  · split
    · rfl
    · rfl

/-- A transfer that is the first of its partition's is found by its number. -/
theorem find_xfer {l ys : List Xfer} {y : Xfer} {b : Xfer → Bool} (h : l = y :: ys) (hn : y.cmd = n) (hb : b y = true) :
    (l.find? fun z => z.cmd == n && b z) = some y := by
  rw [h, List.find?_cons, beq_iff_eq.mpr hn, hb]
  rfl

/-- A transfer to a bank that ends: its ticket fires, and the bank and its flag are what it brought. -/
theorem bankWritten (v : State) (b : Nat) (x : Bank) (p : Bool) (hc : v.clean n = true) :
    let t := (v.modTh k fun t => (t.setBank b x).setBPsn b p).endXfer k n
    t.ended n = true ∧ (t.th k).bank b = x ∧ (t.th k).bBad b = p ∧ t.mem = v.mem := by
  dsimp only
  refine ⟨State.ended_endXfer (s := v.modTh k _) k hc, ?_, ?_, (State.mem_endXfer ..).trans (State.modTh_mem ..)⟩
  all_goals rw [State.th_endXfer, State.th_modTh_same]
  · exact (Thr.bank_setBank (v.th k) b x b).trans (if_pos rfl)
  · exact (Thr.bBad_setBPsn ((v.th k).setBank b x) b p b).trans (if_pos rfl)

end

/-- Lines of the scratchpad that are logged as poisoned and read leave the commands, and the requests of others than the part. -/
theorem State.clean_spRead (s : State) (k c kind agent : Nat) (lines : List Nat) (runs : List (Nat × Nat)) (n : Nat) :
    (let s1 := (lines.foldl (fun s a => s.log c kind a agent) s).spTouch (coreOf k) c runs
     ({ s1 with fresh := s1.fresh + 1 } : State)).clean n = s.clean n := by
  have touched := State.beyondCaches_spTouch (lines.foldl (fun s a => s.log c kind a agent) s) (coreOf k) c runs
  have logged : (lines.foldl (fun s a => s.log c kind a agent) s).kept = s.kept := State.kept_foldl (fun _ _ => State.kept_log ..) lines s
  refine State.clean_congr ?_ ?_ n
  · exact (congrArg State.cmds touched :).trans (congrArg State.cmds logged :)
  · exact (congrArg (fun t => t.reqs.filter fun r => r.key != partKey) touched :).trans (congrArg State.reqs logged :)

/-- Settles O22. -/
theorem matrixSteps : Obligations.MatrixSteps := by
  intro s k n
  refine ⟨fun hm hd hf => ⟨?_, fun m due stop pages => ?_, fun m ms hms hdue hc => ?_⟩, fun y ys hy hn hc hl hsp hgot => ?_,
    fun y ys hy hn hc hl hsp hr => ?_, fun y ys hy hn hc hl hsp hp => ?_, fun y ys hy hn hl hsp hp => ?_⟩
  · exact congrArg _ (if_pos (Thr.alive_of_running hm hd hf))
  · refine congrArg _ ((if_pos (Thr.alive_of_running hm hd hf)).trans ?_)
    rw [State.matrixStep, due, stop, pages]
    rfl
  · exact ⟨_, congrArg Host.Outcome.next (if_pos (Thr.alive_of_running hm hd hf)), State.matrixDone_of_due hms hdue hc⟩
  · obtain ⟨ended, bank, bad, mem⟩ := bankWritten (k := k) s y.bank (bankOfRows y.tr ((List.range y.got.length).flatMap fun i =>
      ((y.got.find? fun g => g.1 == i).map Prod.snd).getD [])) y.psn hc
    refine ⟨_, ?_, ended, bank, bad, mem⟩
    change execAcldComplete k n s = _
    rw [execAcldComplete, find_xfer hy hn hl]
    dsimp only
    rw [hsp, if_neg (by simp), if_pos hgot]
  · refine ⟨s.endXfer k n, ?_, State.ended_endXfer k hc, ?_, State.mem_endXfer ..⟩
    · have gone : (y.reqs.any fun r => (s.req? r).isSome) = false := by
        refine List.any_eq_false.mpr fun i hi found => ?_
        obtain ⟨r, hreq⟩ := Option.isSome_iff_exists.mp found
        have id : r.id = i := by simpa using List.find?_some hreq
        exact hr r (List.mem_of_find?_eq_some hreq) (id ▸ hi)
      change execAcstComplete k n s = _
      rw [execAcstComplete, find_xfer (b := fun z => !z.load) hy hn (by rw [hl]; rfl)]
      dsimp only
      rw [hsp, gone]
      rfl
    · rw [State.th_endXfer]
      exact cmd_ne_of_mem_filter
  · change s.spMissing (s.ctxOf k) (clusterOf k) _ = [] at hp
    change ∃ t, execAcldComplete k n s = _ ∧ _
    rw [execAcldComplete, find_xfer hy hn hl]
    dsimp only
    rw [hsp, if_pos rfl, if_pos (List.isEmpty_iff.mpr hp)]
    obtain ⟨ended, bank, -, -⟩ := bankWritten (k := k) _ y.bank (bankOfRows y.tr (y.rows.flatMap fun a =>
      (unpackLE (fmtBits y.fmt) 64 (ofBytes (s.spRead false (s.ctxOf k) (k / 32) a y.rowBytes))).map fun e =>
        r32 (decCode y.fmt e))) _ ((State.clean_spRead s k (s.ctxOf k) 2 (agentField k 0 true) _ _ n).trans hc)
    exact ⟨_, rfl, ended, bank⟩
  · change s.spMissing (s.ctxOf k) (clusterOf k) _ = [] at hp
    change execAcstComplete k n s = _
    rw [execAcstComplete, find_xfer (b := fun z => !z.load) hy hn (by rw [hl]; rfl)]
    dsimp only
    rw [hsp, if_pos rfl, if_pos (List.isEmpty_iff.mpr hp)]
    rfl

end Sys2Proof.Machine
end

section
/-! PROOFS. The image of an exception over its own page table (12 R349, 13 R371) -/

namespace Sys2Proof.Machine

open Sys2Proof

/-! ### A park image over the faulting partition's own page table (12 R349, 13 R371)

The image is written once the partition has parked, when its handles no longer hold off a write of a line of the page table.  The
statement writes it while the partition still runs. -/

/-- Partition 0, whose save slot lies over the table that its handle's translation reads. -/
def imageOverTable : State :=
  { mem := wrBytes (wrBytes (wrBytes [] 0x1000 (bytesOf 8 0x2001)) 0x2000 (bytesOf 8 0x3001)) 0x3000 (bytesOf 8 31)
    ctxs := [(0, { st := .running, slot := some 0, allot := [0], desc := [(8, 0x1000), (0x50, 0x3000)] })]
    thr := [(0, { mode := .running, pc := 0x10000, hs := [(0, { st := .valid, size := 4096 })] })] }

/-- ADD with the code of no operation. -/
def illegalAdd : RRR := ⟨0, 1, 2, 3, 7, 0⟩
/-- What an outcome leaves. -/
def leaves (o : Host.Outcome State Fault Refusal) : State := match o with
  | .next t => t
  | _ => {}

/-- The byte where the image's program counter has a bit set: in the image written by the exception, and in one written before it. -/
theorem imageOverTable_bytes : rdByte (leaves (exec (.add illegalAdd) imageOverTable)).mem 0x3002 = 1 ∧
    rdByte (((imageOverTable.begun 0).stallEnd 0).vwrRun ((imageOverTable.begun 0).ctxOf 0)
      ((leaves (exec (.add illegalAdd) imageOverTable)).slotAddr ((imageOverTable.begun 0).ctxOf 0) 0)
      ((leaves (exec (.add illegalAdd) imageOverTable)).parkImage 0 true)).mem 0x3002 = 0 := by
  decide +kernel

/-- Refutes O40: the exception of `imageOverTable` writes its image at once, where the running partition's would wait. -/
theorem not_exceptionEntry : ¬ Obligations.ExceptionEntry := by
  intro h
  have pre : slotPre (oneIC (imageOverTable.begun 0) 0 0 (encWord (.add illegalAdd))) (some (opAdd illegalAdd)) =
      some ⟨2, (encWord (.add illegalAdd)).toNat, 0⟩ := by decide +kernel
  obtain ⟨t, r, run, -, -, -, -, -, -, -, -, -, -, -, -, -, -, parked, -⟩ := h imageOverTable (imageOverTable.begun 0) 0 0 (.add illegalAdd)
    (opAdd illegalAdd) _ rfl ⟨rfl, rfl, rfl, rfl, rfl, rfl⟩ rfl ⟨by decide +kernel, by decide +kernel⟩ (.inl (.inl rfl)) rfl rfl rfl
    (by decide +kernel) (by decide +kernel) (.inl pre)
  obtain ⟨-, -, -, -, -, -, mem⟩ := parked rfl
  have left : t = leaves (exec (.add illegalAdd) imageOverTable) := (congrArg leaves run).symm
  obtain ⟨real, waits⟩ := imageOverTable_bytes
  rw [← left] at real waits
  rw [mem, waits] at real
  exact absurd real (by decide)

end Sys2Proof.Machine
end

section
/-! PROOFS. Illegal and privileged slots, false guards and holds (03 R84–R86, R93, R94) -/

namespace Sys2Proof.Machine

open Sys2Proof

/-! ### A slot instruction is its one-slot bundle (03 R71) -/

theorem exec_eq_issueOne {i : Instr} {o : SlotOp} {pos : Nat} (he : (encode i).map Prod.fst = some pos) (ho : slotOf i = some o) (s : State) :
    exec i s = issueOne pos (encWord i) o s := by
  cases i <;> cases ho <;> cases he <;> rfl

theorem legal_of_slotOf {i : Instr} {o : SlotOp} (ho : slotOf i = some o) : o.legal = legal i := by
  cases i <;> cases ho
  case vmts x => rw [opVmts]; split <;> rfl
  case vclmp x => rw [opVclmp]; split <;> rfl
  all_goals rfl

/-! ### What a hold leaves: the course of its issuer (03 R93, R94) -/

/-- Where an issuer stands: its program counter and SCYC, its mode, and what is in flight. -/
def Thr.course (t : Thr) : Nat × Nat × Mode × List Flight := (t.pc, t.scyc, t.mode, t.flight)

/-- From s to t the issuer k keeps what p reads of it. -/
def Agree {α : Type} (p : Thr → α) (k : Nat) (s t : State) : Prop := p (t.th k) = p (s.th k)

section
variable {α : Type} {p : Thr → α} {s t u : State} {k : Nat}

theorem Agree.trans (h : Agree p k s t) (h' : Agree p k t u) : Agree p k s u := Eq.trans h' h

theorem Agree.of_thr (h : t.thr = s.thr) : Agree p k s t := congrArg p (State.th_eq_of_thr h k)

theorem Agree.of_kept (hp : ∀ t : Thr, p t.unwatched = p t) (h : t.kept = s.kept) : Agree p k s t := by
  rw [Agree, ← hp (t.th k), ← hp (s.th k), State.th_of_kept h]

theorem Agree.modTh (j : Nat) {f : Thr → Thr} (h : ∀ t, p (f t) = p t) : Agree p k s (s.modTh j f) := by
  rw [Agree, State.th_modTh]
  split
  · next hj => rw [h, hj]
  · rfl

theorem Agree.ite {b : Prop} [Decidable b] (ht : Agree p k s t) (hu : Agree p k s u) : Agree p k s (if b then t else u) := by
  split <;> assumption

theorem Agree.foldl {β : Type} {f : State → β → State} (h : ∀ s a, Agree p k s (f s a)) (l : List β) (s : State) :
    Agree p k s (l.foldl f s) := foldl_keeps (fun t => Agree p k s t) (fun t a ht => ht.trans (h t a)) l rfl

end

/-! ### The mode of an issuer whose cycle begins (03 R92, 07 R203) -/

theorem mode_landOne (t : Thr) (l : Land) : (landOne t l).mode = t.mode := by
  cases l with
  | s n v psn => exact (apply_ite Thr.mode ..).trans (ite_self _)
  | p n b => exact (apply_ite Thr.mode ..).trans (ite_self _)
  | m n v mask => exact (apply_ite Thr.mode ..).trans (ite_self _)
  | bank n b psn => cases psn <;> rfl
  | ctl r v => cases r <;> rfl
  | _ => rfl

theorem mode_landDue (t : Thr) : t.landDue.mode = t.mode := by
  unfold Thr.landDue
  extract_lets due t1
  have landed : t1.mode = t.mode := foldl_keeps (f := fun acc (f : Flight) => landOne acc f.land) (fun a : Thr => a.mode = t.mode)
    (fun a f (ha : a.mode = t.mode) => (mode_landOne a f.land).trans ha) due rfl
  split
  · split <;> exact landed
  · exact landed

section
variable (s : State) (k : Nat)

theorem State.landThr_mode : Agree Thr.mode k s (s.landThr k) := by
  have xlat (v : State) (x : Nat × Nat) : Agree Thr.mode k v (v.xlatLand k x.1 x.2) := by
    unfold State.xlatLand
    dsimp only
    split
    · rfl
    · split
      · rfl
      · exact .ite (.modTh k fun _ => rfl) rfl
  have tmode (v : State) (f : Flight) : Agree Thr.mode k v (v.landTmode k f.land) := by
    unfold State.landTmode
    split <;> rfl
  have due : Agree Thr.mode k s (s.setTh k (s.th k).landDue) := by
    rw [Agree, State.th_setTh_same, mode_landDue]
  unfold State.landThr
  dsimp only
  exact .ite rfl (due.trans ((Agree.foldl xlat _ _).trans (Agree.foldl tmode _ _)))

theorem State.matrixDone_mode : Agree Thr.mode k s (s.matrixDone k) := by
  unfold State.matrixDone
  dsimp only
  split
  · rfl
  · next m _ => exact Agree.trans (.modTh k fun t => by split <;> rfl) (.of_thr (State.fire_thr ..))

theorem State.readGroup_mode (m : MatRun) : Agree Thr.mode k s (s.readGroup k m) := by
  have touched : Agree Thr.mode k s (s.groupTouched k m) := .of_thr (State.thr_of_beyondCaches (s.beyondCaches_groupTouched k m))
  refine touched.trans ?_
  generalize hv : s.groupTouched k m = v
  cases hb : s.groupBad k m with
  | some a =>
    obtain ⟨w, logged, own⟩ := State.readGroup_of_poison hb
    rw [hv] at logged
    exact (congrArg Thr.mode own).trans (Agree.of_kept (p := Thr.mode) (fun _ => rfl) logged)
  | none =>
    cases hf : s.groupRefused k m with
    | true =>
      rw [State.readGroup_of_refused hb hf, hv]
      exact .modTh k fun _ => rfl
    | false =>
      rw [State.readGroup_of_sound hb hf, hv]
      have own := State.th_modTh_same v k fun t => t.groupRead m (s.groupBank k m)
      exact (congrArg Thr.mode own :)

theorem State.matrixStep_mode : Agree Thr.mode k s (s.matrixStep k) := by
  unfold State.matrixStep
  split
  · rfl
  · exact .ite rfl (s.readGroup_mode k _)

theorem State.begun_mode : Agree Thr.mode k s (s.begun k) :=
  (Agree.of_thr rfl).trans (((s.took k).landThr_mode k).trans ((State.matrixDone_mode _ k).trans (State.matrixStep_mode _ k)))

end

section
variable (s : State) (k : Nat)

theorem State.thr_ite {b : Prop} [Decidable b] {t u : State} (ht : t.thr = s.thr) (hu : u.thr = s.thr) :
    (if b then t else u).thr = s.thr := by
  split <;> assumption

theorem State.thr_spTake (c n cl f : Nat) (r : List Nat) : (s.spTake c n cl f r).thr = s.thr := by
  unfold State.spTake
  dsimp only
  split
  · rfl
  · split
    · exact s.thr_ite rfl (s.thr_ite rfl (s.thr_ite rfl rfl))
    · rfl

theorem State.thr_spServe (c n : Nat) : (s.spServe c n).thr = s.thr := by
  unfold State.spServe
  dsimp only
  split
  · refine s.thr_ite rfl ?_
    split
    · exact s.thr_ite (State.thr_spTake ..) rfl
    · refine s.thr_ite ?_ (State.thr_spTake ..)
      split
      · split
        · exact State.thr_spTake ..
        · rfl
      · rfl
  · rfl

theorem State.thr_spRequest (c n cl : Nat) : (s.spRequest c n cl).thr = s.thr := s.thr_ite rfl (State.thr_spServe ..)

theorem State.thr_spAsk (core part c key cl : Nat) : (s.spAsk core part c key cl).thr = s.thr := by
  have filled := State.thr_of_beyondCaches (State.beyondCaches_spCacheFill s core c (key % 16384))
  have asked := (State.thr_spRequest (s.spCacheFill core c (key % 16384)) c (key % 16384) cl).trans filled
  exact s.thr_ite ((State.pmcEvent_thr ..).trans asked) asked

theorem State.stallEnd_course (j : Nat) : Agree Thr.course k s (s.stallEnd j) := by
  unfold State.stallEnd
  dsimp only
  split
  · rfl
  · exact Agree.trans (.ite (.of_kept (fun _ => rfl) (State.kept_traceLog ..)) rfl) (.modTh j fun _ => rfl)

theorem State.turnStall_course (j cause : Nat) : Agree Thr.course k s (s.turnStall j cause) :=
  .ite rfl (.trans (s.stallEnd_course k j) (.modTh j fun _ => rfl))

/-- A cycle in which an issuer is held keeps its course, and says what holds it. -/
theorem State.holdCycle_course (cause : Nat) : Agree Thr.course k s (s.holdCycle k cause) ∧ ((s.holdCycle k cause).th k).held = some cause := by
  unfold State.holdCycle
  extract_lets v t s1 ev s2
  have same : Agree Thr.course k s s1 := .trans (s.turnStall_course k k cause) (.modTh k fun _ => rfl)
  have held : (s1.th k).held = some cause := congrArg Thr.held (State.th_modTh_same v k _)
  have counted : s2.th k = s1.th k := State.th_eq_of_thr (State.pmcEvent_thr ..) k
  split
  · exact ⟨same, held⟩
  · rw [← counted] at held
    have same : Agree Thr.course k s s2 := (congrArg Thr.course counted).trans same
    split
    · exact ⟨same, held⟩
    · exact ⟨same, held⟩

theorem opWaitm_onHold_course (x : RRR) (c : IC) : Agree Thr.course c.k s ((opWaitm x).onHold c s) := by
  dsimp only [opWaitm]
  split
  · rfl
  · next pa _ =>
    exact .ite rfl (.trans (.of_kept (fun _ => rfl) (State.kept_othersRead ..)) (.modTh c.k fun _ => rfl))

/-- What the slot of an instruction asks for while it is held keeps its issuer's course. -/
theorem onHold_course {i : Instr} {o : SlotOp} (ho : slotOf i = some o) (c : IC) : Agree Thr.course c.k s (o.onHold c s) := by
  cases i <;> cases ho
  case waitm x => exact opWaitm_onHold_course s x c
  case send x => exact .modTh c.k fun _ => rfl
  case recv x => exact .modTh c.k fun _ => rfl
  case recvadd x => exact .modTh c.k fun _ => rfl
  case vmts x => rw [opVmts]; split <;> rfl
  case vclmp x => rw [opVclmp]; split <;> rfl
  all_goals rfl

/-- So does all that the one slot of a held bundle asks for. -/
theorem holdAsk_course {i : Instr} {o : SlotOp} (ho : slotOf i = some o) (pos : Nat) (w : W32) (h : Header) :
    Agree Thr.course k s (holdAsk (slotIC s k h [{ pos, word := w, op := some o }]) [{ pos, word := w, op := some o }] s) := by
  rw [holdAsk, List.foldl_cons, List.foldl_nil]
  dsimp only
  refine .ite rfl (Agree.trans ?_ (onHold_course _ ho _))
  refine Agree.trans ?_ (Agree.foldl (fun v x => .of_thr (v.thr_spAsk (coreOf k) k (s.ctxOf k) x (clusterOf k))) _ _)
  exact .modTh k fun _ => rfl
end

/-! ### One slot that commits with a false guard, or is held (03 R85, R86, R93) -/

section
variable {u : State} {k pos : Nat} {w : W32} {o : SlotOp}

/-- A plain one-slot bundle whose guard is false commits with no effect. -/
theorem issueBegun_of_off (hf : Fits u k) (hp : slotPos k pos) (hv : o.srcV.contains 60 = false)
    (hs : slotStatic (oneIC u k pos w) (some o) = none) (hg : o.on (u.th k) = false) :
    u.issueBegun k (Header.one pos) none [{ pos, word := w, op := some o }] =
      (((((u.advance k 8 0).loopEnd k (u.th k)).taint k false).count k).tally k 0).afterCommit k (u.th k).pc none := by
  obtain ⟨_, _, h3, h4, h5, h6, _, _⟩ := one_fields k pos hp
  have ht : (oneIC u k pos w (Header.one pos)).t = u.th k := rfl
  have hpre : slotPre (oneIC u k pos w) (some o) = none := by simp [slotPre, hs, ht, hg]
  have hhold : slotHold (oneIC u k pos w) (some o) = none := by simp [slotHold, ht, hg]
  have hpost : slotPost (oneIC u k pos w) (some o) = none := by simp [slotPost, ht, hg]
  have hbrk : brkOf (slotIC u k (Header.one pos) [{ pos, word := w, op := some o }]) [{ pos, word := w, op := some o }] = none := by
    simp [brkOf, firstSome, slotIC_one, ht, hg]
  unfold State.issueBegun
  simp only [bundleBad_one hf hp hv, hf.2, hbrk]
  simp only [faultsOf, List.filterMap_cons, List.filterMap_nil, slotIC_one, hpre, firstSome, hhold, hpost]
  have hi : impureSlots (slotIC u k (Header.one pos) [{ pos, word := w, op := some o }])
      [{ pos, word := w, op := some o }] = false := by simp [impureSlots, slotIC_one, ht, hg]
  have hn : onCount (u.th k) [{ pos, word := w, op := some o }] = 0 := by simp [onCount, hg]
  have hdr : drawsOf (u.th k) (slotIC u k (Header.one pos) [{ pos, word := w, op := some o }])
      [{ pos, word := w, op := some o }] = 0 := by simp [drawsOf, hg]
  have htr : trapOf (slotIC u k (Header.one pos) [{ pos, word := w, op := some o }])
      [{ pos, word := w, op := some o }] = none := by simp [trapOf, firstSome, slotIC_one, ht, hg]
  have hcs (x : State) : commitSlots (slotIC u k (Header.one pos) [{ pos, word := w, op := some o }])
      [{ pos, word := w, op := some o }] x = x := by simp [commitSlots, slotIC_one, ht, hg]
  simp only [State.commit, hi, hn, hdr, htr, hcs, h3, h4, h5, h6]
  rfl

/-- One whose slot is held asks for what it lacks, and the cycle is one of a hold. -/
theorem issueBegun_of_hold {cause : Nat} (hf : Fits u k) (hp : slotPos k pos) (hv : o.srcV.contains 60 = false) (hb : o.brk = none)
    (hpre : slotPre (oneIC u k pos w) (some o) = none) (hhold : slotHold (oneIC u k pos w) (some o) = some cause) :
    u.issueBegun k (Header.one pos) none [{ pos, word := w, op := some o }] =
      (holdAsk (slotIC u k (Header.one pos) [{ pos, word := w, op := some o }]) [{ pos, word := w, op := some o }] u).holdCycle k cause := by
  have hbrk : brkOf (slotIC u k (Header.one pos) [{ pos, word := w, op := some o }]) [{ pos, word := w, op := some o }] = none := by
    simp [brkOf, firstSome, hb]
  unfold State.issueBegun
  simp only [bundleBad_one hf hp hv, hf.2, hbrk]
  simp only [faultsOf, List.filterMap_cons, List.filterMap_nil, slotIC_one, hpre, firstSome, hhold]
  rfl

end

/-- Settles O39. -/
theorem issueRules : Obligations.IssueRules := by
  intro s u k pos i o he ho c det
  have legal := legal_of_slotOf ho
  refine ⟨legal, fun h => ho ▸ slotStatic_of_not_legal ho (legal.trans h), fun hw hk => ?_, fun hl hill hw hk => ?_,
    fun hl hill hw hk => ?_, fun hcur hi hu hf hp hv hs => ?_⟩
  · have ill : slotIllegal c (some o) = true := by simp [slotIllegal, hw, show isCs c.k = true from hk]
    exact if_pos ill
  · rw [slotStatic_eq_refusal (legal.trans hl) hill, hw]
    exact if_neg (by simp [show isCs c.k = false from hk])
  · rw [slotStatic_eq_refusal (legal.trans hl) hill, hw]
    exact if_neg (by simp [show c.s.firmware c.k = false from hk])
  · have run : exec i s = .next (u.issueBegun k (Header.one pos) none [{ pos, word := encWord i, op := some o }]) := by
      rw [exec_eq_issueOne (by rw [he]; rfl) ho]
      subst hcur hu
      exact congrArg Host.Outcome.next (cycle_of_issues hi _)
    refine ⟨fun hg => ?_, fun cause hb hg hpre hhold => ⟨_, run, ?_⟩⟩
    · rw [run, issueBegun_of_off hf hp hv hs hg]
    · rw [issueBegun_of_hold hf hp hv hb hpre hhold]
      obtain ⟨course, held⟩ := State.holdCycle_course
        (holdAsk (slotIC u k (Header.one pos) [{ pos, word := encWord i, op := some o }]) [{ pos, word := encWord i, op := some o }] u) k cause
      have course := (holdAsk_course u k ho pos (encWord i) (Header.one pos)).trans course
      have running : (u.th k).mode = .running := hu ▸ Eq.trans (s.begun_mode k) hi.running
      simp only [Agree, Thr.course, Prod.mk.injEq] at course
      obtain ⟨pc, scyc, mode, flight⟩ := course
      exact ⟨pc, scyc, held, mode.trans running, flight⟩

end Sys2Proof.Machine
end

section
/-! PROOFS. The frame of the register-only instructions (03 R92) -/

namespace Sys2Proof.Machine

open Sys2Proof

/-! ### The effects of the register-only instructions (03 R92, 04, 06, 07 R210) -/

section
variable {k : Nat} {s : State}

theorem StepsOnly.ite {m : Nat} {b : Prop} [Decidable b] {t u : State} (ht : StepsOnly k m s t) (hu : StepsOnly k m s u) :
    StepsOnly k m s (if b then t else u) := by
  split <;> assumption

theorem State.popLoop_stepsOnly (s : State) (k : Nat) : StepsOnly k 1 s (s.popLoop k) := by
  unfold State.popLoop
  split
  · exact (StepsOnly.refl k s).mono (Nat.zero_le _)
  · next e r _ =>
    have popped : StepsOnly k 0 s (s.modTh k fun t => { t with loops := r, rotn := if e.rot then 0 else t.rotn }) := .modTh rfl rfl
    exact .ite (popped.trans (.fly ..)) (popped.mono (Nat.zero_le _))

theorem State.transfer_stepsOnly (s : State) (c : IC) (a : Nat) : StepsOnly c.k 0 s (s.transfer c a) := .modTh rfl rfl

theorem State.enterLoop_stepsOnly (s : State) (c : IC) (n stop : Nat) (rot : Bool) (w stg : Nat) :
    StepsOnly c.k 1 s (s.enterLoop c n stop rot w stg) := by
  have entered (e : LoopEnt) : StepsOnly c.k 0 s (s.modTh c.k fun t => { t with loops := e :: t.loops, rotn := if rot then 0 else t.rotn }) :=
    .modTh rfl rfl
  exact .ite (StepsOnly.mono (.modTh rfl rfl) (Nat.zero_le _)) (.ite ((entered _).trans (.fly ..)) ((entered _).mono (Nat.zero_le _)))

end

/-- A register-only instruction puts at most one result in flight, and changes only its issuer's sequencer. -/
theorem registerOnly_stepsOnly {i : Instr} {o : SlotOp} (hr : registerOnly i = true) (ho : slotOf i = some o) (c : IC) (s : State) :
    StepsOnly c.k 1 s (o.eff c s) := by
  cases i <;> cases hr <;> cases ho
  case br x => exact (s.transfer_stepsOnly c _).mono (Nat.zero_le _)
  case jmp x => exact (s.transfer_stepsOnly c _).mono (Nat.zero_le _)
  case ret x => exact (s.transfer_stepsOnly c _).mono (Nat.zero_le _)
  case call x => exact (s.transfer_stepsOnly c _).trans (.fly ..)
  case lbrk x => exact (s.popLoop_stepsOnly c.k).trans (State.transfer_stepsOnly _ c _)
  case loop x => exact s.enterLoop_stepsOnly ..
  case loopr x => exact s.enterLoop_stepsOnly ..
  case waitk x => exact (StepsOnly.refl c.k s).mono (Nat.zero_le _)
  case div x =>
    exact StepsOnly.trans (.fly ..) (.modTh (f := fun t => { t with divFree := c.t.scyc + 18 }) rfl rfl)
  case acmv x => exact .ite ((StepsOnly.refl c.k s).mono (Nat.zero_le _)) (.fly ..)
  case acps x => exact .ite (.fly ..) (.fly ..)
  case vmts x => rw [opVmts]; split <;> exact .fly ..
  case vclmp x => rw [opVclmp]; split <;> exact .fly ..
  all_goals exact .fly ..

/-- Nor does it trap. -/
theorem registerOnly_stop {i : Instr} {o : SlotOp} (hr : registerOnly i = true) (ho : slotOf i = some o) (c : IC) : o.stop c = none := by
  cases i <;> cases hr <;> cases ho
  case vmts x => rw [opVmts]; split <;> rfl
  case vclmp x => rw [opVclmp]; split <;> rfl
  all_goals rfl

/-! ### The position of a register-only slot decides nothing (03 R86) -/

/-- The checks of an operation do not depend on the position of its slot. -/
def SlotOp.Placeless (o : SlotOp) : Prop := ∀ (u : State) (k pos pos' : Nat) (w : W32),
  let c := oneIC u k pos w
  let c' := oneIC u k pos' w
  o.ill c = o.ill c' ∧ o.sched c = o.sched c' ∧ o.xfer c = o.xfer c' ∧ o.endBad c = o.endBad c' ∧ o.chk c = o.chk c' ∧ o.hold c = o.hold c' ∧
    o.spRuns c = o.spRuns c' ∧ o.post c = o.post c' ∧ o.impure c = o.impure c'

theorem registerOnly_placeless {i : Instr} {o : SlotOp} (hr : registerOnly i = true) (ho : slotOf i = some o) : o.Placeless := by
  cases i <;> cases hr <;> cases ho
  case vmts x => rw [opVmts]; split <;> exact fun _ _ _ _ _ => ⟨rfl, rfl, rfl, rfl, rfl, rfl, rfl, rfl, rfl⟩
  case vclmp x => rw [opVclmp]; split <;> exact fun _ _ _ _ _ => ⟨rfl, rfl, rfl, rfl, rfl, rfl, rfl, rfl, rfl⟩
  all_goals exact fun _ _ _ _ _ => ⟨rfl, rfl, rfl, rfl, rfl, rfl, rfl, rfl, rfl⟩

section
variable {u : State} {k pos pos' : Nat} {w : W32} {o : SlotOp}

theorem one_bs (h : slotPos k pos) : (Header.one pos).bs = 0 := by
  rcases h with (rfl | rfl | rfl | rfl) | ⟨_, rfl | rfl⟩ <;> decide

/-- So a slot that meets no fault and no hold at one position meets none at another. -/
theorem Clear.move (ho : o.Placeless) (hp : slotPos k pos) (hp' : slotPos k pos') (hc : Clear u k pos (Header.one pos) w o) :
    Clear u k pos' (Header.one pos') w o := by
  obtain ⟨ill, sched, xfer, endBad, chk, hold, spRuns, post, impure⟩ := ho u k pos pos' w
  have poisoned : o.poisoned (oneIC u k pos w) = o.poisoned (oneIC u k pos' w) := by
    have bs : vSourceBad (u.th k) (Header.one pos) = vSourceBad (u.th k) (Header.one pos') := by
      funext code
      rw [vSourceBad, vSourceBad, one_bs hp, one_bs hp']
    exact congrArg (fun f => o.srcS.any (u.th k).sBad || o.srcV.any f || o.srcB.any (u.th k).bBad) bs
  have illegal : slotIllegal (oneIC u k pos w) (some o) = slotIllegal (oneIC u k pos' w) (some o) := by
    rw [slotIllegal, slotIllegal, ill]
    rfl
  have static : slotStatic (oneIC u k pos w) (some o) = slotStatic (oneIC u k pos' w) (some o) := by
    rw [slotStatic, slotStatic, illegal]
    rfl
  have early : slotEarly (oneIC u k pos w) o = slotEarly (oneIC u k pos' w) o := by
    rw [slotEarly, slotEarly, sched, xfer, endBad, chk, poisoned]
    rfl
  have free : slotHold (oneIC u k pos w) (some o) = slotHold (oneIC u k pos' w) (some o) := by
    rw [slotHold, slotHold, hold, spRuns]
    rfl
  have pure : purityFault (oneIC u k pos w) o = purityFault (oneIC u k pos' w) o := by
    rw [purityFault, purityFault, impure]
    rfl
  have late : slotPost (oneIC u k pos w) (some o) = slotPost (oneIC u k pos' w) (some o) := by
    rw [slotPost, slotPost, post, pure]
    rfl
  have noPort : (Header.one pos).be = false := (one_fields k pos hp).2.1
  exact ⟨static ▸ hc.static, hc.guard, early ▸ hc.early, .inr (hc.ports.resolve_left (by rw [noPort]; decide)), hc.noBrk, free ▸ hc.free,
    late ▸ hc.late⟩

end

/-- Where a register-only instruction may stand: at G0, or at a position that only a partition has. -/
theorem registerOnly_pos {i : Instr} {o : SlotOp} (hr : registerOnly i = true) (ho : slotOf i = some o) :
    ∃ pos, (encode i).map Prod.fst = some pos ∧ (pos == 0 || o.whr == .partOnly && (pos == 3 || pos == 5)) = true := by
  cases i <;> cases hr <;> cases ho
  case vmts x => exact ⟨_, rfl, by rw [opVmts]; split <;> rfl⟩
  case vclmp x => exact ⟨_, rfl, by rw [opVclmp]; split <;> rfl⟩
  all_goals exact ⟨_, rfl, rfl⟩

theorem Clear.whr_ne_partOnly {u : State} {k pos : Nat} {w : W32} {o : SlotOp} (hc : Clear u k pos (Header.one pos) w o)
    (hk : isCs k = true) : o.whr ≠ .partOnly := by
  intro hw
  have ill : slotIllegal (oneIC u k pos w) (some o) = true := by
    rw [slotIllegal, hw, show isCs (oneIC u k pos w).k = true from hk]
    exact Bool.or_true _
  have static := hc.static
  rw [slotStatic, if_pos ill] at static
  cases static

/-- A register-only instruction that commits is, as an event, the bundle of its one slot. -/
theorem registerOnly_runs {s u : State} {k pos : Nat} {i : Instr} {o : SlotOp} (hr : registerOnly i = true) (ho : slotOf i = some o)
    (hc : Commits s u k pos i) : ∃ c d, c.k = k ∧ exec i s = committed u k (o.eff c) (o.impure c).isSome d := by
  obtain ⟨pos', he, place⟩ := registerOnly_pos hr ho
  have clear := hc.clear_of ho
  have hp' : slotPos k pos' := by
    cases hk : isCs k with
    | true =>
      have := clear.whr_ne_partOnly hk
      simp_all [slotPos]
    | false => simp_all [slotPos]; omega
  have moved := clear.move (registerOnly_placeless hr ho) hc.place hp'
  have here : Commits s u k pos' i := ⟨hc.cur, hc.issues, hc.begun, hc.fits, hp', o, ho, moved⟩
  have run := issueOne_of_commits here ho
  rw [registerOnly_stop hr ho] at run
  exact ⟨_, _, rfl, (exec_eq_issueOne he ho s).trans run⟩

/-! ### The start of a commit that traces no stall (19 R481) -/

/-- An issuer's steady state without its hold and its random state. -/
def Thr.frame (t : Thr) : Thr :=
  { t.steady with held := none, holdFrom := none, needs := [], chanHeld := none, srstate := 0, told := false }

theorem State.advance_untraced {s : State} {k : Nat} (n d : Nat) (h : (s.th k).held = none ∨ s.tracing (s.ctxOf k) = false) :
    (s.advance k n d).aside = s.aside ∧ (∀ j, j ≠ k → (s.advance k n d).th j = s.th j) ∧
      ((s.advance k n d).th k).frame = (s.th k).frame := by
  have moved {v : State} {g : Thr → Thr} (hv : v.aside = s.aside ∧ (∀ j, j ≠ k → v.th j = s.th j) ∧ (v.th k).frame = (s.th k).frame)
      (hg : ∀ t, (g t).frame = t.frame) :
      (v.modTh k g).aside = s.aside ∧ (∀ j, j ≠ k → (v.modTh k g).th j = s.th j) ∧ ((v.modTh k g).th k).frame = (s.th k).frame :=
    ⟨hv.1, fun j hj => (v.th_modTh_ne g hj).trans (hv.2.1 j hj), by rw [v.th_modTh_same, hg, hv.2.2]⟩
  unfold State.advance
  refine moved ?_ fun _ => rfl
  unfold State.stallEnd
  dsimp only
  split
  · exact ⟨rfl, fun _ _ => rfl, rfl⟩
  · next cause hheld =>
    have untraced : s.tracing (s.ctxOf k) = false := h.resolve_left (by rw [hheld]; exact Option.some_ne_none cause)
    rw [untraced, Bool.and_false]
    exact moved ⟨rfl, fun _ _ => rfl, rfl⟩ fun _ => rfl

/-- Settles O41. -/
theorem registerFrame : Obligations.RegisterFrame := by
  intro s u k pos i hr hc stop held
  obtain ⟨o, ho, -⟩ := hc.clear
  obtain ⟨c, d, rfl, run⟩ := registerOnly_runs hr ho hc
  obtain ⟨aside, others, own⟩ := State.advance_untraced 8 d held
  have flight : ((u.advance c.k 8 d).th c.k).flight = (u.th c.k).flight := State.advance_flight ..
  have steps := registerOnly_stepsOnly hr ho c (u.advance c.k 8 d)
  have noStop : ((o.eff c (u.advance c.k 8 d)).th c.k).matStop = none :=
    (congrArg Thr.matStop steps.own :).trans ((congrArg Thr.matStop own :).trans stop)
  obtain ⟨t, ht, rest⟩ := committed_noStop (k := c.k) (imp := (o.impure c).isSome) noStop
  have all := rest.aside.trans (steps.aside.trans aside)
  have frame : (t.th c.k).frame = { (u.th c.k).frame with scyc := ((u.th c.k).scyc + 1) % 2 ^ 64 } := by
    calc (t.th c.k).frame = ({ ((o.eff c (u.advance c.k 8 d)).th c.k).steady with
            scyc := (((o.eff c (u.advance c.k 8 d)).th c.k).steady.scyc + 1) % 2 ^ 64 } : Thr).frame := (congrArg Thr.frame rest.own :)
      _ = { ((u.advance c.k 8 d).th c.k).frame with scyc := (((u.advance c.k 8 d).th c.k).frame.scyc + 1) % 2 ^ 64 } := by
        rw [steps.own]
        rfl
      _ = { (u.th c.k).frame with scyc := ((u.th c.k).scyc + 1) % 2 ^ 64 } := by
        rw [own]
        rfl
  have running : (u.th c.k).mode = .running := hc.begun ▸ Eq.trans (s.begun_mode c.k) hc.issues.running
  refine ⟨t, ?_, fun a => by rw [show t.mem = u.mem from (congrArg State.mem all :)],
    fun a => by rw [show t.frames = u.frames from (congrArg State.frames all :)], (congrArg State.tags all :), (congrArg State.reqs all :),
    (congrArg State.cmds all :), (congrArg State.ctxs all :), (congrArg State.recs all :), (congrArg State.sys all :),
    fun j hj => (rest.others j hj).trans ((steps.others j hj).trans (others j hj)), ?_⟩
  · rw [run, ht]
  obtain ⟨l, hl, hn⟩ := steps.flight
  obtain ⟨l', hl', hn'⟩ := rest.flight
  refine ⟨fun n => (congrArg (fun t => Thr.s t n) frame :), fun n => (congrArg (fun t => Thr.sBad t n) frame :),
    fun n => (congrArg (fun t => Thr.p t n) frame :), fun n => (congrArg (fun t => Thr.m t n) frame :),
    fun n => (congrArg (fun t => Thr.vPhys t n) frame :), fun n => (congrArg (fun t => Thr.vBadP t n) frame :),
    fun n => (congrArg (fun t => Thr.bank t n) frame :), fun n => (congrArg (fun t => Thr.bBad t n) frame :),
    fun n => (congrArg (fun t => Thr.h t n) frame :), (congrArg Thr.ks frame :), (congrArg Thr.rules frame :),
    (congrArg Thr.chans frame :), (congrArg Thr.prog frame :), (congrArg Thr.aland frame :), (congrArg Thr.bard frame :),
    (congrArg Thr.barb frame :), (congrArg Thr.fltrec frame :), (congrArg Thr.drth frame :),
    (congrArg Thr.mode frame :).trans running, (congrArg Thr.scyc frame :), l ++ l', ?_, ?_⟩
  · rw [hl', hl, flight, List.append_assoc]
  · rw [List.length_append]
    omega

end Sys2Proof.Machine
end

section
/-! PROOFS. A scratchpad store: the bytes it writes (O11). -/

namespace Sys2Proof.Machine

open Sys2Proof

/-! ### A store into one line of a frame (05 R142, 10 R299) -/

/-- No write of the other view stands unjoined on the lines lo to hi. -/
def State.sees (s : State) (lin : Bool) (lo hi : Nat) : Prop := ∀ w ∈ s.unjoined, w.line < lo ∨ hi < w.line ∨ w.lin = lin

section
variable {s : State} {lin : Bool} {lo hi : Nat}

theorem State.sees.find_none (h : s.sees lin lo hi) {p : Unjoined → Bool} {ln : Nat} (hl : lo ≤ ln) (hh : ln ≤ hi)
    (hp : ∀ u, p u = true → u.line = ln ∧ u.lin ≠ lin) : s.unjoined.find? p = none := by
  refine List.find?_eq_none.mpr fun u hu found => ?_
  obtain ⟨line, other⟩ := hp u found
  rcases h u hu with h | h | h
  · omega
  · omega
  · exact other h

/-- A view with no such write in its way sees the bytes that stand. -/
theorem State.viewByte_of_sees (h : s.sees lin lo hi) {fa : Nat} (hl : lo ≤ fa / 64) (hh : fa / 64 ≤ hi) :
    s.viewByte lin fa = rdByte s.frames fa := by
  rw [State.viewByte, h.find_none hl hh fun u hu => by simp at hu; exact ⟨hu.1.1.1, hu.1.1.2⟩]

theorem State.frames_viewWrite (h : s.sees lin lo hi) {fa : Nat} (hl : lo ≤ fa / 64) (hh : fa / 64 ≤ hi) (own cmd : Nat) (bs : List Byte) :
    (s.viewWrite lin own cmd fa bs).frames = wrBytes s.frames fa bs := by
  have other : (s.unjoined.find? fun u => u.line == fa / 64 && u.lin != lin) = none :=
    h.find_none hl hh fun u hu => by simpa using hu
  unfold State.viewWrite
  dsimp only
  rw [other]
  congr 1
  refine List.ext_getElem (by simp) fun i h1 h2 => ?_
  simp [List.getD_eq_getElem?_getD, h2]

/-- A view's write leaves no write of the other view where there was none. -/
theorem State.sees.viewWrite (h : s.sees lin lo hi) (own cmd fa : Nat) (bs : List Byte) : (s.viewWrite lin own cmd fa bs).sees lin lo hi := by
  unfold State.viewWrite
  extract_lets ln off other cur lose bs' mask fresh last mine entry entry2 rest
  have entryLin : entry2.lin = lin := by
    have : entry.lin = lin := by
      dsimp only [entry]
      generalize last = found
      cases found with
      | none => rfl
      | some u =>
        dsimp only
        split
        · next own => exact (by simpa [mine] using own : (u.lin = lin ∧ _) ∧ _).1.1
        · rfl
    exact this
  intro w hw
  rcases List.mem_append.mp hw with hw | hw
  · obtain ⟨u, hu, rfl⟩ := List.mem_map.mp (List.mem_of_mem_filter hw)
    have kept := h u (List.mem_of_mem_filter hu)
    split <;> exact kept
  · rw [List.mem_singleton.mp hw, entryLin]
    exact .inr (.inr rfl)

end

/-! ### A store to an address, line by line (05 R142, R163) -/

theorem State.spPage_setPage_same (s : State) (c n : Nat) (p : SpPage) : (s.setPage c n p).spPage c n = p := by
  rw [State.spPage, State.setPage]
  dsimp only
  rw [find?_putK_same]

theorem State.pages_spCacheFill (s : State) (core c n : Nat) : (s.spCacheFill core c n).pages = s.pages := by
  have shared (line : Nat) : ((s.othersRead line core).dirShare line core).pages = s.pages := by
    have sent : (s.othersRead line core).pages = s.pages := by
      unfold State.othersRead State.hostFlit
      split <;> rfl
    have room (v : State) : (v.dirRoom line).pages = v.pages := by
      unfold State.dirRoom
      split
      · rfl
      · dsimp only
        split <;> rfl
    exact (room _).trans sent
  unfold State.spCacheFill
  extract_lets mine line s1 v
  have filled : s1.pages = s.pages := shared line
  clear_value s1
  split
  · rfl
  · split <;> exact filled

/-- Where a scratchpad address stands: a listed page that is resident in the cluster. -/
theorem State.spFrame_eq_some {s : State} {c cl a fa : Nat} (h : s.spFrame c cl a = some fa) :
    s.bounced c (a / 2048) = false ∧ ∃ f, (s.spPage c (a / 2048)).res = .res cl f ∧ fa = (cl * 768 + f) * 2048 + a % 2048 := by
  unfold State.spFrame at h
  split at h
  · cases h
  · next hb =>
    refine ⟨by simpa using hb, ?_⟩
    split at h
    · next d f hr =>
      split at h
      · next hd =>
        subst hd
        exact ⟨f, hr, (Option.some.inj h).symm⟩
      · cases h
    · cases h

theorem State.spFrame_of_res {s : State} {c cl a f : Nat} (hb : s.bounced c (a / 2048) = false)
    (hr : (s.spPage c (a / 2048)).res = .res cl f) : s.spFrame c cl a = some ((cl * 768 + f) * 2048 + a % 2048) := by
  rw [State.spFrame, hb, hr]
  simp

/-- Another address of the same page stands in the same frame. -/
theorem State.spFrame_add {s : State} {c cl a fa : Nat} (h : s.spFrame c cl a = some fa) {j : Nat} (hj : a % 2048 + j < 2048) :
    s.spFrame c cl (a + j) = some (fa + j) := by
  obtain ⟨hb, f, hr, rfl⟩ := State.spFrame_eq_some h
  have page : (a + j) / 2048 = a / 2048 := by omega
  have off : (a + j) % 2048 = a % 2048 + j := by omega
  rw [State.spFrame_of_res (f := f) (by rwa [page]) (by rwa [page]), off, Nat.add_assoc]

/-- What a store keeps of the package around the page it writes: from v to t, d bytes at frame address fa are written. -/
structure StoresAt (lin : Bool) (c cl a fa lo hi : Nat) (bs : List Byte) (v : State) (d : Nat) (t : State) : Prop where
  mem : t.mem = v.mem
  ftags : t.ftags = v.ftags
  sees : t.sees lin lo hi
  place : t.spFrame c cl a = some fa
  bytes : ∀ b, rdByte t.frames b = if fa ≤ b ∧ b < fa + d then bs.getD (b - fa) 0 else rdByte v.frames b

section
variable {lin : Bool} {c cl a fa lo hi : Nat} {bs : List Byte} {v : State}

/-- A store of n bytes to a line that is not poisoned puts them into the frame after the d bytes that stand. -/
theorem StoresAt.line {t : State} {d : Nat} (h : StoresAt lin c cl a fa lo hi bs v d t) {own core n : Nat} (hpage : a % 2048 + d < 2048)
    (hl : lo ≤ (fa + d) / 64) (hh : (fa + d) / 64 ≤ hi) (hp : tagPsn (v.ftag (fa + d)) = false) (hn : d + n ≤ bs.length) :
    StoresAt lin c cl a fa lo hi bs v (d + n)
      ((t.spCacheFill core c ((a + d) / 2048)).spStore lin c (a + d) own 0 (fa + d) ((bs.drop d).take n) none) := by
  have filled := t.beyondCaches_spCacheFill core c ((a + d) / 2048)
  have pages := t.pages_spCacheFill core c ((a + d) / 2048)
  generalize t.spCacheFill core c ((a + d) / 2048) = u at filled pages
  have sees : u.sees lin lo hi := by
    rw [State.sees, show u.unjoined = t.unjoined from (congrArg State.unjoined filled :)]
    exact h.sees
  have frames : u.frames = t.frames := State.frames_of_beyondCaches filled
  have ftags : u.ftags = v.ftags := (congrArg State.ftags filled :).trans h.ftags
  have sound : tagPsn (u.ftag (fa + d)) = false := by rwa [State.ftag, ftags]
  have stored : u.spStore lin c (a + d) own 0 (fa + d) ((bs.drop d).take n) none =
      (u.viewWrite lin own 0 (fa + d) ((bs.drop d).take n)).touchPage c (a + d) true := by
    rw [State.spStore, sound]
    rfl
  rw [stored]
  refine ⟨(State.mem_of_beyondCaches filled).trans h.mem, ftags, sees.viewWrite own 0 (fa + d) _, ?_, fun b => ?_⟩
  · obtain ⟨hb, f, hr, hfa⟩ := State.spFrame_eq_some h.place
    have page : (a + d) / 2048 = a / 2048 := by omega
    have same : u.spPage c (a / 2048) = t.spPage c (a / 2048) := by
      rw [State.spPage, State.spPage, pages, show u.spEntry c (a / 2048) = t.spEntry c (a / 2048) from
        (congrArg (fun s => State.spEntry s c (a / 2048)) filled :), show u.spWord c (a / 2048) = t.spWord c (a / 2048) from
        (congrArg (fun s => State.spWord s c (a / 2048)) filled :)]
    rw [hfa]
    refine State.spFrame_of_res ((congrArg (fun s => State.bounced s c (a / 2048)) filled :).trans hb) ?_
    rw [State.touchPage, page, State.spPage_setPage_same]
    exact (congrArg SpPage.res same).trans hr
  · have written : ((u.viewWrite lin own 0 (fa + d) ((bs.drop d).take n)).touchPage c (a + d) true).frames =
        wrBytes t.frames (fa + d) ((bs.drop d).take n) := (State.frames_viewWrite sees hl hh own 0 _).trans (by rw [frames])
    have len : ((bs.drop d).take n).length = n := by
      rw [List.length_take, List.length_drop]
      omega
    rw [written, rdByte_wrBytes, h.bytes, len]
    by_cases hb : fa + d ≤ b ∧ b < fa + d + n
    · rw [if_pos hb, if_pos (by omega)]
      have here : b - (fa + d) < n := by omega
      rw [List.getD_eq_getElem?_getD, List.getElem?_take, if_pos here, List.getElem?_drop, List.getD_eq_getElem?_getD]
      congr 2
      omega
    · rw [if_neg hb]
      by_cases hd : fa ≤ b ∧ b < fa + d
      · rw [if_pos hd, if_pos (by omega)]
      · rw [if_neg hd, if_neg (by omega)]

theorem forN_ind {σ : Type} {P : Nat → σ → Prop} {s : σ} {f : Nat → σ → σ} (n : Nat) (h0 : P 0 s)
    (hs : ∀ i, i < n → ∀ t, P i t → P (i + 1) (f i t)) : P n (forN n s f) := by
  induction n with
  | zero => exact h0
  | succ n ih =>
    rw [forN, List.range_succ, List.foldl_append]
    exact hs n (Nat.lt_succ_self n) _ (ih fun i hi => hs i (Nat.lt_succ_of_lt hi))

/-- The bytes that the first i lines of a store of n bytes hold. -/
def lineBytes (a n i : Nat) : Nat := if i = 0 then 0 else min n (64 * i - a % 64)

/-- A store to a resident page whose lines hold no unjoined write of the other view and no poison puts its bytes into the frame. -/
theorem State.spWrite_stores (hne : bs ≠ []) (hpage : a % 2048 + bs.length ≤ 2048) (place : v.spFrame c cl a = some fa)
    (hl : lo = fa / 64) (hh : hi = (fa + bs.length - 1) / 64) (sees : v.sees lin lo hi)
    (sound : ∀ i, i < bs.length → tagPsn (v.ftag (fa + i)) = false) (own : Nat) :
    StoresAt lin c cl a fa lo hi bs v bs.length (v.spWrite lin c cl a own 0 bs none) := by
  have pos : 0 < bs.length := List.length_pos_of_ne_nil hne
  have align : fa % 2048 = a % 2048 := by
    obtain ⟨-, f, -, rfl⟩ := State.spFrame_eq_some place
    omega
  have all := forN_ind (P := fun i t => StoresAt lin c cl a fa lo hi bs v (lineBytes a bs.length i) t) (s := v)
    (f := fun i s =>
      let lo := if i = 0 then a else a / 64 * 64 + 64 * i
      match s.spFrame c cl lo with
      | some fa => (s.spCacheFill (coreOf (own % 4096)) c (lo / 2048)).spStore lin c lo own 0 fa ((bs.drop (lo - a)).take (64 - lo % 64)) none
      | none => s) ((a % 64 + bs.length + 63) / 64) ?_ ?_
  · have whole : lineBytes a bs.length ((a % 64 + bs.length + 63) / 64) = bs.length := by
      rw [lineBytes]
      split <;> omega
    rw [whole] at all
    exact all
  · exact ⟨rfl, rfl, sees, place, fun b => by rw [if_neg (by rw [lineBytes, if_pos rfl]; omega)]⟩
  · intro i hi t ht
    obtain ⟨d, hd⟩ : ∃ d, lineBytes a bs.length i = d := ⟨_, rfl⟩
    have start : (if i = 0 then a else a / 64 * 64 + 64 * i) = a + d := by
      rw [lineBytes] at hd
      split <;> simp_all <;> omega
    have more : d < bs.length := by
      rw [lineBytes] at hd
      split at hd <;> omega
    have next : lineBytes a bs.length (i + 1) = d + min (64 - (a + d) % 64) (bs.length - d) := by
      rw [lineBytes] at hd ⊢
      split at hd <;> simp <;> omega
    rw [hd] at ht
    dsimp only
    rw [start, State.spFrame_add ht.place (by omega), next, Nat.add_sub_cancel_left, List.take_eq_take_min, List.length_drop]
    exact ht.line (by omega) (by omega) (by omega) (sound d more) (by omega)

end

/-! ### What a write of the part's keeps, its logs keep (10 R291, 12 R362, 19 R482) -/

section
variable {P : State → Prop} (hP : ∀ (s : State) (pa : Nat) (bs : List Byte) (tag : Option (BitVec 4)), P s → P (s.partWrite pa bs tag))
include hP

theorem keeps_vputN {s : State} (h : P s) (c va n v : Nat) : P (s.vputN c va n v) := by
  unfold State.vputN
  split
  · exact h
  · split
    · exact h
    · exact hP _ _ _ _ h

theorem keeps_vputRun {s : State} (h : P s) (c va : Nat) (bs : List Byte) : P (s.vputRun c va bs) := by
  refine forN_ind (P := fun _ t => P t) _ h fun i _ t ht => ?_
  dsimp only
  split
  · exact ht
  · split
    · exact ht
    · exact hP _ _ _ _ ht

theorem keeps_logFw {s : State} (h : P s) (kind addr agent : Nat) : P (s.logFw kind addr agent) := by
  unfold State.logFw
  dsimp only
  split
  · exact h
  · split
    · exact hP _ _ _ _ (hP _ _ _ _ h)
    · exact hP _ _ _ _ h

theorem keeps_log {s : State} (h : P s) (c kind addr agent : Nat) : P (s.log c kind addr agent) := by
  unfold State.log
  dsimp only
  split
  · exact keeps_logFw hP h ..
  · split
    · exact keeps_vputN hP (keeps_vputRun hP h ..) ..
    · exact keeps_vputN hP h ..

theorem keeps_agentWrite {s : State} (h : P s) (c pa : Nat) (bs : List Byte) (tag : Option (BitVec 4)) : P (s.agentWrite c pa bs tag) := by
  unfold State.agentWrite
  split
  · exact keeps_log hP h ..
  · split
    · exact keeps_log hP h ..
    · exact hP _ _ _ _ h

theorem keeps_traceLog {s : State} (h : P s) (c w0 baddr w3 : Nat) : P (s.traceLog c w0 baddr w3) := by
  unfold State.traceLog
  dsimp only
  split
  · exact h
  · split
    · exact keeps_agentWrite hP (keeps_agentWrite hP h ..) ..
    · exact keeps_agentWrite hP h ..

/-- What no change of an issuer touches is kept by the start of a commit. -/
theorem keeps_advance (hT : ∀ (s : State) (k : Nat) (f : Thr → Thr), P s → P (s.modTh k f)) {s : State} (h : P s) (k n d : Nat) :
    P (s.advance k n d) := by
  unfold State.advance State.stallEnd
  refine hT _ _ _ ?_
  dsimp only
  split
  · exact h
  · refine hT _ _ _ ?_
    split
    · exact keeps_traceLog hP h ..
    · exact h

end

/-! ### A resident page stays where it is (13 R371, R377) -/

/-- The page of a key is listed, and stands in a frame of a cluster. -/
def State.standsAt (s : State) (key cl f : Nat) : Prop := ∃ e, (s.pages.find? fun e => e.1 == key) = some e ∧ e.2.res = .res cl f

theorem State.standsAt.of_pages {s t : State} {key cl f : Nat} (h : s.standsAt key cl f) (hp : t.pages = s.pages) : t.standsAt key cl f := by
  rwa [State.standsAt, hp]

theorem find?_delK_ne {α : Type} (m : Map α) {k j : Nat} (h : j ≠ k) : ((delK m k).find? fun e => e.1 == j) = m.find? fun e => e.1 == j := by
  rw [delK, List.find?_filter]
  congr 1
  funext e
  by_cases he : e.1 = j
  · simp [he, h]
  · simp [he]

theorem State.standsAt.pageAfresh {s : State} {key cl f : Nat} (h : s.standsAt key cl f) {j : Nat} (hj : j ≠ key) :
    (s.pageAfresh j).standsAt key cl f := by
  obtain ⟨e, he, hr⟩ := h
  refine ⟨e, ?_, hr⟩
  unfold State.pageAfresh
  dsimp only
  split
  · rw [find?_putK_ne _ _ hj.symm]
    exact he
  · rw [find?_delK_ne _ hj.symm]
    exact he

theorem State.standsAt.afreshLine {s t : State} {key cl f line : Nat} (h : t.standsAt key cl f)
    (hk : s.spLine key = line → s.spWordOf key = t.spWordOf key) : (s.afreshLine line t).standsAt key cl f := by
  unfold State.afreshLine
  have ne : ∀ k ∈ ((s.pages.map Prod.fst ++ s.spCache.map fun e => pageKey e.2.1 e.2.2).dedup).filter (fun k =>
      s.spLine k == line && s.spWordOf k != t.spWordOf k), k ≠ key := by
    rintro k hmem rfl
    have := (List.mem_filter.mp hmem).2
    simp only [Bool.and_eq_true, beq_iff_eq, bne_iff_ne] at this
    exact this.2 (hk this.1)
  generalize ((s.pages.map Prod.fst ++ s.spCache.map fun e => pageKey e.2.1 e.2.2).dedup).filter (fun k =>
      s.spLine k == line && s.spWordOf k != t.spWordOf k) = l at ne
  clear hk
  induction l generalizing t with
  | nil => exact h
  | cons k r ih => exact ih (h.pageAfresh (ne k (by simp))) fun j hj => ne j (by simp [hj])

/-- A run of bytes written as it stood changes no byte. -/
theorem rdByte_wrBytes_of_rdBytes (m : List Host.Cell) (a n j : Nat) : rdByte (wrBytes m a (rdBytes m a n)) j = rdByte m j := by
  rw [rdByte_wrBytes, rdBytes_length]
  split
  · next h =>
    rw [rdBytes_getD _ _ _ _ (by omega)]
    congr 1
    omega
  · rfl

theorem State.pages_partDone (s : State) (pa : Nat) (bs : List Byte) (tag : Option (BitVec 4)) : (s.partDone pa bs tag).pages = s.pages := by
  have written : (s.homeWrite pa bs).pages = s.pages := by
    unfold State.homeWrite State.hostFlit
    split <;> rfl
  unfold State.partDone
  split
  · exact written
  · split <;> exact written

theorem State.spWordOf_of_rdByte {s t : State} (hm : ∀ a, rdByte t.mem a = rdByte s.mem a) (hc : t.ctxs = s.ctxs) (key : Nat) :
    s.spWordOf key = t.spWordOf key := by
  have base : t.cword (key / 16384) 0x10 = s.cword (key / 16384) 0x10 := by rw [State.cword, State.cword, State.ctx, State.ctx, hc]
  rw [State.spWordOf, State.spWordOf, State.spWord, State.spWord, State.rd64, State.rd64, rdN, rdN, base,
    rdBytes_congr fun i _ => hm _]

theorem State.standsAt.partWrite {s : State} {key cl f : Nat} (h : s.standsAt key cl f) (pa : Nat) (bs : List Byte) (tag : Option (BitVec 4)) :
    (s.partWrite pa bs tag).standsAt key cl f := by
  unfold State.partWrite
  split
  · next hs =>
    refine State.standsAt.afreshLine (h.of_pages (s.pages_partDone pa bs tag)) fun line => ?_
    have still := (Bool.and_eq_true_iff.mp hs).1
    rcases Bool.or_eq_true_iff.mp still with same | quiet
    · have same : rdBytes s.mem pa bs.length = bs := by simpa using same
      have ctxs : (s.partDone pa bs tag).ctxs = s.ctxs := (congrArg State.ctxs (s.kept_partDone pa bs tag) :)
      refine State.spWordOf_of_rdByte (fun a => ?_) ctxs key
      have mem : (s.partDone pa bs tag).mem = wrBytes s.mem pa bs := by
        unfold State.partDone
        split
        · exact State.mem_homeWrite ..
        · split <;> exact State.mem_homeWrite ..
      rw [mem]
      conv_lhs => rw [← same]
      exact rdByte_wrBytes_of_rdBytes ..
    · obtain ⟨e, he, hr⟩ := h
      have none := List.any_eq_false.mp (by simpa using (Bool.and_eq_true_iff.mp quiet).2 : s.entriesHeld (pa / 64) = false) e
        (List.mem_of_find?_eq_some he)
      have hkey : e.1 = key := by simpa using List.find?_some he
      simp [hkey, line, hr] at none
  · exact h.of_pages rfl

/-- The start of a commit leaves a resident page in its frame. -/
theorem State.spFrame_advance {s : State} {c cl a fa : Nat} (h : s.spFrame c cl a = some fa) (k n d : Nat) :
    (s.advance k n d).spFrame c cl a = some fa := by
  obtain ⟨hb, f, hr, rfl⟩ := State.spFrame_eq_some h
  have stands : s.standsAt (pageKey c (a / 2048)) cl f := by
    rw [State.spPage] at hr
    split at hr
    · next e he => exact ⟨e, he, hr⟩
    · cases hr
  obtain ⟨e, he, here⟩ := keeps_advance (P := fun t => t.standsAt (pageKey c (a / 2048)) cl f) (fun _ pa bs tag h => h.partWrite pa bs tag)
    (fun _ _ _ h => h.of_pages rfl) stands k n d
  refine State.spFrame_of_res ((congrArg (fun s => State.bounced s c (a / 2048)) (s.around_advance k n d) :).trans hb) ?_
  rw [State.spPage, he]
  exact here

theorem State.frames_takePark (s : State) (p kind baddr slots det0 det1 : Nat) (reissue fetch matFormat : Bool) :
    (s.takePark p kind baddr slots det0 det1 reissue fetch matFormat).frames = s.frames := by
  unfold State.takePark
  extract_lets t c s1 s2 s3
  have written : s3.kept = s2.kept := State.kept_vwrRun ..
  have counted : (s.pmcEvent (coreOf p) p 12 1).aside = s.aside := State.pmcEvent_aside ..
  exact (congrArg State.frames written :).trans (congrArg State.frames counted :)

/-- What ends the cycle after a slot writes no frame. -/
theorem State.frames_rest (s : State) (k : Nat) (old : Thr) (imp : Bool) : (s.rest k old imp none).frames = s.frames := by
  have before : StepsOnly k 7 s ((s.loopEnd k old).taint k imp) := (s.loopEnd_stepsOnly k old).trans (State.taint_stepsOnly ..)
  generalize hw : (s.loopEnd k old).taint k imp = w at before
  have tally := (w.count k).tally_stepsOnly k 1
  have frames : ((w.count k).tally k 1).frames = s.frames := (congrArg State.frames tally.aside :).trans (congrArg State.frames before.aside :)
  rw [State.rest, hw]
  generalize (w.count k).tally k 1 = v at frames
  rw [← frames]
  unfold State.afterCommit
  split
  · exact State.frames_takePark ..
  · dsimp only
    split <;> rfl

/-! ### The writes of a scatter (05 R143) -/

theorem getD_flatMap_blocks {n q : Nat} {g : Nat → List Byte} (hg : ∀ b, (g b).length = n) {j i : Nat} (hj : j < q) (hi : i < n) :
    ((List.range q).flatMap g).getD (n * j + i) 0 = (g j).getD i 0 := by
  have len (r : Nat) : ((List.range r).flatMap g).length = n * r := by
    simp [List.length_flatMap, hg, Nat.mul_comm]
  induction q with
  | zero => omega
  | succ q ih =>
    rw [List.range_succ, List.flatMap_append, List.flatMap_singleton, List.getD_eq_getElem?_getD, List.getD_eq_getElem?_getD]
    by_cases h : j < q
    · have inside : n * j + i < n * q := by
        calc n * j + i < n * j + n := by omega
          _ = n * (j + 1) := by rw [Nat.mul_succ]
          _ ≤ n * q := Nat.mul_le_mul_left n h
      rw [List.getElem?_append_left (by rwa [len]), ← List.getD_eq_getElem?_getD, ih h, List.getD_eq_getElem?_getD]
    · obtain rfl : j = q := by omega
      rw [List.getElem?_append_right (by rw [len]; omega), len, Nat.add_sub_cancel_left]

/-- Writes that leave a word alone leave it as it stands. -/
theorem rdBytes_foldl_out {l : List (Nat × List Byte)} {a : Nat} (h : ∀ w ∈ l, a + 4 ≤ w.1 ∨ w.1 + w.2.length ≤ a) (m : List Host.Cell) :
    rdBytes (l.foldl (fun m w => wrBytes m w.1 w.2) m) a 4 = rdBytes m a 4 := by
  induction l generalizing m with
  | nil => rfl
  | cons w r ih =>
    rw [List.foldl_cons, ih fun x hx => h x (by simp [hx]), rdBytes_wrBytes_out (h w (by simp))]

/-- The writes of a scatter to one line. -/
def scatLine (ls : List (Nat × Nat)) (line : Nat) : List (Nat × List Byte) :=
  let mine := ls.filter fun l => l.1 / 64 == line
  if (List.range 16).all fun j => mine.any fun l => l.1 == 64 * line + 4 * j then
    [(64 * line, (List.range 16).flatMap fun j =>
      bytesOf 4 (((mine.filter fun l => l.1 == 64 * line + 4 * j).getLast?.map Prod.snd).getD 0))]
  else mine.map fun l => (l.1, bytesOf 4 l.2)

theorem scatWrites_eq (ls : List (Nat × Nat)) : scatWrites ls = ((ls.map fun l => l.1 / 64).dedup).flatMap (scatLine ls) := rfl

section
variable {ls : List (Nat × Nat)} (hw : ∀ x ∈ ls, x.1 % 4 = 0)
include hw

/-- They stay within it. -/
theorem scatLine_within {line : Nat} : ∀ w ∈ scatLine ls line, 64 * line ≤ w.1 ∧ w.1 + w.2.length ≤ 64 * line + 64 := by
  intro w hmem
  unfold scatLine at hmem
  dsimp only at hmem
  split at hmem
  · rw [List.mem_singleton.mp hmem]
    simp [List.length_flatMap]
  · obtain ⟨l, hl, rfl⟩ := List.mem_map.mp hmem
    obtain ⟨hl, line⟩ := List.mem_filter.mp hl
    have := hw l hl
    simp only [beq_iff_eq] at line
    simp only [bytesOf_length]
    omega

/-- The word of the last lane that names an address stands there after the writes to its line. -/
theorem rdBytes_scatLine {p q : List (Nat × Nat)} {l : Nat × Nat} (hls : ls = p ++ l :: q) (hq : ∀ x ∈ q, x.1 ≠ l.1) (m : List Host.Cell) :
    rdBytes ((scatLine ls (l.1 / 64)).foldl (fun m w => wrBytes m w.1 w.2) m) l.1 4 = bytesOf 4 l.2 := by
  have split : (ls.filter fun x => x.1 / 64 == l.1 / 64) =
      (p.filter fun x => x.1 / 64 == l.1 / 64) ++ l :: q.filter fun x => x.1 / 64 == l.1 / 64 := by
    simp [hls]
  unfold scatLine
  dsimp only
  rw [split]
  split
  · obtain ⟨j, hj, here⟩ : ∃ j, j < 16 ∧ l.1 = 64 * (l.1 / 64) + 4 * j := ⟨l.1 % 64 / 4, by omega, by
      have := hw l (by simp [hls])
      omega⟩
    have last : ((((p.filter fun x => x.1 / 64 == l.1 / 64) ++ l :: q.filter fun x => x.1 / 64 == l.1 / 64).filter
        fun x => x.1 == 64 * (l.1 / 64) + 4 * j).getLast?.map Prod.snd).getD 0 = l.2 := by
      have none : ((q.filter fun x => x.1 / 64 == l.1 / 64).filter fun x => x.1 == l.1) = [] := by
        refine List.filter_eq_nil_iff.mpr fun x hx => ?_
        simpa using hq x (List.mem_of_mem_filter hx)
      rw [← here, List.filter_append, List.filter_cons_of_pos (by simp), none]
      simp
    rw [List.foldl_cons, List.foldl_nil]
    refine List.ext_getElem (by simp) fun i h1 h2 => ?_
    have hi : i < 4 := by simpa using h1
    have get := rdBytes_getD (wrBytes m (64 * (l.1 / 64)) ((List.range 16).flatMap fun j => bytesOf 4
      (((((p.filter fun x => x.1 / 64 == l.1 / 64) ++ l :: q.filter fun x => x.1 / 64 == l.1 / 64).filter
        fun x => x.1 == 64 * (l.1 / 64) + 4 * j).getLast?.map Prod.snd).getD 0))) l.1 4 i hi
    have blocks := getD_flatMap_blocks (n := 4) (q := 16) (g := fun j => bytesOf 4
      (((((p.filter fun x => x.1 / 64 == l.1 / 64) ++ l :: q.filter fun x => x.1 / 64 == l.1 / 64).filter
        fun x => x.1 == 64 * (l.1 / 64) + 4 * j).getLast?.map Prod.snd).getD 0)) (fun _ => bytesOf_length ..) hj hi
    have place : l.1 + i = 64 * (l.1 / 64) + (4 * j + i) := by omega
    rw [place, rdByte_wrBytes_in (by simp [List.length_flatMap]; omega), blocks, last] at get
    generalize wrBytes m (64 * (l.1 / 64)) _ = m' at get h1 ⊢
    rwa [List.getD_eq_getElem?_getD, List.getD_eq_getElem?_getD, List.getElem?_eq_getElem h1, List.getElem?_eq_getElem h2] at get
  · rw [List.map_append, List.map_cons, List.foldl_append, List.foldl_cons, rdBytes_foldl_out]
    · have := rdBytes_wrBytes_same ((List.map (fun l => (l.1, bytesOf 4 l.2)) (p.filter fun x => x.1 / 64 == l.1 / 64)).foldl
        (fun m w => wrBytes m w.1 w.2) m) l.1 (bytesOf 4 l.2)
      rwa [bytesOf_length] at this
    · intro w hmem
      obtain ⟨x, hx, rfl⟩ := List.mem_map.mp hmem
      have hx := List.mem_of_mem_filter hx
      have := hq x hx
      have := hw x (by simp [hls, hx])
      have := hw l (by simp [hls])
      simp only [bytesOf_length]
      omega

/-- Of the lanes of a scatter that name one address the highest-numbered stands. -/
theorem rdBytes_scatWrites {p q : List (Nat × Nat)} {l : Nat × Nat} (hls : ls = p ++ l :: q) (hq : ∀ x ∈ q, x.1 ≠ l.1) (m : List Host.Cell) :
    rdBytes ((scatWrites ls).foldl (fun m w => wrBytes m w.1 w.2) m) l.1 4 = bytesOf 4 l.2 := by
  have mem : l.1 / 64 ∈ (ls.map fun l => l.1 / 64).dedup := List.mem_dedup.mpr (List.mem_map.mpr ⟨l, by simp [hls], rfl⟩)
  have nodup := List.nodup_dedup (ls.map fun l => l.1 / 64)
  obtain ⟨pre, post, hlines⟩ := List.append_of_mem mem
  rw [scatWrites_eq, hlines, List.flatMap_append, List.flatMap_cons, List.foldl_append, List.foldl_append, rdBytes_foldl_out]
  · exact rdBytes_scatLine hw hls hq _
  · intro w hmem
    obtain ⟨line, hline, hmem⟩ := List.mem_flatMap.mp hmem
    have ne : line ≠ l.1 / 64 := by
      rintro rfl
      rw [hlines] at nodup
      exact (List.nodup_cons.mp (List.nodup_append.mp nodup).2.1).1 hline
    have := scatLine_within hw w hmem
    have := hw l (by simp [hls])
    omega

end

/-! ### The obligation -/

theorem tagPsn_mkTag_false (ver : Nat) : tagPsn (mkTag false ver) = false := by
  have small : ver % 4 < 4 := Nat.mod_lt _ (by decide)
  unfold mkTag
  generalize ver % 4 = n at small
  interval_cases n <;> rfl

/-- The bytes of a run that a write puts down, and no other. -/
theorem StoresAt.rdByte_in {lin : Bool} {c cl a fa lo hi d : Nat} {bs : List Byte} {v t : State} (h : StoresAt lin c cl a fa lo hi bs v d t)
    {i : Nat} (hi : i < d) : rdByte t.frames (fa + i) = bs.getD i 0 := by
  rw [h.bytes, if_pos (by omega), Nat.add_sub_cancel_left]

theorem StoresAt.rdByte_out {lin : Bool} {c cl a fa lo hi d : Nat} {bs : List Byte} {v t : State} (h : StoresAt lin c cl a fa lo hi bs v d t)
    {b : Nat} (hb : b < fa ∨ fa + d ≤ b) : rdByte t.frames b = rdByte v.frames b := by
  rw [h.bytes, if_neg (by omega)]

/-- Its own view reads the bytes of a store back. -/
theorem StoresAt.spRead {lin : Bool} {c cl a fa : Nat} {bs : List Byte} {v t : State}
    (h : StoresAt lin c cl a fa (fa / 64) ((fa + bs.length - 1) / 64) bs v bs.length t) (hpage : a % 2048 + bs.length ≤ 2048) :
    t.spRead lin c cl a bs.length = bs := by
  refine List.ext_getElem (by simp [State.spRead]) fun i h1 h2 => ?_
  have place := State.spFrame_add h.place (j := i) (by omega)
  have seen := State.viewByte_of_sees h.sees (fa := fa + i) (by omega) (by omega)
  simp only [State.spRead, List.getElem_map, List.getElem_range, place, seen, h.rdByte_in h2]
  rw [List.getD_eq_getElem?_getD, List.getElem?_eq_getElem h2, Option.getD_some]

/-- A store of 64 bytes to a poisoned line whose bytes no other view hides puts them down and clears its poison. -/
theorem State.spStore_whole {v : State} {fa : Nat} (hp : tagPsn (v.ftag fa) = true) (lin : Bool) (c a own : Nat) {bs : List Byte} (hlen : bs.length = 64)
    (sees : v.sees lin (fa / 64) (fa / 64)) :
    (v.spStore lin c a own 0 fa bs none).frames = wrBytes v.frames fa bs ∧ tagPsn ((v.spStore lin c a own 0 fa bs none).ftag fa) = false := by
  obtain ⟨w, hw⟩ : ∃ w, v.log c 3 a (agentField (own % 4096) 0 true) = w := ⟨_, rfl⟩
  have kept : w.kept = v.kept := hw ▸ v.kept_log ..
  have stored : v.spStore lin c a own 0 fa bs none =
      ((w.viewWrite lin own 0 fa bs).touchPage c a true).setViewTag lin fa (mkTag false (tagVer (v.ftag fa))) := by
    rw [State.spStore, hp, hlen, ← hw]
    rfl
  have here : w.sees lin (fa / 64) (fa / 64) := by
    rwa [State.sees, show w.unjoined = v.unjoined from (congrArg State.unjoined kept :)]
  rw [stored]
  constructor
  · exact (State.frames_viewWrite here (Nat.le_refl _) (Nat.le_refl _) own 0 bs).trans
      (congrArg (fun m => wrBytes m fa bs) (congrArg State.frames kept :))
  · rw [State.ftag, State.setViewTag, State.setFtag]
    dsimp only
    rw [getD_putD_same]
    exact tagPsn_mkTag_false _

/-- STS and STV put the bytes of their register down. -/
theorem stores_committed {u : State} {k fa a : Nat} {bs : List Byte} (hne : bs ≠ []) (hpage : a % 2048 + bs.length ≤ 2048)
    (place : u.spFrame (u.ctxOf k) (k / 32) a = some fa)
    (free : ∀ w ∈ u.unjoined, w.line < fa / 64 ∨ (fa + bs.length - 1) / 64 < w.line)
    (sound : ∀ i, i < bs.length → tagPsn (u.ftag (fa + i)) = false) :
    ∃ t, committed u k (fun v => v.spWrite true (u.ctxOf k) (k / 32) a k 0 bs none) = .next t ∧
      (∀ b, b < fa ∨ fa + bs.length ≤ b → rdByte t.frames b = rdByte u.frames b) ∧
      ∀ i, i < bs.length → rdByte t.frames (fa + i) = bs.getD i 0 := by
  refine ⟨_, rfl, ?_⟩
  have around := u.around_advance k 8 0
  have moved := State.spFrame_advance place k 8 0
  generalize u.advance k 8 0 = v at around moved ⊢
  have stored := State.spWrite_stores (lin := true) hne hpage moved rfl rfl (by
      rw [State.sees, show v.unjoined = u.unjoined from (congrArg State.unjoined around :)]
      exact fun w hw => (free w hw).imp_right .inl) (by
      intro i hi
      rw [State.ftag, show v.ftags = u.ftags from (congrArg State.ftags around :)]
      exact sound i hi) k
  have frames : v.frames = u.frames := (congrArg State.frames around :)
  rw [State.frames_rest]
  exact ⟨fun b hb => (stored.rdByte_out hb).trans (by rw [frames]), fun i hi => stored.rdByte_in hi⟩

/-- An aligned access passes the checks of its address. -/
theorem mod_of_spEarly {a : W64} {w : Nat} (h : spEarly a w = none) : a.toNat % w = 0 := by
  unfold spEarly at h
  split at h
  · cases h
  · split at h
    · cases h
    · next aligned => simpa using aligned

/-- Settles O11: line by line a store writes its own bytes. -/
theorem scratchpadStoreBytes : Obligations.ScratchpadStoreBytes := by
  unfold Obligations.ScratchpadStoreBytes
  intro plain puts
  refine ⟨?_, ?_, ?_, fun m p q l hw hq => rdBytes_scatWrites hw rfl hq m⟩
  · intro v lin c cl a own fa bs hne hpage place ⟨free, sound⟩ w
    have stored := State.spWrite_stores (lin := lin) hne hpage place rfl rfl (fun w hw => (free w hw).imp_right .inl) sound own
    exact ⟨⟨fun b hb => stored.rdByte_out hb, fun i hi => stored.rdByte_in hi⟩, stored.mem, stored.ftags, stored.spRead hpage⟩
  · intro s u k fa x e he hc place ⟨free, sound⟩
    obtain ⟨-, sts, -, stv, -⟩ := scratchpadAccess s u k
    have run : exec e.1 s = committed u k (fun v => v.spWrite true (u.ctxOf k) (k / 32)
        ((u.th k).s x.a.toNat + BitVec.ofInt 64 (x.i.toInt * e.2.length)).toNat k 0 e.2 none) ∧ e.2 ≠ [] ∧
        ((u.th k).s x.a.toNat + BitVec.ofInt 64 (x.i.toInt * e.2.length)).toNat % 2048 + e.2.length ≤ 2048 := by
      rcases List.mem_pair.mp he with rfl | rfl
      · have aligned := mod_of_spEarly (hc.clear_of (o := opSts x) rfl).chk_none
        rw [spAddr, w64_eq_ofInt] at aligned
        have len : (bytesOf 8 ((u.th k).s x.d.toNat).toNat).length = 8 := bytesOf_length ..
        refine ⟨?_, List.ne_nil_of_length_pos (by rw [len]; decide), ?_⟩
        · rw [len]
          exact sts x hc
        · rw [len]
          change ((u.th k).s x.a.toNat + BitVec.ofInt 64 (x.i.toInt * (8 : Nat))).toNat % 8 = 0 at aligned
          omega
      · have aligned := mod_of_spEarly (hc.clear_of (o := opStv x) rfl).chk_none
        rw [spAddr, w64_eq_ofInt] at aligned
        have len : (bytesOf 256 ((u.th k).vPhys ((u.th k).vName x.d.toNat)).toNat).length = 256 := bytesOf_length ..
        refine ⟨?_, List.ne_nil_of_length_pos (by rw [len]; decide), ?_⟩
        · rw [len]
          exact stv x hc
        · rw [len]
          change ((u.th k).s x.a.toNat + BitVec.ofInt 64 (x.i.toInt * (256 : Nat))).toNat % 256 = 0 at aligned
          omega
    obtain ⟨run, hne, hpage⟩ := run
    rw [run]
    exact stores_committed hne hpage place free sound
  · intro v lin c a own fa bs hp
    refine ⟨fun hlen => ?_, fun hlen _ free => ?_⟩
    · rw [State.spStore, hp]
      simp [hlen]
    · intro w
      obtain ⟨frames, tag⟩ := State.spStore_whole hp lin c a own hlen fun w hw => by have := free w hw; omega
      refine ⟨⟨fun b hb => ?_, fun i hi => ?_⟩, tag⟩
      · rw [frames, rdByte_wrBytes_out hb]
      · rw [frames, rdByte_wrBytes_in hi]

end Sys2Proof.Machine
end

section
/-! PROOFS. What reads and misses leave as it was, and the data of a load (O27). -/

namespace Sys2Proof.Machine

open Sys2Proof

/-! ### What the caches do with a read or a miss (10 R289, R290)

Copies of lines, their permissions, the links and the counts of events move; all else stays, which is one equation between the states
without those parts. -/

/-- The state without the copies of its lines, its links, the pager's records, the counts of events and the orders of pending reads. -/
def State.beyondReads (s : State) : State := { s.beyondCaches with debts := [], passed := [], pmcPend := [] }

theorem State.beyondReads_of_beyondCaches {s t : State} (h : t.beyondCaches = s.beyondCaches) : t.beyondReads = s.beyondReads :=
  congrArg (fun u : State => { u with debts := [], passed := [], pmcPend := [] }) h

theorem State.mem_of_beyondReads {s t : State} (h : t.beyondReads = s.beyondReads) : t.mem = s.mem := (congrArg State.mem h :)
theorem State.tags_of_beyondReads {s t : State} (h : t.beyondReads = s.beyondReads) : t.tags = s.tags := (congrArg State.tags h :)
theorem State.frames_of_beyondReads {s t : State} (h : t.beyondReads = s.beyondReads) : t.frames = s.frames := (congrArg State.frames h :)
theorem State.thr_of_beyondReads {s t : State} (h : t.beyondReads = s.beyondReads) : t.thr = s.thr := (congrArg State.thr h :)
theorem State.reqs_of_beyondReads {s t : State} (h : t.beyondReads = s.beyondReads) : t.reqs = s.reqs := (congrArg State.reqs h :)

theorem State.th_of_beyondReads {s t : State} (h : t.beyondReads = s.beyondReads) (k : Nat) : t.th k = s.th k := by
  rw [State.th, State.th, State.thr_of_beyondReads h]

theorem State.req?_of_beyondReads {s t : State} (h : t.beyondReads = s.beyondReads) (id : Nat) : t.req? id = s.req? id := by
  rw [State.req?, State.req?, State.reqs_of_beyondReads h]

theorem State.violates_of_beyondReads {s t : State} (h : t.beyondReads = s.beyondReads) (fw : Bool) (pa : Nat) :
    t.violates fw pa = s.violates fw pa := (congrArg (fun u => State.violates u fw pa) h :)

theorem State.tag_of_beyondReads {s t : State} (h : t.beyondReads = s.beyondReads) (pa : Nat) : t.tag pa = s.tag pa := by
  rw [State.tag, State.tag, State.tags_of_beyondReads h]

theorem State.reqIssuer_of_beyondReads {s t : State} (h : t.beyondReads = s.beyondReads) (r : Req) : t.reqIssuer r = s.reqIssuer r :=
  (congrArg (fun u => State.reqIssuer u r) h :)

theorem State.firmware_of_beyondReads {s t : State} (h : t.beyondReads = s.beyondReads) (k : Nat) : t.firmware k = s.firmware k :=
  (congrArg (fun u => State.firmware u k) h :)

section
variable (s : State)

theorem State.beyondReads_pmcEvent (core part ev n : Nat) : (s.pmcEvent core part ev n).beyondReads = s.beyondReads := by
  unfold State.pmcEvent
  split
  · rfl
  · refine forN_ind (P := fun _ (t : State) => t.beyondReads = s.beyondReads) _ rfl fun i _ t ht => ?_
    dsimp only
    split
    · exact ht
    · exact ht

theorem State.beyondCaches_dirRoom (line : Nat) : (s.dirRoom line).beyondCaches = s.beyondCaches := by
  unfold State.dirRoom
  exact State.beyondCaches_ite s rfl (State.beyondCaches_ite s rfl rfl)

theorem State.beyondCaches_modDir (line : Nat) (f : DirEnt → DirEnt) : (s.modDir line f).beyondCaches = s.beyondCaches :=
  State.beyondCaches_dirRoom s line

theorem State.beyondCaches_evictL1 (core line : Nat) : (s.evictL1 core line).beyondCaches = s.beyondCaches := by
  unfold State.evictL1
  dsimp only
  split <;> rfl

theorem State.beyondCaches_setL1 (core line : Nat) (st : Moesi) : (s.setL1 core line st).beyondCaches = s.beyondCaches := by
  unfold State.setL1
  dsimp only
  split
  · rfl
  · exact State.beyondCaches_evictL1 ..

theorem State.beyondReads_l1Fill (core part line : Nat) : (s.l1Fill core part line).beyondReads = s.beyondReads := by
  unfold State.l1Fill
  split
  · rfl
  · have sent := s.beyondCaches_othersRead line core
    dsimp only
    refine (State.beyondReads_pmcEvent ..).trans (State.beyondReads_of_beyondCaches (Eq.trans ?_ sent))
    split
    · exact (State.beyondCaches_setL1 ..).trans (State.beyondCaches_dirShare ..)
    · exact (State.beyondCaches_setL1 ..).trans (State.beyondCaches_modDir ..)

theorem State.beyondReads_performed {r : Req} (h : r.kind.releases = false) : (s.performed r).beyondReads = s.beyondReads := by
  unfold State.performed
  dsimp only
  split
  · simp [h]
  · split <;> rfl

/-- A read that meets neither a violation nor poison delivers the bytes that stand. -/
theorem State.readPiece_sound {s : State} {r : Req} {pa : Nat} (hv : s.violates (s.firmware (s.reqIssuer r)) pa = false)
    (hp : tagPsn (s.tag pa) = false) (n : Nat) :
    ∃ t, s.readPiece r pa n = (s.physBytes pa n, false, t) ∧ t.beyondReads = s.beyondReads :=
  ⟨_, by rw [State.readPiece, hv, hp]; rfl, State.beyondReads_of_beyondCaches (State.beyondCaches_othersRead ..)⟩

end

/-! ### The landing entry a request waits in (03 R93) -/

/-- An issuer's waiting entry of a request takes the value. -/
def Thr.landed (t : Thr) (id : Nat) (l : Land) : Thr :=
  { t with flight := t.flight.map fun f => if f.land == .wait id then { f with land := l } else f }

theorem getD_map_key {α : Type} {f : α → α} {d : α} (hd : f d = d) (k j : Nat) (m : Map α) :
    getD d (m.map fun e => if e.1 == k then (k, f e.2) else e) j = if j = k then f (getD d m k) else getD d m j := by
  induction m with
  | nil => simp [getD, hd]
  | cons e r ih =>
    obtain ⟨i, v⟩ := e
    rw [List.map_cons]
    by_cases hi : i = k
    · subst hi
      by_cases hj : j = i
      · simp [getD, hj]
      · simp only [beq_self_eq_true, if_true, getD, if_neg hj, if_neg (Ne.symm hj)]
        rw [ih, if_neg hj]
    · rw [if_neg (by simpa using hi), getD, getD, ih]
      by_cases hj : j = k
      · rw [if_pos hj, if_pos hj, if_neg (by rwa [hj]), if_neg hi]
      · rw [if_neg hj, if_neg hj, getD]

theorem State.th_arrive (s : State) (k id : Nat) (l : Land) (j : Nat) :
    (s.arrive k id l).th j = if j = k then (s.th k).landed id l else s.th j := by
  change getD ({} : Thr) (s.thr.map fun e => if e.1 == k then (k, e.2.landed id l) else e) j = _
  exact getD_map_key (f := fun t : Thr => t.landed id l) rfl k j s.thr

/-- What a load's data leaves behind when it has arrived: its landing entry holds the value, and its request is gone. -/
structure Lands (r : Req) (l : Land) (s t : State) : Prop where
  mem : t.mem = s.mem
  flight : (t.th r.key).flight = (s.th r.key).flight.map fun f => if f.land = .wait r.id then { f with land := l } else f
  others : ∀ q, q ≠ r.key → t.th q = s.th q
  gone : t.req? r.id = none
  frames : t.frames = s.frames

theorem State.req?_dropReq (s : State) (id : Nat) : (s.dropReq id).req? id = none := by
  rw [State.req?, State.dropReq, List.find?_eq_none]
  intro r hr
  simpa using (List.mem_filter.mp hr).2

theorem lands_arrive {s v : State} (hv : v.beyondReads = s.beyondReads) (r : Req) (l : Land) :
    Lands r l s ((v.arrive r.key r.id l).dropReq r.id) where
  mem := (State.mem_of_beyondReads hv :)
  flight := by
    have here : ((v.arrive r.key r.id l).dropReq r.id).th r.key = (v.th r.key).landed r.id l := by
      refine (State.th_arrive v r.key r.id l r.key).trans (if_pos rfl)
    rw [here, State.th_of_beyondReads hv]
    simp [Thr.landed]
  others q hq := ((State.th_arrive v r.key r.id l q).trans (if_neg hq)).trans (State.th_of_beyondReads hv q)
  gone := State.req?_dropReq ..
  frames := (State.frames_of_beyondReads hv :)

theorem Lands.of_beyondReads {r : Req} {l : Land} {s t u : State} (h : Lands r l s t) (hu : u.beyondReads = t.beyondReads) : Lands r l s u where
  mem := (State.mem_of_beyondReads hu).trans h.mem
  flight := by rw [State.th_of_beyondReads hu, h.flight]
  others q hq := (State.th_of_beyondReads hu q).trans (h.others q hq)
  gone := (State.req?_of_beyondReads hu _).trans h.gone
  frames := (State.frames_of_beyondReads hu).trans h.frames

/-! ### LOAD_DATA_ARRIVE (05 R149) -/

/-- The lines a load has read enter its core's L1, but for those it may not read. -/
theorem State.beyondReads_filled (v : State) (core part : Nat) (skip : Nat → Bool) (l : List Nat) :
    (l.foldl (fun s1 l => if skip l then s1 else s1.l1Fill core part l) v).beyondReads = v.beyondReads := by
  refine foldl_keeps (fun t : State => t.beyondReads = v.beyondReads) (fun t l ht => ?_) _ rfl
  split
  · exact ht
  · exact (State.beyondReads_l1Fill ..).trans ht

/-- The event is the arrival at the issuer, and what the caches do after it. -/
theorem exec_loadDataArrive {s : State} {id : Nat} {r : Req} (hr : s.req? id = some r) (hp : s.mayPerform r = true) :
    ∃ t, exec (.loadDataArrive id) s = .next t ∧ t.beyondReads = ((s.performed r).loadArrive r).beyondReads := by
  refine ⟨_, rfl, ?_⟩
  rw [hr]
  simp only [hp, Bool.not_true, Bool.false_eq_true, if_false]
  split
  · rfl
  · split
    · rfl
    · rfl
    · exact State.beyondReads_filled ..

/-- The next piece is one of those not read. -/
theorem pickLeft_of_lt {got : List Nat} {n : Nat} (fresh : Nat) (h : got.length < n) :
    pickLeft fresh (List.range n) got < n ∧ pickLeft fresh (List.range n) got ∉ got := by
  have some : 0 < ((List.range n).filter fun i => !got.contains i).length := by
    by_contra none
    have sub : List.range n ⊆ got := fun i hi => by
      by_contra hgot
      have : i ∈ (List.range n).filter fun i => !got.contains i := List.mem_filter.mpr ⟨hi, by simpa using hgot⟩
      exact none (List.length_pos_of_mem this)
    have := (List.nodup_range (n := n)).subperm sub |>.length_le
    simp at this
    omega
  have mem := List.getElem_mem (Nat.mod_lt (Config.pickFrame fresh) some)
  rw [pickLeft, List.getD_eq_getElem?_getD, List.getElem?_eq_getElem (Nat.mod_lt _ some), Option.getD_some]
  obtain ⟨hr, hg⟩ := List.mem_filter.mp mem
  exact ⟨List.mem_range.mp hr, by simpa using hg⟩

section
variable {s v : State} {r : Req} (hv : v.beyondReads = s.beyondReads)
include hv

/-- One more piece of a load arrives. -/
theorem loadArrive_load {pieces : List (Nat × Nat × Nat)} {got : List (Nat × List Byte)}
    {psn vec : Bool} {d ty i : Nat} {mask : BitVec 64} (hk : r.kind = .load pieces got psn d vec ty mask)
    (hi : pickLeft v.fresh (List.range pieces.length) (got.map Prod.fst) = i) (hlt : i < pieces.length)
    (sound : ∀ p ∈ pieces, s.violates (s.firmware (s.reqIssuer r)) p.2.1 = false ∧ tagPsn (s.tag p.2.1) = false) :
    let p := pieces[i]
    let all := got ++ [(i, v.physBytes p.2.1 p.2.2)]
    ∃ t : State, t.beyondReads = s.beyondReads ∧ v.loadArrive r =
      if got.length + 1 < pieces.length then t.setReq { r with kind := .load pieces all psn d vec ty mask }
      else (t.arrive r.key r.id (if vec then .v d (placed (all.map fun g => ((pieces.getD g.1 p).1, g.2))) mask psn
        else .s d (atExtend ty (ofBytes (v.physBytes p.2.1 p.2.2))) psn)).dropReq r.id := by
  intro p all
  obtain ⟨hviol, hpsn⟩ := sound p (List.getElem_mem hlt)
  obtain ⟨t, read, ht⟩ := State.readPiece_sound (s := v) (r := r) (pa := p.2.1)
    (by rw [State.violates_of_beyondReads hv, State.reqIssuer_of_beyondReads hv, State.firmware_of_beyondReads hv, hviol])
    (by rw [State.tag_of_beyondReads hv, hpsn]) p.2.2
  refine ⟨{ t with fresh := t.fresh + 1 }, (ht :).trans hv, ?_⟩
  have hp : pieces[i]? = some p := List.getElem?_eq_getElem hlt
  unfold State.loadArrive
  rw [hk]
  dsimp only
  rw [hi, hp]
  dsimp only
  rw [read]
  dsimp only
  rw [List.length_append, List.length_singleton, Bool.or_false]

/-- A line's tag arrives. -/
theorem loadArrive_ltag {pa d : Nat} {tens : Option Nat} (hk : r.kind = .ltag pa tens d)
    (hviol : s.violates (s.firmware (s.reqIssuer r)) pa = false) :
    ∃ t : State, t.beyondReads = s.beyondReads ∧ v.loadArrive r =
      (t.arrive r.key r.id (.s d (BitVec.ofNat 64 ((s.tag pa).toNat + match tens with
        | none => 0
        | some i => 16 + 32 * i)) false)).dropReq r.id := by
  have hviol : v.violates (v.firmware (v.reqIssuer r)) pa = false := by
    rw [State.violates_of_beyondReads hv, State.reqIssuer_of_beyondReads hv, State.firmware_of_beyondReads hv, hviol]
  refine ⟨v.othersRead (pa / 64) (v.tcore (v.reqIssuer r)),
    (State.beyondReads_of_beyondCaches (State.beyondCaches_othersRead ..)).trans hv, ?_⟩
  obtain ⟨id, key, agent, acc, ctx, vpage, tracked, kind⟩ := r
  obtain rfl : kind = .ltag pa tens d := hk
  unfold State.loadArrive
  dsimp only
  rw [hviol, State.tag_of_beyondReads hv]
  cases tens <;> rfl

/-- A converting read of one line, and of the scale line beside it. -/
theorem readConv_sound {tens base size pa : Nat} (hviol : s.violates (s.firmware (s.reqIssuer r)) pa = false)
    (hpsn : tagPsn (s.tag pa) = false)
    (scale : ∀ a, v.scaleLine r.ctx tens base size pa = some a →
      s.violates (s.firmware (s.reqIssuer r)) a = false ∧ tagPsn (s.tag a) = false) :
    ∃ t : State, t.beyondReads = s.beyondReads ∧ v.readConv r tens base size pa = (false, t) := by
  have sound {w : State} (hw : w.beyondReads = s.beyondReads) {a n : Nat} (h : s.violates (s.firmware (s.reqIssuer r)) a = false ∧
      tagPsn (s.tag a) = false) : ∃ t : State, w.readPiece r a n = (w.physBytes a n, false, t) ∧ t.beyondReads = w.beyondReads :=
    State.readPiece_sound
      (by rw [State.violates_of_beyondReads hw, State.reqIssuer_of_beyondReads hw, State.firmware_of_beyondReads hw, h.1])
      (by rw [State.tag_of_beyondReads hw, h.2]) n
  obtain ⟨t, read, ht⟩ := sound hv (n := 64) ⟨hviol, hpsn⟩
  have ht := ht.trans hv
  unfold State.readConv
  rw [read]
  dsimp only
  cases hs : v.scaleLine r.ctx tens base size pa with
  | none => exact ⟨t, ht, rfl⟩
  | some a =>
    obtain ⟨u, read2, hu⟩ := sound ht (n := 4) (scale a hs)
    exact ⟨u, hu.trans ht, by dsimp only; rw [read2]; rfl⟩

/-- The one line of a converting load arrives. -/
theorem loadArrive_conv {line tens base size d : Nat} {psn : Bool} (hk : r.kind = .conv line 1 tens base size [] psn d)
    (hviol : s.violates (s.firmware (s.reqIssuer r)) line = false) (hpsn : tagPsn (s.tag line) = false)
    (scale : ∀ a, v.scaleLine r.ctx tens base size line = some a →
      s.violates (s.firmware (s.reqIssuer r)) a = false ∧ tagPsn (s.tag a) = false) :
    ∃ t : State, t.beyondReads = s.beyondReads ∧ v.loadArrive r =
      (t.arrive r.key r.id (.v d (vOfLanes (if v.recGeo r.ctx tens = 3 then 16 else 32) (v.convLanes r.ctx tens base size line))
        (BitVec.allOnes 64) psn)).dropReq r.id := by
  obtain ⟨t, ht, read⟩ := readConv_sound hv hviol hpsn scale
  have hgeo : t.recGeo r.ctx tens = t.recGeo r.ctx tens := rfl
  refine ⟨{ t with fresh := t.fresh + 1 }, ht, ?_⟩
  have first : pickLeft v.fresh (List.range 1) (([] : List (Nat × List Nat)).map Prod.fst) = 0 := by
    simp [pickLeft, Nat.mod_one]
  unfold State.loadArrive
  rw [hk]
  dsimp only
  rw [first, Nat.mul_zero, Nat.add_zero, read]
  simp

/-- A line of a bank arrives. -/
theorem loadArrive_acld {x i pa fmt : Nat} (hk : r.kind = .acld x i pa fmt none)
    (hviol : s.violates (s.firmware (s.reqIssuer r)) pa = false) (hpsn : tagPsn (s.tag pa) = false) :
    ∃ t : State, t.beyondReads = s.beyondReads ∧ v.loadArrive r =
      (t.modTh r.key fun th => { th with xfers := th.xfers.map fun y =>
        if y.cmd == x then { y with got := y.got ++ [(i, v.acldLanes r.ctx pa fmt none)] } else y }).dropReq r.id := by
  obtain ⟨t, read, ht⟩ := State.readPiece_sound (s := v) (r := r) (pa := pa)
    (by rw [State.violates_of_beyondReads hv, State.reqIssuer_of_beyondReads hv, State.firmware_of_beyondReads hv, hviol])
    (by rw [State.tag_of_beyondReads hv, hpsn]) 64
  refine ⟨t, ht.trans hv, ?_⟩
  unfold State.loadArrive
  rw [hk]
  dsimp only
  rw [read]
  simp only [Bool.or_false]

end

/-- Putting a read off leaves the memory it reads as it was. -/
theorem State.performed_reads (s : State) {r : Req} (h : r.kind.releases = false) :
    (s.performed r).beyondReads = s.beyondReads ∧ (∀ pa n, (s.performed r).physBytes pa n = s.physBytes pa n) ∧
    (∀ c i, (s.performed r).recGeo c i = s.recGeo c i) ∧
    (∀ c i b n pa, (s.performed r).convLanes c i b n pa = s.convLanes c i b n pa) ∧
    (∀ c i b n pa, (s.performed r).scaleLine c i b n pa = s.scaleLine c i b n pa) ∧
    (∀ c pa f, (s.performed r).acldLanes c pa f none = s.acldLanes c pa f none) := by
  refine ⟨State.beyondReads_performed s h, ?_⟩
  unfold State.performed
  dsimp only
  split
  · simp [h]
  · split
    · simp
    · exact ⟨fun _ _ => rfl, fun _ _ => rfl, fun _ _ _ _ _ => rfl, fun _ _ _ _ _ => rfl, fun _ _ _ => rfl⟩

theorem State.req?_setReq {s : State} {id : Nat} {r q : Req} (hr : s.req? id = some r) (hq : q.id = r.id) :
    (s.setReq q).req? id = some q := by
  have hid : r.id = id := by simpa using List.find?_some hr
  rw [State.req?] at hr ⊢
  rw [State.setReq]
  dsimp only
  rw [List.find?_map]
  have same : ((fun x : Req => x.id == id) ∘ fun x : Req => if x.id == q.id then q else x) = fun x => x.id == id := by
    funext x
    simp only [Function.comp_apply]
    split
    · next h =>
      rw [hq, hid] at h
      rw [h, hq, hid, beq_self_eq_true]
    · rfl
  rw [same, hr, Option.map_some, hq, beq_self_eq_true, if_pos rfl]

/-- Settles O27. -/
theorem loadDataArrives : Obligations.LoadDataArrives := by
  intro s id r hr lands sound
  have landing {l : Land} {t u : State} {r' : Req} (hid : r'.id = id) (hkey : r'.key = r.key) (h : Lands r' l s u)
      (ht : t.beyondReads = u.beyondReads) : t.mem = s.mem ∧ lands t l := by
    obtain ⟨mem, flight, others, gone, frames⟩ := h.of_beyondReads ht
    rw [hid] at flight gone
    rw [hkey] at flight others
    exact ⟨mem, flight, others, gone, frames⟩
  refine ⟨fun hp => ?_, fun hp hid => ⟨?_, ?_, ?_, ?_, ?_⟩⟩
  · change execLoadDataArrive id s = _
    rw [execLoadDataArrive, hr]
    simp [hp]
  · intro off pa n psn d vec ty mask hk _ hs
    obtain ⟨t, run, ht⟩ := exec_loadDataArrive hr hp
    obtain ⟨same, bytes, -⟩ := s.performed_reads (r := r) (by rw [hk]; rfl)
    obtain ⟨u, hu, arrived⟩ := loadArrive_load same hk (i := 0) (by simp [pickLeft, Nat.mod_one]) (by simp) (by simpa using hs)
    rw [if_neg (by simp)] at arrived
    refine ⟨t, run, landing hid rfl (lands_arrive hu r _) ?_⟩
    rw [ht, arrived]
    simp [bytes]
  · intro pieces got psn d vec ty mask hk hlt hgot hs
    obtain ⟨t, run, ht⟩ := exec_loadDataArrive hr hp
    obtain ⟨same, bytes, -⟩ := s.performed_reads (r := r) (by rw [hk]; rfl)
    obtain ⟨hi, hnew⟩ := pickLeft_of_lt (got := got.map Prod.fst) (s.performed r).fresh (by simpa using hlt)
    obtain ⟨i, hpick⟩ : ∃ i, pickLeft (s.performed r).fresh (List.range pieces.length) (got.map Prod.fst) = i := ⟨_, rfl⟩
    rw [hpick] at hi hnew
    obtain ⟨u, hu, arrived⟩ := loadArrive_load same hk hpick hi hs
    have piece : pieces.getD i (0, 0, 0) = pieces[i] := by rw [List.getD_eq_getElem?_getD, List.getElem?_eq_getElem hi, Option.getD_some]
    refine ⟨t, i, run, hi, hnew, ?_⟩
    rw [piece]
    simp only [bytes] at arrived
    by_cases more : got.length + 1 < pieces.length
    · rw [if_pos more] at arrived
      rw [arrived] at ht
      refine ⟨(State.mem_of_beyondReads ht).trans (State.mem_of_beyondReads hu :), fun _ => ⟨?_, ?_⟩, fun last => by omega⟩
      · rw [State.req?_of_beyondReads ht]
        exact State.req?_setReq (r := r) (by rw [State.req?_of_beyondReads hu, hr]) rfl
      · exact (State.thr_of_beyondReads ht).trans (State.thr_of_beyondReads hu :)
    · rw [if_neg more] at arrived
      rw [arrived] at ht
      have landed := landing hid rfl (lands_arrive hu r _) ht
      refine ⟨landed.1, fun h => absurd h more, fun _ hvec _ => ?_⟩
      have places : (got ++ [(i, s.physBytes pieces[i].2.1 pieces[i].2.2)]).map (fun g => ((pieces.getD g.1 pieces[i]).1, g.2)) =
          (got ++ [(i, s.physBytes pieces[i].2.1 pieces[i].2.2)]).map fun g => ((pieces.getD g.1 (0, 0, 0)).1, g.2) := by
        refine List.map_congr_left fun g hg => ?_
        have inside : g.1 < pieces.length := by
          rcases List.mem_append.mp hg with hg | hg
          · exact hgot g hg
          · rwa [List.mem_singleton.mp hg]
        simp only [List.getD_eq_getElem?_getD, List.getElem?_eq_getElem inside, Option.getD_some]
      have := landed.2
      rw [if_pos hvec, places] at this
      exact this
  · intro pa tens d hk _ hviol
    obtain ⟨t, run, ht⟩ := exec_loadDataArrive hr hp
    obtain ⟨same, -⟩ := s.performed_reads (r := r) (by rw [hk]; rfl)
    obtain ⟨u, hu, arrived⟩ := loadArrive_ltag same hk hviol
    exact ⟨t, run, landing hid rfl (lands_arrive hu r _) (by rw [ht, arrived]; cases tens <;> rfl)⟩
  · intro line tens base size psn d hk _ hs scale
    obtain ⟨t, run, ht⟩ := exec_loadDataArrive hr hp
    obtain ⟨same, -, geo, lanes, line', -⟩ := s.performed_reads (r := r) (by rw [hk]; rfl)
    obtain ⟨u, hu, arrived⟩ := loadArrive_conv same hk hs.1 hs.2 (by rwa [line'])
    rw [geo, lanes] at arrived
    exact ⟨t, run, landing hid rfl (lands_arrive hu r _) (by rw [ht, arrived])⟩
  · intro x i pa fmt hk hs
    obtain ⟨t, run, ht⟩ := exec_loadDataArrive hr hp
    obtain ⟨same, -, -, -, -, lanes⟩ := s.performed_reads (r := r) (by rw [hk]; rfl)
    obtain ⟨u, hu, arrived⟩ := loadArrive_acld same hk hs.1 hs.2
    rw [lanes] at arrived
    rw [arrived] at ht
    refine ⟨t, run, (State.mem_of_beyondReads ht).trans (State.mem_of_beyondReads hu :), ?_, ?_⟩
    · rw [State.req?_of_beyondReads ht, ← hid]
      exact State.req?_dropReq ..
    · rw [State.th_of_beyondReads ht]
      rw [show ∀ w : State, (w.dropReq r.id).th r.key = w.th r.key from fun _ => rfl, State.th_modTh_same, State.th_of_beyondReads hu]
      simp

end Sys2Proof.Machine
end

section
/-! PROOFS. The permissions of L1 lines (O30). -/

namespace Sys2Proof.Machine

open Sys2Proof

/-! ### The permissions of L1 lines (10 R289, R290) -/

section
variable (s : State) (core line : Nat)

theorem State.l1State_putL1 (st : Moesi) : (s.putL1 core line st).l1State core line = st := by
  have rest : (s.l1.filter fun e => !(e.1 == core && e.2.1 == line)).find? (fun e => e.1 == core && e.2.1 == line) = none := by
    rw [List.find?_eq_none]
    intro e he
    have := (List.mem_filter.mp he).2
    simp only [Bool.not_eq_true'] at this
    rw [this]
    decide
  unfold State.putL1 State.l1State
  dsimp only
  by_cases hst : st = .i
  · rw [if_pos hst, rest, hst]
  · rw [if_neg hst, List.find?_append, rest]
    simp

theorem State.l1State_setL1 (st : Moesi) : (s.setL1 core line st).l1State core line = st := by
  unfold State.setL1
  dsimp only
  split <;> exact State.l1State_putL1 ..

theorem State.mem_l1_evictL1 {e : Nat × Nat × Moesi} (h : e ∈ (s.evictL1 core line).l1) : e ∈ s.l1 := by
  unfold State.evictL1 at h
  dsimp only at h
  split at h
  · exact h
  all_goals exact List.mem_of_mem_filter h

theorem State.mem_l1_setL1 {st : Moesi} {e : Nat × Nat × Moesi} (h : e ∈ (s.setL1 core line st).l1) :
    e ∈ s.l1 ∨ e = (core, line, st) := by
  have put (t : State) (h : e ∈ (t.putL1 core line st).l1) : e ∈ t.l1 ∨ e = (core, line, st) := by
    unfold State.putL1 at h
    dsimp only at h
    split at h
    · exact .inl (List.mem_of_mem_filter h)
    · rcases List.mem_append.mp h with h | h
      · exact .inl (List.mem_of_mem_filter h)
      · exact .inr (List.mem_singleton.mp h)
  unfold State.setL1 at h
  dsimp only at h
  split at h
  · exact put s h
  · rcases put _ h with h | h
    · exact .inl (State.mem_l1_evictL1 _ _ _ h :)
    · exact .inr h

theorem State.hostLines_evictL1 : (s.evictL1 core line).hostLines = s.hostLines := by
  unfold State.evictL1
  dsimp only
  split <;> rfl

theorem State.hostLines_setL1 (st : Moesi) : (s.setL1 core line st).hostLines = s.hostLines := by
  unfold State.setL1
  dsimp only
  split
  · rfl
  · exact State.hostLines_evictL1 ..

theorem State.copies_modDir (f : DirEnt → DirEnt) :
    (∀ e ∈ (s.modDir line f).l1, e ∈ s.l1) ∧ ∀ e ∈ (s.modDir line f).hostLines, e ∈ s.hostLines := by
  unfold State.modDir State.dirRoom
  split
  · exact ⟨fun _ h => h, fun _ h => h⟩
  · dsimp only
    split
    · exact ⟨fun _ h => h, fun _ h => h⟩
    · exact ⟨fun _ h => List.mem_of_mem_filter h, fun _ h => List.mem_of_mem_filter h⟩

theorem State.copies_invalidate : (∀ e ∈ (s.invalidate line).l1, e.2.1 ≠ line) ∧ ∀ e ∈ (s.invalidate line).hostLines, e.1 ≠ line :=
  ⟨fun e h => by simpa using (List.mem_filter.mp h).2, fun e h => by simpa using (List.mem_filter.mp h).2⟩

theorem State.pmcEvent_l1State (part ev n : Nat) : (s.pmcEvent core part ev n).l1State = s.l1State := by
  unfold State.pmcEvent
  split
  · rfl
  · refine forN_ind (P := fun _ (t : State) => t.l1State = s.l1State) _ rfl fun i _ t ht => ?_
    dsimp only
    split
    · exact ht
    · exact ht

/-- A store takes the line to M, and every other copy of it goes. -/
theorem State.l1_own (s : State) (core line : Nat) :
    let t := ((((s.putL1 core line .i).invalidate line).modDir line fun _ => { st := .exclusive, owner := core }).setL1 core line .m)
    t.l1State core line = .m ∧ (∀ e ∈ t.l1, e.2.1 = line → e.1 = core) ∧ (∀ e ∈ t.hostLines, e.1 ≠ line) ∧ t.beyondCaches = s.beyondCaches := by
  intro t
  have gone := (s.putL1 core line .i).copies_invalidate line
  have moved := ((s.putL1 core line .i).invalidate line).copies_modDir line fun _ => { st := .exclusive, owner := core }
  refine ⟨State.l1State_setL1 .., fun e he hline => ?_, fun e he => ?_, ?_⟩
  · rcases State.mem_l1_setL1 _ _ _ he with he | rfl
    · exact absurd hline (gone.1 e (moved.1 e he))
    · rfl
  · have he : e ∈ ((((s.putL1 core line .i).invalidate line).modDir line fun _ => { st := .exclusive, owner := core })).hostLines := by
      rw [← State.hostLines_setL1 _ core line .m]
      exact he
    exact gone.2 e (moved.2 e he)
  · exact (State.beyondCaches_setL1 ..).trans (State.beyondCaches_modDir ..)

theorem State.beyondReads_l1Own (part : Nat) : (s.l1Own core part line).beyondReads = s.beyondReads := by
  unfold State.l1Own
  split
  · rfl
  · split
    · rfl
    · rfl
    · dsimp only
      refine (State.beyondReads_of_beyondCaches (State.l1_own _ core line).2.2.2).trans ?_
      split
      · exact State.beyondReads_pmcEvent ..
      · rfl

end

/-- Settles O30. -/
theorem cacheStates : Obligations.CacheStates := by
  intro s core line hcore hline
  have free (hw : s.watched line = false) : ¬(384 ≤ core ∨ s.watched line ∨ physClass (line * 64) = .control ∨ physClass (line * 64) = .reserved) := by
    simp [hline, hw]
    omega
  refine ⟨fun r hr hi => ?_, fun r hr hw hi => ?_, fun r hr hw hi => ?_, fun hw => ?_, ?_, ?_⟩
  · refine ⟨s.l1Fill core (partOf r.key) line, ?_, ?_, State.mem_of_beyondReads (State.beyondReads_l1Fill ..)⟩
    · change execL1LoadMiss core line s = _
      rw [execL1LoadMiss, hr]
    · unfold State.l1Fill
      rw [if_neg (by simp [hline, hi]; omega)]
      dsimp only
      rw [State.pmcEvent_l1State]
      split <;> exact State.l1State_setL1 ..
  · refine ⟨s.l1Own core (partOf r.key) line, ?_, ?_⟩
    · change execL1StoreMiss core line s = _
      rw [execL1StoreMiss, hr]
      simp [hi]
    · unfold State.l1Own
      rw [if_neg (free hw), hi]
      dsimp only
      rw [if_pos rfl]
      obtain ⟨m, l1, host, kept⟩ := (s.pmcEvent core (partOf r.key) 7 1).l1_own core line
      exact ⟨m, l1, host, (State.mem_of_beyondCaches kept).trans (State.mem_of_beyondReads (State.beyondReads_pmcEvent ..))⟩
  · refine ⟨s.l1Own core (partOf r.key) line, ?_, ?_⟩
    · change execL1Upgrade core line s = _
      rw [execL1Upgrade, hr]
      simp [hi]
    · refine and_assoc.mp ⟨?_, State.mem_of_beyondReads (State.beyondReads_l1Own ..)⟩
      unfold State.l1Own
      rw [if_neg (free hw)]
      cases hst : s.l1State core line with
      | m => exact ⟨hst, fun h => by simp at h⟩
      | e => exact ⟨State.l1State_putL1 .., fun h => by simp at h⟩
      | i => exact absurd hst hi
      | s | o =>
        obtain ⟨m, l1, -⟩ := s.l1_own core line
        exact ⟨m, fun _ => l1⟩
  · have same (part : Nat) : s.l1Own core part line = s := by
      unfold State.l1Own
      rw [if_pos (by simp [hw])]
    constructor
    · change execL1StoreMiss core line s = _
      rw [execL1StoreMiss]
      split
      · rw [same, ite_self]
      · rfl
    · change execL1Upgrade core line s = _
      rw [execL1Upgrade]
      split
      · rw [same, ite_self]
      · rfl
  · have kept := s.beyondCaches_evictL1 core line
    refine ⟨_, rfl, ?_, State.mem_of_beyondCaches kept, (congrArg State.tags kept :)⟩
    unfold State.evictL1
    dsimp only
    split
    · assumption
    all_goals exact State.l1State_putL1 s core line .i
  · exact ⟨_, rfl, (s.copies_invalidate line).1, (s.copies_invalidate line).2, rfl⟩

end Sys2Proof.Machine
end

section
/-! PROOFS. Stores and atomics at their home (O28, O29). -/

namespace Sys2Proof.Machine

open Sys2Proof

/-! ### A write of a line that counts a version (09 R266, R267) -/

theorem mem_putK {α : Type} {m : Map α} {k : Nat} {v : α} {e : Nat × α} (h : e ∈ putK m k v) : e ∈ m ∨ e = (k, v) := by
  induction m with
  | nil => exact .inr (List.mem_singleton.mp h)
  | cons x r ih =>
    unfold putK at h
    split at h
    · exact (List.mem_cons.mp h).symm
    · split at h
      · exact (List.mem_cons.mp h).symm.imp_left (List.mem_cons_of_mem _)
      · rcases List.mem_cons.mp h with rfl | h
        · exact .inl List.mem_cons_self
        · exact (ih h).imp_left (List.mem_cons_of_mem _)

/-- A delta none of whose fields is full is none after a change of LIVE that stays below. -/
theorem Delta.full_live {d : Delta} (h : d.full = false) {l : Map Int} (hl : ∀ e ∈ l, e ∈ d.live ∨ e.2.natAbs < 2 ^ 15) :
    ({ d with live := l } : Delta).full = false := by
  unfold Delta.full at h ⊢
  simp only [Bool.or_eq_false_iff] at h ⊢
  refine ⟨h.1, List.any_eq_false.mpr fun e he => ?_⟩
  rcases hl e he with he | small
  · exact List.any_eq_false.mp h.2 e he
  · simpa using small

/-- A delta with room for one more count of a version takes it. -/
theorem State.liveMove_of_room {s : State} {core c : Nat} {bound : Option (Nat × Nat × Nat)} {pa old new_ : Nat}
    (h : ∀ i b n, bound = some (i, b, n) → new_ = old ∨ s.deltaRoom core c i) :
    ∃ l, s.liveMove core c bound pa old new_ = { s with deltas := l } := by
  unfold State.liveMove
  cases bound with
  | none => exact ⟨_, rfl⟩
  | some b =>
    obtain ⟨i, base, size⟩ := b
    dsimp only
    split
    · exact ⟨_, rfl⟩
    · next moves =>
      have ne : old ≠ new_ := fun h => moves (by simp [h])
      obtain ⟨listed, room, count⟩ := (h i base size rfl).resolve_left (Ne.symm ne)
      unfold State.modDelta
      dsimp only
      rw [if_neg (by simpa using listed), if_neg]
      · exact ⟨_, rfl⟩
      · refine Bool.eq_false_iff.mp (Delta.full_live room fun e he => ?_)
        rcases mem_putK he with he | rfl
        · refine (mem_putK he).imp_right ?_
          rintro rfl
          have := count old
          dsimp only
          omega
        · refine .inr ?_
          have := count new_
          rw [getD_putK, if_neg (Ne.symm ne)]
          dsimp only
          omega

theorem State.deltaRoom_congr {s t : State} {core c i : Nat} (hc : t.cached = s.cached) (hd : t.deltas = s.deltas) (hg : t.gcyc = s.gcyc)
    (h : s.deltaRoom core c i) : t.deltaRoom core c i := by
  have delta : t.delta core c i = s.delta core c i := by rw [State.delta, State.delta, hd, hg]
  rwa [State.deltaRoom, hc, delta]

/-! ### A request performs at its home (10 R291, R293) -/

theorem State.performed_eq (s : State) (r : Req) : ∃ d p, s.performed r = { s with debts := d, passed := p } := by
  unfold State.performed
  dsimp only
  split
  · split <;> exact ⟨_, _, rfl⟩
  · split <;> exact ⟨_, _, rfl⟩

theorem State.beyondCaches_pageAfresh (s : State) (key : Nat) : (s.pageAfresh key).beyondCaches = s.beyondCaches := by
  unfold State.pageAfresh
  rfl

theorem State.beyondCaches_performEntry (s : State) (r : Req) : (s.performEntry r).beyondCaches = (s.performReq r).beyondCaches := by
  unfold State.performEntry
  generalize s.performReq r = t
  exact State.beyondCaches_foldl t (f := fun (s : State) (p : Nat × Nat) => s.pageAfresh (pageKey p.1 p.2)) (fun _ _ => State.beyondCaches_pageAfresh ..) _

/-- A store to HBM performs, whatever its core's caches then do. -/
theorem State.beyondReads_performWrite {s : State} {r : Req} {pa : Nat} {bs : List Byte} (hc : s.toCtl r pa = false) (clear : s.clear r = true) :
    (s.performWrite r pa bs).beyondReads = (s.performReq r).beyondReads := by
  have entry := State.beyondReads_of_beyondCaches (s.beyondCaches_performEntry r)
  unfold State.performWrite
  rw [hc, clear]
  simp only [Bool.false_eq_true, if_false, Bool.not_true]
  split
  · split
    · exact entry
    · exact (State.beyondReads_l1Own ..).trans entry
  · exact entry

/-- A store to an unprotected line of HBM that is not poisoned writes its bytes and the line's tag. -/
theorem State.performStore_plain {s : State} {r : Req} {pa : Nat} {bs : List Byte} {ver : Option Nat} {bound : Option (Nat × Nat × Nat)}
    (hpa : physClass pa = .hbm) (free : s.protectedKind pa = none) (sound : tagPsn (s.tag pa) = false) (hkey : r.key ≠ partKey)
    (room : ∀ i b n, bound = some (i, b, n) → ver.getD (tagVer (s.tag pa)) = tagVer (s.tag pa) ∨ s.deltaRoom (s.reqCore r) r.ctx i) :
    let t := s.performStore r pa bs ver false bound
    t.mem = wrBytes s.mem pa bs ∧ t.tag pa = mkTag false (ver.getD (tagVer (s.tag pa))) ∧ t.frames = s.frames ∧ t.reqs = s.reqs := by
  intro t
  have stored : t = (s.dropRelease pa bs.length).putLine (s.reqCore r) r.ctx pa bs ver false bound (s.ownTask (s.reqIssuer r) r.id) := by
    have hv : s.violates (s.firmware (s.reqIssuer r)) pa = false := by rw [State.violates, hpa]
    change s.performStore r pa bs ver false bound = _
    unfold State.performStore
    rw [if_neg hkey, hv, free, sound]
    simp [hpa]
  obtain ⟨l, moved⟩ := State.liveMove_of_room (pa := pa)
    (s := ((s.dropRelease pa bs.length).homeWrite pa bs (s.ownTask (s.reqIssuer r) r.id)).setTag pa (mkTag false (ver.getD (tagVer (s.tag pa)))))
    (core := s.reqCore r) (c := r.ctx) (bound := bound) (old := tagVer (s.tag pa)) (new_ := ver.getD (tagVer (s.tag pa))) (by
      intro i b n hb
      refine (room i b n hb).imp_right fun h => ?_
      exact State.deltaRoom_congr (State.homeWrite_cached ..) (State.homeWrite_deltas ..) (State.homeWrite_gcyc ..) h)
  have full : t = { ((s.dropRelease pa bs.length).homeWrite pa bs (s.ownTask (s.reqIssuer r) r.id)).setTag pa
      (mkTag false (ver.getD (tagVer (s.tag pa)))) with deltas := l } := stored.trans moved
  rw [full]
  refine ⟨?_, ?_, ?_, ?_⟩
  · exact State.mem_homeWrite ..
  · simp [State.tag, State.setTag]
  · exact State.homeWrite_frames ..
  · exact State.homeWrite_reqs ..

theorem State.req?_id {s : State} {id : Nat} {r : Req} (h : s.req? id = some r) : r.id = id := by
  simpa using List.find?_some h

/-- Settles O28. -/
theorem storePerforms : Obligations.StorePerforms := by
  constructor
  · intro s id pa bs ver r bound hr hp ho hc hk hline hpa free sound hkey room
    have hid := State.req?_id hr
    have run : exec (.homeWritePerform id) s = .next (s.performWrite r pa bs) := by
      change execHomeWritePerform id s = _
      rw [execHomeWritePerform, hr]
      obtain ⟨_, key, agent, acc, ctx, vpage, tracked, kind⟩ := r
      obtain rfl : kind = _ := hk
      simp [State.inOrder, hp, ho]
    have same := State.beyondReads_performWrite (bs := bs) (show s.toCtl r pa = false by simp [State.toCtl, hpa]) hc
    obtain ⟨d, p, performed⟩ := s.performed_eq r
    obtain ⟨mem, tag, frames, reqs⟩ := State.performStore_plain (s := s.performed r) (bs := bs) (ver := ver) (bound := bound) hpa
      (by rw [performed]; exact free) (by rw [performed]; exact sound) hkey (by rw [performed]; exact room)
    have stored : s.performReq r = { ((s.performed r).performStore r pa bs ver false bound).dropReq r.id with
        shoot := ((s.performed r).performStore r pa bs ver false bound).shoot.filter fun e => e.1 != r.id
        shootDone := ((s.performed r).performStore r pa bs ver false bound).shootDone.filter fun e => e.1 != r.id } := by
      unfold State.performReq
      rw [hk]
      rfl
    rw [stored] at same
    have smem : (s.performWrite r pa bs).mem = wrBytes s.mem pa bs := (State.mem_of_beyondReads same).trans (mem.trans (by rw [performed]))
    refine ⟨_, run, fun i hi => ?_, fun a ha => ?_, ?_, fun q hq => ?_, ?_⟩
    · rw [smem, rdByte_wrBytes_in hi]
    · rw [smem, rdByte_wrBytes_out ha]
    · rw [State.tag_of_beyondReads same]
      exact tag.trans (by rw [performed]; rfl)
    · rw [State.reqs_of_beyondReads same] at hq
      simpa [hid] using (List.mem_filter.mp hq).2
    · exact (State.frames_of_beyondReads same).trans (frames.trans (by rw [performed]))
  · intro s r pa bs ver bound hpa free psn hlen hkey
    have hv : s.violates (s.firmware (s.reqIssuer r)) pa = false := by rw [State.violates, hpa]
    unfold State.performStore
    rw [if_neg (show ¬r.key = partKey from hkey), hv, free, psn]
    simp [hpa, hlen]

/-- What carries a release to an acquire: signals, and the knowledge of unjoined writes (10 R305, R306). -/
theorem State.signal_keeps (s : State) (obj : List Nat) (k id : Nat) : (s.signal obj k id).mem = s.mem ∧ (s.signal obj k id).thr = s.thr := by
  unfold State.signal
  split <;> exact ⟨rfl, rfl⟩

theorem State.receive_keeps (s : State) (k : Nat) (p : Signal → Bool) : (s.receive k p).mem = s.mem ∧ (s.receive k p).thr = s.thr := by
  unfold State.receive
  dsimp only
  split <;> exact ⟨rfl, rfl⟩

/-- What an atomic at an unprotected line of HBM leaves, before its old value returns. -/
theorem State.performAtomic_plain {s : State} {r : Req} {op : AtomicOp} {ty pa d : Nat} {b c : W64}
    (hpa : physClass pa = .hbm) (free : s.protectedKind pa = none) (sound : tagPsn (s.tag pa) = false) :
    ∃ v : State, s.performAtomic r op ty pa b c (some d) = v.arrive r.key r.id (.s d (atExtend ty (ofBytes (rdBytes s.mem pa (atWidth ty)))) false) ∧
      v.mem = (if op = .ld then s.mem else wrBytes s.mem pa (bytesOf (atWidth ty) (atomicNew op ty (8 * atWidth ty)
        (ofBytes (rdBytes s.mem pa (atWidth ty))) (b.toNat % 2 ^ (8 * atWidth ty)) (c.toNat % 2 ^ (8 * atWidth ty))))) ∧
      ∀ k, (v.th k).flight = (s.th k).flight := by
  have hv : s.violates (s.firmware (s.reqIssuer r)) pa = false := by rw [State.violates, hpa]
  have bytes : s.physBytes pa (atWidth ty) = rdBytes s.mem pa (atWidth ty) := by rw [State.physBytes, if_neg (by rw [hpa]; decide)]
  obtain ⟨w, hw, wmem, wthr⟩ : ∃ w : State, (if r.kind.acquires then (if r.kind.releases then s.signal [6, pa, r.kind.scope] r.key r.id else s).hearRelease
      r.key pa r.kind.scope else if r.kind.releases then s.signal [6, pa, r.kind.scope] r.key r.id else s) = w ∧ w.mem = s.mem ∧ w.thr = s.thr := by
    refine ⟨_, rfl, ?_⟩
    have told : (if r.kind.releases then s.signal [6, pa, r.kind.scope] r.key r.id else s).mem = s.mem ∧
        (if r.kind.releases then s.signal [6, pa, r.kind.scope] r.key r.id else s).thr = s.thr := by
      split
      · exact State.signal_keeps ..
      · exact ⟨rfl, rfl⟩
    generalize (if r.kind.releases then s.signal [6, pa, r.kind.scope] r.key r.id else s) = u at told
    split
    · obtain ⟨mem, thr⟩ := u.receive_keeps r.key _
      exact ⟨mem.trans told.1, thr.trans told.2⟩
    · exact told
  have flight {v : State} (h : v.kept = w.kept) (k : Nat) : (v.th k).flight = (s.th k).flight := by
    have same : w.th k = s.th k := by rw [State.th, State.th, wthr]
    rw [← same]
    exact (congrArg Thr.flight (State.th_of_kept h k) :)
  unfold State.performAtomic
  dsimp only
  rw [bytes, hv, free, sound]
  simp only [Bool.false_or, reduceCtorEq, Bool.false_eq_true, if_false, beq_iff_eq, hw]
  refine ⟨_, rfl, ?_, flight ?_⟩
  · split
    · exact (State.hostFlit_mem ..).trans wmem
    · rw [State.mem_homeWrite, wmem]
  · split
    · exact State.kept_hostFlit ..
    · exact State.kept_homeWrite ..

/-- Settles O29. -/
theorem atomicPerforms : Obligations.AtomicPerforms := by
  intro s id pa r op ty b c d o sc hr hp ho hc hkey hhost hk hty halign hpa free sound n old new_
  have hid := State.req?_id hr
  have run : exec (.atomicAtHome id) s = .next (s.performEntry r) := by
    change execAtomicAtHome id s = _
    rw [execAtomicAtHome, hr]
    dsimp only
    rw [hk]
    simp [State.inOrder, hp, ho, hc, State.toCtl, hpa, show r.key ≠ hostKey from hhost]
  have same := s.beyondCaches_performEntry r
  obtain ⟨debts, passed, performed⟩ := s.performed_eq r
  obtain ⟨v, done, mem, flight⟩ := State.performAtomic_plain (s := s.performed r) (r := r) (op := op) (ty := ty) (d := d) (b := b) (c := c) hpa
    (by rw [performed]; exact free) (by rw [performed]; exact sound)
  have smem : (s.performed r).mem = s.mem := by rw [performed]
  rw [smem] at mem done
  have ended : s.performReq r = { (v.arrive r.key r.id (.s d (atExtend ty old) false)).dropReq r.id with
      shoot := v.shoot.filter fun e => e.1 != r.id, shootDone := v.shootDone.filter fun e => e.1 != r.id } := by
    unfold State.performReq
    rw [hk]
    dsimp only
    rw [done]
    rfl
  rw [ended] at same
  have tmem : (s.performEntry r).mem = if op = .ld then s.mem else wrBytes s.mem pa (bytesOf n new_) := (State.mem_of_beyondCaches same).trans mem
  have tflight : ((s.performEntry r).th r.key).flight = (s.th r.key).flight.map fun f =>
      if f.land == .wait id then { f with land := .s d (atExtend ty old) false } else f := by
    rw [State.th_of_beyondCaches same]
    have here : (v.arrive r.key r.id (.s d (atExtend ty old) false)).th r.key = (v.th r.key).landed r.id (.s d (atExtend ty old) false) :=
      (State.th_arrive ..).trans (if_pos rfl)
    have sth : ((s.performed r).th r.key).flight = (s.th r.key).flight := by rw [performed]; rfl
    refine (congrArg Thr.flight here :).trans ?_
    rw [Thr.landed, hid]
    dsimp only
    rw [flight, sth]
  refine ⟨_, run, fun hop => ?_, fun a ha => ?_, ?_, fun f hf hwait => ?_⟩
  · rw [tmem, if_neg hop, ← ofBytes_bytesOf]
    exact congrArg ofBytes ((congrArg (rdBytes _ pa) (bytesOf_length ..).symm).trans (rdBytes_wrBytes_same ..))
  · rw [tmem]
    split
    · rfl
    · exact rdByte_wrBytes_out (by rwa [bytesOf_length])
  · rw [tflight, List.length_map]
  · rw [tflight]
    exact List.mem_map.mpr ⟨f, hf, by rw [hwait]; simp⟩

end Sys2Proof.Machine
end

section
/-! PROOFS. An entry of the firmware log that turns a walk (O31). -/

namespace Sys2Proof.Machine

open Sys2Proof

/-! ### An entry of the firmware log that turns a walk to the log's tail (12 R348, 13 R371)

The root table of context 0 does not stand at a multiple of 8 bytes: its first entry begins in one line and ends in the next, where the
firmware log's next entry goes.  A walk reads that entry, and `walkLines` names the line it begins in. -/

/-- Partition 0 holds a valid handle.  Its walk reads 1, a table at 0, and so ends; once the log's entry, of kind 1, has entered the upper
half of that word, the table stands at 2^32, where the log has its tail. -/
def straddledRoot : State :=
  { sys := { fwlbase := 0x100000000, fwlcnt := 4 }
    ctxs := [(0, { st := .running, allot := [0], desc := [(8, 0x10000007C)] })]
    mem := wrBytes (wrBytes [] 0x100000000 [2]) 0x10000007C [1]
    thr := [(0, { mode := .running, hs := [(0, { st := .valid })] })] }

/-- The tail of that log after an outcome. -/
def logTail (o : Host.Outcome State Fault Refusal) : Nat := match o with
  | .next t => t.rd64 0x100000000
  | _ => 0

theorem logTail_straddledRoot : straddledRoot.calm (0x100000000 / 64) 0 = true ∧ straddledRoot.calm (0x100000080 / 64) 0 = true ∧
    logTail (exec (.uncorrectableError (.line 0)) straddledRoot) = 2 := by
  decide +kernel

/-- Refutes O31: the entry of `straddledRoot`'s log is written, and the count of entries at its tail then waits for the handle that walks
through it. -/
theorem not_memoryErrors : ¬ Obligations.MemoryErrors := by
  intro h
  obtain ⟨-, line, -⟩ := h straddledRoot 0 0 0 0
  obtain ⟨t, run, -, -, -, entered⟩ := line (.inl (by decide))
  obtain ⟨calmTail, calmEntry, real⟩ := logTail_straddledRoot
  obtain ⟨logged, -⟩ := entered (by decide) (by decide) calmTail
  obtain ⟨-, counted⟩ := logged (by decide +kernel) calmEntry
  have three : t.rd64 0x100000000 = 3 := counted.trans (by decide +kernel)
  have two : t.rd64 0x100000000 = 2 := by rwa [run] at real
  exact absurd (three.symm.trans two) (by decide)

end Sys2Proof.Machine
end

section
/-! PROOFS. The host's accesses (O32). -/

namespace Sys2Proof.Machine

open Sys2Proof

/-! ### The lines of an access of the host (17 R445) -/

theorem splitLines_one {a n : Nat} (h : a % 64 + n ≤ 64) (hn : 0 < n) : splitLines a n = [(0, n)] := by
  have one : (a % 64 + n + 63) / 64 = 1 := by omega
  rw [splitLines, one]
  simp
  omega

theorem sum_splitLines (a n : Nat) : ((splitLines a n).map Prod.snd).sum = n := by
  have sums (i : Nat) : (((List.range i).map fun i =>
      min (64 - (a + (if i = 0 then 0 else 64 * i - a % 64)) % 64) (n - (if i = 0 then 0 else 64 * i - a % 64)))).sum = lineBytes a n i := by
    induction i with
    | zero => rfl
    | succ i ih =>
      rw [List.range_succ, List.map_append, List.sum_append, ih, lineBytes, lineBytes]
      simp only [List.map_cons, List.map_nil, List.sum_singleton, Nat.add_eq_zero_iff, one_ne_zero, and_false, if_false]
      split <;> omega
  have whole : lineBytes a n ((a % 64 + n + 63) / 64) = n := by
    rw [lineBytes]
    split <;> omega
  have := sums ((a % 64 + n + 63) / 64)
  rw [whole] at this
  simpa [splitLines, Function.comp_def] using this

/-! ### What the host's accesses leave as it was -/

/-- Linor Link is in a state. -/
def State.linorSt (s : State) (n : Nat) : Prop := (s.link linorPort).st = n

theorem Link.st_pump (l : Link) : l.pump.st = l.st := rfl

theorem State.linorSt.transmit {s : State} {n : Nat} (h : s.linorSt n) (w : Option Waiting) : (s.transmit linorPort w).linorSt n := by
  unfold State.linorSt State.transmit State.modLink State.link at *
  dsimp only
  rw [getD_putK_same]
  exact h

theorem State.linorSt.of_links {s t : State} {n : Nat} (h : s.linorSt n) (e : t.links = s.links) : t.linorSt n := by
  rwa [State.linorSt, State.link, e]

theorem State.linorSt.hostFlit {s : State} {n : Nat} (h : s.linorSt n) (line : Nat) : (s.hostFlit line).linorSt n := by
  unfold State.hostFlit
  split
  · exact h.transmit none
  · exact h

theorem State.links_afreshLine (s t : State) (line : Nat) : (s.afreshLine line t).links = t.links := by
  unfold State.afreshLine
  exact foldl_keeps (f := State.pageAfresh) (fun u => u.links = t.links) (fun u key (h : u.links = t.links) => h) _ rfl

theorem State.linorSt.partWrite {s : State} {n : Nat} (h : s.linorSt n) (pa : Nat) (bs : List Byte) (tag : Option (BitVec 4)) :
    (s.partWrite pa bs tag).linorSt n := by
  have written : (s.homeWrite pa bs).linorSt n := State.linorSt.hostFlit (h.of_links (State.lineWrite_links ..)) _
  unfold State.partWrite
  split
  · refine State.linorSt.of_links ?_ (State.links_afreshLine ..)
    unfold State.partDone
    split
    · exact written
    · split <;> exact written
  · exact h

theorem State.links_modDir (s : State) (line : Nat) (f : DirEnt → DirEnt) : (s.modDir line f).links = s.links := by
  have room : (s.dirRoom line).links = s.links := by
    unfold State.dirRoom
    split
    · rfl
    · dsimp only
      split <;> rfl
  exact room

theorem State.linorSt.hostHold {s : State} {n : Nat} (h : s.linorSt n) (line : Nat) (wr : Bool) : (s.hostHold line wr).linorSt n := by
  unfold State.hostHold
  dsimp only
  split
  · exact h
  · exact h.of_links (State.links_modDir ..)

/-- One line of a read of the host: the bytes it asks for, and the link as it was. -/
theorem State.hostGet_link {s : State} (h : s.linorSt 3) (pa n : Nat) : (s.hostGet pa n).1.length = n ∧ (s.hostGet pa n).2.linorSt 3 := by
  unfold State.hostGet
  dsimp only
  split
  · split
    · exact ⟨List.length_replicate, h⟩
    · exact ⟨rdBytes_length .., State.linorSt.hostHold (State.linorSt.hostFlit (h.of_links (State.shareLine_links ..)) _) ..⟩
  · exact ⟨rdBytes_length .., h⟩
  · split
    · exact ⟨by simp [State.ctlBytes], h⟩
    · exact ⟨by simp [State.violatedBytes], keeps_logFw (P := fun t => t.linorSt 3) (fun _ _ _ _ h => h.partWrite ..) h ..⟩

theorem State.beyondCaches_hostHold (s : State) (line : Nat) (wr : Bool) : (s.hostHold line wr).beyondCaches = s.beyondCaches := by
  unfold State.hostHold
  dsimp only
  split
  · rfl
  · exact State.beyondCaches_modDir ..

/-- A read of the host answers with as many bytes as it asks for. -/
theorem State.hostRead_link {s : State} (h : s.linorSt 3) (addr len : Nat) :
    (s.hostRead addr len).sys.lastRead.length = len ∧ (s.hostRead addr len).linorSt 3 := by
  have pieces (l : List (Nat × Nat)) (acc : List Byte × State) (ha : acc.2.linorSt 3) :
      (l.foldl (fun acc e => (acc.1 ++ (acc.2.hostGet (addr + e.1) e.2).1, (acc.2.hostGet (addr + e.1) e.2).2)) acc).1.length =
        acc.1.length + (l.map Prod.snd).sum ∧
      (l.foldl (fun acc e => (acc.1 ++ (acc.2.hostGet (addr + e.1) e.2).1, (acc.2.hostGet (addr + e.1) e.2).2)) acc).2.linorSt 3 := by
    induction l generalizing acc with
    | nil => exact ⟨rfl, ha⟩
    | cons e r ih =>
      obtain ⟨bytes, link⟩ := State.hostGet_link ha (addr + e.1) e.2
      obtain ⟨length, link⟩ := ih (acc.1 ++ (acc.2.hostGet (addr + e.1) e.2).1, (acc.2.hostGet (addr + e.1) e.2).2) link
      rw [List.foldl_cons]
      refine ⟨length.trans ?_, link⟩
      rw [List.length_append, bytes, List.map_cons, List.sum_cons, Nat.add_assoc]
  obtain ⟨length, link⟩ := pieces (splitLines addr len) ([], s) h
  rw [sum_splitLines, List.length_nil, Nat.zero_add] at length
  exact ⟨length, link⟩

/-- At I0, where no deeper level is due, a request is served at once. -/
theorem State.served_awake {s : State} (h : s.sys.idle = 0 ∧ s.entryDue = false) (a : Asked) (f : State → State) : s.served a f = f s := by
  have stays : s.enterDue = s := by rw [State.enterDue, h.2]; rfl
  rw [State.served, stays]
  exact if_pos h.1

/-- Below I0 it starts the exit and waits. -/
theorem State.served_asleep {s : State} (h : s.sys.idle ≠ 0) (a : Asked) (f : State → State) :
    (s.served a f).sys.asked = s.sys.asked ++ [a] ∧ (s.served a f).sys.idleTo.isSome = true ∧ (s.served a f).mem = s.mem ∧
    (s.served a f).thr = s.thr := by
  obtain ⟨v, hv, idle, asked, mem, thr⟩ : ∃ v, s.enterDue = v ∧ v.sys.idle ≠ 0 ∧ v.sys.asked = s.sys.asked ∧ v.mem = s.mem ∧ v.thr = s.thr := by
    refine ⟨_, rfl, ?_⟩
    unfold State.enterDue
    split
    · exact ⟨Nat.succ_ne_zero _, rfl, rfl, rfl⟩
    · exact ⟨h, rfl, rfl, rfl⟩
  unfold State.served
  rw [hv]
  dsimp only
  rw [if_neg idle]
  unfold State.startExit
  split
  · next stay => exact ⟨by rw [asked], stay.resolve_left idle, mem, thr⟩
  · exact ⟨by rw [asked], rfl, mem, thr⟩

section
variable {s : State} {addr len : Nat} {a : Asked} {f : State → State}

theorem hostAsk_outside (h : 2 ^ 50 < addr + len) : hostAsk addr len a f s = .fault .outsidePhysicalSpace := by
  rw [hostAsk, if_pos h]

theorem hostAsk_down (hup : ¬(s.link linorPort).st = 3) (h : addr + len ≤ 2 ^ 50) : hostAsk addr len a f s = .next s := by
  rw [hostAsk, if_neg (by omega), if_neg (by simpa using hup)]

theorem hostAsk_up (hup : (s.link linorPort).st = 3) (h : addr + len ≤ 2 ^ 50) : hostAsk addr len a f s = .next (s.served a f) := by
  rw [hostAsk, if_neg (by omega), if_pos (by simpa using hup)]

end

/-! ### A request of the host on a line of HBM -/

/-- A request of the host stands in the queue. -/
def State.queued (s : State) (r : Req) : State := { s with nextId := s.nextId + 1, reqs := s.reqs ++ [r] }

/-- A request of the host numbered next. -/
def State.hostKind (s : State) (kind : ReqKind) : Req := { id := s.nextId, key := hostKey, acc := s.nextId, ctx := 64, tracked := false, kind }

/-- It waits behind an earlier one of the host's, or where a shootdown is due. -/
theorem State.hostReq_waits {s : State} {pa : Nat} {kind : ReqKind} {wr : Bool}
    (h : (∃ q ∈ s.reqs, q.key = hostKey ∧ q.id < s.nextId) ∨ (s.queued (s.hostKind kind)).clear (s.hostKind kind) = false) :
    s.hostReq pa kind wr = s.queued (s.hostKind kind) := by
  have waits : ((s.queued (s.hostKind kind)).hostOrder (s.hostKind kind) && (s.queued (s.hostKind kind)).clear (s.hostKind kind)) = false := by
    rcases h with ⟨q, hq, hk, hid⟩ | h
    · have : (s.reqs ++ [s.hostKind kind]).any (fun q => q.key == hostKey && decide (q.id < (s.hostKind kind).id)) = true :=
        List.any_eq_true.mpr ⟨q, List.mem_append_left _ hq, by simp [hk, State.hostKind, hid]⟩
      have order : (s.queued (s.hostKind kind)).hostOrder (s.hostKind kind) = false :=
        (congrArg (fun b => (hostKey != hostKey || !b)) this :)
      rw [order, Bool.false_and]
    · rw [h, Bool.and_false]
  unfold State.hostReq
  extract_lets r s1
  exact if_neg (Bool.eq_false_iff.mp waits)

/-- It performs at once where nothing of the host waits. -/
theorem State.hostReq_performs {s : State} {pa : Nat} {kind : ReqKind} {wr : Bool} (first : ∀ q ∈ s.reqs, q.key ≠ hostKey)
    (clear : (s.queued (s.hostKind kind)).clear (s.hostKind kind) = true) :
    ∃ t : State, s.hostReq pa kind wr = t ∧ t.sys.lastRead = (match kind with
      | .atomic _ ty .. => rdBytes s.mem pa (atWidth ty)
      | _ => s.sys.lastRead) ∧
      t.mem = ((s.queued (s.hostKind kind)).performReq (s.hostKind kind)).mem ∧
      t.tags = ((s.queued (s.hostKind kind)).performReq (s.hostKind kind)).tags ∧
      t.reqs = ((s.queued (s.hostKind kind)).performReq (s.hostKind kind)).reqs := by
  have order : (s.queued (s.hostKind kind)).hostOrder (s.hostKind kind) = true := by
    have : (s.reqs ++ [s.hostKind kind]).any (fun q => q.key == hostKey && decide (q.id < (s.hostKind kind).id)) = false := by
      refine List.any_eq_false.mpr fun q hq => ?_
      rcases List.mem_append.mp hq with hq | hq
      · simp [first q hq]
      · simp [List.mem_singleton.mp hq]
    exact (congrArg (fun b => (hostKey != hostKey || !b)) this :)
  refine ⟨_, rfl, ?_⟩
  unfold State.hostReq
  extract_lets r s1 old s2
  rw [if_pos (by rw [Bool.and_eq_true]; exact ⟨order, clear⟩)]
  refine ⟨by cases kind <;> rfl, ?_⟩
  have held : (s2.hostHold (pa / 64) wr).beyondCaches = (s1.performReq r).beyondCaches :=
    (State.beyondCaches_hostHold ..).trans (State.beyondCaches_performEntry ..)
  exact ⟨(State.mem_of_beyondCaches held :), (congrArg State.tags held :), (congrArg State.reqs held :)⟩

/-- What the store of a run of bytes at a plain line of HBM leaves, once its request has performed. -/
theorem State.performReq_store {s : State} {r : Req} {pa : Nat} {bs : List Byte} {ver : Option Nat} {bound : Option (Nat × Nat × Nat)}
    (hk : r.kind = .store pa bs ver false bound) (hpa : physClass pa = .hbm) (free : s.protectedKind pa = none) (sound : tagPsn (s.tag pa) = false)
    (hkey : r.key ≠ partKey)
    (room : ∀ i b n, bound = some (i, b, n) → ver.getD (tagVer (s.tag pa)) = tagVer (s.tag pa) ∨ s.deltaRoom (s.reqCore r) r.ctx i) :
    (s.performReq r).mem = wrBytes s.mem pa bs ∧ (s.performReq r).tag pa = mkTag false (ver.getD (tagVer (s.tag pa))) ∧
    (s.performReq r).reqs = s.reqs.filter fun q => q.id != r.id := by
  obtain ⟨d, p, performed⟩ := s.performed_eq r
  obtain ⟨mem, tag, -, reqs⟩ := State.performStore_plain (s := s.performed r) (bs := bs) (ver := ver) (bound := bound) hpa
    (by rw [performed]; exact free) (by rw [performed]; exact sound) hkey (by rw [performed]; exact room)
  have stored : s.performReq r = { ((s.performed r).performStore r pa bs ver false bound).dropReq r.id with
      shoot := ((s.performed r).performStore r pa bs ver false bound).shoot.filter fun e => e.1 != r.id
      shootDone := ((s.performed r).performStore r pa bs ver false bound).shootDone.filter fun e => e.1 != r.id } := by
    unfold State.performReq
    rw [hk]
    rfl
  rw [performed] at mem tag reqs
  rw [stored, performed]
  exact ⟨mem, tag, congrArg (List.filter fun q : Req => q.id != r.id) reqs⟩

theorem tagVer_mkTag (ver : Nat) : tagVer (mkTag false ver) = ver % 4 := by
  have small : ver % 4 < 4 := Nat.mod_lt _ (by decide)
  unfold mkTag
  generalize ver % 4 = n at small
  interval_cases n <;> rfl

theorem State.hostWrite_one {s : State} {addr : Nat} {bs : List Byte} (h : addr % 64 + bs.length ≤ 64) (hne : bs ≠ []) :
    s.hostWrite addr bs = s.hostPut addr bs := by
  rw [State.hostWrite, splitLines_one h (List.length_pos_of_ne_nil hne)]
  simp

/-- Settles O32. -/
theorem hostAccesses : Obligations.HostAccesses := by
  intro s addr bs len op ty b c up calm
  refine ⟨hostAsk_outside, hostAsk_outside, hostAsk_outside, fun hup h => hostAsk_down hup h, fun hup h => hostAsk_down hup h,
    fun hup h => hostAsk_down hup h, fun hup hidle => ?_, fun hup hcalm hlen => ?_, fun hup hcalm hlen => ?_, fun hup hcalm hlen => ?_⟩
  · have waiting {a : Asked} {f : State → State} := State.served_asleep hidle a f
    exact ⟨fun h => ⟨_, hostAsk_up hup h, waiting⟩, fun h => ⟨_, hostAsk_up hup h, waiting⟩, fun h => ⟨_, hostAsk_up hup h, waiting⟩⟩
  · have run : exec (.hostWrite addr bs) s = .next (s.hostWrite addr bs) :=
      (hostAsk_up (f := fun s => s.hostWrite addr bs) hup hlen).trans (by rw [State.served_awake hcalm])
    refine ⟨run, fun hpa hline hne => ⟨fun hsound => ?_, fun hpsn hshort => ?_⟩, ?_⟩
    · rw [State.hostWrite_one hline hne] at run
      refine ⟨_, run, ?_⟩
      have put : (s.hostPut addr bs).mem = wrBytes s.mem addr bs ∧ tagPsn ((s.hostPut addr bs).tag addr) = false := by
        unfold State.hostPut
        rw [hpa]
        dsimp only
        split
        · next psn =>
          rw [if_pos (hsound.resolve_left (by simp [psn]))]
          exact ⟨rfl, by simp [State.tag, State.setTag, tagPsn_mkTag_false]⟩
        · next sound => exact ⟨rfl, (by simpa using sound : tagPsn (s.tag addr) = false)⟩
      exact ⟨fun i hi => by rw [put.1, rdByte_wrBytes_in hi], put.2⟩
    · rw [run, State.hostWrite_one hline hne, State.hostPut, hpa, hpsn]
      simp [hshort]
    · intro w s1 hpa hline hne hrec
      rw [State.hostWrite_one hline hne, State.hostPut, hpa, hrec] at run
      refine ⟨fun h => run.trans (congrArg Host.Outcome.next (State.hostReq_waits h)), fun first clear hv free sound => ⟨_, run, ?_⟩⟩
      obtain ⟨t, ht, -, mem, tags, reqs⟩ := State.hostReq_performs (pa := addr) (wr := true) first clear
      obtain ⟨mem', tag, reqs'⟩ := State.performReq_store (s := s1) (r := w) rfl hpa free sound (show (4000 : Nat) ≠ 4001 by decide) (by simp)
      rw [show (if false = true then s else s.hostReq addr (.store addr bs none false none) true) = t from ht]
      have smem : t.mem = wrBytes s.mem addr bs := mem.trans mem'
      refine ⟨fun i hi => by rw [smem, rdByte_wrBytes_in hi], fun a ha => by rw [smem, rdByte_wrBytes_out ha], ?_, fun q hq => ?_⟩
      · rw [State.tag, tags]
        refine (congrArg tagVer tag).trans ?_
        rw [tagVer_mkTag]
        exact Nat.mod_eq_of_lt (Nat.mod_lt _ (by decide))
      · rw [reqs] at hq
        have hq := reqs' ▸ hq
        obtain ⟨hq, hid⟩ := List.mem_filter.mp hq
        exact (List.mem_append.mp hq).resolve_right fun h => by simp [List.mem_singleton.mp h] at hid
  · have run : exec (.hostRead addr len) s = .next ((s.hostRead addr len).transmit linorPort none) :=
      (hostAsk_up (f := fun s => (s.hostRead addr len).transmit linorPort none) hup hlen).trans (by rw [State.served_awake hcalm])
    refine ⟨⟨_, run, ?_⟩, fun hpa hrec hpos hline => ⟨_, run, ?_⟩⟩
    · obtain ⟨length, link⟩ := State.hostRead_link hup addr len
      exact ⟨length, link.transmit none⟩
    · have one : s.hostRead addr len = { (s.hostGet addr len).2 with sys := { (s.hostGet addr len).2.sys with lastRead := (s.hostGet addr len).1 } } := by
        rw [State.hostRead, splitLines_one hline hpos]
        rfl
      rw [one]
      have got : (s.hostGet addr len).1 = rdBytes s.mem addr len ∧ (s.hostGet addr len).2.mem = s.mem := by
        unfold State.hostGet
        dsimp only
        rcases hpa with hpa | hpa
        · rw [hpa, hrec.resolve_right (by rw [hpa]; decide)]
          refine ⟨rfl, ?_⟩
          exact State.mem_of_beyondCaches ((State.beyondCaches_hostHold ..).trans (State.beyondCaches_othersRead ..))
        · rw [hpa]
          exact ⟨rfl, rfl⟩
      exact ⟨got.1, got.2⟩
  · have run : exec (.hostAtomic op addr ty b c) s = .next ((s.hostAtomic op addr ty.toNat b c).transmit linorPort none) :=
      (hostAsk_up (f := fun s => (s.hostAtomic op addr ty.toNat b c).transmit linorPort none) hup hlen).trans (by rw [State.served_awake hcalm])
    refine ⟨fun h => ⟨_, run, ?_⟩, fun hrec hpa halign => ?_⟩
    · have none_ : s.hostAtomic op addr ty.toNat b c = s := by
        rw [State.hostAtomic, if_pos]
        simpa [or_assoc] using h
      rw [none_]
      exact ⟨rfl, rfl⟩
    · have asks : s.hostAtomic op addr ty.toNat b c = s.hostReq addr (.atomic op ty.toNat addr b c none 0 5) true := by
        rw [State.hostAtomic, if_neg (by simp [hrec, hpa, halign])]
      rw [asks] at run
      refine ⟨fun h => ⟨_, run, ?_⟩, fun first clear => ⟨_, run, ?_⟩⟩
      · rw [State.hostReq_waits h]
        exact ⟨rfl, rfl⟩
      · obtain ⟨t, ht, read, -⟩ := State.hostReq_performs (pa := addr) (wr := true) first clear
        rw [ht]
        exact read

end Sys2Proof.Machine
end

section
/-! PROOFS. Walks that end, and invalidations (O33). -/

namespace Sys2Proof.Machine

open Sys2Proof

/-! ### A walk that succeeds reads no entry it may not (13 R369, R370) -/

theorem bitsN_page {lo : Nat} (h : 12 ≤ lo) (va hi : Nat) : bitsN (va / 4096 * 4096) hi lo = bitsN va hi lo := by
  obtain ⟨j, rfl⟩ := Nat.exists_eq_add_of_le h
  rw [bitsN, bitsN, Nat.shiftRight_add, Nat.shiftRight_add, Nat.shiftRight_eq_div_pow _ 12, Nat.shiftRight_eq_div_pow va 12]
  congr 2
  omega

theorem State.walkLines_page (s : State) (c va : Nat) : s.walkLines c (va / 4096 * 4096) = s.walkLines c va := by
  unfold State.walkLines
  rw [bitsN_page (by decide), bitsN_page (by decide), bitsN_page (by decide), bitsN_page (by decide), bitsN_page (by decide)]

theorem physClass_line (a : Nat) : physClass (64 * (a / 64)) = physClass a := by
  have hbm : 64 * (a / 64) < hbmEnd ↔ a < hbmEnd := by unfold hbmEnd; omega
  have control : (ctlBase ≤ 64 * (a / 64) ∧ 64 * (a / 64) < ctlBase + 0x1_0000_0000) ↔ (ctlBase ≤ a ∧ a < ctlBase + 0x1_0000_0000) := by
    unfold ctlBase
    omega
  have host : (hostBase ≤ 64 * (a / 64) ∧ 64 * (a / 64) < 0x4_0000_0000_0000) ↔ (hostBase ≤ a ∧ a < 0x4_0000_0000_0000) := by
    unfold hostBase
    omega
  simp only [physClass, hbm, control, host]

theorem State.violates_line (s : State) (fw : Bool) (a : Nat) : s.violates fw (64 * (a / 64)) = s.violates fw a := by
  rw [State.violates, State.violates, physClass_line, Nat.mul_div_cancel_left _ (by decide)]

/-- An entry that maps something may be read. -/
theorem State.sound_of_nextTable {s : State} {a : Nat} {l1 : Bool} {t : Nat × Bool} (h : nextTable (s.entryWord a) l1 = some t) :
    s.violates false (64 * (a / 64)) = false := by
  rw [State.violates_line, ← Bool.not_eq_true]
  intro bad
  rw [State.entryWord, if_pos bad] at h
  simp [nextTable] at h

theorem State.sound_of_leafOf {s : State} {c a size : Nat} {task needR : Bool} {lines : List Nat} {l : Leaf}
    (h : leafOf s c task needR (s.entryWord a) size lines = some l) : s.violates false (64 * (a / 64)) = false := by
  rw [State.violates_line, ← Bool.not_eq_true]
  intro bad
  rw [State.entryWord, if_pos bad] at h
  simp [leafOf] at h

theorem State.walkLines_sound {s : State} {c va : Nat} {task needR : Bool} {l : Leaf} (h : s.walkWith c task needR va = some l) :
    ∀ x ∈ s.walkLines c va, s.violates false (64 * x) = false := by
  unfold State.walkWith at h
  unfold State.walkLines
  dsimp only at h ⊢
  split at h
  · cases h
  · next t2 _ h3 =>
    split at h
    · cases h
    · next t1 _ h2 =>
      have s3 := State.sound_of_nextTable h3
      have s2 := State.sound_of_nextTable h2
      split at h
      · next leaf =>
        have none_ : nextTable (s.entryWord (t1 + 8 * bitsN va 29 21)) true = none := by
          rw [nextTable]
          simp [(Bool.and_eq_true_iff.mp leaf).2]
        rw [none_]
        have s1 := State.sound_of_leafOf h
        simp [s3, s2, s1]
      · split at h
        · cases h
        · next t0 gran h1 =>
          have s1 := State.sound_of_nextTable h1
          have s0 := State.sound_of_leafOf h
          simp [s3, s2, s1, s0]

/-- Such a walk logs nothing. -/
theorem State.beyondCaches_walkRead {s : State} {core c va : Nat} (h : ∀ x ∈ s.walkLines c va, s.violates false (64 * x) = false) :
    (s.walkRead core c va).beyondCaches = s.beyondCaches := by
  unfold State.walkRead
  generalize s.walkLines c va = l at h
  suffices ∀ t : State, t.beyondCaches = s.beyondCaches → (l.foldl (fun s l =>
      if s.violates false (64 * l) then s.log c 4 (64 * l) (agentField 0 2 false) else (s.othersRead l core).dirShare l core) t).beyondCaches =
      s.beyondCaches from this s rfl
  induction l with
  | nil => exact fun t ht => ht
  | cons x r ih =>
    intro t ht
    have sound : t.violates false (64 * x) = false := by
      rw [State.violates_of_beyondReads (State.beyondReads_of_beyondCaches ht)]
      exact h x List.mem_cons_self
    rw [List.foldl_cons, sound]
    exact ih (fun y hy => h y (List.mem_cons_of_mem _ hy)) _
      (((State.beyondCaches_dirShare ..).trans (State.beyondCaches_othersRead ..)).trans ht)

theorem State.mem_xFill {s : State} {core c va : Nat} (h : ∀ x ∈ s.walkLines c va, s.violates false (64 * x) = false) :
    (s.xFill core c va).mem = s.mem := by
  have read : (s.walkRead core c (va / 4096 * 4096)).beyondCaches = s.beyondCaches :=
    State.beyondCaches_walkRead (by rwa [State.walkLines_page])
  unfold State.xFill
  dsimp only
  split
  · rfl
  · split
    · exact State.mem_of_beyondCaches read
    · split <;> exact (State.mem_of_beyondCaches read :)

/-! ### What an invalidation takes from a core (13 R371) -/

theorem getD_map_keyed {α : Type} {f : Nat → α → α} {d : α} (hd : ∀ k, f k d = d) (m : Map α) (k : Nat) :
    getD d (m.map fun e => (e.1, f e.1 e.2)) k = f k (getD d m k) := by
  induction m with
  | nil => exact (hd k).symm
  | cons e r ih =>
    simp only [List.map_cons, getD]
    split
    · next h => rw [h]
    · exact ih

/-- A handle after an invalidation of a line its core applies. -/
def Handle.revoked (s : State) (c line : Nat) (h : Handle) : Handle :=
  if h.st == .valid && s.passes c h.va line then { h with st := .revoked } else h

/-- An issuer after it. -/
def Thr.revoked (s : State) (core line k : Nat) (t : Thr) : Thr :=
  if t.live && s.tcore k == core then { t with hs := t.hs.map fun h => (h.1, h.2.revoked s (s.ctxOf k) line) } else t

theorem State.th_revoke (s : State) (core line k : Nat) : (s.revoke core line).th k = (s.th k).revoked s core line k := by
  have each : (s.revoke core line).thr = s.thr.map fun e => (e.1, e.2.revoked s core line e.1) := by
    unfold State.revoke Thr.revoked
    refine List.map_congr_left fun e _ => ?_
    split
    · have handles : (e.2.hs.map fun h => if h.2.st == .valid && s.passes (s.ctxOf e.1) h.2.va line then (h.1, { h.2 with st := .revoked })
          else h) = e.2.hs.map fun h => (h.1, h.2.revoked s (s.ctxOf e.1) line) :=
        List.map_congr_left fun h _ => by unfold Handle.revoked; split <;> rfl
      exact congrArg (fun hs => (e.1, { e.2 with hs })) handles
    · rfl
  rw [State.th, each]
  exact getD_map_keyed (f := fun k t => Thr.revoked s core line k t) (fun k => by unfold Thr.revoked; split <;> rfl) s.thr k

theorem Thr.h_revoked (s : State) (core line k i : Nat) (t : Thr) :
    (t.revoked s core line k).h i =
      if t.live = true ∧ s.tcore k = core ∧ (t.h i).st = .valid ∧ s.passes (s.ctxOf k) (t.h i).va line = true then { t.h i with st := .revoked }
      else t.h i := by
  have mapped : getD ({} : Handle) (t.hs.map fun h => (h.1, h.2.revoked s (s.ctxOf k) line)) i = (t.h i).revoked s (s.ctxOf k) line :=
    getD_map (Handle.revoked s (s.ctxOf k) line) {} t.hs i
  unfold Thr.revoked
  by_cases here : t.live = true ∧ s.tcore k = core
  · rw [if_pos (by simpa using here)]
    refine mapped.trans ?_
    simp [Handle.revoked, here]
  · rw [if_neg (by simpa using here), if_neg fun h => here ⟨h.1, h.2.1⟩]

/-- Settles O33. -/
theorem translationSteps : Obligations.TranslationSteps := by
  intro s k h core line req
  refine ⟨fun pending hh free => ⟨fun hw => ?_, fun l hw => ?_⟩, ?_, fun r hr hmem huniq horder hreach hheld => ?_,
    fun r hr horder hne hheld hclear => ?_, fun r hr horder hne hheld => ?_⟩
  · refine ⟨_, rfl, ?_⟩
    rw [if_pos ⟨pending, hh, by rw [free]; rfl⟩, hw]
    simp [Thr.setH, Thr.h]
  · refine ⟨_, rfl, ?_⟩
    rw [if_pos ⟨pending, hh, by rw [free]; rfl⟩, hw]
    dsimp only
    refine ⟨by simp [Thr.setH, Thr.h, Leaf.handle], fun none_ => ?_, fun i some_ => ?_⟩
    · have filled := State.mem_xFill (core := s.tcore k) (State.walkLines_sound hw)
      rw [none_]
      dsimp only
      split
      · exact filled
      · exact (State.mem_of_beyondReads (State.beyondReads_pmcEvent ..)).trans filled
    · have entered (v : State) (a b : Nat) : (a, b, i) ∈ (v.recFill a b i).cached := by
        unfold State.recFill
        split
        · next listed => simpa using listed
        · exact List.mem_append_right _ List.mem_cons_self
      rw [some_]
      dsimp only
      split
      · exact entered ..
      · have same (v : State) (a b n : Nat) : (v.pmcEvent a b n 1).cached = v.cached :=
          (congrArg State.cached (State.beyondReads_pmcEvent v a b n 1) :)
        exact (same ..).symm ▸ entered ..
  · rintro ⟨q, hq, hc, ho, hd⟩
    obtain ⟨r, hr⟩ : ∃ r, (s.reqs.find? fun r => s.changes r == some line && s.inOrder r && !s.shootDone.contains (r.id, core)) = some r := by
      refine Option.isSome_iff_exists.mp (List.find?_isSome.mpr ⟨q, hq, ?_⟩)
      simp [hc, ho, hd]
    obtain ⟨⟨rchanges, rorder⟩, rdone⟩ : (s.changes r = some line ∧ s.inOrder r = true) ∧ (r.id, core) ∉ s.shootDone := by
      simpa using List.find?_some hr
    refine ⟨_, r, rfl, List.mem_of_find?_eq_some hr, rchanges, rorder, rdone, ?_⟩
    rw [hr]
    dsimp only
    refine ⟨List.mem_append_right _ List.mem_cons_self, ?_, fun e he => ?_, rfl, fun j i => ?_⟩
    · split
      · next listed => simpa using listed
      · exact List.mem_append_right _ List.mem_cons_self
    · rintro ⟨rfl, rfl⟩
      obtain ⟨listed, kept⟩ := List.mem_filter.mp he
      simp only [beq_self_eq_true, Bool.true_and, Bool.not_eq_true', List.contains_eq_mem, decide_eq_false_iff_not] at kept
      exact kept (List.mem_map.mpr ⟨e, List.mem_filter.mpr ⟨listed, by simp⟩, rfl⟩)
    · have after := (congrArg (fun t => Thr.h t i) ((s.dropXlat core line).th_revoke core line j) :).trans (Thr.h_revoked ..)
      refine ⟨fun hit => after.trans (if_pos hit), fun miss => after.trans (if_neg miss)⟩
  · have found : ∃ e, (s.shoot.find? fun e => e.1 == req) = some e ∧ e.2 = line := by
      obtain ⟨e, he⟩ := Option.isSome_iff_exists.mp (List.find?_isSome.mpr ⟨(req, line), hmem, by simp⟩ :
        (s.shoot.find? fun e => e.1 == req).isSome)
      exact ⟨e, he, huniq e (List.mem_of_find?_eq_some he) (by simpa using List.find?_some he)⟩
    obtain ⟨⟨e, _⟩, he, rfl⟩ := found
    change execShootdownComplete req s = _
    rw [execShootdownComplete, hr, he]
    simp [horder, hreach, hheld]
  · change execSptEntryWrite req s = _
    rw [execSptEntryWrite, hr]
    simp [horder, hne, hheld, hclear]
  · change execSptEntryWrite req s = _
    rw [execSptEntryWrite, hr]
    simp only [horder, Bool.not_true, Bool.false_or, List.isEmpty_iff, hne, if_false]

end Sys2Proof.Machine
end

section
/-! PROOFS. Page-ins, page-outs and the bounce buffer (O34). -/

namespace Sys2Proof.Machine

open Sys2Proof

/-! ### Page-ins (13 R378) -/

/-- A page that comes in fills its frame with the block's bytes, or with zeros. -/
theorem State.pageFill_keeps (s : State) (back : Option Nat) (fb : Nat) :
    (s.pageFill back fb).frames = wrBytes s.frames fb (match back with
      | some b => rdBytes s.mem b 2048
      | none => List.replicate 2048 0) ∧ (s.pageFill back fb).mem = s.mem ∧ (s.pageFill back fb).gcyc = s.gcyc := by
  unfold State.pageFill
  refine forN_ind (P := fun _ (t : State) => t.frames = wrBytes s.frames fb (match back with
      | some b => rdBytes s.mem b 2048
      | none => List.replicate 2048 0) ∧ t.mem = s.mem ∧ t.gcyc = s.gcyc) 32 ⟨?_, rfl, rfl⟩ fun i _ t ⟨frames, mem, gcyc⟩ => ?_
  · cases back <;> rfl
  · cases back with
    | none => exact ⟨frames, mem, gcyc⟩
    | some b =>
      have read := t.beyondCaches_othersRead (b / 64 + i) 500
      exact ⟨(State.frames_of_beyondCaches read).trans frames, (State.mem_of_beyondCaches read).trans mem,
        (congrArg State.gcyc read :).trans gcyc⟩

/-- The bytes a page comes in with: its block's, or zeros for a page never written. -/
theorem State.pageFill_bytes (s : State) (written : Bool) (back fb : Nat) :
    ∃ bs, (s.pageFill (if written then some back else none) fb).frames = wrBytes s.frames fb bs ∧ bs.length = 2048 ∧
      ∀ i, i < 2048 → bs.getD i 0 = if written then rdByte s.mem (back + i) else 0 := by
  obtain ⟨frames, -, -⟩ := s.pageFill_keeps (if written then some back else none) fb
  cases written with
  | true => exact ⟨_, frames, rdBytes_length .., fun i hi => rdBytes_getD _ _ _ _ hi⟩
  | false =>
    refine ⟨List.replicate 2048 0, frames, List.length_replicate, fun i hi => ?_⟩
    rw [List.getD_eq_getElem?_getD, List.getElem?_replicate]
    split <;> rfl

/-! ### Page-outs (13 R378) -/

theorem forN_succ {σ : Type} (n : Nat) (s : σ) (f : Nat → σ → σ) : forN (n + 1) s f = f n (forN n s f) := by
  rw [forN, forN, List.range_succ, List.foldl_append]
  rfl

/-- A write of the part's that nothing turns away or holds up. -/
theorem State.agentWrite_now {v : State} {c pa : Nat} {bs : List Byte} {tag : BitVec 4} (free : v.protectedKind pa = none)
    (sound : v.violates false pa = false) (still : v.still 0 pa bs = true) (first : v.partWaits (pa / 64) = false) :
    let t := v.agentWrite c pa bs (some tag)
    t.kept = v.kept ∧ t.reqs = v.reqs ∧ t.mem = wrBytes v.mem pa bs ∧ t.tags = putD 0 v.tags (pa / 64) tag := by
  intro t
  have wrote : t = v.afreshLine (pa / 64) ((v.homeWrite pa bs).setTag pa tag) := by
    change v.agentWrite c pa bs (some tag) = _
    rw [State.agentWrite, free]
    dsimp only
    rw [sound, State.partWrite, still, first]
    rfl
  rw [wrote]
  refine ⟨(State.kept_afreshLine ..).trans (State.kept_homeWrite v pa bs none), (State.reqs_afreshLine ..).trans (State.homeWrite_reqs ..),
    (State.mem_afreshLine ..).trans (State.mem_homeWrite ..), (State.tags_afreshLine ..).trans ?_⟩
  exact congrArg (fun m => putD 0 m (pa / 64) tag) (State.homeWrite_tags ..)

/-- The writes of a page's dirty lines, up to one. -/
def State.savedLines (s : State) (c : Nat) (p : SpPage) (back fb n : Nat) : State :=
  forN n s fun i v => if p.dirty.getLsbD i then
    v.agentWrite c (back + 64 * i) (rdBytes v.frames (fb + 64 * i) 64) (some (v.ftag (fb + 64 * i))) else v

section
variable {s : State} {c : Nat} {p : SpPage} {back fb : Nat} (align : back % 64 = 0) (first : s.blockWaits back = false)
  (now : ∀ i, i < 32 → p.dirty.getLsbD i = true →
    (s.savedLines c p back fb i).protectedKind (back + 64 * i) = none ∧ (s.savedLines c p back fb i).violates false (back + 64 * i) = false ∧
    (s.savedLines c p back fb i).still 0 (back + 64 * i) (rdBytes s.frames (fb + 64 * i) 64) = true)
include align first now

/-- Each dirty line goes to the block with its tag, and no other byte changes. -/
theorem State.savedLines_keeps {n : Nat} (hn : n ≤ 32) :
    (s.savedLines c p back fb n).kept = s.kept ∧ (s.savedLines c p back fb n).reqs = s.reqs ∧
    (∀ a, rdByte (s.savedLines c p back fb n).mem a =
      if back ≤ a ∧ a < back + 64 * n ∧ p.dirty.getLsbD ((a - back) / 64) = true then rdByte s.frames (fb + (a - back)) else rdByte s.mem a) ∧
    ∀ i, i < n → p.dirty.getLsbD i = true → (s.savedLines c p back fb n).tag (back + 64 * i) = s.ftag (fb + 64 * i) := by
  induction n with
  | zero => exact ⟨rfl, rfl, fun a => by rw [if_neg (by omega)]; rfl, fun i hi => by omega⟩
  | succ n ih =>
    obtain ⟨kept, reqs, bytes, tags⟩ := ih (by omega)
    have step : s.savedLines c p back fb (n + 1) = if p.dirty.getLsbD n then (s.savedLines c p back fb n).agentWrite c (back + 64 * n)
        (rdBytes (s.savedLines c p back fb n).frames (fb + 64 * n) 64) (some ((s.savedLines c p back fb n).ftag (fb + 64 * n)))
        else s.savedLines c p back fb n := forN_succ ..
    have hnow := now n (by omega)
    generalize s.savedLines c p back fb n = v at kept reqs bytes tags step hnow
    rw [step]
    by_cases hd : p.dirty.getLsbD n = true
    · rw [if_pos hd]
      obtain ⟨free, sound, still⟩ := hnow hd
      have frames : v.frames = s.frames := (congrArg State.frames kept :)
      have ftag : v.ftag (fb + 64 * n) = s.ftag (fb + 64 * n) := (congrArg (fun t => State.ftag t (fb + 64 * n)) kept :)
      have waits : v.partWaits ((back + 64 * n) / 64) = false := by
        have := List.any_eq_false.mp first n (List.mem_range.mpr (by omega))
        rw [show (back + 64 * n) / 64 = back / 64 + n by omega, State.partWaits, reqs]
        simpa [State.partWaits] using this
      rw [frames, ftag]
      obtain ⟨kept', reqs', mem', tags'⟩ := State.agentWrite_now (c := c) (tag := s.ftag (fb + 64 * n)) free sound still waits
      refine ⟨kept'.trans kept, reqs'.trans reqs, fun a => ?_, fun i hi hdi => ?_⟩
      · rw [mem', rdByte_wrBytes, rdBytes_length]
        by_cases here : back + 64 * n ≤ a ∧ a < back + 64 * n + 64
        · have line : (a - back) / 64 = n := by omega
          rw [if_pos here, if_pos (by rw [line]; exact ⟨by omega, by omega, hd⟩), rdBytes_getD _ _ _ _ (by omega)]
          congr 1
          omega
        · rw [if_neg here, bytes]
          refine if_congr ?_ rfl rfl
          constructor
          · rintro ⟨h1, h2, h3⟩
            exact ⟨h1, by omega, h3⟩
          · rintro ⟨h1, h2, h3⟩
            exact ⟨h1, by omega, h3⟩
      · rw [State.tag, tags', getD_putD]
        split
        · next same =>
          obtain rfl : i = n := by omega
          rfl
        · exact tags i (by omega) hdi
    · rw [if_neg hd]
      refine ⟨kept, reqs, fun a => ?_, fun i hi hdi => tags i ?_ hdi⟩
      · rw [bytes]
        refine if_congr ?_ rfl rfl
        constructor
        · rintro ⟨h1, h2, h3⟩
          exact ⟨h1, by omega, h3⟩
        · rintro ⟨h1, h2, h3⟩
          refine ⟨h1, ?_, h3⟩
          by_contra last
          exact hd (by rwa [show (a - back) / 64 = n by omega] at h3)
      · by_contra last
        exact hd (by rwa [show i = n by omega] at hdi)

end

/-- A page that no cluster waits for is not brought in. -/
theorem State.spServe_of_idle {s : State} {c n : Nat} (h : (s.spPage c n).reqs = []) : s.spServe c n = s := by
  unfold State.spServe
  dsimp only
  split
  · next hr => cases hr.symm.trans h
  · rfl

/-- A block stands at a multiple of its size. -/
theorem spEntryOf_align {e back : Nat} {zf : Bool} (h : spEntryOf e = some (back, zf)) : back % 64 = 0 := by
  unfold spEntryOf at h
  split at h
  · cases h
  · dsimp only at h
    split at h
    · cases h
    · simp only [Option.some.injEq, Prod.mk.injEq] at h
      omega

/-! ### The bounce buffer (13 R383) -/

theorem State.bounce_spStore (s : State) (lin : Bool) (c a own cmd fa : Nat) (bs : List Byte) (tag : Option (BitVec 4)) :
    (s.spStore lin c a own cmd fa bs tag).bounce = s.bounce := by
  unfold State.spStore
  extract_lets bad s1 s2
  have logged : s1.bounce = s.bounce := by
    dsimp only [s1]
    split
    · exact (congrArg State.bounce (s.kept_log ..) :)
    · rfl
  have stored : s2.bounce = s.bounce := logged
  clear_value s1 s2
  split
  · exact logged
  · split
    · exact stored
    · split <;> exact stored

theorem State.bounce_mergeFrame (s : State) (cl f : Nat) (b : Bounce) : (s.mergeFrame cl f b).bounce = s.bounce := by
  have patched (fa : Nat) (tag : BitVec 4) : (s.spPatch b.ctx b.addr b.own b.cmd fa b.bytes tag).bounce = s.bounce := by
    unfold State.spPatch
    split
    · exact State.bounce_spStore ..
    · split
      · exact (congrArg State.bounce (s.kept_log ..) :)
      · exact foldl_keeps (f := fun (t : State) (r : Nat × List Byte) => { t.viewWrite false b.own b.cmd (fa + r.1) r.2 with fresh := s.fresh })
          (fun t => t.bounce = s.bounce) (fun t r h => h) _ rfl
  exact patched ..

theorem State.kept_mergeBack (s : State) (back : Nat) (b : Bounce) : (s.mergeBack back b).kept = s.kept := by
  unfold State.mergeBack
  dsimp only
  split
  · exact State.kept_log ..
  · exact State.kept_foldl (fun _ _ => State.kept_agentWrite ..) _ _

/-- Settles O34. -/
theorem pagerSteps : Obligations.PagerSteps := by
  intro s c n cl f back zf p fb hentry
  refine ⟨fun hwait => ⟨fun hres => ?_, fun hres => ?_⟩, fun hres hwait => ?_, fun hres hreqs hwait => ?_,
    fun hres hne hstay hpin hb => ?_, fun hres hsome => ?_, fun hres hsome => ?_⟩
  · change execPageInComplete c n s = _
    rw [execPageInComplete]
    dsimp only
    rw [show (s.spPage c n).res = .pin cl f from hres, hentry]
    simp [hwait]
  · change execPageOutComplete c n s = _
    rw [execPageOutComplete]
    dsimp only
    rw [show (s.spPage c n).res = .pout cl f from hres, hentry]
    simp [hwait]
  · refine ⟨(s.pageFill (if p.written then some back else none) fb).setPage c n
      { p with res := .res cl f, dirty := 0, since := s.gcyc, used := s.gcyc }, ?_, ?_⟩
    · change execPageInComplete c n s = _
      rw [execPageInComplete]
      dsimp only
      rw [show (s.spPage c n).res = .pin cl f from hres, hentry]
      dsimp only
      rw [hwait]
      rfl
    · obtain ⟨-, mem, -⟩ := s.pageFill_keeps (if p.written then some back else none) fb
      obtain ⟨bs, frames, len, bytes⟩ := s.pageFill_bytes p.written back fb
      rw [State.spPage_setPage_same]
      refine ⟨rfl, rfl, rfl, mem, fun i hi => ?_, fun a ha => ?_⟩
      · exact ((congrArg (fun m => rdByte m (fb + i)) frames :).trans (rdByte_wrBytes_in (by rwa [len]))).trans (bytes i hi)
      · exact (congrArg (fun m => rdByte m a) frames :).trans (rdByte_wrBytes_out (by rwa [len]))
  · intro line now
    have align := spEntryOf_align hentry
    obtain ⟨kept, reqs, bytes, tags⟩ := State.savedLines_keeps (c := c) (fb := fb) align hwait now (Nat.le_refl 32)
    obtain ⟨v, hv⟩ : ∃ v, s.savedLines c p back fb 32 = v := ⟨_, rfl⟩
    rw [hv] at kept reqs bytes tags
    have waits (l : List Unjoined) : ({ v with unjoined := l } : State).blockWaits back = false := by
      rw [← hwait, State.blockWaits, State.blockWaits]
      simp only [State.partWaits, reqs]
    refine ⟨({ v with unjoined := v.unjoined.filter fun u => u.line / 32 != fb / 2048 } : State).setPage c n
      { p with res := .absent, written := true, dirty := 0 }, ?_, ?_⟩
    · change execPageOutComplete c n s = _
      rw [execPageOutComplete]
      dsimp only
      rw [show (s.spPage c n).res = .pout cl f from hres, hentry]
      dsimp only
      rw [hwait]
      have saved : s.pageSave c (s.spPage c n) back ((cl * 768 + f) * 2048) =
          { v with unjoined := v.unjoined.filter fun u => u.line / 32 != fb / 2048 } := by
        rw [← hv]
        rfl
      rw [saved, waits]
      simp only [Bool.false_eq_true, if_false]
      rw [State.spServe_of_idle (by rw [State.spPage_setPage_same]; exact hreqs)]
    · rw [State.spPage_setPage_same]
      refine ⟨rfl, rfl, rfl, (congrArg State.frames kept :), fun i hi hd => ⟨tags i hi hd, fun j hj => ?_⟩, fun a ha => ?_⟩
      · refine (bytes (back + 64 * i + j)).trans ?_
        rw [if_pos ⟨by omega, by omega, by rwa [show (back + 64 * i + j - back) / 64 = i by omega]⟩]
        rw [show back + 64 * i + j - back = 64 * i + j by omega, Nat.add_assoc]
      · exact (bytes a).trans (if_neg (by omega))
  · change execResidencyStayExpire c n s = _
    rw [execResidencyStayExpire]
    dsimp only
    rw [show (s.spPage c n).res = .res cl f from hres]
    dsimp only
    have late : ¬s.gcyc < (s.spPage c n).since + 2048 := Nat.not_lt.mpr hstay
    have waiting : (s.spPage c n).reqs ≠ [] := hne
    have loose : s.pinned cl (pageKey c n) (s.spPage c n) = false := hpin
    rw [if_neg (by simp [loose, hb, late, waiting])]
  all_goals
    have some_ : ((s.bounce.filter fun b => b.ctx == c && b.addr / 2048 == n).isEmpty) = false := by
      obtain ⟨b, hb, hc, ha⟩ := hsome
      rw [List.isEmpty_eq_false_iff_exists_mem]
      exact ⟨b, List.mem_filter.mpr ⟨hb, by simp [hc, ha]⟩⟩
    have gone : ∀ b ∈ (s.bounce.filter fun b => !(b.ctx == c && b.addr / 2048 == n)), ¬(b.ctx = c ∧ b.addr / 2048 = n) := by
      rintro b hb ⟨hc, ha⟩
      simpa [hc, ha] using (List.mem_filter.mp hb).2
  · refine ⟨(s.bounce.filter fun b => b.ctx == c && b.addr / 2048 == n).foldl (fun s b => s.mergeFrame cl f b)
      { s with bounce := s.bounce.filter fun b => !(b.ctx == c && b.addr / 2048 == n) }, ?_, ?_⟩
    · change execBounceMerge c n s = _
      rw [execBounceMerge]
      dsimp only
      rw [some_, show (s.spPage c n).res = .res cl f from hres, hentry]
      rfl
    · have kept := foldl_keeps (f := fun (s : State) (b : Bounce) => s.mergeFrame cl f b)
        (fun t => t.bounce = s.bounce.filter fun b => !(b.ctx == c && b.addr / 2048 == n))
        (fun t b h => (t.bounce_mergeFrame cl f b).trans h) (s.bounce.filter fun b => b.ctx == c && b.addr / 2048 == n)
        (s := { s with bounce := s.bounce.filter fun b => !(b.ctx == c && b.addr / 2048 == n) }) rfl
      rwa [kept]
  · obtain ⟨v, hv, kept⟩ : ∃ v : State, (if p.written then { s with bounce := s.bounce.filter fun b => !(b.ctx == c && b.addr / 2048 == n) }
        else forN 32 { s with bounce := s.bounce.filter fun b => !(b.ctx == c && b.addr / 2048 == n) } fun i s =>
          s.agentWrite c (back + 64 * i) (List.replicate 64 0) (some 0)) = v ∧
        v.kept = ({ s with bounce := s.bounce.filter fun b => !(b.ctx == c && b.addr / 2048 == n) } : State).kept :=
      ⟨_, rfl, State.kept_ite rfl (State.kept_forN (fun _ _ => State.kept_agentWrite ..) _ _)⟩
    refine ⟨((s.bounce.filter fun b => b.ctx == c && b.addr / 2048 == n).foldl (fun s b => s.mergeBack back b) v).setPage c n
      { p with written := true }, ?_, ?_⟩
    · change execBounceMerge c n s = _
      rw [execBounceMerge]
      dsimp only
      rw [some_, show (s.spPage c n).res = .absent from hres, hentry, ← hv]
      rfl
    · have merged := (State.kept_foldl (fun s b => s.kept_mergeBack back b) (s.bounce.filter fun b => b.ctx == c && b.addr / 2048 == n) v).trans kept
      rw [State.spPage_setPage_same]
      refine ⟨?_, rfl, (congrArg State.frames merged :)⟩
      rwa [show (((s.bounce.filter fun b => b.ctx == c && b.addr / 2048 == n).foldl (fun s b => s.mergeBack back b) v).setPage c n
        { p with written := true }).bounce = _ from (congrArg State.bounce merged :)]

end Sys2Proof.Machine
end

section
/-! PROOFS. A line listed in state I (O35). -/

namespace Sys2Proof.Machine

open Sys2Proof

/-! ### A listed line in state I (10 Table 10-3, 01 R34)

No access lists a line in state I; `evictL1`, which `coreGate` applies to the core's lines, leaves such a one listed. -/

/-- Core 0's L1 lists line 0 in state I. -/
def invalidListed : State := { l1 := [(0, 0, .i)] }

/-- What L1 caches list after an outcome. -/
def l1Listed (o : Host.Outcome State Fault Refusal) : List (Nat × Nat × Moesi) := match o with
  | .next t => t.l1
  | _ => []

theorem l1Listed_invalidListed : l1Listed (exec (.coreGate 0) invalidListed) = [(0, 0, .i)] := by
  decide +kernel

/-- Refutes O35: once core 0 of `invalidListed` is gated, its L1 lists the line still. -/
theorem not_corePower : ¬ Obligations.CorePower := by
  intro h
  obtain ⟨gate, -⟩ := h invalidListed 0
  obtain ⟨t, run, -, -, -, l1, -⟩ := gate (by decide) (by decide) (fun i _ => rfl) (by decide +kernel)
  have listed : t.l1 = [(0, 0, .i)] := by
    rw [← l1Listed_invalidListed, run]
    rfl
  exact l1 (0, 0, .i) (by rw [listed]; exact List.mem_singleton_self _) rfl

end Sys2Proof.Machine
end

section
/-! PROOFS. Idle levels and the throttle (O36). -/

namespace Sys2Proof.Machine

open Sys2Proof

/-! ### Idle levels (20 R488, R489) and the power limit (R490) -/

theorem tolerated_zero (v : Nat) : tolerated v 0 = true := by
  simp [tolerated, exitNs]

theorem State.entryDue_of {s : State} (hq : s.quiet = true) (ht : 2 ^ 16 ≤ s.sys.idleFor) (ho : s.sys.idleTo = none) (hi : s.sys.idle < 4)
    (hl : tolerated s.sys.hltol (s.sys.idle + 1) = true) : s.entryDue = true := by
  simp [State.entryDue, hq, ho, hi, hl]
  omega

/-- An exit that is begun is due no earlier than now. -/
theorem State.startExit_begins {s : State} (hi : s.sys.idle ≠ 0) (ho : s.sys.idleTo = none) :
    s.startExit = { s with sys := { s.sys with idleTo := some (s.gcyc + exitCycles s.sys.idle) } } := by
  rw [State.startExit, if_neg (by simp [hi, ho])]

/-- An entry keeps all but the level. -/
theorem State.enterDue_eq (s : State) : ∃ n, (s.sys.idle ≠ 0 → n ≠ 0) ∧ s.enterDue = { s with sys := { s.sys with idle := n } } := by
  unfold State.enterDue
  split
  · exact ⟨_, fun _ => Nat.succ_ne_zero _, rfl⟩
  · exact ⟨s.sys.idle, fun h => h, rfl⟩

theorem execIdleExitComplete_eq {s : State} {g : Nat} (hg : s.sys.idleTo = some g) :
    execIdleExitComplete s = .next (if s.gcyc < g then s
      else s.sys.asked.foldl State.serve { s with sys := { s.sys with idle := 0, idleFor := 0, idleTo := none, asked := [] } }) := by
  rw [execIdleExitComplete, hg]

/-- A message of the host's that finds no entry due sets the tolerance, and starts the exit from a level beyond it. -/
theorem execHltolMessage_eq {s : State} {v : BitVec 16} (hup : (s.link linorPort).st = 3) (hr : s.sys.recovery = false) (he : s.entryDue = false) :
    execHltolMessage v s = .next (if tolerated v.toNat s.sys.idle then { s with sys := { s.sys with hltol := v.toNat } }
      else ({ s with sys := { s.sys with hltol := v.toNat } } : State).startExit) := by
  have stays : s.enterDue = s := by rw [State.enterDue, he]; rfl
  rw [execHltolMessage, if_pos ⟨hup, hr⟩, stays]

/-- Settles O36. -/
theorem idleAndThrottle : Obligations.IdleAndThrottle := by
  refine ⟨fun s v => ⟨fun hq ht ho hi hl => ?_, fun hi ho => ?_, fun g hg => ⟨fun early => ?_, fun late => ?_, fun late none_ => ?_⟩,
    fun h => ?_, fun hup hr he => ?_⟩, fun s p hs => ?_⟩
  · change execIdleEntry s = _
    rw [execIdleEntry, State.enterDue, State.entryDue_of hq ht ho hi hl]
    rfl
  · obtain ⟨n, hn, entered⟩ := s.enterDue_eq
    have begins := State.startExit_begins (s := s.enterDue) (by rw [entered]; exact hn hi) (by rw [entered]; exact ho)
    refine ⟨_, s.gcyc + exitCycles n, rfl, ?_⟩
    rw [begins, entered]
    exact ⟨rfl, Nat.le_add_right _ _, rfl, rfl⟩
  · exact (execIdleExitComplete_eq hg).trans (by rw [if_pos early])
  · exact (execIdleExitComplete_eq hg).trans (by rw [if_neg (by omega)])
  · exact (execIdleExitComplete_eq hg).trans (by rw [if_neg (by omega), none_]; rfl)
  · change execHltolMessage v s = _
    rw [execHltolMessage, if_neg]
    rintro ⟨up, sound⟩
    rcases h with h | h
    · exact h up
    · rw [h] at sound
      cases sound
  · refine ⟨_, execHltolMessage_eq hup hr he, ?_⟩
    cases ht : tolerated v.toNat s.sys.idle with
    | true => exact ⟨rfl, rfl, rfl, rfl, fun _ => rfl, fun h => by cases h⟩
    | false =>
      have deep : s.sys.idle ≠ 0 := by
        intro h
        rw [h, tolerated_zero] at ht
        cases ht
      simp only [Bool.false_eq_true, if_false]
      unfold State.startExit
      split
      · next stays => exact ⟨rfl, rfl, rfl, rfl, fun h => h.elim, fun _ => stays.resolve_left deep⟩
      · exact ⟨rfl, rfl, rfl, rfl, fun h => h.elim, fun _ => rfl⟩
  · intro l lim
    refine ⟨_, rfl, ?_⟩
    rw [if_neg (by omega)]
    have sum : l.foldl (· + ·) 0 = l.sum := List.sum_eq_foldl.symm
    exact ⟨congrArg (· / l.length) sum, rfl, rfl, by rw [← sum], rfl, rfl⟩

end Sys2Proof.Machine
end

section
/-! PROOFS. Reset, fuses and attestation (O37). -/

namespace Sys2Proof.Machine

open Sys2Proof

/-! ### Reset, fuses and attestation (20 R491–R496) -/

theorem ofBytes_append (a b : List Byte) : ofBytes (a ++ b) = ofBytes a + 2 ^ (8 * a.length) * ofBytes b := by
  induction a with
  | nil => simp [ofBytes]
  | cons x r ih =>
    rw [List.cons_append, ofBytes, ih, ofBytes, List.length_cons, Nat.mul_succ, Nat.pow_add]
    ring

/-- Of the bytes of a run of eight, the first four give its value mod 2^32. -/
theorem ofBytes_imageBytes_mod (i : Nat) : ofBytes (imageBytes i 0 8) % 2 ^ 32 = ofBytes (imageBytes i 0 4) := by
  have parts : imageBytes i 0 8 = imageBytes i 0 4 ++ imageBytes i 4 4 := rfl
  have len : (imageBytes i 0 4).length = 4 := rfl
  have small := ofBytes_lt (imageBytes i 0 4)
  rw [len] at small
  rw [parts, ofBytes_append, len]
  omega

theorem imageGood_iff (i n : Nat) : imageGood i n = true ↔ ofBytes (imageBytes i 0 4) = 0x574F4C49 ∧
    sha3 (imageBytes i 64 (ofBytes (imageBytes i 0x10 8))) = imageBytes i 0x20 32 ∧
    Config.firmwareSigned (sha3 (imageBytes i 0 64)) (imageBytes i (64 + ofBytes (imageBytes i 0x10 8)) 2420) = true ∧
    n ≤ ofBytes (imageBytes i 0x08 8) := by
  rw [imageGood, ofBytes_imageBytes_mod]
  simp only [Bool.and_eq_true, beq_iff_eq, decide_eq_true_eq, and_assoc]
  rfl

/-- Below I0 a request only starts the exit and waits. -/
theorem State.served_waits {s : State} (h : s.sys.idle ≠ 0) (a : Asked) (f : State → State) :
    (s.served a f).sys.report = s.sys.report ∧ (s.served a f).sys.lcsStage = s.sys.lcsStage := by
  obtain ⟨n, hn, entered⟩ := s.enterDue_eq
  unfold State.served
  dsimp only
  rw [entered, if_neg (hn h)]
  unfold State.startExit
  split <;> exact ⟨rfl, rfl⟩

/-- Settles O37. -/
theorem resetFusesAttestation : Obligations.ResetFusesAttestation := by
  refine ⟨fun s => ⟨_, rfl, ?_⟩, imageGood_iff, fun s n nonce => ⟨fun hi he => ⟨⟨_, rfl, ?_⟩, fun hr => ⟨_, rfl, ?_⟩, fun hr => ?_⟩, fun hi e hmem => ?_⟩⟩
  · cases good : imageGood s.fresh s.sys.rollback with
    | true =>
      refine ⟨rfl, rfl, rfl, rfl, rfl, rfl, rfl, rfl, fun _ => rfl, fun a ha => ?_, fun _ => rfl, fun _ => rfl⟩
      refine (getD_filter 0 s.mem (fun a => physClass a == .host) a).trans (if_neg ?_)
      simpa using ha
    | false => exact ⟨rfl, rfl, rfl, rfl, rfl, rfl, rfl⟩
  · rw [State.served_awake ⟨hi, he⟩]
    unfold State.fuseWrite
    split
    · next h => subst h; simp
    · next h =>
      split
      · next hn => simp [h, hn]
      · next hn => simp [h, hn]
  · rw [State.served_awake ⟨hi, he⟩, State.attest, hr]
    exact ⟨rfl, rfl, rfl⟩
  · change execAttestationRequest nonce s = _
    rw [execAttestationRequest, State.served_awake ⟨hi, he⟩, State.attest, hr]
    rfl
  · rcases List.mem_pair.mp hmem with rfl | rfl
    · obtain ⟨asked, exit, mem, -⟩ := State.served_asleep hi (.fuse n) fun s => s.fuseWrite n
      obtain ⟨report, stage⟩ := State.served_waits hi (.fuse n) fun s => s.fuseWrite n
      exact ⟨_, rfl, asked, exit, report, stage, mem⟩
    · obtain ⟨asked, exit, mem, -⟩ := State.served_asleep hi (.attest nonce) fun s => s.attest nonce
      obtain ⟨report, stage⟩ := State.served_waits hi (.attest nonce) fun s => s.attest nonce
      exact ⟨_, rfl, asked, exit, report, stage, mem⟩

end Sys2Proof.Machine
end

section
/-! PROOFS. A fetch that ends a freeze (O56). -/

namespace Sys2Proof.Machine

open Sys2Proof

/-! ### A fetch that holds an issuer ends the freeze before it (03 R93, 19 R481)

The hold has another cause than the freeze: that stall ends, and where it is traced the trace ring's next entry is written. -/

/-- Partition 0, frozen in its last cycle with its stall trace armed, stands at an address whose line no cache holds; all of its memory is
one executable page, and the trace ring stands at 0x5000. -/
def frozenUnfetched : State :=
  { sys := { debugOn := 16 }
    ctxs := [(0, { st := .running, allot := [0], cdbg := 4, trbase := 0x5000, desc := [(8, 0x1000)] })]
    mem := testTable []
    turn := [0]
    thr := [(0, { mode := .running, held := some 1, stallArmed := true })] }

/-- The tail of the ring at 0x5000 after an outcome. -/
def ringTail (o : Host.Outcome State Fault Refusal) : Nat := match o with
  | .next t => rdN t.mem 0x5000 8
  | _ => 0

theorem ringTail_frozenUnfetched : rdN (frozenUnfetched.begun 0).mem 0x5000 8 = 0 ∧ ringTail (step frozenUnfetched) = 1 ∧
    (frozenUnfetched.begun 0).codePa 0 ((frozenUnfetched.begun 0).th 0).pc = some 0 ∧
    (frozenUnfetched.begun 0).icLine ((frozenUnfetched.begun 0).tcore 0) 0 = none := by
  decide +kernel

/-- Refutes O56: the step of `frozenUnfetched` writes its trace ring. -/
theorem not_stepRunsDecodedInstruction : ¬ Obligations.StepRunsDecodedInstruction := by
  intro h
  obtain ⟨-, -, turn, -⟩ := h frozenUnfetched
  obtain ⟨-, -, unfetched, -⟩ := turn 0 [] rfl rfl
  obtain ⟨before, after, mapped, missed⟩ := ringTail_frozenUnfetched
  obtain ⟨t, run, -, -, -, -, mem⟩ := unfetched 0 ⟨rfl, rfl, rfl, rfl, rfl, rfl⟩ mapped missed
  rw [run] at after
  have same : rdN t.mem 0x5000 8 = rdN (frozenUnfetched.begun 0).mem 0x5000 8 := congrArg (fun m => rdN m 0x5000 8) mem
  exact absurd ((same.trans before).symm.trans after) (by decide)

end Sys2Proof.Machine
end

section
/-! PROOFS. What an engine's write leaves as it was (08 R220, 10 R291). -/

namespace Sys2Proof.Machine

open Sys2Proof

/-! ### What a write of an engine's leaves as it was -/

/-- A command without what its own writes may set. -/
def Cmd.unviolated (m : Cmd) : Cmd := { m with viol := false }

/-- The state without what an engine's write may change. -/
def State.besideWrites (s : State) : State :=
  { s.kept with deltas := [], installs := [], signals := [], reqs := [], cmds := s.cmds.map Cmd.unviolated }

theorem State.besideWrites_of_kept {s t : State} (h : t.kept = s.kept) : t.besideWrites = s.besideWrites :=
  congrArg (fun u : State => { u with deltas := [], installs := [], signals := [], reqs := [], cmds := u.cmds.map Cmd.unviolated }) h

theorem State.besideWrites_foldl {α : Type} {f : State → α → State} (h : ∀ s a, (f s a).besideWrites = s.besideWrites) (l : List α) (s : State) :
    (l.foldl f s).besideWrites = s.besideWrites :=
  foldl_keeps (fun t => t.besideWrites = s.besideWrites) (fun t a ht => (h t a).trans ht) l rfl

theorem State.besideWrites_forN {f : Nat → State → State} (h : ∀ i s, (f i s).besideWrites = s.besideWrites) (n : Nat) (s : State) :
    (forN n s f).besideWrites = s.besideWrites := State.besideWrites_foldl (fun s i => h i s) _ s

theorem State.besideWrites_ite {b : Prop} [Decidable b] {s t u : State} (ht : t.besideWrites = s.besideWrites)
    (hu : u.besideWrites = s.besideWrites) : (if b then t else u).besideWrites = s.besideWrites := by
  split
  · exact ht
  · exact hu

theorem State.besideWrites_recPut (s : State) (c i off v : Nat) : (s.recPut c i off v).besideWrites = s.besideWrites :=
  State.besideWrites_of_kept (State.kept_vwrN ..)

theorem State.besideWrites_mergeDelta (s : State) (d : Delta) : (s.mergeDelta d).besideWrites = s.besideWrites := by
  have hist (t : State) := State.besideWrites_forN (f := fun j s =>
    if getD 0 d.hist (2 * j) = 0 ∧ getD 0 d.hist (2 * j + 1) = 0 then s
    else s.recPut d.ctx d.idx (0x100 + 8 * j) (addHalves (s.recWord d.ctx d.idx (0x100 + 8 * j)) (getD 0 d.hist (2 * j)) (getD 0 d.hist (2 * j + 1))))
    (fun j s => State.besideWrites_ite rfl (State.besideWrites_recPut ..)) 32 t
  unfold State.mergeDelta
  refine (State.besideWrites_forN (fun v t => ?_) 4 _).trans ((State.besideWrites_recPut ..).trans ((State.besideWrites_recPut ..).trans
    ((State.besideWrites_recPut ..).trans (hist s))))
  refine State.besideWrites_ite rfl (State.besideWrites_ite ?_ ?_)
  · exact (State.besideWrites_recPut ..).trans (State.besideWrites_recPut ..)
  · exact State.besideWrites_recPut ..

theorem State.besideWrites_merge (s : State) (d : Delta) : (s.merge d).besideWrites = s.besideWrites := State.besideWrites_mergeDelta s d

theorem State.besideWrites_modDelta (s : State) (core c i : Nat) (f : Delta → Delta) : (s.modDelta core c i f).besideWrites = s.besideWrites := by
  unfold State.modDelta
  refine State.besideWrites_ite ?_ (State.besideWrites_ite ?_ rfl)
  · exact State.besideWrites_merge (s.setDelta _) _
  · exact State.besideWrites_merge (s.setDelta _) _

theorem State.besideWrites_liveMove (s : State) (core c : Nat) (bound : Option (Nat × Nat × Nat)) (pa o n : Nat) :
    (s.liveMove core c bound pa o n).besideWrites = s.besideWrites := by
  unfold State.liveMove
  split
  · rfl
  · exact State.besideWrites_ite rfl (State.besideWrites_modDelta ..)

theorem State.besideWrites_putLine (s : State) (core c pa : Nat) (bs : List Byte) (ver : Option Nat) (psn : Bool)
    (bound : Option (Nat × Nat × Nat)) (own : Option (Nat × Nat)) : (s.putLine core c pa bs ver psn bound own).besideWrites = s.besideWrites :=
  (State.besideWrites_liveMove ..).trans (State.besideWrites_of_kept (State.kept_homeWrite s pa bs own))

theorem State.besideWrites_metViolation (s : State) (r : Req) : (s.metViolation r).besideWrites = s.besideWrites := by
  unfold State.metViolation
  refine State.besideWrites_ite rfl ?_
  unfold State.modCmd State.besideWrites
  dsimp only
  rw [List.map_map]
  refine congrArg (fun l => ({ s.kept with deltas := [], installs := [], signals := [], reqs := [], cmds := l } : State)) (List.map_congr_left fun m _ => ?_)
  dsimp only [Function.comp]
  split <;> rfl

theorem State.besideWrites_performStore (s : State) (r : Req) (pa : Nat) (bs : List Byte) (ver : Option Nat) (psn : Bool)
    (bound : Option (Nat × Nat × Nat)) : (s.performStore r pa bs ver psn bound).besideWrites = s.besideWrites := by
  unfold State.performStore
  refine State.besideWrites_ite (State.besideWrites_of_kept (State.kept_partDone ..)) (State.besideWrites_ite ?_ (State.besideWrites_ite rfl ?_))
  · exact (State.besideWrites_of_kept (State.kept_log ..)).trans (State.besideWrites_metViolation ..)
  · split
    · exact State.besideWrites_of_kept (State.kept_log ..)
    · have logged (b : Bool) : (if b = true then s.log r.ctx 3 pa (s.reqAgent r) else s).besideWrites = s.besideWrites :=
        State.besideWrites_ite (State.besideWrites_of_kept (State.kept_log ..)) rfl
      refine State.besideWrites_ite (logged _) ?_
      exact (State.besideWrites_putLine ..).trans (logged _)

theorem State.besideWrites_storeNow (s : State) (r : Req) (pa : Nat) (bs : List Byte) (ver : Option Nat) (psn : Bool)
    (bound : Option (Nat × Nat × Nat)) : (s.storeNow r pa bs ver psn bound).besideWrites = s.besideWrites := by
  unfold State.storeNow
  refine State.besideWrites_ite ?_ rfl
  exact (State.besideWrites_of_kept (State.kept_afreshLine ..)).trans (State.besideWrites_performStore ..)

theorem State.besideWrites_engineWrite (s : State) (m : Cmd) (k : Cap) (bs : List Byte) : (s.engineWrite m k bs).besideWrites = s.besideWrites :=
  State.besideWrites_forN (fun _ _ => State.besideWrites_storeNow ..) _ s

end Sys2Proof.Machine
end

section
/-! PROOFS. Engine commands start (08 R220, R221). -/

namespace Sys2Proof.Machine

open Sys2Proof

/-! ### A write of an engine's that nothing turns away (08 R220, 10 R291) -/

/-- An engine's write of a whole line, or to a line that is not poisoned. -/
theorem State.performStore_engine {s : State} {r : Req} {pa : Nat} {bs : List Byte} {ver : Option Nat}
    (hpa : physClass pa = .hbm) (free : s.protectedKind pa = none) (sound : tagPsn (s.tag pa) = false ∨ bs.length = 64)
    (hkey : engKey 0 ≤ r.key) (hpart : r.key ≠ partKey) :
    let t := s.performStore r pa bs ver false none
    t.kept = ({ s with signals := t.signals } : State).kept ∧ t.reqs = s.reqs ∧ t.mem = wrBytes s.mem pa bs := by
  intro t
  have stored : t = (s.dropRelease pa bs.length).putLine (s.reqCore r) r.ctx pa bs ver false none (s.ownTask (s.reqIssuer r) r.id) := by
    have hv : s.violates (s.firmware (s.reqIssuer r)) pa = false := by rw [State.violates, hpa]
    have late : ¬ r.key < engKey 0 := Nat.not_lt.mpr hkey
    change s.performStore r pa bs ver false none = _
    unfold State.performStore
    rw [if_neg hpart, hv, free]
    rcases sound with h | h
    · simp [hpa, h]
    · simp [hpa, h, late]
  rw [stored]
  refine ⟨?_, State.homeWrite_reqs .., State.mem_homeWrite ..⟩
  exact (State.kept_homeWrite (s.dropRelease pa bs.length) pa bs _).trans (congrArg (fun g => ({ s with signals := g } : State).kept)
    (State.homeWrite_signals (s.dropRelease pa bs.length) ..).symm)

/-- An engine's write within a line where it is open. -/
theorem State.engineWrite_open {u : State} {m : Cmd} {k : Cap} {bs : List Byte} (h : u.open_ m k bs.length) (hn : 0 < bs.length) :
    let t := u.engineWrite m k bs
    t.reqs = u.reqs ∧ t.cmds = u.cmds ∧ t.mem = wrBytes u.mem k.pa bs := by
  intro t
  obtain ⟨plain, one, hpa, free, sound, calm⟩ := h
  have hk : engKey m.id ≠ partKey := engKey_ne_partKey m.id
  have count : (k.pa % 64 + bs.length + 63) / 64 = 1 := by omega
  have still : u.still (engKey m.id) k.pa bs = true := by
    simp only [State.calm, Bool.and_eq_true] at calm
    simp [State.still, calm]
  have piece : (bs.drop (k.pa - k.pa)).take (64 - k.pa % 64) = bs := by
    rw [Nat.sub_self, List.drop_zero, List.take_of_length_le (by omega)]
  have wrote : t = u.afreshLine (k.pa / 64) (u.performStore { id := 0, key := engKey m.id, acc := 0, ctx := m.ctx, kind := .drain 0 } k.pa bs
      (some 0) false none) := by
    change u.engineWrite m k bs = _
    rw [State.engineWrite, count, plain]
    change u.storeNow _ k.pa ((bs.drop (k.pa - k.pa)).take (64 - k.pa % 64)) (some 0) false none = _
    rw [piece, State.storeNow, still, Bool.or_true]
    rfl
  obtain ⟨kept, reqs, mem⟩ := State.performStore_engine (s := u) (r := { id := 0, key := engKey m.id, acc := 0, ctx := m.ctx, kind := .drain 0 })
    (ver := some 0) hpa free sound (Nat.add_le_add_left (Nat.zero_le _) _) hk
  rw [wrote]
  refine ⟨(State.reqs_afreshLine ..).trans reqs, ?_, (State.mem_afreshLine ..).trans mem⟩
  exact (congrArg State.cmds ((State.kept_afreshLine ..).trans kept) :)

/-! ### One line of a copy (08 R226, R227) -/

/-- Bytes of one line stand in one run. -/
theorem byteRuns_placed (bs : List Byte) (o n : Nat) (h : bs ≠ []) :
    byteRuns ((bs.zipIdx n).map fun x => (o + x.2, x.1)) = [(o + n, bs)] := by
  induction bs generalizing n with
  | nil => exact absurd rfl h
  | cons b r ih =>
    rw [List.zipIdx_cons, List.map_cons, byteRuns]
    cases r with
    | nil => rfl
    | cons c r =>
      rw [ih (n + 1) (List.cons_ne_nil c r)]
      dsimp only
      rw [if_pos (by omega)]

/-- A run within a line is one piece. -/
theorem rowPieces_one {a : Nat} {bs : List Byte} (h : a % 64 + bs.length ≤ 64) (hn : bs ≠ [])
    (f : Nat → Nat → Nat × Bool × Option (Nat × BitVec 4)) :
    rowPieces false a bs 0 f = [{ addr := a / 64 * 64, sp := false, bytes := bs.zipIdx.map fun x => (a % 64 + x.2, x.1)
                                  ver := (f 0 bs.length).1, psn := (f 0 bs.length).2.1, src := (f 0 bs.length).2.2 }] := by
  simp only [rowPieces, splitLines_one h (List.length_pos_of_ne_nil hn), List.filterMap_cons, List.filterMap_nil, Nat.add_zero, List.drop_zero,
    List.take_length, Nat.zero_le, decide_true, List.filter_true, Nat.add_zero]
  rw [if_neg (by simpa using hn)]

/-- A copy reads a line of HBM that is not poisoned. -/
theorem State.copyRead_one {s : State} {m : Cmd} {a n : Nat} (hpa : physClass a = .hbm) (sound : tagPsn (s.tag a) = false)
    (h : a % 64 + n ≤ 64) (hn : 0 < n) : s.copyRead m false a n = ([⟨0, rdBytes s.mem a n, s.tag a⟩], s.othersRead (a / 64) 500) := by
  have hv : s.violates (s.firmware m.key) a = false := by rw [State.violates, hpa]
  simp [State.copyRead, splitLines_one h hn, State.copyLine, hv, sound, State.physBytes, hpa]

/-- The line a copy's piece becomes carries no poison. -/
theorem LineBuf.psn_tag {b : LineBuf} (h : b.psn = false) (hs : ∀ x ∈ b.src, tagPsn x.2 = false) : tagPsn b.tag = false := by
  unfold LineBuf.tag
  split
  · next x t e =>
    split
    · exact hs (x, t) e
    · rw [h, tagPsn_mkTag_false]
  · rw [h, tagPsn_mkTag_false]

/-- A copy whose only row is in one line has one unfinished line; it is written. -/
theorem State.copyFlush_one {s : State} {id : Nat} {m : Cmd} {b : LineBuf} {ready : LineBuf → Bool} {o : Nat} {bs : List Byte}
    (hm : s.cmd? id = some m) (hb : m.buf = [b]) (now : ready b = true) (glob : b.sp = false) (run : byteRuns b.bytes = [(o, bs)])
    (sound : tagPsn b.tag = false) :
    let t := s.copyFlush id ready
    (∃ r ver bound, t.reqs = s.reqs ++ [r] ∧ r.key = engKey m.id ∧ r.kind = .store (b.addr + o) bs ver false bound) ∧ t.mem = s.mem ∧
      t.cmds = (s.modCmd id fun m => { m with buf := m.buf.filter fun b => !ready b }).cmds := by
  intro t
  have put : t = (s.modCmd id fun m => { m with buf := m.buf.filter fun b => !ready b }).copyPut m b := by
    change s.copyFlush id ready = _
    rw [State.copyFlush, hm]
    dsimp only
    rw [hb, List.filter_cons_of_pos now]
    rfl
  generalize hu : s.modCmd id (fun m => { m with buf := m.buf.filter fun b => !ready b }) = u at put ⊢
  have same : u.reqs = s.reqs ∧ u.mem = s.mem := by rw [← hu]; exact ⟨rfl, rfl⟩
  have events := State.beyondReads_pmcEvent (s := u) m.runner 0 11 1
  rw [put, State.copyPut, glob, run, sound]
  refine ⟨⟨_, _, _, congrArg (· ++ [_]) ((State.reqs_of_beyondReads events).trans same.1), rfl, rfl⟩, ?_, ?_⟩
  · exact (State.mem_of_beyondReads events).trans same.2
  · exact (congrArg State.cmds events :)

/-- A copy stops behind its last row. -/
theorem State.copyRun_done {s : State} {id : Nat} {m : Cmd} (hm : s.cmd? id = some m) (h : cpRows (m.w.getD 2 0) ≤ m.row) (fuel : Nat) :
    s.copyRun id fuel = s := by
  cases fuel with
  | zero => rfl
  | succ n =>
    rw [State.copyRun, hm]
    dsimp only
    rw [if_pos (by simp only [Bool.or_eq_true, decide_eq_true_eq]; exact .inr h)]

theorem State.cmd?_modCmd {s : State} {id : Nat} {m : Cmd} (hm : s.cmd? id = some m) (f : Cmd → Cmd) (hf : ∀ m, (f m).id = m.id) :
    (s.modCmd id f).cmd? id = some (f m) := by
  rw [State.cmd?_modCmd_same s id f fun m h => (hf m).trans h, hm]
  rfl

theorem State.cmd?_of_cmds {s t : State} (h : t.cmds = s.cmds) (id : Nat) : t.cmd? id = s.cmd? id := by
  rw [State.cmd?, h]
  rfl

/-- What the only row of a copy to one line does before the line is written. -/
def RowSent (s : State) (m : Cmd) (bs : List Byte) : Prop :=
  ∃ (v : State) (f : Nat → Nat → Nat × Bool × Option (Nat × BitVec 4)),
    s.copyRow m = (.go false, v.copyWrite m (rowPieces false m.dstCap.pa bs 0 f)) ∧ v.beyondReads = s.beyondReads ∧
    (f 0 bs.length).2.1 = false ∧ ∀ x ∈ (f 0 bs.length).2.2, tagPsn x.2 = false

/-- The only row of a copy, to one line: one store of its bytes goes to the line's home. -/
theorem State.copyRun_one {s : State} {id : Nat} {m : Cmd} {bs : List Byte} (hm : s.cmd? id = some m) (hrun : m.st = .running)
    (hrows : cpRows (m.w.getD 2 0) = 1) (hrow : m.row = 0) (hbuf : m.buf = []) (hbs : bs ≠ []) (hfit : m.dstCap.pa % 64 + bs.length ≤ 64)
    (sent : RowSent s m bs) (fuel : Nat) :
    let t := s.copyRun id (fuel + 1)
    (∃ r ver bound, t.reqs = s.reqs ++ [r] ∧ r.key = engKey id ∧ r.kind = .store m.dstCap.pa bs ver false bound) ∧ t.mem = s.mem := by
  intro t
  obtain ⟨v, f, row, kept, psn, src⟩ := sent
  obtain rfl : m.id = id := by simpa using List.find?_some hm
  have one : cpRows (m.w.getD 2 0) ≤ m.row + 1 := by rw [hrows]; exact Nat.le_add_left ..
  rw [rowPieces_one hfit hbs] at row
  generalize hb : ({ addr := m.dstCap.pa / 64 * 64, sp := false, bytes := bs.zipIdx.map fun x => (m.dstCap.pa % 64 + x.2, x.1)
                     ver := (f 0 bs.length).1, psn := (f 0 bs.length).2.1, src := (f 0 bs.length).2.2 } : LineBuf) = b at row
  have run : byteRuns b.bytes = [(m.dstCap.pa % 64, bs)] := by rw [← hb]; exact byteRuns_placed bs _ 0 hbs
  have sound : tagPsn b.tag = false := by
    refine LineBuf.psn_tag ?_ ?_
    · rw [← hb]; exact psn
    · rw [← hb]; exact src
  have glob : b.sp = false := by rw [← hb]
  have start : b.addr + m.dstCap.pa % 64 = m.dstCap.pa := by rw [← hb]; exact Nat.div_add_mod' ..
  have vcmd : v.cmd? m.id = some m := (congrArg (fun u : State => u.cmd? m.id) kept).trans hm
  have buffered : (v.copyWrite m [b]).cmd? m.id = some { m with buf := [b] } := by
    have := State.cmd?_modCmd vcmd (fun m => { m with buf := [b].foldl bufPut m.buf }) fun _ => rfl
    rw [State.copyWrite, this, hbuf]
    rfl
  let w := (v.copyWrite m [b]).modCmd m.id fun m => { m with row := m.row + 1, kind := if false then 1 else m.kind }
  have wcmd : w.cmd? m.id = some { m with buf := [b], row := m.row + 1 } := State.cmd?_modCmd buffered _ fun _ => rfl
  let ready (b : LineBuf) : Bool := decide (cpRows (m.w.getD 2 0) ≤ m.row + 1) || b.bytes.length == 64 ||
    (decide (b.addr + 64 ≤ rowAt m.dstCap.pa (cpDp (m.w.getD 2 0)) (m.row + 1)) &&
      (b.sp || m.dstCap.tens.isNone || decide (b.addr < m.dstCap.base + dataRegion m.dstCap.size)))
  have last : ready b = true := by simp only [ready, decide_eq_true one, Bool.true_or]
  obtain ⟨⟨r, ver, bound, reqs, key, kind⟩, mem, cmds⟩ := State.copyFlush_one wcmd rfl last glob run sound
  have ended : (w.copyFlush m.id ready).cmd? m.id = some { m with buf := [b].filter fun b => !ready b, row := m.row + 1 } :=
    (State.cmd?_of_cmds cmds m.id).trans (State.cmd?_modCmd wcmd _ fun _ => rfl)
  have stays : t = w.copyFlush m.id ready := by
    refine Eq.trans ?_ (State.copyRun_done ended one fuel)
    change s.copyRun m.id (fuel + 1) = _
    rw [State.copyRun, hm]
    dsimp only
    rw [if_neg (by simp only [hrun, hrows, hrow]; decide), row]
  rw [stays]
  refine ⟨⟨r, ver, bound, reqs.trans (congrArg (· ++ [r]) (State.reqs_of_beyondReads kept :)), key, ?_⟩,
    mem.trans (State.mem_of_beyondReads kept :)⟩
  rw [kind, start]

/-! ### The row of a copy of one line (08 R226, R227) -/

/-- A running copy between global memories, of whose only row neither line violates, is owed nothing, and reads no poison. -/
structure LineCopy (s : State) (m : Cmd) (pa n len : Nat) : Prop where
  row : m.row = 0
  glob : cpSsp (m.w.getD 3 0) = false ∧ cpDsp (m.w.getD 3 0) = false
  size : cpRowb (m.w.getD 2 0) = n
  major : m.major ≤ 1
  src : (m.caps.getD 0 { va := 0, pa := 0, base := 0, size := 0, tens := none }).pa = pa
  srcLine : pa % 64 + n ≤ 64 ∧ 0 < n
  dst : m.aux.getD 1 n = len
  dstLine : m.dstCap.pa % 64 + len ≤ 64 ∧ 0 < len
  hbm : physClass pa = .hbm
  free : s.violates (s.firmware m.key) m.dstCap.pa = false
  paid : s.owed (engKey m.id) [(pa, n)] = false
  sound : tagPsn (s.tag pa) = false

/-- The state when such a row's line has been read. -/
def State.rowRead (s : State) (pa : Nat) : State := { s with fresh := s.fresh + 1 }.othersRead (pa / 64) 500

theorem State.beyondReads_rowRead (s : State) (pa : Nat) : (s.rowRead pa).beyondReads = s.beyondReads :=
  State.beyondReads_of_beyondCaches (State.beyondCaches_othersRead ..)

/-- Such a row, once its line has been read. -/
theorem State.copyRow_line {s : State} {m : Cmd} {pa n len : Nat} (h : LineCopy s m pa n len) (recs : m.major = 1 → s.copyRecs m = s) :
    s.copyRow m = if m.major = 1 then
        let (xs, cut, s2) := (s.rowRead pa).copyDecode m [⟨0, rdBytes s.mem pa n, s.tag pa⟩] pa
        let (e, s3) := s2.copyEncode m false m.dstCap.pa xs
        match e with
        | .stop k => (.stop k, s3)
        | _ => if cut then (.stop 3, s3) else (.go (xs.any Prod.snd), s3)
      else (.go false, (s.rowRead pa).copyWrite m (rowPieces false m.dstCap.pa (rdBytes s.mem pa n) 0
        (copyOf s m false m.dstCap.pa pa [⟨0, rdBytes s.mem pa n, s.tag pa⟩]))) := by
  obtain ⟨ssp, dsp⟩ := h.glob
  obtain ⟨srcFit, srcSome⟩ := h.srcLine
  obtain ⟨dstFit, dstSome⟩ := h.dstLine
  have hv : s.violates (s.firmware m.key) pa = false := by rw [State.violates, h.hbm]
  have notThree : ¬ m.major = 3 := by have := h.major; omega
  have notTwo : ¬ 2 ≤ m.major := by have := h.major; omega
  have hdst : (m.caps.getD 1 { va := 0, pa := 0, base := 0, size := 0, tens := none }).pa = m.dstCap.pa := rfl
  have none_ : ([pa] ++ [m.dstCap.pa]).find? (s.violates (s.firmware m.key)) = none := by
    simp [hv, h.free]
  have same : (if m.major = 1 then s.copyRecs m else s) = s := by
    split
    · next h1 => exact recs h1
    · rfl
  have skip : s.copySkip m n = 0 := if_neg fun e => e.1 h.row
  have read : ({ s with fresh := s.fresh + 1 } : State).copyRead m false pa n = ([⟨0, rdBytes s.mem pa n, s.tag pa⟩], s.rowRead pa) :=
    State.copyRead_one h.hbm h.sound srcFit srcSome
  unfold State.copyRow
  simp only [ssp, dsp, h.size, h.src, h.row, h.dst, hdst, rowAt, Nat.zero_mul, Nat.add_zero, splitLines_one srcFit srcSome,
    splitLines_one dstFit dstSome, h.paid, Bool.false_and, Bool.false_eq_true, if_false, List.map_cons, List.map_nil, Bool.false_or,
    beq_iff_eq, notThree, none_, List.append_nil, Bool.not_false, Bool.true_and, Bool.or_self, State.spUnmapped, firstSome, State.spMissing,
    List.flatMap_nil, List.dedup_nil, List.filter_nil, List.isEmpty_nil, Bool.not_true, Option.isSome_none, if_true, Nat.lt_irrefl,
    decide_false, gt_iff_lt, same, notTwo, skip]
  rw [read]
  simp only [List.any_cons, List.any_nil, h.sound, Bool.or_self, Bool.false_or, List.flatMap_cons, List.flatMap_nil, List.append_nil] <;> rfl

/-- A byte copy's row. -/
theorem LineCopy.sent_bytes {s : State} {m : Cmd} {pa n : Nat} (h : LineCopy s m pa n n) (zero : m.major = 0) :
    RowSent s m (rdBytes s.mem pa n) := by
  have row := State.copyRow_line h fun e => absurd (zero.symm.trans e) (by decide)
  rw [if_neg (by rw [zero]; decide)] at row
  refine ⟨_, _, row, s.beyondReads_rowRead pa, ?_, ?_⟩
  · simp [copyOf, poisonIn, h.sound]
  · intro x hx
    simp only [copyOf] at hx
    split at hx
    · simp at hx
      rw [← hx]
      exact h.sound
    · simp at hx

/-- The elements of n bytes at an address, in a plain format of w bytes. -/
def plainElems (mem : List Host.Cell) (f pa n : Nat) : List Ex :=
  (List.range (n / (fmtBits f / 8))).map fun i => decCode f (rdN mem (pa + fmtBits f / 8 * i) (fmtBits f / 8))

theorem drop_take_rdBytes (mem : List Host.Cell) {a n d w : Nat} (h : d + w ≤ n) : ((rdBytes mem a n).drop d).take w = rdBytes mem (a + d) w := by
  refine List.ext_getElem (by simp; omega) fun i hi hj => ?_
  have hw : i < w := by simpa using hj
  have byte (b k j : Nat) (hk : j < (rdBytes mem b k).length) : (rdBytes mem b k)[j] = rdByte mem (b + j) :=
    (List.getD_eq_getElem _ 0 hk).symm.trans (rdBytes_getD mem b k j (by simpa using hk))
  rw [List.getElem_take, List.getElem_drop, byte, byte, Nat.add_assoc]

theorem State.copyDecode_plain {s : State} {m : Cmd} {mem : List Host.Cell} {pa n : Nat} {tag : BitVec 4} (sound : tagPsn tag = false)
    (plain : (m.caps.getD 0 { va := 0, pa := 0, base := 0, size := 0, tens := none }).tens = none) :
    s.copyDecode m [⟨0, rdBytes mem pa n, tag⟩] pa = ((plainElems mem (cpSfmt (m.w.getD 3 0)) pa n).map fun x => (x, false), false, s) := by
  unfold State.copyDecode
  simp only [plain, plainElems, List.flatMap_cons, List.flatMap_nil, List.append_nil, rdBytes_length, List.map_map, poisonIn, List.any_cons,
    List.any_nil, sound, Bool.false_and, Bool.or_false]
  refine congrArg (fun l => (l, false, s)) (List.map_congr_left fun i hi => ?_)
  have fits : fmtBits (cpSfmt (m.w.getD 3 0)) / 8 * i + fmtBits (cpSfmt (m.w.getD 3 0)) / 8 ≤ n := by
    have := Nat.mul_le_of_le_div _ _ _ (Nat.succ_le_of_lt (List.mem_range.mp hi))
    rw [Nat.mul_comm, Nat.mul_succ] at this
    exact this
  rw [drop_take_rdBytes mem fits]
  rfl

theorem State.copyEncode_plain {s : State} {m : Cmd} {dst : Nat} {xs : List Ex} (row : m.row = 0)
    (plain : (m.caps.getD 1 { va := 0, pa := 0, base := 0, size := 0, tens := none }).tens = none) :
    ∃ f, s.copyEncode m false dst (xs.map fun x => (x, false)) = (.go false, s.copyWrite m (rowPieces false dst
      (xs.flatMap fun x => bytesOf (fmtBits (cpDfmt (m.w.getD 3 0)) / 8) (convert x (cpDfmt (m.w.getD 3 0))
        (if cpRm (m.w.getD 3 0) = 1 then .rtz else .rne) 0).1) 0 f)) ∧ ∀ lo n, (f lo n).2.1 = false ∧ (f lo n).2.2 = none := by
  have clean (l : List Ex) (i j : Nat) : (((l.map fun x => (x, false)).drop i).take j).any Prod.snd = false := by
    rw [← List.map_drop, ← List.map_take, List.any_map]
    exact List.any_eq_false.mpr fun _ _ => Bool.false_ne_true
  have cleanAll : (xs.map fun x => (x, false)).any Prod.snd = false := by
    rw [List.any_map]
    exact List.any_eq_false.mpr fun _ _ => Bool.false_ne_true
  have skip (n : Nat) : s.copySkip m n = 0 := if_neg fun e => e.1 row
  unfold State.copyEncode
  simp only [plain, Bool.false_eq_true, if_false, cleanAll, skip, clean, List.map_map]
  have vals : xs.map (Prod.fst ∘ fun x => (x, false)) = xs := List.map_id' xs
  rw [vals]
  exact ⟨fun lo _ => (copyVer s m (dst + lo), false, none), rfl, fun _ _ => ⟨rfl, rfl⟩⟩

/-- A converting copy's row, between plain formats. -/
theorem LineCopy.sent_converted {s : State} {m : Cmd} {pa n len : Nat} (h : LineCopy s m pa n len) (one : m.major = 1)
    (plainSrc : (m.caps.getD 0 { va := 0, pa := 0, base := 0, size := 0, tens := none }).tens = none)
    (plainDst : (m.caps.getD 1 { va := 0, pa := 0, base := 0, size := 0, tens := none }).tens = none) :
    RowSent s m ((plainElems s.mem (cpSfmt (m.w.getD 3 0)) pa n).flatMap fun x => bytesOf (fmtBits (cpDfmt (m.w.getD 3 0)) / 8)
      (convert x (cpDfmt (m.w.getD 3 0)) (if cpRm (m.w.getD 3 0) = 1 then .rtz else .rne) 0).1) := by
  have recs : s.copyRecs m = s := by
    have none_ (k : Cap) (hk : k ∈ m.caps.take 2) : k.tens = none := by
      rcases hc : m.caps with _ | ⟨a, _ | ⟨b, r⟩⟩ <;> rw [hc] at hk plainSrc plainDst
      · exact absurd hk List.not_mem_nil
      · obtain rfl := List.mem_singleton.mp hk
        exact plainSrc
      · simp only [List.take_succ_cons, List.take_zero, List.mem_cons, List.not_mem_nil, or_false] at hk
        rcases hk with rfl | rfl
        · exact plainSrc
        · exact plainDst
    unfold State.copyRecs
    revert none_
    generalize m.caps.take 2 = l
    intro none_
    induction l with
    | nil => rfl
    | cons k r ih =>
      rw [List.foldl_cons, none_ k List.mem_cons_self]
      exact ih fun x hx => none_ x (List.mem_cons_of_mem k hx)
  have row := State.copyRow_line h fun _ => recs
  rw [if_pos one, State.copyDecode_plain h.sound plainSrc] at row
  obtain ⟨f, enc, clean⟩ := State.copyEncode_plain (s := s.rowRead pa) (dst := m.dstCap.pa) (xs := plainElems s.mem (cpSfmt (m.w.getD 3 0)) pa n)
    h.row plainDst
  have quiet : ((plainElems s.mem (cpSfmt (m.w.getD 3 0)) pa n).map fun x => (x, false)).any Prod.snd = false := by
    rw [List.any_map]
    exact List.any_eq_false.mpr fun _ _ => Bool.false_ne_true
  dsimp only at row
  rw [enc, quiet] at row
  refine ⟨_, f, row, s.beyondReads_rowRead pa, (clean _ _).1, fun x hx => ?_⟩
  rw [(clean _ _).2] at hx
  exact absurd hx (Option.not_mem_none x)

/-! ### What starts (08 R220) -/

theorem execEngineStart_eq {s : State} {id : Nat} {m : Cmd} (hm : s.cmd? id = some m) :
    exec (.engineStart id) s = .next (s.startEngine m) := by
  change execEngineStart id s = _
  rw [execEngineStart, hm]

theorem State.startEngine_waits {s : State} {m : Cmd} (h : s.starts m = false) : s.startEngine m = s := by
  refine if_pos ?_
  simp only [State.starts] at h
  cases h1 : m.startless <;> cases h2 : s.mayStart m <;> cases h3 : s.tensorHeld m <;> cases h4 : m.isCopy <;> simp_all

theorem State.startEngine_starts {s : State} {m : Cmd} (h : s.starts m = true) :
    s.startEngine m = match s.startViolates m with
      | some pa => (s.log m.ctx 4 pa (agentField m.runner 2 false)).cmdError m (1 + Config.violationCode m.major % 255)
      | none => s.startCmd m := by
  refine if_neg ?_
  simp only [State.starts] at h
  cases h1 : m.startless <;> cases h2 : s.mayStart m <;> cases h3 : s.tensorHeld m <;> cases h4 : m.isCopy <;> simp_all

theorem State.find?_modCmd {α : Type} (s : State) (id : Nat) (f : Cmd → Cmd) (p : Cmd → Bool) (g : Cmd → α) (hp : ∀ m, p (f m) = p m)
    (hg : ∀ m, g (f m) = g m) : ((s.modCmd id f).cmds.find? p).map g = (s.cmds.find? p).map g := by
  unfold State.modCmd
  induction s.cmds with
  | nil => rfl
  | cons m r ih =>
    dsimp only at ih ⊢
    rw [List.map_cons, List.find?_cons, List.find?_cons]
    have hm : p (if m.id == id then f m else m) = p m ∧ g (if m.id == id then f m else m) = g m := by
      split
      · exact ⟨hp m, hg m⟩
      · exact ⟨rfl, rfl⟩
    rw [hm.1]
    cases p m
    · exact ih
    · exact congrArg some hm.2

/-- What is owed to an engine does not rest on how far its commands are. -/
theorem State.owed_modCmd (s : State) (id : Nat) (f : Cmd → Cmd)
    (hf : ∀ m, (f m).id = m.id ∧ (f m).pos = m.pos ∧ (f m).major = m.major ∧ (f m).runner = m.runner) (who : Nat) (runs : List (Nat × Nat)) :
    (s.modCmd id f).owed who runs = s.owed who runs := by
  have core (j : Nat) : (s.modCmd id f).agentCore j = s.agentCore j := by
    unfold State.agentCore
    rw [State.find?_modCmd s id f _ Cmd.runner]
    · intro m; obtain ⟨h1, h2, h3, -⟩ := hf m; simp only [h1, h2, h3]
    · exact fun m => (hf m).2.2.2
  have die (j : Nat) : (s.modCmd id f).agentDie j = s.agentDie j := by
    unfold State.agentDie
    rw [core, State.find?_modCmd s id f _ Cmd.runner]
    · rfl
    · intro m; rw [(hf m).1]
    · exact fun m => (hf m).2.2.2
  unfold State.owed State.within
  simp only [core, die]
  rfl

theorem plainFmt_bits {f : Nat} (h : plainFmt f = true) : fmtBits f = 8 * (fmtBits f / 8) ∧ 0 < fmtBits f / 8 := by
  simp only [plainFmt, List.contains_iff_mem, List.mem_cons, List.not_mem_nil, or_false] at h
  rcases h with rfl | rfl | rfl | rfl | rfl | rfl | rfl
  all_goals decide

theorem length_converted (xs : List Ex) (w : Nat) (f : Ex → Nat) : (xs.flatMap fun x => bytesOf w (f x)).length = xs.length * w := by
  induction xs with
  | nil => exact (Nat.zero_mul w).symm
  | cons x r ih => rw [List.flatMap_cons, List.length_append, ih, bytesOf_length, List.length_cons, Nat.succ_mul, Nat.add_comm]

/-- The bytes of a destination row of a converting copy between plain formats. -/
theorem plainRow_bytes {s : State} {m : Cmd} (one : m.major = 1) (ssp : cpSsp (m.w.getD 3 0) = false) (dsp : cpDsp (m.w.getD 3 0) = false)
    (plainSrc : plainFmt (cpSfmt (m.w.getD 3 0)) = true) (plainDst : plainFmt (cpDfmt (m.w.getD 3 0)) = true)
    (whole : cpRowb (m.w.getD 2 0) % (fmtBits (cpSfmt (m.w.getD 3 0)) / 8) = 0)
    (tens0 : (m.caps.getD 0 { va := 0, pa := 0, base := 0, size := 0, tens := none }).tens = none)
    (tens1 : (m.caps.getD 1 { va := 0, pa := 0, base := 0, size := 0, tens := none }).tens = none) :
    s.copyRowBytes m = cpRowb (m.w.getD 2 0) / (fmtBits (cpSfmt (m.w.getD 3 0)) / 8) * (fmtBits (cpDfmt (m.w.getD 3 0)) / 8) := by
  obtain ⟨bitsF, someF⟩ := plainFmt_bits plainSrc
  obtain ⟨bitsG, someG⟩ := plainFmt_bits plainDst
  unfold State.copyRowBytes
  simp only [one, if_true, ssp, dsp, Bool.false_eq_true, if_false, tens0, tens1, Option.map_none, sideElems, sideBytes]
  generalize cpRowb (m.w.getD 2 0) = n at whole ⊢
  generalize fmtBits (cpSfmt (m.w.getD 3 0)) / 8 = v at *
  generalize fmtBits (cpDfmt (m.w.getD 3 0)) / 8 = w at *
  obtain ⟨k, rfl⟩ := Nat.dvd_of_mod_eq_zero whole
  rw [bitsF, bitsG, if_pos, Option.bind_some, Option.getD_some]
  · rw [Nat.mul_div_cancel_left k someF, show v * k * 8 = 8 * v * k by ring,
      Nat.mul_div_cancel_left k (Nat.mul_pos (by decide) someF), show k * (8 * w) = k * w * 8 by ring, Nat.mul_div_cancel _ (by decide)]
  · exact Nat.mod_eq_zero_of_dvd ⟨k, by ring⟩

/-- A copy as it begins, with the write version of its destination and the bytes of a destination row. -/
def Cmd.begun (m : Cmd) (gcyc ver len : Nat) : Cmd := { m with st := .running, since := gcyc, aux := [ver, len] }

/-- A copy of one line that starts. -/
structure StartLine (s : State) (id : Nat) (m : Cmd) (pa n len : Nat) : Prop where
  cmd : s.cmd? id = some m
  due : copyDue s.gcyc (m.w.getD 3 0) = true
  rows : cpRows (m.w.getD 2 0) = 1
  buf : m.buf = []
  bytes : (s.runCmd m).copyRowBytes m = len
  line : ∀ ver gcyc, LineCopy s (m.begun gcyc ver len) pa n len

theorem StartLine.stores {s : State} {id : Nat} {m : Cmd} {pa n : Nat} {bs : List Byte} (h : StartLine s id m pa n bs.length)
    (sent : ∀ u m', (∃ ver gcyc, m' = m.begun gcyc ver bs.length) → LineCopy u m' pa n bs.length → u.mem = s.mem → RowSent u m' bs) :
    ∃ t r ver b, (s.runCmd m).startCopy m = t ∧ t.reqs = s.reqs ++ [r] ∧ r.key = engKey id ∧
      r.kind = .store m.dstCap.pa bs ver false b ∧ t.mem = s.mem := by
  obtain rfl : m.id = id := by simpa using List.find?_some h.cmd
  obtain ⟨v, starts⟩ : ∃ v, (s.runCmd m).startCopy m =
      ((s.runCmd m).modCmd m.id fun c => c.begun s.gcyc v ((s.runCmd m).copyRowBytes c)).copySome m.id := by
    rw [State.startCopy, if_pos (show copyDue (s.runCmd m).gcyc _ = true from h.due), State.copyBegin]
    exact ⟨_, rfl⟩
  let f (c : Cmd) : Cmd := c.begun s.gcyc v ((s.runCmd m).copyRowBytes c)
  rw [starts, State.copySome, Nat.add_comm 1]
  have ran : (s.runCmd m).cmd? m.id = some { m with st := .running, since := s.gcyc } := State.cmd?_modCmd h.cmd _ fun _ => rfl
  have begun : ((s.runCmd m).modCmd m.id f).cmd? m.id = some (m.begun s.gcyc v bs.length) := by
    have bytes : (s.runCmd m).copyRowBytes { m with st := .running, since := s.gcyc } = bs.length := h.bytes
    have := State.cmd?_modCmd ran f fun _ => rfl
    dsimp only [f] at this
    rw [bytes] at this
    exact this
  have owed (who : Nat) (runs : List (Nat × Nat)) : ((s.runCmd m).modCmd m.id f).owed who runs = s.owed who runs := by
    rw [State.owed_modCmd (s.runCmd m) m.id f (fun _ => ⟨rfl, rfl, rfl, rfl⟩)]
    rw [State.runCmd, State.owed_modCmd]
    exact fun _ => ⟨rfl, rfl, rfl, rfl⟩
  generalize hu : (s.runCmd m).modCmd m.id f = u at begun owed ⊢
  have same : u.mem = s.mem ∧ u.reqs = s.reqs ∧ u.tags = s.tags ∧ u.sys = s.sys ∧ u.ctxs = s.ctxs ∧ u.gcyc = s.gcyc := by
    rw [← hu]
    exact ⟨rfl, rfl, rfl, rfl, rfl, rfl⟩
  obtain ⟨mem, reqs, tags, sys, ctxs, gcyc⟩ := same
  have line := h.line v s.gcyc
  have here : LineCopy { u with fresh := u.fresh + 1 } (m.begun s.gcyc v bs.length) pa n bs.length := by
    refine { line with free := ?_, paid := (owed _ _).trans line.paid, sound := ?_ }
    · refine Eq.trans ?_ line.free
      simp only [State.violates, State.firmware, State.ctx, sys, ctxs, gcyc]
    · refine Eq.trans ?_ line.sound
      simp only [State.tag, tags]
  obtain ⟨⟨r, ver, b, added, key, kind⟩, kept⟩ := State.copyRun_one (s := { u with fresh := u.fresh + 1 }) (bs := bs) begun rfl h.rows line.row h.buf
    (List.ne_nil_of_length_pos line.dstLine.2) line.dstLine.1 (sent _ _ ⟨v, s.gcyc, rfl⟩ here mem) (Config.pickFrame u.fresh)
  exact ⟨_, r, ver, b, rfl, added.trans (congrArg (· ++ [r]) reqs), key, kind, kept.trans mem⟩
/-! ### What some commands do at their start -/

theorem State.startSems_sound {s : State} {m : Cmd} {id : Nat} (hid : m.id = id) (clean : s.clean id = true)
    (sound : s.violates false (s.semPa m.ctx (m.w.getD 0 0).toNat) = false) (calm : s.calm (s.semPa m.ctx (m.w.getD 0 0).toNat / 64) 0 = true) :
    let n := (m.w.getD 0 0).toNat
    let t := s.startSems m
    t.ended id = true ∧ t.semRead m.ctx n =
        (if m.fn = 0 then s.semRead m.ctx n + (m.w.getD 1 0).toNat % 2 ^ 32 else (m.w.getD 1 0).toNat % 2 ^ 32) % 2 ^ 32 ∧
      ∀ a, a < s.semPa m.ctx n ∨ s.semPa m.ctx n + 4 ≤ a → rdByte t.mem a = rdByte s.mem a := by
  intro n t
  have still (bs : List Byte) : s.still 0 (s.semPa m.ctx n) bs = true := by
    simp only [State.calm, Bool.and_eq_true] at calm
    simp only [State.still, calm.1.1, calm.1.2, n, Bool.and_self, Bool.or_true]
  have first : s.partWaits (s.semPa m.ctx n / 64) = false := by
    simp only [State.calm, Bool.and_eq_true, Bool.not_eq_true'] at calm
    exact calm.2
  generalize hv : (if m.fn = 0 then s.semRead m.ctx n + (m.w.getD 1 0).toNat % 2 ^ 32 else (m.w.getD 1 0).toNat % 2 ^ 32) = v
  let w := s.afreshLine (s.semPa m.ctx n / 64) (s.homeWrite (s.semPa m.ctx n) (bytesOf 4 v))
  have wrote : s.semWrite m.ctx n v = w := by
    rw [State.semWrite, State.partPut, sound, State.partWrite, still, first]
    rw [State.partDone, if_neg (by simp)]
    rfl
  have kept : w.kept = s.kept := (State.kept_afreshLine ..).trans (State.kept_homeWrite ..)
  have mem : w.mem = wrBytes s.mem (s.semPa m.ctx n) (bytesOf 4 v) := (State.mem_afreshLine ..).trans (State.mem_homeWrite ..)
  obtain ⟨g, signalled⟩ : ∃ g, w.semSignal m.ctx n m.key m.id (m.fn != 0) = { w with signals := g } := by
    unfold State.semSignal State.signal
    dsimp only
    split <;> exact ⟨_, rfl⟩
  have ran : t = ({ w with signals := g } : State).fire m.id := by
    have low : fld (m.w.getD 1 0) 31 0 = (m.w.getD 1 0).toNat % 2 ^ 32 := by rw [fld_eq, pow_zero, Nat.div_one]
    change s.startSems m = _
    rw [State.startSems, low, hv, wrote, signalled]
  have cleanW : ({ w with signals := g } : State).clean id = true :=
    (State.clean_congr (s := s) (t := ({ w with signals := g } : State)) (congrArg State.cmds kept :) (congrArg State.reqs kept :) id).trans clean
  have sys : t.sys = s.sys ∧ t.gcyc = s.gcyc ∧ t.ctxs = s.ctxs := by
    rw [ran]
    refine ⟨?_, ?_, ?_⟩
    · exact (State.fire_sys ..).trans (congrArg State.sys kept :)
    · exact (State.fire_gcyc ..).trans (congrArg State.gcyc kept :)
    · exact (State.fire_ctxs ..).trans (congrArg State.ctxs kept :)
  have stored : t.mem = wrBytes s.mem (s.semPa m.ctx n) (bytesOf 4 v) := by rw [ran, State.fire_mem]; exact mem
  have pa : t.semPa m.ctx n = s.semPa m.ctx n := by rw [State.semPa, State.semPa, State.ctx, State.ctx, sys.2.2]
  refine ⟨?_, ?_, fun a ha => ?_⟩
  · rw [ran, hid]
    exact State.ended_fire cleanW
  · have hv : t.violates false (s.semPa m.ctx n) = false := Eq.trans (by unfold State.violates; rw [sys.1, sys.2.1]) sound
    rw [State.semRead, pa, State.partGet, hv, if_neg Bool.false_ne_true, stored, rdN_wrBytes]
  · rw [stored]
    exact rdByte_wrBytes_out (by rwa [bytesOf_length])

theorem State.clean_runCmd (s : State) (m : Cmd) (id : Nat) : (s.runCmd m).clean id = s.clean id := by
  unfold State.clean State.runCmd State.modCmd
  rw [List.all_map]
  refine congrArg (· && _) (List.all_congr rfl fun c => ?_)
  dsimp only [Function.comp]
  split <;> rfl

/-- A command that writes within one line and fires. -/
theorem State.engineWrite_fires {s : State} {m : Cmd} {k : Cap} {bs : List Byte} {id : Nat} (h : s.open_ m k bs.length)
    (hn : 0 < bs.length) (clean : s.clean id = true) :
    let t := (s.engineWrite m k bs).fire id
    t.ended id = true ∧ rdBytes t.mem k.pa bs.length = bs ∧ ∀ a, a < k.pa ∨ k.pa + bs.length ≤ a → rdByte t.mem a = rdByte s.mem a := by
  intro t
  obtain ⟨reqs, cmds, mem⟩ := State.engineWrite_open h hn
  have cleanW : (s.engineWrite m k bs).clean id = true := by rw [State.clean, cmds, reqs]; exact clean
  have stored : t.mem = wrBytes s.mem k.pa bs := (State.fire_mem ..).trans mem
  refine ⟨State.ended_fire cleanW, ?_, fun a ha => ?_⟩
  · rw [stored, rdBytes_wrBytes_same]
  · rw [stored, rdByte_wrBytes_out ha]

/-- OCCR.clr clears the records of the context's partitions among its 64. -/
theorem getD_clearOcc (s : State) (mine : Nat → Bool) (first n p : Nat) :
    getD {} (forN n s fun i s => if mine i then { s with occ := putK s.occ (first + i) ({ since := s.gcyc } : Occ) } else s).occ p =
      if first ≤ p ∧ p < first + n ∧ mine (p - first) then { since := s.gcyc } else getD {} s.occ p := by
  let clear (i : Nat) (s : State) : State := if mine i then { s with occ := putK s.occ (first + i) { since := s.gcyc } } else s
  refine (forN_ind (P := fun i (t : State) => t.gcyc = s.gcyc ∧ ∀ p, getD {} t.occ p =
    if first ≤ p ∧ p < first + i ∧ mine (p - first) then { since := s.gcyc } else getD {} s.occ p) (f := clear) n ?_ ?_).2 p
  · exact ⟨rfl, fun p => by rw [if_neg (by omega)]⟩
  · intro i _ t ⟨gcyc, occ⟩
    have next (p : Nat) : (first ≤ p ∧ p < first + (i + 1) ∧ mine (p - first) = true) ↔
        (p = first + i ∧ mine i = true) ∨ (first ≤ p ∧ p < first + i ∧ mine (p - first) = true) := by
      by_cases hp : p = first + i
      · subst hp
        simp
      · refine ⟨fun ⟨h1, h2, h3⟩ => .inr ⟨h1, by omega, h3⟩, ?_⟩
        rintro (h | ⟨h1, h2, h3⟩)
        · exact absurd h.1 hp
        · exact ⟨h1, by omega, h3⟩
    by_cases hi : mine i = true
    · refine ⟨by simp only [clear, hi, if_true, gcyc], fun p => ?_⟩
      simp only [clear, hi, if_true, getD_putK, occ, gcyc, next, and_true]
      by_cases hp : p = first + i
      · rw [if_pos hp, if_pos (.inl hp)]
      · rw [if_neg hp]
        simp only [hp, false_or]
    · simp only [clear, hi, next, and_false, false_or, Bool.false_eq_true, if_false]
      exact ⟨gcyc, occ⟩

theorem mem_clearOcc (s : State) (mine : Nat → Bool) (first n : Nat) :
    (forN n s fun i s => if mine i then { s with occ := putK s.occ (first + i) ({ since := s.gcyc } : Occ) } else s).mem = s.mem :=
  foldl_keeps (fun (t : State) => t.mem = s.mem) (fun (t : State) (i : Nat) ht => by dsimp only; split <;> exact ht) _ rfl

/-- The occupancy records that an OCCR reads. -/
theorem Occ.image_eq (o : Occ) (gcyc : Nat) : o.image gcyc = ([o.tasks * 2 ^ 32 + o.drift * 2 ^ 16 + (if o.valid then 2 ^ 12 else 0) + o.phase,
    o.busy, o.stall, gcyc - o.since - o.busy - o.stall, o.prev.getD 0 0, o.prev.getD 1 0, o.prev.getD 2 0, o.prev.getD 3 0]).flatMap (bytesOf 8) := by
  have word : o.word = o.tasks * 2 ^ 32 + o.drift * 2 ^ 16 + (if o.valid then 2 ^ 12 else 0) + o.phase := by
    rw [Occ.word, b2n]
    cases o.valid <;> simp
  rw [Occ.image, word]
  rfl

/-- Settles O43. -/
theorem engineCommandsStart : Obligations.EngineCommandsStart := by
  unfold Obligations.EngineCommandsStart
  intro s id m hm u cap writes
  have hid : m.id = id := by simpa using List.find?_some hm
  refine ⟨fun h => ?_, fun h => ⟨fun pa hpa => ?_, fun hv => ?_⟩⟩
  · rw [execEngineStart_eq hm, State.startEngine_waits h]
  · rw [execEngineStart_eq hm, State.startEngine_starts h, hpa]
    refine ⟨_, _, rfl, List.mem_append_right _ List.mem_cons_self, rfl, ?_, rfl, ?_⟩
    · exact congrArg some hid
    · rfl
  · have run : exec (.engineStart id) s = .next (s.startCmd m) := by
      rw [execEngineStart_eq hm, State.startEngine_starts h, hv]
    have cleanU (hc : s.clean id = true) : u.clean id = true := (s.clean_runCmd m id).trans hc
    have write (bs : List Byte) (e : s.startCmd m = (u.engineWrite m (cap 0) bs).fire id) : writes bs := by
      refine ⟨run.trans (congrArg _ e), fun open_ some_ clean => ⟨_, run.trans (congrArg _ e), ?_⟩⟩
      exact State.engineWrite_fires open_ some_ (cleanU clean)
    refine ⟨fun pos major clean => ?_, fun kinds => ?_, fun pos major => ?_, fun pos major clean => ?_, fun pos major => ?_,
      fun pos major => ?_, fun pos major due => ?_, fun pos major due rows row ssp dsp => ?_⟩
    · intro n v sound calm
      refine ⟨_, run, ?_⟩
      rw [show s.startCmd m = u.startSems m by rw [State.startCmd, if_pos pos, major]; rfl]
      exact State.startSems_sound hid (cleanU clean) sound calm
    · refine run.trans (congrArg _ ?_)
      rcases kinds with ⟨pos, h | h | h⟩ | ⟨pos, major⟩
      · rw [State.startCmd, if_pos pos, h]; rfl
      · rw [State.startCmd, if_pos pos, h]; rfl
      · rw [State.startCmd, if_pos pos, h]; rfl
      · rw [State.startCmd, if_neg (by rw [pos]; decide), major]; rfl
    · intro tid x held
      refine write _ ?_
      have record : u.reuseRecord m.ctx = [x.lookup, x.hit, x.insert, x.cancel, x.refuse, x.evict,
          held % 2 ^ 32 + 4 * s.quota tid * 2 ^ 32, x.dup].flatMap (bytesOf 8) := by
        change s.reuseRecord m.ctx = _
        simp only [State.reuseRecord, x, tid, held]
        cases s.tenant? (s.ctx m.ctx).tenant <;> rfl
      rw [State.startCmd, if_pos pos, major, ← record, ← hid]
      rfl
    · intro tid q
      refine ⟨_, run, ?_⟩
      rw [show s.startCmd m = u.startRufl m by rw [State.startCmd, if_pos pos, major]; rfl, State.startRufl, hid]
      refine ⟨State.ended_fire (cleanU clean), State.fire_mem .., fun e => ?_⟩
      rw [State.fire_reuse]
      change e ∈ s.reuse.filter _ ↔ _
      simp only [List.mem_filter, Bool.not_eq_true', ← Bool.not_eq_true, Bool.and_eq_true, beq_iff_eq, Bool.or_eq_true, List.any_eq_true]
      rfl
    · intro first words bs
      have bytes : ((List.range 64).flatMap fun i => if (u.ctx m.ctx).allot.contains (first + i) then (getD {} u.occ (first + i)).image u.gcyc
          else List.replicate 64 0) = bs := by
        refine congrArg (List.flatMap · _) (funext fun i => ?_)
        by_cases hp : first + i ∈ (s.ctx m.ctx).allot
        · refine (if_pos (List.contains_iff_mem.mpr hp)).trans ?_
          simp only [words, if_pos hp, Occ.image_eq]
          rfl
        · refine (if_neg fun e => hp (List.contains_iff_mem.mp e)).trans ?_
          simp only [words, if_neg hp]
          rfl
      have startOccr : s.startCmd m = u.startOccr m := by
        rw [State.startCmd, if_pos pos, major]
        rfl
      refine ⟨fun fn => run.trans (congrArg _ ?_), fun fn => ⟨_, run, ?_⟩⟩
      · rw [startOccr, State.startOccr, bytes, if_pos fn, hid]
      · rw [startOccr, State.startOccr, bytes, if_neg fn, State.fire_mem, State.fire_occ]
        have kept := State.besideWrites_engineWrite u m (cap 0) bs
        have occ : (u.engineWrite m (cap 0) bs).occ = s.occ := (congrArg State.occ kept :)
        have gcyc : (u.engineWrite m (cap 0) bs).gcyc = s.gcyc := (congrArg State.gcyc kept :)
        have cleared := getD_clearOcc (u.engineWrite m (cap 0) bs) (fun i => (u.ctx m.ctx).allot.contains (first + i)) first 64
        refine ⟨mem_clearOcc .., fun p => ⟨fun ⟨h1, h2, h3⟩ => ?_, fun hp => ?_⟩⟩
        · refine (cleared p).trans ((if_pos ⟨h1, h2, ?_⟩).trans (by rw [gcyc]))
          rw [Nat.add_sub_cancel' h1]
          exact List.contains_iff_mem.mpr h3
        · refine (cleared p).trans ((if_neg ?_).trans (by rw [occ]))
          rintro ⟨h1, h2, h3⟩
          rw [Nat.add_sub_cancel' h1] at h3
          rcases hp with h | h | h
          · omega
          · omega
          · exact h (List.contains_iff_mem.mp h3)
    · intro l lw fab
      refine write _ ?_
      have record : u.linkRecord m.fn = ([fab (l.peer * 2 ^ 26 + l.peerPort * 2 ^ 21) + lw * 16 + l.st, l.flitTx, l.flitRx, l.crc * 2 ^ 32 + l.retry,
          l.retrain * 2 ^ 32 + l.degrade * 2 ^ 16 + l.exhaust, fab (wrapN l.peerOfs 64), s.gcyc, fab (l.dropAge * 2 ^ 32)]).flatMap
            (bytesOf 8) := by
        change s.linkRecord m.fn = _
        simp only [State.linkRecord, lw, fab, l, linorPort, bne_iff_ne, ne_eq, ite_not, List.flatMap_cons, List.flatMap_nil, List.append_nil,
          List.append_assoc]
      rw [State.startCmd, if_neg (by rw [pos]; decide), major, ← record, ← hid]
      rfl
    · refine ⟨_, run, ?_⟩
      rw [State.startCmd, if_pos pos, if_pos major, State.startCopy, if_neg (by rw [show (s.runCmd m).gcyc = s.gcyc from rfl, due]; decide)]
      refine ⟨rfl, rfl, ?_⟩
      have ran : (s.runCmd m).cmd? id = some { m with st := .running, since := s.gcyc } := by
        rw [← hid] at hm ⊢
        exact State.cmd?_modCmd hm (fun c => { c with st := .running, since := s.gcyc }) fun _ => rfl
      rw [hid]
      exact congrArg (Option.map Cmd.st) (State.cmd?_modCmd ran (fun c => { c with st := .timed }) fun _ => rfl)
    · intro n some_ fit hbm free paid sound buf sends
      have begins (len : Nat) (hlen : u.copyRowBytes m = len) (some2 : 0 < len) (fit2 : (cap 1).pa % 64 + len ≤ 64) :
          StartLine s id m (cap 0).pa n len := by
        refine ⟨hm, due, rows, buf, hlen, fun ver gcyc => ?_⟩
        exact ⟨row, ⟨ssp, dsp⟩, rfl, major, rfl, ⟨fit, some_⟩, rfl, ⟨fit2, some2⟩, hbm, free, by rw [← hid] at paid; exact paid, sound⟩
      have starts : s.startCmd m = u.startCopy m := by
        rw [State.startCmd, if_pos pos, if_pos (by omega)]
      have ends (bs : List Byte) (line : StartLine s id m (cap 0).pa n bs.length) (sent : ∀ v m', (∃ ver gcyc, m' = m.begun gcyc ver bs.length) →
          LineCopy v m' (cap 0).pa n bs.length → v.mem = s.mem → RowSent v m' bs) :
          ∃ t r ver b, exec (.engineStart id) s = .next t ∧ t.reqs = s.reqs ++ [r] ∧ r.key = engKey id ∧
            r.kind = .store (cap 1).pa bs ver false b ∧ t.mem = s.mem := by
        obtain ⟨t, r, ver, b, ht, added⟩ := line.stores sent
        exact ⟨t, r, ver, b, run.trans (congrArg _ (starts.trans ht)), added⟩
      refine ⟨fun zero fit2 => ?_, fun one tens0 tens1 => ?_⟩
      · have len : (rdBytes s.mem (cap 0).pa n).length = n := rdBytes_length ..
        have bytes : u.copyRowBytes m = n := by
          rw [State.copyRowBytes, if_neg (by rw [zero]; decide)]
        refine ends _ (begins _ (bytes.trans len.symm) (by rwa [len]) fit2) fun v m' hm' line same => ?_
        rw [len] at line
        obtain ⟨ver, gcyc, rfl⟩ := hm'
        have sent := line.sent_bytes zero
        rwa [same] at sent
      · intro f g md plainF plainG whole fit2
        obtain ⟨bitsF, someF⟩ := plainFmt_bits plainF
        obtain ⟨bitsG, someG⟩ := plainFmt_bits plainG
        let bs := (plainElems s.mem f (cap 0).pa n).flatMap fun x => bytesOf (fmtBits g / 8) (convert x g md 0).1
        have same : ((List.range (n / (fmtBits f / 8))).flatMap fun i =>
            bytesOf (fmtBits g / 8) (convert (decCode f (rdN s.mem ((cap 0).pa + fmtBits f / 8 * i) (fmtBits f / 8))) g md 0).1) = bs := by
          simp only [bs, plainElems, List.flatMap_map]
        have len : bs.length = n / (fmtBits f / 8) * (fmtBits g / 8) := by
          rw [length_converted, plainElems, List.length_map, List.length_range]
        rw [same] at fit2 ⊢
        have some3 : 0 < n / (fmtBits f / 8) := Nat.div_pos (Nat.le_of_dvd some_ (Nat.dvd_of_mod_eq_zero whole)) someF
        have bytes : u.copyRowBytes m = bs.length := by
          have row := plainRow_bytes (m := m) (s := u) one ssp dsp plainF plainG (by exact whole) tens0 tens1
          rw [row, len]
        refine ends bs (begins _ bytes (by rw [len]; exact Nat.mul_pos some3 someG) fit2) fun v m' hm' line same => ?_
        obtain ⟨ver, gcyc, rfl⟩ := hm'
        have := line.sent_converted one tens0 tens1
        rw [same] at this
        exact this

end Sys2Proof.Machine
end

section
/-! PROOFS. Copies wait, resume and complete (08 R229, R232, R233). -/

namespace Sys2Proof.Machine

open Sys2Proof

/-! ### What a barrier's home leaves as it was (15 R401, R402) -/

/-- A command but for how far it is. -/
def Cmd.unjudged (m : Cmd) : Cmd := { m with st := .accepted, aux := [] }

/-- The state without what the home of a barrier may change. -/
def State.besideBarriers (s : State) : State :=
  { s.kept with signals := [], barSeen := [], cmds := s.cmds.map Cmd.unjudged }

theorem State.besideBarriers_of_kept {s t : State} (h : t.kept = s.kept) : t.besideBarriers = s.besideBarriers :=
  congrArg (fun u : State => { u with signals := [], barSeen := [], cmds := u.cmds.map Cmd.unjudged }) h

theorem State.besideBarriers_ite {b : Prop} [Decidable b] {s t u : State} (ht : t.besideBarriers = s.besideBarriers)
    (hu : u.besideBarriers = s.besideBarriers) : (if b then t else u).besideBarriers = s.besideBarriers := by
  split
  · exact ht
  · exact hu

theorem State.kept_barPut (s : State) (c n i v : Nat) : (s.barPut c n i v).kept = s.kept := by
  unfold State.barPut
  split
  · exact State.kept_partPut ..
  · rfl

theorem State.besideBarriers_barPut (s : State) (c n i v : Nat) : (s.barPut c n i v).besideBarriers = s.besideBarriers :=
  State.besideBarriers_of_kept (State.kept_barPut ..)

theorem State.besideBarriers_cmds {s : State} {l : List Cmd} (f : Cmd → Cmd) (hf : ∀ m, (f m).unjudged = m.unjudged) (h : l = s.cmds.map f)
    (g : List Signal) : ({ s with signals := g, cmds := l } : State).besideBarriers = s.besideBarriers := by
  subst h
  unfold State.besideBarriers
  dsimp only
  rw [List.map_map, show Cmd.unjudged ∘ f = Cmd.unjudged from funext hf]
  rfl

theorem State.besideBarriers_barJudge (s : State) (c n : Nat) : (s.barJudge c n).besideBarriers = s.besideBarriers := by
  unfold State.barJudge
  refine State.besideBarriers_ite rfl (State.besideBarriers_ite ?_ rfl)
  refine (State.besideBarriers_cmds _ (fun m => ?_) rfl _).trans ((State.besideBarriers_barPut ..).trans (State.besideBarriers_barPut ..))
  split <;> rfl

theorem State.besideBarriers_barAdd (s : State) (c n arr : Nat) (e : Int) : (s.barAdd c n arr e).besideBarriers = s.besideBarriers :=
  (State.besideBarriers_barPut ..).trans ((State.besideBarriers_barPut ..).trans ((State.besideBarriers_barPut ..).trans
    (State.besideBarriers_barJudge ..)))

theorem State.besideBarriers_signal (s : State) (obj : List Nat) (k id : Nat) : (s.signal obj k id).besideBarriers = s.besideBarriers :=
  State.besideBarriers_ite rfl rfl

theorem State.besideBarriers_barSignal (s : State) (c n arr : Nat) (e : Int) (agent : Nat) (sig : List (Nat × Nat)) :
    (s.barSignal c n arr e agent sig).besideBarriers = s.besideBarriers := by
  refine State.besideBarriers_ite ?_ ?_
  · exact foldl_keeps (fun (t : State) => t.besideBarriers = s.besideBarriers) (fun (t : State) (g : Nat × Nat) ht => (State.besideBarriers_signal ..).trans ht) sig
      (State.besideBarriers_barAdd ..)
  · exact State.besideBarriers_of_kept ((State.kept_log ..).trans (State.kept_barPut ..))

theorem State.clean_of_besideBarriers {s t : State} (h : t.besideBarriers = s.besideBarriers) (id : Nat) : t.clean id = s.clean id := by
  have cmds : t.cmds.map Cmd.unjudged = s.cmds.map Cmd.unjudged := (congrArg State.cmds h :)
  have reqs : (t.reqs.filter fun r => r.key != partKey) = s.reqs.filter fun r => r.key != partKey := (congrArg State.reqs h :)
  have viol (l : List Cmd) : (l.all fun m => m.id != id || !m.viol) = (l.map Cmd.unjudged).all fun m => m.id != id || !m.viol := by
    rw [List.all_map]
    rfl
  refine Eq.trans ?_ (State.clean_congr (s := s) (t := { t with cmds := s.cmds }) rfl reqs id)
  rw [State.clean, State.clean, viol t.cmds, cmds, ← viol]

/-! ### The fingerprint (08 R228, Table 8-6) -/

theorem length_keccakF (a : List W64) : (keccakF a).length = 25 := by
  rw [keccakF, List.range_succ, List.foldl_append]
  exact (List.length_map ..).trans List.length_range

theorem length_absorb (n : Nat) {a : List W64} (h : a.length = 25) (bs : List Byte) : (absorb n a bs).length = 25 := by
  induction n generalizing a bs with
  | zero => exact h
  | succ n ih =>
    rw [absorb]
    split
    · exact h
    · exact ih (length_keccakF _) _

theorem length_words (l : List W64) (n : Nat) (f : W64 → Nat) : (l.flatMap fun w => bytesOf n (f w)).length = l.length * n := by
  induction l with
  | nil => exact (Nat.zero_mul n).symm
  | cons w r ih => rw [List.flatMap_cons, List.length_append, ih, bytesOf_length, List.length_cons, Nat.succ_mul, Nat.add_comm]

theorem length_sha3 (bs : List Byte) : (sha3 bs).length = 32 := by
  rw [sha3, length_words, List.length_take, length_absorb _ List.length_replicate]
  rfl

theorem length_fingerprint (m : Cmd) : (fingerprint m).length = 32 := by
  have hash : (if m.kind = 0 then (sha3 m.hash).take 16 else List.replicate 16 0).length = 16 := by
    split
    · rw [List.length_take, length_sha3]
      rfl
    · exact List.length_replicate
  simp only [fingerprint, List.length_append, hash, bytesOf_length]

/-! ### A copy ends (08 R228, R232) -/

/-- An issuer's copies and its results in flight. -/
def State.copies (s : State) (k : Nat) : Map CopyChan × List Flight := ((s.th k).chans, (s.th k).flight)

theorem State.copies_eq (s : State) (k : Nat) : s.copies k = (((s.kept.th k).chans, (s.kept.th k).flight) : Map CopyChan × List Flight) := by
  rw [State.th_kept]
  rfl

theorem State.copies_of_kept_thr {s t : State} (h : t.kept.thr = s.kept.thr) (k : Nat) : t.copies k = s.copies k := by
  rw [State.copies_eq, State.copies_eq, State.th, State.th, h]

/-- Which commands there are does not rest on what changes in each. -/
theorem State.isSome_cmd? {s t : State} {f : Cmd → Cmd} (hf : ∀ m, (f m).id = m.id) (h : t.cmds.map f = s.cmds.map f) (id : Nat) :
    (t.cmd? id).isSome = (s.cmd? id).isSome := by
  have ids (l : List Cmd) : (l.find? fun c => c.id == id).isSome = (l.map f).any fun c => c.id == id := by
    rw [List.any_map, Bool.eq_iff_iff, List.find?_isSome, List.any_eq_true]
    simp only [Function.comp_def, hf]
  rw [State.cmd?, State.cmd?, ids, h, ← ids]

theorem State.ended_cmdError {s : State} {m : Cmd} {k : Nat} (h : (s.cmd? m.id).isSome) : (s.cmdError m k).ended m.id = false := by
  obtain ⟨c, hc⟩ := Option.isSome_iff_exists.mp h
  have := State.cmd?_modCmd hc (fun c => { c with st := .errWait, kind := k, viol := false }) fun _ => rfl
  have found : (s.cmdError m k).cmd? m.id = some { c with st := .errWait, kind := k, viol := false } := this
  rw [State.ended, found]
  rfl

theorem State.fire_of_clean {s : State} {id : Nat} (h : s.clean id = true) : s.fire id = s.modCmd id fun c => { c with st := .done } := by
  obtain ⟨sound, quiet⟩ := Bool.and_eq_true_iff.mp h
  have noViol : (s.cmds.find? fun c => c.id == id && c.viol) = none := by
    refine List.find?_eq_none.mpr fun m hm hv => ?_
    have := List.all_eq_true.mp sound m hm
    simp_all
  have noWrite : (s.reqs.any fun r => r.key == engKey id) = false := by
    refine List.any_eq_false.mpr fun r hr => ?_
    simpa using List.all_eq_true.mp quiet r hr
  rw [State.fire, noViol]
  dsimp only
  rw [noWrite]
  rfl

theorem State.recs_fire {s : State} {id : Nat} (h : s.clean id = true) : (s.fire id).recs = s.recs := by
  rw [State.fire_of_clean h]
  rfl

theorem execCopyComplete_done {s : State} {id : Nat} {m : Cmd} (hm : s.cmd? id = some m) (copy : m.isCopy = true) (run : m.st = .running)
    (rows : cpRows (m.w.getD 2 0) ≤ m.row) (quiet : ∀ r ∈ s.reqs, r.key ≠ engKey id) :
    exec (.copyComplete id) s = .next (({ s with fresh := s.fresh + 1 } : State).copyFinish m) := by
  change execCopyComplete id s = _
  have some_ : s.copySome id = { s with fresh := s.fresh + 1 } := State.copyRun_done (s := { s with fresh := s.fresh + 1 }) hm rows _
  have none_ : (s.reqs.any fun r => r.key == engKey id) = false := List.any_eq_false.mpr fun r hr => by simpa using quiet r hr
  rw [execCopyComplete, some_]
  generalize hv : ({ s with fresh := s.fresh + 1 } : State) = v
  have found : v.cmd? id = some m := by rw [← hv]; exact hm
  have reqs : v.reqs = s.reqs := by rw [← hv]
  simp only [found, copy, Bool.not_true, Bool.false_eq_true, if_false, run, reqs, none_, decide_eq_true rows]
  rfl

/-- A copy's end up to its barrier: its fingerprint and its channel. -/
def State.copyRecorded (s : State) (m : Cmd) : State :=
  (match m.caps[2]? with
    | some cap => (s.pmcEvent m.runner 0 10 1).engineWrite m cap (fingerprint m)
    | none => s.pmcEvent m.runner 0 10 1).modOwner m.key fun t => { t with chans := putK t.chans m.fn ((t.chan m.fn).complete m.cid m.kind) }

/-- The same with its barrier. -/
def State.copySignalled (s : State) (m : Cmd) : State :=
  if cpBe (m.w.getD 3 0) then (s.copyRecorded m).barSignal m.ctx (cpBar (m.w.getD 3 0)) 0 (-(cpRows (m.w.getD 2 0) * m.aux.getD 1 0 : Nat))
    (agentField m.runner 2 false) [(engKey m.id, 0), (m.key, m.id)]
  else s.copyRecorded m

theorem State.copyFinish_eq {s : State} {m : Cmd} (h : m.viol = false) :
    s.copyFinish m = if m.kind = 0 then (s.copySignalled m).fire m.id else (s.copySignalled m).cmdError m m.kind := by
  unfold State.copyFinish State.copySignalled State.copyRecorded
  simp only [h, Bool.false_and, Bool.false_eq_true, if_false] <;> rfl

/-- What the last steps of a copy leave. -/
structure Ending (s t : State) (m : Cmd) : Prop where
  channel : m.key < 8192 → (t.th m.key).chan m.fn = ((s.th m.key).chan m.fn).complete m.cid m.kind ∧ (t.th m.key).flight = (s.th m.key).flight
  recs : t.recs = s.recs
  there : (t.cmd? m.id).isSome = (s.cmd? m.id).isSome

theorem State.copyRecorded_ends (s : State) (m : Cmd) : Ending s (s.copyRecorded m) m := by
  let w := match m.caps[2]? with
    | some cap => (s.pmcEvent m.runner 0 10 1).engineWrite m cap (fingerprint m)
    | none => s.pmcEvent m.runner 0 10 1
  have kept : w.besideWrites = (s.pmcEvent m.runner 0 10 1).besideWrites := by
    dsimp only [w]
    split
    · exact State.besideWrites_engineWrite ..
    · rfl
  have events := State.beyondReads_pmcEvent (s := s) m.runner 0 10 1
  have copies : w.copies m.key = s.copies m.key :=
    (State.copies_of_kept_thr (congrArg State.thr kept :) m.key).trans
      (by rw [State.copies, State.copies, State.th_of_beyondReads events])
  have chans : (w.th m.key).chans = (s.th m.key).chans := congrArg Prod.fst copies
  have flight : (w.th m.key).flight = (s.th m.key).flight := congrArg Prod.snd copies
  refine ⟨fun hk => ?_, ?_, ?_⟩
  · have own : s.copyRecorded m = w.modTh m.key fun t => { t with chans := putK t.chans m.fn ((t.chan m.fn).complete m.cid m.kind) } := if_pos hk
    rw [own, State.th_modTh_same, Thr.chan, getD_putK_same]
    exact ⟨by rw [Thr.chan, chans]; rfl, flight⟩
  · have : (s.copyRecorded m).recs = w.recs := by
      change (w.modOwner _ _).recs = _
      unfold State.modOwner
      split <;> rfl
    exact this.trans ((congrArg State.recs kept :).trans (congrArg State.recs events :))
  · have : (s.copyRecorded m).cmds = w.cmds := by
      change (w.modOwner _ _).cmds = _
      unfold State.modOwner
      split <;> rfl
    rw [State.cmd?_of_cmds this]
    exact (State.isSome_cmd? (f := Cmd.unviolated) (fun _ => rfl) (congrArg State.cmds kept :) _).trans
      (congrArg Option.isSome (State.cmd?_of_cmds (congrArg State.cmds events :) m.id))

theorem State.copySignalled_ends (s : State) (m : Cmd) : Ending s (s.copySignalled m) m := by
  have first := s.copyRecorded_ends m
  unfold State.copySignalled
  split
  · generalize s.copyRecorded m = w at first ⊢
    have kept := State.besideBarriers_barSignal w m.ctx (cpBar (m.w.getD 3 0)) 0 (-(cpRows (m.w.getD 2 0) * m.aux.getD 1 0 : Nat))
      (agentField m.runner 2 false) [(engKey m.id, 0), (m.key, m.id)]
    have copies := State.copies_of_kept_thr (s := w) (congrArg State.thr kept :) m.key
    refine ⟨fun hk => ?_, (congrArg State.recs kept :).trans first.recs, ?_⟩
    · obtain ⟨chan, flight⟩ := first.channel hk
      have chans : ((w.barSignal m.ctx (cpBar (m.w.getD 3 0)) 0 (-(cpRows (m.w.getD 2 0) * m.aux.getD 1 0 : Nat))
        (agentField m.runner 2 false) [(engKey m.id, 0), (m.key, m.id)]).th m.key).chans = (w.th m.key).chans := congrArg Prod.fst copies
      exact ⟨by rw [Thr.chan, chans]; exact chan, (congrArg Prod.snd copies).trans flight⟩
    · exact (State.isSome_cmd? (f := Cmd.unjudged) (fun _ => rfl) (congrArg State.cmds kept :) _).trans first.there
  · exact first

theorem State.pmcEvent_eq (s : State) (core part ev n : Nat) : ∃ p, s.pmcEvent core part ev n = { s with pmcPend := p } := by
  unfold State.pmcEvent
  split
  · exact ⟨s.pmcPend, rfl⟩
  · refine forN_ind (P := fun _ (t : State) => ∃ p, t = { s with pmcPend := p }) 16 ⟨s.pmcPend, rfl⟩ fun i _ t ht => ?_
    obtain ⟨p, rfl⟩ := ht
    dsimp only
    split
    · exact ⟨_, rfl⟩
    · exact ⟨p, rfl⟩

/-- A copy's fingerprint, where it has one, is written at once. -/
theorem State.copyRecorded_sound {s : State} {m : Cmd} (clean : s.clean m.id = true) (open_ : ∀ cap, m.caps[2]? = some cap → s.open_ m cap 32) :
    (s.copyRecorded m).clean m.id = true ∧ (m.caps[2]? = none → (s.copyRecorded m).mem = s.mem) ∧
      ∀ cap, m.caps[2]? = some cap → (s.copyRecorded m).mem = wrBytes s.mem cap.pa (fingerprint m) := by
  have owner (w : State) (f : Thr → Thr) : (w.modOwner m.key f).mem = w.mem ∧ (w.modOwner m.key f).cmds = w.cmds ∧
      (w.modOwner m.key f).reqs = w.reqs := by
    unfold State.modOwner
    split <;> exact ⟨rfl, rfl, rfl⟩
  obtain ⟨p, events⟩ := s.pmcEvent_eq m.runner 0 10 1
  cases hc : m.caps[2]? with
  | none =>
    have own : s.copyRecorded m = ({ s with pmcPend := p } : State).modOwner m.key
        (fun t => { t with chans := putK t.chans m.fn ((t.chan m.fn).complete m.cid m.kind) }) := by
      rw [State.copyRecorded, hc, events]
    obtain ⟨mem, cmds, reqs⟩ := owner { s with pmcPend := p } fun t => { t with chans := putK t.chans m.fn ((t.chan m.fn).complete m.cid m.kind) }
    rw [own, State.clean, mem, cmds, reqs]
    exact ⟨clean, fun _ => rfl, fun cap h => absurd h (Option.not_mem_none cap)⟩
  | some cap =>
    have own : s.copyRecorded m = (({ s with pmcPend := p } : State).engineWrite m cap (fingerprint m)).modOwner m.key
        (fun t => { t with chans := putK t.chans m.fn ((t.chan m.fn).complete m.cid m.kind) }) := by
      rw [State.copyRecorded, hc, events]
    obtain ⟨reqsW, cmdsW, memW⟩ := State.engineWrite_open (u := { s with pmcPend := p }) (m := m) (k := cap) (bs := fingerprint m)
      (by rw [length_fingerprint]; exact open_ cap hc) (by rw [length_fingerprint]; decide)
    generalize ({ s with pmcPend := p } : State).engineWrite m cap (fingerprint m) = w at own reqsW cmdsW memW
    obtain ⟨mem, cmds, reqs⟩ := owner w fun t => { t with chans := putK t.chans m.fn ((t.chan m.fn).complete m.cid m.kind) }
    rw [own, State.clean, mem, cmds, reqs, memW, cmdsW, reqsW]
    refine ⟨clean, fun h => absurd h (by simp), fun cap' h => ?_⟩
    rw [Option.some.inj h]

theorem State.copySignalled_clean {s : State} {m : Cmd} (h : (s.copyRecorded m).clean m.id = true) : (s.copySignalled m).clean m.id = true := by
  unfold State.copySignalled
  split
  · exact (State.clean_of_besideBarriers (State.besideBarriers_barSignal ..) m.id).trans h
  · exact h

/-- Settles O44. -/
theorem copiesProceed : Obligations.CopiesProceed := by
  intro s id m hm copy
  obtain rfl : m.id = id := by simpa using List.find?_some hm
  refine ⟨fun st due => ?_, fun st due => ?_, fun st => ?_, fun st rows quiet clean => ?_⟩
  · change execCopyNotBeforeRelease m.id s = _
    rw [execCopyNotBeforeRelease, hm]
    exact congrArg _ (if_pos (by simp only [copy, st, due]; rfl))
  · change execCopyNotBeforeRelease m.id s = _
    rw [execCopyNotBeforeRelease, hm]
    exact congrArg _ (if_neg (by simp only [copy, st, due]; decide))
  · change execCopySourceResume m.id s = _
    rw [execCopySourceResume, hm]
    simp [copy, st]
  · have viol : m.viol = false := by
      have := List.all_eq_true.mp (Bool.and_eq_true_iff.mp clean).1 m (List.mem_of_find?_eq_some hm)
      simpa using this
    let v : State := { s with fresh := s.fresh + 1 }
    let w := v.copySignalled m
    have ends : Ending v w m := v.copySignalled_ends m
    have here : (w.cmd? m.id).isSome = true := ends.there.trans (congrArg Option.isSome hm)
    have fin : v.copyFinish m = if m.kind = 0 then w.fire m.id else w.cmdError m m.kind := State.copyFinish_eq viol
    have sound (open_ : ∀ cap, m.caps[2]? = some cap → s.open_ m cap 32) := State.copyRecorded_sound (s := v) (m := m) clean open_
    have mem : (v.copyFinish m).mem = w.mem := by
      rw [fin]
      split
      · exact State.fire_mem ..
      · rfl
    have thr : (v.copyFinish m).thr = w.thr := by
      rw [fin]
      split
      · exact State.fire_thr ..
      · rfl
    refine ⟨_, execCopyComplete_done hm copy st rows quiet, fun hk => ?_, fun zero open_ => ?_, fun some_ => ?_, fun none_ be => ?_, fun cap be hc open_ => ?_⟩
    · have same : (v.copyFinish m).th m.key = w.th m.key := by rw [State.th, thr]; rfl
      rw [same]
      exact ends.channel hk
    · rw [fin, if_pos zero]
      have cleanW := State.copySignalled_clean (sound open_).1
      exact ⟨State.ended_fire cleanW, (State.recs_fire cleanW).trans ends.recs⟩
    · rw [fin, if_neg some_]
      exact ⟨State.ended_cmdError here, _, congrArg (· ++ [_]) ends.recs, rfl, rfl, rfl⟩
    · rw [mem]
      have plain : w = v.copyRecorded m := if_neg (by rw [be]; exact Bool.false_ne_true)
      rw [plain]
      exact (sound fun cap h => absurd (none_.symm.trans h) (by simp)).2.1 none_
    · rw [mem]
      have plain : w = v.copyRecorded m := if_neg (by rw [be]; exact Bool.false_ne_true)
      rw [plain, (sound fun cap' h => by rw [← Option.some.inj (hc.symm.trans h)]; exact open_).2.2 cap hc]
      have := rdBytes_wrBytes_same v.mem cap.pa (fingerprint m)
      rwa [length_fingerprint] at this

end Sys2Proof.Machine
end

section
/-! PROOFS. A crossing that turns the walk to its record (O45). -/

namespace Sys2Proof.Machine

open Sys2Proof

/-! ### A record whose CTRL word the walk to it reads (09 R255, R270, 13 R366)

The root table of context 0 stands on die 1, and the context's table of tensor records is mapped to the same page: entry 0 of the root is
the CTRL word of record 0, of STATE 1, SFMT 0 and GEO 0.  A crossing's post sets TRIP, bit 14, in that word, and so turns the walk to a
table that is all zero: the record the post forms then names die 0. -/

def rootRecord : State :=
  { ctxs := [(0, { st := .running, desc := [(8, 0x2400000000), (0x28, 1)] })]
    mem := wrBytes (wrBytes (wrBytes [] 0x10000 (bytesOf 8 0x20001)) 0x20000 (bytesOf 8 0x240000000F)) 0x2400000000 (bytesOf 8 0x10001)
    posts := [(0, 0, 0, 0)] }

/-- The dies that the records formed name. -/
def recordDies (o : Host.Outcome State Fault Refusal) : List Nat := match o with
  | .next t => t.recs.map Rec.idField
  | _ => []

theorem recordDies_rootRecord : recordDies (exec (.tensorCrossingPost 0 0) rootRecord) = [0] ∧ rootRecord.recDie 0 0 = 1 ∧
    (rootRecord.recFree 0 0 || rootRecord.recTrip 0 0) = false := by
  decide +kernel

/-- Refutes O45: the post of `rootRecord` names die 0, and its record stood on die 1. -/
theorem not_tensorRecordSteps : ¬ Obligations.TensorRecordSteps := by
  intro h
  obtain ⟨-, -, post, -⟩ := h rootRecord 0 0 0
  obtain ⟨real, home, counts⟩ := recordDies_rootRecord
  obtain ⟨t, r, run, -, formed, -, -, -, die, -⟩ := (post (0, 0, 0, 0) rfl).2 counts
  have one : r.idField = 1 := die.trans home
  have zero : t.recs.map Rec.idField = [0] := by rwa [run] at real
  rw [formed] at zero
  have : r.idField = 0 := List.head_eq_of_cons_eq zero
  exact absurd (one.symm.trans this) (by decide)

end Sys2Proof.Machine
end

section
/-! PROOFS. A result written over its group record (O48). -/

namespace Sys2Proof.Machine

open Sys2Proof

/-! ### A destination that holds its group's record (16 R424, R428)

Element 0 of an all-reduce of 32-bit integers goes to the bytes of its group record that count detours.  The owner writes the result there, and then
sends it over an alternate port: the chunk crosses a detour, the record counts one, and the bytes just written read 1. -/

def detourColl : Coll :=
  { cmd := 9, ctx := 0, grp := 0, seq := 1, op := 0, desc := [0x80, 0, 28, 1], src := some none, dst := some none, started := [0] }

def detourPart (r : Nat) (k : CollKind) : CollPacket := { tenant := 0, grp := 0, gen := 0, member := r, seq := 1, detour := false, kind := k }

def detourCmd : Cmd :=
  { id := 9, caps := [{ va := 0, pa := 0, base := 0, size := 0, tens := none }, { va := 0, pa := 0x400000, base := 0x400000, size := 0x200000, tens := none }] }

def detourState : State :=
  { ctxs := [(0, { desc := [(8, 0x10000), (0x90, 1)] })]
    mem := wrBytes (wrBytes (wrBytes (wrBytes [] 0x10000 (bytesOf 8 0x20001)) 0x20000 (bytesOf 8 0x30001)) 0x30000 (bytesOf 8 0x40000F)) 0x400000
      (bytesOf 8 0x800000000)
    grps := [{ ctx := 0, idx := 0, members := [0, 5]
               packets := [detourPart 1 (.start detourColl.digest), detourPart 0 (.part 0 0 8 [(0, false)]), detourPart 1 (.part 0 0 8 [(0, false)])] }]
    fab := { routes := [(5, 1 + 2 ^ 18 + 2 ^ 25)] }
    links := [(1, { st := 3 })]
    colls := [detourColl]
    cmds := [detourCmd] }

/-- The bytes at the destination of a state's chunk. -/
def detourBytes (o : Host.Outcome State Fault Refusal) : List Byte := match o with
  | .next t => rdBytes t.mem 0x40001C 4
  | _ => []

def detourValues : List Landing := [(.fin false 0 0, none, false)]

/-- The chunk of `detourState` may complete: what R424 asks of it holds. -/
theorem detourState_due : detourState.collAgreed detourColl = (true, true) ∧ detourColl.wfmt = 0 ∧
    0 < detourColl.chunks (detourState.grpN 0 0) ∧ detourColl.owner (detourState.grpN 0 0) 0 = detourState.grpRank 0 0 ∧
    detourState.capsOwed detourCmd = false ∧ detourState.collForm detourColl 0 0 = some (detourValues, false) :=
  ⟨by decide +kernel, by decide +kernel, by decide +kernel, by decide +kernel, by decide +kernel, rfl⟩

theorem detourState_open : detourCmd.pagePa 28 = 0x40001C ∧ detourColl.dstVa = 28 ∧ fmtBits detourColl.fmt / 8 = 4 ∧
    (detourValues.flatMap fun v => bytesOf 4 (convert v.1 detourColl.fmt .rne 0).1) = [0, 0, 0, 0] ∧
    detourState.open_ detourCmd { va := 28, pa := 0x40001C, base := 0, size := 0, tens := none } 4 := by
  decide +kernel

theorem detourBytes_detourState : detourBytes (exec (.collectiveChunkComplete 9 0) detourState) = [1, 0, 0, 0] := by decide +kernel

/-- Refutes O48: the result of `detourState` is zero, and the detour's count stands at its destination. -/
theorem not_collectiveSteps : ¬ Obligations.CollectiveSteps := by
  intro h
  obtain ⟨-, chunk, -⟩ := h detourState 0 0 0 9 0 (detourPart 0 .bad) 0 detourColl detourCmd
  obtain ⟨-, -, -, written, -⟩ := chunk rfl rfl
  obtain ⟨agreed, plain, inside, owner, paid, formed⟩ := detourState_due
  obtain ⟨pa, va, width, bytes, isOpen⟩ := detourState_open
  have written := written agreed plain (.inl rfl) inside (by decide) (by decide) owner paid rfl detourValues formed
  simp only [width, va, Nat.mul_zero, Nat.zero_mul, Nat.add_zero, bytes, pa] at written
  obtain ⟨t, -, run, result, -⟩ := written (by decide) (by decide) (by decide) isOpen
  have counted := detourBytes_detourState
  rw [run] at counted
  exact absurd (result.symm.trans counted) (by decide)

end Sys2Proof.Machine
end

section
/-! PROOFS. A barrier image that ends a table entry (O49). -/

namespace Sys2Proof.Machine

open Sys2Proof

/-! ### A barrier's image that holds the end of a table entry (15 R401, 13 R371)

The root table of context 0 does not stand at a multiple of 8 bytes: its first entry begins in one line and ends in the next, where the
image of barrier 0 stands.  A walk reads that entry, and `walkLines` names the line it begins in. -/

/-- Partition 0 holds a valid handle, whose walk ends at a root entry with its reserved bits set.  A completed phase wraps PHASE to 0: the
entry then names a table that stands where the image does, and the write of ARR waits for the handle that walks through it. -/
def straddledBarrier : State :=
  { ctxs := [(0, { st := .running, allot := [0], desc := [(8, 0x10000FFFE)] })]
    barLine := [(0, 0x100010000 / 64)]
    mem := wrBytes (wrBytes (wrBytes [] 0x10000FFFE [1]) 0x100010000 (bytesOf 8 0xFFFFFFFF00010003)) 0x100010008 [1]
    thr := [(0, { mode := .running, hs := [(0, { st := .valid })] })] }

/-- The arrivals in the image of barrier 0 after an outcome. -/
def arrivalsLeft (o : Host.Outcome State Fault Refusal) : Nat := match o with
  | .next t => t.barWord 0 0 1
  | _ => 0

theorem arrivalsLeft_straddledBarrier : straddledBarrier.barActive 0 0 = true ∧ straddledBarrier.barPa 0 0 = some 0x100010000 ∧
    straddledBarrier.barWord 0 0 0 / 2 ^ 16 % 2 ^ 16 = 1 ∧ straddledBarrier.barWord 0 0 1 = 1 ∧ straddledBarrier.barWord 0 0 2 = 0 ∧
    straddledBarrier.calm (0x100010000 / 64) 0 = true ∧ arrivalsLeft (exec (.barrierPhaseComplete 0 0) straddledBarrier) = 1 := by
  decide +kernel

/-- Refutes O49: the arrival of `straddledBarrier` stays in its image when the phase it completes is over. -/
theorem not_groupAndBarrierSteps : ¬ Obligations.GroupAndBarrierSteps := by
  intro h
  obtain ⟨-, -, phase, -⟩ := h straddledBarrier 0 0 (by decide)
  obtain ⟨active, image, target, arrived, expected, calm, left⟩ := arrivalsLeft_straddledBarrier
  obtain ⟨complete, -⟩ := phase (by decide)
  obtain ⟨t, run, -, spent, -⟩ := complete ⟨active, by rw [target, arrived], expected⟩ fun pa at_ => by
    obtain rfl : pa = 0x100010000 := Option.some.inj (at_.symm.trans image)
    exact ⟨by decide, calm⟩
  rw [target, arrived] at spent
  rw [run] at left
  exact absurd (spent.symm.trans left) (by decide)

end Sys2Proof.Machine
end

section
/-! PROOFS. A fault record that ends a table entry (O50). -/

namespace Sys2Proof.Machine

open Sys2Proof

/-! ### A fault record that ends a table entry (12 R344, 13 R371)

The root table of context 0 does not stand at a multiple of 8 bytes: its first entry begins in one line of firmware's fault queue and ends
in the next, where the queue's next record goes.  A walk reads that entry, and `walkLines` names the line it begins in. -/

/-- The record that waits: its first byte in the queue is 0, its second 1. -/
def straddledRec : Rec := { id := 7, src := 0, fw := true, ctx := 0, kind := 0, srcCode := 0, idField := 0x100 }

/-- Partition 0 holds a valid handle.  Its walk reads 1, a table at 0, and so ends; once the record has entered the rest of that word, the
table stands at the base of the queue, whose TAIL is 2^32 − 1: the write of TAIL waits for the handle that walks through it. -/
def straddledQueue : State :=
  { sys := { fwqbase := 0x10000, fwqcnt := 1 }
    ctxs := [(0, { st := .running, allot := [0], desc := [(8, 0x1007F)] })]
    mem := wrBytes (wrBytes [] 0x10000 (bytesOf 8 0xFFFFFFFF ++ bytesOf 8 0xFFFFFFFF)) 0x1007F [1]
    thr := [(0, { mode := .running, hs := [(0, { st := .valid })] })]
    recs := [straddledRec] }

/-- TAIL of that queue after an outcome. -/
def queueTail (o : Host.Outcome State Fault Refusal) : Nat := match o with
  | .next t => t.rd64 0x10000
  | _ => 0

theorem queueTail_straddledQueue : straddledQueue.fqBase straddledRec = 0x10000 ∧ straddledQueue.fqCnt straddledRec = 1 ∧
    straddledQueue.fqRead straddledRec 0x10000 = 0xFFFFFFFF ∧ straddledQueue.fqRead straddledRec 0x10008 = 0xFFFFFFFF ∧
    (∀ a ∈ [0x10000, 0x10080, 0x100C0], straddledQueue.violates false a = false ∧ straddledQueue.calm (a / 64) 0 = true) ∧
    queueTail (exec (.faultRecordWrite 7) straddledQueue) = 0xFFFFFFFF := by
  decide +kernel

/-- Refutes O50: the record of `straddledQueue` is written, and the count at TAIL stays as it was. -/
theorem not_contextSteps : ¬ Obligations.ContextSteps := by
  intro h
  obtain ⟨-, -, -, -, -, -, record⟩ := h straddledQueue 0 0 (by decide)
  obtain ⟨base, cnt, tail, head, calm, left⟩ := queueTail_straddledQueue
  have record := record 7 straddledRec rfl fun q at_ _ _ => by rw [List.mem_singleton.mp at_]
  simp only [base, cnt, tail] at record
  obtain ⟨-, -, firmware⟩ := record (by decide) rfl
  obtain ⟨room, -⟩ := firmware rfl calm
  obtain ⟨t, run, -, counted, -⟩ := room (by rw [head]; decide)
  rw [run] at left
  exact absurd (counted.symm.trans left) (by decide)

end Sys2Proof.Machine
end

section
/-! PROOFS. A QSWAP that reads at a captured pointer (O55). -/

namespace Sys2Proof.Machine

open Sys2Proof

/-! ### A QSWAP with a captured pointer (18 R462, 05 R162)

A command that begins reads its operand at its captured pointer, a QSWAP none of its bytes: at a pointer that is no multiple of 64 the read
of no bytes still touches a line, and logs its poison. -/

def swapCmd : Cmd :=
  { id := 9, pos := 6, major := 18, fn := 2, w := [0x400000], st := .running, caps := [{ va := 0, pa := 0x48, base := 0, size := 0, tens := none }] }

/-- Object 0 of context 0 is READY, with two qubits; firmware's error log is empty, and the line at 0x40 is poisoned. -/
def swapState : State :=
  { ctxs := [(0, { desc := [(8, 0x10000), (0xA0, 1)] })]
    mem := wrBytes (wrBytes (wrBytes (wrBytes (wrBytes [] 0x10000 (bytesOf 8 0x20001)) 0x20000 (bytesOf 8 0x30001)) 0x30000 (bytesOf 8 0x40000F)) 0x400000
      (bytesOf 8 0x2A1)) 0x400020 [0x40]
    tags := [(1, mkTag true 0)]
    sys := { fwlbase := 0x200000, fwlcnt := 4 }
    cmds := [swapCmd] }

/-- TAIL of firmware's error log in the memory of an outcome. -/
def loggedErrors (o : Host.Outcome State Fault Refusal) : Nat := match o with
  | .next t => rdN t.mem 0x200000 8
  | _ => 0

theorem swapState_ready : swapState.clean 9 = true ∧ swapState.capsOwed swapCmd = false ∧ swapState.cword 0 0xA0 = 1 ∧
    swapState.svGet 0 0 = { st := 1, fmt := 10, nq := 2, map := [0, 1] } ∧
    loggedErrors (exec (.stateVectorCommandComplete 9) swapState) = 1 := by
  decide +kernel

/-- Refutes O55: the QSWAP of `swapState` logs the poison of a line of which it needs no byte. -/
theorem not_stateVectorSteps : ¬ Obligations.StateVectorSteps := by
  intro h
  obtain ⟨clean, paid, table, object, logged⟩ := swapState_ready
  obtain ⟨-, begins⟩ := h.1 swapState 9 swapCmd rfl rfl (by decide) (by decide) rfl (fun _ at_ => absurd at_ List.not_mem_nil) clean paid
  obtain ⟨-, begins⟩ := begins fun _ at_ => absurd at_ List.not_mem_nil
  obtain ⟨-, -, -, -, -, -, -, swap, -⟩ := begins (by decide +kernel)
  have object : swapState.svGet swapCmd.ctx (svNum (swapCmd.w.getD 0 0)) = { st := 1, fmt := 10, nq := 2, map := [0, 1] } := object
  simp only [object] at swap
  obtain ⟨t, run, -, mem⟩ := swap rfl trivial trivial rfl (by decide) (by decide) (by decide)
  rw [run] at logged
  have none : rdN t.mem 0x200000 8 = 0 := by
    rw [mem]
    decide +kernel
  exact absurd (none.symm.trans logged) (by decide)

end Sys2Proof.Machine
end

section
/-! PROOFS. A trace entry that ends a table entry (O53). -/

namespace Sys2Proof.Machine

open Sys2Proof

/-! ### A trace entry that ends a table entry (19 R482, 13 R371)

The root table of context 0 does not stand at a multiple of 8 bytes: its first entry begins in one line of the context's trace ring and ends
in the next, where the ring's next entry goes.  A walk reads that entry, and `walkLines` names the line it begins in. -/

/-- Partition 0 holds a valid handle.  Its walk reads 1, a table at 0, and so ends; once an entry of first word 1 has entered the upper half
of that word, the table stands at 2^32, where the ring has its tail, 2. -/
def straddledTrace : State :=
  { ctxs := [(0, { st := .running, allot := [0], desc := [(8, 0x10000007C)], trbase := 0x100000002 })]
    mem := wrBytes (wrBytes [] 0x100000000 [2]) 0x10000007C [1]
    thr := [(0, { mode := .running, hs := [(0, { st := .valid })] })] }

/-- The tail of that ring stays, and nothing rested on its lines. -/
theorem straddledTrace_ready : fld (straddledTrace.ctx 0).trbase 49 12 * 4096 = 0x100000000 ∧ (straddledTrace.ctx 0).trbase.toNat % 32 = 2 ∧
    straddledTrace.rd64 0x100000000 = 2 ∧ straddledTrace.rd64 (0x100000000 + 8) = 0 ∧
    (∀ a ∈ [0x100000000, 0x100000080], physClass a = .hbm ∧ straddledTrace.protectedKind a = none ∧ straddledTrace.calm (a / 64) 0 = true) ∧
    (straddledTrace.agentWrite 0 0x100000080
      ([(2 + 1) % 2 ^ 32 * 2 ^ 32 + 1, 0, straddledTrace.gcyc, 0].flatMap (bytesOf 8))).protectedKind 0x100000000 = none ∧
    (straddledTrace.traceLog 0 1 0 0).rd64 0x100000000 = 2 := by
  decide +kernel

/-- Refutes O53: the entry enters the ring of `straddledTrace`, and the count at its tail then waits for the handle that walks through it. -/
theorem not_debugSteps : ¬ Obligations.DebugSteps := by
  intro h
  obtain ⟨base, size, tail, head, calm, open_, left⟩ := straddledTrace_ready
  obtain ⟨-, -, -, -, -, -, -, -, -, -, -, trace, -⟩ := h straddledTrace 0 0 0 (by decide)
  have trace := trace 0 1 0 0
  simp only [base, size, tail, head] at trace
  obtain ⟨room, -⟩ := trace calm
  obtain ⟨-, counted⟩ := room (by decide) open_
  exact absurd (counted.symm.trans left) (by decide)

end Sys2Proof.Machine
end

section
/-! PROOFS. Writes of the control space (O54). -/

namespace Sys2Proof.Machine

open Sys2Proof

/-! ### A write of the control space at I0 and below (00 R12, 20 R489) -/

section
variable {s : State} {v : W64} {off n : Nat}

/-- A write in the control space goes to the management controller, at its word. -/
theorem execRegisterWrite_control (h : off < 2 ^ 32) :
    exec (.registerWrite (0x10000000000 + off) v) s = .next (s.mcWrite (off / 8 * 8) v) := by
  have control : physClass (0x10000000000 + off) = .control := by
    rw [physClass, if_neg (by simp only [hbmEnd]; omega), if_pos (by simp only [ctlBase]; omega)]
  change execRegisterWrite _ _ _ = _
  rw [execRegisterWrite, if_pos control, show 0x10000000000 + off - ctlBase = off by simp only [ctlBase]; omega]

/-- At I0 it takes effect. -/
theorem State.mcWrite_awake (h : s.awake) : s.mcWrite off v = s.ctlWrite off v := by
  rw [State.mcWrite, State.byMc, State.served_awake h]

theorem execRegisterWrite_awake (awake : s.awake) (h : off < 2 ^ 32) (aligned : off % 8 = 0) :
    exec (.registerWrite (0x10000000000 + off) v) s = .next (s.ctlWrite off v) := by
  rw [execRegisterWrite_control h, State.mcWrite_awake awake, show off / 8 * 8 = off by omega]

/-- What a request that falls below I0, or in the cycle of an entry, leaves: the level, entered where an entry is due; the exit; itself. -/
theorem State.served_below (h : s.sys.idle ≠ 0 ∨ s.entryDue = true) (a : Asked) (f : State → State) :
    (s.served a f).mem = s.mem ∧ (s.served a f).sys.idle = (if s.entryDue then s.sys.idle + 1 else s.sys.idle) ∧
      (s.served a f).sys.idleTo.isSome = true ∧ (s.served a f).sys.asked = s.sys.asked ++ [a] := by
  have deeper : s.enterDue.sys.idle = (if s.entryDue then s.sys.idle + 1 else s.sys.idle) := by
    rw [State.enterDue]
    split <;> rfl
  have asked : s.enterDue.sys.asked = s.sys.asked ∧ s.enterDue.mem = s.mem := by
    rw [State.enterDue]
    split <;> exact ⟨rfl, rfl⟩
  have low : s.enterDue.sys.idle ≠ 0 := by
    rw [deeper]
    split
    · omega
    · next awake => exact h.resolve_right awake
  rw [← deeper, ← asked.1, ← asked.2, State.served]
  generalize s.enterDue = t at low
  rw [if_neg low, State.startExit]
  split
  · next waits => exact ⟨rfl, rfl, waits.resolve_left low, rfl⟩
  · exact ⟨rfl, rfl, rfl, rfl⟩

/-! ### The registers of the map (00 R13) -/

theorem State.ctlWrite_recovery (h : s.sys.recovery = true) : s.ctlWrite off v = s := by rw [State.ctlWrite, if_pos h]

section
variable (awake : s.sys.recovery = false)
include awake

theorem State.ctlWrite_fabid : s.ctlWrite 0x1000 v = { s with fab := { s.fab with fabid := fld v 13 0 } } := by
  rw [State.ctlWrite, if_neg (by simp [awake]), if_neg (by omega), if_neg (by omega), if_pos rfl]

theorem State.ctlWrite_plim :
    s.ctlWrite 0x7800 v = { s with sys := { s.sys with plim := BitVec.ofNat 64 (max 600 (min 2200 (fld v 11 0))) } } := by
  rw [State.ctlWrite, if_neg (by simp [awake]), if_neg (by omega), if_neg (by omega), if_neg (by omega), if_neg (by omega), if_neg (by omega),
    if_neg (by omega), if_neg (by omega), if_neg (by omega), if_pos rfl]

theorem State.ctlWrite_cdesc (h : n < 64) :
    s.ctlWrite (16 * n) v = s.modCtx n fun x => { x with cdesc := BitVec.ofNat 64 (fld v 49 10 * 1024) } := by
  rw [State.ctlWrite, if_neg (by simp [awake]), if_pos (by omega)]
  simp only [if_pos (show 16 * n % 16 = 0 by omega), show 16 * n / 16 = n by omega]

theorem State.ctlWrite_tmode (h : n < 64) : s.ctlWrite (0x9000 + 16 * n) v = s.modCtx n fun x => { x with tmode := fld v 1 0 } := by
  rw [State.ctlWrite, if_neg (by simp [awake]), if_neg (by omega), if_neg (by omega), if_neg (by omega), if_neg (by omega), if_neg (by omega),
    if_neg (by omega), if_neg (by omega), if_neg (by omega), if_neg (by omega), if_neg (by omega), if_pos (by omega), if_pos (by omega),
    show (0x9000 + 16 * n - 0x9000) / 16 = n by omega]

theorem State.ctlWrite_route (h : n < 16384) : s.ctlWrite (0x1000000 + 8 * n) v =
    { s with fab := { s.fab with routes := putD 0 s.fab.routes n (BitVec.ofNat 64 (fld v 39 18 * 2 ^ 18 + fld v 0 0)) } } := by
  rw [State.ctlWrite, if_neg (by simp [awake]), if_neg (by omega), if_neg (by omega), if_neg (by omega), if_neg (by omega), if_neg (by omega),
    if_neg (by omega), if_neg (by omega), if_neg (by omega), if_neg (by omega), if_neg (by omega), if_neg (by omega), if_neg (by omega),
    if_neg (by omega), if_neg (by omega), if_neg (by omega), if_pos (by omega), show (0x1000000 + 8 * n - 0x1000000) / 8 = n by omega]

theorem State.ctlWrite_link (h : n < 25) : s.ctlWrite (0x4000 + 8 * n) v = s.linkEnable n (v.getLsbD 0) := by
  rw [State.ctlWrite, if_neg (by simp [awake]), if_neg (by omega), if_neg (by omega), if_neg (by omega), if_neg (by omega), if_pos (by omega),
    show (0x4000 + 8 * n - 0x4000) / 8 = n by omega]

theorem State.ctlWrite_tenant (h : n < 256) : s.ctlWrite (0xA000 + 64 * n) v = s.tenantWrite n v := by
  rw [State.ctlWrite, if_neg (by simp [awake]), if_neg (by omega), if_neg (by omega), if_neg (by omega), if_neg (by omega), if_neg (by omega),
    if_neg (by omega), if_neg (by omega), if_neg (by omega), if_neg (by omega), if_neg (by omega), if_neg (by omega), if_pos (by omega)]
  simp only [if_pos (show (0xA000 + 64 * n) % 64 = 0 by omega), show (0xA000 + 64 * n - 0xA000) / 64 = n by omega]

end

/-! ### Routes and tenants (17 R441, 20 R499) -/

/-- The bits of a routing entry that stand (17 Table 17-4). -/
theorem getLsbD_routeEntry (v : W64) (i : Nat) (h : i < 64) :
    (BitVec.ofNat 64 (fld v 39 18 * 2 ^ 18 + fld v 0 0)).getLsbD i = (v.getLsbD i && decide (i = 0 ∨ (18 ≤ i ∧ i < 40))) := by
  rw [BitVec.getLsbD_ofNat, ← BitVec.testBit_toNat]
  simp only [h, decide_true, Bool.true_and, fld, bitsN, Nat.shiftRight_zero, Nat.reduceAdd, Nat.reduceSub]
  rw [← Nat.shiftLeft_eq, Nat.shiftLeft_add_eq_or_of_lt (by omega), Nat.testBit_or, Nat.testBit_shiftLeft, Nat.testBit_mod_two_pow,
    Nat.testBit_mod_two_pow, Nat.testBit_shiftRight]
  by_cases route : 18 ≤ i
  · simp only [route, show 18 + (i - 18) = i by omega, show ¬i < 1 by omega, show ¬i = 0 by omega, decide_true, decide_false, Bool.true_and,
      Bool.false_and, Bool.or_false, false_or, true_and, show (i - 18 < 22) = (i < 40) by grind, Bool.and_comm]
  · simp only [route, decide_false, Bool.false_and, Bool.false_or, false_and, or_false, show (i < 1) = (i = 0) by grind, Bool.and_comm]

/-- A slot is provisioned: its own entry, and no other. -/
theorem State.tenantWrite_provision (valid : v.getLsbD 16 = true) : ∃ secret stats, s.tenantWrite n v =
    { s with
      fresh := s.fresh + 1
      tenants := (s.tenants.filter fun x => x.slot != n) ++
        [{ slot := n, reg := BitVec.ofNat 64 (fld v 16 0), quota := ((s.tenantSlot n).map Tenant.quota).getD 0, secret, stats }] } := by
  rw [State.tenantWrite, if_pos valid]
  exact ⟨_, _, rfl⟩

/-- A slot is released, unless a context of its tenant is resident. -/
theorem State.tenantWrite_release {x : Tenant} (valid : v.getLsbD 16 = false) (slot : s.tenantSlot n = some x) :
    s.tenantWrite n v = if x.reg.getLsbD 16 && s.ctxs.any fun e => e.2.st != .free && e.2.tenant == fld x.reg 15 0 then s
      else { s.dropReuse (fun e => x.reg.getLsbD 16 && e.tenant == fld x.reg 15 0) with tenants := s.tenants.filter fun x => x.slot != n } := by
  rw [State.tenantWrite, if_neg (by simp only [valid]; decide), slot]

end

theorem toNat_fld (v : W64) (hi lo : Nat) (h : hi < 64) : (BitVec.ofNat 64 (fld v hi lo)).toNat = fld v hi lo := by
  rw [BitVec.toNat_ofNat, Nat.mod_eq_of_lt]
  calc fld v hi lo < 2 ^ (hi + 1 - lo) := Nat.mod_lt _ (by positivity)
    _ ≤ 2 ^ 64 := Nat.pow_le_pow_right (by omega) (by omega)

/-- Settles O54: each register of the map by its place in it. -/
theorem registerWrites : Obligations.RegisterWrites := by
  unfold Obligations.RegisterWrites
  intro s v n reg
  refine ⟨fun awake recovery off small => ?_, fun below off small aligned => ?_, fun a other => ?_, fun awake live => ⟨?_, ?_, ?_, ?_, ?_, ?_, ?_, ?_⟩⟩
  · rw [execRegisterWrite_control small, State.mcWrite_awake awake, State.ctlWrite_recovery recovery]
  · obtain ⟨mem, idle, exit, asked⟩ := State.served_below below (.reg (ctlBase + off) v) fun s => s.ctlWrite off v
    refine ⟨_, ?_, mem, idle, exit, asked⟩
    rw [execRegisterWrite_control small, show off / 8 * 8 = off by omega]
    rfl
  · change execRegisterWrite _ _ _ = _
    rw [execRegisterWrite, if_neg other]
  · rw [execRegisterWrite_awake awake (by omega) (by omega), State.ctlWrite_fabid live]
    simp [fld, bitsN]
  · refine ⟨_, execRegisterWrite_awake awake (by omega) (by omega), ?_⟩
    rw [State.ctlWrite_plim live]
    refine ⟨?_, rfl, rfl⟩
    simp only [BitVec.toNat_ofNat, fld, bitsN, Nat.shiftRight_zero]
    omega
  · intro small
    refine ⟨_, execRegisterWrite_awake awake (by omega) (by omega), ?_⟩
    rw [State.ctlWrite_cdesc live small]
    refine ⟨?_, fun c other => by rw [State.ctx_modCtx, if_neg other], rfl, rfl⟩
    rw [State.ctx_modCtx, if_pos rfl]
    simp only [BitVec.toNat_ofNat, fld, bitsN, Nat.shiftRight_eq_div_pow]
    omega
  · intro small
    refine ⟨_, execRegisterWrite_awake awake (by omega) (by omega), ?_⟩
    rw [State.ctlWrite_tmode live small]
    refine ⟨?_, rfl⟩
    rw [State.ctx_modCtx, if_pos rfl]
    simp [fld, bitsN]
  · intro small
    refine ⟨_, execRegisterWrite_awake awake (by omega) (by omega), ?_⟩
    rw [State.ctlWrite_route live small]
    simp only [State.routeWord, getD_putD]
    refine ⟨fun i bit => ?_, fun m other => if_neg other⟩
    rw [if_pos trivial, getLsbD_routeEntry v i bit]
  · intro small
    rw [execRegisterWrite_awake awake (by omega) (by omega), State.ctlWrite_link live small]
    have here : State.isLink n = true := decide_eq_true (by omega)
    cases v.getLsbD 0
    · change _ = execLinkDisable n s
      rw [execLinkDisable, if_pos here, State.byMc, State.served_awake awake]
    · change _ = execLinkEnable n s
      rw [execLinkEnable, if_pos here, State.byMc, State.served_awake awake]
  · intro small valid
    have run : exec (.tenantProvision n v) s = .next (s.tenantWrite n v) := by
      change execTenantProvision n v s = _
      rw [execTenantProvision, if_pos ⟨small, valid⟩, State.mcWrite_awake awake, State.ctlWrite_tenant live small]
    obtain ⟨secret, stats, written⟩ := State.tenantWrite_provision (s := s) (n := n) valid
    refine ⟨_, run, ?_⟩
    rw [written]
    refine ⟨⟨_, List.mem_append_right _ (List.mem_singleton.mpr rfl), rfl, ?_, rfl⟩, fun x other => ?_, rfl⟩
    · simp only [toNat_fld v 16 0 (by omega)]
      rfl
    · simp only [List.mem_append, List.mem_filter, List.mem_singleton, bne_iff_ne]
      exact ⟨fun at_ => at_.elim And.left fun same => absurd (congrArg Tenant.slot same) other, fun at_ => .inl ⟨at_, other⟩⟩
  · intro small valid x slot
    have run : exec (.tenantRelease n v) s = .next (s.tenantWrite n v) := by
      change execTenantRelease n v s = _
      rw [execTenantRelease, if_pos ⟨small, valid⟩, State.mcWrite_awake awake, State.ctlWrite_tenant live small]
    rw [run, State.tenantWrite_release valid slot]
    have tenant : fld x.reg 15 0 = x.reg.toNat % 2 ^ 16 := rfl
    refine ⟨fun was ⟨e, at_, resident, same⟩ => ?_, fun away => ?_⟩
    · have held : (s.ctxs.any fun e => e.2.st != .free && e.2.tenant == fld x.reg 15 0) = true :=
        List.any_eq_true.mpr ⟨e, at_, by simp [resident, same, tenant]⟩
      rw [was, held]
      rfl
    · have none : (s.ctxs.any fun e => e.2.st != .free && e.2.tenant == fld x.reg 15 0) = false :=
        List.any_eq_false.mpr fun e at_ => by
          have := away e at_
          simp only [tenant, Bool.and_eq_true, bne_iff_ne, beq_iff_eq]
          exact fun both => this.elim both.1 fun differs => differs both.2
      refine ⟨_, rfl, ?_⟩
      rw [none, Bool.and_false, if_neg Bool.false_ne_true]
      refine ⟨fun y at_ => by simpa using (List.mem_filter.mp at_).2, rfl, fun was e at_ => ?_⟩
      have kept := (List.mem_filter.mp at_).2
      simp only [was, Bool.true_and, tenant] at kept
      simpa using kept

end Sys2Proof.Machine
end

section
/-! PROOFS. The states of a link and its flits (O51). -/

namespace Sys2Proof.Machine

open Sys2Proof

/-! ### The registers of a link (17 R433) -/

theorem State.link_modLink (s : State) (p : Nat) (f : Link → Link) (q : Nat) :
    (s.modLink p f).link q = if q = p then f (s.link p) else s.link q := getD_putK ({} : Link) s.links p (f (s.link p)) q

theorem State.link_handBack (s : State) (p q : Nat) :
    (s.handBack p).link q = if q = p then { s.link p with replay := [], queue := [] } else s.link q :=
  State.link_modLink (s := { s with fab := { s.fab with through := _, sent := _ } }) ..

/-- Writes of the part's cross no link while Linor Link is not UP. -/
theorem State.links_partWrite_down {s : State} (h : (s.link linorPort).st ≠ 3) (pa : Nat) (bs : List Byte) (tag : Option (BitVec 4)) :
    (s.partWrite pa bs tag).links = s.links := by
  have written : (s.homeWrite pa bs).links = s.links := by
    have same := State.lineWrite_links s pa bs none
    have down : ((s.lineWrite pa bs none).link linorPort).st ≠ 3 := by rwa [State.link, same]
    rw [State.homeWrite, State.hostFlit, if_neg fun both => down both.2, same]
  rw [State.partWrite]
  split
  · rw [State.links_afreshLine, State.partDone.eq_def]
    split
    · exact written
    · split <;> exact written
  · rfl

theorem State.links_linorDown {s : State} (h : (s.link linorPort).st ≠ 3) : s.linorDown.links = s.links := by
  have logs (t : State) (l : Nat) (ht : t.links = s.links) :
      ((t.setTag (l * 64) (mkTag true (tagVer (t.tag (l * 64))))).logFw 1 (l * 64) (agentField (homeSlice (l * 64)) 2 false)).links = s.links :=
    keeps_logFw (P := fun u => u.links = s.links)
      (fun u _ _ _ hu => (State.links_partWrite_down (by rwa [State.link, hu]) ..).trans hu) (by exact ht) ..
  exact foldl_keeps (fun t : State => t.links = s.links) logs _ rfl

/-- The link after a change of its state, and every other. -/
theorem State.link_linkTo (s : State) (p st : Nat) (f : Link → Link) (q : Nat) : (s.linkTo p st f).link q =
    if q = p then { f { s.link p with replay := [], queue := [] } with st, since := s.gcyc, rxNext := 0, txNext := 0 } else s.link q := by
  have moved : ((s.handBack p).modLink p fun l => { f l with st, since := s.gcyc, rxNext := 0, txNext := 0 }).link q =
      if q = p then { f { s.link p with replay := [], queue := [] } with st, since := s.gcyc, rxNext := 0, txNext := 0 } else s.link q := by
    rw [State.link_modLink, State.link_handBack, State.link_handBack, if_pos rfl]
    split <;> rfl
  rw [← moved, State.linkTo]
  split
  · next down =>
    obtain ⟨rfl, stopped⟩ := down
    rw [State.link, State.links_linorDown, State.link]
    rw [State.link_modLink, if_pos rfl]
    simp only
    omega
  · split <;> rfl

/-- A link leaves for RETRAIN with its replay buffer handed back. -/
theorem State.fab_linkTo_retrain (s : State) (p : Nat) (f : Link → Link) : (s.linkTo p 4 f).fab = (s.handBack p).fab := by
  rw [State.linkTo, if_neg (by simp), if_neg (by simp)]
  rfl

section
variable {s : State} {p st : Nat} {f : Link → Link}

/-- A link goes to a state in this cycle, and no other link changes. -/
def State.goesTo (s : State) (o : Host.Outcome State Fault Refusal) (p st : Nat) : Prop :=
  ∃ t, o = .next t ∧ (t.link p).st = st ∧ (t.link p).since = s.gcyc ∧ ∀ q, q ≠ p → t.link q = s.link q

theorem State.goesTo_linkTo {o : Host.Outcome State Fault Refusal} (run : o = .next (s.linkTo p st f)) : s.goesTo o p st := by
  refine ⟨_, run, ?_, ?_, fun q other => ?_⟩
  · rw [State.link_linkTo, if_pos rfl]
  · rw [State.link_linkTo, if_pos rfl]
  · rw [State.link_linkTo, if_neg other]

end

/-! ### Events (17 R433, R435) -/

section
variable {s : State} {p : Nat} {sts : List Nat} {ok : Link → Bool} {f : State → State}

theorem linkEvent_acts (h : p ≤ 24) (free : (s.link p).fwAt ≠ s.gcyc + 1) (at_ : (s.link p).st ∈ sts) (good : ok (s.link p) = true) :
    linkEvent p sts ok f s = .next (f s) := by
  rw [linkEvent, if_pos]
  simp [State.isLink, h, free, at_, good]

theorem linkEvent_firmware (moved : (s.link p).fwAt = s.gcyc + 1) : linkEvent p sts ok f s = .next s := by
  rw [linkEvent, if_neg]
  simp [moved]

theorem linkEvent_not (bad : ok (s.link p) = false) : linkEvent p sts ok f s = .next s := by
  rw [linkEvent, if_neg]
  simp [bad]

end

/-! ### Flits (17 R435) -/

section
variable {s : State} {p : Nat} {flit : Flit}

theorem Link.pump_kept (l : Link) : l.pump.rxNext = l.rxNext ∧ l.pump.flitRx = l.flitRx := ⟨rfl, rfl⟩

/-- What a link has received: the next sequence number and the count. -/
def State.received (s : State) (p : Nat) : Nat × Nat := ((s.link p).rxNext, (s.link p).flitRx)

theorem State.received_modLink (s : State) (q : Nat) (f : Link → Link) (h : ∀ l, (f l).rxNext = l.rxNext ∧ (f l).flitRx = l.flitRx) (p : Nat) :
    (s.modLink q f).received p = s.received p := by
  rw [State.received, State.link_modLink]
  split
  · next same => rw [(h _).1, (h _).2, same, State.received]
  · rfl

theorem State.received_transmit (s : State) (q : Nat) (w : Option Waiting) (p : Nat) : (s.transmit q w).received p = s.received p := by
  rw [State.transmit]
  exact State.received_modLink _ q _ (fun _ => by exact ⟨rfl, rfl⟩) p

theorem State.received_sendPacket (s : State) (x : Nat) (body : PktBody) (cmd : Option Nat) (p : Nat) :
    (s.sendPacket x body cmd).2.received p = s.received p := by
  rw [State.sendPacket]
  split
  · rfl
  · split
    · rw [State.declareLater]
      split <;> rfl
    · dsimp only
      split
      · rfl
      · rw [State.enterSwitch]
        dsimp only
        split
        · rfl
        · exact State.received_transmit ..

theorem State.received_ackBack (s : State) (src p : Nat) : (s.ackBack src).received p = s.received p := by
  rw [State.ackBack]
  split
  · exact State.received_transmit ..
  · rfl

theorem State.fab_ackBack (s : State) (src : Nat) : (s.ackBack src).fab = s.fab := by
  rw [State.ackBack]
  split <;> rfl

theorem State.received_packetIn (s : State) (k : WirePacket) (p : Nat) : (s.packetIn k).received p = s.received p := by
  rw [State.packetIn]
  dsimp only
  split
  · rfl
  · split
    · split <;> exact State.received_ackBack ..
    · split
      · rw [State.dropAged]
        exact State.received_modLink s _ _ (fun _ => by exact ⟨rfl, rfl⟩) p
      · split
        · exact State.received_sendPacket ..
        · split
          · exact State.received_transmit ..
          · rfl

/-- A packet of this package that arrives in order of its pair is kept, or was. -/
theorem State.early_packetIn {k : WirePacket} (mine : k.dst = s.fab.fabid) (known : k.src ∉ s.fab.unrch)
    (due : getD 0 s.fab.rxSeq k.src ≤ k.seq) : k ∈ (s.packetIn k).fab.early ∨ ∃ e ∈ s.fab.early, e.src = k.src ∧ e.seq = k.seq := by
  rw [State.packetIn]
  dsimp only
  rw [if_neg (by simpa using known), if_pos mine, show decide (k.seq < getD 0 s.fab.rxSeq k.src) = false by simpa using due, Bool.false_and,
    Bool.false_or]
  split
  · next kept =>
    obtain ⟨e, at_, same⟩ := List.any_eq_true.mp kept
    exact .inr ⟨e, at_, by simpa using same⟩
  · exact .inl (by simp)

/-- A flit that fails its CRC is counted. -/
theorem State.flitIn_bad (bad : flit.crcOk = false) : ((s.flitIn p flit).link p).crc = min ((s.link p).crc + 1) (2 ^ 32 - 1) ∧
    ((s.flitIn p flit).link p).st =
      (if ((s.link p).crcTimes.filter fun a => decide (s.gcyc < a + 2 ^ 20)).length < 63 then (s.link p).st else 4) ∧
    (s.flitIn p flit).fab.early = s.fab.early := by
  rw [State.flitIn, bad]
  dsimp only
  rw [if_pos (by rfl)]
  simp only [List.length_append, List.length_singleton]
  split
  · next many =>
    rw [if_neg (by omega), State.link_linkTo, if_pos rfl, State.link_modLink, if_pos rfl, State.fab_linkTo_retrain]
    exact ⟨rfl, rfl, rfl⟩
  · next few =>
    rw [if_pos (by omega), State.link_modLink, if_pos rfl]
    exact ⟨rfl, rfl, rfl⟩

/-- The link once the flits a flit acknowledges have left its replay buffer. -/
def State.acked (s : State) (p : Nat) (flit : Flit) : State :=
  s.modLink p fun l => { l with replay := l.replay.filter fun e => !ackedBy flit.ack e.1 }.pump

theorem State.received_acked (s : State) (p : Nat) (flit : Flit) : (s.acked p flit).received p = s.received p := by
  rw [State.acked]
  exact State.received_modLink s p _ (fun _ => by exact ⟨rfl, rfl⟩) p

theorem State.flitIn_out (good : flit.crcOk = true) (out : flit.seq % 4096 ≠ (s.link p).rxNext) : s.flitIn p flit = s.acked p flit := by
  have next : ((s.acked p flit).link p).rxNext = (s.link p).rxNext := congrArg Prod.fst (s.received_acked p flit)
  rw [State.flitIn, if_neg (by simp [good])]
  exact if_pos (by rwa [← next] at out)

/-- A flit in sequence is taken. -/
theorem State.flitIn_next (good : flit.crcOk = true) (next : flit.seq % 4096 = (s.link p).rxNext) :
    (s.flitIn p flit).received p = (((s.link p).rxNext + 1) % 4096, min ((s.link p).flitRx + 1) (2 ^ 64 - 1)) ∧
    ∃ t : State, t.fab = s.fab ∧ ∀ k, flit.pkt = some k → p < 24 → s.flitIn p flit = t.packetIn k := by
  have acked := s.received_acked p flit
  have same : ((s.acked p flit).link p).rxNext = (s.link p).rxNext := congrArg Prod.fst acked
  have run : s.flitIn p flit = match flit.pkt with
      | some k => if p = linorPort then
          (s.acked p flit).modLink p fun l => { l with rxNext := (l.rxNext + 1) % 4096, flitRx := satAdd 64 l.flitRx 1 }
        else ((s.acked p flit).modLink p fun l => { l with rxNext := (l.rxNext + 1) % 4096, flitRx := satAdd 64 l.flitRx 1 }).packetIn k
      | none => (s.acked p flit).modLink p fun l => { l with rxNext := (l.rxNext + 1) % 4096, flitRx := satAdd 64 l.flitRx 1 } := by
    rw [State.flitIn, if_neg (by simp [good])]
    exact if_neg (by rw [← same] at next; exact not_not.mpr next)
  have taken : ((s.acked p flit).modLink p fun l => { l with rxNext := (l.rxNext + 1) % 4096, flitRx := satAdd 64 l.flitRx 1 }).received p =
      (((s.link p).rxNext + 1) % 4096, min ((s.link p).flitRx + 1) (2 ^ 64 - 1)) := by
    have count : ((s.acked p flit).link p).flitRx = (s.link p).flitRx := congrArg Prod.snd acked
    rw [State.received, State.link_modLink, if_pos rfl, ← same, ← count]
    rfl
  generalize hu : ((s.acked p flit).modLink p fun l => { l with rxNext := (l.rxNext + 1) % 4096, flitRx := satAdd 64 l.flitRx 1 }) = u at run taken
  have fab : u.fab = s.fab := by rw [← hu]; rfl
  rw [run]
  refine ⟨?_, u, fab, fun k pkt fabric => ?_⟩
  · split
    · split
      · exact taken
      · rw [State.received_packetIn, taken]
    · exact taken
  · rw [pkt]
    exact if_neg (by rw [linorPort]; omega)

end

/-! The events of a link: the states they act in, and what they do there. -/

section
variable (s : State) (p : Nat) (peer : LinkPeer) (ofs : Int) (flit : Flit)

theorem exec_signalDetect : exec (.signalDetect p) s = linkEvent p [1] (fun _ => true) (fun s => s.linkTo p 2 id) s := rfl

theorem exec_linkTrained : exec (.linkTrained p peer) s = linkEvent p [2] (fun l => decide (s.gcyc < l.since + 2 ^ 24))
    (fun s => s.linkTo p 3 fun l => if p = linorPort then l else
      { l with peer := peer.pkg % 2 ^ 14, peerPort := peer.port % 32, peerOfs := peer.ofs }) s := rfl

theorem exec_trainingTimeout : exec (.trainingTimeout p) s = linkEvent p [2] (fun l => decide (l.since + 2 ^ 24 ≤ s.gcyc))
    (fun s => s.linkTo p 1 id) s := rfl

theorem exec_retryExhausted : exec (.retryExhausted p) s = linkEvent p [3] (fun l => l.replay.any fun e => decide (8 ≤ e.2.2))
    (fun s => s.linkTo p 4 fun l => { l with exhaust := satAdd 16 l.exhaust 1 }) s := rfl

theorem exec_retrainDone : exec (.retrainDone p) s = linkEvent p [4] (fun l => decide (l.narrow < 2))
    (fun s => s.linkTo p 3 fun l => { l with narrow := l.narrow + 1, degrade := satAdd 16 l.degrade 1, retrain := satAdd 16 l.retrain 1 }) s := rfl

theorem exec_retrainFail : exec (.retrainFail p) s = linkEvent p [4] (fun _ => true) (fun s => s.linkTo p 5 id) s := rfl

theorem exec_signalLost : exec (.signalLost p) s = linkEvent p [2, 3, 4] (fun _ => true) (fun s => s.linkTo p 1 id) s := rfl

theorem exec_timeStampExchange : exec (.timeStampExchange p ofs) s = linkEvent p [3] (fun _ => p != linorPort)
    (fun s => s.modLink p fun l => { l with peerOfs := ofs }) s := rfl

theorem exec_flitReceive : exec (.flitReceive p flit) s = linkEvent p [3] (fun _ => true)
    (fun s => s.served (.flit p flit s.gcyc) fun s => s.flitIn p flit) s := rfl

theorem exec_flitResend : exec (.flitResend p) s = linkEvent p [3] (fun l => !l.replay.isEmpty && l.replay.all fun e => decide (e.2.2 < 8))
    (fun s => s.modLink p fun l => { l with
      retry := satAdd 32 l.retry l.replay.length, flitTx := satAdd 64 l.flitTx l.replay.length
      replay := l.replay.map fun e => (e.1, e.2.1, e.2.2 + 1) }) s := rfl

end

/-- A request below I0 waits, and nothing but the system's registers changes. -/
theorem State.served_sys {s : State} (h : s.sys.idle ≠ 0) (a : Asked) (f : State → State) : ∃ y, s.served a f = { s with sys := y } := by
  have entered : ∃ y, s.enterDue = { s with sys := y } ∧ y.idle ≠ 0 := by
    rw [State.enterDue]
    split
    · exact ⟨_, rfl, Nat.succ_ne_zero _⟩
    · exact ⟨s.sys, rfl, h⟩
  obtain ⟨y, entered, low⟩ := entered
  rw [State.served, entered]
  dsimp only
  rw [if_neg low, State.startExit]
  split <;> exact ⟨_, rfl⟩

/-- Settles O51: each event moves its link, and what arrives is counted and kept. -/
theorem linkSteps : Obligations.LinkSteps := by
  unfold Obligations.LinkSteps
  intro s p peer ofs flit inside l goes
  have here : State.isLink p = true := decide_eq_true inside
  have enable (h : s.awake) : exec (.linkEnable p) s = .next (s.linkEnable p true) := by
    change execLinkEnable p s = _
    rw [execLinkEnable, if_pos here, State.byMc, State.served_awake h]
  have disable (h : s.awake) : exec (.linkDisable p) s = .next (s.linkEnable p false) := by
    change execLinkDisable p s = _
    rw [execLinkDisable, if_pos here, State.byMc, State.served_awake h]
  refine ⟨fun awake => ⟨fun off => ?_, fun on => ?_, fun on => ?_⟩, fun moved i at_ => ?_, fun free =>
    ⟨fun at1 => ?_, fun at2 early => ⟨?_, fun fabric => ?_⟩, fun at2 late => ⟨?_, ?_⟩,
      fun at3 => ⟨fun tired => ⟨?_, ?_⟩, fun some_ fresh => ?_⟩, fun at4 => ⟨fun wide => ⟨?_, ?_⟩, fun narrow => ?_, ?_⟩,
      fun at_ => ?_, fun at3 fabric => ?_, fun at3 low => ?_, fun at3 awake => ?_⟩⟩
  · refine State.goesTo_linkTo (f := fun l => { l with narrow := 0, fwAt := s.gcyc + 1 }) ?_
    rw [enable awake, State.linkEnable, here]
    exact congrArg _ (if_pos off)
  · rw [enable awake, State.linkEnable, here]
    exact congrArg _ (if_neg on)
  · have run : exec (.linkDisable p) s = .next (s.linkTo p 0 fun l => { l with
        flitTx := 0, flitRx := 0, crc := 0, retry := 0, retrain := 0, degrade := 0, exhaust := 0, dropAge := 0
        crcTimes := [], narrow := 0, fwAt := s.gcyc + 1 }) := by
      rw [disable awake, State.linkEnable, here]
      exact congrArg _ (if_neg on)
    refine ⟨State.goesTo_linkTo run, _, run, ?_⟩
    rw [State.link_linkTo, if_pos rfl]
  · simp only [List.mem_cons, List.not_mem_nil, or_false] at at_
    rcases at_ with rfl | rfl | rfl | rfl | rfl | rfl | rfl | rfl | rfl | rfl
    exacts [(exec_signalDetect ..).trans (linkEvent_firmware moved), (exec_linkTrained ..).trans (linkEvent_firmware moved),
      (exec_trainingTimeout ..).trans (linkEvent_firmware moved), (exec_retryExhausted ..).trans (linkEvent_firmware moved),
      (exec_retrainDone ..).trans (linkEvent_firmware moved), (exec_retrainFail ..).trans (linkEvent_firmware moved),
      (exec_signalLost ..).trans (linkEvent_firmware moved), (exec_timeStampExchange ..).trans (linkEvent_firmware moved),
      (exec_flitReceive ..).trans (linkEvent_firmware moved), (exec_flitResend ..).trans (linkEvent_firmware moved)]
  · exact State.goesTo_linkTo ((exec_signalDetect ..).trans (linkEvent_acts inside free (by simp [l, at1]) rfl))
  · exact State.goesTo_linkTo ((exec_linkTrained ..).trans (linkEvent_acts inside free (by simp [l, at2]) (decide_eq_true early)))
  · refine ⟨_, (exec_linkTrained ..).trans (linkEvent_acts inside free (by simp [l, at2]) (decide_eq_true early)), ?_⟩
    rw [State.link_linkTo, if_pos rfl, if_neg (by rw [linorPort]; omega)]
    exact ⟨rfl, rfl, rfl⟩
  · exact State.goesTo_linkTo ((exec_trainingTimeout ..).trans (linkEvent_acts inside free (by simp [l, at2]) (decide_eq_true late)))
  · exact (exec_linkTrained ..).trans (linkEvent_not (decide_eq_false (Nat.not_lt.mpr late)))
  · exact State.goesTo_linkTo ((exec_retryExhausted ..).trans (linkEvent_acts inside free (by simp [l, at3]) (by simpa using tired)))
  · refine ⟨_, (exec_retryExhausted ..).trans (linkEvent_acts inside free (by simp [l, at3]) (by simpa using tired)), ?_⟩
    rw [State.link_linkTo, if_pos rfl, State.fab_linkTo_retrain]
    refine ⟨rfl, rfl, fun k sent ⟨e, stood, ends⟩ => ?_⟩
    obtain ⟨k0, -, rfl⟩ := List.mem_map.mp sent
    have named : (if ((s.link p).replay.filterMap (fun e => e.2.1) ++
        ((s.link p).queue.filter Sending.begun).filterMap fun q => q.wait.bind Waiting.own).contains k0.id then { k0 with again := true }
      else k0).id = k0.id := by split <;> rfl
    rw [named] at ends
    rw [if_pos]
    simp only [List.contains_eq_mem, List.mem_append, List.mem_filterMap, decide_eq_true_eq]
    exact .inl ⟨e, stood, ends⟩
  · refine ⟨_, (exec_flitResend ..).trans (linkEvent_acts inside free (by simp [l, at3])
      (by simpa using ⟨some_, fun a b c at_ => fresh (a, b, c) at_⟩)), ?_⟩
    rw [State.link_modLink, if_pos rfl]
    exact ⟨at3, rfl, rfl⟩
  · exact State.goesTo_linkTo ((exec_retrainDone ..).trans (linkEvent_acts inside free (by simp [l, at4]) (decide_eq_true wide)))
  · refine ⟨_, (exec_retrainDone ..).trans (linkEvent_acts inside free (by simp [l, at4]) (decide_eq_true wide)), ?_⟩
    rw [State.link_linkTo, if_pos rfl]
  · exact (exec_retrainDone ..).trans (linkEvent_not (decide_eq_false (Nat.not_lt.mpr narrow)))
  · exact State.goesTo_linkTo ((exec_retrainFail ..).trans (linkEvent_acts inside free (by simp [l, at4]) rfl))
  · exact State.goesTo_linkTo ((exec_signalLost ..).trans (linkEvent_acts inside free (by simpa using at_) rfl))
  · refine ⟨_, (exec_timeStampExchange ..).trans (linkEvent_acts inside free (by simp [l, at3]) ?_), ?_⟩
    · rw [linorPort, bne_iff_ne]
      omega
    · rw [State.link_modLink, if_pos rfl]
  · refine ⟨_, (exec_flitReceive ..).trans (linkEvent_acts inside free (by simp [l, at3]) rfl), ?_⟩
    obtain ⟨y, only⟩ := State.served_sys low (.flit p flit s.gcyc) fun s => s.flitIn p flit
    obtain ⟨-, -, exit, asked⟩ := State.served_below (.inl low) (.flit p flit s.gcyc) fun s => s.flitIn p flit
    refine ⟨exit, asked, ?_⟩
    rw [only]
    exact ⟨rfl, rfl⟩
  · have run : exec (.flitReceive p flit) s = .next (s.flitIn p flit) := by
      refine ((exec_flitReceive ..).trans (linkEvent_acts inside free (by simp [l, at3]) rfl)).trans ?_
      rw [State.served_awake awake]
    refine ⟨fun bad => ⟨_, run, ?_⟩, fun good out => ⟨_, run, ?_⟩, fun good next => ⟨_, run, ?_⟩⟩
    · obtain ⟨crc, st, early⟩ := State.flitIn_bad (s := s) (p := p) bad
      exact ⟨crc, by rwa [at3] at st, early⟩
    · rw [State.flitIn_out good out]
      have same := s.received_acked p flit
      exact ⟨congrArg Prod.fst same, congrArg Prod.snd same, rfl⟩
    · obtain ⟨received, t, fab, arrives⟩ := State.flitIn_next good next
      refine ⟨congrArg Prod.fst received, congrArg Prod.snd received, fun k pkt fabric mine known due => ?_⟩
      rw [arrives k pkt fabric, ← fab]
      rw [← fab] at mine known due
      exact State.early_packetIn mine known due

end Sys2Proof.Machine
end

section
/-! PROOFS. Packets across the fabric (O52). -/

namespace Sys2Proof.Machine

open Sys2Proof

/-! ### What leaves the fabric side as it was (17 R436) -/

section
variable (s : State)

theorem State.fab_of_kept {s t : State} (h : t.kept = s.kept) : t.fab = s.fab := (congrArg State.fab h :)

theorem State.fab_engineWrite (m : Cmd) (k : Cap) (bs : List Byte) : (s.engineWrite m k bs).fab = s.fab :=
  (congrArg State.fab (s.besideWrites_engineWrite m k bs) :)

theorem State.fab_grpPut (c n i v : Nat) : (s.grpPut c n i v).fab = s.fab := State.fab_of_kept (State.kept_vwrN ..)

theorem State.fab_foldl {α : Type} {f : State → α → State} (h : ∀ s a, (f s a).fab = s.fab) (l : List α) : (l.foldl f s).fab = s.fab :=
  foldl_keeps (fun t => t.fab = s.fab) (fun t a ht => (h t a).trans ht) l rfl

theorem State.fab_putChan (x : Chan) : (s.putChan x).fab = s.fab :=
  (State.fab_of_kept (State.kept_vwrRun ..)).trans rfl

theorem State.fab_fireCloses (q : Chan) : (s.fireCloses q).fab = s.fab := by
  rw [State.fireCloses]
  split
  · exact State.fab_foldl _ (fun s _ => State.fire_fab ..) _
  · rfl

theorem State.fab_breakChans (x : Nat) : (s.breakChans x).fab = s.fab :=
  State.fab_foldl s (fun s _ => (State.fab_fireCloses ..).trans (State.fab_putChan s _)) _

/-- STATUS is an engine's write. -/
theorem State.fab_collStatus (m : Cmd) (status agreed : Nat) : (s.collStatus m status agreed).fab = s.fab := by
  have signalled : (s.signal [4, m.ctx, grpNum m, m.cid] m.key m.id).fab = s.fab := by
    rw [State.signal]
    split <;> rfl
  exact (State.fab_engineWrite ..).trans signalled

theorem State.fab_endColls (c n : Nat) : (s.endColls c n).fab = s.fab := by
  refine State.fab_foldl s (fun s m => ?_) _
  split
  · rw [State.colaFail, State.fire_fab]
    rfl
  · split
    · rw [State.collClose, State.fire_fab, State.fab_collStatus]
    · rw [State.fire_fab, State.fab_collStatus]

theorem State.fab_svPut (c n : Nat) (o : SvObj) : (s.svPut c n o).fab = s.fab := State.fab_of_kept (State.kept_vwrRun ..)

theorem State.fab_svFinish (m : Cmd) (o : SvObj) (code : Nat) : (s.svFinish m o code).fab = s.fab := by
  have ended (t : State) (x : SvObj) : (t.svEnd m x).fab = t.fab := by
    rw [State.svEnd, State.fire_fab]
    exact State.fab_svPut ..
  rw [State.svFinish]
  split
  · rw [ended]
    split <;> rfl
  · rw [State.svFail, State.cmdError_fab, State.svLeave]
    split <;> rfl

theorem State.fab_svGroupFailed (c grp : Nat) : (s.svGroupFailed c grp).fab = s.fab := by
  refine State.fab_foldl s (fun s m => ?_) _
  dsimp only
  split
  · exact State.fab_svFinish ..
  · rfl

theorem State.fab_failNow (c n cause frank : Nat) : (s.failNow c n cause frank).fab = s.fab := by
  rw [State.failNow]
  dsimp only
  split
  · rfl
  · rw [State.fab_svGroupFailed, State.fab_endColls, State.post_fab]
    split
    · rw [State.cmdError_fab]
      exact (State.fab_grpPut ..).trans ((State.fab_grpPut ..).trans ((State.fab_grpPut ..).trans rfl))
    · exact (State.fab_grpPut ..).trans ((State.fab_grpPut ..).trans rfl)

theorem State.fab_grpFail (c n cause frank : Nat) : (s.grpFail c n cause frank).fab = s.fab := by
  rw [State.grpFail]
  split
  · rfl
  · exact State.fab_failNow ..

theorem State.fab_grpUnreachable (x : Nat) : (s.grpUnreachable x).fab = s.fab := by
  refine State.fab_foldl s (fun s g => ?_) _
  dsimp only
  split
  · split
    · exact State.fab_grpFail ..
    · rfl
  · rfl

theorem State.fab_logFw (kind addr agent : Nat) : (s.logFw kind addr agent).fab = s.fab := State.fab_of_kept (State.kept_logFw ..)

/-- A declared package stands in UNRCH. -/
theorem State.unrch_declare (x : Nat) : x ∈ (s.declare x).fab.unrch := by
  rw [State.declare]
  split
  · next known => exact List.contains_iff_mem.mp known
  · rw [State.fab_logFw, State.fab_grpUnreachable, State.fab_breakChans, State.fab_foldl _ fun s _ => State.fire_fab ..]
    exact List.mem_append_right _ (List.mem_singleton.mpr rfl)

theorem State.fab_collDetour (x : Coll) (k : Nat) (d : Bool) : (s.collDetour x k d).fab = s.fab := by
  rw [State.collDetour]
  split
  · rfl
  · split
    · rfl
    · exact State.fab_grpPut ..

theorem State.fab_detourOf (b : PktBody) : (s.detourOf b).fab = s.fab := by
  rw [State.detourOf.eq_def]
  split
  · dsimp only
    split
    · exact State.fab_collDetour ..
    · exact State.fab_collDetour ..
    · rfl
  · rfl

end

/-! ### What a write of the part's leaves of a port of the fabric (17 R435) -/

section
variable {s : State} {p : Nat} (fabric : p ≠ linorPort)
include fabric

theorem State.link_partWrite (pa : Nat) (bs : List Byte) (tag : Option (BitVec 4)) : (s.partWrite pa bs tag).link p = s.link p := by
  have written : (s.homeWrite pa bs).link p = s.link p := by
    rw [State.homeWrite, State.hostFlit]
    split
    · rw [State.transmit, State.link_modLink, if_neg fabric]
      exact congrArg (fun l : Map Link => getD {} l p) (State.lineWrite_links s pa bs none)
    · exact congrArg (fun l : Map Link => getD {} l p) (State.lineWrite_links s pa bs none)
  rw [State.partWrite]
  split
  · rw [State.link, State.links_afreshLine, State.partDone.eq_def]
    split
    · exact written
    · split <;> exact written
  · rfl

theorem State.link_grpPut (c n i v : Nat) : (s.grpPut c n i v).link p = s.link p := by
  have keeps (t : State) (pa : Nat) (bs : List Byte) (tag : Option (BitVec 4)) (h : t.link p = s.link p) :
      (t.partWrite pa bs tag).link p = s.link p := (State.link_partWrite fabric ..).trans h
  have judged : (s.structBad c (s.grpVa c n + 8 * i)).link p = s.link p := by
    rw [State.structBad]
    split
    · rfl
    · split
      · exact keeps_log (P := fun t => t.link p = s.link p) keeps rfl ..
      · rfl
  exact keeps_vputN (P := fun t => t.link p = s.link p) keeps judged ..

theorem State.link_detourOf (b : PktBody) : (s.detourOf b).link p = s.link p := by
  have detoured (x : Coll) (k : Nat) (d : Bool) : (s.collDetour x k d).link p = s.link p := by
    rw [State.collDetour]
    split
    · rfl
    · split
      · rfl
      · exact State.link_grpPut fabric ..
  rw [State.detourOf.eq_def]
  split
  · dsimp only
    split
    · exact detoured ..
    · exact detoured ..
    · rfl
  · rfl

end

/-! ### Flits that wait for room (17 R435) -/

theorem length_takeFlits (room : Nat) (l : List Sending) : l.length ≤ (takeFlits room l).1.length + (takeFlits room l).2.length := by
  induction l generalizing room with
  | nil => exact Nat.zero_le _
  | cons q r ih =>
    rw [takeFlits]
    split
    · have := ih (room - q.left)
      simp only [List.length_append, List.length_replicate, List.length_cons]
      omega
    · simp

/-- What a link holds: the flits not acknowledged, and what waits for room among them. -/
def Link.holds (l : Link) : Nat := l.replay.length + l.queue.length

theorem Link.holds_pump (l : Link) : l.holds ≤ l.pump.holds := by
  have := length_takeFlits (256 - l.replay.length) l.queue
  simp only [Link.holds, Link.pump, List.length_append, List.length_map, List.length_zipIdx]
  omega

theorem State.holds_transmit (s : State) (p : Nat) (w : Option Waiting) : (s.link p).holds < ((s.transmit p w).link p).holds := by
  rw [State.transmit, State.link_modLink, if_pos rfl]
  refine Nat.lt_of_lt_of_le ?_ (Link.holds_pump _)
  exact Nat.add_lt_add_left (by rw [List.length_append]; exact Nat.lt_succ_self _) _

/-! ### A packet sent again (17 R437) -/

section
variable {s : State} {k : Packet} {p : Nat} {alt : Bool}

theorem State.portUp_of_route {x : Nat} (h : s.route x = some (p, alt)) : p < 24 := by
  rw [State.route, State.routeBy] at h
  split at h
  · obtain ⟨q, found, same⟩ := Option.map_eq_some_iff.mp h
    obtain ⟨rfl, -⟩ := Prod.mk.injEq _ _ _ _ ▸ same
    have up := List.find?_some found
    rw [State.portUp] at up
    exact of_decide_eq_true (Bool.and_eq_true_iff.mp up).1
  · cases h

/-- A packet sent again leaves by its route: its port holds more, and its record says so. -/
theorem State.resend_route (h : s.route k.dst = some (p, alt)) : (s.link p).holds < ((s.resend k).link p).holds ∧
    ∀ y ∈ (s.resend k).fab.sent, y.id = k.id → y.last = s.gcyc ∧ y.again = false ∧ y.port = some p ∧ y.first.isSome = true := by
  have fabric : p ≠ linorPort := by
    have := State.portUp_of_route h
    rw [linorPort]
    omega
  let s1 : State := { s with fab := { s.fab with sent := s.fab.sent.map fun (x : Packet) =>
      if x.id = k.id then { x with last := s.gcyc, again := false } else x } }
  let w : Waiting := { pkt := { src := s1.fab.fabid, dst := k.dst, seq := k.seq, body := k.body, age := 0 }, own := some k.id
                       since := s1.gcyc, entry := s1.routeWord k.dst }
  have enters : s1.enterSwitch k = (alt, s1.leave k w p alt) := by
    have by_ : s1.routeBy w.entry = some (p, alt) := h
    rw [State.enterSwitch]
    dsimp only
    rw [by_]
  have holds : (s.link p).holds < ((s1.leave k w p alt).link p).holds := State.holds_transmit ..
  have sent : ∀ y ∈ (s1.leave k w p alt).fab.sent, y.id = k.id →
      y.last = s.gcyc ∧ y.again = false ∧ y.port = some p ∧ y.first.isSome = true := by
    intro y at_ same
    obtain ⟨y1, at1, rfl⟩ := List.mem_map.mp at_
    obtain ⟨y0, -, rfl⟩ := List.mem_map.mp at1
    by_cases own : y0.id = k.id
    · simp only [own, if_true]
      refine ⟨trivial, trivial, trivial, ?_⟩
      cases y0.first <;> rfl
    · simp only [own, if_false] at same
  have run : s.resend k = if alt then (s1.leave k w p alt).detourOf k.body else s1.leave k w p alt := by
    rw [State.resend]
    change (if (s1.enterSwitch k).1 = true then (s1.enterSwitch k).2.detourOf k.body else (s1.enterSwitch k).2) = _
    rw [enters]
  rw [run]
  split
  · rw [State.link_detourOf fabric, State.fab_detourOf]
    exact ⟨holds, sent⟩
  · exact ⟨holds, sent⟩

end

/-! ### Resynchronisation (17 R442) -/

section
variable {s : State} {x : Nat} {body : PktBody}

/-- What the packets of a package, beside those it forms, and what it has received keep when one is formed. -/
theorem State.sendPacket_keeps (cmd : Option Nat) : (s.sendPacket x body cmd).2.fab.unrch = s.fab.unrch ∧
    (s.sendPacket x body cmd).2.fab.resync = s.fab.resync ∧ (s.sendPacket x body cmd).2.fab.rxSeq = s.fab.rxSeq ∧
    (s.sendPacket x body cmd).2.fab.early = s.fab.early := by
  rw [State.sendPacket]
  split
  · exact ⟨rfl, rfl, rfl, rfl⟩
  · split
    · rw [State.declareLater]
      split <;> exact ⟨rfl, rfl, rfl, rfl⟩
    · dsimp only
      split
      · exact ⟨rfl, rfl, rfl, rfl⟩
      · rw [State.enterSwitch]
        dsimp only
        split <;> exact ⟨rfl, rfl, rfl, rfl⟩

/-- A packet formed for a reachable package stands among those sent. -/
theorem State.sendPacket_sent (known : x ∉ s.fab.unrch) (valid : (s.routeWord x).getLsbD 0 = true) (free : x ∉ s.fab.resync) :
    (s.sendPacket x body none).2.fab.sent.length = s.fab.sent.length + 1 ∧
      ∃ q ∈ (s.sendPacket x body none).2.fab.sent, q.dst = x ∧ ∃ alt, q.body = bodyDetoured alt body := by
  have same (b : PktBody) : bodyDetoured false b = b := by
    cases b
    case coll p => simp [bodyDetoured]
    all_goals rfl
  rw [State.sendPacket, if_neg (by simpa using known), if_neg (by simp [valid])]
  dsimp only
  rw [if_neg (by simp [free]), State.enterSwitch]
  dsimp only
  split
  · refine ⟨List.length_append, _, List.mem_append_right _ (List.mem_singleton.mpr rfl), rfl, false, (same body).symm⟩
  · next p alt _ =>
    refine ⟨?_, _, List.mem_map.mpr ⟨_, List.mem_append_right _ (List.mem_singleton.mpr rfl), rfl⟩, ?_⟩
    · exact (List.length_map _).trans List.length_append
    · rw [if_pos rfl]
      exact ⟨rfl, alt, rfl⟩

end

/-- A package that resynchronises keeps no earlier packet than it numbers from. -/
theorem State.early_resyncRx {s : State} {x : Nat} {k : WirePacket} (src : k.src = x) {e : WirePacket} (at_ : e ∈ (s.resyncRx x k).fab.early) :
    e ∈ s.fab.early ∧ e ≠ k := by
  rcases List.mem_append.mp at_ with before | after
  · obtain ⟨stood, other⟩ := List.mem_filter.mp before
    exact ⟨List.takeWhile_sublist _ |>.subset stood, fun same => by simp [same, src] at other⟩
  · obtain ⟨stood, later⟩ := List.mem_filter.mp after
    exact ⟨List.dropWhile_sublist _ |>.subset stood, fun same => by simp [same, src] at later⟩

section
variable {s : State} {x : Nat}

/-- What an answer to a resynchronisation keeps. -/
theorem State.resyncTx_keeps : (s.resyncTx x).fab.rxSeq = s.fab.rxSeq ∧ (s.resyncTx x).fab.early = s.fab.early := by
  obtain ⟨-, -, rxSeq, early⟩ := State.sendPacket_keeps (s := { s with fab := { s.fab with nextSeq := delK s.fab.nextSeq x } }) (x := x)
    (body := .resync) none
  exact ⟨rxSeq, early⟩

theorem State.resyncTx_sent (known : x ∉ s.fab.unrch) (valid : (s.routeWord x).getLsbD 0 = true) (free : x ∉ s.fab.resync) :
    (s.resyncTx x).fab.sent.length = s.fab.sent.length + 1 ∧ ∃ q ∈ (s.resyncTx x).fab.sent, q.dst = x ∧ q.body = .resync := by
  obtain ⟨length, q, sent, dst, alt, body⟩ := State.sendPacket_sent
    (s := { s with fab := { s.fab with nextSeq := delK s.fab.nextSeq x } }) (x := x) (body := .resync) known valid free
  refine ⟨(List.length_map _).trans length, _, List.mem_map.mpr ⟨q, sent, rfl⟩, ?_⟩
  split <;> exact ⟨dst, body⟩

/-- A declaration cleared restarts the pair (17 R442). -/
theorem State.unrchClear_restarts (down : x ∈ s.fab.unrch) :
    x ∉ (s.unrchClear x).fab.unrch ∧ x ∈ (s.unrchClear x).fab.resync ∧ getD 0 (s.unrchClear x).fab.rxSeq x = 0 := by
  rw [State.unrchClear, if_neg (by simpa using down)]
  dsimp only
  obtain ⟨unrch, resync, rxSeq, -⟩ := State.sendPacket_keeps (s := { s with fab := { s.fab with
      unrch := s.fab.unrch.filter (· != x), resync := s.fab.resync ++ [x]
      nextSeq := delK s.fab.nextSeq x, rxSeq := delK s.fab.rxSeq x
      early := s.fab.early.filter fun k => k.src != x } }) (x := x) (body := .resync) none
  rw [unrch, resync, rxSeq]
  refine ⟨by simp, by simp, ?_⟩
  rw [getD_delK, if_pos rfl]

end

theorem Packet.over_iff (k : Packet) (gcyc : Nat) : k.over gcyc = false ↔ ∀ f, k.first = some f → gcyc < f + 2 ^ 21 := by
  rw [Packet.over]
  cases k.first with
  | none => simp
  | some f => simp

/-- Settles O52: each event by what its packet leaves. -/
theorem packetSteps : Obligations.PacketSteps := by
  unfold Obligations.PacketSteps
  intro s x seq id port
  refine ⟨fun k found free => ⟨fun due real => ?_, fun early => ?_⟩, fun e found leaves => ?_,
    fun k found => ⟨fun p alt idle fresh free route => ?_, fun left => ?_, fun held => ?_, fun f left old => ?_, fun fresh => ?_⟩,
    fun g found => ⟨fun old other => ?_, fun young => ?_⟩,
    fun src noted => ?_, fun awake small => ⟨fun down => ?_, fun up => ?_⟩, fun k found => ?_⟩
  · have run : exec (.packetDeliver x seq) s = .next { s with fab := { s.fab with
        early := s.fab.early.filter fun e => !(e.src == x && decide (e.seq ≤ seq))
        rxSeq := putK s.fab.rxSeq x (seq + 1)
        delivered := s.fab.delivered ++ [(x, k.body)] } } := by
      change execPacketDeliver x seq s = _
      rw [execPacketDeliver, found]
      exact congrArg _ (if_neg (by simp [due, free, real]))
    refine ⟨_, run, rfl, getD_putK_same .., fun e at_ src => ?_⟩
    simpa [src] using (List.mem_filter.mp at_).2
  · change execPacketDeliver x seq s = _
    rw [execPacketDeliver, found]
    exact congrArg _ (if_pos (.inl early))
  · have run : exec (.packetAgeDiscard port x seq) s =
        .next (({ s with fab := { s.fab with through := s.fab.through.erase e } } : State).dropAged e.entry) := by
      change execPacketAgeDiscard port x seq s = _
      have aged : (s.fab.through.find? fun w => w.pkt.src == x && w.pkt.seq == seq && decide (2 ^ 20 < w.age s.gcyc)) = some e := found
      rw [execPacketAgeDiscard, aged]
      exact congrArg _ (if_neg (not_not.mpr leaves))
    refine ⟨_, run, rfl, ?_⟩
    have port_ : ({ s with fab := { s.fab with through := s.fab.through.erase e } } : State).leavesBy e.entry = port := leaves
    rw [State.dropAged, port_, State.link_modLink, if_pos rfl]
    rfl
  · have named : k.id = id := by simpa using List.find?_some found
    have run : exec (.packetResendTimeout id) s = .next (s.resend k) := by
      change execPacketResendTimeout id s = _
      rw [execPacketResendTimeout, found]
      exact congrArg _ (if_pos ⟨idle, (k.over_iff s.gcyc).mpr fresh, by simp [free]⟩)
    obtain ⟨holds, sent⟩ := State.resend_route route
    exact ⟨_, run, holds, named ▸ sent⟩
  · have run : ∃ t : State, exec (.packetAckReceive id) s = .next (match k.cmd with
        | some m => t.fire m
        | none => t) ∧ t = { s with fab := { s.fab with sent := s.fab.sent.filter fun x => x.id != id } } := by
      change ∃ t, execPacketAckReceive id s = _ ∧ _
      rw [execPacketAckReceive, found]
      dsimp only
      rw [if_neg (by rw [Option.isNone_iff_eq_none, ← Option.not_isSome_iff_eq_none]; exact not_not.mpr left)]
      exact ⟨_, rfl, rfl⟩
    obtain ⟨t, run, rfl⟩ := run
    refine ⟨_, run, fun y at_ => ?_, fun m cmd clean => ?_⟩
    · have stands : y ∈ s.fab.sent.filter fun x => x.id != id := by
        cases hc : k.cmd with
        | none => rwa [hc] at at_
        | some m =>
          rw [hc] at at_
          dsimp only at at_
          rwa [State.fire_fab] at at_
      simpa using (List.mem_filter.mp stands).2
    · rw [cmd]
      exact State.ended_fire clean
  · change execPacketAckReceive id s = _
    rw [execPacketAckReceive, found]
    exact congrArg _ (if_pos (by rw [held]; rfl))
  · have run : exec (.packetGiveUp id) s = .next (s.declare k.dst) := by
      change execPacketGiveUp id s = _
      rw [execPacketGiveUp, found]
      exact congrArg _ (if_pos (by rw [Packet.over, left]; exact decide_eq_true old))
    exact ⟨_, run, s.unrch_declare k.dst⟩
  · change execPacketGiveUp id s = _
    rw [execPacketGiveUp, found]
    exact congrArg _ (if_neg (by rw [(k.over_iff s.gcyc).mpr fresh]; exact Bool.false_ne_true))
  · have run : exec (.noRouteTimeout x) s = .next (s.declare x) := by
      change execNoRouteTimeout x s = _
      rw [execNoRouteTimeout, found]
      exact congrArg _ (if_pos ⟨old, other⟩)
    exact ⟨_, run, s.unrch_declare x⟩
  · change execNoRouteTimeout x s = _
    rw [execNoRouteTimeout, found]
    exact congrArg _ (if_neg fun both => young.elim (fun soon => absurd both.1 (Nat.not_le.mpr soon)) both.2)
  · have taken : ∃ e, s.fab.delivered.find? (fun d => d.2 == PktBody.notice x) = some e :=
      Option.isSome_iff_exists.mp (List.find?_isSome.mpr ⟨_, noted, by simp⟩)
    obtain ⟨e, taken⟩ := taken
    have run : ∃ t : State, exec (.unreachableNoticeReceive x) s = .next (t.declare x) := by
      change ∃ t, execUnreachableNoticeReceive x s = _
      rw [execUnreachableNoticeReceive, State.takeDelivered, taken]
      exact ⟨_, rfl⟩
    obtain ⟨t, run⟩ := run
    exact ⟨_, run, t.unrch_declare x⟩
  · have run : exec (.unrchClear x) s = .next (s.unrchClear x) := by
      change execUnrchClear x s = _
      rw [execUnrchClear, if_pos small, State.byMc, State.served_awake awake]
    exact ⟨_, run, State.unrchClear_restarts down⟩
  · change execUnrchClear x s = _
    rw [execUnrchClear, if_pos small, State.byMc, State.served_awake awake, State.unrchClear, if_pos (by simpa using up)]
  · have src : k.src = x := by
      have := List.find?_some found
      simp only [Bool.and_eq_true, beq_iff_eq] at this
      exact this.1
    have run : exec (.resyncReceive x) s = .next (if s.fab.resync.contains x then
        { s.resyncRx x k with fab := { (s.resyncRx x k).fab with resync := (s.resyncRx x k).fab.resync.filter (· != x) } }
      else (s.resyncRx x k).resyncTx x) := by
      change execResyncReceive x s = _
      rw [execResyncReceive, found]
    have numbered : getD 0 (s.resyncRx x k).fab.rxSeq x = k.seq + 1 := getD_putK_same ..
    refine ⟨_, run, ?_⟩
    by_cases awaited : x ∈ s.fab.resync
    · rw [if_pos (by simpa using awaited)]
      exact ⟨numbered, fun e at_ => State.early_resyncRx src at_, fun _ => ⟨by simp, rfl⟩, fun free => absurd awaited free⟩
    · rw [if_neg (by simpa using awaited)]
      obtain ⟨rxSeq, early⟩ := State.resyncTx_keeps (s := s.resyncRx x k) (x := x)
      rw [rxSeq, early]
      exact ⟨numbered, fun e at_ => State.early_resyncRx src at_, fun here => absurd here awaited,
        fun free known valid => State.resyncTx_sent (s := s.resyncRx x k) known valid free⟩

end Sys2Proof.Machine
end

section
/-! PROOFS. Channels between partitions and packages (O47). -/

namespace Sys2Proof.Machine

open Sys2Proof

/-! ### A channel and its image (14 R385) -/

theorem State.clean_of_kept {s t : State} (h : t.kept = s.kept) (id : Nat) : t.clean id = s.clean id :=
  State.clean_congr (s := s) (t := t) (congrArg State.cmds h :) (congrArg State.reqs h :) id

section
variable (s : State)

theorem State.getChan_named (c n : Nat) : (s.getChan c n).ctx = c ∧ (s.getChan c n).ch = n := by
  rw [State.getChan]
  cases found : s.chans.find? fun x => x.ctx == c && x.ch == n with
  | none => exact ⟨rfl, rfl⟩
  | some x => simpa using List.find?_some found

theorem State.getChan_of_chans {s t : State} (h : t.chans = s.chans) (c n : Nat) : t.getChan c n = s.getChan c n := by
  rw [State.getChan, State.getChan, h]

/-- A channel put stands in place of the old one; its image is a write of the part's. -/
theorem State.kept_putChan (x : Chan) :
    (s.putChan x).kept = ({ s with chans := s.chans.filter (fun y => !(y.ctx == x.ctx && y.ch == x.ch)) ++ [x] } : State).kept :=
  State.kept_vwrRun ..

theorem State.getChan_putChan {x : Chan} {c n : Nat} (hc : x.ctx = c) (hn : x.ch = n) : (s.putChan x).getChan c n = x := by
  have chans : (s.putChan x).chans = s.chans.filter (fun y => !(y.ctx == x.ctx && y.ch == x.ch)) ++ [x] := (congrArg State.chans (s.kept_putChan x) :)
  subst hc hn
  rw [State.getChan, chans, List.find?_append, List.find?_eq_none.mpr fun y at_ same => ?_]
  · simp
  · have := (List.mem_filter.mp at_).2
    rw [same] at this
    cases this

theorem State.clean_putChan (x : Chan) (id : Nat) : (s.putChan x).clean id = s.clean id :=
  (State.clean_of_kept (s.kept_putChan x) id).trans rfl

theorem State.recs_putChan (x : Chan) : (s.putChan x).recs = s.recs := (congrArg State.recs (s.kept_putChan x) :)

theorem State.cmds_putChan (x : Chan) : (s.putChan x).cmds = s.cmds := (congrArg State.cmds (s.kept_putChan x) :)

end

/-- A ticket that fires leaves no other command unclean. -/
theorem State.clean_fire {s : State} {id : Nat} (h : s.clean id = true) (j : Nat) : (s.fire j).clean id = true := by
  obtain ⟨sound, quiet⟩ := Bool.and_eq_true_iff.mp h
  have same (f : Cmd → Cmd) (hid : ∀ m, (f m).id = m.id) (hv : ∀ m, m.viol = false → (f m).viol = false) (t : State)
      (cmds : t.cmds = (s.modCmd j f).cmds) (reqs : t.reqs = s.reqs) : t.clean id = true := by
    refine Bool.and_eq_true_iff.mpr ⟨List.all_eq_true.mpr fun m at_ => ?_, by rw [reqs]; exact quiet⟩
    rw [cmds] at at_
    obtain ⟨m0, at0, rfl⟩ := List.mem_map.mp at_
    have := List.all_eq_true.mp sound m0 at0
    split
    · simp only [hid]
      cases hm : m0.viol with
      | false => simp [hv m0 hm]
      | true => exact Bool.or_eq_true_iff.mpr (.inl (by simpa [hm] using this))
    · exact this
  rw [State.fire]
  split
  · next c found =>
    exact same (fun c' => { c' with st := .errWait, kind := _, viol := false }) (fun _ => rfl) (fun _ _ => rfl) _
      (by
        have named : c.id = j := by
          have := List.find?_some found
          simp only [Bool.and_eq_true, beq_iff_eq] at this
          exact this.1
        rw [← named]
        rfl) rfl
  · exact same _ (fun _ => by rfl) (fun _ h => by exact h) _ rfl rfl

theorem State.fireCloses_keeps {s : State} (q : Chan) : (s.fireCloses q).chans = s.chans ∧
    ∀ id, s.clean id = true → (s.fireCloses q).clean id = true := by
  rw [State.fireCloses]
  split
  · exact ⟨foldl_keeps (fun t : State => t.chans = s.chans) (fun t m ht => (State.fire_chans ..).trans ht) _ rfl,
      fun id h => foldl_keeps (fun t : State => t.clean id = true) (fun t m ht => State.clean_fire ht m.id) _ h⟩
  · exact ⟨rfl, fun _ h => h⟩

/-! ### Elements and marks (14 R390–R394) -/

section
variable (s : State) {q : Chan} {c n : Nat}

/-- The queue's channel once a mark has come. -/
def Chan.closes (q : Chan) : Chan := ({ q with marked := true, st := if q.st = .opened then .draining else q.st } : Chan).settle

theorem Chan.closes_keeps (q : Chan) : q.closes.ctx = q.ctx ∧ q.closes.ch = q.ch ∧ q.closes.transit = q.transit ∧ q.closes.stand = q.stand ∧
    q.closes.marked = true := by
  rw [Chan.closes, Chan.settle]
  generalize (if q.st = .opened then ChanSt.draining else q.st) = st
  split <;> exact ⟨rfl, rfl, rfl, rfl, rfl⟩

theorem Chan.closes_st (h : q.st = .opened ∨ q.st = .draining) : q.closes.st = if q.stand = [] then .closed else .draining := by
  have draining : (if q.st = .opened then ChanSt.draining else q.st) = .draining := by
    rcases h with h | h <;> rw [h] <;> rfl
  rw [Chan.closes, Chan.settle, draining]
  cases q.stand <;> rfl

theorem State.standElement_mark (hc : q.ctx = c) (hn : q.ch = n) : (s.standElement q none).getChan c n = q.closes ∧
    ∀ id, s.clean id = true → (s.standElement q none).clean id = true := by
  obtain ⟨ctx, ch, -⟩ := q.closes_keeps
  obtain ⟨chans, clean⟩ := State.fireCloses_keeps (s := s.putChan q.closes) q
  refine ⟨(State.getChan_of_chans chans c n).trans (s.getChan_putChan (ctx.trans hc) (ch.trans hn)), fun id h => clean id ?_⟩
  rwa [State.clean_putChan]

theorem State.standElement_element (b : List Byte) (hc : q.ctx = c) (hn : q.ch = n) :
    (s.standElement q (some b)).getChan c n =
      { q with stand := q.stand ++ [b], sent := if q.remS then (q.sent + 1) % 2 ^ 32 else q.sent } ∧
    ∀ id, s.clean id = true → (s.standElement q (some b)).clean id = true := by
  rw [State.standElement]
  dsimp only
  refine ⟨State.getChan_putChan _ hc hn, fun id h => ?_⟩
  rw [State.clean_putChan]
  exact (State.clean_of_kept (State.kept_forN (fun _ _ => State.kept_agentWrite ..) _ s) id).trans h

theorem execChannelElementArrive_transit {e : Option (List Byte)} {id : Nat} {dead : Bool} {rest : List (Option (List Byte) × Nat × Bool)}
    (h : (s.getChan c n).transit = (e, id, dead) :: rest) : exec (.channelElementArrive c n) s =
      .next ((if dead then s.putChan { s.getChan c n with transit := rest }
        else s.standElement { s.getChan c n with transit := rest } e).fire id) := by
  change execChannelElementArrive c n s = _
  rw [execChannelElementArrive]
  dsimp only
  rw [h]

/-- What the next packet for a channel is. -/
theorem State.nextFor_packet {d : Nat × PktBody} {u : State} (h : s.nextFor q = some (d, u)) :
    forChan (s.ctx q.ctx).tenant q.ch d.2 = true ∧ u.chans = s.chans := by
  rw [State.nextFor, State.takeDelivered] at h
  obtain ⟨e, found, same⟩ := Option.map_eq_some_iff.mp h
  obtain ⟨rfl, rfl⟩ := Prod.mk.injEq _ _ _ _ ▸ same
  have picked := List.find?_some found
  simp only [Bool.and_eq_true] at picked
  exact ⟨picked.2, rfl⟩

end

/-! ### The openings of a channel's two ends (14 R388, R392) -/

/-- The far end's CHOPN is taken where it is the only one for the channel that stands delivered. -/
theorem State.takeOpen_last {s : State} {q : Chan} {far : FarOpen} (at_ : (far.fab, PktBody.chopn far) ∈ s.fab.delivered)
    (only : ∀ g, (far.fab, PktBody.chopn g) ∈ s.fab.delivered → g.peerTen = (s.ctx q.ctx).tenant → g.peerCh = q.ch → g = far) :
    ∃ f, s.takeOpen q far = some { s with fab := f } := by
  rw [State.takeOpen]
  dsimp only
  rw [if_neg]
  · exact ⟨_, rfl⟩
  · intro stops
    rcases Bool.or_eq_true_iff.mp stops with whole | later
    · have all := (List.takeWhile_prefix (fun d => d != (far.fab, PktBody.chopn far)) (l := s.fab.delivered.reverse)).eq_of_length
        (by simpa using whole)
      have := List.takeWhile_eq_self_iff.mp all _ (List.mem_reverse.mpr at_)
      simp at this
    · obtain ⟨d, stood, mine⟩ := List.any_eq_true.mp later
      have stood := List.mem_reverse.mp stood
      have other := List.mem_takeWhile_imp stood
      have delivered := List.mem_reverse.mp ((List.takeWhile_sublist _).subset stood)
      obtain ⟨src, body⟩ := d
      cases body with
      | chopn g =>
        simp only [forChan, Bool.and_eq_true, beq_iff_eq, and_true] at mine
        obtain ⟨src, ten, ch⟩ := mine
        subst src
        rw [only g delivered ten ch] at other
        simp at other
      | _ => simp at mine

/-! ### Deadlock (14 R396, R397) -/

theorem foldl_min_le (l : List Nat) (a : Nat) : l.foldl min a ≤ a ∧ ∀ p ∈ l, l.foldl min a ≤ p := by
  induction l generalizing a with
  | nil => exact ⟨le_rfl, fun p at_ => absurd at_ List.not_mem_nil⟩
  | cons b r ih =>
    obtain ⟨first, rest⟩ := ih (min a b)
    refine ⟨first.trans (min_le_left ..), fun p at_ => ?_⟩
    rcases List.mem_cons.mp at_ with rfl | at_
    · exact first.trans (min_le_right ..)
    · exact rest p at_

theorem foldl_min_mem (l : List Nat) (a : Nat) : l.foldl min a = a ∨ l.foldl min a ∈ l := by
  induction l generalizing a with
  | nil => exact .inl rfl
  | cons b r ih =>
    rcases ih (min a b) with same | at_
    · rcases min_choice a b with h | h
      · exact .inl (same.trans h)
      · exact .inr (List.mem_cons.mpr (.inl (same.trans h)))
    · exact .inr (List.mem_cons_of_mem _ at_)

/-- The channels that a set of partitions is stuck on, as a mask. -/
def State.stuckMask (s : State) (c : Nat) (l : List Nat) (m : Nat) : Nat :=
  l.foldl (fun m p => match s.stuckOn c p with
    | some q => m ||| 2 ^ q.ch
    | none => m) m

theorem State.testBit_stuckMask (s : State) (c : Nat) (l : List Nat) (m i : Nat)
    (h : m.testBit i = true ∨ ∃ p ∈ l, ∃ q, s.stuckOn c p = some q ∧ q.ch = i) : (s.stuckMask c l m).testBit i = true := by
  induction l generalizing m with
  | nil => exact h.resolve_right fun ⟨p, at_, _⟩ => absurd at_ List.not_mem_nil
  | cons p r ih =>
    refine ih _ ?_
    rcases h with set_ | ⟨p', at_, q, stuck, ch⟩
    · left
      dsimp only
      split
      · rw [Nat.testBit_or, set_, Bool.true_or]
      · exact set_
    · rcases List.mem_cons.mp at_ with rfl | at_
      · left
        dsimp only
        rw [stuck]
        dsimp only
        rw [Nat.testBit_or, ch, Nat.testBit_two_pow_self, Bool.or_true]
      · exact .inr ⟨p', at_, q, stuck, ch⟩

/-- Whether a partition waits for one of a set. -/
def State.waitsIn (s : State) (c : Nat) (parts : List Nat) (p : Nat) : Bool := match s.stuckOn c p with
  | some q => parts.contains (if q.snd == p then q.rcv else q.snd)
  | none => false

/-- A set found waiting in a circle, not told of before, forms its record. -/
theorem execDeadlockDetect_finds {s : State} {c : Nat} {parts : List Nat} (fresh : (parts.all fun p => (s.th p).told) = false)
    (once : parts.Nodup) (stuck : ∀ p ∈ parts, ∃ w, s.stuckOn c p = some w ∧ (if w.snd = p then w.rcv else w.snd) ∈ parts) :
    ∃ u : State, u.recs = s.recs ∧ u.mem = s.mem ∧ exec (.deadlockDetect c parts) s =
      .next (u.post { id := 0, src := monitorSrc (parts.foldl min 4095 / 768), ctx := c, kind := 7, srcCode := 5, idField := parts.foldl min 4095 / 768
                      det0 := parts.foldl min 4095 + parts.length % 4096 * 4096, det1 := s.stuckMask c parts 0 }) := by
  have some_ : parts.isEmpty = false := by
    cases parts with
    | nil => cases fresh
    | cons _ _ => rfl
  have circle : parts.all (s.waitsIn c parts) = true := List.all_eq_true.mpr fun p at_ => by
    obtain ⟨w, on, member⟩ := stuck p at_
    rw [State.waitsIn, on]
    simpa using member
  have finds : ¬(!(!parts.isEmpty && parts.all (s.waitsIn c parts)) || parts.all fun p => (s.th p).told) = true := by
    rw [some_, circle, fresh]
    exact Bool.false_ne_true
  have told := foldl_keeps (f := fun (s : State) p => s.modTh p fun t => { t with told := true })
    (fun (t : State) => t.recs = s.recs ∧ t.mem = s.mem) (fun t p ht => ht) parts ⟨rfl, rfl⟩
  refine ⟨_, told.1, told.2, ?_⟩
  change execDeadlockDetect c parts s = _
  rw [execDeadlockDetect, List.dedup_eq_self.mpr once]
  exact congrArg _ (if_neg finds)

theorem Chan.restore_was {q : Chan} {w : ChanWas} (h : q.was = some w) : q.restore.st = w.st ∧ q.restore.desc = w.desc ∧
    q.restore.sent = w.sent ∧ q.restore.recv = w.recv ∧ q.restore.usable = w.usable ∧ q.restore.back = w.back ∧ q.restore.marked = w.marked := by
  rw [Chan.restore, h]
  exact ⟨rfl, rfl, rfl, rfl, rfl, rfl, rfl⟩

theorem Chan.restore_named (q : Chan) : q.restore.ctx = q.ctx ∧ q.restore.ch = q.ch := by
  rw [Chan.restore]
  split <;> exact ⟨rfl, rfl⟩

/-- Settles O47: each event by the channel it leaves. -/
theorem channelSteps : Obligations.ChannelSteps := by
  unfold Obligations.ChannelSteps
  intro s c n parts far q
  obtain ⟨ctx, ch⟩ := s.getChan_named c n
  refine ⟨fun e id dead rest transit => ?_, fun back => ?_, fun d u next => ?_,
    fun id m opening waits cmd pkg peer here ten at_ only => ?_,
    fun fresh once stuck => ?_⟩
  · have after (u : State) : (u.fire id).getChan c n = u.getChan c n := State.getChan_of_chans (State.fire_chans ..) c n
    refine ⟨_, execChannelElementArrive_transit s transit, ?_⟩
    rw [after]
    cases dead with
    | true =>
      rw [if_pos rfl, State.getChan_putChan s (x := { s.getChan c n with transit := rest }) ctx ch]
      exact ⟨fun clean => State.ended_fire (by rwa [State.clean_putChan]), rfl, fun _ => ⟨rfl, rfl⟩, nofun, fun _ => nofun⟩
    | false =>
      rw [if_neg Bool.false_ne_true]
      cases e with
      | none =>
        obtain ⟨chan, clean⟩ := s.standElement_mark (q := { s.getChan c n with transit := rest }) (c := c) (n := n) ctx ch
        obtain ⟨-, -, left, stand, marked⟩ := Chan.closes_keeps { s.getChan c n with transit := rest }
        rw [chan]
        exact ⟨fun h => State.ended_fire (clean id h), left, nofun,
          fun _ _ => ⟨stand, marked, fun open_ => Chan.closes_st (q := { s.getChan c n with transit := rest }) open_⟩, fun _ _ => nofun⟩
      | some b =>
        obtain ⟨chan, clean⟩ := s.standElement_element (q := { s.getChan c n with transit := rest }) (c := c) (n := n) b ctx ch
        rw [chan]
        refine ⟨fun h => State.ended_fire (clean id h), rfl, nofun, fun _ => nofun, fun b' _ same => ?_⟩
        cases same
        exact ⟨rfl, rfl⟩
  · have run : exec (.channelCreditArrive c n) s = .next (s.putChan { q with back := q.back - 1, usable := q.usable + 1 }) := by
      change execChannelCreditArrive c n s = _
      rw [execChannelCreditArrive]
      exact congrArg _ (if_pos back)
    refine ⟨_, run, ?_⟩
    rw [State.getChan_putChan s (x := { q with back := q.back - 1, usable := q.usable + 1 }) ctx ch]
    exact ⟨rfl, rfl, rfl⟩
  · intro t
    obtain ⟨mine, chans⟩ := State.nextFor_packet s next
    obtain ⟨src, body⟩ := d
    refine ⟨fun empty noCredit noOpen => ?_, fun none_ credit => ⟨?_, fun live remR => ?_⟩, fun a b l element live remS => ?_⟩
    · change execChannelElementArrive c n s = _
      rw [execChannelElementArrive]
      dsimp only
      rw [show (s.getChan c n).transit = [] from empty, show s.nextFor (s.getChan c n) = some ((src, body), u) from next]
      cases body with
      | element a b l => rfl
      | close a b => rfl
      | credit a b => exact absurd rfl (noCredit a b)
      | chopn g => exact absurd rfl (noOpen g)
      | _ => cases mine
    · obtain ⟨a, b, rfl⟩ := credit
      change execChannelCreditArrive c n s = _
      rw [execChannelCreditArrive]
      dsimp only
      rw [if_neg (show ¬0 < (s.getChan c n).back from Nat.not_lt.mpr (Nat.le_of_eq none_)),
        show s.nextFor (s.getChan c n) = some ((src, PktBody.credit a b), u) from next]
    · obtain ⟨a, b, rfl⟩ := credit
      have credited : t = u.putChan { q with usable := q.usable + 1, recv := (q.recv + 1) % 2 ^ 32 } := if_pos (by rw [live, remR]; rfl)
      rw [credited, State.getChan_putChan u (x := { q with usable := q.usable + 1, recv := (q.recv + 1) % 2 ^ 32 }) ctx ch]
    · have stands : t = u.standElement q (some l) := by
        change u.chanPacket q body = _
        rw [show body = .element a b l from element, State.chanPacket, if_pos (by rw [live, remS]; rfl)]
      rw [stands, (u.standElement_element (c := c) (n := n) l ctx ch).1]
      exact ⟨rfl, if_pos remS⟩
  · intro same
    have named : m.id = id := by simpa using List.find?_some cmd
    obtain ⟨f, taken⟩ := State.takeOpen_last (s := s) (q := q) (far := far) at_ fun g stood ten' ch' =>
      only g stood (by rw [ten', ten, show q.ctx = c from ctx]) (ch'.trans ch)
    have opens : q.opening.bind ({ s with fab := f } : State).cmd? = some m := by rw [waits]; exact cmd
    have run : exec (.remoteOpenMatch c n far) s = .next (
        if same then (({ s with fab := f } : State).putChan { q.open_ with usable := if q.remR then q.depth else 0 }).fire m.id
        else (({ s with fab := f } : State).putChan q.restore).cmdError m 5) := by
      have matched : ((q.st != .opening || far.fab != q.pkg || far.ch != q.peerCh || far.peerCh != n || far.peerTen != (s.ctx c).tenant)) = false := by
        simp [opening, pkg, peer, here, ten]
      change execRemoteOpenMatch c n far s = _
      rw [execRemoteOpenMatch]
      dsimp only
      rw [if_neg (by rw [show (_ : Bool) = false from matched]; exact Bool.false_ne_true), show s.takeOpen (s.getChan c n) far = _ from taken]
      dsimp only
      rw [show (s.getChan c n).opening.bind ({ s with fab := f } : State).cmd? = some m from opens]
    refine ⟨_, run, fun alike clean => ?_, fun differs => ?_⟩
    · have chan := State.getChan_putChan { s with fab := f } (x := { q.open_ with usable := if q.remR then q.depth else 0 }) (c := c) (n := n) ctx ch
      rw [if_pos alike, named, State.getChan_of_chans (State.fire_chans ..) c n, chan]
      exact ⟨State.ended_fire ((State.clean_putChan ..).trans clean), rfl, rfl⟩
    · obtain ⟨ctx', ch'⟩ := q.restore_named
      have chan : (({ s with fab := f } : State).putChan q.restore).getChan c n = q.restore :=
        State.getChan_putChan _ (ctx'.trans ctx) (ch'.trans ch)
      rw [if_neg differs]
      refine ⟨⟨_, congrArg (· ++ _) (State.recs_putChan { s with fab := f } q.restore), rfl, rfl, congrArg some named⟩, fun w was => ?_⟩
      rw [show ((({ s with fab := f } : State).putChan q.restore).cmdError m 5).getChan c n = q.restore from chan]
      exact Chan.restore_was was
  · obtain ⟨v, recs, mem, run⟩ := execDeadlockDetect_finds fresh once fun p at_ => (stuck p at_).2
    obtain ⟨first, each⟩ := foldl_min_le parts 4095
    have low : parts.foldl min 4095 ∈ parts := by
      rcases foldl_min_mem parts 4095 with top | at_
      · cases parts with
        | nil => cases fresh
        | cons p r =>
          have small := (stuck p List.mem_cons_self).1
          have := each p List.mem_cons_self
          omega
      · exact at_
    have member : (parts.foldl min 4095 + parts.length % 4096 * 4096) % 4096 = parts.foldl min 4095 := by omega
    refine ⟨_, _, run, congrArg (· ++ _) recs, rfl, rfl, rfl, ?_, fun p at_ => ?_, ?_, fun p at_ w on small => ?_, mem⟩
    · dsimp only
      rwa [member]
    · dsimp only
      rw [member]
      exact each p at_
    · dsimp only
      omega
    · exact s.testBit_stuckMask c parts 0 w.ch (.inr ⟨p, at_, w, on, rfl⟩)

end Sys2Proof.Machine
end

section
/-! PROOFS. Tasks retire and are dispatched (11 R317, R318). -/

namespace Sys2Proof.Machine

open Sys2Proof

/-! ### The tasks that stand -/

/-- What holds of every task but for its watch goes on holding where only watches are cancelled. -/
theorem tasks_of_uncancelled {P : Task → Prop} (hP : ∀ u, P u.uncancelled ↔ P u) {l k : List Task}
    (same : k.map Task.uncancelled = l.map Task.uncancelled) (h : ∀ u ∈ l, P u) : ∀ u ∈ k, P u := fun u at_ => by
  obtain ⟨v, there, eq⟩ := List.mem_map.mp (same ▸ List.mem_map_of_mem (f := Task.uncancelled) at_)
  exact (hP u).mp (eq ▸ (hP v).mpr (h v there))

/-- A task other than one that leaves the table, and that waits for it no longer. -/
def Task.without (c n : Nat) (u : Task) : Prop := ¬(u.ctx = c ∧ u.count = n) ∧ (u.ctx = c → n ∉ u.deps)

theorem Task.without_uncancelled (c n : Nat) (u : Task) : u.uncancelled.without c n ↔ u.without c n := Iff.rfl

/-! ### Retirement (11 R317) -/

/-- The semaphores a retiring task signals. -/
def State.raise (s : State) (x : Task) (l : List Nat) : State :=
  l.foldl (fun s n => (s.semWrite x.ctx n (s.semRead x.ctx n + 1)).semSignal x.ctx n x.part x.after false) s

theorem State.semSignal_signals (s : State) (c n k id : Nat) (b : Bool) : ∃ g, s.semSignal c n k id b = { s with signals := g } := by
  unfold State.semSignal State.signal
  dsimp only
  split <;> exact ⟨_, rfl⟩

theorem State.tasks_raise (s : State) (x : Task) (l : List Nat) : (s.raise x l).tasks.map Task.uncancelled = s.tasks.map Task.uncancelled :=
  foldl_keeps (fun (t : State) => t.tasks.map Task.uncancelled = s.tasks.map Task.uncancelled) (fun (t : State) (n : Nat) ht => by
    obtain ⟨g, eq⟩ := (t.semWrite x.ctx n (t.semRead x.ctx n + 1)).semSignal_signals x.ctx n x.part x.after false
    rw [eq]
    exact (congrArg State.tasks (State.kept_partPut ..) :).trans ht) l rfl

theorem State.signal_foldl (s : State) (l : List Task) (k id : Nat) :
    ∃ g, l.foldl (fun s u => s.signal [8, u.ctx, u.count] k id) s = { s with signals := g } :=
  foldl_keeps (fun t => ∃ g, t = { s with signals := g }) (fun t u ht => by
    obtain ⟨g, rfl⟩ := ht
    unfold State.signal
    split <;> exact ⟨_, rfl⟩) l ⟨_, rfl⟩

/-- The state before the signals: what retirement has inserted and written, and the table without the task. -/
def State.left (s : State) (x : Task) (g : List Signal) : State :=
  { s with
    signals := g
    tasks := (s.tasks.filter fun u => !(u.ctx == x.ctx && u.count == x.count)).map fun u =>
      if u.ctx == x.ctx then { u with deps := u.deps.filter fun d => d != x.count } else u }

theorem State.without_left (s : State) (x : Task) (g : List Signal) : ∀ u ∈ (s.left x g).tasks, u.without x.ctx x.count := by
  intro u at_
  obtain ⟨v, stood, rfl⟩ := List.mem_map.mp at_
  have other := (List.mem_filter.mp stood).2
  split
  · next same =>
    refine ⟨fun ⟨_, h⟩ => ?_, fun _ => ?_⟩
    · simp [beq_iff_eq.mp same, show v.count = x.count from h] at other
    · simp
  · next differs =>
    have differs : v.ctx ≠ x.ctx := by simpa using differs
    exact ⟨fun h => differs h.1, fun h => absurd h differs⟩

/-- Retirement up to the table: the insertion, the watch disarmed, and the completion word. -/
def State.retireWord (s : State) (x : Task) (error killed hit word : Bool) : State :=
  let s1 := (if error || hit then s else s.reuseInsert x killed).disarm x
  if word then s1.pageStore (engKey x.cmd) x.ctx x.cadr (bytesOf 8 (completionWord x error killed hit)) else s1

theorem State.retire_left (s : State) (x : Task) (error killed hit word : Bool) : ∃ g r,
    s.retire x error killed hit word =
      (((s.retireWord x error killed hit word).left x g).raise x (if error || killed then [] else x.sigs)).modCtx x.ctx fun y => { y with retlo := r } := by
  unfold State.retire
  obtain ⟨g, eq⟩ := State.signal_foldl (s.retireWord x error killed hit word)
    ((s.retireWord x error killed hit word).tasks.filter fun u => u.ctx == x.ctx && u.deps.contains x.count) x.part x.after
  refine ⟨g, ?_⟩
  unfold State.retireWord at eq ⊢
  dsimp only at eq ⊢
  rw [eq]
  cases error || killed
  · exact ⟨_, rfl⟩
  · exact ⟨_, rfl⟩

/-- A task that retires leaves the table, and nothing waits for it any longer. -/
theorem State.without_retire (s : State) (x : Task) (error killed hit word : Bool) :
    ∀ u ∈ (s.retire x error killed hit word).tasks, u.without x.ctx x.count := by
  obtain ⟨g, r, eq⟩ := s.retire_left x error killed hit word
  rw [eq]
  exact tasks_of_uncancelled (Task.without_uncancelled x.ctx x.count) (State.tasks_raise ..) (State.without_left _ x g)

/-! ### What a retirement writes -/

/-- A semaphore written at once: its word, and no other byte. -/
theorem State.semWrite_sound {s : State} {c n v : Nat} (sound : s.violates false (s.semPa c n) = false) (calm : s.calm (s.semPa c n / 64) 0 = true) :
    (s.semWrite c n v).kept = s.kept ∧ (s.semWrite c n v).mem = wrBytes s.mem (s.semPa c n) (bytesOf 4 v) := by
  simp only [State.calm, Bool.and_eq_true, Bool.not_eq_true'] at calm
  obtain ⟨⟨reached, held⟩, first⟩ := calm
  have wrote : s.semWrite c n v = s.afreshLine (s.semPa c n / 64) (s.homeWrite (s.semPa c n) (bytesOf 4 v)) := by
    rw [State.semWrite, State.partPut, sound, State.partWrite, State.still, reached, held, first, State.partDone, if_neg (by simp)]
    simp
  rw [wrote]
  exact ⟨(State.kept_afreshLine ..).trans (State.kept_homeWrite ..), (State.mem_afreshLine ..).trans (State.mem_homeWrite ..)⟩

/-- A word of a context's page in HBM, written within one line, where it is not poisoned and nothing rests on it. -/
theorem State.pageStore_open {s : State} {id c va : Nat} {l : Leaf} {bs : List Byte} (page : s.walk c false va = some l) (plain : l.tens = none)
    (hpa : physClass (l.base + va % l.size) = .hbm) (free : s.protectedKind (l.base + va % l.size) = none)
    (sound : tagPsn (s.tag (l.base + va % l.size)) = false) (calm : s.calm ((l.base + va % l.size) / 64) (engKey id) = true) :
    (s.pageStore (engKey id) c va bs).mem = wrBytes s.mem (l.base + va % l.size) bs := by
  simp only [State.calm, Bool.and_eq_true, Bool.not_eq_true'] at calm
  obtain ⟨⟨reached, held⟩, -⟩ := calm
  have still : s.still (engKey id) (l.base + va % l.size) bs = true := by simp [State.still, reached, held]
  rw [State.pageStore, page]
  dsimp only
  rw [plain, State.storeNow]
  dsimp only
  rw [still, Bool.or_true, if_pos rfl, State.mem_afreshLine]
  exact (State.performStore_engine hpa free (.inl sound) (Nat.add_le_add_left (Nat.zero_le _) _) (engKey_ne_partKey id)).2.2

/-- What a task's retirement with a status word leaves, as the spec's steps say it. -/
def State.Retired (s t : State) (c n w : Nat) (x : Task) : Prop :=
  (∀ u ∈ t.tasks, ¬(u.ctx = c ∧ u.count = n)) ∧ (∀ u ∈ t.tasks, u.ctx = c → n ∉ u.deps) ∧
  (x.watching = false → x.cadr = 0 → x.sigs = [] → t.mem = s.mem) ∧
  (∀ g, x.watching = false → x.cadr = 0 → x.sigs = [g] → s.violates false (s.semPa c g) = false →
    s.calm (s.semPa c g / 64) 0 = true → t.semRead c g = (s.semRead c g + 1) % 2 ^ 32 ∧
    ∀ a, a < s.semPa c g ∨ s.semPa c g + 4 ≤ a → rdByte t.mem a = rdByte s.mem a) ∧
  (∀ l, x.watching = false → x.cadr ≠ 0 → x.sigs = [] → s.walk c false x.cadr = some l → l.tens = none →
    let pa := l.base + x.cadr % l.size
    pa % 64 + 8 ≤ 64 → physClass pa = .hbm → s.protectedKind pa = none → tagPsn (s.tag pa) = false →
    s.calm (pa / 64) (engKey x.cmd) = true → rdBytes t.mem pa 8 = bytesOf 8 (n * 2 ^ 32 + w))

theorem State.retireWord_unwatched {s : State} {x : Task} (h : x.watching = false) (hit word : Bool) : s.retireWord x false false hit word =
    if word then s.pageStore (engKey x.cmd) x.ctx x.cadr (bytesOf 8 (completionWord x false false hit)) else s := by
  have idle : (if (false || hit) = true then s else s.reuseInsert x false) = s := by
    rw [State.reuseInsert, h]
    exact ite_self s
  rw [State.retireWord, idle, State.disarm, h]
  rfl

/-- The one semaphore of a task rises by one. -/
theorem State.raise_one {s : State} {x : Task} {m : Nat} (r : Nat) (sound : s.violates false (s.semPa x.ctx m) = false)
    (calm : s.calm (s.semPa x.ctx m / 64) 0 = true) :
    let t := (s.raise x [m]).modCtx x.ctx fun y => { y with retlo := r }
    t.semRead x.ctx m = (s.semRead x.ctx m + 1) % 2 ^ 32 ∧
      ∀ a, a < s.semPa x.ctx m ∨ s.semPa x.ctx m + 4 ≤ a → rdByte t.mem a = rdByte s.mem a := by
  intro t
  obtain ⟨kept, mem⟩ := State.semWrite_sound (v := s.semRead x.ctx m + 1) sound calm
  generalize hk : s.semWrite x.ctx m (s.semRead x.ctx m + 1) = k at kept mem
  obtain ⟨g, signalled⟩ := k.semSignal_signals x.ctx m x.part x.after false
  have ran : t = ({ k with signals := g } : State).modCtx x.ctx fun y => { y with retlo := r } := by
    rw [← signalled, ← hk]
    rfl
  have sys : t.sys = s.sys ∧ t.gcyc = s.gcyc := by
    rw [ran]
    exact ⟨(congrArg State.sys kept :), (congrArg State.gcyc kept :)⟩
  have stored : t.mem = wrBytes s.mem (s.semPa x.ctx m) (bytesOf 4 (s.semRead x.ctx m + 1)) := by rw [ran]; exact mem
  have pa : t.semPa x.ctx m = s.semPa x.ctx m := by
    rw [ran, State.semPa, State.ctx_modCtx, if_pos rfl]
    exact (congrArg (fun u : State => u.semPa x.ctx m) kept :)
  have free : t.violates false (s.semPa x.ctx m) = false := Eq.trans (by unfold State.violates; rw [sys.1, sys.2]) sound
  refine ⟨?_, fun a ha => ?_⟩
  · rw [State.semRead, pa, State.partGet, free, if_neg Bool.false_ne_true, stored, rdN_wrBytes]
  · rw [stored]
    exact rdByte_wrBytes_out (by rwa [bytesOf_length])

theorem State.retireTask_retired (s : State) (x : Task) (hit : Bool) {c n : Nat} (hc : x.ctx = c) (hn : x.count = n) :
    s.Retired (s.retireTask x false hit) c n (b2n x.impure * 2 ^ 17 + b2n hit * 2 ^ 16 + if hit then 0 else x.status) x := by
  subst hc hn
  have out := s.without_retire x false false hit (x.cadr != 0)
  obtain ⟨g, r, eq⟩ := s.retire_left x false false hit (x.cadr != 0)
  refine ⟨fun u at_ => (out u at_).1, fun u at_ => (out u at_).2, fun idle none_ still => ?_, fun m idle none_ one sound calm => ?_,
    fun l idle word still page plain fits hpa free sound calm => ?_⟩
  all_goals
    rw [State.retireTask, eq, State.retireWord_unwatched idle]
  · rw [none_, still]
    rfl
  · rw [none_, one]
    exact State.raise_one (s := s.left x g) r sound calm
  · have stored := State.pageStore_open (bs := bytesOf 8 (completionWord x false false hit)) page plain hpa free sound calm
    rw [still, bne_iff_ne.mpr word]
    change rdBytes (s.pageStore (engKey x.cmd) x.ctx x.cadr (bytesOf 8 (completionWord x false false hit))).mem _ 8 = _
    rw [stored]
    have same := rdBytes_wrBytes_same s.mem (l.base + x.cadr % l.size) (bytesOf 8 (completionWord x false false hit))
    rw [bytesOf_length] at same
    rw [same, completionWord]
    cases hit
    · simp [b2n, Nat.add_assoc]
    · simp [b2n, Nat.add_assoc]

/-! ### Reuse statistics (11 R331, R336) -/

/-- Of the valid slots of a tenant, the lowest. -/
def lowerSlot (tid : Nat) (acc : Option Tenant) (x : Tenant) : Option Tenant :=
  if x.reg.getLsbD 16 && fld x.reg 15 0 == tid then
    match acc with
    | none => some x
    | some y => if x.slot < y.slot then some x else some y
  else acc

theorem State.tenant?_eq (s : State) (tid : Nat) : s.tenant? tid = s.tenants.foldl (lowerSlot tid) none := rfl

theorem lowerSlot_map {f : Tenant → Tenant} (hf : ∀ x, (f x).reg = x.reg ∧ (f x).slot = x.slot) (tid : Nat) (l : List Tenant) (acc : Option Tenant) :
    (l.map f).foldl (lowerSlot tid) (acc.map f) = (l.foldl (lowerSlot tid) acc).map f := by
  induction l generalizing acc with
  | nil => rfl
  | cons x r ih =>
    rw [List.map_cons, List.foldl_cons, List.foldl_cons, ← ih]
    refine congrArg (fun a => (r.map f).foldl (lowerSlot tid) a) ?_
    unfold lowerSlot
    rw [(hf x).1, (hf x).2]
    split
    · cases acc with
      | none => rfl
      | some y =>
        dsimp only [Option.map_some]
        rw [(hf y).2]
        split <;> rfl
    · rfl

/-- A tenant's count of refused insertions and lookups. -/
def State.refusals (s : State) (tid : Nat) : Option Nat := (s.tenant? tid).map fun y => y.stats.refuse

theorem State.bump_tenants (s : State) (c : Nat) (f : ReuseStats → ReuseStats) : ∃ l, s.bump c f = { s with tenants := l } := by
  unfold State.bump State.modTenant
  split <;> exact ⟨_, rfl⟩

theorem State.tenant?_modTenant {s : State} {tid : Nat} {x : Tenant} {f : Tenant → Tenant} (hf : ∀ x, (f x).reg = x.reg ∧ (f x).slot = x.slot)
    (h : s.tenant? tid = some x) (j : Nat) :
    (s.modTenant tid f).tenant? j = (s.tenant? j).map fun y => if y.slot == x.slot then f y else y := by
  rw [State.modTenant, h]
  refine lowerSlot_map (f := fun y => if y.slot == x.slot then f y else y) (fun y => ?_) j s.tenants none
  split
  · exact hf y
  · exact ⟨rfl, rfl⟩

theorem State.refusals_bump_other (s : State) (c : Nat) {f : ReuseStats → ReuseStats} (hf : ∀ x, (f x).refuse = x.refuse) (j : Nat) :
    (s.bump c f).refusals j = s.refusals j := by
  rw [State.bump, State.refusals, State.refusals]
  cases h : s.tenant? (s.ctx c).tenant with
  | none => rw [State.modTenant, h]
  | some x =>
    rw [State.tenant?_modTenant (f := fun y => { y with stats := f y.stats }) (fun _ => ⟨rfl, rfl⟩) h, Option.map_map]
    refine congrArg (fun g => (s.tenant? j).map g) (funext fun y => ?_)
    dsimp only [Function.comp]
    split
    · exact hf _
    · rfl

theorem State.refusals_bump_refuse (s : State) (c : Nat) :
    (s.bump c fun x => { x with refuse := satAdd 64 x.refuse 1 }).refusals (s.ctx c).tenant =
      (s.refusals (s.ctx c).tenant).map fun n => min (n + 1) (2 ^ 64 - 1) := by
  rw [State.bump, State.refusals, State.refusals]
  cases h : s.tenant? (s.ctx c).tenant with
  | none => rw [State.modTenant, h, h]; rfl
  | some x =>
    rw [State.tenant?_modTenant (f := fun y => { y with stats := { y.stats with refuse := satAdd 64 y.stats.refuse 1 } })
      (fun _ => ⟨rfl, rfl⟩) h, h]
    simp only [Option.map_some, beq_self_eq_true, if_true]
    rfl

/-! ### The ends of a task (11 R317, R333) -/

theorem execReusePlaceComplete_retires {s : State} {c n : Nat} {x : Task}
    (found : (s.tasks.find? fun t => t.ctx == c && t.count == n && t.st == .placing) = some x) (stored : ∀ r ∈ s.reqs, r.key ≠ engKey x.cmd) :
    ∃ t, exec (.reusePlaceComplete c n) s = .next t ∧ s.Retired t c n ((if x.impure then 2 ^ 17 else 0) + 2 ^ 16) x := by
  obtain ⟨⟨hc, hn⟩, -⟩ : (x.ctx = c ∧ x.count = n) ∧ x.st = .placing := by simpa using List.find?_some found
  have none_ : (s.reqs.any fun r => r.key == engKey x.cmd) = false := by simpa using stored
  obtain ⟨l, bumped⟩ := s.bump_tenants c fun x => { x with hit := satAdd 64 x.hit 1 }
  refine ⟨({ s with tenants := l } : State).retireTask { x with status := 0 } false true, ?_, ?_⟩
  · rw [← bumped]
    change execReusePlaceComplete c n s = _
    rw [execReusePlaceComplete, found]
    dsimp only
    rw [none_]
    rfl
  · have := ({ s with tenants := l } : State).retireTask_retired { x with status := 0 } true hc hn
    have word : b2n x.impure * 2 ^ 17 + b2n true * 2 ^ 16 + 0 = (if x.impure = true then 2 ^ 17 else 0) + 2 ^ 16 := by cases x.impure <;> rfl
    rw [← word]
    exact this

theorem execTaskRetire_retires {s : State} {c n : Nat} {x : Task}
    (found : (s.tasks.find? fun t => t.ctx == c && t.count == n && t.st == .finishing && t.released) = some x)
    (fired : ∀ i ∈ x.produced, s.ended i = true) (stored : ∀ r ∈ s.reqs, r.key = goneKey c x.part → r.id < x.after → r.kind.writes = false) :
    ∃ t, exec (.taskRetire c n) s = .next t ∧ s.Retired t c n ((if x.impure then 2 ^ 17 else 0) + x.status) x := by
  obtain ⟨⟨⟨hc, hn⟩, -⟩, -⟩ : ((x.ctx = c ∧ x.count = n) ∧ x.st = .finishing) ∧ x.released = true := by simpa using List.find?_some found
  have may : (x.produced.any (fun i => !s.ended i) ||
      s.reqs.any fun r => r.key == goneKey c x.part && decide (r.id < x.after) && r.kind.writes) = false := by
    simp only [Bool.or_eq_false_iff, List.any_eq_false, Bool.not_eq_true', Bool.not_eq_true, Bool.and_eq_true, not_and, beq_iff_eq, decide_eq_true_eq]
    exact ⟨fun i at_ => by simp [fired i at_], fun r at_ key => stored r at_ key.1 key.2⟩
  refine ⟨s.retireTask x false false, ?_, ?_⟩
  · change execTaskRetire c n s = _
    rw [execTaskRetire, found]
    dsimp only
    rw [may]
    rfl
  · have := s.retireTask_retired x false hc hn
    have word : b2n x.impure * 2 ^ 17 + b2n false * 2 ^ 16 + x.status = (if x.impure = true then 2 ^ 17 else 0) + x.status := by
      cases x.impure <;> simp [b2n]
    rw [← word]
    exact this

/-! ### Dispatch (11 R318, 12 R358) -/

theorem State.hearOnce_keeps (s : State) (obj : List Nat) (k : Nat) :
    (s.hearOnce obj k).thr = s.thr ∧ (s.hearOnce obj k).mem = s.mem ∧ (s.hearOnce obj k).ctxs = s.ctxs := by
  unfold State.hearOnce State.hear State.receive
  dsimp only
  split <;> exact ⟨rfl, rfl, rfl⟩

/-- The constants stand from S1 on, and no other register does. -/
theorem Thr.s_consts (l : List W64) (b : Nat) (t : Thr) (i : Nat) :
    ((l.zipIdx b).foldl (fun th e => th.setS (e.2 + 1) e.1) t).s i = if b < i ∧ i ≤ b + l.length then l.getD (i - b - 1) 0 else t.s i := by
  induction l generalizing b t with
  | nil =>
    rw [if_neg (by rw [List.length_nil]; omega)]
    rfl
  | cons w r ih =>
    rw [List.zipIdx_cons, List.foldl_cons, ih, Thr.s_setS, List.length_cons]
    by_cases first : i = b + 1
    · subst first
      rw [if_neg (by omega), if_pos ⟨rfl, by omega⟩, if_pos (by omega), show b + 1 - b - 1 = 0 by omega]
      rfl
    · rw [if_neg (t := w) (fun h : i = b + 1 ∧ _ => first h.1)]
      by_cases here : b + 1 < i ∧ i ≤ b + 1 + r.length
      · rw [if_pos here, if_pos (by omega), show i - b - 1 = i - (b + 1) - 1 + 1 by omega]
        rfl
      · rw [if_neg here, if_neg (by omega)]

/-- The issuer but for its scalar registers. -/
def Thr.besideScalars (t : Thr) : Thr := { t with sr := [], sPsn := [] }

theorem Thr.besideScalars_setS (t : Thr) (n : Nat) (v : W64) (b : Bool) : (t.setS n v b).besideScalars = t.besideScalars := by
  unfold Thr.setS
  split <;> rfl

theorem startThr_started (old : Thr) (c : Nat) (x : Task) (d : W64) : let t := startThr old c x d
    t.mode = .running ∧ t.pc = (x.kernel + 0x140) % 2 ^ 52 ∧ t.scyc = 0 ∧ t.flight = [] ∧ t.loops = [] ∧
      t.task.map TaskRef.count = some x.count ∧
      ∀ i, t.s i = if 0 < i ∧ i ≤ x.consts.length then x.consts.getD (i - 1) 0 else 0 := by
  intro t
  obtain ⟨base, started, mode, pc, scyc, flight, loops, task, regs⟩ : ∃ base : Thr,
      t = x.consts.zipIdx.foldl (fun th e => th.setS (e.2 + 1) e.1) base ∧ base.mode = .running ∧ base.pc = (x.kernel + 0x140) % 2 ^ 52 ∧
      base.scyc = 0 ∧ base.flight = [] ∧ base.loops = [] ∧ base.task.map TaskRef.count = some x.count ∧ base.sr = [] :=
    ⟨_, rfl, rfl, rfl, rfl, rfl, rfl, rfl, rfl⟩
  have same : t.besideScalars = base.besideScalars := by
    rw [started]
    exact foldl_keeps (fun t : Thr => t.besideScalars = base.besideScalars) (fun t e ht => (Thr.besideScalars_setS ..).trans ht) _ rfl
  refine ⟨(congrArg Thr.mode same :).trans mode, (congrArg Thr.pc same :).trans pc, (congrArg Thr.scyc same :).trans scyc,
    (congrArg Thr.flight same :).trans flight, (congrArg Thr.loops same :).trans loops,
    (congrArg (fun t : Thr => t.task.map TaskRef.count) same :).trans task, fun i => ?_⟩
  rw [started, Thr.s_consts, Nat.zero_add, Nat.sub_zero]
  refine if_congr Iff.rfl rfl ?_
  rw [Thr.s, regs]
  exact ite_self 0

/-- Whether a partition may take a task: it is idle, its context's tasks may be queued, its core has power, and no debug stop holds it. -/
def State.takes (s : State) (p c : Nat) : Prop :=
  s.owner p = some c ∧ (s.th p).mode = .idle ∧ s.queues c = true ∧ s.gated.contains (coreOf p) = false ∧
    (s.th p).dbg.stopped = false ∧ (s.th p).dbg.step = false

theorem execTaskDispatch_takes {s : State} {p c : Nat} (h : s.takes p c) : exec (.taskDispatch p) s =
    .next (match (s.th p).resumed with
      | j :: rest => s.restore p c j rest
      | [] => match s.nextQueued p c with
        | some x => s.dispatchNew p x
        | none => s) := by
  obtain ⟨own, idle, queues, powered, stopped, step⟩ := h
  change execTaskDispatch p s = _
  rw [execTaskDispatch, own]
  dsimp only
  rw [idle, queues, powered, stopped, step]
  rfl

theorem State.dispatchNew_eq (s : State) (p : Nat) (x : Task) : ∃ l o, s.dispatchNew p x =
    { (s.hearOnce [8, x.ctx, x.count] p).modTh p fun old => startThr old x.ctx x (drthOf ((s.hearOnce [8, x.ctx, x.count] p).ctx x.ctx).cdbg) with
      tasks := l, occ := o } := by
  unfold State.dispatchNew
  generalize s.hearOnce [8, x.ctx, x.count] p = u
  exact ⟨_, _, rfl⟩

theorem State.dispatchNew_started (s : State) (p : Nat) (x : Task) : let t := s.dispatchNew p x
    t.th p = startThr (s.th p) x.ctx x (drthOf (s.ctx x.ctx).cdbg) ∧ t.mem = s.mem ∧ ∀ q, q ≠ p → t.th q = s.th q := by
  intro t
  obtain ⟨thr, mem, ctxs⟩ := s.hearOnce_keeps [8, x.ctx, x.count] p
  obtain ⟨l, o, eq⟩ : ∃ l o, t = _ := s.dispatchNew_eq p x
  rw [eq]
  generalize s.hearOnce [8, x.ctx, x.count] p = u at thr mem ctxs
  have th (q : Nat) : u.th q = s.th q := by rw [State.th, thr, State.th]
  have ctx : u.ctx x.ctx = s.ctx x.ctx := by rw [State.ctx, ctxs, State.ctx]
  let f (old : Thr) : Thr := startThr old x.ctx x (drthOf (u.ctx x.ctx).cdbg)
  change (u.modTh p f).th p = _ ∧ u.mem = _ ∧ ∀ q, q ≠ p → (u.modTh p f).th q = _
  refine ⟨(u.th_modTh_same p f).trans ?_, mem, fun q other => (u.th_modTh_ne f other).trans (th q)⟩
  rw [th, ← ctx]

theorem Thr.h_handlesAgain (y : Thr) (h : Nat) : y.handlesAgain.h h = (y.h h).again := getD_map Handle.again {} y.hs h

theorem State.restore_eq {s : State} {p c : Nat} {j : TaskRef} {y : Thr} (rest : List TaskRef) (saved : s.savedAt c j.slot = some y) :
    ∃ t : Thr, (s.restore p c j rest).thr = (s.setTh p t).thr ∧ (s.restore p c j rest).mem = s.mem ∧ t.mode = y.savedMode ∧ t.pc = y.pc ∧
      t.scyc = y.scyc ∧ t.resumed = rest ∧ t.flight = y.flight ∧ t.loops = y.loops ∧ t.sr = y.sr ∧ t.hs = y.handlesAgain.hs := by
  rw [State.restore, saved]
  exact ⟨_, rfl, rfl, rfl, rfl, rfl, rfl, rfl, rfl, rfl, rfl⟩

theorem State.restore_restored {s : State} {p c : Nat} {j : TaskRef} {y : Thr} (rest : List TaskRef) (saved : s.savedAt c j.slot = some y) :
    let t := s.restore p c j rest
    (t.th p).mode = y.savedMode ∧ (t.th p).pc = y.pc ∧ (t.th p).scyc = y.scyc ∧
      (t.th p).resumed = rest ∧ (t.th p).flight = y.flight ∧ (t.th p).loops = y.loops ∧ (∀ i, (t.th p).s i = y.s i) ∧
      (∀ h, (t.th p).h h = (y.h h).again) ∧ t.mem = s.mem ∧ ∀ q, q ≠ p → t.th q = s.th q := by
  intro t
  obtain ⟨v, thr, mem, mode, pc, scyc, resumed, flight, loops, sr, hs⟩ := State.restore_eq (p := p) rest saved
  have th (q : Nat) : t.th q = (s.setTh p v).th q := by rw [State.th, State.th]; exact congrArg (getD {} · q) thr
  rw [th, State.th_setTh_same]
  refine ⟨mode, pc, scyc, resumed, flight, loops, fun i => ?_, fun h => ?_, mem, fun q other => (th q).trans (s.th_setTh_ne v other)⟩
  · rw [Thr.s, sr, Thr.s]
  · rw [Thr.h, hs]
    exact y.h_handlesAgain h

end Sys2Proof.Machine
end

section
/-! PROOFS. Tasks are looked up, placed and entered (11 R319–R322, R332–R335). -/

namespace Sys2Proof.Machine

open Sys2Proof

/-! ### Lookup (11 R332–R334) -/

/-- A state after a lookup that found nothing: memory, requests and refused counts as given, and every task of the number looked up
stands as looked up with its key. -/
structure State.LookedUp (v : State) (c n : Nat) (k : Option Nat) (refused : Nat → Option Nat) (t : State) : Prop where
  mem : t.mem = v.mem
  reqs : t.reqs = v.reqs
  refusals : ∀ j, t.refusals j = refused j
  stands : ∃ u ∈ t.tasks, u.ctx = c ∧ u.count = n
  looked : ∀ u ∈ t.tasks, u.ctx = c → u.count = n → u.looked = true ∧ u.pureKey = k

/-- It stands whatever moves beside memory, requests, tenants and tasks. -/
theorem State.LookedUp.of_eq {v s t : State} {c n : Nat} {k : Option Nat} {r : Nat → Option Nat}
    (hs : v.LookedUp c n k r s) (mem : t.mem = s.mem) (reqs : t.reqs = s.reqs) (tenants : t.tenants = s.tenants) (tasks : t.tasks = s.tasks) :
    v.LookedUp c n k r t where
  mem := mem.trans hs.mem
  reqs := reqs.trans hs.reqs
  refusals j := by rw [← hs.refusals, State.refusals, State.refusals, State.tenant?_eq, tenants]; rfl
  stands := tasks ▸ hs.stands
  looked := tasks ▸ hs.looked

theorem State.mem_putTask {s : State} {x u : Task} (h : u ∈ (s.putTask x).tasks) :
    u = x ∨ (u ∈ s.tasks ∧ ¬(u.ctx = x.ctx ∧ u.count = x.count)) := by
  obtain ⟨v, at_, eq⟩ := List.mem_map.mp h
  split at eq
  · exact .inl eq.symm
  · next other => exact .inr ⟨eq ▸ at_, by simpa [← eq] using other⟩

theorem State.putTask_mem {s : State} {x u : Task} (h : u ∈ s.tasks) (hc : u.ctx = x.ctx) (hn : u.count = x.count) : x ∈ (s.putTask x).tasks :=
  List.mem_map.mpr ⟨u, h, by simp [hc, hn]⟩

section

variable {v s : State} {c n : Nat} {k : Option Nat} {r : Nat → Option Nat}

/-- A task is put back as it stood but for its state and waits, and where it is the one looked up, as looked up. -/
theorem State.LookedUp.putTask (h : v.LookedUp c n k r s) {u x : Task} (at_ : u ∈ s.tasks) (hc : x.ctx = u.ctx) (hn : x.count = u.count)
    (hl : x.looked = u.looked) (hk : x.pureKey = u.pureKey) : v.LookedUp c n k r (s.putTask x) where
  mem := h.mem
  reqs := h.reqs
  refusals := h.refusals
  stands := by
    obtain ⟨w, stood, wc, wn⟩ := h.stands
    by_cases same : w.ctx = x.ctx ∧ w.count = x.count
    · exact ⟨x, State.putTask_mem stood same.1 same.2, same.1 ▸ wc, same.2 ▸ wn⟩
    · refine ⟨w, List.mem_map.mpr ⟨w, stood, if_neg ?_⟩, wc, wn⟩
      simpa using same
  looked w there wc wn := by
    rcases State.mem_putTask there with rfl | ⟨stood, -⟩
    · rw [hl, hk]
      exact h.looked u at_ (hc ▸ wc) (hn ▸ wn)
    · exact h.looked w stood wc wn

theorem State.recallLine_keeps (s : State) (line : Nat) :
    (s.recallLine line).mem = s.mem ∧ (s.recallLine line).reqs = s.reqs ∧ (s.recallLine line).tenants = s.tenants ∧
      (s.recallLine line).tasks = s.tasks := by
  unfold State.recallLine
  dsimp only
  split
  · split <;> exact ⟨rfl, rfl, rfl, rfl⟩
  · exact ⟨rfl, rfl, rfl, rfl⟩

theorem State.LookedUp.bump (h : v.LookedUp c n k r s) (d : Nat) {f : ReuseStats → ReuseStats} (hf : ∀ x, (f x).refuse = x.refuse) :
    v.LookedUp c n k r (s.bump d f) := by
  obtain ⟨l, eq⟩ := s.bump_tenants d f
  have refusals (j : Nat) := (s.refusals_bump_other d hf j).trans (h.refusals j)
  rw [eq] at refusals ⊢
  exact ⟨h.mem, h.reqs, refusals, h.stands, h.looked⟩

/-- A watch is armed: lines are recalled, and the task goes to its lookup. -/
theorem State.LookedUp.arm (h : v.LookedUp c n k r s) {u x : Task} (at_ : u ∈ s.tasks) (hc : x.ctx = u.ctx) (hn : x.count = u.count)
    (hl : x.looked = u.looked) (hk : x.pureKey = u.pureKey) : v.LookedUp c n k r (s.arm x) := by
  unfold State.arm
  refine State.LookedUp.bump ?_ _ fun _ => rfl
  have fold := foldl_keeps (fun (t : State) => v.LookedUp c n k r t ∧ t.tasks = s.tasks) (f := fun (s : State) l => (s.recallLine l).watchUp x.unit l)
    (fun t l ht => by
      obtain ⟨mem, reqs, tenants, tasks⟩ := t.recallLine_keeps l
      exact ⟨State.LookedUp.of_eq ht.1 mem reqs tenants tasks, tasks.trans ht.2⟩) (s.taskLines x) ⟨h, rfl⟩
  obtain ⟨there, tasks⟩ := fold
  exact there.putTask (x := { x with st := .lookup, watching := true, armed := s.taskLines x }) (tasks ▸ at_) hc hn hl hk

theorem State.semHeard_foldl (s : State) (c n : Nat) (l : List (Nat × Nat)) :
    ∃ g, l.foldl (fun s w => s.semHeard c w.1 n) s = { s with signals := g } :=
  foldl_keeps (fun t => ∃ g, t = { s with signals := g }) (fun t w ht => by
    obtain ⟨g, rfl⟩ := ht
    exact ⟨_, rfl⟩) l ⟨_, rfl⟩

theorem State.LookedUp.taskStep (h : v.LookedUp c n k r s) {u : Task} (at_ : u ∈ s.tasks) : v.LookedUp c n k r (s.taskStep u) := by
  unfold State.taskStep
  dsimp only
  obtain ⟨g, eq⟩ := s.semHeard_foldl u.ctx u.count
    (u.waitSems.filter fun w => !(u.waitSems.filter fun w => decide (s.semRead u.ctx w.1 < w.2)).contains w)
  rw [eq]
  have here : v.LookedUp c n k r { s with signals := g } := ⟨h.mem, h.reqs, h.refusals, h.stands, h.looked⟩
  split
  · exact here.putTask (u := u) at_ rfl rfl rfl rfl
  · split
    · split
      · exact here.arm (u := u) at_ rfl rfl rfl rfl
      · split
        · exact here.putTask (u := u) at_ rfl rfl rfl rfl
        · exact here.putTask (u := u) at_ rfl rfl rfl rfl
    · exact here

theorem State.LookedUp.taskTick (h : v.LookedUp c n k r s) : v.LookedUp c n k r s.taskTick :=
  foldl_keeps (fun t => v.LookedUp c n k r t) (fun (t : State) (u : Task) ht => by
    split
    · next x found => exact ht.taskStep (List.mem_of_find?_eq_some found)
    · exact ht) _ h

end

/-- A lookup that ends without a hit. -/
theorem State.lookupMiss_looked {v : State} {x : Task} {c n : Nat} (at_ : ∃ u ∈ v.tasks, u.ctx = c ∧ u.count = n) (hc : x.ctx = c) (hn : x.count = n)
    (refused : Bool) : v.LookedUp c n x.pureKey
      (fun j => (if refused then v.bump c fun x => { x with refuse := satAdd 64 x.refuse 1 } else v).refusals j) (v.lookupMiss x refused) := by
  obtain ⟨u, stood, uc, un⟩ := at_
  subst hc hn
  have put : v.LookedUp x.ctx x.count x.pureKey v.refusals (v.putTask { x with st := .ready, looked := true }) :=
    ⟨rfl, rfl, fun _ => rfl, ⟨_, State.putTask_mem stood uc un, rfl, rfl⟩, fun w there wc wn => by
      rcases State.mem_putTask there with rfl | ⟨-, other⟩
      · exact ⟨rfl, rfl⟩
      · exact absurd ⟨wc, wn⟩ other⟩
  unfold State.lookupMiss
  refine State.LookedUp.taskTick ?_
  cases refused
  · exact put
  · obtain ⟨l, eq⟩ := (v.putTask { x with st := .ready, looked := true }).bump_tenants x.ctx fun x => { x with refuse := satAdd 64 x.refuse 1 }
    have same (j : Nat) : ((v.putTask { x with st := .ready, looked := true }).bump x.ctx fun x => { x with refuse := satAdd 64 x.refuse 1 }).refusals j =
        (v.bump x.ctx fun x => { x with refuse := satAdd 64 x.refuse 1 }).refusals j := by
      unfold State.bump State.modTenant
      change (match v.tenant? (v.ctx x.ctx).tenant with | none => _ | some y => _ : State).refusals j = _
      cases v.tenant? (v.ctx x.ctx).tenant <;> rfl
    rw [if_pos rfl, eq] at *
    exact ⟨put.mem, put.reqs, same, put.stands, put.looked⟩

theorem QueuesPart.vshare (s : State) (c va n core : Nat) : QueuesPart s (s.vshare c va n core) := by
  refine .forN (fun i s => ?_) _ s
  dsimp only
  split
  · exact .of_eq rfl
  · exact .ite (.log ..) (.of_eq (State.othersRead_reqs ..))

theorem QueuesPart.rangesShare (s : State) (c : Nat) (l : List (Nat × Nat)) : QueuesPart s (s.rangesShare c l) := by
  unfold State.rangesShare
  refine QueuesPart.foldl (f := fun s (r : Nat × Nat) => s.vshare c r.1 r.2) (fun s r => ?_) l s
  exact QueuesPart.vshare s c r.1 r.2 500

theorem State.kept_rangesShare (s : State) (c : Nat) (l : List (Nat × Nat)) : (s.rangesShare c l).kept = s.kept := by
  unfold State.rangesShare
  refine State.kept_foldl (f := fun s (r : Nat × Nat) => s.vshare c r.1 r.2) (fun s r => ?_) l s
  exact State.kept_vshare s c r.1 r.2 500

/-- The watch of a task disarmed. -/
theorem State.disarm_keeps (s : State) (x : Task) : (s.disarm x).mem = s.mem ∧ (s.disarm x).reqs = s.reqs := by
  unfold State.disarm
  split
  · exact ⟨rfl, rfl⟩
  · have down (s : State) (u l : Nat) : (s.watchDown u l).mem = s.mem ∧ (s.watchDown u l).reqs = s.reqs := by
      unfold State.watchDown
      dsimp only
      split <;> exact ⟨rfl, rfl⟩
    have clear (s : State) (u l : Nat) : (s.watchClear u l).mem = s.mem ∧ (s.watchClear u l).reqs = s.reqs := by
      unfold State.watchClear
      dsimp only
      split <;> exact ⟨rfl, rfl⟩
    refine foldl_keeps (fun (t : State) => t.mem = s.mem ∧ t.reqs = s.reqs) (fun t l ht => ?_) _
      (foldl_keeps (fun (t : State) => t.mem = s.mem ∧ t.reqs = s.reqs) (fun t l ht => ?_) _ ⟨rfl, rfl⟩)
    · exact ⟨(clear ..).1.trans ht.1, (clear ..).2.trans ht.2⟩
    · exact ⟨(down ..).1.trans ht.1, (down ..).2.trans ht.2⟩

section

variable {s : State} {c n : Nat} {x : Task}

/-- A tenant's refused lookups and insertions, one more. -/
def State.refusedOne (s t : State) (tid : Nat) : Prop :=
  (t.tenant? tid).map (fun y => y.stats.refuse) = (s.tenant? tid).map fun y => min (y.stats.refuse + 1) (2 ^ 64 - 1)

theorem State.refusedOne_of_refusals {t : State} {tid : Nat} (h : t.refusals tid = (s.refusals tid).map fun n => min (n + 1) (2 ^ 64 - 1)) :
    s.refusedOne t tid := by
  rw [State.refusals, State.refusals, Option.map_map] at h
  exact h

/-- A task the part reads the ranges of still stands in the table. -/
theorem State.rangesShare_stands {y : Task} (l : List (Nat × Nat)) (at_ : y ∈ s.tasks) :
    ∃ u ∈ (s.rangesShare c l).tasks, u.ctx = y.ctx ∧ u.count = y.count := by
  have same : (s.rangesShare c l).tasks.map Task.uncancelled = s.tasks.map Task.uncancelled := (congrArg State.tasks (s.kept_rangesShare c l) :)
  obtain ⟨u, there, eq⟩ := List.mem_map.mp (same ▸ List.mem_map_of_mem (f := Task.uncancelled) at_)
  exact ⟨u, there, (congrArg Task.ctx eq :), (congrArg Task.count eq :)⟩

theorem execReuseLookup_miss {y : Task} {refused : Bool} (at_ : x ∈ s.tasks) (hc : x.ctx = c) (hn : x.count = n) (yc : y.ctx = x.ctx)
    (yn : y.count = x.count) (run : exec (.reuseLookup c n) s = .next ((s.rangesShare c x.reads).lookupMiss y refused)) :
    ∃ t u, exec (.reuseLookup c n) s = .next t ∧ u ∈ t.tasks ∧ u.ctx = c ∧ u.count = n ∧ u.looked = true ∧ u.pureKey = y.pureKey ∧
      (refused = true → s.refusedOne t (s.ctx c).tenant) ∧ t.mem = (s.rangesShare c x.reads).mem ∧ t.reqs = (s.rangesShare c x.reads).reqs := by
  have kept := s.kept_rangesShare c x.reads
  have ctx : (s.rangesShare c x.reads).ctx c = s.ctx c := (congrArg (fun u : State => u.ctx c) kept :)
  have refusals (j : Nat) : (s.rangesShare c x.reads).refusals j = s.refusals j := (congrArg (fun u : State => u.refusals j) kept :)
  obtain ⟨u, there, uc, un⟩ := s.rangesShare_stands (c := c) x.reads at_
  have missed := State.lookupMiss_looked (v := s.rangesShare c x.reads) ⟨u, there, uc.trans hc, un.trans hn⟩ (yc.trans hc) (yn.trans hn) refused
  obtain ⟨w, stands, wc, wn⟩ := missed.stands
  obtain ⟨looked, key⟩ := missed.looked w stands wc wn
  refine ⟨_, w, run, stands, wc, wn, looked, key, fun one => State.refusedOne_of_refusals ?_, missed.mem, missed.reqs⟩
  rw [missed.refusals, if_pos one, ← refusals, ← ctx]
  exact State.refusals_bump_refuse ..

/-- A line that a placement writes: its address, its bytes, and the tensor record of its page. -/
abbrev Placed : Type := Nat × List Byte × Option (Nat × Nat × Nat)

/-- A request for each line a placement writes, queued behind those there are. -/
def State.queueAll (s : State) (f : State → Placed → Req) (l : List Placed) : State :=
  l.foldl (fun s w => { s with reqs := s.reqs ++ [f s w], nextId := s.nextId + 1 }) s

theorem State.queueAll_keeps (s : State) (f : State → Placed → Req) (l : List Placed) :
    (s.queueAll f l).mem = s.mem ∧ (s.queueAll f l).tasks = s.tasks ∧ ∀ r ∈ s.reqs, r ∈ (s.queueAll f l).reqs :=
  foldl_keeps (f := fun (s : State) w => { s with reqs := s.reqs ++ [f s w], nextId := s.nextId + 1 })
    (fun (t : State) => t.mem = s.mem ∧ t.tasks = s.tasks ∧ ∀ r ∈ s.reqs, r ∈ t.reqs)
    (fun _ _ ⟨mem, tasks, reqs⟩ => ⟨mem, tasks, fun r at_ => List.mem_append_left _ (reqs r at_)⟩) l ⟨rfl, rfl, fun _ => id⟩

/-- What a hit does: the watch disarmed, the task at its placement, and its stores queued. -/
def State.place (s : State) (ctx : Nat) (t : Task) (e : Reuse) : State :=
  let bytes := e.lines.flatMap fun l => rdBytes s.mem (l * 64) 64
  let s1 := (s.disarm t).putTask { t with st := .placing, watching := false }
  ({ s1 with
      nextId := s1.nextId + 1
      reuse := s1.reuse.map fun x => if x == e then { x with stamp := s1.nextId } else x } : State).queueAll (fun s w =>
    let ver := match w.2.2 with
      | none => 0
      | some (i, base, size) => plainVer (s.recGeo ctx i) size (w.1 - base) (s.recWv ctx i)
    { id := s.nextId, key := engKey t.cmd, acc := s.nextId, ctx, tracked := false
      kind := .store w.1 w.2.1 (some ver) false w.2.2 }) (s.placement t bytes)

theorem State.disarm_stands {v : State} {u : Task} (y : Task) (at_ : u ∈ v.tasks) :
    ∃ w ∈ (v.disarm y).tasks, w.ctx = u.ctx ∧ w.count = u.count := by
  have down (v : State) (i l : Nat) : (v.watchDown i l).tasks = v.tasks := by
    unfold State.watchDown
    dsimp only
    split <;> rfl
  have clear (v : State) (i l : Nat) : (v.watchClear i l).tasks = v.tasks := by
    unfold State.watchClear
    dsimp only
    split <;> rfl
  unfold State.disarm
  split
  · exact ⟨u, at_, rfl, rfl⟩
  · refine foldl_keeps (fun (t : State) => ∃ w ∈ t.tasks, w.ctx = u.ctx ∧ w.count = u.count) (fun t l ht => by rwa [clear]) _
      (foldl_keeps (fun (t : State) => ∃ w ∈ t.tasks, w.ctx = u.ctx ∧ w.count = u.count) (fun t l ht => by rwa [down]) _
        ⟨_, List.mem_map_of_mem at_, ?_⟩)
    split <;> exact ⟨rfl, rfl⟩

theorem execReuseLookup_noKey (found : (s.tasks.find? fun t => t.ctx == c && t.count == n && t.st == .lookup) = some x)
    (hk : s.taskKey x = none) : exec (.reuseLookup c n) s = .next ((s.rangesShare c x.reads).lookupMiss x true) := by
  change execReuseLookup c n s = _
  rw [execReuseLookup, found]
  dsimp only
  rw [hk]

/-- A lookup with a key: what its result does to the task, as the table holds it. -/
theorem execReuseLookup_key {key : Nat} (found : (s.tasks.find? fun t => t.ctx == c && t.count == n && t.st == .lookup) = some x)
    (hk : s.taskKey x = some key) : let v := s.rangesShare c x.reads
    exec (.reuseLookup c n) s = .next (
      match s.reuse.find? fun e => e.die == x.unit && e.tenant == (s.ctx c).tenant && e.key == key with
      | none => v.lookupMiss { x with pureKey := some key } false
      | some e =>
        if !(x.writes.all fun r => (List.range ((r.1 % 64 + r.2 + 63) / 64)).all fun i => v.writable c (r.1 / 64 * 64 + 64 * i)) then
          v.lookupMiss { x with pureKey := some key } true
        else v.place c { x with pureKey := some key } e) := by
  intro v
  have kept := s.kept_rangesShare c x.reads
  have ctx : v.ctx c = s.ctx c := (congrArg (fun u : State => u.ctx c) kept :)
  have reuse : v.reuse = s.reuse := (congrArg State.reuse kept :)
  change execReuseLookup c n s = _
  rw [execReuseLookup, found]
  dsimp only
  rw [hk]
  dsimp only
  rw [← ctx, ← reuse]
  rfl

theorem State.place_keeps {v : State} {u y : Task} {e : Reuse} (at_ : u ∈ v.tasks) (uc : u.ctx = y.ctx) (un : u.count = y.count) :
    { y with st := .placing, watching := false } ∈ (v.place c y e).tasks ∧ (v.place c y e).mem = v.mem ∧ ∀ r ∈ v.reqs, r ∈ (v.place c y e).reqs := by
  unfold State.place
  dsimp only
  obtain ⟨w, stood, wc, wn⟩ := State.disarm_stands y at_
  obtain ⟨mem, reqs⟩ := v.disarm_keeps y
  refine ⟨?_, (State.queueAll_keeps ..).1.trans mem, fun r hr => (State.queueAll_keeps ..).2.2 r (reqs ▸ hr)⟩
  rw [(State.queueAll_keeps ..).2.1]
  exact State.putTask_mem stood (wc.trans uc) (wn.trans un)

theorem execReuseLookup_places {key : Nat} {e : Reuse}
    (found : (s.tasks.find? fun t => t.ctx == c && t.count == n && t.st == .lookup) = some x) (hk : s.taskKey x = some key)
    (hit : (s.reuse.find? fun e => e.die == x.unit && e.tenant == (s.ctx c).tenant && e.key == key) = some e)
    (may : ∀ r ∈ x.writes, ∀ i, i < (r.1 % 64 + r.2 + 63) / 64 → (s.rangesShare c x.reads).writable c (r.1 / 64 * 64 + 64 * i) = true) :
    ∃ t u, exec (.reuseLookup c n) s = .next t ∧ u ∈ t.tasks ∧ u.ctx = c ∧ u.count = n ∧ u.st = .placing ∧ u.watching = false ∧
      t.mem = (s.rangesShare c x.reads).mem ∧ ∀ r ∈ s.reqs, r ∈ t.reqs := by
  obtain ⟨⟨hc, hn⟩, -⟩ : (x.ctx = c ∧ x.count = n) ∧ x.st = .lookup := by simpa using List.find?_some found
  have all : (x.writes.all fun r => (List.range ((r.1 % 64 + r.2 + 63) / 64)).all fun i =>
      (s.rangesShare c x.reads).writable c (r.1 / 64 * 64 + 64 * i)) = true :=
    List.all_eq_true.mpr fun r at_ => List.all_eq_true.mpr fun i hi => may r at_ i (List.mem_range.mp hi)
  have run := execReuseLookup_key found hk
  rw [hit] at run
  dsimp only at run
  rw [if_neg (by rw [all]; exact Bool.false_ne_true)] at run
  obtain ⟨u, there, uc, un⟩ := s.rangesShare_stands (c := c) x.reads (List.mem_of_find?_eq_some found)
  obtain ⟨k, queued, -⟩ := QueuesPart.rangesShare s c x.reads
  obtain ⟨stands, mem, reqs⟩ := State.place_keeps (e := e) (c := c) (y := { x with pureKey := some key }) there uc un
  refine ⟨_, { x with pureKey := some key, st := .placing, watching := false }, run, stands, hc, hn, rfl, rfl, mem, fun r at_ => reqs r ?_⟩
  rw [queued]
  exact List.mem_append_left _ at_

end

/-! ### Entry into the dependence table (11 R319, R320) -/

/-- Of two tasks, the one that committed first. -/
def sooner (acc : Option Task) (t : Task) : Option Task := match acc with
  | none => some t
  | some u => if t.seq < u.seq then some t else some u

theorem foldl_sooner {x : Task} (l : List Task) (acc : Option Task) (first : ∀ y ∈ l, y ≠ x → x.seq < y.seq)
    (hacc : ∀ y ∈ acc, y ≠ x → x.seq < y.seq) (at_ : x ∈ l ∨ acc = some x) : l.foldl sooner acc = some x := by
  induction l generalizing acc with
  | nil => exact at_.resolve_left List.not_mem_nil
  | cons y r ih =>
    refine ih _ (fun z hz => first z (List.mem_cons_of_mem _ hz)) (fun z hz other => ?_) ?_
    · cases acc with
      | none => exact Option.some.inj hz ▸ first y List.mem_cons_self (Option.some.inj hz ▸ other)
      | some u =>
        rw [sooner] at hz
        split at hz
        · exact Option.some.inj hz ▸ first y List.mem_cons_self (Option.some.inj hz ▸ other)
        · exact Option.some.inj hz ▸ hacc u rfl (Option.some.inj hz ▸ other)
    · by_cases later : x ∈ r
      · exact .inl later
      · right
        cases acc with
        | none =>
          rcases at_ with h | h
          · rw [sooner, ((List.mem_cons.mp h).resolve_right later)]
          · cases h
        | some u =>
          by_cases hu : u = x
          · subst hu
            rw [sooner, if_neg]
            intro lt
            by_cases hy : y = u
            · subst hy
              omega
            · have := first y List.mem_cons_self hy
              omega
          · have hy : x = y := by
              rcases at_ with h | h
              · exact (List.mem_cons.mp h).resolve_right later
              · exact absurd (Option.some.inj h) hu
            subst hy
            rw [sooner, if_pos (hacc u rfl hu)]

/-- A task whose TSUB has started, with what its command has read: it enters, or its submission ends in a command error. -/
def State.enterTask (s : State) (x : Task) (m : Cmd) (d : List Byte) : State :=
  let sub := s.submission x d
  if s.cmds.any fun n => n.id == m.id && n.viol then
    (s.retire x true false false false).cmdError m (1 + Config.violationCode m.major % 255)
  else match sub.codes with
  | code :: _ => (s.retire sub.task true false false sub.writeWord).cmdError m code
  | [] =>
    let u := sub.task
    let deps := (s.tasks.filter fun v => v.ctx == u.ctx && v.st != .submitted && dependsOn u v).map Task.count
    ({ s with tasks := s.tasks.map fun v => if v.ctx == u.ctx && v.count == u.count then { u with deps } else v } : State).fire m.id

/-- The page a command has captured first. -/
def Cmd.firstCap (m : Cmd) : Cap := m.caps.getD 0 { va := 0, pa := 0, base := 0, size := 0, tens := none }

/-- Whether a task's TSUB has started, and no earlier one of its context has not yet entered. -/
def State.ready (s : State) (t : Task) : Bool :=
  t.st == .submitted && (match s.cmd? t.cmd with
    | some m => m.st == .running
    | none => false) && !(s.tasks.any fun u => u.ctx == t.ctx && u.st == .submitted && decide (u.seq < t.seq))

theorem execTaskEnter_eq (s : State) : exec .taskEnter s = .next (match (s.tasks.filter s.ready).foldl sooner none with
    | none => s
    | some t =>
      if 16384 ≤ (s.tasks.filter fun u => u.st != .submitted).length then s
      else match s.cmd? t.cmd with
        | none => s
        | some m =>
          if s.capsOwed m then s
          else
            let e := s.engineRead m m.firstCap 256
            (e.2.2.vshare t.ctx (wordOf e.1 0 % 2 ^ 52 / 64 * 64) 0x140).enterTask t m e.1) := rfl

section

variable {s : State} {x : Task} {m : Cmd}

theorem State.first_ready (at_ : x ∈ s.tasks) (hst : x.st = .submitted) (running : (s.cmd? x.cmd).map Cmd.st = some .running)
    (first : ∀ y ∈ s.tasks, y.st = .submitted → y ≠ x → x.seq < y.seq) (cmd : s.cmd? x.cmd = some m) :
    (s.tasks.filter s.ready).foldl sooner none = some x := by
  have runs : m.st = .running := by
    rw [cmd] at running
    exact Option.some.inj running
  have waits (y : Task) (h : s.ready y = true) : y.st = .submitted := by
    rw [State.ready, Bool.and_eq_true, Bool.and_eq_true, beq_iff_eq] at h
    exact h.1.1
  refine foldl_sooner (s.tasks.filter s.ready) none (fun y hy other => ?_) (fun _ h => absurd h (Option.not_mem_none _)) (.inl (List.mem_filter.mpr ⟨at_, ?_⟩))
  · obtain ⟨there, mayEnter⟩ := List.mem_filter.mp hy
    exact first y there (waits y mayEnter) other
  · have none_ : (s.tasks.any fun u => u.ctx == x.ctx && u.st == .submitted && decide (u.seq < x.seq)) = false := by
      refine List.any_eq_false.mpr fun u there => ?_
      simp only [Bool.and_eq_true, beq_iff_eq, decide_eq_true_eq, not_and, Nat.not_lt]
      intro hu
      by_cases same : u = x
      · exact Nat.le_of_eq (same ▸ rfl)
      · exact Nat.le_of_lt (first u there hu.2 same)
    rw [State.ready, hst, cmd, none_]
    dsimp only
    rw [runs]
    rfl

theorem execTaskEnter_first (at_ : x ∈ s.tasks) (hst : x.st = .submitted) (running : (s.cmd? x.cmd).map Cmd.st = some .running)
    (first : ∀ y ∈ s.tasks, y.st = .submitted → y ≠ x → x.seq < y.seq)
    (room : (s.tasks.filter fun u => u.st != .submitted).length < 16384) (cmd : s.cmd? x.cmd = some m) (paid : s.capsOwed m = false) :
    let e := s.engineRead m m.firstCap 256
    exec .taskEnter s = .next ((e.2.2.vshare x.ctx (wordOf e.1 0 % 2 ^ 52 / 64 * 64) 0x140).enterTask x m e.1) := by
  rw [execTaskEnter_eq, State.first_ready at_ hst running first cmd]
  dsimp only
  rw [if_neg (Nat.not_le.mpr room), cmd]
  dsimp only
  rw [paid]
  rfl

/-! ### What reading a descriptor leaves as it was -/

theorem State.besideWrites_readPiece (s : State) (r : Req) (pa n : Nat) : (s.readPiece r pa n).2.2.besideWrites = s.besideWrites := by
  unfold State.readPiece
  dsimp only
  split
  · exact (State.besideWrites_of_kept (State.kept_log ..)).trans (State.besideWrites_metViolation ..)
  · split
    · exact State.besideWrites_of_kept ((State.kept_log ..).trans (State.kept_othersRead ..))
    · exact State.besideWrites_of_kept (State.kept_othersRead ..)

theorem State.besideWrites_engineRead (s : State) (m : Cmd) (k : Cap) (n : Nat) : (s.engineRead m k n).2.2.besideWrites = s.besideWrites := by
  unfold State.engineRead
  refine foldl_keeps (fun (a : List Byte × Bool × State) => a.2.2.besideWrites = s.besideWrites) (fun a _ ha => ?_) _ rfl
  exact (State.besideWrites_readPiece a.2.2 ..).trans ha

/-! ### The entry itself -/

theorem State.submission_named (d : List Byte) : (s.submission x d).task.ctx = x.ctx ∧ (s.submission x d).task.count = x.count := ⟨rfl, rfl⟩

theorem State.enterTask_violated {d : List Byte} (h : ∃ k ∈ s.cmds, k.id = m.id ∧ k.viol = true) :
    ∃ q ∈ (s.enterTask x m d).recs, q.kind = 4 ∧ q.cmd = some m.id ∧ ∀ u ∈ (s.enterTask x m d).tasks, ¬(u.ctx = x.ctx ∧ u.count = x.count) := by
  have any_ : (s.cmds.any fun n => n.id == m.id && n.viol) = true := by simpa using h
  rw [State.enterTask, any_]
  exact ⟨_, List.mem_append_right _ (List.mem_singleton_self _), rfl, rfl, fun u at_ => (s.without_retire x true false false false u at_).1⟩

theorem State.enterTask_refused {d : List Byte} {code : Nat} {rest : List Nat} (h : ∀ k ∈ s.cmds, k.id = m.id → k.viol = false)
    (codes : (s.submission x d).codes = code :: rest) :
    ∃ q ∈ (s.enterTask x m d).recs, q.kind = 4 ∧ q.det1 = code ∧ q.cmd = some m.id ∧
      ∀ u ∈ (s.enterTask x m d).tasks, ¬(u.ctx = (s.submission x d).task.ctx ∧ u.count = (s.submission x d).task.count) := by
  have any_ : (s.cmds.any fun n => n.id == m.id && n.viol) = false := by
    refine List.any_eq_false.mpr fun k at_ => ?_
    simpa using h k at_
  rw [State.enterTask, any_]
  generalize s.submission x d = sub at codes ⊢
  dsimp only
  rw [codes]
  exact ⟨_, List.mem_append_right _ (List.mem_singleton_self _), rfl, rfl, rfl, fun u at_ => (s.without_retire sub.task true false false _ u at_).1⟩

theorem State.enterTask_enters {d : List Byte} (clean : s.clean m.id = true) (stands : ∃ v ∈ s.tasks, v.ctx = x.ctx ∧ v.count = x.count)
    (codes : (s.submission x d).codes = []) :
    (s.enterTask x m d).ended m.id = true ∧ ∃ u ∈ (s.enterTask x m d).tasks, u = { (s.submission x d).task with deps := u.deps } ∧
      ∀ y ∈ s.tasks, y.ctx = (s.submission x d).task.ctx → y.st ≠ .submitted → dependsOn (s.submission x d).task y = true → y.count ∈ u.deps := by
  have any_ : (s.cmds.any fun n => n.id == m.id && n.viol) = false := by
    refine List.any_eq_false.mpr fun k at_ => ?_
    have := List.all_eq_true.mp (Bool.and_eq_true_iff.mp clean).1 k at_
    simp only [Bool.or_eq_true, bne_iff_ne, Bool.not_eq_true'] at this
    rcases this with h | h
    · simp [h]
    · simp [h]
  obtain ⟨v, at_, vc, vn⟩ := stands
  obtain ⟨sc, sn⟩ := s.submission_named (x := x) d
  rw [← sc] at vc
  rw [← sn] at vn
  rw [State.enterTask, any_]
  generalize s.submission x d = sub at codes vc vn ⊢
  dsimp only
  rw [codes, if_neg Bool.false_ne_true]
  dsimp only
  refine ⟨State.ended_fire clean, ?_⟩
  rw [State.fire_tasks]
  refine ⟨_, List.mem_map.mpr ⟨v, at_, if_pos (by simp only [Bool.and_eq_true, beq_iff_eq]; exact ⟨vc, vn⟩)⟩, rfl, fun y there yc yst dep => ?_⟩
  refine List.mem_map_of_mem (List.mem_filter.mpr ⟨there, ?_⟩)
  simp only [Bool.and_eq_true, beq_iff_eq, bne_iff_ne]
  exact ⟨⟨yc, yst⟩, dep⟩

end

/-- Settles O46: each event by the state it leaves. -/
theorem taskSteps : Obligations.TaskSteps := by
  unfold Obligations.TaskSteps
  intro s c n p x tid refused v retires
  refine ⟨fun at_ hst running first room m cmd paid => ?_, fun own idle queues powered stopped step none_ next small => ?_,
    fun j rest y own idle queues powered stopped step resumed saved => ?_, fun found => ?_,
    fun found stored => execReusePlaceComplete_retires found stored, fun found fired stored => execTaskRetire_retires found fired stored⟩
  · intro e r sub
    have run := execTaskEnter_first at_ hst running first room cmd paid
    have id : m.id = x.cmd := by simpa using List.find?_some cmd
    have same : r.tasks.map Task.uncancelled = s.tasks.map Task.uncancelled := by
      have kept := (State.besideWrites_of_kept (State.kept_vshare e.2.2 x.ctx (wordOf e.1 0 % 2 ^ 52 / 64 * 64) 0x140 500)).trans
        (s.besideWrites_engineRead m m.firstCap 256)
      exact (congrArg State.tasks kept :)
    refine ⟨fun viol => ?_, fun codes clean => ?_, fun code rest codes sound => ?_⟩
    · obtain ⟨q, stands, kind, of, out⟩ := State.enterTask_violated (x := x) (d := e.1) viol
      exact ⟨_, q, run, stands, kind, of, out⟩
    · obtain ⟨y, there, eq⟩ := List.mem_map.mp (same ▸ List.mem_map_of_mem (f := Task.uncancelled) at_)
      obtain ⟨ended, u, stands, hu, deps⟩ := State.enterTask_enters (s := r) (x := x) (d := e.1) (id ▸ clean)
        ⟨y, there, (congrArg Task.ctx eq :), (congrArg Task.count eq :)⟩ codes
      exact ⟨_, u, run, ended, stands, hu, deps⟩
    · obtain ⟨q, stands, kind, det1, of, out⟩ := State.enterTask_refused (s := r) (x := x) (d := e.1) sound codes
      exact ⟨_, q, run, stands, kind, det1, of, out⟩
  · have run := execTaskDispatch_takes ⟨own, idle, queues, powered, stopped, step⟩
    rw [none_] at run
    dsimp only at run
    rw [next] at run
    obtain ⟨th, mem, others⟩ := s.dispatchNew_started p x
    obtain ⟨mode, pc, scyc, flight, loops, task, regs⟩ := startThr_started (s.th p) x.ctx x (drthOf (s.ctx x.ctx).cdbg)
    refine ⟨_, run, ?_⟩
    rw [th]
    refine ⟨mode, pc, scyc, flight, loops, fun i hi => ?_, fun i hi => ?_, task, mem, others⟩
    · rw [regs, if_pos (by omega), Nat.add_sub_cancel]
    · rw [regs, if_neg (by omega)]
  · have run := execTaskDispatch_takes ⟨own, idle, queues, powered, stopped, step⟩
    rw [resumed] at run
    exact ⟨_, run, State.restore_restored rest saved⟩
  · obtain ⟨⟨hc, hn⟩, -⟩ : (x.ctx = c ∧ x.count = n) ∧ x.st = .lookup := by simpa using List.find?_some found
    have at_ := List.mem_of_find?_eq_some found
    refine ⟨fun noKey => ?_, fun key hk missed => ?_, fun key e hk hit => ⟨fun stays => ?_, fun may => ?_⟩⟩
    · obtain ⟨t, u, ran, stands, uc, un, looked, -, one, mem, reqs⟩ := execReuseLookup_miss at_ hc hn rfl rfl (execReuseLookup_noKey found noKey)
      exact ⟨t, u, ran, stands, uc, un, looked, one rfl, mem, reqs⟩
    · have run := execReuseLookup_key found hk
      rw [missed] at run
      obtain ⟨t, u, ran, stands, uc, un, looked, pureKey, -, mem, -⟩ := execReuseLookup_miss (y := { x with pureKey := some key }) at_ hc hn rfl rfl run
      exact ⟨t, u, ran, stands, uc, un, looked, pureKey, mem⟩
    · have run := execReuseLookup_key found hk
      have refuses : (x.writes.all fun r => (List.range ((r.1 % 64 + r.2 + 63) / 64)).all fun i =>
          (s.rangesShare c x.reads).writable c (r.1 / 64 * 64 + 64 * i)) = false := by
        obtain ⟨r, there, i, hi, no⟩ := stays
        refine List.all_eq_false.mpr ⟨r, there, ?_⟩
        rw [Bool.not_eq_true]
        exact List.all_eq_false.mpr ⟨i, List.mem_range.mpr hi, by rw [show (_ : Bool) = false from no]; exact Bool.false_ne_true⟩
      rw [hit] at run
      dsimp only at run
      rw [if_pos (by rw [refuses]; rfl)] at run
      obtain ⟨t, u, ran, stands, uc, un, looked, -, one, mem, reqs⟩ :=
        execReuseLookup_miss (y := { x with pureKey := some key }) at_ hc hn rfl rfl run
      exact ⟨t, u, ran, stands, uc, un, looked, one rfl, mem, reqs⟩
    · exact execReuseLookup_places found hk hit may

end Sys2Proof.Machine
end

section
/-! PROOFS. What one operation on the state does keeps both memories in canonical form (O59). -/

namespace Sys2Proof.Machine

open Sys2Proof

/-! ### Outcomes -/

/-- An outcome whose next state, where it has one, has both memories in canonical form. -/
def OutWf (o : Host.Outcome State Fault Refusal) : Prop := ∀ t, o = .next t → MemWf t

theorem OutWf.next {s : State} (h : MemWf s) : OutWf (.next s) := fun _ e => by
  cases e
  exact h

theorem OutWf.fault (f : Fault) : OutWf (.fault f) := nofun

theorem OutWf.refused (r : Refusal) : OutWf (.refused r) := nofun

theorem OutWf.ite {b : Prop} [Decidable b] {o q : Host.Outcome State Fault Refusal} (ho : OutWf o) (hq : OutWf q) :
    OutWf (if b then o else q) := by
  split
  · exact ho
  · exact hq

/-! ### Fields beside the memories -/

section
variable {s : State}

theorem MemWf.withTurn (h : MemWf s) {n : Nat} {l : List Nat} : MemWf { s with gcyc := n, turn := l } := h.of_eq rfl rfl

theorem MemWf.withFresh (h : MemWf s) {n : Nat} : MemWf { s with fresh := n } := h.of_eq rfl rfl

theorem MemWf.withSignals (h : MemWf s) {l : List Signal} : MemWf { s with signals := l } := h.of_eq rfl rfl

theorem MemWf.withTasks (h : MemWf s) {l : List Task} : MemWf { s with tasks := l } := h.of_eq rfl rfl

theorem MemWf.withDeltas (h : MemWf s) {l : List Delta} : MemWf { s with deltas := l } := h.of_eq rfl rfl

end

section
variable {s : State}

/-- A choice between pairs with canonical states. -/
theorem MemWf.ite_snd {α : Type} {b : Prop} [Decidable b] {p q : α × State} (hp : MemWf p.2) (hq : MemWf q.2) :
    MemWf (if b then p else q).2 := by
  split <;> assumption

/-! ### The state's own fields (03, 10, 12) -/

theorem MemWf.setTag (h : MemWf s) {pa : Nat} {t : BitVec 4} : MemWf (s.setTag pa t) := h

theorem MemWf.setTh (h : MemWf s) {k : Nat} {t : Thr} : MemWf (s.setTh k t) := h

theorem MemWf.modTh (h : MemWf s) {k : Nat} {f : Thr → Thr} : MemWf (s.modTh k f) := h

theorem MemWf.modCtx (h : MemWf s) {c : Nat} {f : Ctx → Ctx} : MemWf (s.modCtx c f) := h

theorem MemWf.modCmd (h : MemWf s) {id : Nat} {f : Cmd → Cmd} : MemWf (s.modCmd id f) := h

theorem MemWf.l2Touch (h : MemWf s) {line : Nat} {dirty : Bool} : MemWf (s.l2Touch line dirty) := h

theorem MemWf.invalidate (h : MemWf s) {line : Nat} : MemWf (s.invalidate line) := h

theorem MemWf.dirRoom (h : MemWf s) {line : Nat} : MemWf (s.dirRoom line) := .ite h (.ite h (h.of_eq rfl rfl))

theorem MemWf.modDir (h : MemWf s) {line : Nat} {f : DirEnt → DirEnt} : MemWf (s.modDir line f) := .of_eq h.dirRoom rfl rfl

theorem MemWf.modLink (h : MemWf s) {p : Nat} {f : Link → Link} : MemWf (s.modLink p f) := h

theorem MemWf.transmit (h : MemWf s) {p : Nat} {w : Option Waiting} : MemWf (s.transmit p w) := h

theorem MemWf.putL1 (h : MemWf s) {core line : Nat} {st : Moesi} : MemWf (s.putL1 core line st) := h

theorem MemWf.evictL1 (h : MemWf s) {core line : Nat} : MemWf (s.evictL1 core line) := by
  unfold State.evictL1
  dsimp only
  split
  exacts [h, h.putL1, h.of_eq rfl rfl, h.of_eq rfl rfl]

theorem MemWf.post (h : MemWf s) {r : Rec} : MemWf (s.post r) := h

theorem MemWf.cmdError (h : MemWf s) {c : Cmd} {code : Nat} : MemWf (s.cmdError c code) := h

theorem MemWf.fire (h : MemWf s) {id : Nat} : MemWf (s.fire id) := by
  unfold State.fire
  split
  exacts [h.cmdError, h.modCmd]

/-! ### The scratchpad (05, 10 R299) -/

theorem MemWf.setPage (h : MemWf s) {c n : Nat} {p : SpPage} : MemWf (s.setPage c n p) := h

theorem MemWf.setFtag (h : MemWf s) {fa : Nat} {t : BitVec 4} : MemWf (s.setFtag fa t) := h

theorem MemWf.touchPage (h : MemWf s) {c a : Nat} {wr : Bool} : MemWf (s.touchPage c a wr) := h

theorem MemWf.join (h : MemWf s) {p : Nat} : MemWf (s.join p) := h

theorem MemWf.hear (h : MemWf s) {obj : List Nat} {k : Nat} : MemWf (s.hear obj k) := h.receive ..

theorem MemWf.hearOnce (h : MemWf s) {obj : List Nat} {k : Nat} : MemWf (s.hearOnce obj k) := .of_eq h.hear rfl rfl

theorem MemWf.observe (h : MemWf s) : MemWf s.observe := .ite (h.of_eq rfl rfl) (h.of_eq rfl rfl)

theorem MemWf.spTake (h : MemWf s) {c n cl f : Nat} {r : List Nat} : MemWf (s.spTake c n cl f r) := by
  unfold State.spTake
  dsimp only
  split
  · exact h.setPage
  · split
    exacts [.ite h.setPage (.ite h.setPage (.ite (h.of_eq rfl rfl) (h.of_eq rfl rfl))), h.setPage]

theorem MemWf.spServe (h : MemWf s) {c n : Nat} : MemWf (s.spServe c n) := by
  unfold State.spServe
  dsimp only
  split
  · refine .ite h ?_
    split
    · exact .ite h.spTake h.setPage
    · refine .ite ?_ h.spTake.withFresh
      split
      · split
        exacts [h.spTake, h]
      · exact h
  · exact h

theorem MemWf.spRequest (h : MemWf s) {c n cl : Nat} : MemWf (s.spRequest c n cl) := .ite h h.setPage.spServe

theorem MemWf.spDepart (h : MemWf s) {c n : Nat} : MemWf (s.spDepart c n) := by
  unfold State.spDepart
  dsimp only
  split
  exacts [.ite h.setPage.spServe h.setPage, h]

theorem MemWf.pagerTick (h : MemWf s) : MemWf s.pagerTick := foldl_keeps MemWf (fun _ _ hu => .ite hu hu.spServe) _ h

theorem MemWf.spTouch (h : MemWf s) {core c : Nat} {runs : List (Nat × Nat)} : MemWf (s.spTouch core c runs) :=
  foldl_keeps MemWf (fun _ _ hu => (hu.spCacheFill ..).touchPage) _ h

/-! ### Fault records (12) -/

theorem MemWf.wakeInstall (h : MemWf s) {c i : Nat} : MemWf (s.wakeInstall c i) := h

theorem MemWf.merge (h : MemWf s) {d : Delta} : MemWf (s.merge d) := (h.mergeDelta ..).wakeInstall

theorem MemWf.report (h : MemWf s) {core c i : Nat} {xs : List Ex} {cl : List Cls} {precise : Bool} : MemWf (s.report core c i xs cl
    precise) := .ite (.of_eq (h.modDelta ..) rfl rfl) (h.modDelta ..)

/-! ### Results in flight (03 R91) -/

theorem MemWf.fly (h : MemWf s) {k n : Nat} {l : Land} : MemWf (s.fly k n l) := h

/-! ### The matrix unit (07) -/

theorem MemWf.readGroup (h : MemWf s) {k : Nat} {m : MatRun} : MemWf (s.readGroup k m) := by
  unfold State.readGroup
  dsimp only
  split
  exacts [((h.spTouch.log ..).modTh).modTh, .ite h.spTouch.modTh (.of_eq h.spTouch rfl rfl)]

theorem MemWf.matrixStep (h : MemWf s) {k : Nat} : MemWf (s.matrixStep k) := by
  unfold State.matrixStep
  split
  exacts [h, .ite h h.readGroup]

theorem MemWf.matrixDone (h : MemWf s) {k : Nat} : MemWf (s.matrixDone k) := by
  unfold State.matrixDone
  dsimp only
  split
  exacts [h, h.modTh.fire]

theorem MemWf.xlatLand (hs : MemWf s) {k h va : Nat} : MemWf (s.xlatLand k h va) := by
  unfold State.xlatLand
  refine .ite hs ?_
  split
  exacts [hs, .ite hs.modTh hs]

theorem MemWf.landTmode (h : MemWf s) {k : Nat} {l : Land} : MemWf (s.landTmode k l) := by
  unfold State.landTmode
  split
  exacts [h.modCtx, h]

theorem MemWf.fireDue (h : MemWf s) {k : Nat} : MemWf (s.fireDue k) := h

theorem MemWf.landThr (h : MemWf s) {k : Nat} : MemWf (s.landThr k) := by
  unfold State.landThr
  refine .ite h (.fireDue (foldl_keeps MemWf (fun u x hu => ?_) _ ?_))
  exacts [hu.landTmode, foldl_keeps MemWf (fun _ _ hu => hu.xlatLand) _ h.setTh]

/-! ### Traces and counters (19) -/

theorem MemWf.marker (h : MemWf s) {k : Nat} {w : W32} {pc elap : Nat} : MemWf (s.marker k w pc elap) :=
  .ite h (.ite (.ite h.modTh h) (.modTh (.ite (h.traceLog ..) h)))

theorem MemWf.stallEnd (h : MemWf s) {k : Nat} : MemWf (s.stallEnd k) := by
  unfold State.stallEnd
  dsimp only
  split
  exacts [h, .modTh (.ite (h.traceLog ..) h)]

theorem MemWf.spAsk (h : MemWf s) {core part c key cl : Nat} : MemWf (s.spAsk core part c key cl) :=
  .ite (((h.spCacheFill ..).spRequest).pmcEvent ..) ((h.spCacheFill ..).spRequest)

theorem MemWf.pmcCycle (h : MemWf s) : MemWf s.pmcCycle :=
  .ite h (foldl_keeps MemWf (fun _ _ hu => .ite (.pmcEvent (.ite (hu.pmcEvent ..) hu) ..) (.ite (hu.pmcEvent ..) hu)) _ h)

theorem MemWf.pmcTick (h : MemWf s) : MemWf s.pmcTick := by
  unfold State.pmcTick
  extract_lets s1
  have h1 : MemWf s1 := by
    refine foldl_keeps MemWf (fun u e hu => ?_) _ h
    exact hu.of_eq rfl rfl
  exact h1.of_eq rfl rfl

theorem MemWf.credit (h : MemWf s) {p : Nat} {busy : Bool} : MemWf (s.credit p busy) := h

/-! ### Issuers and bundles (03) -/

theorem MemWf.turnStall (h : MemWf s) {k cause : Nat} : MemWf (s.turnStall k cause) := .ite h h.stallEnd.modTh

theorem MemWf.holdCycle (h : MemWf s) {k cause : Nat} : MemWf (s.holdCycle k cause) :=
  .ite h.turnStall.modTh (.ite ((h.turnStall.modTh.pmcEvent ..).credit) (h.turnStall.modTh.pmcEvent ..))

theorem MemWf.auStep (h : MemWf s) {k au : Nat} {old : Thr} : MemWf (auStep k au old s) := by
  unfold Machine.auStep
  split
  exacts [h, .forN h _ fun _ _ hu => hu.fly]

theorem MemWf.rotate (h : MemWf s) {k : Nat} {old : Thr} {crwBarb : Bool} : MemWf (rotate k old crwBarb s) := by
  unfold Machine.rotate
  split
  exacts [h, .ite h.modTh.fly h.modTh.fly.fly]

theorem MemWf.endCheck (h : MemWf s) {k stop next fuel : Nat} : MemWf (endCheck k stop next fuel s) := by
  induction fuel generalizing s with
  | zero => exact h
  | succ fuel ih =>
    unfold Machine.endCheck
    dsimp only
    split
    · exact h.setTh
    · exact .ite h.setTh (.ite h.setTh (ih (.ite h.setTh.fly h.setTh)))

theorem MemWf.taint (h : MemWf s) {k : Nat} {imp : Bool} : MemWf (s.taint k imp) := by
  unfold State.taint
  split
  exacts [h, .ite (h.of_eq rfl rfl) h]

theorem MemWf.advance (h : MemWf s) {k n draws : Nat} : MemWf (s.advance k n draws) := h.stallEnd.modTh

theorem MemWf.loopEnd (h : MemWf s) {k : Nat} {old : Thr} : MemWf (s.loopEnd k old) := by
  unfold State.loopEnd
  refine .ite h ?_
  split
  exacts [.ite h.endCheck h, h]

theorem MemWf.count (h : MemWf s) {k : Nat} : MemWf (s.count k) := h

theorem MemWf.tally (h : MemWf s) {k n : Nat} : MemWf (s.tally k n) := .ite h (((h.pmcEvent ..).pmcEvent ..).credit)

theorem MemWf.trapRecord (h : MemWf s) {k baddr : Nat} {trap : Option (Nat × Nat)} : MemWf (s.trapRecord k baddr trap) := by
  unfold State.trapRecord
  split
  exacts [h, h.post]

theorem MemWf.afterCommit (h : MemWf s) {k baddr : Nat} {trap : Option (Nat × Nat)} : MemWf (s.afterCommit k baddr trap) := by
  unfold State.afterCommit
  split
  · exact h.trapRecord.takePark ..
  · split
    exacts [h.take .., .ite h.modTh h]

theorem MemWf.bundleFault (h : MemWf s) {k baddr : Nat} {fs : List (Nat × SF)} : MemWf (s.bundleFault k baddr fs) := by
  unfold State.bundleFault
  dsimp only
  split
  · exact .takePark (.ite h.stallEnd h.stallEnd.credit) ..
  · exact .take (.ite h.stallEnd h.stallEnd.credit) ..
  · exact .ite h.stallEnd h.stallEnd.credit

theorem MemWf.took (h : MemWf s) {k : Nat} : MemWf (s.took k) := h

theorem MemWf.release (h : MemWf s) {k : Nat} : MemWf (s.release k) := h

theorem MemWf.finishCycle (h : MemWf s) {k : Nat} : MemWf (s.finishCycle k) :=
  .ite h.holdCycle (.ite h.holdCycle (.ite (.holdCycle (foldl_keeps MemWf (fun _ _ hu => hu.spAsk) _ h.landThr.matrixDone)) (.ite
  h.landThr.matrixDone.matrixStep.stallEnd.release h.landThr.matrixDone.matrixStep.stallEnd.modTh.credit.afterCommit)))

theorem MemWf.cycle (h : MemWf s) {k : Nat} {issue : State → State} (hi : ∀ u, MemWf u → MemWf (issue u)) : MemWf (s.cycle k issue) := by
  unfold State.cycle
  extract_lets s0 t s1 s2 s3 s4
  have h0 : MemWf s0 := h.took
  have h1 : MemWf s1 := h0.landThr.matrixDone
  have h2 : MemWf s2 := h1.matrixStep
  have h3 : MemWf s3 := h2.modTh
  have h4 : MemWf s4 := .ite h3 h3.credit
  clear_value t s0 s1 s2 s3 s4
  refine .ite h0.finishCycle (.ite (.ite h0.credit h0) (.ite h0.holdCycle (.ite h0.holdCycle ?_)))
  exact .ite (.holdCycle (foldl_keeps MemWf (fun _ _ hu => hu.spAsk) _ h1)) (.ite (.ite h4.afterCommit h4) (hi _ h2))

/-! ### The fetch (03, 13) -/

theorem MemWf.walkRead (h : MemWf s) {core c va : Nat} : MemWf (s.walkRead core c va) :=
  foldl_keeps MemWf (fun _ _ hu => .ite (hu.log ..) ((hu.othersRead ..).dirShare ..)) _ h

theorem MemWf.xFill (h : MemWf s) {core c va : Nat} : MemWf (s.xFill core c va) := by
  unfold State.xFill
  refine .ite h ?_
  split
  exacts [h.walkRead, .ite (.of_eq h.walkRead rfl rfl) (.of_eq h.walkRead rfl rfl)]

theorem MemWf.icFill (h : MemWf s) {core line : Nat} {bytes : List Byte} : MemWf (s.icFill core line bytes) :=
  .ite (h.of_eq rfl rfl) (h.of_eq rfl rfl)

theorem MemWf.icInvalidate (h : MemWf s) {cores hit : Nat → Bool} : MemWf (s.icInvalidate cores hit) := h

theorem MemWf.addReq (h : MemWf s) {k acc vpage : Nat} {tracked : Bool} {kind : ReqKind} : MemWf (s.addReq k acc vpage tracked kind) := h

/-! ### Stores and lines (10) -/

theorem MemWf.performed (h : MemWf s) {r : Req} : MemWf (s.performed r) := by
  unfold State.performed
  dsimp only
  split
  exacts [.ite (h.of_eq rfl rfl) h, .ite h (h.of_eq rfl rfl)]

theorem MemWf.pruneOrders (h : MemWf s) : MemWf s.pruneOrders := h

theorem MemWf.dropReq (h : MemWf s) {id : Nat} : MemWf (s.dropReq id) := h

theorem MemWf.setReq (h : MemWf s) {r : Req} : MemWf (s.setReq r) := h

theorem MemWf.arrive (h : MemWf s) {k req : Nat} {l : Land} : MemWf (s.arrive k req l) := h

theorem MemWf.readConv (h : MemWf s) {r : Req} {tens base size pa : Nat} : MemWf (s.readConv r tens base size pa).2 := by
  unfold State.readConv
  have h1 := h.readPiece r pa 64
  generalize s.readPiece r pa 64 = q at h1 ⊢
  obtain ⟨bs, bad, s1⟩ := q
  dsimp only at h1 ⊢
  split
  exacts [h1, h1.readPiece ..]

theorem MemWf.loadArrive (h : MemWf s) {r : Req} : MemWf (s.loadArrive r) := by
  unfold State.loadArrive
  split
  · dsimp only
    split
    · exact h.dropReq
    · next off pa n _ =>
      have h1 := h.readPiece r pa n
      generalize s.readPiece r pa n = q at h1 ⊢
      obtain ⟨bs, bad, s1⟩ := q
      refine .ite (MemWf.setReq ?_) (.dropReq (MemWf.arrive ?_)) <;> exact h1
  · next line lines tens base size got psn dst _ =>
    have h1 := h.readConv (r := r) (tens := tens) (base := base) (size := size)
      (pa := line + 64 * pickLeft s.fresh (List.range lines) (got.map Prod.fst))
    dsimp only
    generalize s.readConv r tens base size _ = q at h1 ⊢
    obtain ⟨bad, s1⟩ := q
    refine .ite (MemWf.setReq ?_) (.dropReq (MemWf.arrive ?_)) <;> exact h1
  · exact .dropReq (.arrive (.ite (h.log ..) (h.othersRead ..)))
  · dsimp only
    split
    exacts [h.readConv.modTh.dropReq, (h.readPiece ..).modTh.dropReq]
  · exact h

/-! ### Accepted commands (08) -/

theorem MemWf.setTicket (h : MemWf s) {k kp id : Nat} : MemWf (s.setTicket k kp id) := .ite h h.modTh

theorem MemWf.newCmd (h : MemWf s) {c : Cmd} {kp : Nat} : MemWf (s.newCmd c kp) := by
  unfold State.newCmd
  refine .setTicket ?_
  exact h.of_eq rfl rfl

/-! ### Requests of slots (05) -/

theorem MemWf.logSp (h : MemWf s) {c : IC} {runs : List (Nat × Nat)} : MemWf (s.logSp c runs) := by
  unfold State.logSp
  refine foldl_keeps MemWf (fun u x hu => ?_) _ ?_
  exacts [hu.log .., .of_eq h.spTouch rfl rfl]

theorem MemWf.sendLoad (h : MemWf s) {c : IC} {n vpage : Nat} {kind : ReqKind} : MemWf (s.sendLoad c n vpage kind) := h

theorem MemWf.sendStore (hs : MemWf s) {c : IC} {acc : Nat} {h : Handle} {ofs : Nat} {bs : List Byte} : MemWf (s.sendStore c acc h ofs
    bs) := .forN hs _ fun _ _ hu => hu.addReq

theorem MemWf.recLeave (h : MemWf s) {core c i : Nat} : MemWf (s.recLeave core c i) := by
  unfold State.recLeave
  extract_lets _ s1
  have h1 : MemWf s1 := by
    unfold s1
    split
    exacts [h.merge, h]
  exact h1.of_eq rfl rfl

theorem MemWf.recShare (h : MemWf s) {core c i : Nat} : MemWf (s.recShare core c i) := by
  unfold State.recShare
  refine .forN (h.vshare ..) _ fun i u hu => ?_
  split
  exacts [hu.dirShare .., hu]

theorem MemWf.recFill (h : MemWf s) {core c i : Nat} : MemWf (s.recFill core c i) := by
  unfold State.recFill
  refine .ite h ?_
  dsimp only
  refine MemWf.of_eq (MemWf.recShare ?_) rfl rfl
  refine .ite h (MemWf.recLeave ?_)
  exact h

theorem MemWf.execTranslationWalkDone (hs : MemWf s) {k h : Nat} : OutWf (Machine.execTranslationWalkDone k h s) := by
  unfold Machine.execTranslationWalkDone
  refine .next (.ite ?_ hs)
  split
  · exact hs.xFill.modTh
  · extract_lets s1 s2
    have h1 : MemWf s1 := by
      unfold s1
      split
      exacts [hs.xFill, hs.xFill.recFill]
    have h2 : MemWf s2 := .ite h1 (h1.pmcEvent ..)
    exact h2.modTh

/-! ### Engine words (08) -/

theorem MemWf.accept (h : MemWf s) {c : IC} {kp : BitVec 5} {ks : List Nat} {m : Cmd} : MemWf (s.accept c kp ks m) :=
  .newCmd (foldl_keeps MemWf (fun _ _ hu => hu.xFill) _ h)

theorem MemWf.modOwner (h : MemWf s) {k : Nat} {f : Thr → Thr} : MemWf (s.modOwner k f) := .ite h.modTh (h.of_eq rfl rfl)

theorem MemWf.pageStore (h : MemWf s) {key c va : Nat} {bs : List Byte} : MemWf (s.pageStore key c va bs) := by
  unfold State.pageStore
  split
  exacts [h, h.storeNow ..]

theorem MemWf.quietPiece (h : MemWf s) {m : Cmd} {pa n : Nat} : MemWf (s.quietPiece m pa n).2.2 := by
  unfold State.quietPiece
  split
  exacts [h.readPiece .., h.othersRead ..]

/-! ### Barriers (15) -/

theorem MemWf.barPut (h : MemWf s) {c n i v : Nat} : MemWf (s.barPut c n i v) := by
  unfold State.barPut
  split
  exacts [h.partPut .., h]

theorem MemWf.barJudge (h : MemWf s) {c n : Nat} : MemWf (s.barJudge c n) := by
  unfold State.barJudge
  refine .ite h ?_
  dsimp only
  refine .ite (MemWf.of_eq (MemWf.barPut (MemWf.barPut ?_)) rfl rfl) h
  exact h

theorem MemWf.barAdd (h : MemWf s) {c n arr : Nat} {expb : Int} : MemWf (s.barAdd c n arr expb) := h.barJudge.barPut.barPut.barPut

theorem MemWf.barSignal (h : MemWf s) {c n arr : Nat} {expb : Int} {agent : Nat} {sig : List (Nat × Nat)} : MemWf (s.barSignal c n arr
    expb agent sig) := .ite (foldl_keeps MemWf (fun _ _ hu => hu.signal ..) _ h.barAdd) (h.barPut.log ..)

theorem MemWf.startBar (h : MemWf s) {m : Cmd} : MemWf (s.startBar m) :=
  .ite h.cmdError (.ite (.ite h.barJudge.cmdError h.barJudge.modCmd) (h.of_eq rfl rfl))

theorem MemWf.startBari (h : MemWf s) {m : Cmd} : MemWf (s.startBari m) := by
  unfold State.startBari
  extract_lets n c u drop s2 s3 waits
  have hu : MemWf u := h.barJudge
  have h2 : MemWf s2 := hu.forN 8 fun _ _ hv => hv.barPut
  have h3 : MemWf s3 := h2.of_eq rfl rfl
  clear_value u drop s2 s3
  refine .ite h.cmdError (.ite (.ite hu.cmdError ?_) (.ite hu.cmdError ?_))
  · split
    · exact hu.cmdError
    · extract_lets pa s1
      have h1 : MemWf s1 := hu.of_eq rfl rfl
      clear_value s1
      exact .ite hu.cmdError (.ite (hu.log ..).cmdError h1.barPut.barPut.barPut.fire)
  · exact MemWf.fire (foldl_keeps MemWf (fun _ _ hv => hv.cmdError) _ h3)

theorem MemWf.execBarrierUpdateApply (h : MemWf s) {upd : Nat} : OutWf (execBarrierUpdateApply upd s) := by
  unfold Machine.execBarrierUpdateApply
  refine .next ?_
  split
  · exact h
  · extract_lets key s1
    have h1 : MemWf s1 := by
      refine MemWf.barSignal ?_
      exact h
    split
    exacts [h1.fire, h1]

theorem MemWf.execBarrierPhaseComplete (h : MemWf s) {ctx bar : Nat} : OutWf (execBarrierPhaseComplete ctx bar s) := .next h.barJudge

theorem MemWf.barTick (h : MemWf s) : MemWf s.barTick := foldl_keeps MemWf (fun _ _ hu => hu.barJudge) _ h

/-! ### The fabric (17) -/

theorem MemWf.declareLater (h : MemWf s) {x : Nat} : MemWf (s.declareLater x) := .ite h (h.of_eq rfl rfl)

theorem MemWf.leave (h : MemWf s) {k : Packet} {w : Waiting} {p : Nat} {alt : Bool} : MemWf (s.leave k w p alt) := h

theorem MemWf.enterSwitch (h : MemWf s) {k : Packet} : MemWf (s.enterSwitch k).2 := by
  unfold State.enterSwitch
  dsimp only
  split
  exacts [h.of_eq rfl rfl, h.leave]

theorem MemWf.sendPacket (h : MemWf s) {x : Nat} {body : PktBody} {cmd : Option Nat} : MemWf (s.sendPacket x body cmd).2 := by
  unfold State.sendPacket
  split
  · exact h
  · split
    · exact h.declareLater
    · dsimp only
      split
      · exact h.of_eq rfl rfl
      · refine .enterSwitch ?_
        exact h.of_eq rfl rfl

theorem MemWf.takeDelivered (h : MemWf s) {f : Nat × PktBody → Bool} {d : Nat × PktBody} {t : State}
    (e : s.takeDelivered f = some (d, t)) : MemWf t := by
  obtain ⟨_, _, eq⟩ := Option.map_eq_some_iff.mp e
  cases eq
  exact h

theorem MemWf.startExit (h : MemWf s) : MemWf s.startExit := .ite h (h.of_eq rfl rfl)

theorem MemWf.enterDue (h : MemWf s) : MemWf s.enterDue := .ite (h.of_eq rfl rfl) h

theorem MemWf.served (h : MemWf s) {i : Asked} {f : State → State} (hf : ∀ u, MemWf u → MemWf (f u)) : MemWf (s.served i f) :=
  .ite (hf _ h.enterDue) (h.enterDue.startExit.of_eq rfl rfl)

theorem MemWf.byMc (h : MemWf s) {off : Nat} {v : W64} {f : State → State} (hf : ∀ u, MemWf u → MemWf (f u)) : MemWf (s.byMc off v f) :=
  h.served hf

/-! ### Control words (12, 20) -/

theorem MemWf.transfer (h : MemWf s) {c : IC} {a : Nat} : MemWf (s.transfer c a) := h

theorem MemWf.popLoop (h : MemWf s) {k : Nat} : MemWf (s.popLoop k) := by
  unfold State.popLoop
  split
  exacts [h, .ite h.modTh.fly h.modTh]

theorem MemWf.enterLoop (h : MemWf s) {c : IC} {n stop : Nat} {rot : Bool} {w stg : Nat} : MemWf (s.enterLoop c n stop rot w stg) :=
  .ite h.modTh (.ite h.modTh.fly h.modTh)

theorem MemWf.execWaitmReread (h : MemWf s) {k : Nat} : OutWf (execWaitmReread k s) := by
  unfold Machine.execWaitmReread
  refine .next ?_
  split
  exacts [h.modTh, h]

theorem MemWf.finTask (h : MemWf s) {k status scycAfter : Nat} : MemWf (s.finTask k status scycAfter) := by
  unfold State.finTask
  split
  exacts [h.modTh, h.of_eq rfl rfl]

end

end Sys2Proof.Machine
end

section
/-! PROOFS. The engines, tasks, channels and groups keep both memories in canonical form (O59). -/

namespace Sys2Proof.Machine

open Sys2Proof

section
variable {s : State}

/-! ### Copies (08) -/

theorem MemWf.copyLine (h : MemWf s) {m : Cmd} {sp : Bool} {a n : Nat} : MemWf (s.copyLine m sp a n).2.2 := by
  unfold State.copyLine
  split
  · split
    exacts [h, .of_eq (.ite (h.spTouch.log ..) h.spTouch) rfl rfl]
  · split
    exacts [h.log .., .ite ((h.othersRead ..).log ..) (h.othersRead ..)]

theorem MemWf.copyRead (h : MemWf s) {m : Cmd} {sp : Bool} {a n : Nat} : MemWf (s.copyRead m sp a n).2 := by
  unfold State.copyRead
  refine foldl_keeps (fun a : List Piece × State => MemWf a.2) (fun a x ha => ?_) _ ?_
  exacts [ha.copyLine, h]

theorem MemWf.copyPut (h : MemWf s) {m : Cmd} {b : LineBuf} : MemWf (s.copyPut m b) := by
  unfold State.copyPut
  refine .ite ?_ (.of_eq (h.pmcEvent ..) rfl rfl)
  split
  exacts [(h.pmcEvent ..).spPatch .., .of_eq (h.pmcEvent ..) rfl rfl]

theorem MemWf.copyFlush (h : MemWf s) {id : Nat} {ready : LineBuf → Bool} : MemWf (s.copyFlush id ready) := by
  unfold State.copyFlush
  split
  exacts [h, foldl_keeps MemWf (fun _ _ hu => hu.copyPut) _ h.modCmd]

theorem MemWf.copyWrite (h : MemWf s) {m : Cmd} {ps : List LineBuf} : MemWf (s.copyWrite m ps) := h

theorem MemWf.copyDecode (h : MemWf s) {m : Cmd} {ps : List Piece} {a : Nat} : MemWf (s.copyDecode m ps a).2.2 := by
  unfold State.copyDecode
  dsimp only
  split
  · exact h
  · split
    · refine foldl_keeps (fun a : List Elem × State => MemWf a.2) (fun a x ha => ?_) _ h
      dsimp only
      split
      exacts [ha, ha.copyLine]
    · exact h

theorem MemWf.copyEncode (h : MemWf s) {m : Cmd} {dsp : Bool} {dst : Nat} {xs : List Elem} : MemWf (s.copyEncode m dsp dst xs).2 := by
  unfold State.copyEncode
  dsimp only
  generalize (if dsp = true then none else (m.caps.getD 1 { va := 0, pa := 0, base := 0, size := 0, tens := none }).tens) = record
  cases record with
  | none => exact h.copyWrite
  | some i => exact .ite_snd (h.of_eq rfl rfl) (.report (.ite h.copyWrite h.copyWrite.copyWrite))

theorem MemWf.copyRecs (h : MemWf s) {m : Cmd} : MemWf (s.copyRecs m) := by
  unfold State.copyRecs
  refine foldl_keeps MemWf (fun u x hu => ?_) _ h
  split
  exacts [hu.recFill, hu]

theorem MemWf.bankWait (h : MemWf s) {m : Cmd} : MemWf (s.bankWait m) := by
  unfold State.bankWait
  refine .ite ?_ h
  refine .pmcEvent ?_ ..
  exact h.of_eq rfl rfl

theorem MemWf.copyRow (h : MemWf s) {m : Cmd} : MemWf (s.copyRow m).2 := by
  unfold State.copyRow
  extract_lets w2 w3 ssp dsp len cap src dst dlen cl dpages spages miss global lines need s0 s1
  have h0 : MemWf s0 := .ite h.copyRecs h
  have h1 : MemWf s1 := .ite h0.bankWait h0
  clear_value s1 w2 w3 len ssp dsp src dst dlen cl dpages spages miss global lines need
  split
  · exact h
  split
  · exact h.log ..
  split
  · exact h
  split
  · exact foldl_keeps MemWf (fun _ _ hu => hu.spAsk) _ h
  split
  · exact h
  have h2 := MemWf.copyRead (s := { s1 with fresh := s1.fresh + 1 }) h1 (m := m) (sp := ssp) (a := src) (n := len)
  generalize State.copyRead _ m ssp src len = r at h2 ⊢
  obtain ⟨ps, s2⟩ := r
  dsimp only at h2 ⊢
  split
  · have h3 := h2.copyDecode (m := m) (ps := ps) (a := src)
    generalize s2.copyDecode m ps src = r at h3 ⊢
    obtain ⟨xs, cut, s3⟩ := r
    have h4 := MemWf.copyEncode h3 (m := m) (dsp := dsp) (dst := dst) (xs := xs)
    dsimp only at h4 ⊢
    generalize s3.copyEncode m dsp dst xs = r at h4 ⊢
    obtain ⟨e, s4⟩ := r
    dsimp only at h4 ⊢
    split
    · exact h4
    · split <;> exact h4
  · exact .ite (.ite h2.modCmd h2) (.copyWrite (.ite h2.modCmd h2))

theorem MemWf.copyRun (h : MemWf s) {id fuel : Nat} : MemWf (s.copyRun id fuel) := by
  induction fuel generalizing s with
  | zero => exact h
  | succ fuel ih =>
    unfold State.copyRun
    split
    · exact h
    · next m _ =>
      refine .ite h ?_
      have h1 := h.copyRow (m := m)
      generalize s.copyRow m = r at h1 ⊢
      obtain ⟨e, s1⟩ := r
      dsimp only at h1 ⊢
      split
      · exact ih h1.modCmd.copyFlush
      · exact h1.of_eq rfl rfl
      · exact h1
      · exact h1.modCmd.copyFlush

theorem MemWf.copySome (h : MemWf s) {id : Nat} : MemWf (s.copySome id) := by
  unfold State.copySome
  refine .copyRun ?_
  exact h.of_eq rfl rfl

theorem MemWf.copyBegin (h : MemWf s) {m : Cmd} : MemWf (s.copyBegin m) := h.modCmd.copySome

theorem MemWf.startCopy (h : MemWf s) {m : Cmd} : MemWf (s.startCopy m) := .ite h.copyBegin h.modCmd

theorem MemWf.execCopyNotBeforeRelease (h : MemWf s) {cmd : Nat} : OutWf (execCopyNotBeforeRelease cmd s) := by
  unfold Machine.execCopyNotBeforeRelease
  refine .next ?_
  split
  exacts [h, .ite h.copyBegin h]

theorem MemWf.copyTick (h : MemWf s) : MemWf s.copyTick := foldl_keeps MemWf (fun _ _ hu => .ite hu.copyBegin hu) _ h

theorem MemWf.execCopySourceResume (h : MemWf s) {cmd : Nat} : OutWf (execCopySourceResume cmd s) := by
  unfold Machine.execCopySourceResume
  refine .next ?_
  split
  exacts [h, .ite h.modCmd.copySome h]

theorem MemWf.copyFinish (h : MemWf s) {m : Cmd} : MemWf (s.copyFinish m) := by
  unfold State.copyFinish
  extract_lets w3 u m' s1 s2 s3
  have hu : MemWf u := h.pmcEvent ..
  have h1 : MemWf s1 := by
    unfold s1
    split
    exacts [hu.engineWrite .., hu]
  have h2 : MemWf s2 := h1.modOwner
  have h3 : MemWf s3 := .ite h2.barSignal h2
  exact .ite h3.fire h3.cmdError

theorem MemWf.execCopyComplete (h : MemWf s) {cmd : Nat} : OutWf (execCopyComplete cmd s) := by
  unfold Machine.execCopyComplete
  refine .next ?_
  dsimp only
  split
  exacts [h, .ite h (.ite h.copySome.copyFinish (.ite h.copySome h))]

/-! ### Tensor records (09) -/

theorem MemWf.recMod (h : MemWf s) {c i off : Nat} {f : Nat → Nat} : MemWf (s.recMod c i off f) := h.recPut ..

theorem MemWf.ctrlPut (h : MemWf s) {c i hi lo v : Nat} : MemWf (s.ctrlPut c i hi lo v) := h.recMod

theorem MemWf.recFix (h : MemWf s) {c i : Nat} : MemWf (s.recFix c i) := .ite (.forN h _ fun _ _ hu => .ite hu (hu.recPut ..)) h

theorem MemWf.lowReset (h : MemWf s) {c i : Nat} : MemWf (s.lowReset c i) := h.recMod

theorem MemWf.recall (h : MemWf s) {c i : Nat} : MemWf (s.recall c i) := foldl_keeps MemWf (fun _ _ hu => hu.merge) _ h

theorem MemWf.csovZero (h : MemWf s) {c i : Nat} : MemWf (s.csovZero c i) := h

theorem MemWf.hysteresis (h : MemWf s) {c i : Nat} {cand : Option (Nat × Int)} : MemWf (s.hysteresis c i cand).2 := by
  unfold State.hysteresis
  split
  · exact h
  · dsimp only
    split
    · exact h.lowReset
    · split
      · exact h.lowReset
      · split
        exacts [h.lowReset, h.ctrlPut.ctrlPut.ctrlPut]

theorem MemWf.tryInstall (h : MemWf s) {c i f : Nat} {sc : Int} {t : State} (e : s.tryInstall c i f sc = some t) : MemWf t := by
  unfold State.tryInstall at e
  dsimp only at e
  split at e
  · cases e
    exact h.ctrlPut
  · split at e
    · cases e
    · cases e
      exact (h.recPut ..).ctrlPut

theorem MemWf.installed (h : MemWf s) {c i : Nat} : MemWf (s.installed c i) := h.recMod.ctrlPut.csovZero

theorem MemWf.install (h : MemWf s) {c i f : Nat} {sc : Int} {cmd : Nat} {forced : Bool} : MemWf (s.install c i f sc cmd forced) := by
  unfold State.install
  extract_lets s1 s2 s3
  have h1 : MemWf s1 := h.recall
  clear_value s1
  split
  · next e => exact (h1.tryInstall e).installed.fire
  · have h3 : MemWf s3 := h1.recMod.recMod
    exact h3.of_eq rfl rfl

theorem MemWf.retryInstall (h : MemWf s) {x : Install} : MemWf (s.retryInstall x) := by
  unfold State.retryInstall
  have h1 : MemWf ((s.vshare x.ctx (s.recVa x.ctx x.idx) 512).recall x.ctx x.idx) := MemWf.recall (h.vshare ..)
  dsimp only
  split
  · next s2 e =>
    have h2 := h1.tryInstall e
    refine MemWf.fire (MemWf.installed ?_)
    exact h2
  · exact h1.of_eq rfl rfl

theorem MemWf.execInstallRetry (h : MemWf s) {ctx idx : Nat} : OutWf (execInstallRetry ctx idx s) := by
  unfold Machine.execInstallRetry
  refine .next ?_
  split
  exacts [h, .ite h.retryInstall h]

theorem MemWf.mergeRetry (h : MemWf s) {d : Delta} : MemWf (s.mergeRetry d) := by
  unfold State.mergeRetry
  dsimp only
  split
  exacts [h.merge.retryInstall, h.merge]

theorem MemWf.execDeltaMerge (h : MemWf s) {core ctx idx : Nat} : OutWf (execDeltaMerge core ctx idx s) := by
  unfold Machine.execDeltaMerge
  refine .next ?_
  split
  exacts [h, .ite h.mergeRetry h]

theorem MemWf.execDeltaMergeTimeout (h : MemWf s) {core ctx idx : Nat} : OutWf (execDeltaMergeTimeout core ctx idx s) := by
  unfold Machine.execDeltaMergeTimeout
  refine .next ?_
  split
  exacts [h, .ite h.mergeRetry h]

theorem MemWf.tensorTick (h : MemWf s) : MemWf s.tensorTick := by
  unfold State.tensorTick
  refine foldl_keeps MemWf (fun u x hu => ?_) _ ?_
  exacts [hu.retryInstall, foldl_keeps MemWf (fun _ _ hu => hu.mergeRetry) _ h]

theorem MemWf.execRecordLeavesMetadataCache (h : MemWf s) {core ctx idx : Nat} : OutWf (execRecordLeavesMetadataCache core ctx idx s) :=
  .next (.ite h h.recLeave)

theorem MemWf.landPost (h : MemWf s) {p : Nat × Nat × Nat × Nat} : MemWf (s.landPost p) := by
  unfold State.landPost
  extract_lets ctx idx s1
  have h1 : MemWf s1 := h
  clear_value s1
  exact .ite h1 h1.ctrlPut.recMod.post

theorem MemWf.execTensorCrossingPost (h : MemWf s) {ctx idx : Nat} : OutWf (execTensorCrossingPost ctx idx s) := by
  unfold Machine.execTensorCrossingPost
  refine .next ?_
  split
  exacts [h, h.landPost]

theorem MemWf.clearStats (h : MemWf s) {c i : Nat} : MemWf (s.clearStats c i) :=
  .forN ((h.recPut ..).recPut ..) _ fun _ _ hu => hu.recPut ..

theorem MemWf.stepRecord (h : MemWf s) {m : Cmd} {i : Nat} : MemWf (s.stepRecord m i) := by
  unfold State.stepRecord
  extract_lets c s1 cfg cur cand
  have h2 := (h.recall.recMod : MemWf s1).hysteresis (c := c) (i := i) (cand := cand)
  generalize s1.hysteresis c i cand = r at h2 ⊢
  obtain ⟨v, s2⟩ := r
  have h3 : MemWf (if s2.recAccum c i = true then s2 else s2.clearStats c i) := .ite h2 h2.clearStats
  dsimp only
  split
  exacts [h3.ctrlPut.csovZero.fire, h3.ctrlPut.csovZero.install]

theorem MemWf.scaleRecord (h : MemWf s) {m : Cmd} {i : Nat} : MemWf (s.scaleRecord m i) :=
  .ite h.cmdError (.ite h.lowReset.fire h.lowReset.install)

theorem MemWf.bindPage (h : MemWf s) {c i : Nat} {l : Leaf} {add : Bool} : MemWf (s.bindPage c i l add) := by
  unfold State.bindPage
  refine .forN ?_ _ fun i u hu => ?_
  exacts [.recall (.forN h _ fun _ _ hu => hu.othersRead ..), .ite ((hu.recPut ..).ctrlPut) (hu.recPut ..)]

theorem MemWf.configure (h : MemWf s) {m : Cmd} {i : Nat} {b : List Byte} : MemWf (s.configure m i b) := by
  unfold State.configure
  extract_lets c word w0 op st sfmt ifmt geo oact rsv page leaf pageBad s1 ctrl s2 s3 s4 s5
  have h1 : MemWf s1 := h.recMod
  have h3 : MemWf s3 := by
    refine MemWf.forN ?_ 4 fun _ _ hu => hu.recPut ..
    exact (((h.forN _ fun _ _ hu => hu.recPut ..).recPut ..).recPut ..).recPut ..
  have h4 : MemWf s4 := h.recall
  have h5 : MemWf s5 := h4.forN 64 fun _ _ hu => hu.recPut ..
  clear_value word w0 op st sfmt ifmt geo oact rsv page leaf pageBad s1 ctrl s2 s3 s4 s5
  refine .ite h.cmdError (.ite h.cmdError (.ite h.cmdError (.ite h.cmdError (.ite ?_ (.ite ?_ (.ite ?_ (.ite h.ctrlPut.fire ?_)))))))
  · exact ((h1.recPut ..).recMod).lowReset.fire
  · exact h3.withDeltas.fire
  · exact .ite h4.cmdError h5.withDeltas.fire
  · split
    exacts [h.bindPage.fire, h]

theorem MemWf.startTensor (h : MemWf s) {m : Cmd} : MemWf (s.startTensor m) := by
  unfold State.startTensor
  extract_lets c i u cap u1
  have hu : MemWf u := MemWf.recFix (h.vshare ..)
  have hr : MemWf u1 := .ite hu.recall hu
  exact .ite (hu.engineRead ..).configure (.ite hu.cmdError (.ite hu.stepRecord (.ite hu.scaleRecord
    (.ite (hr.engineWrite ..).fire hu.clearStats.ctrlPut.csovZero.fire))))

/-! ### Tasks and reuse (11) -/

theorem MemWf.semWrite (h : MemWf s) {c n v : Nat} : MemWf (s.semWrite c n v) := h.partPut ..

theorem MemWf.semSignal (h : MemWf s) {c n k id : Nat} {set_ : Bool} : MemWf (s.semSignal c n k id set_) := by
  unfold State.semSignal
  refine .signal ?_ ..
  exact h.of_eq rfl rfl

theorem MemWf.startSems (h : MemWf s) {m : Cmd} : MemWf (s.startSems m) := h.semWrite.semSignal.fire

theorem MemWf.modTenant (h : MemWf s) {tid : Nat} {f : Tenant → Tenant} : MemWf (s.modTenant tid f) := by
  unfold State.modTenant
  split
  exacts [h, h.of_eq rfl rfl]

theorem MemWf.bump (h : MemWf s) {c : Nat} {f : ReuseStats → ReuseStats} : MemWf (s.bump c f) := h.modTenant

theorem MemWf.putTask (h : MemWf s) {t : Task} : MemWf (s.putTask t) := h

theorem MemWf.recallLine (h : MemWf s) {line : Nat} : MemWf (s.recallLine line) := .ite (.of_eq (.ite h.l2Touch h) rfl rfl) h

theorem MemWf.watchUp (h : MemWf s) {unit line : Nat} : MemWf (s.watchUp unit line) := h

theorem MemWf.watchDown (h : MemWf s) {unit line : Nat} : MemWf (s.watchDown unit line) := .ite h (h.of_eq rfl rfl)

theorem MemWf.watchClear (h : MemWf s) {unit line : Nat} : MemWf (s.watchClear unit line) := .ite h (h.of_eq rfl rfl)

theorem MemWf.arm (h : MemWf s) {t : Task} : MemWf (s.arm t) :=
  .bump (.putTask (foldl_keeps MemWf (fun _ _ hu => hu.recallLine.watchUp) _ h))

theorem MemWf.disarm (h : MemWf s) {t : Task} : MemWf (s.disarm t) := by
  unfold State.disarm
  refine .ite h (foldl_keeps MemWf (fun u x hu => hu.watchClear) _ ?_)
  refine foldl_keeps MemWf (fun u x hu => ?_) _ ?_
  exacts [hu.watchDown, h.of_eq rfl rfl]

theorem MemWf.evictWhile (h : MemWf s) {c fuel : Nat} {of_ : Reuse → Bool} {more : State → Bool} :
    MemWf (s.evictWhile c fuel of_ more) := by
  induction fuel generalizing s with
  | zero => exact h
  | succ fuel ih =>
    unfold State.evictWhile
    refine .ite h ?_
    dsimp only
    split
    · exact h
    · refine ih (MemWf.bump ?_)
      exact h

theorem MemWf.storeResult (h : MemWf s) {t : Task} {tid die key : Nat} {bytes : List Byte} : MemWf (s.storeResult t tid die key bytes) := by
  unfold State.storeResult
  refine .bump (foldl_keeps MemWf (fun u x hu => ?_) _ ?_)
  exacts [hu.partPut .., .of_eq h.evictWhile rfl rfl]

theorem MemWf.rangesShare (h : MemWf s) {c : Nat} {rs : List (Nat × Nat)} : MemWf (s.rangesShare c rs) :=
  foldl_keeps MemWf (fun _ _ hu => hu.vshare ..) _ h

theorem MemWf.reuseInsert (h : MemWf s) {t : Task} {killed : Bool} : MemWf (s.reuseInsert t killed) := by
  unfold State.reuseInsert
  refine .ite h (.ite h.bump (.ite h.bump ?_))
  split
  · exact h
  · dsimp only
    split
    exacts [h.rangesShare.bump, .ite h.rangesShare.bump (.ite h.rangesShare.bump h.rangesShare.evictWhile.evictWhile.storeResult)]

theorem MemWf.retire (h : MemWf s) {t : Task} {error killed hit writeWord : Bool} :
    MemWf (s.retire t error killed hit writeWord) := by
  unfold State.retire
  extract_lets s1 s2 freed s3 s4 s5
  have h1 : MemWf s1 := MemWf.disarm (.ite h h.reuseInsert)
  have h2 : MemWf s2 := .ite h1.pageStore h1
  have h3 : MemWf s3 := foldl_keeps MemWf (fun _ _ hu => hu.signal ..) _ h2
  have h4 : MemWf s4 := h3.of_eq rfl rfl
  have h5 : MemWf s5 := .ite h4 (foldl_keeps MemWf (fun _ _ hu => hu.semWrite.semSignal) _ h4)
  exact h5.modCtx

theorem MemWf.retireTask (h : MemWf s) {t : Task} {killed hit : Bool} : MemWf (s.retireTask t killed hit) := h.retire

theorem MemWf.execTaskEnter (h : MemWf s) : OutWf (execTaskEnter s) := by
  unfold Machine.execTaskEnter
  refine .next ?_
  dsimp only
  split
  · exact h
  · refine .ite h ?_
    split
    · exact h
    · refine .ite h ?_
      refine .ite ((((h.engineRead ..).vshare ..).retire).cmdError) ?_
      split
      · exact (((h.engineRead ..).vshare ..).retire).cmdError
      · refine .fire ?_
        exact .of_eq ((h.engineRead ..).vshare ..) rfl rfl

theorem MemWf.semHeard (h : MemWf s) {c n count : Nat} : MemWf (s.semHeard c n count) := h

theorem MemWf.taskStep (h : MemWf s) {t : Task} : MemWf (s.taskStep t) := .ite (.putTask (foldl_keeps MemWf (fun _ _ hu => hu.semHeard) _
    h)) (.ite (.ite (.arm (foldl_keeps MemWf (fun _ _ hu => hu.semHeard) _ h)) (.ite (.putTask (foldl_keeps MemWf (fun _ _ hu =>
  hu.semHeard) _ h)) (.putTask (foldl_keeps MemWf (fun _ _ hu => hu.semHeard) _ h)))) (foldl_keeps MemWf (fun _ _ hu => hu.semHeard) _ h))

theorem MemWf.taskTick (h : MemWf s) : MemWf s.taskTick := by
  unfold State.taskTick
  refine foldl_keeps MemWf (fun u x hu => ?_) _ h
  split
  exacts [hu.taskStep, hu]

theorem MemWf.lookupMiss (h : MemWf s) {t : Task} {refused : Bool} : MemWf (s.lookupMiss t refused) :=
  .taskTick (.ite h.putTask.bump h.putTask)

theorem MemWf.execReuseLookup (h : MemWf s) {ctx count : Nat} : OutWf (execReuseLookup ctx count s) := by
  unfold Machine.execReuseLookup
  refine .next ?_
  split
  · exact h
  · split
    · exact h.rangesShare.lookupMiss
    · dsimp only
      split
      · exact h.rangesShare.lookupMiss
      · refine .ite h.rangesShare.lookupMiss (foldl_keeps MemWf (fun u x hu => ?_) _ ?_)
        exacts [hu.of_eq rfl rfl, .of_eq h.rangesShare.disarm rfl rfl]

theorem MemWf.execReusePlaceComplete (h : MemWf s) {ctx count : Nat} : OutWf (execReusePlaceComplete ctx count s) := by
  unfold Machine.execReusePlaceComplete
  refine .next ?_
  split
  exacts [h, .ite h h.bump.retireTask]

theorem MemWf.execTaskRetire (h : MemWf s) {ctx count : Nat} : OutWf (execTaskRetire ctx count s) := by
  unfold Machine.execTaskRetire
  refine .next ?_
  split
  exacts [h, .ite h h.retireTask]

theorem MemWf.dispatchNew (h : MemWf s) {p : Nat} {t : Task} : MemWf (s.dispatchNew p t) := by
  unfold State.dispatchNew
  extract_lets s0 s1 s2
  have h2 : MemWf s2 := h.hearOnce.modTh.putTask
  exact h2.of_eq rfl rfl

theorem MemWf.startRufl (h : MemWf s) {m : Cmd} : MemWf (s.startRufl m) := by
  unfold State.startRufl
  refine MemWf.fire ?_
  exact h.of_eq rfl rfl

theorem MemWf.startOccr (h : MemWf s) {m : Cmd} : MemWf (s.startOccr m) := by
  unfold State.startOccr
  refine MemWf.fire (.ite (h.engineWrite ..) ?_)
  refine MemWf.forN (h.engineWrite ..) _ fun i u hu => ?_
  exact .ite (hu.of_eq rfl rfl) hu

theorem MemWf.startRuq (h : MemWf s) {m : Cmd} : MemWf (s.startRuq m) := (h.engineWrite ..).fire

/-! ### Channels (14) -/

theorem MemWf.putChan (h : MemWf s) {x : Chan} : MemWf (s.putChan x) := by
  unfold State.putChan
  refine .vwrRun ?_ ..
  exact h.of_eq rfl rfl

theorem MemWf.rebind (h : MemWf s) {c a b : Nat} : MemWf (s.rebind c a b) := foldl_keeps MemWf (fun _ _ hu => hu.putChan) _ h

theorem MemWf.takeHead (h : MemWf s) {c n : Nat} : MemWf (s.takeHead c n) := .ite h.putChan.sendPacket h.putChan

theorem MemWf.fireCloses (h : MemWf s) {q : Chan} : MemWf (s.fireCloses q) := .ite (foldl_keeps MemWf (fun _ _ hu => hu.fire) _ h) h

theorem MemWf.startChopn (h : MemWf s) {m : Cmd} : MemWf (s.startChopn m) := by
  unfold State.startChopn
  extract_lets c old s1
  have h1 : MemWf s1 := h.withSignals.putChan
  clear_value s1
  split
  · refine .fire (.fireCloses ?_)
    split
    exacts [h1.cmdError, h1]
  · dsimp only
    split
    exacts [(h.engineRead ..).cmdError, .ite (h.engineRead ..).putChan.sendPacket (h.engineRead ..).putChan.fire]

theorem MemWf.closeChan (h : MemWf s) {q : Chan} {cmd : Option Nat} : MemWf (s.closeChan q cmd) := .ite h.putChan.sendPacket h.putChan

theorem MemWf.closeAll (h : MemWf s) : MemWf s.closeAll := by
  unfold State.closeAll
  refine foldl_keeps MemWf (fun u x hu => ?_) _ h
  refine foldl_keeps MemWf (fun v x hv => ?_) _ hu
  dsimp only
  split
  exacts [hv, .ite hv.closeChan hv.putChan.cmdError]

theorem MemWf.closeTick (h : MemWf s) : MemWf s.closeTick := foldl_keeps MemWf (fun _ _ hu => hu.putChan) _ h.closeAll

theorem MemWf.standElement (h : MemWf s) {q : Chan} {e : Option (List Byte)} : MemWf (s.standElement q e) := by
  unfold State.standElement
  split
  exacts [h.putChan.fireCloses, .putChan (.forN h _ fun _ _ hu => hu.agentWrite ..)]

theorem MemWf.nextFor (h : MemWf s) {q : Chan} {d : Nat × PktBody} {t : State} (e : s.nextFor q = some (d, t)) : MemWf t :=
  h.takeDelivered e

theorem MemWf.chanPacket (h : MemWf s) {q : Chan} {b : PktBody} : MemWf (s.chanPacket q b) := by
  unfold State.chanPacket
  split
  exacts [.ite h.standElement h, .ite h.putChan h, .ite h.standElement (.ite h.closeChan h), h]

theorem MemWf.execChannelElementArrive (h : MemWf s) {ctx ch : Nat} : OutWf (execChannelElementArrive ctx ch s) := by
  unfold Machine.execChannelElementArrive
  refine .next ?_
  dsimp only
  split
  · exact MemWf.fire (.ite h.putChan h.standElement)
  · split
    · next e => exact (h.nextFor e).chanPacket
    · next e => exact (h.nextFor e).chanPacket
    · exact h

theorem MemWf.execChannelCreditArrive (h : MemWf s) {ctx ch : Nat} : OutWf (execChannelCreditArrive ctx ch s) := by
  unfold Machine.execChannelCreditArrive
  refine .next ?_
  refine .ite h.putChan ?_
  split
  · next e => exact (h.nextFor e).chanPacket
  · exact h

theorem MemWf.takeOpen (h : MemWf s) {q : Chan} {far : FarOpen} {t : State} (e : s.takeOpen q far = some t) : MemWf t := by
  unfold State.takeOpen at e
  dsimp only at e
  split at e
  · cases e
  · cases e
    exact h

theorem MemWf.execRemoteOpenMatch (h : MemWf s) {ctx ch : Nat} {far : FarOpen} : OutWf (execRemoteOpenMatch ctx ch far s) := by
  unfold Machine.execRemoteOpenMatch
  refine .next ?_
  refine .ite h ?_
  split
  · exact h
  · next e =>
    have h1 := h.takeOpen e
    split
    exacts [h1, .ite h1.putChan.fire h1.putChan.cmdError]

theorem MemWf.breakChans (h : MemWf s) {x : Nat} : MemWf (s.breakChans x) := foldl_keeps MemWf (fun _ _ hu => hu.putChan.fireCloses) _ h

theorem MemWf.execDeadlockDetect (h : MemWf s) {ctx : Nat} {parts : List Nat} : OutWf (execDeadlockDetect ctx parts s) :=
  .next (.ite h (.post (foldl_keeps MemWf (fun _ _ hu => hu.modTh) _ h)))

/-! ### Group records (16) -/

theorem MemWf.grpPut (h : MemWf s) {c n i v : Nat} : MemWf (s.grpPut c n i v) := h.vwrN ..

theorem MemWf.grpSetState (h : MemWf s) {c n st : Nat} : MemWf (s.grpSetState c n st) := h.grpPut

theorem MemWf.grpCount (h : MemWf s) {c n : Nat} {high : Bool} : MemWf (s.grpCount c n high) := h.grpPut

theorem MemWf.modGrp (h : MemWf s) {c n : Nat} {f : Grp → Grp} : MemWf (s.modGrp c n f) := h

theorem MemWf.sendColl (h : MemWf s) {c n seq rank : Nat} {kind : CollKind} : MemWf (s.sendColl c n seq rank kind).2 := by
  unfold State.sendColl
  dsimp only
  split
  exacts [h.modGrp, h.sendPacket]

theorem MemWf.sendAll (h : MemWf s) {c n seq : Nat} {kind : CollKind} : MemWf (s.sendAll c n seq kind).2 := by
  unfold State.sendAll
  refine foldl_keeps (fun a : Bool × State => MemWf a.2) (fun a x ha => ?_) _ ?_
  exacts [ha.sendColl, h]

theorem MemWf.dropPackets (h : MemWf s) {c n : Nat} {f : CollPacket → Bool} : MemWf (s.dropPackets c n f) := h

/-! ### State vectors (18) -/

theorem MemWf.svPut (h : MemWf s) {c n : Nat} {o : SvObj} : MemWf (s.svPut c n o) := h.vwrRun ..

theorem MemWf.svMet (h : MemWf s) {m : Cmd} {o : SvObj} {bad : List Nat} : MemWf (s.svMet m o bad) :=
  .modCmd (foldl_keeps MemWf (fun _ _ hu => hu.log ..) _ h)

theorem MemWf.svRead (h : MemWf s) {m : Cmd} {o : SvObj} {pick : Nat → Bool} : MemWf (s.svRead m o pick).2.2 := by
  unfold State.svRead
  refine .svMet (foldl_keeps (fun a : List Amp × List ℕ × State => MemWf a.2.2) (fun a x ha => ?_) _ h)
  split
  exacts [ha.quietPiece, ha]

theorem MemWf.svWrite (h : MemWf s) {m : Cmd} {o : SvObj} {a : List Amp} {pick : Nat → Bool} : MemWf (s.svWrite m o a pick) :=
  foldl_keeps MemWf (fun _ _ hu => hu.storeNow ..) _ h

theorem MemWf.svResult (h : MemWf s) {m : Cmd} {cs : List Ex} : MemWf (s.svResult m cs) := h.engineWrite ..

theorem MemWf.svLeave (h : MemWf s) {m : Cmd} : MemWf (s.svLeave m) := h

theorem MemWf.svEnd (h : MemWf s) {m : Cmd} {o : SvObj} : MemWf (s.svEnd m o) := h.svPut.svLeave.fire

theorem MemWf.svFail (h : MemWf s) {m : Cmd} {code : Nat} : MemWf (s.svFail m code) := h

theorem MemWf.svRecord (h : MemWf s) {m : Cmd} : MemWf (s.svRecord m) := .ite (.ite h.svPut.svLeave h.svLeave) h

theorem MemWf.svInit (h : MemWf s) {m : Cmd} {old : SvObj} : MemWf (s.svInit m old) := by
  unfold State.svInit
  have h1 := h.engineRead m (m.caps.getD 0 { va := 0, pa := 0, base := 0, size := 0, tens := none }) 64
  generalize s.engineRead m _ 64 = r at h1 ⊢
  obtain ⟨b, bad, s1⟩ := r
  dsimp only at h1 ⊢
  refine .ite (.ite h1.cmdError h1.svEnd) ?_
  split
  · exact h1.cmdError
  · split
    exacts [h1.cmdError, MemWf.svEnd (.ite h1 h1.svWrite)]

theorem MemWf.svArea (h : MemWf s) {m : Cmd} : MemWf (s.svArea m).2 := by
  unfold State.svArea
  split
  exacts [h.engineRead .., h]

theorem MemWf.svBegin (h : MemWf s) {m : Cmd} {o : SvObj} : MemWf (s.svBegin m o).1 := by
  unfold State.svBegin
  have h1 := h.svArea (m := m)
  generalize s.svArea m = r at h1 ⊢
  obtain ⟨m', s1⟩ := r
  dsimp only at h1 ⊢
  split
  · exact h1.cmdError
  · split
    · exact h1.cmdError
    · have h2 := h1.engineRead m' (m'.caps.getD 0 { va := 0, pa := 0, base := 0, size := 0, tens := none }) (o.opBytes m')
      dsimp only
      generalize s1.engineRead m' _ (o.opBytes m') = r at h2 ⊢
      obtain ⟨u, bad, s2⟩ := r
      dsimp only at h2 ⊢
      refine .ite (h2.of_eq rfl rfl) (MemWf.sendAll ?_)
      exact h2
  · exact h1.cmdError

theorem MemWf.svDiffer (h : MemWf s) {m : Cmd} {o : SvObj} {n : Nat} : MemWf (s.svDiffer m o n) := by
  unfold State.svDiffer
  exact h.modGrp.svFail

theorem MemWf.svFinish (h : MemWf s) {m : Cmd} {o : SvObj} {code : Nat} : MemWf (s.svFinish m o code) :=
  .ite (.svEnd (.ite h h.dropPackets)) (.svFail (.ite h h.dropPackets))

theorem MemWf.svExchange (h : MemWf s) {m : Cmd} {o : SvObj} {a v : Nat} : MemWf (s.svExchange m o a v) := by
  unfold State.svExchange
  extract_lets n next moved r bit one step
  have hn {u : State} (hu : MemWf u) : MemWf (next u) := hu.modCmd
  clear_value next
  refine .ite (hn h.svRead.svWrite) ?_
  generalize hr : (if m.aux.getD 1 0 = 1 then (m.held, s) else _) = q
  have h1 : MemWf q.2 := by
    rw [← hr]
    split
    exacts [h, h.svRead.sendColl.modCmd]
  clear hr
  obtain ⟨amps, s1⟩ := q
  dsimp only at h1 ⊢
  split
  exacts [hn h1.svWrite, h1]

theorem MemWf.svPass (h : MemWf s) {m : Cmd} {o : SvObj} : MemWf (s.svPass m o) := by
  unfold State.svPass
  extract_lets n k qs b rank
  refine .ite h.svFinish ?_
  generalize hr : (if m.aux.getD 1 0 = 1 then (m.held, [], s) else s.svRead m o fun _ => true) = r
  have h1 : MemWf r.2.2 := by
    rw [← hr]
    split
    exacts [h, h.svRead]
  clear hr
  obtain ⟨amps, lines, s1⟩ := r
  dsimp only at h1 ⊢
  refine .ite h1.svWrite.svFinish (.ite h1.svWrite.svFinish (.ite (.svFinish (.ite h1 h1.svResult)) ?_))
  have h2 (bad : Bool) (x : List Ex) : MemWf (if m.aux.getD 1 0 = 1 then s1
      else ((s1.sendAll m.ctx o.group o.qseq (.svSums n (x.map Ex.exact) bad)).2).modCmd m.id fun m =>
        { m with aux := m.aux.getD 0 0 :: 1 :: m.aux.drop 2, held := amps }) := .ite h1 h1.sendAll.modCmd
  exact .ite (h2 ..) (.svFinish (.ite (h2 ..) (h2 ..).svResult))

theorem MemWf.svStep (h : MemWf s) {m : Cmd} {o : SvObj} : MemWf (s.svStep m o) := by
  unfold State.svStep
  refine .ite h (.ite h.svDiffer ?_)
  dsimp only
  split
  exacts [h.svExchange, h.svPass]

theorem MemWf.execStateVectorCommandComplete (h : MemWf s) {cmd : Nat} : OutWf (execStateVectorCommandComplete cmd s) := by
  unfold Machine.execStateVectorCommandComplete
  refine .next ?_
  split
  · exact h
  · refine .ite h (.ite h.svStep (.ite h (.ite h.cmdError (.ite h.svInit (.ite h.cmdError (.ite h.cmdError ?_))))))
    dsimp only
    split
    exacts [h.svBegin.svStep, h.svBegin]

theorem MemWf.svGroupFailed (h : MemWf s) {c grp : Nat} : MemWf (s.svGroupFailed c grp) :=
  foldl_keeps MemWf (fun _ _ hu => .ite hu.svFinish hu) _ h

/-! ### Groups and collectives (16) -/

theorem MemWf.numbered (h : MemWf s) {id cid : Nat} {g : Grp → Grp} {c n : Nat} : MemWf (s.numbered id cid g c n) := h

theorem MemWf.collStatus (h : MemWf s) {m : Cmd} {status agreed : Nat} : MemWf (s.collStatus m status agreed) :=
  .of_eq ((h.signal ..).engineWrite ..) rfl rfl

theorem MemWf.collClose (h : MemWf s) {m : Cmd} {x : Coll} {st first : Nat} : MemWf (s.collClose m x st first) := h.collStatus.fire

theorem MemWf.colaFail (h : MemWf s) {m : Cmd} : MemWf (s.colaFail m) := h.modGrp.modCmd.fire

theorem MemWf.endColls (h : MemWf s) {c n : Nat} : MemWf (s.endColls c n) := by
  unfold State.endColls
  refine foldl_keeps MemWf (fun u x hu => ?_) _ h
  refine .ite hu.colaFail ?_
  split
  exacts [hu.collClose, hu.collStatus.fire]

theorem MemWf.failNow (h : MemWf s) {c n cause frank : Nat} : MemWf (s.failNow c n cause frank) := by
  unfold State.failNow
  refine .ite h.modGrp (.svGroupFailed (.endColls (.post ?_)))
  split
  exacts [h.modGrp.grpSetState.grpPut.grpPut.modGrp.cmdError, h.modGrp.grpSetState.grpPut]

theorem MemWf.grpFail (h : MemWf s) {c n cause frank : Nat} : MemWf (s.grpFail c n cause frank) := .ite h.modGrp h.failNow

theorem MemWf.failTick (h : MemWf s) : MemWf s.failTick := by
  unfold State.failTick
  refine foldl_keeps MemWf (fun u x hu => ?_) _ h
  split
  exacts [hu.failNow, hu]

theorem MemWf.grpLeave (h : MemWf s) {c n : Nat} : MemWf (s.grpLeave c n) := by
  unfold State.grpLeave
  extract_lets s0 st rank w4 s1 s2 s3
  have h0 : MemWf s0 := by
    change MemWf (match (s.grp c n).failing with | some (cause, r) => s.failNow c n cause r | none => s)
    split
    exacts [h.failNow, h]
  have h1 : MemWf s1 := by
    refine .ite h0.grpPut (.ite ?_ h0.grpPut.endColls.svGroupFailed)
    split
    exacts [h0.grpPut.modGrp.cmdError, h0]
  have h2 : MemWf s2 := foldl_keeps MemWf (fun _ _ hu => hu.sendPacket) _ h1
  exact MemWf.of_eq h2.grpPut.grpSetState rfl rfl

theorem MemWf.leaveAll (h : MemWf s) {c : Nat} : MemWf (s.leaveAll c) := foldl_keeps MemWf (fun _ _ hu => .ite hu hu.grpLeave) _ h

theorem MemWf.quarTick (h : MemWf s) : MemWf s.quarTick := by
  unfold State.quarTick
  refine foldl_keeps MemWf (fun u x hu => ?_) _ h
  refine .ite (hu.of_eq rfl rfl) ?_
  refine .ite ?_ hu
  refine .partPut ?_ ..
  exact hu.of_eq rfl rfl

theorem MemWf.execQuarantineEnd (h : MemWf s) {ctx grp : Nat} : OutWf (execQuarantineEnd ctx grp s) := by
  unfold Machine.execQuarantineEnd
  refine .next ?_
  refine .ite ?_ h
  split
  · refine .partPut ?_ ..
    exact h.of_eq rfl rfl
  · exact h

theorem MemWf.startGrpc (h : MemWf s) {m : Cmd} : MemWf (s.startGrpc m) := by
  unfold State.startGrpc
  dsimp only
  generalize hr : (if (cap0 m).pa % 64 = 0 then s.engineRead m (cap0 m) 64 else ([], false, s)) = r
  have h1 : MemWf r.2.2 := by
    rw [← hr]
    split
    exacts [h.engineRead .., h]
  clear hr
  obtain ⟨b, bad, s1⟩ := r
  dsimp only at h1 ⊢
  generalize hq : (if ((cap0 m).pa % 64 == 0 && !s.violates (s.firmware m.key) (cap0 m).pa) = true then s1.engineRead m _ _ else ([],
    false, s1)) = q
  have h2 : MemWf q.2.2 := by
    rw [← hq]
    split
    exacts [h1.engineRead .., h1]
  clear hq
  obtain ⟨eb, bad, s2⟩ := q
  dsimp only at h2 ⊢
  refine .ite (.cmdError (.ite h2.grpPut h2)) ?_
  exact foldl_keeps MemWf (fun _ _ hu => hu.sendPacket) _ h2.grpPut.grpPut.grpPut.modGrp

theorem MemWf.startGrpf (h : MemWf s) {m : Cmd} : MemWf (s.startGrpf m) := .ite h.cmdError (.ite h.grpPut.cmdError h.grpLeave.grpPut.fire)

theorem MemWf.execGroupJoinReceive (h : MemWf s) {ctx grp : Nat} {join : GroupJoin} :
    OutWf (execGroupJoinReceive ctx grp join s) := by
  unfold Machine.execGroupJoinReceive
  refine .next ?_
  refine .ite h ?_
  split
  · exact h
  · next e =>
    have h1 := h.takeDelivered e
    refine .ite h1 (.ite (.ite (.ite ?_ h1.modGrp) h1.grpFail) (.ite h1.grpCount h))
    dsimp only
    split
    exacts [h1.modGrp.grpSetState.grpPut.modGrp.fire, h1.modGrp.grpSetState.grpPut.modGrp]

theorem MemWf.execMemberFailure (h : MemWf s) {ctx grp cause member : Nat} : OutWf (execMemberFailure ctx grp cause member s) := by
  unfold Machine.execMemberFailure
  refine .next ?_
  refine .ite h (.ite (.ite h.grpFail h) (.ite ?_ h))
  split
  · next e =>
    have h1 := h.takeDelivered e
    exact .ite (.ite h1.grpFail h1) h1.grpCount
  · exact h

theorem MemWf.grpUnreachable (h : MemWf s) {x : Nat} : MemWf (s.grpUnreachable x) := by
  unfold State.grpUnreachable
  refine foldl_keeps MemWf (fun u x hu => ?_) _ h
  dsimp only
  split
  exacts [.ite hu.grpFail hu, hu]

theorem MemWf.execCollectivePacketReceive (h : MemWf s) {ctx : Nat} {pkt : CollPacket} :
    OutWf (execCollectivePacketReceive ctx pkt s) := by
  unfold Machine.execCollectivePacketReceive
  refine .next ?_
  refine .ite h ?_
  split
  · exact h
  · next e =>
    have h1 := h.takeDelivered e
    exact .ite h1.modGrp (.ite h1.grpCount h1)

theorem MemWf.collOpen (h : MemWf s) {m : Cmd} : MemWf (s.collOpen m) := by
  unfold State.collOpen
  refine .ite h.collStatus.cmdError (.ite h.collStatus.fire (.ite h ?_))
  dsimp only
  split
  exacts [(((h.engineRead ..).sendAll).collStatus).cmdError, .of_eq (((h.engineRead ..).modCmd).sendAll) rfl rfl]

theorem MemWf.startColl (h : MemWf s) {m : Cmd} : MemWf (s.startColl m) := h.collOpen

theorem MemWf.collTick (h : MemWf s) : MemWf s.collTick := by
  unfold State.collTick
  refine foldl_keeps MemWf (fun u x hu => ?_) _ h
  split
  exacts [.ite hu.collOpen hu, hu]

theorem MemWf.startCola (h : MemWf s) {m : Cmd} : MemWf (s.startCola m) :=
  .ite h.cmdError (.ite h.colaFail (.ite h ((((h.engineRead ..).modCmd).sendColl).sendAll)))

theorem MemWf.colaTick (h : MemWf s) : MemWf s.colaTick := foldl_keeps MemWf (fun _ _ hu => hu.startCola) _ h

theorem MemWf.collPiece (h : MemWf s) {m : Cmd} {pa n : Nat} : MemWf (s.collPiece m pa n).2.2 := by
  unfold State.collPiece
  exact .ite (h.quietPiece.log ..) h.quietPiece

theorem MemWf.collBytes (h : MemWf s) {m : Cmd} {a n : Nat} : MemWf (s.collBytes m a n).2.2 := by
  unfold State.collBytes
  refine foldl_keeps (fun a : List Byte × List (ℕ × ℕ) × State => MemWf a.2.2) (fun a x ha => ?_) _ ?_
  exacts [ha.collPiece, h]

theorem MemWf.collLine (h : MemWf s) {m : Cmd} {x : Coll} {i j : Nat} : MemWf (s.collLine m x i j).2 := by
  unfold State.collLine
  extract_lets c per va pa ver
  have h1 := h.collPiece (m := m) (pa := pa) (n := 64)
  generalize s.collPiece m pa 64 = r at h1 ⊢
  obtain ⟨bs, bad, s1⟩ := r
  dsimp only at h1 ⊢
  split
  exacts [h1.collPiece, h1]

theorem MemWf.collSource (h : MemWf s) {m : Cmd} {x : Coll} {lo n : Nat} : MemWf (s.collSource m x lo n).2.2 := by
  unfold State.collSource
  split
  · exact h.collBytes
  · refine foldl_keeps (fun a : List (Ex × ℕ × Bool) × State => MemWf a.2) (fun a x ha => ?_) _ ?_
    exacts [ha.collLine, h]

theorem MemWf.collWrite (h : MemWf s) {m : Cmd} {x : Coll} {lo : Nat} {vals : List Landing} : MemWf (s.collWrite m x lo vals) := by
  unfold State.collWrite
  extract_lets c side req keep psn note w bs a
  have noted {u : State} (hu : MemWf u) (wv : Option Nat) : MemWf (note u wv) := hu.of_eq rfl rfl
  clear_value note side
  split
  · exact noted (foldl_keeps MemWf (fun _ _ hu => hu.storeNow ..) _ h) _
  · refine noted (foldl_keeps MemWf (fun u j hu => ?_) _ h) _
    dsimp only
    exact .report (.ite (hu.storeNow ..) ((hu.storeNow ..).storeNow ..))

theorem MemWf.modColl (h : MemWf s) {id : Nat} {f : Coll → Coll} : MemWf (s.modColl id f) := h

theorem MemWf.collDetour (h : MemWf s) {x : Coll} {k : Nat} {d : Bool} : MemWf (s.collDetour x k d) := by
  unfold State.collDetour
  split
  exacts [h, .ite h h.grpCount.modColl]

theorem MemWf.collSend (h : MemWf s) {m : Cmd} {x : Coll} {k : Nat} : MemWf (s.collSend m x k) := by
  unfold State.collSend
  refine .ite (foldl_keeps MemWf (fun _ _ hu => hu.collSource.sendColl.collDetour) _ h.modColl) ?_
  refine foldl_keeps (fun a : State × Option ((ℕ × ℕ) × ℕ × List (ℕ × Bool)) => MemWf a.1) (fun a x ha => ?_) _ h.modColl
  split
  · exact ha
  · refine .collDetour (.sendColl ?_)
    split
    exacts [ha, ha.collSource]

theorem MemWf.collDone (h : MemWf s) {x : Coll} {k : Nat} {direct : Bool} : MemWf (s.collDone x k direct) := h

theorem MemWf.collFinish (h : MemWf s) {m : Cmd} {x : Coll} {k : Nat} : MemWf (s.collFinish m x k) := by
  unfold State.collFinish
  refine .ite (.ite ?_ ?_) (.ite h h.collDetour.collWrite.collDone)
  · refine .ite h (.collDone (foldl_keeps MemWf (fun u x hu => ?_) _ h))
    split
    exacts [hu, foldl_keeps MemWf (fun _ _ hv => hv.sendColl.collDetour) _ (.ite hu.collDetour.collWrite hu.collDetour)]
  · refine .ite h.collDone ?_
    split
    exacts [h, h.collDetour.collWrite.collDone]

theorem MemWf.execCollectiveChunkComplete (h : MemWf s) {cmd chunk : Nat} : OutWf (execCollectiveChunkComplete cmd chunk s) := by
  unfold Machine.execCollectiveChunkComplete
  refine .next ?_
  split
  · refine .ite h ?_
    dsimp only
    split
    exacts [.collFinish (.ite h h.collSend), .ite h h.collSend]
  · exact h

theorem MemWf.collShare (h : MemWf s) {m : Cmd} {x : Coll} : MemWf (s.collShare m x) := by
  unfold State.collShare
  dsimp only
  split
  exacts [h, foldl_keeps MemWf (fun _ _ hu => hu.othersRead ..) _ h, foldl_keeps MemWf (fun _ _ hu => hu.othersRead ..) _ h]

theorem MemWf.execScaleAgreementDone (h : MemWf s) {cmd : Nat} {exp : Int} : OutWf (execScaleAgreementDone cmd exp s) := by
  unfold Machine.execScaleAgreementDone
  refine .next ?_
  split
  exacts [.ite h h.collShare.modColl, h]

theorem MemWf.execCollectiveEnd (h : MemWf s) {cmd : Nat} : OutWf (execCollectiveEnd cmd s) := by
  unfold Machine.execCollectiveEnd
  refine .next ?_
  split
  · exact h
  · refine .ite (.ite h (.ite h.modGrp.cmdError ((h.modGrp.engineWrite ..).fire))) ?_
    split
    exacts [h, .ite h.collClose (.ite h.collClose h)]

end

end Sys2Proof.Machine
end

section
/-! PROOFS. The contexts, links, pager, caches and events of the package keep both memories in canonical form (O59). -/

namespace Sys2Proof.Machine

open Sys2Proof

section
variable {s : State}

/-! ### Contexts (12) -/

theorem MemWf.fqWrite (h : MemWf s) {r : Rec} {a : Nat} {bs : List Byte} : MemWf (s.fqWrite r a bs) :=
  .ite (.forN h _ fun _ _ hu => hu.partPut ..) (h.vwrRun ..)

theorem MemWf.recDone (h : MemWf s) {r : Rec} {va : Nat} : MemWf (s.recDone r va) := by
  unfold State.recDone
  extract_lets s1 s2
  have h1 : MemWf s1 := h.of_eq rfl rfl
  have h2 : MemWf s2 := by
    unfold s2
    split
    exacts [h1.modTh, h1]
  clear_value s2
  split
  · refine .fire ?_
    split
    exacts [h2.svRecord, h2]
  · exact h2

theorem MemWf.execFaultRecordWrite (h : MemWf s) {rec : Nat} : OutWf (execFaultRecordWrite rec s) := by
  unfold Machine.execFaultRecordWrite
  refine .next ?_
  split
  exacts [h, .ite h (.ite (.ite h.fqWrite.fqWrite.recDone h) (.ite h (.of_eq h.fqWrite rfl rfl)))]

theorem MemWf.skipBundle (h : MemWf s) {p : Nat} : MemWf (s.skipBundle p) := by
  unfold State.skipBundle
  refine .modTh (.ite h.setTh ?_)
  split
  exacts [.ite h.endCheck h.setTh, h.setTh]

theorem MemWf.doResume (h : MemWf s) {p : Nat} {skip : Bool} : MemWf (s.doResume p skip) := .ite h.setTh.skipBundle h.setTh

theorem MemWf.stopToSave (h : MemWf s) {p : Nat} : MemWf (s.stopToSave p) := .ite h.modTh (.ite h h.stallEnd.modTh)

theorem MemWf.resumeOne (h : MemWf s) {p : Nat} : MemWf (s.resumeOne p) := by
  unfold State.resumeOne
  dsimp only
  split
  exacts [.ite h (.ite h.doResume.stopToSave h.doResume), h]

theorem MemWf.resumeTick (h : MemWf s) : MemWf s.resumeTick := foldl_keeps MemWf (fun _ _ hu => hu.resumeOne) _ h

theorem MemWf.unqueue (h : MemWf s) {c slot : Nat} : MemWf (s.unqueue c slot) := h

theorem MemWf.rename (h : MemWf s) {old new_ : Nat} : MemWf (s.rename old new_) := h

theorem MemWf.dropWork (h : MemWf s) {k : Nat} {t : Thr} : MemWf (s.dropWork k t) := by
  unfold State.dropWork
  refine foldl_keeps MemWf (fun u x hu => ?_) _ ?_
  exacts [hu.fire, h.of_eq rfl rfl]

theorem MemWf.writeRows (h : MemWf s) {p : Nat} {t : Thr} : MemWf (s.writeRows p t) := by
  unfold State.writeRows
  refine foldl_keeps MemWf (fun u x hu => ?_) _ h
  refine .ite (foldl_keeps MemWf (fun v x hv => ?_) _ hu) hu
  split
  exacts [hv.spWrite .., hv]

theorem MemWf.loseSlot (h : MemWf s) {c slot : Nat} : MemWf (s.loseSlot c slot) := by
  unfold State.loseSlot
  refine .vwrRun ?_ ..
  exact h.of_eq rfl rfl

theorem MemWf.killTask (h : MemWf s) {c count : Nat} : MemWf (s.killTask c count) := by
  unfold State.killTask
  split
  exacts [h, h.retireTask]

theorem MemWf.killRunning (h : MemWf s) {p : Nat} : MemWf (s.killRunning p) := by
  unfold State.killRunning
  dsimp only
  split
  exacts [h.writeRows.dropWork.release.modTh, h.writeRows.dropWork.release.modTh.killTask.loseSlot]

theorem MemWf.endSaved (h : MemWf s) {c slot : Nat} : MemWf (s.endSaved c slot) := by
  unfold State.endSaved
  split
  · exact h
  · extract_lets s1 s2
    have h1 : MemWf s1 := h.dropWork.rename.unqueue
    have h2 : MemWf s2 := h1.of_eq rfl rfl
    split
    exacts [h2, h2.killTask]

theorem MemWf.killSaved (h : MemWf s) {c slot : Nat} : MemWf (s.killSaved c slot) := .ite h.endSaved.loseSlot h

theorem MemWf.restore (h : MemWf s) {p c : Nat} {j : TaskRef} {rest : List TaskRef} : MemWf (s.restore p c j rest) := by
  unfold State.restore
  split
  exacts [h.modTh, h.of_eq rfl rfl]

theorem MemWf.execTaskDispatch (h : MemWf s) {part : Nat} : OutWf (execTaskDispatch part s) := by
  unfold Machine.execTaskDispatch
  refine .next ?_
  split
  · exact h
  · refine .ite h ?_
    split
    · exact h.restore
    · split
      exacts [h.dispatchNew, h]

theorem MemWf.execPartitionSaveComplete (h : MemWf s) {part : Nat} : OutWf (execPartitionSaveComplete part s) :=
  .next (.ite h (.of_eq (h.vwrRun ..) rfl rfl))

theorem MemWf.savedTick (h : MemWf s) : MemWf s.savedTick := by
  unfold State.savedTick
  refine foldl_keeps MemWf (fun u x hu => (.ite (hu.vwrN ..) hu)) _ ?_
  refine foldl_keeps MemWf (fun u x hu => ?_) _ ?_
  exacts [.ite (hu.vwrN ..) hu, foldl_keeps MemWf (fun _ _ hu => .ite (hu.vwrN ..) hu) _ h]

theorem MemWf.ctlErr (h : MemWf s) {c err : Nat} : MemWf (s.ctlErr c err) := h

theorem MemWf.ctxCreate (h : MemWf s) {c : Nat} : MemWf (s.ctxCreate c) := by
  unfold State.ctxCreate
  refine .ite h.ctlErr ?_
  split
  · exact .ite h.ctlErr (.vwrRun (.setTh (foldl_keeps MemWf (fun _ _ hu => .forN hu _ fun _ _ hv => hv.partPut ..) _ h.modCtx.modCtx)) ..)
  · exact h.ctlErr

theorem MemWf.placeSaved (h : MemWf s) {c : Nat} : MemWf (s.placeSaved c) := foldl_keeps MemWf (fun _ _ hu => .ite hu hu.modTh) _ h

theorem MemWf.ctxRun (h : MemWf s) {c : Nat} : MemWf (s.ctxRun c) := by
  unfold State.ctxRun
  dsimp only
  split
  exacts [.ite h.ctlErr h.ctlErr, .ite h.ctlErr h.modCtx.setTh.placeSaved]

theorem MemWf.ctxPreempt (h : MemWf s) {c : Nat} : MemWf (s.ctxPreempt c) := by
  unfold State.ctxPreempt
  extract_lets x s1 s2 s3 s4
  have h1 : MemWf s1 := foldl_keeps MemWf (fun _ _ hu => hu.resumeOne) _ h
  have h2 : MemWf s2 := .ite (h1.saveCs ..) h1
  have h4 : MemWf s4 := foldl_keeps MemWf (fun _ _ hu => hu.stopToSave.modTh) _ h2.modCtx
  exact .ite h.ctlErr (h4.of_eq rfl rfl)

theorem MemWf.ctxDestroy (h : MemWf s) {c : Nat} : MemWf (s.ctxDestroy c) := .ite h.ctlErr h.modCtx.leaveAll

theorem MemWf.cctlCmd (h : MemWf s) {c cmd : Nat} : MemWf (s.cctlCmd c cmd) := by
  unfold State.cctlCmd
  refine .ite h ?_
  split
  exacts [h.ctxCreate, h.ctxRun, h.ctxPreempt, h.ctxDestroy, h.ctlErr]

theorem MemWf.ctxCmd (h : MemWf s) {c cmd : Nat} : OutWf (ctxCmd c cmd s) := .next (.ite (.byMc h (fun _ hu => hu.cctlCmd)) h)

theorem MemWf.execContextCreate (h : MemWf s) {ctx : Nat} : OutWf (execContextCreate ctx s) := h.ctxCmd

theorem MemWf.execContextRun (h : MemWf s) {ctx : Nat} : OutWf (execContextRun ctx s) := h.ctxCmd

theorem MemWf.execContextPreempt (h : MemWf s) {ctx : Nat} : OutWf (execContextPreempt ctx s) := h.ctxCmd

theorem MemWf.execContextDestroy (h : MemWf s) {ctx : Nat} : OutWf (execContextDestroy ctx s) := h.ctxCmd

theorem MemWf.execCctlInvalidCommand (h : MemWf s) {ctx code : Nat} : OutWf (execCctlInvalidCommand ctx code s) := .ite h.ctxCmd (.next h)

theorem MemWf.execSaveComplete (h : MemWf s) {ctx : Nat} : OutWf (execSaveComplete ctx s) := .next (.ite h.modCtx h)

theorem MemWf.destroyTask (h : MemWf s) {t : Task} : MemWf (s.destroyTask t) := by
  unfold State.destroyTask
  refine .ite ?_ ?_
  · split
    exacts [h, ((h.engineRead ..).retire).fire]
  · split
    exacts [.ite h.endSaved h.retireTask, h.retireTask]

theorem MemWf.destroyEnd (h : MemWf s) {c : Nat} : MemWf (s.destroyEnd c) := by
  unfold State.destroyEnd
  extract_lets s0 s1 s2
  have h0 : MemWf s0 := foldl_keeps MemWf (fun _ _ hu => hu.landPost) _ h
  have h1 : MemWf s1 := foldl_keeps MemWf (fun _ _ hu => hu.destroyTask) _ h0
  have h2 : MemWf s2 := MemWf.leaveAll (foldl_keeps MemWf (fun _ _ hu => hu.merge) _ h1)
  exact h2.of_eq rfl rfl

theorem MemWf.execContextDestroyComplete (h : MemWf s) {ctx : Nat} : OutWf (execContextDestroyComplete ctx s) := .next (.ite h.destroyEnd h)

/-! ### Links (17) -/

theorem MemWf.handBack (h : MemWf s) {p : Nat} : MemWf (s.handBack p) := h

theorem MemWf.linorDown (h : MemWf s) : MemWf s.linorDown := by
  unfold State.linorDown
  extract_lets dirty s1
  have h1 : MemWf s1 := foldl_keeps MemWf (fun _ _ hu => hu.setTag.logFw ..) _ h
  exact h1.of_eq rfl rfl

theorem MemWf.linkTo (h : MemWf s) {p st : Nat} {f : Link → Link} : MemWf (s.linkTo p st f) :=
  .ite h.handBack.modLink.linorDown (.ite (h.of_eq rfl rfl) h.handBack.modLink)

theorem MemWf.linkEnable (h : MemWf s) {p : Nat} {en : Bool} : MemWf (s.linkEnable p en) :=
  .ite h (.ite (.ite h.linkTo h) (.ite h h.linkTo))

theorem MemWf.execLinkEnable (h : MemWf s) {port : Nat} : OutWf (execLinkEnable port s) :=
  .next (.ite (.byMc h (fun _ hu => hu.linkEnable)) h)

theorem MemWf.execLinkDisable (h : MemWf s) {port : Nat} : OutWf (execLinkDisable port s) :=
  .next (.ite (.byMc h (fun _ hu => hu.linkEnable)) h)

theorem MemWf.linkEvent (h : MemWf s) {port : Nat} {sts : List Nat} {ok : Link → Bool} {f : State → State}
    (hf : ∀ u, MemWf u → MemWf (f u)) : OutWf (linkEvent port sts ok f s) := .next (.ite (hf _ h) h)

theorem MemWf.execSignalDetect (h : MemWf s) {port : Nat} : OutWf (execSignalDetect port s) := MemWf.linkEvent h (fun _ hu => hu.linkTo)

theorem MemWf.execLinkTrained (h : MemWf s) {port : Nat} {peer : LinkPeer} : OutWf (execLinkTrained port peer s) :=
  MemWf.linkEvent h (fun _ hu => hu.linkTo)

theorem MemWf.execTrainingTimeout (h : MemWf s) {port : Nat} : OutWf (execTrainingTimeout port s) :=
  MemWf.linkEvent h (fun _ hu => hu.linkTo)

theorem MemWf.execRetryExhausted (h : MemWf s) {port : Nat} : OutWf (execRetryExhausted port s) := MemWf.linkEvent h (fun _ hu => hu.linkTo)

theorem MemWf.execRetrainDone (h : MemWf s) {port : Nat} : OutWf (execRetrainDone port s) := MemWf.linkEvent h (fun _ hu => hu.linkTo)

theorem MemWf.execRetrainFail (h : MemWf s) {port : Nat} : OutWf (execRetrainFail port s) := MemWf.linkEvent h (fun _ hu => hu.linkTo)

theorem MemWf.execSignalLost (h : MemWf s) {port : Nat} : OutWf (execSignalLost port s) := MemWf.linkEvent h (fun _ hu => hu.linkTo)

theorem MemWf.execTimeStampExchange (h : MemWf s) {port : Nat} {ofs : Int} : OutWf (execTimeStampExchange port ofs s) :=
  MemWf.linkEvent h (fun _ hu => hu.modLink)

theorem MemWf.declare (h : MemWf s) {x : Nat} : MemWf (s.declare x) := by
  unfold State.declare
  refine .ite h (.logFw (.grpUnreachable (.breakChans (foldl_keeps MemWf (fun u x hu => ?_) _ ?_))) ..)
  exacts [hu.fire, h.of_eq rfl rfl]

theorem MemWf.dropAged (h : MemWf s) {w : W64} : MemWf (s.dropAged w) := h

theorem MemWf.ackBack (h : MemWf s) {src : Nat} : MemWf (s.ackBack src) := by
  unfold State.ackBack
  split
  exacts [h.transmit, h]

theorem MemWf.packetIn (h : MemWf s) {k : WirePacket} : MemWf (s.packetIn k) := by
  unfold State.packetIn
  refine .ite h (.ite (.ite h.ackBack (.of_eq h.ackBack rfl rfl)) (.ite h.dropAged (.ite h.sendPacket ?_)))
  split
  exacts [h.transmit, h.of_eq rfl rfl]

theorem MemWf.flitIn (h : MemWf s) {port : Nat} {flit : Flit} : MemWf (s.flitIn port flit) := by
  unfold State.flitIn
  refine .ite (.ite h.modLink.linkTo h.modLink) (.ite h.modLink ?_)
  dsimp only
  split
  exacts [.ite h.modLink.modLink h.modLink.modLink.packetIn, h.modLink.modLink]

theorem MemWf.execFlitReceive (h : MemWf s) {port : Nat} {flit : Flit} : OutWf (execFlitReceive port flit s) :=
  MemWf.linkEvent h (fun _ hu => .served hu (fun _ hv => hv.flitIn))

theorem MemWf.execFlitResend (h : MemWf s) {port : Nat} : OutWf (execFlitResend port s) := MemWf.linkEvent h (fun _ hu => hu.modLink)

theorem MemWf.execPacketDeliver (h : MemWf s) {src seq : Nat} : OutWf (execPacketDeliver src seq s) := by
  unfold Machine.execPacketDeliver
  refine .next ?_
  split
  exacts [h, .ite h (h.of_eq rfl rfl)]

theorem MemWf.execPacketAgeDiscard (h : MemWf s) {port src seq : Nat} : OutWf (execPacketAgeDiscard port src seq s) := by
  unfold Machine.execPacketAgeDiscard
  refine .next ?_
  split
  · exact h
  · refine .ite h ?_
    refine .dropAged ?_
    exact h.of_eq rfl rfl

theorem MemWf.detourOf (h : MemWf s) {b : PktBody} : MemWf (s.detourOf b) := by
  unfold State.detourOf
  split
  · dsimp only
    split
    exacts [h.collDetour, h.collDetour, h]
  · exact h

theorem MemWf.leaveFor (h : MemWf s) {k : Packet} {w : Waiting} {p : Nat} {alt : Bool} : MemWf (s.leaveFor k w p alt) :=
  .ite h.leave.detourOf h.leave

theorem MemWf.resend (h : MemWf s) {k : Packet} : MemWf (s.resend k) :=
  have hr := MemWf.enterSwitch (s := { s with fab := { s.fab with sent := s.fab.sent.map fun (x : Packet) =>
    if x.id = k.id then { x with last := s.gcyc, again := false } else x } }) h (k := k)
  .ite hr.detourOf hr

theorem MemWf.execPacketResendTimeout (h : MemWf s) {pkt : Nat} : OutWf (execPacketResendTimeout pkt s) := by
  unfold Machine.execPacketResendTimeout
  refine .next ?_
  split
  exacts [h, .ite h.resend h]

theorem MemWf.execPacketAckReceive (h : MemWf s) {pkt : Nat} : OutWf (execPacketAckReceive pkt s) := by
  unfold Machine.execPacketAckReceive
  refine .next ?_
  split
  · exact h
  · refine .ite h ?_
    dsimp only
    split
    · refine .fire ?_
      exact h.of_eq rfl rfl
    · exact h.of_eq rfl rfl

theorem MemWf.execPacketGiveUp (h : MemWf s) {pkt : Nat} : OutWf (execPacketGiveUp pkt s) := by
  unfold Machine.execPacketGiveUp
  refine .next ?_
  split
  exacts [h, .ite h.declare h]

theorem MemWf.execNoRouteTimeout (h : MemWf s) {fab : Nat} : OutWf (execNoRouteTimeout fab s) := by
  unfold Machine.execNoRouteTimeout
  refine .next ?_
  split
  exacts [.ite h.declare h, h]

theorem MemWf.execUnreachableNoticeReceive (h : MemWf s) {fab : Nat} : OutWf (execUnreachableNoticeReceive fab s) := by
  unfold Machine.execUnreachableNoticeReceive
  refine .next ?_
  split
  · next e => exact (h.takeDelivered e).declare
  · exact h

theorem MemWf.unrchClear (h : MemWf s) {x : Nat} : MemWf (s.unrchClear x) := by
  unfold State.unrchClear
  refine .ite h ?_
  refine .sendPacket ?_
  exact h.of_eq rfl rfl

theorem MemWf.execUnrchClear (h : MemWf s) {fab : Nat} : OutWf (execUnrchClear fab s) :=
  .next (.ite (.byMc h (fun _ hu => hu.unrchClear)) h)

theorem MemWf.resyncRx (h : MemWf s) {x : Nat} {k : WirePacket} : MemWf (s.resyncRx x k) := h

theorem MemWf.resyncTx (h : MemWf s) {x : Nat} : MemWf (s.resyncTx x) := by
  unfold State.resyncTx
  extract_lets out _ s1
  have h1 : MemWf s1 := by
    refine MemWf.sendPacket ?_
    exact h
  exact h1.of_eq rfl rfl

theorem MemWf.execResyncReceive (h : MemWf s) {fab : Nat} : OutWf (execResyncReceive fab s) := by
  unfold Machine.execResyncReceive
  refine .next ?_
  split
  exacts [h, .ite (h.of_eq rfl rfl) h.resyncRx.resyncTx]

theorem MemWf.agedBack (h : MemWf s) : MemWf s.agedBack := h

theorem MemWf.sendHeld (h : MemWf s) : MemWf s.sendHeld := foldl_keeps MemWf (fun _ _ hu => hu.resend) _ h

theorem MemWf.sendWaiting (h : MemWf s) : MemWf s.sendWaiting := by
  refine foldl_keeps MemWf (fun u w hu => ?_) _ h
  dsimp only
  split
  · exact hu
  · refine .ite hu ?_
    split
    · refine MemWf.transmit ?_
      exact hu
    · split
      · refine MemWf.leaveFor ?_
        exact hu
      · exact hu.of_eq rfl rfl

theorem MemWf.fabricTick (h : MemWf s) : MemWf s.fabricTick := by
  unfold State.fabricTick
  extract_lets s1 _ s2
  have h1 : MemWf s1 := foldl_keeps MemWf (fun _ _ hu => hu.declare) _ h
  have h2 : MemWf s2 := h1.of_eq rfl rfl
  exact h2.agedBack.sendHeld.sendWaiting

theorem MemWf.startLnks (h : MemWf s) {m : Cmd} : MemWf (s.startLnks m) := (h.engineWrite ..).fire

/-! ### Matrix steps (07) -/

theorem MemWf.execMatrixGroupRead (h : MemWf s) {k : Nat} : OutWf (execMatrixGroupRead k s) := .next (.ite h.matrixStep h)

theorem MemWf.execMatrixComplete (h : MemWf s) {k : Nat} : OutWf (execMatrixComplete k s) := .next (.ite h.matrixDone h)

theorem MemWf.execResultLand (h : MemWf s) {k : Nat} : OutWf (execResultLand k s) := .next (.ite h.landThr h)

theorem MemWf.startXfer (h : MemWf s) {c : IC} {x : Tab} {major : Nat} {y : Xfer} : MemWf (s.startXfer c x major y) := h.newCmd.modTh

theorem MemWf.storeRec (h : MemWf s) {c : IC} {x : Tab} {i : Nat} : MemWf (s.storeRec c x i) :=
  .report (.forN h _ fun _ _ hu => .ite (.forN hu _ fun _ _ hv => hv.addReq) (.addReq (.forN hu _ fun _ _ hv => hv.addReq)))

theorem MemWf.endXfer (h : MemWf s) {k cmd : Nat} : MemWf (s.endXfer k cmd) := h.modTh.fire

theorem MemWf.execAcldComplete (h : MemWf s) {k xfer : Nat} : OutWf (execAcldComplete k xfer s) := by
  unfold Machine.execAcldComplete
  refine .next ?_
  split
  · exact h
  · extract_lets c cl w codes lines s1 codes'
    have h1 : MemWf s1 := MemWf.spTouch (foldl_keeps MemWf (fun _ _ hu => hu.log ..) _ h)
    refine .ite (.ite (MemWf.endXfer (MemWf.modTh ?_)) h) (.ite h.modTh.endXfer h)
    exact h1.of_eq rfl rfl

theorem MemWf.execAcstComplete (h : MemWf s) {k xfer : Nat} : OutWf (execAcstComplete k xfer s) := by
  unfold Machine.execAcstComplete
  refine .next ?_
  split
  exacts [h, .ite (.ite (.endXfer (foldl_keeps MemWf (fun _ _ hu => hu.spWrite ..) _ h)) h) (.ite h h.endXfer)]

/-! ### The cycle of an issuer (03) -/

theorem MemWf.execFetchMissFill (h : MemWf s) {k : Nat} : OutWf (execFetchMissFill k s) := by
  unfold Machine.execFetchMissFill
  refine .next ?_
  split
  · exact h
  · dsimp only
    split
    exacts [h.modTh, .icFill (.xFill (.ite (h.modTh.log ..) (h.modTh.othersRead ..)))]

/-! ### Translation and the pager (13) -/

theorem MemWf.performReq (h : MemWf s) {r : Req} : MemWf (s.performReq r) := by
  unfold State.performReq
  extract_lets s0 s1 s2
  have h0 : MemWf s0 := h.performed
  have h1 : MemWf s1 := by
    unfold s1
    split
    exacts [h0.performStore .., h0.performPatch .., h0.performAtomic .., h0.performPclr .., h0]
  have h2 : MemWf s2 := h1.dropReq
  exact h2.of_eq rfl rfl

theorem MemWf.execPageTableWrite (h : MemWf s) {core line : Nat} : OutWf (execPageTableWrite core line s) := by
  unfold Machine.execPageTableWrite
  refine .next ?_
  split
  exacts [h, h.of_eq rfl rfl]

theorem MemWf.performEntry (h : MemWf s) {r : Req} : MemWf (s.performEntry r) :=
  foldl_keeps MemWf (fun _ _ hu => hu.pageAfresh ..) _ h.performReq

theorem MemWf.execShootdownComplete (h : MemWf s) {req : Nat} : OutWf (execShootdownComplete req s) := by
  unfold Machine.execShootdownComplete
  refine .next ?_
  split
  exacts [.ite h.performEntry h, h]

theorem MemWf.sptOut (h : MemWf s) {c n : Nat} : MemWf (s.sptOut c n) := by
  unfold State.sptOut
  dsimp only
  split
  exacts [.ite h.setPage h.setPage.spDepart, h.setPage]

theorem MemWf.execSptEntryWrite (h : MemWf s) {req : Nat} : OutWf (execSptEntryWrite req s) := by
  unfold Machine.execSptEntryWrite
  refine .next ?_
  split
  · exact h
  · refine .ite h ?_
    split
    exacts [.ite h.performEntry h, foldl_keeps MemWf (fun _ _ hu => hu.sptOut) _ h]

theorem MemWf.execPageInComplete (h : MemWf s) {ctx page : Nat} : OutWf (execPageInComplete ctx page s) := by
  unfold Machine.execPageInComplete
  refine .next ?_
  dsimp only
  split
  exacts [.ite h ((h.pageFill ..).setPage), h]

theorem MemWf.execPageOutComplete (h : MemWf s) {ctx page : Nat} : OutWf (execPageOutComplete ctx page s) := by
  unfold Machine.execPageOutComplete
  refine .next ?_
  dsimp only
  split
  exacts [.ite h (.ite ((h.pageSave ..).setPage) (((h.pageSave ..).setPage).spServe)), h]

theorem MemWf.execResidencyStayExpire (h : MemWf s) {ctx page : Nat} : OutWf (execResidencyStayExpire ctx page s) := by
  unfold Machine.execResidencyStayExpire
  refine .next ?_
  dsimp only
  split
  exacts [.ite h h.spDepart, h]

theorem MemWf.mergeFrame (h : MemWf s) {cl f : Nat} {b : Bounce} : MemWf (s.mergeFrame cl f b) := .of_eq (h.spPatch ..) rfl rfl

theorem MemWf.mergeBack (h : MemWf s) {back : Nat} {b : Bounce} : MemWf (s.mergeBack back b) :=
  .ite (h.log ..) (foldl_keeps MemWf (fun _ _ hu => hu.agentWrite ..) _ h)

theorem MemWf.execBounceMerge (h : MemWf s) {ctx page : Nat} : OutWf (execBounceMerge ctx page s) := by
  unfold Machine.execBounceMerge
  refine .next (.ite h ?_)
  split
  · refine foldl_keeps MemWf (fun u x hu => ?_) _ ?_
    exacts [hu.mergeFrame, h.of_eq rfl rfl]
  · refine .setPage (foldl_keeps MemWf (fun u x hu => hu.mergeBack) _ ?_)
    refine .ite (h.of_eq rfl rfl) (.forN ?_ _ fun i u hu => ?_)
    exacts [h.of_eq rfl rfl, hu.agentWrite ..]
  · exact h

theorem MemWf.execCoreGate (h : MemWf s) {core : Nat} : OutWf (execCoreGate core s) := by
  unfold Machine.execCoreGate
  extract_lets ps s0 s1
  have h0 : MemWf s0 := foldl_keeps MemWf (fun _ _ hu => hu.merge) _ h
  have h1 : MemWf s1 := foldl_keeps MemWf (fun _ _ hu => hu.evictL1) _ h0
  refine .next ?_
  refine .ite h (.ite (foldl_keeps MemWf (fun _ _ hu => hu.stopToSave) _ h) (.ite (h1.of_eq rfl rfl) ?_))
  refine foldl_keeps MemWf (fun u e hu => ?_) _ h
  split
  exacts [.ite hu hu.spDepart, hu]

theorem MemWf.execCorePowerUp (h : MemWf s) {core : Nat} : OutWf (execCorePowerUp core s) := .next (h.of_eq rfl rfl)

/-! ### Debug (19) -/

theorem MemWf.stopOne (h : MemWf s) {p : Nat} : MemWf (s.stopOne p) := h

theorem MemWf.endStop (h : MemWf s) {p : Nat} {d : DebugSt} : MemWf (s.endStop p d) := h

theorem MemWf.runOne (h : MemWf s) {p : Nat} : MemWf (s.runOne p) := h

theorem MemWf.edgeOne (h : MemWf s) {p : Nat} : MemWf (s.edgeOne p) := by
  unfold State.edgeOne
  dsimp only
  split
  exacts [.ite h.modTh h.stallEnd.modTh, .ite h.endStop h.modTh, h]

theorem MemWf.edgeTick (h : MemWf s) : MemWf s.edgeTick := foldl_keeps MemWf (fun _ _ hu => hu.edgeOne) _ h

theorem MemWf.dctlCmd (h : MemWf s) {p scope cmd : Nat} : MemWf (s.dctlCmd p scope cmd) := by
  unfold State.dctlCmd
  refine .ite h ?_
  split
  · exact foldl_keeps MemWf (fun _ _ hu => hu.stopOne) _ h
  · exact .ite h.endStop h
  · exact foldl_keeps MemWf (fun _ _ hu => hu.runOne) _ h
  · exact h

theorem MemWf.byDctl (h : MemWf s) {p scope cmd : Nat} : MemWf (s.byDctl p scope cmd) := .ite (.byMc h (fun _ hu => hu.dctlCmd)) h

theorem MemWf.execDebugStop (h : MemWf s) {part scope : Nat} : OutWf (execDebugStop part scope s) := .next h.byDctl

theorem MemWf.execDebugStep (h : MemWf s) {part : Nat} : OutWf (execDebugStep part s) := .next h.byDctl

theorem MemWf.execDebugRun (h : MemWf s) {part scope : Nat} : OutWf (execDebugRun part scope s) := .next h.byDctl

theorem MemWf.windowPut (h : MemWf s) {p off : Nat} {v : W64} : MemWf (s.windowPut p off v) :=
  .ite h (.ite (.ite (h.modTh.vwrN ..) h.modTh) (.ite (.ite (h.modTh.vwrN ..) h.modTh) (.ite (.ite (h.modTh.vwrN ..) h.modTh) (.ite (.ite
  (h.modTh.vwrN ..) h.modTh) (.ite h.modTh h)))))

theorem MemWf.execWindowWrite (h : MemWf s) {part off : Nat} {v : BitVec 64} : OutWf (execWindowWrite part off v s) :=
  .next (.ite (.byMc h (fun _ hu => hu.windowPut)) h)

theorem MemWf.dlWrite (h : MemWf s) {v : W64} : MemWf (s.dlWrite v) := .ite h (h.of_eq rfl rfl)

theorem MemWf.execDebugLineWrite (h : MemWf s) {v : BitVec 64} : OutWf (execDebugLineWrite v s) := .next (.byMc h (fun _ hu => hu.dlWrite))

theorem MemWf.execDebugLineWritePerform (h : MemWf s) : OutWf (Machine.execDebugLineWritePerform s) := by
  unfold Machine.execDebugLineWritePerform
  refine .next ?_
  split
  · exact h
  · extract_lets s0 _ s1 put
    have h0 : MemWf s0 := h.of_eq rfl rfl
    have h1 : MemWf s1 := h0.of_eq rfl rfl
    have hput {u : State} (hu : MemWf u) : MemWf (put u) := hu.partWrite ..
    clear_value s1 put
    refine .ite h (.ite (h1.logFw ..) ?_)
    split
    exacts [h1.logFw .., .ite (hput h0) (hput h1)]

theorem MemWf.unlock (h : MemWf s) {v : W64} : MemWf (s.unlock v) := .ite h (h.of_eq rfl rfl)

theorem MemWf.execDebugUnlock (h : MemWf s) {v : BitVec 64} : OutWf (execDebugUnlock v s) := .next (.byMc h (fun _ hu => hu.unlock))

theorem MemWf.execDebugTokenCheckDone (h : MemWf s) : OutWf (execDebugTokenCheckDone s) := .next (.ite h (h.of_eq rfl rfl))

/-! ### The control space (20) -/

theorem MemWf.fwSet (h : MemWf s) {off : Nat} {v : W64} : MemWf (s.fwSet off v) :=
  .ite (h.of_eq rfl rfl) (.ite (h.of_eq rfl rfl) (.ite (h.of_eq rfl rfl) (h.of_eq rfl rfl)))

theorem MemWf.fwWrite (h : MemWf s) {off : Nat} {v : W64} : MemWf (s.fwWrite off v) := by
  unfold State.fwWrite
  refine .ite ?_ (h.of_eq rfl rfl)
  refine .fwSet ?_
  exact h.of_eq rfl rfl

theorem MemWf.fwTick (h : MemWf s) : MemWf s.fwTick := by
  unfold State.fwTick
  refine foldl_keeps MemWf (fun u x hu => ?_) _ ?_
  exacts [hu.fwSet, h.of_eq rfl rfl]

theorem MemWf.tenantWrite (h : MemWf s) {n : Nat} {v : W64} : MemWf (s.tenantWrite n v) := by
  unfold State.tenantWrite
  refine .ite (h.of_eq rfl rfl) ?_
  split
  exacts [h, .ite h (h.of_eq rfl rfl)]

theorem MemWf.quotaWrite (h : MemWf s) {n : Nat} {v : W64} : MemWf (s.quotaWrite n v) := by
  unfold State.quotaWrite
  split
  exacts [h.of_eq rfl rfl, h.of_eq rfl rfl]

theorem MemWf.pmcPut (h : MemWf s) {core n : Nat} {v : W64} : MemWf (s.pmcPut core n v) := .ite (h.of_eq rfl rfl) h

theorem MemWf.pmselPut (h : MemWf s) {core n : Nat} {v : W64} : MemWf (s.pmselPut core n v) := .ite (h.of_eq rfl rfl) h

theorem MemWf.cctlWrite (h : MemWf s) {c : Nat} {v : W64} : MemWf (s.cctlWrite c v) := h.modCtx.cctlCmd

theorem MemWf.cdbgWrite (h : MemWf s) {c : Nat} {v : W64} : MemWf (s.cdbgWrite c v) := h

theorem MemWf.ctlWrite (h : MemWf s) {off : Nat} {v : W64} : MemWf (s.ctlWrite off v) := by
  unfold State.ctlWrite
  refine .ite h (.ite (.ite h.modCtx h.cctlWrite) (.ite (.ite h.cdbgWrite (.ite h.modCtx h)) (.ite (h.of_eq rfl rfl) ?_)))
  refine .ite (.forN h _ fun _ _ hu => .ite hu.unrchClear hu) (.ite h.linkEnable (.ite h.dlWrite (.ite (.ite ?_ h) ?_)))
  · exact .forN h _ fun _ _ hu => hu.of_eq rfl rfl
  refine .ite h.unlock (.ite (h.of_eq rfl rfl) (.ite h.fwWrite (.ite (.ite h.modCtx h) ?_)))
  refine .ite (.ite h.tenantWrite (.ite h.quotaWrite h)) (.ite ?_ ?_)
  · exact .forN h _ fun _ _ hu => hu.of_eq rfl rfl
  exact .ite (.ite h.dctlCmd h) (.ite (.ite h.pmcPut h.pmselPut) (.ite (h.of_eq rfl rfl) (.ite h.windowPut h)))

theorem MemWf.ctlStore (h : MemWf s) {pa : Nat} {bs : List Byte} : MemWf (s.ctlStore pa bs) := .forN h _ fun _ _ hu => hu.ctlWrite

theorem MemWf.mcWrite (h : MemWf s) {off : Nat} {v : W64} : MemWf (s.mcWrite off v) := .byMc h (fun _ hu => hu.ctlWrite)

theorem MemWf.execRegisterWrite (h : MemWf s) {addr : Nat} {v : BitVec 64} : OutWf (execRegisterWrite addr v s) := .next (.ite h.mcWrite h)

theorem MemWf.execTenantProvision (h : MemWf s) {slot : Nat} {v : BitVec 64} : OutWf (execTenantProvision slot v s) :=
  .next (.ite h.mcWrite h)

theorem MemWf.execTenantRelease (h : MemWf s) {slot : Nat} {v : BitVec 64} : OutWf (execTenantRelease slot v s) := .next (.ite h.mcWrite h)

theorem MemWf.execPmcWrite (h : MemWf s) {core n : Nat} {v : BitVec 64} : OutWf (execPmcWrite core n v s) :=
  .next (.ite (.byMc h (fun _ hu => hu.pmcPut)) h)

theorem MemWf.execPmselWrite (h : MemWf s) {core n : Nat} {v : BitVec 64} : OutWf (execPmselWrite core n v s) :=
  .next (.ite (.byMc h (fun _ hu => hu.pmselPut)) h)

/-! ### Performing, and the data caches (10) -/

theorem MemWf.setL1 (h : MemWf s) {core line : Nat} {st : Moesi} : MemWf (s.setL1 core line st) := by
  unfold State.setL1
  refine .ite h.putL1 ?_
  refine .putL1 ?_
  refine .evictL1 ?_
  exact h.of_eq rfl rfl

theorem MemWf.l1Fill (h : MemWf s) {core part line : Nat} : MemWf (s.l1Fill core part line) :=
  .ite h (.pmcEvent (.ite (((h.othersRead ..).dirShare ..).setL1) (((h.othersRead ..).modDir).setL1)) ..)

theorem MemWf.l1Own (h : MemWf s) {core part line : Nat} : MemWf (s.l1Own core part line) := by
  unfold State.l1Own
  refine .ite h ?_
  split
  exacts [h, h.putL1, .setL1 (.modDir (.invalidate (.putL1 (.ite (h.pmcEvent ..) h))))]

theorem MemWf.execL1LoadMiss (h : MemWf s) {core line : Nat} : OutWf (execL1LoadMiss core line s) := by
  unfold Machine.execL1LoadMiss
  refine .next ?_
  split
  exacts [h.l1Fill, h]

theorem MemWf.execL1StoreMiss (h : MemWf s) {core line : Nat} : OutWf (execL1StoreMiss core line s) := by
  unfold Machine.execL1StoreMiss
  refine .next ?_
  split
  exacts [.ite h.l1Own h, h]

theorem MemWf.execL1Upgrade (h : MemWf s) {core line : Nat} : OutWf (execL1Upgrade core line s) := by
  unfold Machine.execL1Upgrade
  refine .next ?_
  split
  exacts [.ite h h.l1Own, h]

theorem MemWf.execL1Eviction (h : MemWf s) {core line : Nat} : OutWf (execL1Eviction core line s) := .next h.evictL1

theorem MemWf.execDirectoryEntryEvict (h : MemWf s) {line : Nat} : OutWf (execDirectoryEntryEvict line s) := .next h.invalidate

theorem MemWf.performWrite (h : MemWf s) {r : Req} {pa : Nat} {bytes : List Byte} : MemWf (s.performWrite r pa bytes) := by
  unfold State.performWrite
  refine .ite h.dropReq.ctlStore ?_
  refine .ite h ?_
  refine .ite ?_ h.performEntry
  refine .ite h.performEntry ?_
  refine .l1Own ?_
  exact .of_eq h.performEntry rfl rfl

theorem MemWf.maintain (h : MemWf s) {core line : Nat} {inv l2 : Bool} : MemWf (s.maintain core line inv l2) := by
  unfold State.maintain
  extract_lets s2 s1
  have h2 : MemWf s2 := h.l2Touch.putL1
  have h1 : MemWf s1 := by
    refine .ite h.evictL1 ?_
    split
    exacts [h.l2Touch.putL1, h2.of_eq rfl rfl, h]
  exact .ite (h1.of_eq rfl rfl) h1

theorem MemWf.execHomeWritePerform (h : MemWf s) {req : Nat} : OutWf (execHomeWritePerform req s) := by
  unfold Machine.execHomeWritePerform
  refine .next ?_
  split
  · exact h
  · refine .ite h ?_
    split
    · exact h.performWrite
    · exact .ite h.performEntry h
    · exact .ite h.performEntry h
    · exact .forN h.dropReq _ fun _ _ hu => hu.maintain
    · exact .forN h.dropReq _ fun _ _ hu => .ite hu.l1Fill hu.l2Touch
    · exact h.dropReq.icInvalidate
    · exact h

theorem MemWf.ctlAtomic (h : MemWf s) {r : Req} {op : AtomicOp} {at_ pa : Nat} {b c : W64} {ret : Option Nat} : MemWf (s.ctlAtomic r op
    at_ pa b c ret) := by
  unfold State.ctlAtomic
  dsimp only
  split
  exacts [.ite h.dropReq h.dropReq.ctlStore, .arrive (.ite h.dropReq h.dropReq.ctlStore)]

theorem MemWf.execAtomicAtHome (h : MemWf s) {req : Nat} : OutWf (execAtomicAtHome req s) := by
  unfold Machine.execAtomicAtHome
  refine .next ?_
  split
  · exact h
  · split
    exacts [.ite h (.ite h.performed.ctlAtomic (.ite h (.ite (.of_eq h.performEntry rfl rfl) h.performEntry))), h]

theorem MemWf.execLoadDataArrive (h : MemWf s) {req : Nat} : OutWf (execLoadDataArrive req s) := by
  unfold Machine.execLoadDataArrive
  refine .next ?_
  split
  · exact h
  · refine .ite h (.ite h.performed.loadArrive ?_)
    split
    · exact h.performed.loadArrive
    · exact h.performed.loadArrive
    · exact foldl_keeps MemWf (fun _ _ hu => .ite hu hu.l1Fill) _ h.performed.loadArrive

theorem MemWf.execUncorrectableError (h : MemWf s) {site : ErrorSite} : OutWf (execUncorrectableError site s) := by
  unfold Machine.execUncorrectableError
  refine .next ?_
  split
  · exact .ite (h.setTag.logFw ..) h
  · refine .ite h ?_
    dsimp only
    split
    exacts [h.setFtag.logFw .., h.setFtag.log ..]
  · exact .ite (.ite h.modTh h) h
  · exact .ite (.ite h.modTh h) h
  · exact .ite (.ite h.modTh h) h
  · exact .ite h.modTh h

theorem MemWf.execCorrectableError (h : MemWf s) {die : Nat} : OutWf (execCorrectableError die s) := .next (.ite (h.of_eq rfl rfl) h)

theorem MemWf.hostHold (h : MemWf s) {line : Nat} {wr : Bool} : MemWf (s.hostHold line wr) := by
  unfold State.hostHold
  refine .ite (h.of_eq rfl rfl) ?_
  refine .modDir ?_
  exact h.of_eq rfl rfl

theorem MemWf.hostReq (h : MemWf s) {pa : Nat} {kind : ReqKind} {wr : Bool} : MemWf (s.hostReq pa kind wr) := by
  unfold State.hostReq
  extract_lets r s1 old s2
  have h1 : MemWf s1 := h
  have h2 : MemWf s2 := h1.performEntry
  clear_value old s1 s2
  exact .ite (MemWf.of_eq h2.hostHold rfl rfl) h1

theorem MemWf.hostPut (h : MemWf s) {pa : Nat} {bs : List Byte} : MemWf (s.hostPut pa bs) := by
  unfold State.hostPut
  split
  exacts [.ite h h.hostReq, .ite (.ite ((h.lineWrite ..).setTag) (h.logFw ..)) (h.lineWrite ..), h.logFw ..]

theorem MemWf.hostGet (h : MemWf s) {pa n : Nat} : MemWf (s.hostGet pa n).2 := by
  unfold State.hostGet
  dsimp only
  split
  · split
    exacts [h, (h.othersRead ..).hostHold]
  · exact h.shareLine ..
  · split
    exacts [h, h.logFw ..]

theorem MemWf.hostWrite (h : MemWf s) {addr : Nat} {bytes : List Byte} : MemWf (s.hostWrite addr bytes) :=
  foldl_keeps MemWf (fun _ _ hu => hu.hostPut) _ h

theorem MemWf.hostRead (h : MemWf s) {addr len : Nat} : MemWf (s.hostRead addr len) := by
  have h1 := foldl_keeps (f := fun (acc : List Byte × State) (e : Nat × Nat) => (acc.1 ++ (acc.2.hostGet (addr + e.1) e.2).1,
    (acc.2.hostGet (addr + e.1) e.2).2)) (fun a => MemWf a.2) (fun a e ha => ha.hostGet) (splitLines addr len) (s := ([], s)) h
  exact MemWf.of_eq h1 rfl rfl

theorem MemWf.hostAtomic (h : MemWf s) {op : AtomicOp} {addr at_ : Nat} {b c : W64} : MemWf (s.hostAtomic op addr at_ b c) :=
  .ite h h.hostReq

theorem MemWf.hostAsk {addr len : Nat} {a : Asked} {f : State → State} (h : MemWf s) (hf : ∀ u, MemWf u → MemWf (f u)) :
    OutWf (hostAsk addr len a f s) :=
  .ite (.fault _) (.next (.ite (h.served hf) h))

theorem MemWf.execHostWrite (h : MemWf s) {addr : Nat} {bytes : List (BitVec 8)} : OutWf (execHostWrite addr bytes s) :=
  MemWf.hostAsk h (fun _ hu => hu.hostWrite)

theorem MemWf.execHostRead (h : MemWf s) {addr len : Nat} : OutWf (execHostRead addr len s) :=
  MemWf.hostAsk h (fun _ hu => hu.hostRead.transmit)

theorem MemWf.execHostAtomic (h : MemWf s) {op : AtomicOp} {addr : Nat} {at_ : BitVec 3} {b c : BitVec 64} : OutWf (execHostAtomic op
    addr at_ b c s) := MemWf.hostAsk h (fun _ hu => hu.hostAtomic.transmit)

/-! ### Power, reset and security (20) -/

theorem MemWf.idleTick (h : MemWf s) : MemWf s.idleTick := h

theorem MemWf.execIdleEntry (h : MemWf s) : OutWf (execIdleEntry s) := .next h.enterDue

theorem MemWf.execIdleExit (h : MemWf s) : OutWf (execIdleExit s) := .next h.enterDue.startExit

theorem MemWf.fuseWrite (h : MemWf s) {n : Nat} : MemWf (s.fuseWrite n) := .ite (h.of_eq rfl rfl) (.ite (h.of_eq rfl rfl) h)

theorem MemWf.attest (h : MemWf s) {nonce : BitVec 256} : MemWf (s.attest nonce) := .ite h (h.of_eq rfl rfl)

theorem MemWf.execFuseWrite (h : MemWf s) {stage : Nat} : OutWf (execFuseWrite stage s) := .next (.served h (fun _ hu => hu.fuseWrite))

theorem MemWf.execAttestationRequest (h : MemWf s) {nonce : BitVec 256} : OutWf (execAttestationRequest nonce s) :=
  .next (.served h (fun _ hu => hu.attest))

theorem MemWf.serve (h : MemWf s) {a : Asked} : MemWf (s.serve a) := by
  unfold State.serve
  split
  · exact .ite h.flitIn h
  · exact h.hostWrite
  · exact h.hostRead.transmit
  · exact h.hostAtomic.transmit
  · exact h.ctlWrite
  · exact h.fuseWrite
  · exact h.attest

theorem MemWf.execIdleExitComplete (h : MemWf s) : OutWf (execIdleExitComplete s) := by
  unfold Machine.execIdleExitComplete
  refine .next ?_
  split
  · exact h
  · refine .ite h (foldl_keeps MemWf (fun u x hu => ?_) _ ?_)
    exacts [hu.serve, h.of_eq rfl rfl]

theorem MemWf.execHltolMessage (h : MemWf s) {v : BitVec 16} : OutWf (execHltolMessage v s) :=
  .next (.ite (.ite (.of_eq h.enterDue rfl rfl) (.startExit (.of_eq h.enterDue rfl rfl))) h)

theorem MemWf.execThrottleAdjust (h : MemWf s) {sample : Nat} : OutWf (execThrottleAdjust sample s) := .next (.ite h (h.of_eq rfl rfl))

theorem MemWf.execPackageReset (h : MemWf s) : OutWf (execPackageReset s) := by
  unfold Machine.execPackageReset
  refine .next (.ite ?_ (h.of_eq rfl rfl))
  exact memWf_iff.2 ⟨Memory.wf_filter (memWf_iff.1 h).1 _, rfl⟩

/-! ### The start of commands and the end of the cycle (08) -/

theorem MemWf.runCmd (h : MemWf s) {m : Cmd} : MemWf (s.runCmd m) := h

theorem MemWf.startCmd (h : MemWf s) {m : Cmd} : MemWf (s.startCmd m) := .ite (.ite h.runCmd.startCopy (.ite h.runCmd.startTensor (.ite
    h.runCmd.startSems (.ite h.runCmd.startRuq (.ite h.runCmd.startRufl (.ite h.runCmd.startOccr h.runCmd)))))) (.ite h.runCmd.startChopn
  (.ite h.runCmd.startColl (.ite h.runCmd.startCola (.ite h.runCmd.startBar (.ite h.runCmd.startBari (.ite h.runCmd.startGrpc (.ite
  h.runCmd.startGrpf (.ite h.runCmd.startLnks h.runCmd))))))))

theorem MemWf.startEngine (h : MemWf s) {m : Cmd} : MemWf (s.startEngine m) := by
  unfold State.startEngine
  refine .ite h ?_
  split
  exacts [(h.log ..).cmdError, h.startCmd]

theorem MemWf.execEngineStart (h : MemWf s) {cmd : Nat} : OutWf (execEngineStart cmd s) := by
  unfold Machine.execEngineStart
  refine .next ?_
  split
  exacts [h, h.startEngine]

theorem MemWf.startWaits (h : MemWf s) : MemWf s.startWaits := foldl_keeps MemWf (fun _ _ hu => .ite hu.startEngine hu) _ h

theorem MemWf.fireWaits (h : MemWf s) : MemWf s.fireWaits :=
  foldl_keeps MemWf (fun _ _ hu => .ite hu.fire (.ite hu.fire (.ite hu.fire hu))) _ h

theorem MemWf.pruneDrains (h : MemWf s) : MemWf s.pruneDrains := h

theorem MemWf.hearFired (h : MemWf s) : MemWf s.hearFired :=
  foldl_keeps MemWf (fun _ _ hu => .ite hu (.ite hu.hear (.ite hu.hear (.ite hu.hear (.ite hu.hear hu))))) _ h

theorem MemWf.endTick (h : MemWf s) : MemWf s.endTick := h

theorem MemWf.pruneCmds (h : MemWf s) : MemWf s.pruneCmds := h

theorem MemWf.settle (h : MemWf s) : MemWf s.settle :=
  h.endTick.startWaits.fireWaits.copyTick.tensorTick.taskTick.resumeTick.closeTick.collTick.colaTick.quarTick.fabricTick.failTick
    |>.barTick.savedTick.pmcCycle.pmcTick.fwTick.idleTick.hearFired.pruneDrains.pruneCmds.observe.pruneOrders.pagerTick.edgeTick

theorem MemWf.tick (h : MemWf s) : MemWf s.tick := .ite h.withTurn h.settle.withTurn

end

end Sys2Proof.Machine
end

section
/-! PROOFS. O59: every slot, every bundle and every step keeps both memories in canonical form. -/

namespace Sys2Proof.Machine

open Sys2Proof

section
variable {s : State}

/-! ### What a slot does -/

/-- What a slot's operation does at its commit, and what it asks for while it is held, keeps memory canonical. -/
structure SlotOp.KeepsMem (o : SlotOp) : Prop where
  eff : ∀ c v, MemWf v → MemWf (o.eff c v)
  onHold : ∀ c v, MemWf v → MemWf (o.onHold c v)

theorem opWaitm_keepsMem {x : RRR} : (opWaitm x).KeepsMem := by
  constructor <;> intro c v h
  · unfold opWaitm
    dsimp only
    split
    · exact h
    · exact MemWf.fly (.ite ((h.xFill.receive ..).log ..)
        (.ite (((h.xFill.receive ..).othersRead ..).log ..) ((h.xFill.receive ..).othersRead ..)))
  · unfold opWaitm
    dsimp only
    split
    exacts [h, .ite h (h.othersRead ..).modTh]

theorem opPresMig_keepsMem {x : PresMig} : (opPresMig x).KeepsMem := by
  refine ⟨fun c v h => ?_, fun _ _ h => h⟩
  unfold opPresMig
  dsimp only
  split
  exacts [h.unqueue.rebind.modTh.fly, h.fly]

theorem opCrw_keepsMem {x : Crf} : (opCrw x).KeepsMem := by
  refine ⟨fun c v h => .ite h.fly ?_, fun _ _ h => h⟩
  split
  exacts [h.fly, h]

theorem opLdcv_keepsMem {x : Gld} : (opLdcv x).KeepsMem := by
  refine ⟨fun c v h => ?_, fun _ _ h => h⟩
  unfold opLdcv
  dsimp only
  split
  exacts [h, h.sendLoad]

theorem opStcv_keepsMem {x : Stcv} : (opStcv x).KeepsMem := by
  refine ⟨fun c v h => ?_, fun _ _ h => h⟩
  unfold opStcv
  dsimp only
  split
  · exact h
  · exact MemWf.report (.ite (.forN h _ fun _ _ hu => hu.addReq) (MemWf.addReq (.forN h _ fun _ _ hu => hu.addReq)))

theorem opVmts_keepsMem {x : VRB} : (opVmts x).KeepsMem := by
  unfold opVmts
  split <;> exact ⟨fun _ _ h => h, fun _ _ h => h⟩

theorem opVclmp_keepsMem {x : VRR} : (opVclmp x).KeepsMem := by
  unfold opVclmp
  dsimp only
  split <;> exact ⟨fun _ _ h => h, fun _ _ h => h⟩

theorem opAcst_keepsMem {x : Tab} : (opAcst x).KeepsMem := by
  refine ⟨fun c v h => .ite h.startXfer (MemWf.startXfer ?_), fun _ _ h => h⟩
  split
  · exact h.storeRec
  · exact .forN h _ fun _ _ hu => .forN hu _ fun _ _ hw => hw.addReq

theorem recvOp_keepsMem {x : Chn} {lgl add : Bool} : (recvOp x lgl add).KeepsMem := by
  refine ⟨fun c v h => ?_, fun _ _ h => h⟩
  have h1 (bad : List (Nat × Nat)) {u : State} (hu : MemWf u) : MemWf (bad.foldl (fun s a => s.log c.cx a.1 a.2 (s.agentOf c.k)) u) :=
    foldl_keeps MemWf (fun _ _ hw => hw.log ..) _ hu
  exact (h1 _ h.accept.hearOnce.takeHead).withFresh.fly

theorem opColl_keepsMem {x : EngF} : (opColl x).KeepsMem := by
  refine ⟨fun c v h => ?_, fun _ _ h => h⟩
  have h1 (n seq : Nat) : MemWf (((grpPtr x 64 true (grpOp x 6 (legal (.coll x)) false .any true false)).eff c v).numbered v.nextId seq
      (fun g => { g with colls := seq }) c.cx n) := MemWf.numbered h.accept
  refine .ite (MemWf.grpPut ?_) ?_ <;> split
  exacts [(h1 ..).engineWrite .., h1 .., (h1 ..).engineWrite .., h1 ..]

theorem opCola_keepsMem {x : EngF} : (opCola x).KeepsMem := by
  refine ⟨fun c v h => ?_, fun _ _ h => h⟩
  have h1 : MemWf ((grpPtr x 8 true (grpOp x 8 (legal (.cola x)) false .any true false)).eff c v) := h.accept
  unfold opCola
  dsimp only
  exact h1.numbered

theorem opGrpc_keepsMem {x : EngF} : (opGrpc x).KeepsMem := by
  refine ⟨fun c v h => ?_, fun _ _ h => h⟩
  have h1 (restart : Bool) : MemWf (((grpPtr x 1 false (grpOp x 13 (legal (.grpc x)) true .csOnly true false)).eff c v).modCmd v.nextId
      fun m => { m with aux := [b2n restart] }) := MemWf.modCmd h.accept
  exact .ite (.ite (h1 _).withSignals.modGrp.grpPut (h1 _).withSignals.modGrp) (h1 _)

theorem atomicOp_keepsMem {op : AtomicOp} {g a : BitVec 4} {n : BitVec 1} {d b : BitVec 6} {o : BitVec 2} {sc : BitVec 3} {lg : Bool} :
    (atomicOp op g a n d b o sc lg).KeepsMem := ⟨fun _ _ h => .ite h.addReq h.sendLoad, fun _ _ h => h⟩

/-- Every instruction of a slot keeps memory canonical. -/
theorem slotOf_keepsMem {i : Instr} {o : SlotOp} (e : slotOf i = some o) : o.KeepsMem := by
  cases i with
  | loop | loopr => cases e; exact ⟨fun _ _ h => h.enterLoop, fun _ _ h => h⟩
  | lbrk => cases e; exact ⟨fun _ _ h => h.popLoop.transfer, fun _ _ h => h⟩
  | waitm => cases e; exact opWaitm_keepsMem
  | pres | presSkip => cases e; exact ⟨fun _ _ h => .fly (.ite h.modTh h), fun _ _ h => h⟩
  | presMig => cases e; exact opPresMig_keepsMem
  | pkill => cases e; exact ⟨fun _ _ h => .fly (.ite h (.ite h.killRunning h.killSaved)), fun _ _ h => h⟩
  | crw => cases e; exact opCrw_keepsMem
  | icinv => cases e; exact ⟨fun _ _ h => .ite h.icInvalidate h.icInvalidate.addReq, fun _ _ h => h⟩
  | fin => cases e; exact ⟨fun _ _ h => h.finTask, fun _ _ h => h⟩
  | lds | ldv | gaths => cases e; exact ⟨fun _ _ h => h.logSp.fly, fun _ _ h => h⟩
  | sts | stv => cases e; exact ⟨fun _ _ h => h.spWrite .., fun _ _ h => h⟩
  | stg | stgv => cases e; exact ⟨fun _ _ h => h.sendStore, fun _ _ h => h⟩
  | ldcv => cases e; exact opLdcv_keepsMem
  | stcv => cases e; exact opStcv_keepsMem
  | gath => cases e; exact ⟨fun _ _ h => .ite h.modTh h.sendLoad, fun _ _ h => h⟩
  | scat => cases e; exact ⟨fun _ _ h => foldl_keeps MemWf (fun _ _ hu => hu.sendStore) _ h, fun _ _ h => h⟩
  | scats => cases e; exact ⟨fun _ _ h => foldl_keeps MemWf (fun _ _ hu => hu.spWrite ..) _ h, fun _ _ h => h⟩
  | probe => cases e; exact ⟨fun _ _ h => .ite h.fly.spAsk h.fly, fun _ _ h => h⟩
  | pref => cases e; exact ⟨fun _ _ h => .ite h.addReq h, fun _ _ h => h⟩
  | atadd | atmin | atmax | atand | ator | atxor | atxch | atcas | atld | atst => cases e; exact atomicOp_keepsMem
  | pclr => cases e; exact ⟨fun _ _ h => .ite ((h.performPclr ..).afreshLine ..) h.addReq, fun _ _ h => h⟩
  | vmts => cases e; exact opVmts_keepsMem
  | vclmp => cases e; exact opVclmp_keepsMem
  | mma | mmat | mmaz => cases e; exact ⟨fun _ _ h => h.newCmd.modTh.readGroup, fun _ _ h => h⟩
  | acld => cases e; exact ⟨fun _ _ h => .ite h.startXfer (.forN h.startXfer _ fun _ _ hu => hu.addReq), fun _ _ h => h⟩
  | acst => cases e; exact opAcst_keepsMem
  | acmv => cases e; exact ⟨fun _ _ h => .ite h h.fly, fun _ _ h => h⟩
  | acps => cases e; exact ⟨fun _ _ h => .ite h.fly h.fly, fun _ _ h => h⟩
  | cstat => cases e; exact ⟨fun _ _ h => .ite h.accept.fly.modTh h.accept.fly, fun _ _ h => h⟩
  | send =>
    cases e
    exact ⟨fun _ _ h => .ite (((h.accept.signal ..).putChan).sendPacket) ((h.accept.signal ..).putChan), fun _ _ h => h⟩
  | recv | recvadd => cases e; exact recvOp_keepsMem
  | chcl => cases e; exact ⟨fun _ _ h => h.accept.putChan, fun _ _ h => h⟩
  | coll => cases e; exact opColl_keepsMem
  | grpc => cases e; exact opGrpc_keepsMem
  | cpy | cpyc | cpyf | cpyk => cases e; exact ⟨fun _ _ h => h.accept.modTh, fun _ _ h => h⟩
  | tsub => cases e; exact ⟨fun _ _ h => h.accept.modCtx.fly.withTasks, fun _ _ h => h⟩
  | chst => cases e; exact ⟨fun _ _ h => h.accept.fly, fun _ _ h => h⟩
  | cola => cases e; exact opCola_keepsMem
  | cwait | tstep | tscale | tread | treadSync | tcfg | trst | twait | twaitAll | semsAdd | semsSet
  | semw | qinit | qinitLoad | qgate | qdiag | qswap | qmeas | qmeasSamp | ruq | rufl | occr | occrClr | kjoin | chopn | colw
  | barr | barx | barw | bariInit | bariFree | grpf | lnks => cases e; exact ⟨fun _ _ h => h.accept, fun _ _ h => h⟩
  | _ => cases e <;> exact ⟨fun _ _ h => h, fun _ _ h => h⟩

/-! ### The slots of a bundle (03) -/

theorem SlotOp.KeepsMem.illegal {o : SlotOp} (h : o.KeepsMem) : o.illegal.KeepsMem := ⟨h.eff, h.onHold⟩

theorem SlotOp.KeepsMem.withChk {o : SlotOp} (h : o.KeepsMem) {f : IC → Option SF} : { o with chk := f }.KeepsMem :=
  ⟨h.eff, h.onHold⟩

theorem SlotOp.KeepsMem.of_map {i : Instr} {o : SlotOp} {f : SlotOp → SlotOp} (e : (slotOf i).map f = some o)
    (hf : ∀ o : SlotOp, o.KeepsMem → (f o).KeepsMem) : o.KeepsMem := by
  obtain ⟨_, e1, rfl⟩ := Option.map_eq_some_iff.mp e
  exact hf _ (slotOf_keepsMem e1)

theorem slotAt_keepsMem {pos : Nat} {w : W32} {o : SlotOp} (e : (slotAt pos w).op = some o) : o.KeepsMem := by
  unfold slotAt at e
  dsimp only at e
  split at e
  · split at e
    exacts [.of_map e fun _ h => h.illegal, slotOf_keepsMem e]
  · split at e
    exacts [.of_map e fun _ h => h.withChk, .of_map e fun _ h => h.illegal]
  · exact .of_map e fun _ h => h.illegal
  · cases e

/-- Every slot of these keeps memory canonical. -/
def SlotsKeepMem (slots : List Slot) : Prop := ∀ x ∈ slots, ∀ o, x.op = some o → o.KeepsMem

theorem slotsAt_keepMem {line : List Byte} {off : Nat} {h : Header} : SlotsKeepMem (slotsAt line off h) := by
  intro x hx o e
  obtain ⟨_, _, rfl⟩ := List.mem_map.mp hx
  exact slotAt_keepsMem e

theorem MemWf.holdAsk {slots : List Slot} (h : MemWf s) (hs : SlotsKeepMem slots) {mk : Slot → IC} :
    MemWf (holdAsk mk slots s) := by
  refine List.foldlRecOn slots _ h fun u hu x hx => ?_
  dsimp only
  split
  · exact hu
  · next e => exact .ite hu ((hs x hx _ e).onHold _ _ (foldl_keeps MemWf (fun _ _ hw => hw.spAsk) _ hu.modTh))

theorem MemWf.commitSlots {slots : List Slot} (h : MemWf s) (hs : SlotsKeepMem slots) {mk : Slot → IC} :
    MemWf (commitSlots mk slots s) := by
  refine List.foldlRecOn slots _ h fun u hu x hx => ?_
  split
  · exact hu
  · next e => exact .ite ((hs x hx _ e).eff _ _ hu) hu

theorem MemWf.commit {slots : List Slot} (h : MemWf s) (hs : SlotsKeepMem slots) {k : Nat} {hd : Header} {marker : Option W32}
    {mk : Slot → IC} : MemWf (s.commit k hd marker slots mk) := by
  unfold State.commit
  extract_lets old s0 s1 s2 s4 s5
  have h1 : MemWf s1 := .ite h.advance.rotate h.advance
  have h2 : MemWf s2 := MemWf.commitSlots (.ite h1.join h1) hs
  have h4 : MemWf s4 := .ite h2 h2.auStep
  have h5 : MemWf s5 := by
    unfold s5
    split
    exacts [h4.marker, h4]
  exact h5.loopEnd.taint.count.tally

theorem MemWf.issueBegun {slots : List Slot} (h : MemWf s) (hs : SlotsKeepMem slots) {k : Nat} {hd : Header} {marker : Option W32} :
    MemWf (s.issueBegun k hd marker slots) := by
  unfold State.issueBegun
  dsimp only
  refine .ite h.bundleFault (.ite h.bundleFault ?_)
  split
  · exact .ite h.stallEnd.modTh.credit h.bundleFault
  · refine .ite h.bundleFault ?_
    split
    exacts [(h.holdAsk hs).holdCycle, .ite h.bundleFault (h.commit hs).afterCommit]

theorem MemWf.issueAtPc (h : MemWf s) {k : Nat} : MemWf (s.issueAtPc k) := by
  unfold State.issueAtPc
  dsimp only
  split
  · exact h.bundleFault
  · split
    exacts [h.modTh.holdCycle, h.issueBegun slotsAt_keepMem]

theorem MemWf.execBundleIssue (h : MemWf s) {k : Nat} : OutWf (execBundleIssue k s) :=
  .next (.ite (h.cycle fun _ hu => hu.issueAtPc) h)

/-! ### The step -/

/-- An event of the agenda keeps memory canonical. -/
theorem MemWf.exec (h : MemWf s) {i : Instr} (hi : State.isEvent i = true) : OutWf (exec i s) := by
  cases i with
  | bundleIssue => exact h.execBundleIssue
  | resultLand => exact h.execResultLand
  | loadDataArrive => exact h.execLoadDataArrive
  | waitmReread => exact h.execWaitmReread
  | matrixGroupRead => exact h.execMatrixGroupRead
  | matrixComplete => exact h.execMatrixComplete
  | acldComplete => exact h.execAcldComplete
  | acstComplete => exact h.execAcstComplete
  | engineStart => exact h.execEngineStart
  | copyNotBeforeRelease => exact h.execCopyNotBeforeRelease
  | copySourceResume => exact h.execCopySourceResume
  | copyComplete => exact h.execCopyComplete
  | deltaMerge => exact h.execDeltaMerge
  | deltaMergeTimeout => exact h.execDeltaMergeTimeout
  | installRetry => exact h.execInstallRetry
  | tensorCrossingPost => exact h.execTensorCrossingPost
  | taskEnter => exact h.execTaskEnter
  | channelElementArrive => exact h.execChannelElementArrive
  | channelCreditArrive => exact h.execChannelCreditArrive
  | remoteOpenMatch => exact h.execRemoteOpenMatch
  | deadlockDetect => exact h.execDeadlockDetect
  | collectivePacketReceive => exact h.execCollectivePacketReceive
  | scaleAgreementDone => exact h.execScaleAgreementDone
  | collectiveChunkComplete => exact h.execCollectiveChunkComplete
  | collectiveEnd => exact h.execCollectiveEnd
  | barrierUpdateApply => exact h.execBarrierUpdateApply
  | barrierPhaseComplete => exact h.execBarrierPhaseComplete
  | groupJoinReceive => exact h.execGroupJoinReceive
  | memberFailure => exact h.execMemberFailure
  | quarantineEnd => exact h.execQuarantineEnd
  | faultRecordWrite => exact h.execFaultRecordWrite
  | translationWalkDone => exact h.execTranslationWalkDone
  | recordLeavesMetadataCache => exact h.execRecordLeavesMetadataCache
  | pageTableWrite => exact h.execPageTableWrite
  | shootdownComplete => exact h.execShootdownComplete
  | homeWritePerform => exact h.execHomeWritePerform
  | atomicAtHome => exact h.execAtomicAtHome
  | l1LoadMiss => exact h.execL1LoadMiss
  | l1StoreMiss => exact h.execL1StoreMiss
  | l1Upgrade => exact h.execL1Upgrade
  | l1Eviction => exact h.execL1Eviction
  | directoryEntryEvict => exact h.execDirectoryEntryEvict
  | uncorrectableError => exact h.execUncorrectableError
  | correctableError => exact h.execCorrectableError
  | taskDispatch => exact h.execTaskDispatch
  | reuseLookup => exact h.execReuseLookup
  | reusePlaceComplete => exact h.execReusePlaceComplete
  | taskRetire => exact h.execTaskRetire
  | contextCreate => exact h.execContextCreate
  | contextRun => exact h.execContextRun
  | contextPreempt => exact h.execContextPreempt
  | contextDestroy => exact h.execContextDestroy
  | contextDestroyComplete => exact h.execContextDestroyComplete
  | cctlInvalidCommand => exact h.execCctlInvalidCommand
  | partitionSaveComplete => exact h.execPartitionSaveComplete
  | saveComplete => exact h.execSaveComplete
  | coreGate => exact h.execCoreGate
  | pageInComplete => exact h.execPageInComplete
  | pageOutComplete => exact h.execPageOutComplete
  | residencyStayExpire => exact h.execResidencyStayExpire
  | sptEntryWrite => exact h.execSptEntryWrite
  | bounceMerge => exact h.execBounceMerge
  | linkEnable => exact h.execLinkEnable
  | linkDisable => exact h.execLinkDisable
  | signalDetect => exact h.execSignalDetect
  | linkTrained => exact h.execLinkTrained
  | trainingTimeout => exact h.execTrainingTimeout
  | retryExhausted => exact h.execRetryExhausted
  | retrainDone => exact h.execRetrainDone
  | retrainFail => exact h.execRetrainFail
  | signalLost => exact h.execSignalLost
  | flitReceive => exact h.execFlitReceive
  | flitResend => exact h.execFlitResend
  | packetDeliver => exact h.execPacketDeliver
  | packetAgeDiscard => exact h.execPacketAgeDiscard
  | packetResendTimeout => exact h.execPacketResendTimeout
  | packetGiveUp => exact h.execPacketGiveUp
  | noRouteTimeout => exact h.execNoRouteTimeout
  | unreachableNoticeReceive => exact h.execUnreachableNoticeReceive
  | unrchClear => exact h.execUnrchClear
  | resyncReceive => exact h.execResyncReceive
  | timeStampExchange => exact h.execTimeStampExchange
  | hostWrite => exact h.execHostWrite
  | hostRead => exact h.execHostRead
  | hostAtomic => exact h.execHostAtomic
  | hltolMessage => exact h.execHltolMessage
  | idleEntry => exact h.execIdleEntry
  | idleExit => exact h.execIdleExit
  | idleExitComplete => exact h.execIdleExitComplete
  | throttleAdjust => exact h.execThrottleAdjust
  | packageReset => exact h.execPackageReset
  | fuseWrite => exact h.execFuseWrite
  | attestationRequest => exact h.execAttestationRequest
  | debugStop => exact h.execDebugStop
  | debugStep => exact h.execDebugStep
  | debugRun => exact h.execDebugRun
  | windowWrite => exact h.execWindowWrite
  | debugLineWrite => exact h.execDebugLineWrite
  | debugUnlock => exact h.execDebugUnlock
  | pmcWrite => exact h.execPmcWrite
  | pmselWrite => exact h.execPmselWrite
  | tenantProvision => exact h.execTenantProvision
  | tenantRelease => exact h.execTenantRelease
  | registerWrite => exact h.execRegisterWrite
  | corePowerUp => exact h.execCorePowerUp
  | fetchMissFill => exact h.execFetchMissFill
  | packetAckReceive => exact h.execPacketAckReceive
  | stateVectorCommandComplete => exact h.execStateVectorCommandComplete
  | debugTokenCheckDone => exact h.execDebugTokenCheckDone
  | debugLineWritePerform => exact h.execDebugLineWritePerform
  | _ => exact absurd hi Bool.false_ne_true

theorem MemWf.step (h : MemWf s) : OutWf (step s) := by
  unfold Machine.step
  split
  · next e r _ =>
    have hr : MemWf { s with agenda := r } := h.of_eq rfl rfl
    split
    · next happens => exact hr.exec (Bool.and_eq_true_iff.mp happens).1
    · exact .next hr
  · split
    · next k _ _ =>
      have hk : MemWf { s with cur := k } := h.of_eq rfl rfl
      exact hk.execBundleIssue
    · exact .next h.tick
end

/-- Settles O59: a step is an event of the agenda, an issuer's turn or the end of the cycle, and each of them writes the two memories
through `lineWrite`, `viewWrite` and `pageFill` only, or resets the package. -/
theorem stepKeepsMemory : Obligations.StepKeepsMemory := by
  unfold Obligations.StepKeepsMemory
  intro s t h e
  exact MemWf.step h t e

end Sys2Proof.Machine
end
